-- ==== Sys2Proof/Word.lean ====
section
/-! DEFINITION. The word types of the SZ-9 and their plainest arithmetic (00_scope.md R1, R2; 03_gang_words.md R67). -/

namespace Sys2Proof

abbrev Byte := BitVec 8
abbrev Half := BitVec 16
abbrev Word := BitVec 32
abbrev Dword := BitVec 64

/-- One value for each of the 32 lanes of a gang (R10). -/
abbrev Lanes (α : Type) := Vector α 32

/-- The lanes whose value in lane L is `f L`. -/
def Lanes.of {α : Type} (f : Fin 32 → α) : Lanes α := Vector.ofFn f

/-- The same value in every lane. -/
def Lanes.all {α : Type} (a : α) : Lanes α := Vector.replicate 32 a

@[simp] theorem Lanes.of_get {α : Type} (f : Fin 32 → α) (L : Fin 32) : (Lanes.of f)[L] = f L := by
  simp [Lanes.of]

@[simp] theorem Lanes.all_get {α : Type} (a : α) (L : Fin 32) : (Lanes.all a)[L] = a := by
  simp [Lanes.all]

theorem Lanes.ext_get {α : Type} {x y : Lanes α} (h : ∀ L : Fin 32, x[L] = y[L]) : x = y := by
  apply Vector.ext
  intro i hi
  exact h ⟨i, hi⟩

/-- The 32 lane numbers in ascending order. -/
def lanes32 : List (Fin 32) := List.finRange 32

end Sys2Proof
end

