-- ==== Sys2Proof/Machine/Num.lean ====
section
/-! DEFINITION. Numbers: exact values, the narrow and wide formats, rounding, exact sums, products and quotients
(02_numbers_tensors.md R35-R48, R427; 04_gang_arith.md R107-R109). -/

namespace Sys2Proof.Machine

/-! ## Exact values -/

/-- A datum on its way through a datapath: a NaN (its sign, and whether it was a signalling NaN), an infinity, or the exact
number (−1)^neg × m × 2^e. -/
inductive XVal where
  | nan (neg sig : Bool)
  | inf (neg : Bool)
  | fin (neg : Bool) (m : Nat) (e : Int)
  deriving DecidableEq, Repr, Inhabited

def XVal.zero : XVal := .fin false 0 0
def XVal.one : XVal := .fin false 1 0

def XVal.isNan : XVal → Bool
  | .nan _ _ => true
  | _ => false

def XVal.isSig : XVal → Bool
  | .nan _ s => s
  | _ => false

def XVal.isZero : XVal → Bool
  | .fin _ m _ => m == 0
  | _ => false

def XVal.neg : XVal → XVal
  | .nan n s => .nan n s
  | .inf n => .inf (!n)
  | .fin n m e => .fin (!n) m e

def XVal.isNeg : XVal → Bool
  | .nan n _ => n
  | .inf n => n
  | .fin n _ _ => n

def XVal.abs : XVal → XVal
  | .nan _ s => .nan false s
  | .inf _ => .inf false
  | .fin _ m e => .fin false m e

/-- The integer i. -/
def XVal.ofInt (i : Int) : XVal := .fin (i < 0) i.natAbs 0

/-- floor(log2 |x|) of a nonzero finite value. -/
def XVal.log2 (m : Nat) (e : Int) : Int := (Nat.log2 m : Int) + e

/-- The integer m × 2^(e − e0), for e0 at most e. -/
def scaleTo (m : Nat) (e e0 : Int) : Nat := m * 2 ^ (e - e0).toNat

def signed (neg : Bool) (m : Nat) : Int := if neg then -(m : Int) else m

/-! ## Flags of `%xstat` (04 R100) -/

abbrev Flags := BitVec 9
def fInvalid : Flags := 1
def fOverflow : Flags := 2
def fUnderflow : Flags := 4
def fInexact : Flags := 8
def fSaturated : Flags := 16
def fZeroDivide : Flags := 32
def fDiscard : Flags := 256

def flagIf (b : Bool) (f : Flags) : Flags := if b then f else 0

/-! ## Rounding choice (02 R43-R45, R427) -/

/-- The rounding modes, by the code of R43. -/
inductive RMode where
  | rne | rz | rd | ru | rs
  deriving DecidableEq, Repr, Inhabited

def RMode.ofCode : Nat → Option RMode
  | 0 => some .rne
  | 1 => some .rz
  | 2 => some .rd
  | 3 => some .ru
  | 4 => some .rs
  | _ => none

/-- One step of the stochastic source (02 R45). -/
def srndStep (st : Half) : Half :=
  if st.getLsbD 0 then (st >>> 1) ^^^ 0xB400 else st >>> 1

/-- A stochastic state: zero is replaced by one (02 R45). -/
def srndFix (st : Half) : Half := if st = 0 then 1 else st

/-- Whether the member above is chosen, for a value r / 2^d of the way from the member below to the one above (0 < r < 2^d):
`loEven`, `hiEven` say which magnitude codes are even, `rnd` is the random number. -/
def pickUp (mode : RMode) (neg loEven hiEven : Bool) (r d : Nat) (rnd : Half) : Bool :=
  match mode with
  | .rne => if 2 * r = 2 ^ d then (hiEven || !loEven) else 2 ^ d < 2 * r
  | .rz => false
  | .rd => neg
  | .ru => !neg
  | .rs => rnd.toNat ≤ 2 ^ 16 * r / 2 ^ d

/-! ## Formats -/

/-- A format of R35, or FP32, BF16, FP16 or X32. `absent`: subnormals absent. `wide`: its NaN in gang words is R109's. -/
structure Fmt where
  s : Bool
  E : Nat
  M : Nat
  bias : Int
  pol : Nat
  absent : Bool
  wide : Bool
  deriving DecidableEq, Repr, Inhabited

/-- The standard formats (02 R39) and X32 (02 R41). -/
def fp32 : Fmt := ⟨true, 8, 23, 127, 2, false, true⟩
def bf16 : Fmt := ⟨true, 8, 7, 127, 2, false, true⟩
def fp16 : Fmt := ⟨true, 5, 10, 15, 2, false, true⟩
def e4m3 : Fmt := ⟨true, 4, 3, 7, 1, false, false⟩
def e5m2 : Fmt := ⟨true, 5, 2, 15, 2, false, false⟩
def e2m1 : Fmt := ⟨true, 2, 1, 1, 0, false, false⟩
def x32 : Fmt := ⟨true, 10, 23, 511, 2, false, false⟩

/-- Bits of a code, w = s + E + M (02 R35). -/
def Fmt.width (F : Fmt) : Nat := (if F.s then 1 else 0) + F.E + F.M

/-- R36. -/
def Fmt.wf (F : Fmt) : Bool :=
  1 ≤ F.E + F.M && (F.E != 0 || ((F.pol == 0 || F.pol == 3) && !F.absent)) && (F.pol != 2 || (2 ≤ F.E && 1 ≤ F.M))

/-- The exponent of the smallest normal value; of the smallest nonzero magnitude where E = 0 (02 R44). -/
def Fmt.emin (F : Fmt) : Int := if F.E = 0 then -F.bias else 1 - F.bias

/-- The magnitude code of the largest finite value (02 R37). -/
def Fmt.maxCode (F : Fmt) : Nat :=
  match F.pol with
  | 1 => 2 ^ (F.E + F.M) - 2
  | 2 => (2 ^ F.E - 1) * 2 ^ F.M - 1
  | _ => 2 ^ (F.E + F.M) - 1

/-- The magnitude that a magnitude code names, as m × 2^e, special codes apart (02 R35, R38). -/
def Fmt.mag (F : Fmt) (c : Nat) : Nat × Int :=
  if F.E = 0 then (c, -F.bias)
  else if c / 2 ^ F.M = 0 then (if F.absent then 0 else c, 1 - F.bias - F.M)
  else (2 ^ F.M + c % 2 ^ F.M, (c / 2 ^ F.M : Nat) - F.bias - F.M)

/-- The sign bit of a code (no sign bit where s = 0). -/
def Fmt.signBit (F : Fmt) (neg : Bool) : Nat := if F.s && neg then 2 ^ (F.E + F.M) else 0

/-- The value of a code (02 R35, R37, R38); bits above the width are ignored. -/
def Fmt.value (F : Fmt) (code : Nat) : XVal :=
  let c := code % 2 ^ (F.E + F.M)
  let neg := F.s && code / 2 ^ (F.E + F.M) % 2 == 1
  if F.pol = 2 ∧ c / 2 ^ F.M = 2 ^ F.E - 1 then
    (if c % 2 ^ F.M = 0 then .inf neg else .nan neg (c % 2 ^ F.M / 2 ^ (F.M - 1) = 0))
  else if F.pol = 1 ∧ c = 2 ^ (F.E + F.M) - 1 then .nan neg false
  else .fin neg (F.mag c).1 (F.mag c).2

/-- The NaN result and its flag (02 R37). -/
def Fmt.nanResult (F : Fmt) (neg : Bool) : Nat × Flags :=
  match F.pol with
  | 0 => (0, fInvalid)
  | 1 => (2 ^ (F.E + F.M) - 1 + F.signBit neg, 0)
  | 2 => ((2 ^ F.E - 1) * 2 ^ F.M + 2 ^ (F.M - 1) + F.signBit neg, 0)
  | _ => (F.maxCode, fInvalid)

/-- The overflow result (02 R37). -/
def Fmt.overflowResult (F : Fmt) (neg : Bool) : Nat :=
  match F.pol with
  | 1 => 2 ^ (F.E + F.M) - 1 + F.signBit neg
  | 2 => (2 ^ F.E - 1) * 2 ^ F.M + F.signBit neg
  | _ => F.maxCode + F.signBit neg

/-- The unit of the members next to a magnitude of top bit t, and whether it lies below the smallest normal value of a
format without subnormals: then the members are 0 and the smallest normal (02 R44). -/
def Fmt.unit (F : Fmt) (t : Int) : Int × Bool :=
  if F.E = 0 then (-F.bias, false)
  else if t < 1 - F.bias then (if F.absent then (1 - F.bias, true) else (1 - F.bias - F.M, false))
  else (t - F.M, false)

/-- The magnitude code of the member q units up, and of the next one (02 R427). -/
def Fmt.codes (F : Fmt) (t : Int) (gap : Bool) (q : Nat) : Nat × Nat :=
  if gap then (0, 2 ^ F.M)
  else if F.E = 0 ∨ t < 1 - F.bias then (q, q + 1)
  else (q + (t - (1 - F.bias)).toNat * 2 ^ F.M, q + (t - (1 - F.bias)).toNat * 2 ^ F.M + 1)

/-- Rounding a nonzero magnitude m × 2^e: the magnitude code chosen and whether it is inexact. -/
def Fmt.roundMag (F : Fmt) (mode : RMode) (rnd : Half) (neg : Bool) (m : Nat) (e : Int) : Nat × Bool :=
  let t := XVal.log2 m e
  let (u, gap) := F.unit t
  if u ≤ e then ((F.codes t gap (scaleTo m e u)).1, false)
  else
    let d := (u - e).toNat
    let (lo, hi) := F.codes t gap (m / 2 ^ d)
    let r := m % 2 ^ d
    if r = 0 then (lo, false)
    else (if pickUp mode neg (lo % 2 == 0) (hi % 2 == 0) r d rnd then hi else lo, true)

/-- `round(x, F, mode)` (02 R44): the code and the flags. -/
def Fmt.round (F : Fmt) (mode : RMode) (rnd : Half) (x : XVal) : Nat × Flags :=
  match x with
  | .nan neg _ => F.nanResult neg
  | .inf neg =>
    if !F.s && neg then (0, fInvalid) else (F.overflowResult neg, 0)
  | .fin neg m e =>
    if !F.s && neg && m != 0 then (0, fInvalid)
    else if m = 0 then (F.signBit neg, 0)
    else
      let (c, inexact) := F.roundMag mode rnd neg m e
      if F.maxCode < c then
        (if mode = .rz ∨ (mode = .rd ∧ neg = false) ∨ (mode = .ru ∧ neg = true) then F.maxCode + F.signBit neg
         else F.overflowResult neg, fOverflow ||| fInexact)
      else
        (c + F.signBit neg, flagIf inexact fInexact ||| flagIf (inexact && XVal.log2 m e < F.emin) fUnderflow)

/-- The rounding of a gang word: a NaN into FP32, BF16 or FP16 is the canonical one, and reading a signalling NaN sets invalid
(04 R109). -/
def Fmt.roundWord (F : Fmt) (mode : RMode) (rnd : Half) (x : XVal) : Nat × Flags :=
  let (c, f) := F.round mode rnd x
  (if F.wide && x.isNan then (F.nanResult false).1 else c, f ||| flagIf x.isSig fInvalid)

/-- Rounding a value into X32 with RNE, as a value (02 R42, R44); X32 never underflows or overflows. -/
def toX32 (x : XVal) : XVal :=
  match x with
  | .fin _ _ _ => x32.value (x32.round .rne 0 x).1
  | _ => x

/-! ## The format field (02 R50) -/

/-- A decoded format field: the format and its container code. -/
structure Elem where
  fmt : Fmt
  cont : Nat
  deriving DecidableEq, Repr, Inhabited

/-- The format field's reading; none where R36 or R50 is broken. -/
def elemOf (field : Nat) : Option Elem :=
  let cont := field / 2 ^ 21 % 8
  let low := field % 2 ^ 21
  match cont with
  | 4 => none
  | 5 => if low = 0 then some ⟨fp16, 5⟩ else none
  | 6 => if low = 0 then some ⟨bf16, 6⟩ else none
  | 7 => if low = 0 then some ⟨fp32, 7⟩ else none
  | _ =>
    let b : Nat := field / 2 ^ 10 % 256
    let F : Fmt :=
      ⟨field / 8 % 2 == 1, field / 16 % 8, field / 2 ^ 7 % 8, if b < 128 then (b : Int) else (b : Int) - 256,
        field / 2 ^ 18 % 4, field / 2 ^ 20 % 2 == 1, false⟩
    if F.wf && F.width == field % 8 + 1 && (cont != 0 || F.width == 1 || F.width == 2 || F.width == 4) then some ⟨F, cont⟩
    else none

/-- Bits from one element to the next in the image (02 R50, R51). -/
def Elem.bits (E : Elem) : Nat :=
  match E.cont with
  | 0 => E.fmt.width
  | 1 => 8
  | 2 => 16
  | 3 => 32
  | 7 => 32
  | _ => 16

/-! ## Arithmetic on exact values (04 R108, R109): the value and the flags it raises by itself -/

/-- A canonical NaN that a word makes, with invalid. -/
def madeNan : XVal × Flags := (.nan false false, fInvalid)

/-- A NaN that comes from NaN inputs: quiet, invalid where one of them signals. -/
def nanFrom (xs : List XVal) : XVal × Flags := (.nan false false, flagIf (xs.any XVal.isSig) fInvalid)

def xmul (a b : XVal) : XVal × Flags :=
  if a.isNan || b.isNan then nanFrom [a, b]
  else match a, b with
    | .fin s m e, .fin t n f => (.fin (s != t) (m * n) (e + f), 0)
    | .inf s, .inf t => (.inf (s != t), 0)
    | .inf s, .fin t n _ => if n = 0 then madeNan else (.inf (s != t), 0)
    | .fin s m _, .inf t => if m = 0 then madeNan else (.inf (s != t), 0)
    | _, _ => madeNan

/-- The finite terms' least exponent. -/
def minExp : List XVal → Option Int
  | [] => none
  | .fin _ _ e :: r =>
    match minExp r with
    | some f => some (if e ≤ f then e else f)
    | none => some e
  | _ :: r => minExp r

/-- The sum of the finite terms in units of 2^e0. -/
def sumUnits (e0 : Int) : List XVal → Int
  | [] => 0
  | .fin n m e :: r => signed n (scaleTo m e e0) + sumUnits e0 r
  | _ :: r => sumUnits e0 r

/-- The exact sum of a list of terms, rounded by no one; `rd` says that the rounding to come is toward −∞ (04 R108). -/
def xsum (rd : Bool) (xs : List XVal) : XVal × Flags :=
  if xs.any XVal.isNan then nanFrom xs
  else if xs.any (fun x => x == .inf false) then (if xs.any (fun x => x == .inf true) then madeNan else (.inf false, 0))
  else if xs.any (fun x => x == .inf true) then (.inf true, 0)
  else
    let e0 := (minExp xs).getD 0
    let t := sumUnits e0 xs
    if t = 0 then (.fin (rd || (!xs.isEmpty && xs.all fun x => x.isNeg && x.isZero)) 0 0, 0)
    else (.fin (t < 0) t.natAbs e0, 0)

def xadd (a b : XVal) : XVal × Flags := xsum false [a, b]

/-- a × b + c, one exact sum. A NaN addend gives a NaN and the product raises nothing by itself then (log entry 12). -/
def xfma (a b c : XVal) : XVal × Flags :=
  if a.isNan || b.isNan || c.isNan then nanFrom [a, b, c]
  else
    match xmul a b with
    | (.nan _ _, _) => madeNan
    | (p, _) => xadd p c

/-- The quotient m / n × 2^e to at least 64 significant bits, with a last bit that stands for the rest. -/
def ratio (neg : Bool) (m n : Nat) (e : Int) : XVal :=
  let k : Nat := 66 + Nat.log2 n
  let q := m * 2 ^ k / n
  if (m * 2 ^ k : Nat) % n = 0 then .fin neg q (e - (k : Int)) else .fin neg (2 * q + 1) (e - (k : Int) - 1)

/-- a / b (04 R118). -/
def xdiv (a b : XVal) : XVal × Flags :=
  if a.isNan || b.isNan then nanFrom [a, b]
  else match a, b with
    | .inf s, .fin t _ _ => (.inf (s != t), 0)
    | .fin s _ _, .inf t => (.fin (s != t) 0 0, 0)
    | .fin s m e, .fin t n f =>
      if n = 0 then (if m = 0 then (.nan false false, fInvalid ||| fZeroDivide) else (.inf (s != t), fZeroDivide))
      else if m = 0 then (.fin (s != t) 0 0, 0)
      else (ratio (s != t) m n (e - f), 0)
    | _, _ => madeNan

/-- The integer part of the square root of n, from bit k downward. -/
def isqrtFrom : Nat → Nat → Nat → Nat
  | 0, _, acc => acc
  | k + 1, n, acc => isqrtFrom k n (if (acc + 2 ^ k) * (acc + 2 ^ k) ≤ n then acc + 2 ^ k else acc)

def isqrt (n : Nat) : Nat := isqrtFrom (Nat.log2 n / 2 + 1) n 0

/-- √(m × 2^e) to at least 64 significant bits, with a last bit that stands for the rest. -/
def rootOf (m : Nat) (e : Int) : XVal :=
  let (m1, e1) := if e % 2 = 0 then (m, e) else (2 * m, e - 1)
  let n := m1 * 2 ^ 128
  let q := isqrt n
  if q * q = n then .fin false q (e1 / 2 - 64) else .fin false (2 * q + 1) (e1 / 2 - 65)

def xsqrt (a : XVal) : XVal × Flags :=
  match a with
  | .nan _ _ => nanFrom [a]
  | .inf false => (.inf false, 0)
  | .inf true => madeNan
  | .fin s m e => if m = 0 then (a, 0) else if s then madeNan else (rootOf m e, 0)

/-- Rounding to an integer: the magnitude and whether it is inexact. -/
def intMag (mode : RMode) (rnd : Half) (neg : Bool) (m : Nat) (e : Int) : Nat × Bool :=
  if 0 ≤ e then (m * 2 ^ e.toNat, false)
  else
    let d := (-e).toNat
    let q := m / 2 ^ d
    let r := m % 2 ^ d
    if r = 0 then (q, false)
    else (if pickUp mode neg (q % 2 == 0) (q % 2 == 1) r d rnd then q + 1 else q, true)

/-- A value rounded to an integral value (04 R118 fn 11-14). -/
def xintegral (mode : RMode) (a : XVal) : XVal × Flags :=
  match a with
  | .nan _ _ => nanFrom [a]
  | .inf _ => (a, 0)
  | .fin s m e => if 0 ≤ e then (a, 0) else (.fin s (intMag mode 0 s m e).1 0, 0)

/-- Conversion to an integer between lo and hi (04 R127). -/
def xtoInt (mode : RMode) (rnd : Half) (lo hi : Int) (a : XVal) : Int × Flags :=
  match a with
  | .nan _ _ => (0, fInvalid)
  | .inf s => (if s then lo else hi, fInvalid)
  | .fin s m e =>
    if 40 ≤ XVal.log2 m e ∧ m ≠ 0 then (if s then lo else hi, fInvalid)
    else
      let (q, inexact) := intMag mode rnd s m e
      let v := signed s q
      if hi < v then (hi, fInvalid) else if v < lo then (lo, fInvalid) else (v, flagIf inexact fInexact)

/-- Order of two values that are not NaN, −0 below +0 (04 R120). -/
def XVal.lt (a b : XVal) : Bool :=
  match a, b with
  | .inf s, .inf t => s && !t
  | .inf s, .fin _ _ _ => s
  | .fin _ _ _, .inf t => !t
  | .fin s m e, .fin t n f =>
    let e0 := if e ≤ f then e else f
    let x := signed s (scaleTo m e e0)
    let y := signed t (scaleTo n f e0)
    x < y || (x == y && m == 0 && s && !t)
  | _, _ => false

/-- 2^k as a value. -/
def pow2 (k : Int) : XVal := .fin false 1 k

end Sys2Proof.Machine
end

