-- ==== Sys2Proof/Machine/Flags.lean ====
section
/-! DEFINITION. Results with the sticky flags they raise: saturating integers, and the float operations of one lane (04 R100,
R107-R109, R116-R120, R123, R127; 05 R149). -/

namespace Sys2Proof.Machine

/-! ## Integers -/

/-- An integer clipped between lo and hi, with the saturated flag where it clips (04 R107). -/
def clip (lo hi x : Int) : Int × Flags :=
  if x < lo then (lo, fSaturated) else if hi < x then (hi, fSaturated) else (x, 0)

/-- Saturation to a signed and to an unsigned field of w bits. -/
def satI (w : Nat) (x : Int) : BitVec w × Flags :=
  let (v, f) := clip (-(2 ^ (w - 1) : Nat)) ((2 ^ (w - 1) : Nat) - 1) x
  (BitVec.ofInt w v, f)

def satN (w : Nat) (x : Int) : BitVec w × Flags :=
  let (v, f) := clip 0 ((2 ^ w : Nat) - 1) x
  (BitVec.ofInt w v, f)

/-! ## FP32 in one lane -/

/-- The value of an FP32 register. -/
def f32 (x : Word) : XVal := fp32.value x.toNat

/-- One rounding into FP32 with RNE (04 R108). -/
def out32 (v : XVal × Flags) : Word × Flags :=
  let (c, f) := fp32.roundWord .rne 0 v.1
  (BitVec.ofNat 32 c, f ||| v.2)

def fAdd (a b : Word) : Word × Flags := out32 (xadd (f32 a) (f32 b))
def fSub (a b : Word) : Word × Flags := out32 (xadd (f32 a) (f32 b).neg)
def fMul (a b : Word) : Word × Flags := out32 (xmul (f32 a) (f32 b))
def fFma (a b d : Word) : Word × Flags := out32 (xfma (f32 a) (f32 b) (f32 d))
def fFms (a b d : Word) : Word × Flags := out32 (xfma (f32 a).neg (f32 b) (f32 d))
def fDiv (a b : Word) : Word × Flags := out32 (xdiv (f32 a) (f32 b))
def fSqrt (a : Word) : Word × Flags := out32 (xsqrt (f32 a))

/-- fn 11-14 of major 0x0D: always exact (04 R118). -/
def fIntegral (m : RMode) (a : Word) : Word × Flags := out32 (xintegral m (f32 a))

/-- a × 2^b, b a signed integer (04 R118). Beyond ±600 the result is that of ±600. -/
def fScale (a b : Word) : Word × Flags :=
  match f32 a with
  | .fin s m e => out32 (.fin s m (e + max (-600) (min 600 b.toInt)), 0)
  | x => out32 (x, 0)

def canonNan : Word := 0x7FC00000

/-- The min and max words (04 R120), on the codes of any format: which of two codes is taken. `any` is the rule of the `nan`
forms. -/
def pickMinMax (F : Fmt) (isMax any : Bool) (a b : Nat) : Nat × Flags :=
  let x := F.value a
  let y := F.value b
  let f := flagIf (x.isSig || y.isSig) fInvalid
  let canon := (F.nanResult false).1
  if x.isNan && y.isNan then (canon, f)
  else if x.isNan then (if any then canon else b, f)
  else if y.isNan then (if any then canon else a, f)
  else (if isMax then (if x.lt y then b else a) else (if y.lt x then b else a), f)

def fMinMax (isMax any : Bool) (a b : Word) : Word × Flags :=
  let (c, f) := pickMinMax fp32 isMax any a.toNat b.toNat
  (BitVec.ofNat 32 c, f)

/-- max(|a|, |b|) by the `vmax.f32` rule (04 R119). -/
def fMaxAbs (a b : Word) : Word × Flags := fMinMax true false (a &&& 0x7FFFFFFF) (b &&& 0x7FFFFFFF)

/-- `vclass.f32` (04 R119). -/
def fClass (a : Word) : Word :=
  let neg := a.getLsbD 31
  let e := a.extractLsb' 23 8
  let m := a.extractLsb' 0 23
  let k :=
    if e = 255 then
      (if m = 0 then (if neg then 0 else 7) else if a.getLsbD 22 then 9 else 8)
    else if e = 0 then
      (if m = 0 then (if neg then 3 else 4) else (if neg then 2 else 5))
    else (if neg then 1 else 6)
  1#32 <<< (k : Nat)

/-- `vexpo.f32` (04 R119). -/
def fExpo (a : Word) : Word :=
  match f32 a with
  | .fin _ m e => if m = 0 then 0x80000000 else BitVec.ofInt 32 (XVal.log2 m e)
  | _ => 0x7FFFFFFF

/-- FP32 order for compares: +0 = −0 (04 R128). -/
def fUn (a b : Word) : Bool := (f32 a).isNan || (f32 b).isNan
def fEq (a b : Word) : Bool := !fUn a b && (a == b || ((f32 a).isZero && (f32 b).isZero))
def fLt (a b : Word) : Bool := !fUn a b && !((f32 a).isZero && (f32 b).isZero) && (f32 a).lt (f32 b)
def fLe (a b : Word) : Bool := fLt a b || fEq a b

/-! ## Packed elements (04 R123) -/

/-- Element k of a lane. -/
def half (x : Word) (k : Nat) : Nat := (x.extractLsb' (16 * k) 16).toNat

/-- Two elements computed apart and put together. -/
def packed (op : Nat → Nat → Nat → Nat × Flags) (a b d : Word) : Word × Flags :=
  let (x, f) := op (half a 0) (half b 0) (half d 0)
  let (y, g) := op (half a 1) (half b 1) (half d 1)
  (BitVec.ofNat 32 (x + y * 2 ^ 16), f ||| g)

def outF (F : Fmt) (v : XVal × Flags) : Nat × Flags :=
  let (c, f) := F.roundWord .rne 0 v.1
  (c, f ||| v.2)

def pAdd (F : Fmt) (a b _d : Nat) : Nat × Flags := outF F (xadd (F.value a) (F.value b))
def pSub (F : Fmt) (a b _d : Nat) : Nat × Flags := outF F (xadd (F.value a) (F.value b).neg)
def pMul (F : Fmt) (a b _d : Nat) : Nat × Flags := outF F (xmul (F.value a) (F.value b))
def pFma (F : Fmt) (a b d : Nat) : Nat × Flags := outF F (xfma (F.value a) (F.value b) (F.value d))
def pMinMax (F : Fmt) (isMax : Bool) (a b _d : Nat) : Nat × Flags := pickMinMax F isMax false a b

/-- round(d + a0·b0 + a1·b1, FP32, RNE), one rounding (04 R123). -/
def fDot2 (F : Fmt) (a b d : Word) : Word × Flags :=
  let ops := [F.value (half a 0), F.value (half b 0), F.value (half a 1), F.value (half b 1), f32 d]
  if ops.any XVal.isNan then out32 (nanFrom ops)
  else
    let (p, f) := xmul (F.value (half a 0)) (F.value (half b 0))
    let (q, g) := xmul (F.value (half a 1)) (F.value (half b 1))
    if p.isNan || q.isNan then (canonNan, f ||| g)
    else out32 (xsum false [f32 d, p, q])

/-! ## Conversions (04 R125-R127) -/

/-- A value rounded into a format by a mode, as a code. -/
def toFmt (F : Fmt) (m : RMode) (rnd : Half) (x : XVal) : Nat × Flags := F.roundWord m rnd x

def cvtTo (F : Fmt) (m : RMode) (rnd : Half) (x : XVal) : Word × Flags :=
  let (c, f) := toFmt F m rnd x
  (BitVec.ofNat 32 c, f)

/-- An exact widening to FP32 (04 R125 forms 6, 7, 12, 13): a signalling NaN sets invalid. -/
def cvtFrom (F : Fmt) (code : Nat) : Word × Flags := out32 (F.value code, 0)

/-- `vcvt.f32.nf`: a NaN code gives the canonical NaN and sets no flag (04 R126). -/
def cvtFromQuiet (F : Fmt) (code : Nat) : Word := (cvtFrom F code).1

def toI32 (m : RMode) (rnd : Half) (a : Word) : Word × Flags :=
  let (v, f) := xtoInt m rnd (-2147483648) 2147483647 (f32 a)
  (BitVec.ofInt 32 v, f)

def toN32 (m : RMode) (rnd : Half) (a : Word) : Word × Flags :=
  let (v, f) := xtoInt m rnd 0 4294967295 (f32 a)
  (BitVec.ofInt 32 v, f)

/-! ## Sums over lanes (05 R149) -/

/-- The sum of FP32 lanes, formed exactly and rounded once. -/
def fSumLanes (xs : List Word) : Word × Flags := out32 (xsum false (xs.map f32))

/-- The `vmax.f32` rule over several values. -/
def fMaxLanes : List Word → Word × Flags
  | [] => (0, 0)
  | x :: r => r.foldl (fun acc y => let (c, f) := fMinMax true false acc.1 y; (c, acc.2 ||| f)) (if (f32 x).isNan then canonNan else x, flagIf (f32 x).isSig fInvalid)

end Sys2Proof.Machine
end

