-- ==== Sys2Proof/Config.lean ====
section
/-! DEFINITION. What one implementation fixes and the manual leaves open: free values (no body, nothing can evaluate them)
and the stated constants of 00_scope.md R5. -/

namespace Sys2Proof.Config

/-- FREE VALUES (02 R47, 04 R121): the bits each approximate transcendental proposes for an input. A meaning takes the
proposal only where it lies inside the bound of R47 (Machine/Approx.lean). Log entry 6. -/
opaque exp2Apx : Word → Word
opaque log2Apx : Word → Word
opaque rcpApx : Word → Word
opaque rsqrtApx : Word → Word

/-- FREE VALUE (04 R101, R102): how far a reading of `%ecl` or `%clk` stands from the device's own count, by the reading
step's number. A meaning clips it to 64 cycles. Log entry 7. -/
opaque clockSkew : Nat → Nat

/-- FREE VALUE (08 R220): the bytes an abandoned command leaves unwritten. Log entry 8. -/
opaque unspecifiedByte : Nat → Byte

/-- FREE VALUES (17 R364, 19 R423, R424): SHAKE256 digests and the Ed448 check, named and not given by the manual. Log entry 9. -/
opaque shake256 : List Byte → BitVec 512
opaque ed448Ok : List Byte → Bool
opaque ed448Sign : BitVec 512 → List Byte

/-- FREE VALUES (19 R424): the fused configuration, and the certificate of the hub's identity key. Log entry 9. -/
opaque fusedConfig : List Byte
opaque certificate : List Byte

/-- FREE VALUE (06 R189): the check value of a hardware frame, by its bytes. Log entry 10. -/
opaque frameCheck : List Byte → BitVec 128

/-- FREE VALUES (19 R414): the stepping of the part. Log entry 11. -/
opaque stepping : Half

/-- FREE VALUE: the choices the manual leaves to the part, by a count of the choices so far: the granules a switch grants (15 R345),
the page a sequence is loaded into (17 R365). Log entry 18. -/
opaque pick : Nat → Nat

/-- Arithmetic clock in cycles per microsecond at 3.3 GHz (00 R5). -/
def cyclesPerMicrosecond : Nat := 3300

end Sys2Proof.Config
end

