-- ==== Sys2Proof/Syntax.lean ====
section
/-! DEFINITION. The instructions of the SZ-9: one constructor for each row of spec/opcode_table.json. 357 are instruction
words (their fields under the table's letters, less the chain bit h, which belongs to the packet slot); 75 are the rows
without an encoding, the steps that engines, homes, fabric, hub and host take (95_what_each_step_holds.md), with what names
the step as arguments. In the order: words of memory and engines, steps, words of arithmetic and flow. -/

namespace Sys2Proof

/-- One row of the opcode table. -/
inductive Instr where
  | sldB64 (d : BitVec 5) (a : BitVec 5) (b : BitVec 5) (l : BitVec 4)
  | sldN32 (d : BitVec 5) (a : BitVec 5) (b : BitVec 5) (l : BitVec 4)
  | sldI32 (d : BitVec 5) (a : BitVec 5) (b : BitVec 5) (l : BitVec 4)
  | sldNf (d : BitVec 5) (a : BitVec 5) (b : BitVec 5) (t : BitVec 3) (l : BitVec 4)
  | sstB64 (v : BitVec 5) (a : BitVec 5) (b : BitVec 5) (l : BitVec 4)
  | sstB32 (v : BitVec 5) (a : BitVec 5) (b : BitVec 5) (l : BitVec 4)
  | sstNf (v : BitVec 5) (a : BitVec 5) (b : BitVec 5) (t : BitVec 3) (l : BitVec 4)
  | ldB32 (d : BitVec 7) (a : BitVec 7) (b : BitVec 4) (l : BitVec 4)
  | ldNf (d : BitVec 7) (a : BitVec 7) (b : BitVec 4) (t : BitVec 3) (l : BitVec 4)
  | stB32 (v : BitVec 7) (a : BitVec 7) (b : BitVec 4) (l : BitVec 4)
  | stNf (v : BitVec 7) (a : BitVec 7) (b : BitVec 4) (t : BitVec 3) (l : BitVec 4)
  | pldB32 (d : BitVec 7) (a : BitVec 7) (l : BitVec 4)
  | pldNf (d : BitVec 7) (a : BitVec 7) (t : BitVec 3) (l : BitVec 4)
  | pstB32 (v : BitVec 7) (a : BitVec 7) (l : BitVec 4)
  | pstNf (v : BitVec 7) (a : BitVec 7) (t : BitVec 3) (l : BitVec 4)
  | pldB64 (d : BitVec 7) (a : BitVec 7) (l : BitVec 4)
  | pstB64 (v : BitVec 7) (a : BitVec 7) (l : BitVec 4)
  | ldtrB8 (d : BitVec 7) (a : BitVec 7) (t : BitVec 3) (l : BitVec 4)
  | ldtrB16 (d : BitVec 7) (a : BitVec 7) (t : BitVec 3) (l : BitVec 4)
  | ldtrB32 (d : BitVec 7) (a : BitVec 7) (t : BitVec 3) (l : BitVec 4)
  | atomAdd (a : BitVec 7) (s : BitVec 3) (b : BitVec 4) (w : BitVec 2) (l : BitVec 4)
  | redAdd (a : BitVec 7) (s : BitVec 3) (b : BitVec 4) (w : BitVec 2) (l : BitVec 4)
  | atomAnd (a : BitVec 7) (s : BitVec 3) (b : BitVec 4) (w : BitVec 2) (l : BitVec 4)
  | redAnd (a : BitVec 7) (s : BitVec 3) (b : BitVec 4) (w : BitVec 2) (l : BitVec 4)
  | atomOr (a : BitVec 7) (s : BitVec 3) (b : BitVec 4) (w : BitVec 2) (l : BitVec 4)
  | redOr (a : BitVec 7) (s : BitVec 3) (b : BitVec 4) (w : BitVec 2) (l : BitVec 4)
  | atomXor (a : BitVec 7) (s : BitVec 3) (b : BitVec 4) (w : BitVec 2) (l : BitVec 4)
  | redXor (a : BitVec 7) (s : BitVec 3) (b : BitVec 4) (w : BitVec 2) (l : BitVec 4)
  | atomMinI (a : BitVec 7) (s : BitVec 3) (b : BitVec 4) (w : BitVec 2) (l : BitVec 4)
  | redMinI (a : BitVec 7) (s : BitVec 3) (b : BitVec 4) (w : BitVec 2) (l : BitVec 4)
  | atomMaxI (a : BitVec 7) (s : BitVec 3) (b : BitVec 4) (w : BitVec 2) (l : BitVec 4)
  | redMaxI (a : BitVec 7) (s : BitVec 3) (b : BitVec 4) (w : BitVec 2) (l : BitVec 4)
  | atomMinN (a : BitVec 7) (s : BitVec 3) (b : BitVec 4) (w : BitVec 2) (l : BitVec 4)
  | redMinN (a : BitVec 7) (s : BitVec 3) (b : BitVec 4) (w : BitVec 2) (l : BitVec 4)
  | atomMaxN (a : BitVec 7) (s : BitVec 3) (b : BitVec 4) (w : BitVec 2) (l : BitVec 4)
  | redMaxN (a : BitVec 7) (s : BitVec 3) (b : BitVec 4) (w : BitVec 2) (l : BitVec 4)
  | atomExch (a : BitVec 7) (s : BitVec 3) (b : BitVec 4) (w : BitVec 2) (l : BitVec 4)
  | redExch (a : BitVec 7) (s : BitVec 3) (b : BitVec 4) (w : BitVec 2) (l : BitVec 4)
  | atomCas (a : BitVec 7) (s : BitVec 3) (b : BitVec 4) (w : BitVec 2) (l : BitVec 4)
  | atomInc (a : BitVec 7) (s : BitVec 3) (b : BitVec 4) (w : BitVec 2) (l : BitVec 4)
  | redInc (a : BitVec 7) (s : BitVec 3) (b : BitVec 4) (w : BitVec 2) (l : BitVec 4)
  | atomDec (a : BitVec 7) (s : BitVec 3) (b : BitVec 4) (w : BitVec 2) (l : BitVec 4)
  | redDec (a : BitVec 7) (s : BitVec 3) (b : BitVec 4) (w : BitVec 2) (l : BitVec 4)
  | atomFadd (a : BitVec 7) (s : BitVec 3) (b : BitVec 4) (l : BitVec 4)
  | redFadd (a : BitVec 7) (s : BitVec 3) (b : BitVec 4) (l : BitVec 4)
  | atomFmax (a : BitVec 7) (s : BitVec 3) (b : BitVec 4) (l : BitVec 4)
  | redFmax (a : BitVec 7) (s : BitVec 3) (b : BitVec 4) (l : BitVec 4)
  | atomFmin (a : BitVec 7) (s : BitVec 3) (b : BitVec 4) (l : BitVec 4)
  | redFmin (a : BitVec 7) (s : BitVec 3) (b : BitVec 4) (l : BitVec 4)
  | patomAdd (a : BitVec 7) (b : BitVec 4) (w : BitVec 2) (l : BitVec 4)
  | predAdd (a : BitVec 7) (b : BitVec 4) (w : BitVec 2) (l : BitVec 4)
  | patomAnd (a : BitVec 7) (b : BitVec 4) (w : BitVec 2) (l : BitVec 4)
  | predAnd (a : BitVec 7) (b : BitVec 4) (w : BitVec 2) (l : BitVec 4)
  | patomOr (a : BitVec 7) (b : BitVec 4) (w : BitVec 2) (l : BitVec 4)
  | predOr (a : BitVec 7) (b : BitVec 4) (w : BitVec 2) (l : BitVec 4)
  | patomXor (a : BitVec 7) (b : BitVec 4) (w : BitVec 2) (l : BitVec 4)
  | predXor (a : BitVec 7) (b : BitVec 4) (w : BitVec 2) (l : BitVec 4)
  | patomMinI (a : BitVec 7) (b : BitVec 4) (w : BitVec 2) (l : BitVec 4)
  | predMinI (a : BitVec 7) (b : BitVec 4) (w : BitVec 2) (l : BitVec 4)
  | patomMaxI (a : BitVec 7) (b : BitVec 4) (w : BitVec 2) (l : BitVec 4)
  | predMaxI (a : BitVec 7) (b : BitVec 4) (w : BitVec 2) (l : BitVec 4)
  | patomMinN (a : BitVec 7) (b : BitVec 4) (w : BitVec 2) (l : BitVec 4)
  | predMinN (a : BitVec 7) (b : BitVec 4) (w : BitVec 2) (l : BitVec 4)
  | patomMaxN (a : BitVec 7) (b : BitVec 4) (w : BitVec 2) (l : BitVec 4)
  | predMaxN (a : BitVec 7) (b : BitVec 4) (w : BitVec 2) (l : BitVec 4)
  | patomExch (a : BitVec 7) (b : BitVec 4) (w : BitVec 2) (l : BitVec 4)
  | predExch (a : BitVec 7) (b : BitVec 4) (w : BitVec 2) (l : BitVec 4)
  | patomCas (a : BitVec 7) (b : BitVec 4) (w : BitVec 2) (l : BitVec 4)
  | patomInc (a : BitVec 7) (b : BitVec 4) (w : BitVec 2) (l : BitVec 4)
  | predInc (a : BitVec 7) (b : BitVec 4) (w : BitVec 2) (l : BitVec 4)
  | patomDec (a : BitVec 7) (b : BitVec 4) (w : BitVec 2) (l : BitVec 4)
  | predDec (a : BitVec 7) (b : BitVec 4) (w : BitVec 2) (l : BitVec 4)
  | patomFadd (a : BitVec 7) (b : BitVec 4) (l : BitVec 4)
  | predFadd (a : BitVec 7) (b : BitVec 4) (l : BitVec 4)
  | patomFmax (a : BitVec 7) (b : BitVec 4) (l : BitVec 4)
  | predFmax (a : BitVec 7) (b : BitVec 4) (l : BitVec 4)
  | patomFmin (a : BitVec 7) (b : BitVec 4) (l : BitVec 4)
  | predFmin (a : BitVec 7) (b : BitVec 4) (l : BitVec 4)
  | barInit (a : BitVec 5) (b : BitVec 5) (l : BitVec 4)
  | barArrive (a : BitVec 5) (c : BitVec 5) (s : BitVec 3) (l : BitVec 4)
  | barArrivet (d : BitVec 5) (b : BitVec 5) (c : BitVec 5) (s : BitVec 3) (l : BitVec 4)
  | barExpect (a : BitVec 5) (b : BitVec 5) (l : BitVec 4)
  | barWait (a : BitVec 5) (b : BitVec 5) (s : BitVec 3)
  | barTest (d : BitVec 5) (b : BitVec 5) (l : BitVec 4)
  | barDrop (a : BitVec 5) (l : BitVec 4)
  | qpush (b : BitVec 5) (q : BitVec 4)
  | qpop (d : BitVec 5) (q : BitVec 4)
  | qtrypush (d : BitVec 5) (b : BitVec 5) (q : BitVec 4) (l : BitVec 4)
  | qtrypop (d : BitVec 5) (q : BitVec 4) (l : BitVec 4)
  | ownGive (a : BitVec 5) (b : BitVec 5) (l : BitVec 4)
  | ownTake (a : BitVec 5) (b : BitVec 5)
  | ownTest (d : BitVec 5) (b : BitVec 5) (l : BitVec 4)
  | mwatch (d : BitVec 5) (b : BitVec 5) (l : BitVec 4)
  | mwait (d : BitVec 5) (b : BitVec 5)
  | sleep (a : BitVec 5)
  | mclear (l : BitVec 4)
  | mfs (d : BitVec 5) (x : BitVec 12)
  | mts (a : BitVec 5) (x : BitVec 12)
  | mfsv (d : BitVec 5) (x : BitVec 12)
  | mtsv (a : BitVec 5) (x : BitVec 12)
  | tret
  | brk (i : BitVec 12)
  | tlane (a : BitVec 5) (e : BitVec 2)
  | tdone
  | exit
  | cpLd (a : BitVec 5) (b : BitVec 5) (c : BitVec 5) (k : BitVec 3) (l : BitVec 4)
  | cpSt (a : BitVec 5) (b : BitVec 5) (c : BitVec 5) (k : BitVec 3) (l : BitVec 4)
  | cpLdq (a : BitVec 5) (b : BitVec 5) (c : BitVec 5) (k : BitVec 3) (l : BitVec 4)
  | cpFifo (a : BitVec 5) (c : BitVec 5) (k : BitVec 3) (l : BitVec 4)
  | cpMc (a : BitVec 5) (b : BitVec 5) (c : BitVec 5) (k : BitVec 3) (l : BitVec 4)
  | cpGrant (a : BitVec 5)
  | cpSlots (d : BitVec 5) (l : BitVec 4)
  | cpCount (d : BitVec 5) (l : BitVec 4)
  | xpRun (a : BitVec 5) (k : BitVec 3) (l : BitVec 4)
  | mtask (a : BitVec 5) (k : BitVec 3) (l : BitVec 4)
  | mdrain (a : BitVec 5) (k : BitVec 3) (l : BitVec 4)
  | mstat (d : BitVec 5) (b : BitVec 5) (l : BitVec 4)
  | ldAcqB32 (d : BitVec 7) (a : BitVec 7) (b : BitVec 4) (s : BitVec 3) (l : BitVec 4)
  | stRelB32 (v : BitVec 7) (a : BitVec 7) (b : BitVec 4) (s : BitVec 3) (l : BitVec 4)
  | fence (s : BitVec 3)
  | fenceRel (s : BitVec 3)
  | fenceAcq (s : BitVec 3)
  | cwbRange (a : BitVec 5) (b : BitVec 5)
  | cinvRange (a : BitVec 5) (b : BitVec 5)
  | icinvRange (a : BitVec 5) (b : BitVec 5)
  | twinStat (d : BitVec 5) (l : BitVec 4)
  | mcas (d : BitVec 5) (b : BitVec 5) (l : BitVec 4)
  | tlbinv (a : BitVec 5) (b : BitVec 5)
  | swmAlloc (d : BitVec 5) (b : BitVec 5) (c : BitVec 5) (l : BitVec 4)
  | swmMap (d : BitVec 5) (b : BitVec 5) (c : BitVec 5) (l : BitVec 4)
  | swmUnmap (d : BitVec 5) (b : BitVec 5) (l : BitVec 4)
  | swmFree (d : BitVec 5) (b : BitVec 5) (l : BitVec 4)
  | fmc (a : BitVec 5) (b : BitVec 5) (c : BitVec 5) (k : BitVec 3) (l : BitVec 4)
  | fred (a : BitVec 5) (b : BitVec 5) (c : BitVec 5) (k : BitVec 3) (l : BitVec 4)
  | fsig (a : BitVec 5) (b : BitVec 5) (k : BitVec 3) (l : BitVec 4)
  | fstat (d : BitVec 5) (l : BitVec 4)
  | ndLaunch (d : BitVec 5) (b : BitVec 5) (l : BitVec 4)
  | ndSignal (d : BitVec 5) (b : BitVec 5) (c : BitVec 5) (l : BitVec 4)
  | ndStat (d : BitVec 5) (b : BitVec 5) (l : BitVec 4)
  | sqBind (d : BitVec 5) (b : BitVec 5)
  | sqUnbind (a : BitVec 5)
  | sqQuery (d : BitVec 5) (b : BitVec 5)
  | sqImg (b : BitVec 5) (c : BitVec 5)
  | dwx (i : BitVec 2) (d : BitVec 7) (a : BitVec 7) (b : BitVec 7) (n : BitVec 4)
  | mwaitTimeout (gang : Nat)
  | sleepEnd (gang : Nat)
  | sectorLanded (core cmd : Nat)
  | copyCommandComplete (core cmd : Nat)
  | copyFaultReport (core cmd : Nat)
  | taskStart (core : Nat)
  | kgroupCompute (core task : Nat)
  | taskComplete (core task : Nat)
  | arrivalApply (arrival : Nat)
  | peerAcknowledge (core task : Nat)
  | matrixFaultReport (core task : Nat)
  | lockGrant (line : Nat)
  | earlyPublication (die : Nat)
  | evictionPublication (die line : Nat)
  | recordApply (record : Nat)
  | releaseComplete (release : Nat)
  | forwardedCopyApply (copy : Nat)
  | fillArrival (fill : Nat)
  | writeBackApply (writeBack : Nat)
  | accessComplete (gang entry : Nat)
  | takeTrap (gang : Nat)
  | watchdog (gang : Nat)
  | uncorrectableError (gang structureId : Nat) (address : Nat)
  | wcAgeDrain (core : Nat) (line : Nat)
  | writePacketApply (packet : Nat)
  | acknowledgeReceive (packet : Nat)
  | remoteFaultReport (packet code : Nat)
  | retransmit (packet : Nat)
  | recoveryDiscard (packet : Nat)
  | keyRollover (link : Nat)
  | drainedFlit (link : Nat)
  | linkDown (link : Nat)
  | switchLost (sw : Nat)
  | switchReplaced (sw : Nat)
  | multicastDelivery (delivery : Nat)
  | reductionContribution (contribution : Nat)
  | residueSend (sw port entry : Nat)
  | groupInstall (group tenant : Nat) (members : List Nat)
  | groupReinstall (group plane : Nat)
  | switchTableWrite (sw plane state generation : Nat)
  | quotaSet (tenant sw granules : Nat)
  | linkStateUpdate (pkg plane : Nat) (up : Bool)
  | hostDoorbell (tenant queue tail : Nat)
  | nodeAdmit (admission : Nat)
  | predecessorSignal (signal : Nat)
  | ensemblePlace (node : Nat) (places : List Nat)
  | ensembleRestore (ensemble : Nat) (places : List Nat)
  | nodeComplete (node : Nat)
  | eclipseWindowStart (die : Nat)
  | eclipseWindowEnd (die : Nat)
  | tenantRecordWrite (tenant offset : Nat) (value : BitVec 64)
  | writeRefusedClear (tenant : Nat)
  | tenantReset (tenant : Nat)
  | warmReset
  | coldReset
  | powerOnReset
  | eventOverflowClear
  | eventQueueHeadWrite (head : Nat)
  | registerWrite (offset : Nat) (value : BitVec 64)
  | hostMemLoad (address bytes : Nat)
  | hostMemStore (address : Nat) (data : List (BitVec 8))
  | sidebandResetRequest (secured : Bool) (command level : BitVec 8)
  | firmwareUpdate (image : List (BitVec 8))
  | spdmRequest (index : Nat)
  | powerCapSet (watts : Nat)
  | clockThrottle (limit : Nat)
  | clockRaise (limit : Nat)
  | thermalTrip (die : Nat)
  | spuriousWake (gang : Nat)
  | saveLimitPassed (ensemble : Nat)
  | remoteLoadOrAtomicServe (request : Nat)
  | flitAuthenticationFailure (link : Nat)
  | voluntaryWriteBack (die : Nat) (grain : Nat)
  | capUnreachableEnd
  | uncorrectableErrorOutsideGang (origin : Nat) (detail : BitVec 128)
  | nop
  | sadd (d : BitVec 5) (a : BitVec 5) (b : BitVec 5)
  | ssub (d : BitVec 5) (a : BitVec 5) (b : BitVec 5)
  | smul (d : BitVec 5) (a : BitVec 5) (b : BitVec 5)
  | smulhI64 (d : BitVec 5) (a : BitVec 5) (b : BitVec 5)
  | smulhN64 (d : BitVec 5) (a : BitVec 5) (b : BitVec 5)
  | sdivI64 (d : BitVec 5) (a : BitVec 5) (b : BitVec 5)
  | sdivN64 (d : BitVec 5) (a : BitVec 5) (b : BitVec 5)
  | sremI64 (d : BitVec 5) (a : BitVec 5) (b : BitVec 5)
  | sremN64 (d : BitVec 5) (a : BitVec 5) (b : BitVec 5)
  | sand (d : BitVec 5) (a : BitVec 5) (b : BitVec 5)
  | sor (d : BitVec 5) (a : BitVec 5) (b : BitVec 5)
  | sxor (d : BitVec 5) (a : BitVec 5) (b : BitVec 5)
  | sandn (d : BitVec 5) (a : BitVec 5) (b : BitVec 5)
  | sshl (d : BitVec 5) (a : BitVec 5) (b : BitVec 5)
  | sshrN64 (d : BitVec 5) (a : BitVec 5) (b : BitVec 5)
  | sshrI64 (d : BitVec 5) (a : BitVec 5) (b : BitVec 5)
  | sminI64 (d : BitVec 5) (a : BitVec 5) (b : BitVec 5)
  | sminN64 (d : BitVec 5) (a : BitVec 5) (b : BitVec 5)
  | smaxI64 (d : BitVec 5) (a : BitVec 5) (b : BitVec 5)
  | smaxN64 (d : BitVec 5) (a : BitVec 5) (b : BitVec 5)
  | spopc (d : BitVec 5) (a : BitVec 5)
  | sclz (d : BitVec 5) (a : BitVec 5)
  | sctz (d : BitVec 5) (a : BitVec 5)
  | saddi (d : BitVec 5) (a : BitVec 5) (i : BitVec 12)
  | sandi (d : BitVec 5) (a : BitVec 5) (i : BitVec 12)
  | sori (d : BitVec 5) (a : BitVec 5) (i : BitVec 12)
  | sxori (d : BitVec 5) (a : BitVec 5) (i : BitVec 12)
  | sshli (d : BitVec 5) (a : BitVec 5) (i : BitVec 6)
  | sshriN64 (d : BitVec 5) (a : BitVec 5) (i : BitVec 6)
  | sshriI64 (d : BitVec 5) (a : BitVec 5) (i : BitVec 6)
  | smuli (d : BitVec 5) (a : BitVec 5) (i : BitVec 12)
  | sli (d : BitVec 5) (i : BitVec 16)
  | sliu (d : BitVec 5) (i : BitVec 16)
  | sinsH0 (d : BitVec 5) (i : BitVec 16)
  | sinsH1 (d : BitVec 5) (i : BitVec 16)
  | sinsH2 (d : BitVec 5) (i : BitVec 16)
  | sinsH3 (d : BitVec 5) (i : BitVec 16)
  | vget (d : BitVec 5) (n : BitVec 5) (a : BitVec 7)
  | pget (d : BitVec 5) (p : BitVec 3)
  | psets (a : BitVec 5) (p : BitVec 3)
  | seq (d : BitVec 5) (a : BitVec 5) (b : BitVec 5)
  | sne (d : BitVec 5) (a : BitVec 5) (b : BitVec 5)
  | sltI64 (d : BitVec 5) (a : BitVec 5) (b : BitVec 5)
  | sleI64 (d : BitVec 5) (a : BitVec 5) (b : BitVec 5)
  | sltN64 (d : BitVec 5) (a : BitVec 5) (b : BitVec 5)
  | sleN64 (d : BitVec 5) (a : BitVec 5) (b : BitVec 5)
  | pand (d : BitVec 3) (a : BitVec 3) (b : BitVec 3)
  | por (d : BitVec 3) (a : BitVec 3) (b : BitVec 3)
  | pxor (d : BitVec 3) (a : BitVec 3) (b : BitVec 3)
  | pandn (d : BitVec 3) (a : BitVec 3) (b : BitVec 3)
  | pnot (d : BitVec 3) (a : BitVec 3)
  | ppopc (d : BitVec 5) (a : BitVec 3)
  | pffs (d : BitVec 5) (a : BitVec 3)
  | pfill (d : BitVec 3) (a : BitVec 5)
  | br (o : BitVec 20)
  | call (o : BitVec 20)
  | ret
  | callr
  | bany (p : BitVec 3) (o : BitVec 20)
  | ball (p : BitVec 3) (o : BitVec 20)
  | bnone (p : BitVec 3) (o : BitVec 20)
  | bnall (p : BitVec 3) (o : BitVec 20)
  | split (p : BitVec 3) (o : BitVec 20)
  | elseArm (o : BitVec 20)
  | join
  | mand (p : BitVec 3)
  | mandn (p : BitVec 3)
  | dspop (d : BitVec 5)
  | dspush (a : BitVec 5)
  | dsdepth (d : BitVec 5)
  | dbnz (k : BitVec 3) (o : BitVec 20)
  | bz (k : BitVec 3) (o : BitVec 20)
  | bnz (k : BitVec 3) (o : BitVec 20)
  | vaddI32 (d : BitVec 7) (a : BitVec 7) (b : BitVec 7)
  | vsubI32 (d : BitVec 7) (a : BitVec 7) (b : BitVec 7)
  | vmulI32 (d : BitVec 7) (a : BitVec 7) (b : BitVec 7)
  | vmulhI32 (d : BitVec 7) (a : BitVec 7) (b : BitVec 7)
  | vmulhN32 (d : BitVec 7) (a : BitVec 7) (b : BitVec 7)
  | vandB32 (d : BitVec 7) (a : BitVec 7) (b : BitVec 7)
  | vorB32 (d : BitVec 7) (a : BitVec 7) (b : BitVec 7)
  | vxorB32 (d : BitVec 7) (a : BitVec 7) (b : BitVec 7)
  | vandnB32 (d : BitVec 7) (a : BitVec 7) (b : BitVec 7)
  | vshlB32 (d : BitVec 7) (a : BitVec 7) (b : BitVec 7)
  | vshrN32 (d : BitVec 7) (a : BitVec 7) (b : BitVec 7)
  | vshrI32 (d : BitVec 7) (a : BitVec 7) (b : BitVec 7)
  | vminI32 (d : BitVec 7) (a : BitVec 7) (b : BitVec 7)
  | vmaxI32 (d : BitVec 7) (a : BitVec 7) (b : BitVec 7)
  | vminN32 (d : BitVec 7) (a : BitVec 7) (b : BitVec 7)
  | vmaxN32 (d : BitVec 7) (a : BitVec 7) (b : BitVec 7)
  | vaddsI32 (d : BitVec 7) (a : BitVec 7) (b : BitVec 7)
  | vaddsN32 (d : BitVec 7) (a : BitVec 7) (b : BitVec 7)
  | vsubsI32 (d : BitVec 7) (a : BitVec 7) (b : BitVec 7)
  | vsubsN32 (d : BitVec 7) (a : BitVec 7) (b : BitVec 7)
  | vabsI32 (d : BitVec 7) (a : BitVec 7)
  | vnegI32 (d : BitVec 7) (a : BitVec 7)
  | vpopcB32 (d : BitVec 7) (a : BitVec 7)
  | vclzB32 (d : BitVec 7) (a : BitVec 7)
  | vbrevB32 (d : BitVec 7) (a : BitVec 7)
  | vmadI32 (d : BitVec 7) (a : BitVec 7) (b : BitVec 7)
  | vabsdN32 (d : BitVec 7) (a : BitVec 7) (b : BitVec 7)
  | vabsdI32 (d : BitVec 7) (a : BitVec 7) (b : BitVec 7)
  | vavgN32 (d : BitVec 7) (a : BitVec 7) (b : BitVec 7)
  | vrotB32 (d : BitVec 7) (a : BitVec 7) (b : BitVec 7)
  | vdot4I8 (d : BitVec 7) (a : BitVec 7) (b : BitVec 7)
  | vdot4N8 (d : BitVec 7) (a : BitVec 7) (b : BitVec 7)
  | vaddB16 (d : BitVec 7) (a : BitVec 7) (b : BitVec 7)
  | vsubB16 (d : BitVec 7) (a : BitVec 7) (b : BitVec 7)
  | vaddsI16 (d : BitVec 7) (a : BitVec 7) (b : BitVec 7)
  | vaddsN16 (d : BitVec 7) (a : BitVec 7) (b : BitVec 7)
  | vaddB8 (d : BitVec 7) (a : BitVec 7) (b : BitVec 7)
  | vsubB8 (d : BitVec 7) (a : BitVec 7) (b : BitVec 7)
  | vaddsI8 (d : BitVec 7) (a : BitVec 7) (b : BitVec 7)
  | vaddsN8 (d : BitVec 7) (a : BitVec 7) (b : BitVec 7)
  | vminI16 (d : BitVec 7) (a : BitVec 7) (b : BitVec 7)
  | vmaxI16 (d : BitVec 7) (a : BitVec 7) (b : BitVec 7)
  | vminN8 (d : BitVec 7) (a : BitVec 7) (b : BitVec 7)
  | vmaxN8 (d : BitVec 7) (a : BitVec 7) (b : BitVec 7)
  | vpermB8 (d : BitVec 7) (a : BitVec 7) (b : BitVec 7)
  | vshlB16 (d : BitVec 7) (a : BitVec 7) (b : BitVec 7)
  | vshrN16 (d : BitVec 7) (a : BitVec 7) (b : BitVec 7)
  | vshrI16 (d : BitVec 7) (a : BitVec 7) (b : BitVec 7)
  | vaddF32 (d : BitVec 7) (a : BitVec 7) (b : BitVec 7)
  | vsubF32 (d : BitVec 7) (a : BitVec 7) (b : BitVec 7)
  | vmulF32 (d : BitVec 7) (a : BitVec 7) (b : BitVec 7)
  | vfmaF32 (d : BitVec 7) (a : BitVec 7) (b : BitVec 7)
  | vfmsF32 (d : BitVec 7) (a : BitVec 7) (b : BitVec 7)
  | vminF32 (d : BitVec 7) (a : BitVec 7) (b : BitVec 7)
  | vmaxF32 (d : BitVec 7) (a : BitVec 7) (b : BitVec 7)
  | vabsF32 (d : BitVec 7) (a : BitVec 7)
  | vnegF32 (d : BitVec 7) (a : BitVec 7)
  | vdivF32 (d : BitVec 7) (a : BitVec 7) (b : BitVec 7)
  | vsqrtF32 (d : BitVec 7) (a : BitVec 7)
  | vfloorF32 (d : BitVec 7) (a : BitVec 7)
  | vceilF32 (d : BitVec 7) (a : BitVec 7)
  | vtruncF32 (d : BitVec 7) (a : BitVec 7)
  | vrintF32 (d : BitVec 7) (a : BitVec 7)
  | vscaleF32 (d : BitVec 7) (a : BitVec 7) (b : BitVec 7)
  | vmaxabsF32 (d : BitVec 7) (a : BitVec 7) (b : BitVec 7)
  | vcopysignF32 (d : BitVec 7) (a : BitVec 7) (b : BitVec 7)
  | vclassF32 (d : BitVec 7) (a : BitVec 7)
  | vexpoF32 (d : BitVec 7) (a : BitVec 7)
  | vminnanF32 (d : BitVec 7) (a : BitVec 7) (b : BitVec 7)
  | vmaxnanF32 (d : BitVec 7) (a : BitVec 7) (b : BitVec 7)
  | vexp2ApxF32 (d : BitVec 7) (a : BitVec 7) (l : BitVec 4)
  | vlog2ApxF32 (d : BitVec 7) (a : BitVec 7) (l : BitVec 4)
  | vrcpApxF32 (d : BitVec 7) (a : BitVec 7) (l : BitVec 4)
  | vrsqrtApxF32 (d : BitVec 7) (a : BitVec 7) (l : BitVec 4)
  | vaddBf16 (d : BitVec 7) (a : BitVec 7) (b : BitVec 7)
  | vmulBf16 (d : BitVec 7) (a : BitVec 7) (b : BitVec 7)
  | vfmaBf16 (d : BitVec 7) (a : BitVec 7) (b : BitVec 7)
  | vminBf16 (d : BitVec 7) (a : BitVec 7) (b : BitVec 7)
  | vmaxBf16 (d : BitVec 7) (a : BitVec 7) (b : BitVec 7)
  | vdot2F32Bf16 (d : BitVec 7) (a : BitVec 7) (b : BitVec 7)
  | vsubBf16 (d : BitVec 7) (a : BitVec 7) (b : BitVec 7)
  | vaddF16 (d : BitVec 7) (a : BitVec 7) (b : BitVec 7)
  | vmulF16 (d : BitVec 7) (a : BitVec 7) (b : BitVec 7)
  | vfmaF16 (d : BitVec 7) (a : BitVec 7) (b : BitVec 7)
  | vminF16 (d : BitVec 7) (a : BitVec 7) (b : BitVec 7)
  | vmaxF16 (d : BitVec 7) (a : BitVec 7) (b : BitVec 7)
  | vdot2F32F16 (d : BitVec 7) (a : BitVec 7) (b : BitVec 7)
  | vsubF16 (d : BitVec 7) (a : BitVec 7) (b : BitVec 7)
  | vcvtF32I32 (d : BitVec 7) (a : BitVec 7) (m : BitVec 3)
  | vcvtF32N32 (d : BitVec 7) (a : BitVec 7) (m : BitVec 3)
  | vcvtI32F32 (d : BitVec 7) (a : BitVec 7) (m : BitVec 3)
  | vcvtN32F32 (d : BitVec 7) (a : BitVec 7) (m : BitVec 3)
  | vcvtBf16F32 (d : BitVec 7) (a : BitVec 7) (m : BitVec 3)
  | vcvtF16F32 (d : BitVec 7) (a : BitVec 7) (m : BitVec 3)
  | vcvtF32Bf16 (d : BitVec 7) (a : BitVec 7) (m : BitVec 3)
  | vcvtF32F16 (d : BitVec 7) (a : BitVec 7) (m : BitVec 3)
  | vcvtNfF32 (d : BitVec 7) (a : BitVec 7) (m : BitVec 3) (t : BitVec 3)
  | vcvtF32Nf (d : BitVec 7) (a : BitVec 7) (m : BitVec 3) (t : BitVec 3)
  | vcvtE4m3F32 (d : BitVec 7) (a : BitVec 7) (m : BitVec 3)
  | vcvtE5m2F32 (d : BitVec 7) (a : BitVec 7) (m : BitVec 3)
  | vcvtF32E4m3 (d : BitVec 7) (a : BitVec 7) (m : BitVec 3)
  | vcvtF32E5m2 (d : BitVec 7) (a : BitVec 7) (m : BitVec 3)
  | vcvthiBf16F32 (d : BitVec 7) (a : BitVec 7) (m : BitVec 3)
  | vcvthiF16F32 (d : BitVec 7) (a : BitVec 7) (m : BitVec 3)
  | vcmpEqB32 (p : BitVec 3) (a : BitVec 7) (b : BitVec 7)
  | vcmpNeB32 (p : BitVec 3) (a : BitVec 7) (b : BitVec 7)
  | vcmpLtI32 (p : BitVec 3) (a : BitVec 7) (b : BitVec 7)
  | vcmpLeI32 (p : BitVec 3) (a : BitVec 7) (b : BitVec 7)
  | vcmpLtN32 (p : BitVec 3) (a : BitVec 7) (b : BitVec 7)
  | vcmpLeN32 (p : BitVec 3) (a : BitVec 7) (b : BitVec 7)
  | vcmpEqF32 (p : BitVec 3) (a : BitVec 7) (b : BitVec 7)
  | vcmpNeF32 (p : BitVec 3) (a : BitVec 7) (b : BitVec 7)
  | vcmpLtF32 (p : BitVec 3) (a : BitVec 7) (b : BitVec 7)
  | vcmpLeF32 (p : BitVec 3) (a : BitVec 7) (b : BitVec 7)
  | vcmpUnF32 (p : BitVec 3) (a : BitVec 7) (b : BitVec 7)
  | vtestB32 (p : BitVec 3) (a : BitVec 7) (b : BitVec 7)
  | vshflIdx (d : BitVec 7) (a : BitVec 7) (b : BitVec 7)
  | vshflUp (d : BitVec 7) (a : BitVec 7) (n : BitVec 5)
  | vshflDown (d : BitVec 7) (a : BitVec 7) (n : BitVec 5)
  | vshflXor (d : BitVec 7) (a : BitVec 7) (n : BitVec 5)
  | vballot (d : BitVec 7) (p : BitVec 3)
  | vvoteAll (d : BitVec 3) (p : BitVec 3)
  | vvoteAny (d : BitVec 3) (p : BitVec 3)
  | vmatchB32 (d : BitVec 7) (a : BitVec 7)
  | vredAddI32 (d : BitVec 7) (a : BitVec 7)
  | vredMaxI32 (d : BitVec 7) (a : BitVec 7)
  | vredMinI32 (d : BitVec 7) (a : BitVec 7)
  | vredAddF32 (d : BitVec 7) (a : BitVec 7)
  | vredMaxF32 (d : BitVec 7) (a : BitVec 7)
  | vscanAddI32 (d : BitVec 7) (a : BitVec 7)
  | vscanxAddI32 (d : BitVec 7) (a : BitVec 7)
  | vscanAddF32 (d : BitVec 7) (a : BitVec 7)
  | vmov (d : BitVec 7) (a : BitVec 7)
  | vli (d : BitVec 7) (i : BitVec 14)
  | vbcast (d : BitVec 7) (s : BitVec 5)
  | vbcasth (d : BitVec 7) (s : BitVec 5)
  | vpmask (d : BitVec 7) (p : BitVec 3)
  | vins (d : BitVec 7) (s : BitVec 5) (n : BitVec 5)
  | vsel (d : BitVec 7) (a : BitVec 7) (b : BitVec 7) (k : BitVec 3)
  deriving DecidableEq, Repr

end Sys2Proof
end

