-- ==== Sys2Proof/Machine/State.lean ====
section
/-! DEFINITION. The state of one SZ-9 package and of the homes of its domain, as plain data, and the state after reset. -/

namespace Sys2Proof.Machine

/-! ## Faults and refusals -/

/-- Why a step of the machine stops. -/
inductive Fault where
  /-- Raised by `step` after a thermal trip has taken the main rail away (19 R426) and no event is on the agenda: nothing
  runs without power. Safe. -/
  | noPower
  deriving DecidableEq, Repr

/-- Why an instruction has no meaning. -/
inductive Refusal where
  /-- Raised by an arm of `exec` not yet given its meaning. Safe. -/
  | notModelled (mnemonic : String)
  deriving DecidableEq, Repr

/-! ## Small vocabularies -/

/-- Bytes at addresses in one canonical form (`Memory.wf`, Machine/Ops.lean). -/
abbrev Memory := List Host.Cell

/-- The role of a gang's stage (01 R12). -/
inductive Role where
  | general | copy | matrix | vector
  deriving DecidableEq, Repr, Inhabited

/-- A scope of the ladder, narrowest first (01 R28, 03 R72). -/
inductive Scope where
  | gang | crew | ens | die | dev | fab | sys
  deriving DecidableEq, Repr, Inhabited

/-- A program counter: packet and slot (03 R68). -/
structure Pc where
  packet : Word
  slot : BitVec 2
  deriving DecidableEq, Repr, Inhabited

/-- The cause and the 96-bit detail of a fault (06 R176, R177). -/
structure FaultRec where
  cause : BitVec 13
  det : BitVec 96
  deriving DecidableEq, Repr, Inhabited

/-- A parked lane and its fault record (06 R172). -/
structure Parked where
  lane : Fin 32
  why : FaultRec
  deriving DecidableEq, Repr, Inhabited

/-! ## A gang (04 R94-R105, 06 R174-R194) -/

/-- The state of an operand-log entry (06 R174). -/
inductive LogState where
  | free | inFlight | faulted
  deriving DecidableEq, Repr, Inhabited

/-- What a word held in the operand log does (06 R174): `sext` says that a 32-bit value is sign-extended, `z` is the element
size of `ldtr`, `op` an operation's code in its major; `rel` and `acq` are the sides of a fence. -/
inductive MemKind where
  | load (sext : Bool)
  | store
  | ldtr (z : Nat)
  | atomic (op : Nat) (ret : Bool)
  | acqLoad
  | relStore
  | mcas
  | fence (rel acq : Bool)
  | range (op : Nat)
  | tlbinv
  | engine (major op : Nat)
  deriving DecidableEq, Repr

/-- A memory word or engine command, apart from its operands' values: its kind, whether its address is a window address,
whether it runs once, its bytes, its slot, its scope, its first result or source register. -/
structure MemOp where
  kind : MemKind
  window : Bool
  uniform : Bool
  bytes : Nat
  slot : Nat
  scope : Scope
  reg : Nat
  deriving DecidableEq, Repr

/-- What a memory word or engine command captured at issue (06 R174): the word, its place, its active lanes, its scalar operands (`base`,
`idx`, `extra`, `ctl`), the lanes' addresses or indices, the lanes' source registers, the descriptor identifier. -/
structure Access where
  op : MemOp
  at_ : Pc
  lanes : Word
  base : Dword
  idx : Dword
  extra : Dword
  ctl : Dword
  offs : Lanes Word
  data : List (Lanes Word)
  ident : Byte
  deriving DecidableEq, Repr

/-- A job card's fields (08 R217). -/
structure Card where
  source : Byte
  kind : Byte
  dest : Byte
  seg : Byte
  ilen : Nat
  olen : Nat
  window : Nat
  gap : Nat
  barrier : Nat
  be : Bool
  push : Bool
  queue : Nat
  deriving DecidableEq, Repr

/-- An operand-log entry with what travels with it (06 R174): the captured access, its lanes still to be performed, its
parked lanes, the line data delivered to it by fills, the compressed blocks it has fetched (02 R64; a word none where it could not be
read), the stores still to be made (12 R282), the release tags an acquire load has received (12 R271; a lane none of whose lines has one gives none), its age, whether its join point is reached (06 R173) and whether the words behind that wait for
its end (03 R82), the records, accesses and packets that it waits for once its release has begun, with that release's number (12 R270, R271,
R276, R289), and the job card a re-issued `xp.run` has read (08 R218). -/
structure LogEntry where
  state : LogState
  replay : Bool
  engine : Bool
  acc : Option Access
  todo : Word
  parked : List Parked
  got : List (Nat × List Byte)
  blocks : List (Nat × List (Option (List Byte)))
  stores : List (Dword × Dword)
  tags : List (Option (Nat × Half))
  seq : Nat
  join : Bool
  holds : Bool
  recs : Option (List Nat)
  relNo : Half
  card : Option Card
  deriving DecidableEq, Repr

/-- The registers a word reads and writes: general registers and special registers (04 R94, R97). -/
structure Regs where
  v : Vector (Lanes Word) 128
  s : Vector Dword 32
  p : Vector Word 8
  emask : Word
  blk : BitVec 11
  xstat : BitVec 9
  srnd : Lanes Half
  tslot : Vector Byte 8
  tcause : BitVec 13
  tdet0 : Word
  tdet1 : Word
  tdet2 : Word
  tpc : BitVec 34
  tlanes : Word
  tslots : BitVec 39
  dstack : List Dword
  deriving DecidableEq, Repr

/-- A register named for dependence (03 R79, R81). -/
inductive RegName where
  | v (n : Nat) | s (n : Nat) | p (n : Nat) | sp (n : Nat)
  deriving DecidableEq, Repr

/-- An open lookahead window (03 R80): the registers its word writes, the words left, the log entry or the arrival (12 R270) that it waits for. -/
structure Window where
  regs : List RegName
  left : Nat
  entry : Option Nat
  arrival : Option Nat
  deriving DecidableEq, Repr

/-- The armed monitor (05 R166): the watched line's virtual address, its fabric physical line and the version recorded. -/
structure Monitor where
  va : Dword
  line : Nat
  version : Nat
  deriving DecidableEq, Repr

/-- What a gang that does not issue waits for (05 R130, 06 R190, 08 R201); `woken` is a wait that has ended with the code an
`mwait` returns. -/
inductive Wait where
  | none
  | barWait (core addr : Nat)
  | blocked
  | mwait (sd : Nat) (limit : Option Nat)
  | sleep (until_ : Nat)
  | release
  | woken (code : Nat)
  deriving DecidableEq, Repr

/-- Where a gang stands (06 R186, R190, 18 R405). -/
inductive GangStatus where
  | vacant | resident | retired | saved | stopped
  deriving DecidableEq, Repr, Inhabited

/-- A remote fault report or a report of a lost switch (06 R192). -/
structure Report where
  cause : BitVec 13
  det : BitVec 64
  deriving DecidableEq, Repr

/-- A barrier arrival whose release has begun and is not complete (05 R160, 12 R270): the object's window address, the sectors, the register
that receives the phase, the records it waits for, and whether a word past its window waits for the phase (03 R82). -/
structure PendingArrival where
  id : Nat
  addr : Nat
  sectors : Int
  reg : Option Nat
  records : List Nat
  joined : Bool
  deriving DecidableEq, Repr

/-- A fault report of an engine (08 R220, 10 R248): the command or task it names when that is suspended. -/
structure EngineReport where
  why : FaultRec
  core : Nat
  id : Nat
  suspended : Bool
  deriving DecidableEq, Repr

/-- One gang. `src` and `srcLog` are the registers and the operand log as its present chain group found them (03 R78), `cur` is the first word of that group, `slot` the slot of the word that runs, `pc` the next group; `alone` are the places, in handler mode or not, of words whose chained words have issued without them. `arriving` are the barrier arrivals behind their releases, `relPending` the release of a `tdone` (06 R190). `card` is the job card of an `xp.run` that waits for ring room (08 R218); `parkedWait` the limit an evicted gang's
`mwait` still had (06 R189), `handlerReport` the engine report whose handler runs (08 R220), `reported` whether that handler run
names an entry (06 R187), `watchdogDue` the cycle at which the run limit was reached (06 R193). -/
structure Gang where
  uid : Nat
  status : GangStatus
  crew : Nat
  node : Word
  ens : Word
  crewNo : BitVec 4
  gangNo : BitVec 5
  stage : BitVec 3
  die : BitVec 3
  core : BitVec 6
  role : Role
  tenant : BitVec 6
  nV : Nat
  blockMode : Bool
  codeBase : Dword
  r : Regs
  src : Option Regs
  srcLog : Vector LogEntry 4
  olog : Vector LogEntry 4
  hlog : Vector LogEntry 4
  handler : Option (BitVec 13)
  restoring : Bool
  bank : Vector Dword 8
  cur : Pc
  slot : BitVec 2
  pc : Pc
  fetched : Option (Word × List Word)
  windows : List Window
  hwindows : List Window
  monitor : Option Monitor
  wait : Wait
  alone : List (Bool × Pc)
  arriving : List PendingArrival
  relPending : Option Nat
  stepReq : Bool
  stepDue : Option (BitVec 96)
  outstanding : Nat
  reports : List Report
  reportsLost : Nat
  reportDue : Bool
  engReports : List EngineReport
  evictDue : Bool
  watchdogDue : Option Dword
  errorDue : Option FaultRec
  card : Option Card
  parkedWait : Option (Option Nat)
  handlerReport : Option EngineReport
  reported : Bool
  runStart : Nat
  deriving DecidableEq, Repr

/-! ## Crews, ensembles, nodes (01 R10, 18 R388-R405) -/

/-- A bound sequence of a crew (17 R375). -/
structure Binding where
  slot : Nat
  index : Nat
  header : Nat
  digest : BitVec 512
  page : Nat
  deriving DecidableEq, Repr

/-- One crew and its allocation (01 R25, R30). `tiles` lists the engine-owned tiles with the ids of the commands that hold
them; a tile that is not listed is gang-owned. `laps` counts a ring's completed laps of tail (05 R162), `pend` lists a ring's entries
from the oldest reserved and unwritten one on, each with whether it is written (08 R208). -/
structure Crew where
  uid : Nat
  node : Word
  tenant : BitVec 6
  ensemble : Nat
  number : Nat
  core : Nat
  far : Bool
  offset : Nat
  size : Nat
  spad : Nat
  tiles : List (Nat × List Nat)
  slots : Nat
  bindings : List Binding
  laps : List (Nat × Nat)
  pend : List (Nat × List (Nat × Bool))
  gangs : Nat
  retired : Nat
  saved : Nat
  returned : Nat
  saveArea : Option Nat
  deriving DecidableEq, Repr

/-- Where an ensemble stands. -/
inductive EnsState where
  | resident | evicting | evicted | done
  deriving DecidableEq, Repr, Inhabited

/-- One placed ensemble (01 R26, 18 R397). -/
structure Ensemble where
  uid : Nat
  node : Word
  index : Nat
  crews : List Nat
  die : Nat
  straddle : Bool
  state : EnsState
  restoring : Bool
  started : Nat
  evictedAt : Nat
  deadline : Option Nat
  deriving DecidableEq, Repr

/-- A node descriptor (18 R388). -/
structure Descriptor where
  code : Dword
  table : Dword
  signal : Dword
  kind : BitVec 2
  stream : Bool
  blockMode : Bool
  priority : Byte
  tenant : Byte
  nV : Nat
  crews : Nat
  spad : Nat
  preds : Nat
  gridX : Nat
  gridY : Nat
  gridZ : Nat
  succCount : Nat
  stages : List Byte
  queues : List Word
  barriers : List Word
  succs : List Dword
  reserved : Bool
  deriving DecidableEq, Repr

inductive NodeState where
  | waiting | ready | running
  deriving DecidableEq, Repr, Inhabited

/-- How a node ends in error (18 R405): its code, and the origin and detail of its event (19 R416). -/
structure NodeErr where
  code : Byte
  origin : Nat
  detail : BitVec 128
  deriving DecidableEq, Repr

/-- A live node of the pool (18 R393-R404). `release` holds the records its completion waits for, once its release has begun (13 R319);
`errorHeld` the code and the gang of an error whose event has no room yet (19 R417). -/
structure Node where
  id : Word
  addr : Nat
  desc : Descriptor
  state : NodeState
  remaining : Nat
  fenceOn : List Word
  queue : Option Nat
  irq : Bool
  readySeq : Nat
  nextEns : Nat
  release : Option (List Nat)
  ranOn : List Nat
  predCores : List Nat
  hasPred : Bool
  remotePred : Bool
  predError : Bool
  error : Option NodeErr
  errorHeld : Option (Byte × Nat)
  deriving DecidableEq, Repr

/-! ## Engine commands (08) and tile tasks (10) -/

/-- An accepted copy or expansion command (08 R200): `units` are its sectors (32-byte units of a FIFO payload), `done` those landed;
`sent` says that the writes of the sector under way are posted; a resumed command runs when the records in `behind` are acknowledged (11 R253). -/
structure Command where
  id : Nat
  op : Nat
  gang : Nat
  crew : Nat
  stage : Nat
  tenant : BitVec 6
  node : Word
  leader : Nat
  coords : List Int
  window : Nat
  gId : Byte
  pId : Byte
  mode : BitVec 3
  barrier : Option Nat
  queue : Option (Nat × Nat)
  fifoB : Bool
  mask : Half
  card : Option Card
  image : List Byte
  rnd : Half
  done : Nat
  units : Nat
  sent : Bool
  reserved : Bool
  behind : List Nat
  suspended : Bool
  fault : Option FaultRec
  deriving DecidableEq, Repr

/-- Where a tile task stands (10 R240). -/
inductive TaskState where
  | queued | running | sent | finished
  deriving DecidableEq, Repr, Inhabited

/-- An accepted tile task: its record's eight words and its progress (10 R233). `group` counts k-groups computed or elements
written, `sectors` those counted of `total`; `values` is the tile as a drain read it, `prevOpen` its open flag then; `scaleA`
and `scaleB` are scale blocks taken from a stream; a resumed task runs when the records in `behind` are acknowledged (11 R253). -/
structure Task where
  id : Nat
  gang : Nat
  crew : Nat
  tenant : BitVec 6
  node : Word
  leader : Nat
  words : List Dword
  state : TaskState
  group : Nat
  sectors : Nat
  total : Nat
  rnd : Half
  values : List Word
  prevOpen : Bool
  scaleA : List Byte
  scaleB : List Byte
  behind : List Nat
  suspended : Bool
  fault : Option FaultRec
  deriving DecidableEq, Repr

/-- A retained operand (10 R236): its format field, scale field, k-groups and stream bytes. -/
structure Latch where
  format : BitVec 24
  scale : BitVec 2
  groups : Nat
  bytes : List Byte
  deriving DecidableEq, Repr

/-- An accumulator tile: element (m, n) at 64m + n (10 R228). -/
structure Tile where
  acc : Vector Word 4096
  open_ : Bool
  arrivals : Nat
  deriving DecidableEq, Repr

/-- A peer arrival that waits at its sender (10 R244): the package it comes from, its drain's core and task where that is this package, the
packet that brings it where it is another (0 for none), the drain's words 4 and 5. -/
structure Arrival where
  id : Nat
  src : Nat
  core : Nat
  task : Nat
  packet : Nat
  tenant : BitVec 6
  w4 : Dword
  w5 : Dword
  values : List Word
  applied : Bool
  deriving DecidableEq, Repr

/-- A control-store page (17 R364). -/
structure Page where
  tenant : BitVec 6
  digest : BitVec 512
  slot : Nat
  words : List Word
  deriving DecidableEq, Repr

/-- A write-combining entry (15 R330): byte k of the line is the k-th of `bytes`. Its age is what it had lived when the clock last changed, in
cycles of the present clock (19 R426), and the cycles since `born`. -/
structure WcEntry where
  line : Nat
  bytes : List (Option Byte)
  gangs : List Nat
  born : Nat
  lived : Nat
  tenant : BitVec 6
  deriving DecidableEq, Repr

/-- One core. `picker` is the gang that its issue picker served last (01 R14). `l1` holds 32-byte sectors by sector number, `packets` (the packet cache, 12 R286) lines by line number. -/
structure Core where
  picker : Nat
  cmds : List Command
  fifoA : List Byte
  fifoB : List Byte
  roomA : Nat
  roomB : Nat
  latchA : Option Latch
  latchB : Option Latch
  pickA : Option (BitVec 24 × BitVec 2 × Nat)
  pickB : Option (BitVec 24 × BitVec 2 × Nat)
  tasks : List Task
  tiles : Option (Vector Tile 16)
  matrixOf : Option Nat
  pages : List (Nat × Page)
  wc : List WcEntry
  l1 : List (Nat × List Byte)
  packets : List (Nat × List Byte)
  tables : List (Word × List (BitVec 320))
  deriving DecidableEq, Repr

/-! ## Dies and homes (12) -/

/-- A twin (12 R261); a momentary one stands where none was free, until its difference is published in the same step (12 R262). -/
structure Twin where
  data : List Byte
  tenant : BitVec 6
  version : Half
  born : Nat
  momentary : Bool
  deriving DecidableEq, Repr

/-- A die's copy of a twin-mode line (12 R261-R273). -/
structure LineCopy where
  line : Nat
  data : List Byte
  twin : Option Twin
  version : Half
  tag : Option (Nat × Half)
  deriving DecidableEq, Repr

/-- A die's copy of an owned-mode grain (12 R258): first sector number and bytes. -/
structure GrainCopy where
  base : Nat
  data : List Byte
  deriving DecidableEq, Repr

/-- A die's eclipse cadence (01 R23) as last recorded: the bank of the window that began last, and the cycle at which the next
window, that of the bank behind it, begins. What the cadence is now follows from the clock (`Eclipse.now`, Machine/DeviceRegs.lean). -/
structure Eclipse where
  bank : BitVec 4
  next : Nat
  deriving DecidableEq, Repr

/-- One compute die. -/
structure Die where
  lines : List LineCopy
  grains : List GrainCopy
  peers : List (Nat × List Byte)
  epoch : Nat
  relNo : Half
  pool : Nat
  early : BitVec 28
  eclipse : Eclipse
  deriving DecidableEq, Repr

/-- The kind of a publication (12 R265). -/
inductive PubKind where
  | release | early | eviction | atomic | maintenance
  deriving DecidableEq, Repr

/-- A run of changed bytes (12 R266). -/
structure DiffRun where
  skip : Nat
  data : List Byte
  deriving DecidableEq, Repr

/-- A diff record in flight to its line's home (12 R266). -/
structure DiffRecord where
  id : Nat
  line : Nat
  die : Nat
  runs : List DiffRun
  version : Half
  relNo : Half
  kind : PubKind
  tenant : BitVec 6
  forwardTo : List Nat
  deriving DecidableEq, Repr

/-- A forwarded copy of a release record (12 R271). -/
structure Forwarded where
  id : Nat
  target : Nat
  record : DiffRecord
  version : Half
  deriving DecidableEq, Repr

/-- A write-back of an owned grain in flight (12 R259). -/
structure WriteBack where
  id : Nat
  die : Nat
  base : Nat
  data : List Byte
  version : Half
  deriving DecidableEq, Repr

/-- A fill in flight (12 R273): the line as read at the home, with its version and the epoch of the request, and the accesses
that wait for it, each a gang and its entry's `seq`. `install` is false once the die has given up a copy of the line, or has written
it at its home without a copy, or its home serves it in the other mode: the fill then goes to its waiting loads alone (13 R300). -/
structure Fill where
  id : Nat
  die : Nat
  line : Nat
  data : List Byte
  version : Half
  epoch : Nat
  waiters : List (Nat × Nat)
  install : Bool
  deriving DecidableEq, Repr

/-- A bit of a waiter entry (12 R271): a die that waits on a line, and the tenant whose `mwatch` set it (12 R293). -/
structure Waiter where
  line : Nat
  die : Nat
  tenant : BitVec 6
  deriving DecidableEq, Repr

/-- A directory entry (12 R258): first sector, sectors, the dies that share it or the die that owns it, version, use. -/
structure DirEntry where
  base : Nat
  sectors : Nat
  sharers : List Nat
  owner : Option Nat
  version : Half
  used : Nat
  deriving DecidableEq, Repr

/-- A line lock of the quadrille (12 R281): who holds it, who waits for it. -/
structure Lock where
  line : Nat
  holder : Nat
  queue : List Nat
  deriving DecidableEq, Repr

/-- A release begun and not complete (12 R270), of a `tdone` or an `fsig`: its scope, the records it waits for, and the remote add that an
`fsig` sends at its end (15 R358). -/
structure PendingRelease where
  id : Nat
  gang : Nat
  scope : Scope
  records : List Nat
  signal : Option (Nat × Dword)
  deriving DecidableEq, Repr

/-- A cached translation with the rights of both stages (18 R407, 15 R343). -/
structure TlbEntry where
  tenant : BitVec 6
  base : Nat
  size : Nat
  fpa : Nat
  read : Bool
  write : Bool
  read2 : Bool
  write2 : Bool
  priv : Bool
  twin : Bool
  grain : BitVec 2
  discard : Bool
  aperture : Bool
  deriving DecidableEq, Repr

/-! ## Fabric (15) -/

/-- What a fabric packet carries (10 R244; 15 R328-R336, R358; 18 R391, R405). -/
inductive PacketKind where
  | write (line : Nat) (bytes : List (Option Byte))
  | atomic (addr op bytes operand : Nat)
  | signalAdd (addr : Nat) (operand : Dword)
  | predSignal (tenant : BitVec 6) (addr : Dword) (error : Bool)
  | drain (w4 w5 : Dword) (values : List Word)
  deriving DecidableEq, Repr

/-- A packet in a source's retry buffer (15 R327, R338). `dest` is a package id, or 8192 + a switch id; `gangs`
are those whose bits it carries, `cmd` the engine command, task or signal's release that posted it, for `node`. `plane` and `second` are the planes on which
it travels, or, once it is applied, its acknowledgement: a critical packet goes on two (15 R336). -/
structure Packet where
  id : Nat
  src : Nat
  dest : Nat
  plane : Nat
  second : Option Nat
  vc : Nat
  seq : Word
  kind : PacketKind
  gangs : List Nat
  cmd : Nat
  node : Word
  tenant : BitVec 6
  critical : Bool
  sent : Nat
  applied : Bool
  lost : Bool
  deriving DecidableEq, Repr

/-- A link's key rollover (15 R340). -/
inductive Rollover where
  | steady | rolling
  deriving DecidableEq, Repr, Inhabited

/-- A link (15 R340; 19 R425): the keys installed for phase 0 and phase 1, each known by the number of its delivery, and the rollovers whose
completion has been reported. -/
structure Link where
  up : Bool
  phase : Bool
  rollover : Rollover
  failures : Nat
  key0 : Option Nat
  key1 : Option Nat
  rolled : Nat
  deriving DecidableEq, Repr

inductive SwitchState where
  | present | lost | absent
  deriving DecidableEq, Repr, Inhabited

/-- A switch table entry (15 R341). -/
structure Switch where
  id : Nat
  plane : Nat
  state : SwitchState
  generation : Nat
  deriving DecidableEq, Repr

/-- An allocation of switch memory (15 R342). -/
structure SwAlloc where
  sw : Nat
  generation : Nat
  first : Nat
  count : Nat
  tenant : BitVec 6
  deriving DecidableEq, Repr

/-- A collective group (15 R349). -/
structure Group where
  id : Nat
  tenant : Nat
  members : List Nat
  plane : Nat
  deriving DecidableEq, Repr

/-- One member's contribution (15 R353); `sent` counts its transmissions without an acknowledgement (15 R339). -/
structure Contribution where
  id : Nat
  pkg : Nat
  gang : Nat
  tenant : BitVec 6
  control : Dword
  dest : Dword
  payload : List Byte
  sent : Nat
  deriving DecidableEq, Repr

/-- An open round of a group (15 R353): the contributions taken, whether it has failed and how. -/
structure Round where
  group : Nat
  number : Nat
  taken : List Contribution
  failed : Option Byte
  deriving DecidableEq, Repr

/-- A payload on its way to one receiver (15 R352, R353); `op` numbers the `fmc` it belongs to, 0 for a reduction's result. `seq` is its number on
its stream (15 R327), `sent` counts its transmissions (15 R339). -/
structure Delivery where
  id : Nat
  pkg : Nat
  sender : Nat
  gang : Nat
  tenant : BitVec 6
  dest : Dword
  payload : List Byte
  counted : Bool
  group : Nat
  op : Nat
  seq : Word
  sent : Nat
  deriving DecidableEq, Repr

/-- A page that a peer's own tables map with write permission for a tenant: the virtual page and where it stands. The MODEL's own knowledge
of peers: nothing on this package writes it (log entry 69). -/
structure PeerPage where
  pkg : Nat
  tenant : BitVec 6
  page : Nat
  fpa : Nat
  deriving DecidableEq, Repr

/-- A residue entry of a switch input port (15 R357). -/
structure Residue where
  sw : Nat
  port : Nat
  entry : Nat
  branches : List Delivery
  deriving DecidableEq, Repr

/-- A remote request a home of this package is to serve for a peer (15 R331). -/
structure PeerRequest where
  id : Nat
  pkg : Nat
  addr : Nat
  op : Option (Nat × Nat × Nat × Nat)
  reply : Option Nat
  deriving DecidableEq, Repr

/-! ## Dispatch engine, tenants, host (18, 19) -/

/-- A host queue of a tenant (18 R406). -/
structure HostQueue where
  base : BitVec 57
  enabled : Bool
  log : BitVec 4
  head : BitVec 12
  tail : BitVec 12
  deriving DecidableEq, Repr

/-- A tenant's last-error record (18 R406). -/
structure LastError where
  node : Word
  code : Byte
  ens : Word
  crew : BitVec 4
  gang : BitVec 5
  tcause : BitVec 13
  tdet0 : Word
  tdet1 : Word
  tdet2 : Word
  tpc : BitVec 34
  tlanes : Word
  deriving DecidableEq, Repr

/-- A tenant record (18 R406). -/
structure Tenant where
  valid : Bool
  priv : Bool
  ceiling : Byte
  refused : Bool
  root1 : Dword
  root2 : Dword
  handler : Dword
  ctxBase : Dword
  ctxSlots : Nat
  ctxUsed : List Nat
  runLimit : Dword
  saveLimit : Dword
  aperture : Dword
  image : Dword
  imageCount : Nat
  age : Half
  hbmWeight : Half
  fabricWeight : Half
  msix : Word
  resetting : Bool
  queues : Vector HostQueue 16
  lastError : LastError
  deriving DecidableEq, Repr

/-- A node taken from a host queue, its descriptor read, and not yet in the pool (18 R390, R394). -/
structure Admission where
  id : Nat
  tenant : BitVec 6
  queue : Nat
  addr : Nat
  desc : Descriptor
  irq : Bool
  fence : Bool
  deriving DecidableEq, Repr

/-- A predecessor signal on its way (18 R395): the cores its node ran on (R404), and the gang whose `nd.signal` it is, if any. -/
structure PredSignal where
  id : Nat
  tenant : BitVec 6
  addr : Nat
  cores : List Nat
  remote : Bool
  error : Bool
  gang : Option Nat
  deriving DecidableEq, Repr

/-- What the dispatch engine keeps of the signals counted in an early count: the cores, whether one came from another package or from a
node in error (18 R395, R404, R405). -/
structure EarlyToken where
  tenant : BitVec 6
  addr : Nat
  cores : List Nat
  remote : Bool
  error : Bool
  deriving DecidableEq, Repr

/-- An event for the host (19 R416). -/
structure HostEvent where
  kind : Nat
  origin : Nat
  tenant : Byte
  node : Word
  detail : BitVec 128
  merged : Nat
  deriving DecidableEq, Repr

/-- The hub's host side (19 R414-R418). `resetAsked` is 1 or 2 from a write that starts a warm or cold reset until that has run, 3, 4 or 5 from
a side-band request of level 1, 2 or 3 (19 R422); `ready` is clear while the reset runs. -/
structure HostPort where
  resetCause : Byte
  ready : Bool
  overflow : Bool
  sideBandOnly : Bool
  evBase : Dword
  evEnabled : Bool
  evLog : BitVec 4
  evHead : Half
  evTail : Half
  evStalls : Word
  evPhase : Bool
  buffers : List (Nat × List HostEvent)
  held : List HostEvent
  msixTable : List (Nat × BitVec 128)
  msixPending : List Nat
  raised : List Nat
  poolRegs : Vector (BitVec 5) 8
  resetAsked : Nat
  readData : List Byte
  spdm : List Byte
  sideBand : Byte
  deriving DecidableEq, Repr

/-- Firmware, power and cooling (19 R421-R426). -/
structure Module where
  firmware : List Byte
  firmwareOk : Bool
  capWatts : Nat
  clockMhz : Nat
  unreachable : Bool
  railOn : Bool
  deriving DecidableEq, Repr

/-! ## The whole machine -/

/-- Which agent moves next: a gang (with its accesses left in flight or not), an event row, the passing of cycles, or a
core's L1 giving up a line. The MODEL's own vocabulary (log entry 4). -/
inductive Turn where
  | gang (uid : Nat) (inFlight : Bool)
  | event (i : Instr)
  | cycles (n : Nat)
  | dropL1 (core line : Nat)
  deriving DecidableEq, Repr

/-- The state. `g` is the gang whose turn it is; `gangs` are the others. `versions` counts the writes to a line at its point of
coherence, less those of the page zeroings of `zeroings` (first line, lines; 12 R288); `hostLines` are lines of HBM that the host may hold (19 R415). -/
structure State where
  g : Gang
  gangs : List Gang
  crews : List Crew
  ensembles : List Ensemble
  nodes : List Node
  cores : List (Nat × Core)
  dies : Vector Die 8
  spad : Memory
  mem : Memory
  versions : List (Nat × Nat)
  zeroings : List (Nat × Nat)
  hostLines : List Nat
  twinHome : List Nat
  tags : List (Nat × (Nat × Half))
  waiters : List Waiter
  locks : List Lock
  directory : List DirEntry
  records : List DiffRecord
  copies : List Forwarded
  writeBacks : List WriteBack
  fills : List Fill
  releases : List PendingRelease
  tlb : List TlbEntry
  pkg : BitVec 13
  domain : List Nat
  links : Vector Link 18
  downLinks : List (Nat × Nat)
  peerPages : List PeerPage
  seqs : List (Nat × Word)
  packets : List Packet
  switches : List Switch
  swAllocs : List SwAlloc
  quotas : List (Nat × Nat × Nat)
  groups : List Group
  rounds : List Round
  contribs : List Contribution
  deliveries : List Delivery
  residues : List Residue
  requests : List PeerRequest
  arrivals : List Arrival
  tenants : Vector Tenant 64
  admissions : List Admission
  predSignals : List PredSignal
  tokens : List EarlyToken
  hold : Option (Word × Option Nat)
  nextNode : Word
  nextId : Nat
  rrTenant : Nat
  parkedCmds : List (Nat × Command)
  parkedMatrix : List (Nat × Core)
  host : HostPort
  unit : Module
  clk : Nat
  clkFloor : Nat
  tick : Nat
  inFlight : Bool
  agenda : List Turn
  deriving DecidableEq, Repr

/-! ## Reset -/

def LogEntry.empty : LogEntry :=
  { state := .free, replay := false, engine := false, acc := none, todo := 0, parked := [], got := [], blocks := []
    stores := [], tags := [], seq := 0, join := false, holds := false, recs := none, relNo := 0, card := none }

/-- The registers as a crew start leaves them, less the seeds of `%srnd` (04 R96). -/
def Regs.start : Regs :=
  { v := Vector.replicate 128 (Lanes.all 0), s := Vector.replicate 32 0, p := Vector.replicate 8 0
    emask := 0xFFFFFFFF, blk := 0, xstat := 0, srnd := Lanes.all 1
    tslot := Vector.ofFn fun k => BitVec.ofNat 8 k.val
    tcause := 0, tdet0 := 0, tdet1 := 0, tdet2 := 0, tpc := 0, tlanes := 0, tslots := 0, dstack := [] }

/-- No gang: what stands in `State.g` while no gang has the turn. -/
def Gang.vacant : Gang :=
  { uid := 0, status := .vacant, crew := 0, node := 0, ens := 0, crewNo := 0, gangNo := 0, stage := 0, die := 0, core := 0
    role := .general, tenant := 0, nV := 128, blockMode := false, codeBase := 0
    r := Regs.start, src := none, srcLog := Vector.replicate 4 .empty, olog := Vector.replicate 4 .empty, hlog := Vector.replicate 4 .empty
    handler := none, restoring := false, bank := Vector.replicate 8 0
    cur := ⟨0, 0⟩, slot := 0, pc := ⟨0, 0⟩, fetched := none, windows := [], hwindows := [], monitor := none, wait := .none
    alone := [], arriving := [], relPending := none, stepReq := false, stepDue := none, outstanding := 0, reports := []
    reportsLost := 0, reportDue := false, engReports := [], evictDue := false, watchdogDue := none, errorDue := none, card := none
    parkedWait := none, handlerReport := none, reported := false, runStart := 0 }

/-- A core with nothing resident (19 R419: engines and control stores cleared, caches invalid). -/
def Core.empty : Core :=
  { picker := 0, cmds := [], fifoA := [], fifoB := [], roomA := 65536, roomB := 65536, latchA := none, latchB := none, pickA := none
    pickB := none, tasks := [], tiles := none, matrixOf := none, pages := [], wc := [], l1 := [], packets := [], tables := [] }

/-- A die after power-on: caches invalid, umbra pool size zero (19 R419). The eclipse phase is not specified (01 R23);
DESIGN CHOICE, log entry 3. -/
def Die.reset : Die :=
  { lines := [], grains := [], peers := [], epoch := 0, relNo := 0, pool := 0, early := 0, eclipse := ⟨0, 13200⟩ }

def HostQueue.reset : HostQueue := ⟨0, false, 0, 0, 0⟩

/-- A cleared tenant record (19 R419); the combining age is 100 when the tenant is created (15 R330). -/
def Tenant.reset : Tenant :=
  { valid := false, priv := false, ceiling := 0, refused := false, root1 := 0, root2 := 0, handler := 0, ctxBase := 0
    ctxSlots := 0, ctxUsed := [], runLimit := 0, saveLimit := 0, aperture := 0, image := 0, imageCount := 0, age := 100
    hbmWeight := 0, fabricWeight := 0, msix := 0, resetting := false, queues := Vector.replicate 16 .reset
    lastError := ⟨0, 0, 0, 0, 0, 0, 0, 0, 0, 0, 0⟩ }

/-- The host side after power-on (19 R414, R419): cause 1, ready. -/
def HostPort.reset : HostPort :=
  { resetCause := 1, ready := true, overflow := false, sideBandOnly := false, evBase := 0, evEnabled := false, evLog := 0
    evHead := 0, evTail := 0, evStalls := 0, evPhase := true, buffers := [], held := [], msixTable := []
    msixPending := [], raised := [], poolRegs := Vector.replicate 8 0, resetAsked := 0, readData := [], spdm := [], sideBand := 0 }

/-- A link trained, with its key for phase 0 installed (19 R419, R425). -/
def Link.trained : Link :=
  { up := true, phase := false, rollover := .steady, failures := 0, key0 := some 0, key1 := none, rolled := 0 }

def Module.reset : Module :=
  { firmware := [], firmwareOk := true, capWatts := 4600, clockMhz := 3300, unreachable := false, railOn := true }

/-- The machine right after a power-on start whose firmware verified (19 R419, R423): no tenant, no node, no gang, every
cache and engine empty, links trained, memory with nothing listed. -/
def State.reset : State :=
  { g := .vacant, gangs := [], crews := [], ensembles := [], nodes := [], cores := [], dies := Vector.replicate 8 .reset
    spad := [], mem := [], versions := [], zeroings := [], hostLines := [], twinHome := [], tags := [], waiters := [], locks := [], directory := []
    records := [], copies := [], writeBacks := [], fills := [], releases := [], tlb := [], pkg := 0, domain := [0]
    links := Vector.replicate 18 .trained, downLinks := [], peerPages := [], seqs := [], packets := [], switches := []
    swAllocs := [], quotas := [], groups := [], rounds := [], contribs := [], deliveries := [], residues := []
    requests := [], arrivals := [], tenants := Vector.replicate 64 .reset, admissions := [], predSignals := [], tokens := [], hold := none
    nextNode := 0, nextId := 1, rrTenant := 0, parkedCmds := [], parkedMatrix := [], host := .reset, unit := .reset, clk := 0
    clkFloor := 0, tick := 0, inFlight := false, agenda := [] }

end Sys2Proof.Machine
end

