-- ==== Sys2Proof/Machine/Ops.lean ====
section
/-! DEFINITION. The named operations over memory, maps, registers, gangs, cores and dies; taking a trap, the end of a node in
error, and leaving handler mode (03, 04, 06, 18). -/

namespace Sys2Proof.Machine

/-! ## Lists kept in ascending order of a key -/

/-- The entry of a key. -/
def lookup {α : Type} : List (Nat × α) → Nat → Option α
  | [], _ => none
  | (k, x) :: r, a => if k = a then some x else lookup r a

/-- The list with the key's entry set. -/
def upsert {α : Type} : List (Nat × α) → Nat → α → List (Nat × α)
  | [], a, x => [(a, x)]
  | (k, y) :: r, a, x => if a < k then (a, x) :: (k, y) :: r else if a = k then (a, x) :: r else (k, y) :: upsert r a x

/-- The list without the key. -/
def eraseKey {α : Type} : List (Nat × α) → Nat → List (Nat × α)
  | [], _ => []
  | (k, y) :: r, a => if k = a then r else (k, y) :: eraseKey r a

/-- The list with every element that fits changed. -/
def mapIf {α : Type} (p : α → Bool) (f : α → α) (l : List α) : List α := l.map fun x => if p x then f x else x

/-! ## Memory: bytes at addresses, sorted, no entry equal to what an unlisted address reads as -/

/-- What an unlisted address reads as. DESIGN CHOICE (log entries 1 and 2): memory after power-on is unspecified. -/
def Memory.unlisted : Byte := 0

def Memory.get : Memory → Nat → Byte
  | [], _ => Memory.unlisted
  | (k, b) :: r, a => if k = a then b else if a < k then Memory.unlisted else Memory.get r a

def Memory.set : Memory → Nat → Byte → Memory
  | [], a, b => if b = Memory.unlisted then [] else [(a, b)]
  | (k, c) :: r, a, b =>
    if a < k then (if b = Memory.unlisted then (k, c) :: r else (a, b) :: (k, c) :: r)
    else if a = k then (if b = Memory.unlisted then r else (a, b) :: r)
    else (k, c) :: Memory.set r a b

/-- The canonical form: addresses strictly rising above `lo`, no entry equal to what an unlisted address reads as. -/
def Memory.wfFrom : Nat → Memory → Bool
  | _, [] => true
  | lo, (k, b) :: r => lo ≤ k && b != Memory.unlisted && Memory.wfFrom (k + 1) r

def Memory.wf (m : Memory) : Bool := Memory.wfFrom 0 m

/-- The n bytes from address a, lowest first. -/
def Memory.read (m : Memory) (a : Nat) : Nat → List Byte
  | 0 => []
  | n + 1 => m.get a :: Memory.read m (a + 1) n

/-- Bytes written from address a upward. -/
def Memory.write (m : Memory) (a : Nat) : List Byte → Memory
  | [] => m
  | b :: r => Memory.write (m.set a b) (a + 1) r

/-- The number that bytes hold, lowest first (00 R1). -/
def ofBytes : List Byte → Nat
  | [] => 0
  | b :: r => b.toNat + 256 * ofBytes r

/-- The n low bytes of a number, lowest first (00 R1). -/
def toBytes : Nat → Nat → List Byte
  | 0, _ => []
  | n + 1, x => BitVec.ofNat 8 x :: toBytes n (x / 256)

def zeros (n : Nat) : List Byte := List.replicate n 0

/-- n bytes of a list from position k. -/
def slice (l : List Byte) (k n : Nat) : List Byte := (l.drop k).take n

/-- A list with the bytes from position k replaced. -/
def patch (l : List Byte) (k : Nat) (bs : List Byte) : List Byte :=
  l.take k ++ bs.take (l.length - k) ++ l.drop (k + bs.length)

/-- Bits hi : lo of a number. -/
def bits (x hi lo : Nat) : Nat := x / 2 ^ lo % 2 ^ (hi + 1 - lo)

/-! ## Registers (04 R94) -/

def Regs.vreg (r : Regs) (n : Nat) : Lanes Word := if h : n < 128 then r.v[n] else Lanes.all 0

/-- `s0` reads zero (03 R76). -/
def Regs.sreg (r : Regs) (n : Nat) : Dword := if n = 0 then 0 else if h : n < 32 then r.s[n] else 0

/-- `p0` reads all ones (04 R94). -/
def Regs.preg (r : Regs) (n : Nat) : Word := if n = 0 then 0xFFFFFFFF else if h : n < 8 then r.p[n] else 0

def Regs.setV (r : Regs) (n : Nat) (x : Lanes Word) : Regs := { r with v := r.v.setIfInBounds n x }

/-- Writes to `s0` are ignored (03 R76). -/
def Regs.setS (r : Regs) (n : Nat) (x : Dword) : Regs := if n = 0 then r else { r with s := r.s.setIfInBounds n x }

/-- Writes to `p0` are ignored (04 R94). -/
def Regs.setP (r : Regs) (n : Nat) (x : Word) : Regs := if n = 0 then r else { r with p := r.p.setIfInBounds n x }

/-- Bit L of a lane mask. -/
def lane (m : Word) (L : Fin 32) : Bool := m.getLsbD L.val

/-- The mask of the lanes for which f holds. -/
def laneMask (f : Fin 32 → Bool) : Word := lanes32.foldl (fun m L => if f L then m ||| (1#32 <<< L.val) else m) 0

/-- A vector with the lanes of m replaced (04 R99). -/
def merge (m : Word) (old new : Lanes Word) : Lanes Word := Lanes.of fun L => if lane m L then new[L] else old[L]

/-- The lanes of m of a predicate replaced (04 R99). -/
def mergeP (m old new : Word) : Word := (old &&& ~~~m) ||| (new &&& m)

/-! ## The gang whose turn it is -/

def State.setG (s : State) (f : Gang → Gang) : State := { s with g := f s.g }

def State.setR (s : State) (f : Regs → Regs) : State := { s with g := { s.g with r := f s.g.r } }

/-- The registers a word reads: those captured for its chain group, where it stands in one (03 R78). -/
def State.src (s : State) : Regs := s.g.src.getD s.g.r

/-- The operand log a word reads: as its chain group found it, where it stands in one (03 R78). -/
def State.srcOlog (s : State) : Vector LogEntry 4 := if s.g.src.isSome then s.g.srcLog else s.g.olog

/-- Sets sticky flags (04 R100). -/
def State.flag (s : State) (f : Flags) : State := s.setR fun r => { r with xstat := r.xstat ||| f }

/-- The mask a word runs under. -/
def State.emask (s : State) : Word := s.src.emask

/-- A gang by its uid, wherever it stands. -/
def State.gang? (s : State) (uid : Nat) : Option Gang :=
  if s.g.uid = uid ∧ s.g.status ≠ .vacant then some s.g else s.gangs.find? fun g => g.uid = uid && g.status != .vacant

def State.updGang (s : State) (uid : Nat) (f : Gang → Gang) : State :=
  if s.g.uid = uid ∧ s.g.status ≠ .vacant then { s with g := f s.g }
  else { s with gangs := mapIf (fun g => g.uid = uid && g.status != .vacant) f s.gangs }

/-- Every gang. -/
def State.allGangs (s : State) : List Gang := (if s.g.status = .vacant then [] else [s.g]) ++ s.gangs

def State.mapGangs (s : State) (f : Gang → Gang) : State := { s with g := f s.g, gangs := s.gangs.map f }

/-- The state with gang `uid` in the place of the gang whose turn it is. -/
def State.focus (s : State) (uid : Nat) : State :=
  if s.g.uid = uid ∧ s.g.status ≠ .vacant then s
  else
    match s.gangs.find? fun g => g.uid = uid && g.status != .vacant with
    | some g => { s with g := g, gangs := (if s.g.status = .vacant then [] else [s.g]) ++ s.gangs.filter fun h => h.uid != uid }
    | none => s

/-! ## Cores, dies, crews, nodes, tenants -/

/-- A core's index in the package: 40 × die + core (01 R8). -/
def coreIndex (die : Nat) (core : Nat) : Nat := 40 * die + core

def Gang.coreIx (g : Gang) : Nat := coreIndex g.die.toNat g.core.toNat

/-- Cores 30-39 of a die are stream cores (01 R8). -/
def isStreamCore (c : Nat) : Bool := 30 ≤ c % 40

def State.core (s : State) (c : Nat) : Core := (lookup s.cores c).getD Core.empty

def State.setCore (s : State) (c : Nat) (f : Core → Core) : State := { s with cores := upsert s.cores c (f (s.core c)) }

def State.die (s : State) (d : Nat) : Die := if h : d < 8 then s.dies[d] else Die.reset

def State.setDie (s : State) (d : Nat) (f : Die → Die) : State := { s with dies := s.dies.setIfInBounds d (f (s.die d)) }

def State.tenant (s : State) (t : BitVec 6) : Tenant := if h : t.toNat < 64 then s.tenants[t.toNat] else Tenant.reset

def State.setTenant (s : State) (t : BitVec 6) (f : Tenant → Tenant) : State :=
  { s with tenants := s.tenants.setIfInBounds t.toNat (f (s.tenant t)) }

def State.crew? (s : State) (uid : Nat) : Option Crew := s.crews.find? fun c => c.uid = uid

def State.setCrew (s : State) (uid : Nat) (f : Crew → Crew) : State := { s with crews := mapIf (fun c => c.uid = uid) f s.crews }

def State.ensemble? (s : State) (uid : Nat) : Option Ensemble := s.ensembles.find? fun e => e.uid = uid

def State.setEnsemble (s : State) (uid : Nat) (f : Ensemble → Ensemble) : State :=
  { s with ensembles := mapIf (fun e => e.uid = uid) f s.ensembles }

def State.node? (s : State) (id : Word) : Option Node := s.nodes.find? fun n => n.id = id

def State.setNode (s : State) (id : Word) (f : Node → Node) : State := { s with nodes := mapIf (fun n => n.id = id) f s.nodes }

/-- A fresh number of the model's own (log entry 4). -/
def State.fresh (s : State) : Nat × State := (s.nextId, { s with nextId := s.nextId + 1 })

/-- A gang is privileged when its tenant is (12 R290). -/
def State.privileged (s : State) : Bool := (s.tenant s.g.tenant).priv

/-! ## Events waiting for the event queue (19 R417) -/

/-- The events that wait in an origin's overflow buffer. -/
def HostPort.buffer (h : HostPort) (origin : Nat) : List HostEvent := (lookup h.buffers origin).getD []

/-- The ring: its entries, and whether it is full (19 R416, R417). -/
def HostPort.ringSize (h : HostPort) : Nat := 2 ^ (h.evLog.toNat + 6)

def HostPort.ringFull (h : HostPort) : Bool := (h.evTail.toNat + 1) % h.ringSize = h.evHead.toNat % h.ringSize

/-- The origin's overflow buffer has room for an event. -/
def HostPort.hasRoom (h : HostPort) (origin : Nat) : Bool := (h.buffer origin).length < 64 && h.held.all fun x => x.origin != origin

/-- An event enters its origin's overflow buffer; where that is full, a gang's event (kind 1) is held back, and another is merged
into its kind's summary (19 R417). One that finds the ring full or disabled counts one overflow stall (19 R416). -/
def enqueueEvent (e : HostEvent) (s0 : State) : State :=
  let s := if s0.host.evEnabled && !s0.host.ringFull then s0 else { s0 with host := { s0.host with evStalls := s0.host.evStalls + 1 } }
  let h := s.host
  if h.hasRoom e.origin then
    { s with host := { h with buffers := upsert h.buffers e.origin (h.buffer e.origin ++ [e]) } }
  else if e.kind ≠ 1 ∧ h.held.any (fun x => x.origin = e.origin ∧ x.kind = e.kind) then
    { s with host := { h with
        overflow := true
        held := mapIf (fun x => x.origin = e.origin ∧ x.kind = e.kind)
          (fun x => { x with merged := min 127 (x.merged + 1), detail := if e.kind = 4 ∨ e.kind = 5 then e.detail else x.detail }) h.held } }
  else { s with host := { h with overflow := true, held := h.held ++ [e] } }

/-- Line locks held or asked for by gangs that are gone are given up (12 R281). -/
def dropLocks (gone : Nat → Bool) (l : List Lock) : List Lock :=
  (l.map fun x => { x with holder := if gone x.holder then 0 else x.holder, queue := x.queue.filter fun u => !gone u }).filter fun x =>
    !(x.holder = 0 && x.queue.isEmpty)

/-! ## A node ends in error (18 R405) -/

/-- The trap registers of a gang as an event's detail: `%tcause`, `%tdet0`, `%tdet1`, `%tdet2` (19 R416). -/
def trapDetail (r : Regs) : BitVec 128 := r.tdet2 ++ r.tdet1 ++ r.tdet0 ++ (r.tcause.setWidth 32)

/-- The event of a node in error: a gang's is of its die, with its trap registers, another the hub's (19 R416). -/
def nodeEvent (n : Node) (who : Option Gang) : HostEvent :=
  ⟨1, match who with
    | some g => g.die.toNat
    | none => 12, n.desc.tenant, n.id, match who with
    | some g => trapDetail g.r
    | none => 0, 0⟩

/-- The node ends in error: its crews stop at once, their commands and tasks are abandoned and their context slots freed; the
signal is written later, when the node completes (18 R405). `who` is the gang whose trap registers are reported. -/
def endNode (n : Node) (code : Byte) (who : Option Gang) (s : State) : State :=
  let id := n.id
  let t := n.desc.tenant.setWidth 6
  let le : LastError := match who with
    | some g => ⟨id, code, g.ens, g.crewNo, g.gangNo, g.r.tcause, g.r.tdet0, g.r.tdet1, g.r.tdet2, g.r.tpc, g.r.tlanes⟩
    | none => ⟨id, code, 0, 0, 0, 0, 0, 0, 0, 0, 0⟩
  let slots := (s.crews.filter fun c => c.node = id).filterMap fun c => c.saveArea
  let s1 := s.setNode id fun m => { m with error := some ⟨code, (nodeEvent n who).origin, (nodeEvent n who).detail⟩, errorHeld := none }
  let s2 := s1.setTenant t fun T => { T with lastError := le, ctxUsed := T.ctxUsed.filter fun x => !slots.contains x }
  { s2 with
    g := if s2.g.node = id ∧ s2.g.status ≠ .vacant then { s2.g with status := .stopped, wait := .none, arriving := [] } else s2.g
    gangs := mapIf (fun g => g.node = id) (fun g => { g with status := .stopped, wait := .none, arriving := [] }) s2.gangs
    locks := dropLocks (fun u => s2.allGangs.any fun g => g.uid = u && g.node = id) s2.locks
    crews := s2.crews.filter fun c => c.node != id
    ensembles := s2.ensembles.filter fun e => e.node != id
    parkedCmds := s2.parkedCmds.filter fun c => c.2.node != id
    parkedMatrix := s2.parkedMatrix.filter fun c => s2.crews.all fun w => !(w.uid = c.1 && w.node = id)
    cores := s2.cores.map fun (k, c) => (k, { c with
      cmds := c.cmds.filter fun x => x.node != id
      tasks := c.tasks.filter fun x => x.node != id
      matrixOf := match c.matrixOf with
        | some u => if s2.crews.any (fun w => w.uid = u ∧ w.node = id) then none else some u
        | none => none }) }

/-- A gang stands still at its fault (19 R417). -/
def stopGang (uid : Nat) (s : State) : State := s.updGang uid fun g => { g with status := .stopped, wait := .none }

/-- A node meets an error: it ends, and its event arises. Where a gang's event finds no room in its die's overflow buffer, that gang alone
stands still at its fault until the event has entered; the node then ends (19 R417). -/
def nodeError (id : Word) (code : Byte) (who : Option Gang) (s : State) : State :=
  match s.node? id with
  | none => s
  | some n =>
    let stop (s : State) : State := match who with
      | some g => stopGang g.uid s
      | none => s
    if n.error.isSome then s
    else if n.errorHeld.isSome then stop s
    else
      let s1 := enqueueEvent (nodeEvent n who) s
      match who with
      | none => endNode n code none s1
      | some g =>
        if s.host.hasRoom (nodeEvent n who).origin then endNode n code who s1
        else stop (s1.setNode id fun m => { m with errorHeld := some (code, g.uid) })

/-! ## Taking a trap (06 R180-R182) -/

/-- An operand-log entry of the gang's present mode (06 R174). -/
def Gang.log (g : Gang) : Vector LogEntry 4 := if g.handler.isSome then g.hlog else g.olog

def Gang.setLog (g : Gang) (l : Vector LogEntry 4) : Gang := if g.handler.isSome then { g with hlog := l } else { g with olog := l }

def Gang.entry (g : Gang) (e : Nat) : LogEntry := if h : e < 4 then g.log[e] else LogEntry.empty

def Gang.setEntry (g : Gang) (e : Nat) (x : LogEntry) : Gang := g.setLog (g.log.setIfInBounds e x)

/-- An access of the gang is in flight, or an arrival whose release is not complete: a trap waits for it (06 R180; log entry 31). -/
def Gang.busy (g : Gang) : Bool := (g.log.toList.any fun x => x.state = .inFlight) || !g.arriving.isEmpty

/-- `%tslots` bits 35:32 (06 R176). -/
def Gang.faultedBits (g : Gang) : BitVec 4 :=
  BitVec.ofNat 4 (((List.range 4).filter fun e => (g.olog.toList.getD e LogEntry.empty).state = .faulted).foldl (fun a e => a + 2 ^ e) 0)

/-- A program counter as `%tpc` holds it (06 R176). -/
def Pc.toBits (p : Pc) : BitVec 34 := p.slot ++ p.packet

/-- The chain group after slot `slot` of a packet, n words on (03 R69). -/
def Pc.advance (p : Pc) (n : Nat) : Pc :=
  if p.slot.toNat + n < 3 then ⟨p.packet, BitVec.ofNat 2 (p.slot.toNat + n)⟩ else ⟨p.packet + 1, 0⟩

/-- s24-s31 exchanged with the handler bank (06 R180). -/
def Gang.swapBank (g : Gang) : Gang :=
  { g with
    r := { g.r with s := Vector.ofFn fun k : Fin 32 => if h : 24 ≤ k.val then g.bank[k.val - 24]'(by omega) else g.r.s[k] }
    bank := Vector.ofFn fun k : Fin 8 => g.r.s[k.val + 24]'(by omega) }

/-- The trap registers loaded (06 R180). -/
def Gang.loadTrap (g : Gang) (cause : BitVec 13) (det : BitVec 96) (lanes : Word) (entry : Nat) (resume : Pc) : Gang :=
  { g with r := { g.r with
      tcause := cause
      tdet0 := det.extractLsb' 0 32
      tdet1 := det.extractLsb' 32 32
      tdet2 := det.extractLsb' 64 32
      tlanes := lanes
      tpc := resume.toBits
      tslots := BitVec.ofNat 39 (g.r.emask.toNat + g.faultedBits.toNat * 2 ^ 32 + entry % 4 * 2 ^ 36) } }

/-- A cause: the group in bits 12:8, the code below (06 R176). -/
def causeOf (group code : Nat) : BitVec 13 := BitVec.ofNat 13 (group * 256 + code)

/-- A gang leaves a `bar.wait`: the object's waiting count goes down by one (05 R131, R169). The object's address is a scratchpad
key of State. -/
def leaveBarrier (s : State) : State :=
  match s.g.wait with
  | .barWait core a =>
    let k := core * 2 ^ 20 + a
    let w := ofBytes (s.spad.read (k + 8) 2)
    { s with spad := s.spad.write (k + 8) (toBytes 2 (w - 1)) }
  | _ => s

/-- The lowest operand-log entry that is not faulted. -/
def Gang.quietEntry (g : Gang) : Option Nat := (List.range 4).find? fun e => (g.olog.toList.getD e LogEntry.empty).state != .faulted

/-- The number of the reported entry (06 R176). For a trap that reports none the spec gives no number; an entry that is not faulted is named, so
that `tret` replays each faulted one by its own lanes (06 R187, R188). DESIGN CHOICE (log entry 58). -/
def Gang.named (g : Gang) (lanes : Word) (entry : Nat) : Nat := if lanes = 0 then g.quietEntry.getD 0 else entry

/-- Entering the handler (06 R180); in handler mode a trap is a double fault (06 R182): the gang stops with the trap registers
of that trap (log entry 13) and its node ends in error. -/
def enterTrap (group code : Nat) (det : BitVec 96) (lanes : Word) (entry : Nat) (resume : Pc) (s : State) : State :=
  if s.g.handler.isSome then
    let g := { s.g with src := none }.loadTrap (causeOf group code) det lanes (s.g.named lanes entry) resume
    nodeError g.node 3 (some g) { s with g := g }
  else
    (leaveBarrier s).setG fun g0 =>
      let g := { g0 with src := none }.loadTrap (causeOf group code) det lanes (g0.named lanes entry) resume
      { g.swapBank with
        r := { g.swapBank.r with emask := 0xFFFFFFFF }
        handler := some (causeOf group code)
        cur := ⟨BitVec.ofNat 32 (4 * group), 0⟩
        pc := ⟨BitVec.ofNat 32 (4 * group), 0⟩
        fetched := none
        hwindows := []
        relPending := none
        card := none
        handlerReport := none
        reported := lanes != 0 || g0.quietEntry.isSome
        wait := .none }

/-- The word stays to issue again at the gang's next turn. -/
def stall (s : State) : State := s.setG fun g => { g with pc := g.cur, src := none }

/-- `take_trap` (06 R180): it waits until no entry of the operand log is in flight. -/
def takeTrap (group code : Nat) (det : BitVec 96) (lanes : Word) (entry : Nat) (resume : Pc) (s : State) : State :=
  if s.g.busy then stall s else enterTrap group code det lanes entry resume s

/-- Where the word that runs stands. -/
def Gang.place (g : Gang) : Pc := ⟨g.cur.packet, g.slot⟩

/-- The word that runs, as fetched. -/
def State.curWord (s : State) : Nat :=
  match s.g.fetched with
  | some (_, ws) => (ws.getD s.g.slot.toNat 0).toNat
  | none => 0

/-- The detail of groups 5, 6 and 14 for a word: itself, its packet, its slot (06 R177). -/
def wordDetail (w : Nat) (p : Pc) : BitVec 96 := BitVec.ofNat 96 (w + p.packet.toNat * 2 ^ 32 + p.slot.toNat * 2 ^ 64)

/-- An issue trap of the word that runs (06 R171, R177). -/
def issueTrap (group code : Nat) (s : State) : State :=
  takeTrap group code (wordDetail s.curWord s.g.place) 0 0 s.g.cur s

/-! ## Leaving handler mode (06 R187) -/

/-- The resume point of `%tpc`: slot 3 names slot 0 of the next packet. -/
def resumePoint (r : Regs) : Pc :=
  if r.tpc.extractLsb' 32 2 = 3 then ⟨r.tpc.extractLsb' 0 32 + 1, 0⟩ else ⟨r.tpc.extractLsb' 0 32, r.tpc.extractLsb' 32 2⟩

/-- The part of `tret` that leaves handler mode: the bank, the mask, the program counter, the single-step request; `r` are the trap registers
as the group of the `tret` found them (03 R78). -/
def leaveHandler (r : Regs) (s : State) : State :=
  s.setG fun g =>
    { g.swapBank with
      r := { g.swapBank.r with emask := r.tslots.extractLsb' 0 32 }
      handler := none
      fetched := none
      hwindows := []
      cur := resumePoint r
      pc := resumePoint r
      stepReq := g.stepReq || r.tslots.getLsbD 38 }

end Sys2Proof.Machine
end

