-- ==== Sys2Proof/Machine/Issue.lean ====
section
/-! DEFINITION. What the issue of a word tests before the word has any effect: the engine, the role, the registers and the
mode (01 R12; 03 R73-R75; 04 R95, R103-R105; 06 R182, R184), and what it reads and writes (03 R79, R81). -/

namespace Sys2Proof.Machine

/-- When a word may issue, by mode (06 R184). -/
inductive ModeRule where
  | any | handlerOnly | evictHandlerOnly | normalOnly
  deriving DecidableEq, Repr, Inhabited

/-- What the fields of a word say about its issue. `srcA` and `srcB` are vector registers that a fixed block field holds;
`srcD` and `dst` never are (04 R103, R104). `sp` is a special register written (03 R79); `conv` is
the slot of a conversion (04 R126). -/
structure Shape where
  major : Nat
  bad : Option Nat := none
  block : Bool := false
  dst : List Nat := []
  srcA : List Nat := []
  srcB : List Nat := []
  srcD : List Nat := []
  sr : List Nat := []
  sw : List Nat := []
  pr : List Nat := []
  pw : List Nat := []
  sp : List Nat := []
  la : Nat := 0
  mode : ModeRule := .any
  priv : Option Nat := none
  conv : Option Nat := none
  deriving DecidableEq, Repr, Inhabited

/-- `%blk` in force: rows, columns, stride, and whether va and vb are held fixed (04 R103); off in handler mode (06 R180). -/
structure Block where
  rows : Nat
  cols : Nat
  stride : Nat
  af : Bool
  bf : Bool
  deriving DecidableEq, Repr, Inhabited

def Block.single : Block := ⟨1, 1, 0, false, false⟩

def blockOf (s : State) : Block :=
  if s.g.blockMode && s.g.handler.isNone then
    let b := s.src.blk.toNat
    ⟨bits b 1 0 + 1, bits b 3 2 + 1, bits b 8 4, bits b 9 9 = 1, bits b 10 10 = 1⟩
  else Block.single

/-- The elements (i, j) of a block in row-major order, as offsets from the register field. -/
def Block.offsets (b : Block) : List Nat :=
  (List.range b.rows).flatMap fun i => (List.range b.cols).map fun j => i * b.stride + j

/-- The registers a field names over a block (04 R104). -/
def Block.span (b : Block) (fixed : Bool) (f : Nat) : List Nat := if fixed then [f] else b.offsets.map fun k => f + k

def Shape.blk (sh : Shape) (s : State) : Block := if sh.block then blockOf s else Block.single

/-- The vector registers written, and those read. -/
def Shape.vWrites (sh : Shape) (b : Block) : List Nat := sh.dst.flatMap (b.span false)
def Shape.vReads (sh : Shape) (b : Block) : List Nat :=
  sh.srcA.flatMap (b.span b.af) ++ sh.srcB.flatMap (b.span b.bf) ++ sh.srcD.flatMap (b.span false)

/-- Registers written, for the write-conflict and dependence tests (03 R79): not `s0`, not `p0`. -/
def Shape.writes (sh : Shape) (b : Block) : List RegName :=
  (sh.vWrites b).map .v ++ (sh.sw.filter (· != 0)).map .s ++ (sh.pw.filter (· != 0)).map .p ++ sh.sp.map .sp

def Shape.reads (sh : Shape) (b : Block) : List RegName :=
  (sh.vReads b).map .v ++ (sh.sr.filter (· != 0)).map .s ++ (sh.pr.filter (· != 0)).map .p

/-- The majors a role may issue (01 R12). -/
def roleAllows (r : Role) (m : Nat) : Bool :=
  (1 ≤ m && m ≤ 9) || (0x1A ≤ m && m ≤ 0x1F) || (0x28 ≤ m && m ≤ 0x2B) ||
    match r with
    | .general => (0x0A ≤ m && m ≤ 0x19) || (0x20 ≤ m && m ≤ 0x23) || (0x2C ≤ m && m ≤ 0x33) || (0x38 ≤ m && m ≤ 0x3B)
    | .copy => 0x20 ≤ m && m ≤ 0x23
    | .matrix => 0x24 ≤ m && m ≤ 0x27
    | .vector => (0x0A ≤ m && m ≤ 0x19) || (0x2C ≤ m && m ≤ 0x2F) || (0x38 ≤ m && m ≤ 0x3B)

/-- Handler mode forbids these majors (06 R182). -/
def handlerForbids (m : Nat) : Bool := (0x1A ≤ m && m ≤ 0x1D) || (0x20 ≤ m && m ≤ 0x33) || (0x38 ≤ m && m ≤ 0x3B)

/-- The word needs an engine that the core lacks (03 R74); `fifo` marks `cp.fifo`. -/
def engineAbsent (m : Nat) (fifo : Bool) (core : Nat) : Bool :=
  if isStreamCore core then (0x24 ≤ m && m ≤ 0x27) || fifo else m = 0x22 || m = 0x23

/-- The lowest of several codes that may apply (03 R75). -/
def lowest : List (Option Nat) → Option Nat
  | [] => none
  | x :: r =>
    match x, lowest r with
    | some a, some b => some (min a b)
    | some a, none => some a
    | none, y => y

def codeIf (b : Bool) (c : Nat) : Option Nat := if b then some c else none

/-- A vector register field, or an element of its block, is numbered n_v or higher (04 R95, R105). -/
def rangeBad (s : State) (sh : Shape) : Bool :=
  (sh.vWrites (sh.blk s) ++ sh.vReads (sh.blk s)).any fun n => 127 < n || s.g.nV ≤ n

/-- The code of group 5 a word takes by itself, if any (03 R75); 0x0F takes precedence (03 R74). -/
def illegalCode (s : State) (sh : Shape) (fifo : Bool) : Option Nat :=
  if engineAbsent sh.major fifo s.g.coreIx then some 0x0F
  else lowest [sh.bad, codeIf (rangeBad s sh) 0x07, codeIf (s.g.handler.isNone && !roleAllows s.g.role sh.major) 0x0D]

/-- The code of group 6 a word takes by itself, if any (06 R182, R184; 12 R290). -/
def privilegeCode (s : State) (sh : Shape) : Option Nat :=
  match s.g.handler with
  | some c =>
    if handlerForbids sh.major ∨ sh.mode = .normalOnly ∨ (sh.mode = .evictHandlerOnly ∧ c ≠ causeOf 16 1) then some 2 else none
  | none =>
    if sh.mode = .handlerOnly ∨ sh.mode = .evictHandlerOnly then some 1
    else if !s.privileged then sh.priv
    else none

/-- The record of an identifier in the descriptor cache of a core, for a node (01 R33). -/
def recordAt (s : State) (core : Nat) (node : Word) (ident : Nat) : BitVec 320 :=
  match (s.core core).tables.find? fun t => t.1 = node with
  | some (_, l) => l.getD ident 0
  | none => 0

def recordOf (s : State) (ident : Byte) : BitVec 320 := recordAt s s.g.coreIx s.g.node ident.toNat

/-- The identifier a slot holds (01 R34). -/
def slotIdent (r : Regs) (t : Nat) : Byte := if h : t < 8 then r.tslot[t] else 0

/-- The format of a record that a conversion may use: valid and well formed (04 R126). -/
def convFormat (rec : BitVec 320) : Option Elem := if rec.getLsbD 308 then elemOf (rec.extractLsb' 57 24).toNat else none

/-- The detail of groups 1, 2 and 3 (06 R177). -/
def accessDetail (addr : Nat) (kind : Nat) (window stage2 : Bool) (entry lane ident : Nat) : BitVec 96 :=
  BitVec.ofNat 96 (addr % 2 ^ 64 + kind % 8 * 2 ^ 64 + (if window then 2 ^ 67 else 0) + (if stage2 then 2 ^ 68 else 0) +
    entry % 4 * 2 ^ 69 + lane % 32 * 2 ^ 71 + ident % 256 * 2 ^ 76)

/-- The trap of a conversion whose slot's record is invalid (04 R126). -/
def convTrap (s : State) (sh : Shape) : Option (BitVec 96) :=
  match sh.conv with
  | none => none
  | some t =>
    if (convFormat (recordOf s (slotIdent s.src t))).isSome then none
    else some (accessDetail 0 6 false false 0 0 (slotIdent s.src t).toNat)

/-- The issue trap a word takes by itself: group, code and detail; `w` is the word, `p` where it stands. -/
def issueCode (s : State) (sh : Shape) (fifo : Bool) (w : Nat) (p : Pc) : Option (Nat × Nat × BitVec 96) :=
  match illegalCode s sh fifo with
  | some c => some (5, c, wordDetail w p)
  | none =>
    match privilegeCode s sh with
    | some c => some (6, c, wordDetail w p)
    | none => (convTrap s sh).map fun d => (2, 6, d)

/-- A word issues: it takes its issue trap, or has its effect. -/
def issue (sh : Shape) (body : State → State) (s : State) (fifo : Bool := false) : State :=
  match issueCode s sh fifo s.curWord s.g.place with
  | some (g, c, d) => takeTrap g c d 0 0 s.g.cur s
  | none => body s

/-! ## Pipes (03 R73) -/

inductive Pipe where
  | S | V | B | M | E
  deriving DecidableEq, Repr, Inhabited

def pipeOf (m : Nat) : Pipe :=
  if m ≤ 4 ∨ m = 0x1E ∨ m = 0x1F then .S
  else if m = 5 then .M
  else if m ≤ 9 then .B
  else if m ≤ 0x14 ∨ 0x38 ≤ m then .V
  else if m ≤ 0x1D ∨ (0x28 ≤ m ∧ m ≤ 0x2B) then .M
  else .E

/-! ## The shapes of the formats (03 R71) -/

/-- A run of n registers from f passes v127 (05 R150). -/
def runBad (f n : Nat) : Option Nat := codeIf (128 < f + n) 0x07

def run (f n : Nat) : List Nat := (List.range n).map fun k => f + k

/-- Scalar results from scalar sources. -/
def shS (m : Nat) (d : Nat) (srcs : List Nat) : Shape := { major := m, sr := srcs, sw := [d] }
/-- Block words: from a and b; from a; from a, b and the old d (04 R104). -/
def shV (m d a b : Nat) : Shape := { major := m, block := true, dst := [d], srcA := [a], srcB := [b] }
def shV1 (m d a : Nat) : Shape := { major := m, block := true, dst := [d], srcA := [a] }
def shVD (m d a b : Nat) : Shape := { major := m, block := true, dst := [d], srcA := [a], srcB := [b], srcD := [d] }
/-- Conversions: `keep` where the old d is read; mode codes 5-7 are reserved (04 R124). -/
def shCvt (d a mode : Nat) (keep : Bool) : Shape :=
  { major := 0x11, block := true, dst := [d], srcA := [a], srcD := if keep then [d] else [], bad := codeIf (4 < mode) 0x05 }
def shCvtSlot (d a mode slot : Nat) : Shape :=
  { major := 0x11, block := true, dst := [d], srcA := [a], bad := lowest [codeIf (slot = 0) 0x04, codeIf (4 < mode) 0x05]
    conv := some slot }
/-- Words that never use a block. -/
def shVT (d a la : Nat) : Shape := { major := 0x0F, dst := [d], srcA := [a], la := la }
def shCmp (p a b : Nat) : Shape := { major := 0x12, pw := [p], srcA := [a], srcB := [b] }
def shX (d a : Nat) : Shape := { major := 0x13, dst := [d], srcA := [a] }
/-- Branches. -/
def shB (m : Nat) (pr sr : List Nat) : Shape := { major := m, pr := pr, sr := sr }

end Sys2Proof.Machine
end

