-- ==== Sys2Proof/Machine/Operands.lean ====
section
/-! DEFINITION. The operand forms of words that touch no memory: scalar words, block words, predicate results, cross-lane reads
(03 R71, R78; 04 R98, R99, R103-R105; 04 R105, 05 R148). -/

namespace Sys2Proof.Machine

/-- What a step answers. -/
abbrev Out := Host.Outcome State Fault Refusal

/-- A word that writes one scalar register from the registers it reads. -/
def scalarWord (sh : Shape) (d : Nat) (f : Regs → Dword) (s : State) : State :=
  issue sh (fun s => s.setR fun r => r.setS d (f s.src)) s

/-- A word that writes one predicate register whole. -/
def predWord (sh : Shape) (d : Nat) (f : Regs → Word) (s : State) : State :=
  issue sh (fun s => s.setR fun r => r.setP d (f s.src)) s

/-- The flags of the active lanes together. -/
def laneFlags (m : Word) (f : Lanes (Word × Flags)) : Flags :=
  lanes32.foldl (fun a L => if lane m L then a ||| f[L].2 else a) 0

/-- One step of the stochastic source in the lanes of m (02 R45). -/
def stepSrnd (m : Word) (x : Lanes Half) : Lanes Half := Lanes.of fun L => if lane m L then srndFix (srndStep x[L]) else x[L]

/-- What a vector word computes in one lane: from the registers read, the lane, a, b, d and the random number. -/
abbrev LaneOp := Regs → Fin 32 → Word → Word → Word → Half → Word × Flags

def lane1 (f : Word → Word) : LaneOp := fun _ _ a _ _ _ => (f a, 0)
def lane2 (f : Word → Word → Word) : LaneOp := fun _ _ a b _ _ => (f a b, 0)
def lane3 (f : Word → Word → Word → Word) : LaneOp := fun _ _ a b d _ => (f a b d, 0)
def lane1f (f : Word → Word × Flags) : LaneOp := fun _ _ a _ _ _ => f a
def lane2f (f : Word → Word → Word × Flags) : LaneOp := fun _ _ a b _ _ => f a b
def lane3f (f : Word → Word → Word → Word × Flags) : LaneOp := fun _ _ a b d _ => f a b d

/-- One element of a block word: results in the active lanes of register D, flags, and the stochastic source where the word
rounds with it (04 R105). `q` holds the sources, `r` the registers written. -/
def blockElem (rs : Bool) (op : LaneOp) (q : Regs) (D A B : Nat) (r : Regs) : Regs :=
  let m := q.emask
  let st := if rs then stepSrnd m r.srnd else r.srnd
  let x := q.vreg A
  let y := q.vreg B
  let z := q.vreg D
  let res : Lanes (Word × Flags) := Lanes.of fun L => if lane m L then op q L x[L] y[L] z[L] st[L] else (0, 0)
  { r.setV D (merge m (r.vreg D) (Lanes.of fun L => res[L].1)) with
    srnd := st, xstat := r.xstat ||| laneFlags m res }

/-- The elements of a block word in row-major order (04 R105). -/
def blockRun (rs : Bool) (op : LaneOp) (q : Regs) (b : Block) (d va vb : Nat) :
    List Nat → Regs → Regs
  | [], r => r
  | k :: ks, r =>
    blockRun rs op q b d va vb ks
      (blockElem rs op q (d + k) (if b.af then va else va + k) (if b.bf then vb else vb + k) r)

/-- A word that rounds stochastically steps the sources its group found, in the lanes it is active in (03 R78, 06 R183). -/
def srndFrom (rs : Bool) (q r : Regs) : Regs :=
  if rs then { r with srnd := Lanes.of fun L => if lane q.emask L then q.srnd[L] else r.srnd[L] } else r

/-- `block_word` (04 R105). -/
def blockWord (sh : Shape) (rs : Bool) (d va vb : Nat) (op : LaneOp) (s : State) : State :=
  issue sh (fun s => s.setR fun r => blockRun rs op s.src (sh.blk s) d va vb (sh.blk s).offsets (srndFrom rs s.src r)) s

/-! ## Lookahead windows (03 R80-R83) -/

/-- The windows of the gang's present mode (06 R187). -/
def Gang.wins (g : Gang) : List Window := if g.handler.isSome then g.hwindows else g.windows

def Gang.setWins (g : Gang) (w : List Window) : Gang := if g.handler.isSome then { g with hwindows := w } else { g with windows := w }

/-- A word opens its window: the registers it writes, its lookahead, the operand-log entry its results wait for. -/
def openWindow (sh : Shape) (entry : Option Nat) (s : State) : State :=
  if sh.la = 0 ∧ entry = none then s
  else s.setG fun g => g.setWins (g.wins ++ [⟨sh.writes Block.single, sh.la, entry, none⟩])

/-- Open windows end (03 R80): the next word stands past each of them. -/
def endWindows (s : State) : State := s.setG fun g => g.setWins (g.wins.map fun w => { w with left := 0 })

/-- A vector word that never uses a block: each active lane from the sources (04 R104, 05 R148). -/
def laneWord (sh : Shape) (d : Nat) (f : Regs → Fin 32 → Word × Flags) (s : State) : State :=
  issue sh (fun s =>
    let q := s.src
    let m := q.emask
    let res : Lanes (Word × Flags) := Lanes.of fun L => if lane m L then f q L else (0, 0)
    openWindow sh none
      (s.setR fun r => { r.setV d (merge m (r.vreg d) (Lanes.of fun L => res[L].1)) with xstat := r.xstat ||| laneFlags m res })) s

/-- A word that writes the active lanes' bits of a predicate (04 R128, 05 R148). -/
def lanePredWord (sh : Shape) (d : Nat) (f : Regs → Fin 32 → Bool) (s : State) : State :=
  issue sh (fun s =>
    let q := s.src
    s.setR fun r => r.setP d (mergeP q.emask (r.preg d) (laneMask (f q)))) s

/-- The values of a register in the active lanes, ascending. -/
def activeValues (m : Word) (x : Lanes Word) : List Word := (lanes32.filter fun L => lane m L).map fun L => x[L]

/-- A word without an effect of its own. -/
def noEffect (sh : Shape) (s : State) : State := issue sh (fun s => s) s

end Sys2Proof.Machine
end

