-- ==== Sys2Proof/Machine/Home.lean ====
section
/-! DEFINITION. The homes: line versions, writes at a home, the owned-mode directory, diff records and their application
(01 R18-R22; 12 R257-R271). -/

namespace Sys2Proof.Machine

/-! ## Fabric physical addresses (01 R18-R20) -/

/-- What an address names. -/
inductive Region where
  | hbm | weight | host | regs | reserved
  deriving DecidableEq, Repr, Inhabited

/-- The package physical map (01 R19). -/
def regionOf (ppa : Nat) : Region :=
  if ppa < 0xC000000000 then .hbm
  else if 0x100000000000 ≤ ppa ∧ ppa < 0x100100000000 then .weight
  else if 0x200000000000 ≤ ppa ∧ ppa < 0x300000000000 then .host
  else if 0x3F0000000000 ≤ ppa ∧ ppa < 0x400000000000 then .regs
  else .reserved

def isSwitch (fpa : Nat) : Bool := 2 ^ 63 ≤ fpa
def switchOf (fpa : Nat) : Nat := bits fpa 62 51
def generationOf (fpa : Nat) : Nat := bits fpa 50 39
def granuleOf (fpa : Nat) : Nat := bits fpa 38 25
def packageOf (fpa : Nat) : Nat := bits fpa 58 46
def ppaOf (fpa : Nat) : Nat := bits fpa 45 0

def State.fpa (s : State) (ppa : Nat) : Nat := s.pkg.toNat * 2 ^ 46 + ppa

/-- The address lies in this package. -/
def State.isLocal (s : State) (fpa : Nat) : Bool := !isSwitch fpa && packageOf fpa = s.pkg.toNat

/-- The address lies in this package's HBM (12 R256). -/
def State.isHbm (s : State) (fpa : Nat) : Bool := s.isLocal fpa && regionOf (ppaOf fpa) = .hbm

def lineOf (a : Nat) : Nat := a / 128
def sectorOf (a : Nat) : Nat := a / 32

/-! ## Versions and writes (12 R264, R260) -/

/-- Writes to a line at its point of coherence so far. Its low 16 bits are the version of a twin-mode line. -/
def State.version (s : State) (line : Nat) : Nat :=
  (lookup s.versions line).getD 0 + (s.zeroings.filter fun z => z.1 ≤ line && line < z.1 + z.2).length

def State.version16 (s : State) (line : Nat) : Half := BitVec.ofNat 16 (s.version line)

/-- One more write to a line: the version advances, any release tag goes (12 R271), and the host, snooped first, has given its copy up
(19 R415; log entry 94). -/
def bump (line : Nat) (s : State) : State :=
  { s with
    versions := upsert s.versions line ((lookup s.versions line).getD 0 + 1)
    tags := eraseKey s.tags line
    hostLines := s.hostLines.filter (· != line) }

/-- Bytes of one line written at the home, with its version. -/
def homeWrite (a : Nat) (bs : List Byte) (s : State) : State := bump (lineOf a) { s with mem := s.mem.write a bs }

/-- The most writes that one access, with the recalls it makes, adds to a line's version, the records of the line apart. A bound of the
MODEL's own (log entry 87). -/
def bumpRoom : Nat := 64

/-- A write to the line could carry its version 2^15 past that of a fill in flight (12 R264): the records on their way to the line, and
what one access adds, are counted ahead. -/
def State.versionFull (s : State) (line : Nat) : Bool :=
  s.fills.any fun f =>
    f.line = line && 32768 ≤ (s.version16 line - f.version).toNat + (s.records.filter fun r => r.line = line).length + bumpRoom

/-- Accesses to a line wait: it is locked by the quadrille or by a zeroing (12 R281, R288), or its version may advance no further past
a fill in flight (12 R264). -/
def State.locked (s : State) (line : Nat) : Bool := (s.locks.any fun l => l.line = line) || s.versionFull line

/-! ## Fills overtaken (12 R273, 13 R300) -/

/-- Fills of a die for a line, asked before now, are not installed: they go to the loads that wait for them alone. -/
def overtakeFills (d line : Nat) (s : State) : State :=
  { s with fills := mapIf (fun f => f.die = d && f.line = line) (fun f => { f with install := false }) s.fills }

/-! ## L1 sectors -/

/-- The L1 of a core keeps sectors by number; those for which p holds are dropped. -/
def dropL1 (c : Nat) (p : Nat → Bool) (s : State) : State :=
  s.setCore c fun k => { k with l1 := k.l1.filter fun x => !p x.1 }

/-- Every L1 of a die drops sectors. -/
def dropL1s (d : Nat) (p : Nat → Bool) (s : State) : State :=
  { s with cores := s.cores.map fun (c, k) => if c / 40 = d then (c, { k with l1 := k.l1.filter fun x => !p x.1 }) else (c, k) }

/-! ## Owned mode: the directory (12 R258-R260) -/

/-- Sectors of a grain by its code: 32, 128 or 512 bytes (12 R255). -/
def grainSectors (g : BitVec 2) : Nat := if g = 0 then 1 else if g = 1 then 4 else 16

/-- The first sector of the grain of an address. -/
def grainBase (g : BitVec 2) (a : Nat) : Nat := sectorOf a / grainSectors g * grainSectors g

def State.dirEntry (s : State) (base n : Nat) : DirEntry :=
  (s.directory.find? fun e => e.base = base && e.sectors = n).getD ⟨base, n, [], none, 0, 0⟩

def State.setDir (s : State) (e : DirEntry) : State :=
  { s with directory := e :: s.directory.filter fun x => !(x.base = e.base && x.sectors = e.sectors) }

/-- A die's copy of a grain. -/
def Die.grain (D : Die) (base n : Nat) : Option GrainCopy := D.grains.find? fun x => x.base = base && x.data.length = 32 * n

def dropGrain (d base n : Nat) (s : State) : State :=
  (dropL1s d (fun k => base ≤ k && k < base + n) s).setDie d fun D =>
    { D with grains := D.grains.filter fun x => !(x.base = base && x.data.length = 32 * n) }

def setGrain (d base : Nat) (data : List Byte) (s : State) : State :=
  s.setDie d fun D => { D with grains := ⟨base, data⟩ :: D.grains.filter fun x => !(x.base = base && x.data.length = data.length) }

/-- The owner's bytes of a grain: its copy, or the write-back under way with the current version (12 R259). -/
def ownerData (s : State) (e : DirEntry) (d : Nat) : List Byte :=
  match (s.die d).grain e.base e.sectors with
  | some g => g.data
  | none =>
    match s.writeBacks.find? fun w => w.die = d && w.base = e.base && w.data.length = 32 * e.sectors && w.version = e.version with
    | some w => w.data
    | none => s.mem.read (32 * e.base) (32 * e.sectors)

/-- The lines of a grain. -/
def grainLines (base n : Nat) : List Nat := (List.range ((n + 3) / 4)).map fun k => base / 4 + k

def bumpLines (ls : List Nat) (s : State) : State := ls.foldl (fun s l => bump l s) s

/-- Recall of a grain: an owner's bytes go to the home, every copy is dropped (12 R257, R259). `keep` discards the bytes instead
(12 R285, R288). -/
def recallGrain (e : DirEntry) (keep : Bool) (s : State) : State :=
  let s1 := match e.owner with
    | some d =>
      let s0 := if keep then { s with mem := s.mem.write (32 * e.base) (ownerData s e d) } else s
      bumpLines (grainLines e.base e.sectors) s0
    | none => s
  let s2 := (match e.owner with
    | some d => d :: e.sharers
    | none => e.sharers).foldl (fun s d => dropGrain d e.base e.sectors s) s1
  s2.setDir { e with owner := none, sharers := [], version := if e.owner.isSome then e.version + 1 else e.version }

/-- Directory entries that overlap sectors. -/
def State.dirOverlap (s : State) (base n : Nat) : List DirEntry :=
  s.directory.filter fun e => e.base < base + n && base < e.base + e.sectors

/-- Every owned-mode copy of some sectors returns to the home. -/
def recallSectors (base n : Nat) (keep : Bool) (s : State) : State :=
  (s.dirOverlap base n).foldl (fun s e => recallGrain e keep s) s

/-- A new transfer of the grain waits: a write-back of it is under way and the version has advanced 255 times (12 R259). -/
def State.transferWaits (s : State) (base n : Nat) : Bool :=
  s.writeBacks.any fun w => w.base = base && w.data.length = 32 * n && 255 ≤ ((s.dirEntry base n).version - w.version).toNat

/-- A recall of some sectors waits for the transfer of an owned grain among them (12 R259). -/
def State.recallWaits (s : State) (base n : Nat) : Bool :=
  (s.dirOverlap base n).any fun e => e.owner.isSome && s.transferWaits e.base e.sectors

/-- Grains of another size over the same sectors are recalled first (12 R257). -/
def recallOthers (base n : Nat) (s : State) : State :=
  ((s.dirOverlap base n).filter fun e => !(e.base = base && e.sectors = n)).foldl (fun s e => recallGrain e true s) s

/-- A shared copy of a grain in a die (12 R258). -/
def shareGrain (d base n : Nat) (s : State) : State :=
  if ((s.die d).grain base n).isSome then s
  else
    let s0 := recallOthers base n s
    let e := s0.dirEntry base n
    let s1 := match e.owner with
      | some o =>
        let data := ownerData s0 e o
        let s1 := bumpLines (grainLines base n) { s0 with mem := s0.mem.write (32 * base) data }
        (if o = d then s1 else setGrain o base data s1).setDir
          { e with owner := none, sharers := if o = d then [] else [o], version := e.version + 1 }
      | none => s0
    let e1 := s1.dirEntry base n
    (setGrain d base (s1.mem.read (32 * base) (32 * n)) s1).setDir { e1 with sharers := d :: e1.sharers }

/-- Ownership of a grain for a die: every other copy goes (12 R258). -/
def ownGrain (d base n : Nat) (s : State) : State :=
  let s0 := recallOthers base n s
  let e := s0.dirEntry base n
  if e.owner = some d ∧ ((s0.die d).grain base n).isSome then s0
  else
    let data := match e.owner with
      | some o => ownerData s0 e o
      | none => s0.mem.read (32 * base) (32 * n)
    let s1 := { s0 with mem := s0.mem.write (32 * base) data }
    let s2 := (e.sharers ++ e.owner.toList).foldl (fun s o => if o = d then s else dropGrain o base n s) s1
    bumpLines (grainLines base n)
      ((setGrain d base data s2).setDir { e with owner := some d, sharers := [], version := e.version + 1 })

/-- The bytes at the point of coherence: an owning die's, else the home's (12 R260, 13 R295). -/
def pocByte (s : State) (a : Nat) : Byte :=
  match s.directory.find? fun e => e.owner.isSome && e.base ≤ sectorOf a && sectorOf a < e.base + e.sectors with
  | some e =>
    match e.owner with
    | some d => (ownerData s e d).getD (a - 32 * e.base) 0
    | none => s.mem.get a
  | none => s.mem.get a

def pocRead (s : State) (a n : Nat) : List Byte := (List.range n).map fun k => pocByte s (a + k)

/-! ## Twin mode: die copies (12 R261-R268) -/

def Die.line? (D : Die) (line : Nat) : Option LineCopy := D.lines.find? fun l => l.line = line

def Die.setLine (D : Die) (l : LineCopy) : Die := { D with lines := l :: D.lines.filter fun x => x.line != l.line }

def Die.dropLine (D : Die) (line : Nat) : Die := { D with lines := D.lines.filter fun x => x.line != line }

/-- A die gives up its copy of a line; fills asked before are overtaken. -/
def dropCopy (d line : Nat) (s : State) : State := (overtakeFills d line s).setDie d fun D => D.dropLine line

/-- Twins in use and the pool's capacity (12 R262). -/
def Die.twinsUsed (D : Die) : Nat := D.lines.countP fun l => l.twin.isSome
def Die.capacity (D : Die) : Nat := D.pool * 8192

/-- The runs of changed bytes of a line against its twin (12 R267). `skip` counts unchanged bytes so far, `cur` the run open now. -/
def diffRuns : List Byte → List Byte → Nat → List Byte → List DiffRun
  | x :: xs, t :: ts, skip, cur =>
    if x = t then (if cur.isEmpty then diffRuns xs ts (skip + 1) [] else ⟨skip, cur⟩ :: diffRuns xs ts 1 [])
    else diffRuns xs ts skip (cur ++ [x])
  | _, _, skip, cur => if cur.isEmpty then [] else [⟨skip, cur⟩]

def runsOf (data twin : List Byte) : List DiffRun := diffRuns data twin 0 []

/-- The runs written over a line's bytes. -/
def applyRuns : List DiffRun → Nat → List Byte → List Byte
  | [], _, l => l
  | r :: rs, k, l => applyRuns rs (k + r.skip + r.data.length) (patch l (k + r.skip) r.data)

/-- A record leaves for a line's home (12 R265, R266); a line with no changed byte sends none (12 R267). -/
def sendRecord (d line : Nat) (runs : List DiffRun) (version : Half) (kind : PubKind) (tenant : BitVec 6) (fwd : List Nat)
    (s : State) : State :=
  if runs.isEmpty then s
  else
    let relNo := if kind = .release then (s.die d).relNo else 0
    let s1 := { s with nextId := s.nextId + 1, records := s.records ++ [⟨s.nextId, line, d, runs, version, relNo, kind, tenant, fwd⟩] }
    if kind = .early then s1.setDie d fun D => { D with early := D.early + 1 } else s1

/-- Publishing a dirty line: snapshot, difference, twin freed, in one step (12 R265). Fills asked before it lack what the die wrote and are
overtaken: no later load of the die may find their bytes (13 R300, R301). -/
def publish (d line : Nat) (kind : PubKind) (fwd : List Nat) (s : State) : State :=
  match (s.die d).line? line with
  | some l =>
    match l.twin with
    | some t =>
      sendRecord d line (runsOf l.data t.data) t.version kind t.tenant fwd
        ((overtakeFills d line s).setDie d fun D => D.setLine { l with twin := none })
    | none => s
  | none => s

/-! ## The die cache's capacity (00 R5, 01 R6; 12 R262, R263) -/

/-- Bytes of the die cache in use, and its size: 96 MiB less the umbra pool. -/
def Die.bytesHeld (D : Die) : Nat :=
  128 * D.lines.length + (D.grains.map fun g => g.data.length).sum + 128 * D.peers.length

def Die.cacheBytes (D : Die) : Nat := 2 ^ 20 * (96 - D.pool)

/-- A line leaves the die cache; a dirty one is published first (12 R263). -/
def evictLine (d line : Nat) (s : State) : State :=
  if d < 8 then dropCopy d line (publish d line .eviction [] s) else s

/-- A die evicts a grain: an owner's bytes leave under the version of its ownership (12 R259). -/
def voluntaryWriteBack (d base : Nat) (s : State) : State :=
  match (s.die d).grains.find? fun g => g.base = base with
  | some g =>
    let n := g.data.length / 32
    let e := s.dirEntry base n
    let s1 := dropGrain d base n s
    if e.owner = some d then { s1 with nextId := s1.nextId + 1, writeBacks := s1.writeBacks ++ [⟨s1.nextId, d, base, g.data, e.version⟩] }
    else s1.setDir { e with sharers := e.sharers.filter (· != d) }
  | none => s

/-- What a full cache gives up: the last of its peers' lines, else of its lines, else of its grains. Which it is, no rule says: DESIGN CHOICE
(log entry 88). -/
def evictOldest (d : Nat) (s : State) : State :=
    let D := s.die d
    match D.peers.getLast?, D.lines.getLast?, D.grains.getLast? with
    | some p, _, _ => s.setDie d fun D => { D with peers := eraseKey D.peers p.1 }
    | none, some l, _ => evictLine d l.line s
    | none, none, some g => voluntaryWriteBack d g.base s
    | none, none, none => s

/-- Evictions, of at most f entries, until n more bytes fit. -/
def evictUntil (d n : Nat) : Nat → State → State
  | 0, s => s
  | f + 1, s => if (s.die d).bytesHeld + n ≤ (s.die d).cacheBytes then s else evictUntil d n f (evictOldest d s)

/-- Room for n more bytes in the die cache. -/
def makeRoom (d n : Nat) (s : State) : State :=
  evictUntil d n ((s.die d).peers.length + (s.die d).lines.length + (s.die d).grains.length) s

/-- Room for a grain that the die does not hold. -/
def grainRoom (d base n : Nat) (s : State) : State := if ((s.die d).grain base n).isSome then s else makeRoom d (32 * n) s

/-- The dirty lines of a die. -/
def Die.dirty (D : Die) : List Nat := (D.lines.filter fun l => l.twin.isSome).map fun l => l.line

/-- The home applies a record whole, and returns the new version; forwarded copies leave for waiting dies (12 R268, R271). -/
def applyRecord (r : DiffRecord) (s : State) : State :=
  let a := 128 * r.line
  let s1 := homeWrite a (applyRuns r.runs 0 (s.mem.read a 128)) s
  let v := s1.version16 r.line
  let s2 := { s1 with records := s1.records.filter fun x => x.id != r.id }
  r.forwardTo.foldl (fun s d => { s with nextId := s.nextId + 1, copies := s.copies ++ [⟨s.nextId, d, r, v⟩] }) s2

/-- The records of a die for a line, oldest first. -/
def State.recordsOf (s : State) (d line : Nat) : List DiffRecord := s.records.filter fun r => r.die = d && r.line = line

/-- The records of a die for a line arrive before anything that follows them on that path. -/
def flushRecords (d line : Nat) (s : State) : State := (s.recordsOf d line).foldl (fun s r => applyRecord r s) s

/-- The home line as a die's next fill finds it: behind the die's own records for the line (13 R303). -/
def homeLineFor (s : State) (d line : Nat) : List Byte :=
  (s.recordsOf d line).foldl (fun l r => applyRuns r.runs 0 l) (s.mem.read (128 * line) 128)

/-- A home serves a line in twin mode: grains held in owned mode are recalled first, and the mode bit is set (12 R257). -/
def twinService (line : Nat) (s : State) : State :=
  let s1 := recallSectors (4 * line) 4 true s
  { s1 with twinHome := if s1.twinHome.contains line then s1.twinHome else line :: s1.twinHome }

/-- Every twin copy of a line is published and dropped, and its fills in flight are overtaken (12 R257). -/
def recallTwins (line : Nat) (s : State) : State :=
  (List.range 8).foldl (fun s d =>
    dropCopy d line (dropL1s d (fun k => k / 4 = line) (flushRecords d line (publish d line .maintenance [] s)))) s

/-- A home serves sectors in owned mode: every twin copy of their lines is recalled first (12 R257). -/
def ownedService (base n : Nat) (s : State) : State :=
  (grainLines base n).foldl (fun s line =>
    if s.twinHome.contains line then
      let s1 := recallTwins line s
      { s1 with twinHome := s1.twinHome.filter (· != line) }
    else s) s

/-- A twin-mode line in a die, filled where the die holds none (12 R264). -/
def twinLine (d line : Nat) (s : State) : LineCopy × State :=
  match (s.die d).line? line with
  | some l => (l, s)
  | none =>
    let s1 := makeRoom d 128 (twinService line s)
    let l : LineCopy := ⟨line, homeLineFor s1 d line, none, s1.version16 line, none⟩
    (l, s1.setDie d fun D => D.setLine l)

/-- A write into a die's copy of a twin-mode line (12 R261, R262): the first makes a twin, a momentary one where none is free. -/
def twinWrite (d : Nat) (tenant : BitVec 6) (a : Nat) (bs : List Byte) (s : State) : State :=
  let line := lineOf a
  let (l, s1) := twinLine d line s
  let data := patch l.data (a % 128) bs
  let D := s1.die d
  let t := l.twin.getD ⟨l.data, tenant, l.version, s1.nextId, D.capacity ≤ D.twinsUsed⟩
  { s1 with nextId := s1.nextId + 1 }.setDie d fun D => D.setLine { l with data := data, twin := some t, tag := none }

/-- The end of a write that found no twin free: each line's difference is published at once, as one early record, and the line stays clean
(12 R262). Every step that writes into a die's lines ends so, one memory word's writes to a line being one write: DEDUCED (log entry 77). -/
def landWrites (d : Nat) (s : State) : State :=
  ((s.die d).lines.filter fun l => match l.twin with
    | some t => t.momentary
    | none => false).foldl (fun s l => publish d l.line .early [] s) s

/-! ## L1 (13 R301) -/

/-- Sectors of an L1: 128 KiB on a matrix core, 256 KiB on a stream core (01 R8). -/
def l1Sectors (c : Nat) : Nat := if isStreamCore c then 8192 else 4096

/-- A line that a core uses stands in front of the others in its L1. -/
def touchL1 (c line : Nat) (s : State) : State :=
  s.setCore c fun k => { k with l1 := (k.l1.filter fun x => x.1 / 4 = line) ++ k.l1.filter fun x => x.1 / 4 != line }

/-- Sectors from a first one on put into a core's L1; where it is full, the lines used longest ago go, whole, so that the lanes of one word find
a line in one state (13 R306). Which lines go, no rule says: DESIGN CHOICE (log entry 88). -/
def fillL1Sectors (c base : Nat) (data : List Byte) (s : State) : State :=
  let n := data.length / 32
  let near (x : Nat × List Byte) : Bool := base / 4 ≤ x.1 / 4 && x.1 / 4 ≤ (base + n - 1) / 4
  s.setCore c fun k =>
    let old := k.l1.filter fun x => !(base ≤ x.1 && x.1 < base + n)
    let l := ((List.range n).map fun j => (base + j, slice data (32 * j) 32)) ++ old.filter near ++ old.filter fun x => !near x
    let gone := (l.drop (l1Sectors c)).map fun x => x.1 / 4
    { k with l1 := l.filter fun x => !gone.contains (x.1 / 4) }

/-- A line's four sectors put into a core's L1. -/
def fillL1 (c : Nat) (line : Nat) (data : List Byte) (s : State) : State := fillL1Sectors c (4 * line) data s

/-- Bytes written through to an L1 that holds their sector. -/
def patchL1 (c : Nat) (a : Nat) (bs : List Byte) (s : State) : State :=
  s.setCore c fun k => { k with l1 := mapIf (fun x => x.1 = sectorOf a) (fun x => (x.1, patch x.2 (a % 32) bs)) k.l1 }

/-- Bytes put into every L1 of a die that holds their sector (12 R277; 13 R309). -/
def patchL1s (d a : Nat) (bs : List Byte) (s : State) : State :=
  { s with cores := s.cores.map fun (c, k) =>
      if c / 40 = d then (c, { k with l1 := mapIf (fun x => x.1 = sectorOf a) (fun x => (x.1, patch x.2 (a % 32) bs)) k.l1 }) else (c, k) }

end Sys2Proof.Machine
end

