-- ==== Sys2Proof/Machine/DeviceRegs.lean ====
section
/-! DEFINITION. The device registers of BAR0: control block, tenant table, doorbells, event queue, MSI-X, pool sizes, switch table
(18 R406, R409, R411; 19 R413-R418), and the writing of events into their ring (19 R417). -/

namespace Sys2Proof.Machine

/-! ## The eclipse cadence (01 R23) -/

/-- Cycles of 4 µs at the clock as it stands: a window begins so often, and lasts four fifths of it. -/
def State.eclipsePeriod (s : State) : Nat := 4 * s.unit.clockMhz

/-- The cadence as the clock has it: the bank whose window began last, and when the next begins. -/
def Eclipse.now (E : Eclipse) (period clk : Nat) : Eclipse :=
  if clk < E.next ∨ period = 0 then E
  else
    let k := (clk - E.next) / period + 1
    ⟨E.bank + BitVec.ofNat 4 k, E.next + k * period⟩

def State.eclipseNow (s : State) (d : Nat) : Eclipse := (s.die d).eclipse.now s.eclipsePeriod s.clk

/-- The window of the bank is open: more than a fifth of the period is left. -/
def Eclipse.isOpen (E : Eclipse) (s : State) : Bool := s.eclipsePeriod < 5 * (E.next - s.clk)

/-- The age of a write-combining entry in cycles of the present clock. -/
def WcEntry.age (e : WcEntry) (clk : Nat) : Nat := e.lived + (clk - e.born)

/-- A change of the clock leaves the time to each next window, and the age of each write-combining entry, as they were, in the cycles of the new
clock, rounded down (01 R23; 15 R330; 19 R426; log entries 3 and 66). -/
def rescaleEclipse (mhz : Nat) (s : State) : State :=
  { s with
    cores := s.cores.map fun (c, k) =>
      (c, { k with wc := k.wc.map fun e => { e with born := s.clk, lived := e.age s.clk * mhz / s.unit.clockMhz } })
    dies := Vector.ofFn fun d : Fin 8 =>
      let E := s.eclipseNow d.val
      { s.dies[d] with eclipse := ⟨E.bank, s.clk + (E.next - s.clk) * mhz / s.unit.clockMhz⟩ }
    unit := { s.unit with clockMhz := mhz } }

/-! ## Interrupts (18 R409, 19 R418) -/

/-- A vector is raised; one whose table entry is masked becomes pending. Vectors past 2,047 raise nothing. -/
def raiseVector (v : Nat) (s : State) : State :=
  if 2047 < v then s
  else
    let masked := match lookup s.host.msixTable v with
      | some e => e.getLsbD 96
      | none => false
    { s with host :=
        if masked then { s.host with msixPending := if s.host.msixPending.contains v then s.host.msixPending else v :: s.host.msixPending }
        else { s.host with raised := s.host.raised ++ [v] } }

/-- The tenant's error vector: base + 16 (18 R409). -/
def raiseTenantError (t : BitVec 6) (s : State) : State := raiseVector ((s.tenant t).msix.toNat + 16) s

/-! ## The event ring (19 R416, R417) -/

/-- The 32 bytes of an entry (19 R416). -/
def eventBytes (e : HostEvent) (phase : Bool) : List Byte :=
  toBytes 2 e.kind ++ toBytes 1 e.origin ++ [e.tenant] ++ toBytes 4 e.node.toNat ++ toBytes 16 e.detail.toNat ++
    toBytes 7 e.merged ++ [if phase then 0x80 else 0]

/-- An event written at the tail as a `.sys` store; the tail advances and vector 0 is raised. -/
def writeEvent (e : HostEvent) (s : State) : State :=
  let h := s.host
  let a := s.fpa (0x200000000000 + h.evBase.toNat + 32 * h.evTail.toNat)
  let t := (h.evTail.toNat + 1) % h.ringSize
  raiseVector 0 (homeWrite a (eventBytes e h.evPhase)
    { s with host := { h with evTail := BitVec.ofNat 16 t, evPhase := if t = 0 then !h.evPhase else h.evPhase } })

/-- An event of kind 1 leaves only after its node's completion signal (19 R417). -/
def eventReady (s : State) (e : HostEvent) : Bool := e.kind != 1 || (s.node? e.node).isNone

/-- A waiting event enters an origin's buffer where one entry is free. -/
def refill (origin : Nat) (h : HostPort) : HostPort :=
  if (h.buffer origin).length < 64 then
    match h.held.find? fun e => e.origin = origin with
    | some e => { h with held := h.held.erase e, buffers := upsert h.buffers origin (h.buffer origin ++ [e]) }
    | none => h
  else h

/-- One event from an origin's buffer into the ring, where it may go. -/
def drainOrigin (origin : Nat) (s : State) : State :=
  match s.host.buffer origin with
  | e :: r =>
    if s.host.evEnabled && !s.host.ringFull && eventReady s e then
      writeEvent e { s with host := refill origin { s.host with buffers := upsert s.host.buffers origin r } }
    else s
  | [] => s

/-- A node whose gang's event has entered the buffer goes on to its end (19 R417). -/
def resumeErrors (s : State) : State :=
  s.nodes.foldl (fun s n => match n.errorHeld with
    | some (code, uid) => if s.host.held.any fun e => e.kind = 1 && e.node = n.id then s else endNode n code (s.gang? uid) s
    | none => s) s

/-- Events move into the ring while they can: at most 13 × 65 of them wait. -/
def drainEvents (s : State) : State :=
  resumeErrors ((List.range 65).foldl (fun s _ => (List.range 13).foldl (fun s o => drainOrigin o s) s) s)

/-- An event arises: it enters its buffer and goes on into the ring where it can. -/
def postEvent (e : HostEvent) (s : State) : State := drainEvents (enqueueEvent e s)

/-! ## The tenant table (18 R406) -/

/-- A tenant with a live node or an evicted context. -/
def State.tenantLive (s : State) (t : BitVec 6) : Bool :=
  (s.nodes.any fun n => n.desc.tenant.setWidth 6 = t) || !(s.tenant t).ctxUsed.isEmpty

/-- The last-error record: 16 words of 32 bits in the order the manual lists them. DESIGN CHOICE, log entry 14: the manual gives
no offsets inside the record. -/
def lastErrorWord (e : LastError) (k : Nat) : Nat :=
  match k with
  | 0 => e.node.toNat
  | 1 => e.code.toNat
  | 2 => e.ens.toNat
  | 3 => e.crew.toNat
  | 4 => e.gang.toNat
  | 5 => e.tcause.toNat
  | 6 => e.tdet0.toNat
  | 7 => e.tdet1.toNat
  | 8 => e.tdet2.toNat
  | 9 => e.tpc.toNat % 2 ^ 32
  | 10 => e.tpc.toNat / 2 ^ 32
  | 11 => e.tlanes.toNat
  | _ => 0

def queueAt (T : Tenant) (q : Nat) : HostQueue := if h : q < 16 then T.queues[q] else HostQueue.reset

/-- A 64-bit word of a tenant record. -/
def tenantWord (T : Tenant) (off : Nat) : Nat :=
  if off = 0x000 then
    (if T.valid then 1 else 0) + (if T.priv then 2 else 0) + T.ceiling.toNat * 4 + (if T.refused then 2 ^ 10 else 0)
  else if off = 0x008 then T.root1.toNat
  else if off = 0x010 then T.root2.toNat
  else if off = 0x018 then T.handler.toNat
  else if off = 0x020 then T.ctxBase.toNat
  else if off = 0x028 then T.ctxSlots
  else if off = 0x030 then T.runLimit.toNat
  else if off = 0x038 then T.saveLimit.toNat
  else if off = 0x040 then T.aperture.toNat
  else if off = 0x048 then T.image.toNat
  else if off = 0x050 then T.imageCount + T.age.toNat * 2 ^ 16 + max 1 T.hbmWeight.toNat * 2 ^ 32 + max 1 T.fabricWeight.toNat * 2 ^ 48
  else if off = 0x058 then T.msix.toNat
  else if off = 0x060 then (if T.resetting then 1 else 0)
  else if 0x080 ≤ off ∧ off < 0x180 then
    let q := queueAt T ((off - 0x80) / 16)
    if off % 16 = 0 then q.base.toNat + (if q.enabled then 2 ^ 63 else 0) else q.log.toNat + q.head.toNat * 2 ^ 16
  else if 0x180 ≤ off ∧ off < 0x1C0 then
    lastErrorWord T.lastError ((off - 0x180) / 4) + lastErrorWord T.lastError ((off - 0x180) / 4 + 1) * 2 ^ 32
  else 0

/-- A write to a live tenant's record: the ceiling, the limits, the combining age, the weights and the queue enables change; a write to any
other field is refused, to reserved bits without effect (18 R406; 00 R3). In a word that holds several fields, one is written where its value
changes (log entry 98). -/
def tenantWriteLive (off v : Nat) (T : Tenant) : Tenant :=
  let old := tenantWord T off
  if off = 0x000 then
    let T1 := { T with ceiling := BitVec.ofNat 8 (bits v 9 2) }
    { T1 with refused := (T1.refused && bits v 10 10 = 0) || bits v 1 0 != bits old 1 0 }
  else if off = 0x030 then { T with runLimit := BitVec.ofNat 64 v }
  else if off = 0x038 then { T with saveLimit := BitVec.ofNat 64 v }
  else if off = 0x050 then
    { T with age := BitVec.ofNat 16 (bits v 31 16), hbmWeight := BitVec.ofNat 16 (bits v 47 32), fabricWeight := BitVec.ofNat 16 (bits v 63 48)
             refused := T.refused || bits v 15 0 != bits old 15 0 }
  else if 0x080 ≤ off ∧ off < 0x180 ∧ off % 16 = 0 then
    let k := (off - 0x80) / 16
    { T with queues := T.queues.setIfInBounds k { queueAt T k with enabled := bits v 63 63 = 1 }
             refused := T.refused || bits v 56 0 != bits old 56 0 }
  else if 0x080 ≤ off ∧ off < 0x180 then { T with refused := T.refused || bits v 3 0 != bits old 3 0 || bits v 27 16 != bits old 27 16 }
  else { T with refused := T.refused || off ≤ 0x058 || (0x180 ≤ off && off < 0x1C0) }

/-- A write to a record of a tenant without a live node. -/
def tenantWriteIdle (off v : Nat) (T : Tenant) : Tenant :=
  if off = 0x000 then
    let created := !T.valid && bits v 0 0 = 1
    { T with valid := bits v 0 0 = 1, priv := bits v 1 1 = 1, ceiling := BitVec.ofNat 8 (bits v 9 2)
             refused := T.refused && bits v 10 10 = 0, age := if created then 100 else T.age }
  else if off = 0x008 then { T with root1 := BitVec.ofNat 64 v }
  else if off = 0x010 then { T with root2 := BitVec.ofNat 64 v }
  else if off = 0x018 then { T with handler := BitVec.ofNat 64 v }
  else if off = 0x020 then { T with ctxBase := BitVec.ofNat 64 v }
  else if off = 0x028 then { T with ctxSlots := v }
  else if off = 0x030 then { T with runLimit := BitVec.ofNat 64 v }
  else if off = 0x038 then { T with saveLimit := BitVec.ofNat 64 v }
  else if off = 0x040 then { T with aperture := BitVec.ofNat 64 v }
  else if off = 0x048 then { T with image := BitVec.ofNat 64 v }
  else if off = 0x050 then
    { T with imageCount := bits v 15 0, age := BitVec.ofNat 16 (bits v 31 16), hbmWeight := BitVec.ofNat 16 (bits v 47 32)
             fabricWeight := BitVec.ofNat 16 (bits v 63 48) }
  else if off = 0x058 then { T with msix := BitVec.ofNat 32 v }
  else if 0x080 ≤ off ∧ off < 0x180 then
    let k := (off - 0x80) / 16
    let q := queueAt T k
    let q1 : HostQueue := if off % 16 = 0 then { q with base := BitVec.ofNat 57 v, enabled := bits v 63 63 = 1 } else { q with log := BitVec.ofNat 4 v }
    { T with queues := T.queues.setIfInBounds k q1 }
  else T

/-- A write of a 64-bit word of a tenant record, by the host or a privileged gang (18 R406, 19 R411). -/
def writeTenant (t : BitVec 6) (off v : Nat) (s : State) : State :=
  let T := s.tenant t
  if T.resetting then s
  else if off = 0x060 then (if bits v 0 0 = 1 then s.setTenant t fun T => { T with resetting := true } else s)
  else s.setTenant t fun T => if s.tenantLive t then tenantWriteLive off v T else tenantWriteIdle off v T

/-- A doorbell: the queue's new tail (18 R390). None is accepted while a reset runs (19 R420). -/
def writeDoorbell (t : BitVec 6) (q tail : Nat) (s : State) : State :=
  if !s.host.ready then s
  else s.setTenant t fun T => { T with queues := T.queues.setIfInBounds q { queueAt T q with tail := BitVec.ofNat 12 tail } }

/-! ## The control block, the event registers, the rest (19 R413-R416) -/

/-- A switch-table word. DESIGN CHOICE, log entry 15: the manual gives no layout: plane, state, generation. -/
def switchWord (s : State) (id : Nat) : Nat :=
  match s.switches.find? fun w => w.id = id with
  | some w => w.plane + (match w.state with
    | .present => 1
    | .lost => 2
    | .absent => 0) * 2 ^ 8 + w.generation * 2 ^ 16
  | none => 0

/-- A 64-bit word of BAR0. -/
def readReg (s : State) (off : Nat) : Nat :=
  if off = 0x0 then 0x5A09 + Config.stepping.toNat * 2 ^ 16 + s.pkg.toNat * 2 ^ 32
  else if off = 0x10 then
    (if s.host.ready then 1 else 0) + (if s.host.overflow then 2 else 0) + (if s.host.sideBandOnly then 4 else 0) +
      s.host.resetCause.toNat * 256
  else if off = 0x18 then s.clk
  else if 0x10000 ≤ off ∧ off < 0x20000 then tenantWord (s.tenant (BitVec.ofNat 6 ((off - 0x10000) / 1024))) (off % 1024)
  else if 0x20000 ≤ off ∧ off < 0x21000 then
    let T := s.tenant (BitVec.ofNat 6 ((off - 0x20000) / 64))
    (queueAt T (off % 64 / 4)).tail.toNat + (queueAt T (off % 64 / 4 + 1)).tail.toNat * 2 ^ 32
  else if off = 0x30000 then s.host.evBase.toNat + (if s.host.evEnabled then 1 else 0)
  else if off = 0x30008 then s.host.evLog.toNat
  else if off = 0x30010 then s.host.evHead.toNat
  else if off = 0x30018 then s.host.evTail.toNat
  else if off = 0x30020 then s.host.evStalls.toNat
  else if 0x40000 ≤ off ∧ off < 0x48000 then
    bits ((lookup s.host.msixTable ((off - 0x40000) / 16)).getD 0).toNat (off % 16 * 8 + 63) (off % 16 * 8)
  else if 0x50000 ≤ off ∧ off < 0x50100 then
    ((List.range 64).filter fun k => s.host.msixPending.contains ((off - 0x50000) * 8 + k)).foldl (fun a k => a + 2 ^ k) 0
  else if 0x60000 ≤ off ∧ off < 0x60040 then (if h : (off - 0x60000) / 8 < 8 then s.host.poolRegs[(off - 0x60000) / 8].toNat else 0)
  else if 0x70000 ≤ off ∧ off < 0x78000 then switchWord s ((off - 0x70000) / 8)
  else 0

/-- An MSI-X table entry written; one unmasked while pending is raised. -/
def writeMsix (k off v : Nat) (s : State) : State :=
  let old := ((lookup s.host.msixTable k).getD 0).toNat
  let e : BitVec 128 := BitVec.ofNat 128 (if off = 0 then old / 2 ^ 64 * 2 ^ 64 + v else v * 2 ^ 64 + old % 2 ^ 64)
  let s1 := { s with host := { s.host with msixTable := upsert s.host.msixTable k e } }
  if s1.host.msixPending.contains k && !e.getLsbD 96 then
    raiseVector k { s1 with host := { s1.host with msixPending := s1.host.msixPending.filter (· != k) } }
  else s1

/-- A write of a 64-bit word of BAR0; `lo` and `hi` say which of its halves are written, and v holds the old bytes elsewhere. -/
def writeReg (off v : Nat) (lo hi : Bool) (s : State) : State :=
  if off = 0x8 then
    if lo && s.host.resetAsked = 0 then
      (if bits v 1 1 = 1 then { s with host := { s.host with resetAsked := 2 } }
       else if bits v 0 0 = 1 then { s with host := { s.host with resetAsked := 1 } } else s)
    else s
  else if off = 0x10 then (if lo && bits v 1 1 = 1 then { s with host := { s.host with overflow := false } } else s)
  else if 0x10000 ≤ off ∧ off < 0x20000 then
    let t := BitVec.ofNat 6 ((off - 0x10000) / 1024)
    -- the sticky bit and the vector base are written only with the low half
    if off % 1024 = 0x058 && !lo then s
    else writeTenant t (off % 1024) (if off % 1024 = 0 ∧ !lo ∧ bits v 10 10 = 1 then v - 2 ^ 10 else v) s
  else if 0x20000 ≤ off ∧ off < 0x21000 then
    let t := BitVec.ofNat 6 ((off - 0x20000) / 64)
    let q := off % 64 / 4
    let s1 := if lo then writeDoorbell t q (bits v 31 0) s else s
    if hi then writeDoorbell t (q + 1) (bits v 63 32) s1 else s1
  else if off = 0x30000 then
    drainEvents { s with host := { s.host with evBase := BitVec.ofNat 64 (bits v 51 12 * 4096), evEnabled := bits v 0 0 = 1 } }
  else if off = 0x30008 then
    (if bits v 3 0 ≤ 10 then { s with host := { s.host with evLog := BitVec.ofNat 4 (bits v 3 0) } } else s)
  else if off = 0x30010 then drainEvents { s with host := { s.host with evHead := BitVec.ofNat 16 v } }
  else if 0x40000 ≤ off ∧ off < 0x48000 then writeMsix ((off - 0x40000) / 16) (off % 16) v s
  else if 0x60000 ≤ off ∧ off < 0x60040 then
    (if bits v 4 0 ≤ 24 then
      { s with host := { s.host with poolRegs := s.host.poolRegs.setIfInBounds ((off - 0x60000) / 8) (BitVec.ofNat 5 (bits v 4 0)) } }
    else s)
  else s

/-- n bytes of the device-register range. -/
def readRegBytes (s : State) (off n : Nat) : List Byte :=
  (List.range n).map fun k => BitVec.ofNat 8 (readReg s ((off + k) / 8 * 8) / 2 ^ ((off + k) % 8 * 8))

/-- A word as a write of other bytes of it leaves it: a bit that a 1 clears is not written (18 R406, 19 R414). -/
def keptWord (s : State) (w : Nat) : Nat :=
  let x := readReg s w
  if w = 0x10 then x - bits x 1 1 * 2
  else if 0x10000 ≤ w ∧ w < 0x20000 ∧ w % 1024 = 0 then x - bits x 10 10 * 2 ^ 10
  else x

/-- Bytes written into one 64-bit word of the device-register range. -/
def writeRegBytes (off : Nat) (bs : List Byte) (s : State) : State :=
  let w := off / 8 * 8
  writeReg w (ofBytes (patch (toBytes 8 (keptWord s w)) (off % 8) bs)) (off % 8 < 4) (4 < off % 8 + bs.length) s

end Sys2Proof.Machine
end

