-- ==== Sys2Proof/Machine/Translate.lean ====
section
/-! DEFINITION. Translation: the two-stage walk, the switch aperture, page zeroing, the checks of an access, and the detail of a
fault (01 R17-R22; 06 R172, R177, R178; 12 R255, R288; 15 R341-R343; 18 R407). -/

namespace Sys2Proof.Machine

/-- Why a lane's access fails: group, code, the address of the detail, and whether the second stage failed. -/
structure Why where
  group : Nat
  code : Nat
  addr : Nat
  stage2 : Bool
  deriving DecidableEq, Repr, Inhabited

/-- The fault record of a failure (06 R177, 12 R292, 15 R360). -/
def faultRec (w : Why) (kind : Nat) (window : Bool) (entry lane ident : Nat) : FaultRec :=
  let det : BitVec 96 := match w.group with
    | 12 => BitVec.ofNat 96 (w.addr % 2 ^ 64)
    | 13 => BitVec.ofNat 96 (w.addr % 2 ^ 64 + switchOf w.addr * 2 ^ 64 + generationOf w.addr * 2 ^ 76)
    | 15 => BitVec.ofNat 96 (w.addr % 2 ^ 72)
    | 10 => accessDetail w.addr kind false w.stage2 entry lane 0
    | _ => accessDetail w.addr kind window w.stage2 entry lane ident
  ⟨causeOf w.group w.code, det⟩

/-- What a translation answers. -/
inductive Xl where
  | ok (fpa : Nat) (e : TlbEntry)
  | bad (w : Why)
  | wait
  deriving DecidableEq, Repr

/-- A table's entry, read at its point of coherence. -/
def tableEntry (s : State) (table ix : Nat) : Nat := ofBytes (pocRead s (table + 8 * ix) 8)

/-- log2 of the page a leaf maps (18 R407). -/
def leafShift (lvl : Nat) (group : Bool) : Nat :=
  match lvl, group with
  | 0, false => 12
  | 0, true => 16
  | 1, false => 21
  | 1, true => 25
  | _, false => 30
  | _, true => 35

/-- An entry of either stage is one a walk may use; `zeroBits` are its reserved bits (18 R407). -/
def entryUsable (e lvl : Nat) (reserved : Bool) : Bool :=
  let leaf := bits e 1 1 = 1
  let group := bits e 2 2 = 1
  bits e 0 0 = 1 && !reserved && !(leaf && 3 ≤ lvl) && !(!leaf && (lvl = 0 || group)) &&
    !(leaf && group && bits e 57 12 * 4096 % 2 ^ leafShift lvl true != 0)

/-- The address field of an entry: bits 57:12, with fabric bit 58 from bit 58 in stage two. -/
def entryAddr (e : Nat) (stage2 : Bool) : Nat := bits e 57 12 * 4096 + (if stage2 then bits e 58 58 * 2 ^ 58 else 0)

/-- A leaf found: the entry, where it stands, its level, log2 of its page, and whether an entry on the way was privileged. -/
structure Leaf where
  entry : Nat
  at_ : Nat
  lvl : Nat
  shift : Nat
  priv : Bool
  deriving DecidableEq, Repr

/-- The leaf's output address. -/
def Leaf.out (l : Leaf) (a : Nat) (stage2 : Bool) : Nat :=
  entryAddr l.entry stage2 / 2 ^ l.shift * 2 ^ l.shift + a % 2 ^ l.shift

/-- The second stage's walk from a table downward. Bits 62:59 are reserved bits of its entries (18 R407): an entry that sets one is one
that a walk may not use, so no translation yields an address with such a bit (01 R18), and group 1, code 0x04 does not arise from a table:
DESIGN CHOICE between the two rules (log entry 90). -/
def walk2 (s : State) (a : Nat) : Nat → Nat → Option Leaf
  | lvl, table =>
    let ix := bits a (20 + 9 * lvl) (12 + 9 * lvl)
    let e := tableEntry s table ix
    if !entryUsable e lvl (bits e 5 5 != 0 || bits e 11 6 != 0 || bits e 63 59 != 0) then none
    else if bits e 1 1 = 1 then some ⟨e, table + 8 * ix, lvl, leafShift lvl (bits e 2 2 = 1), false⟩
    else
      match lvl with
      | 0 => none
      | k + 1 => walk2 s a k (entryAddr e true)

/-- The second stage: intermediate address to fabric physical, with its leaf; none where nothing maps it. -/
def stage2 (s : State) (root : Dword) (ipa : Nat) : Option (Nat × Leaf) :=
  (walk2 s ipa 4 root.toNat).map fun l => (l.out ipa true, l)

/-- The first stage's walk; `.error true` where the second stage fails. -/
def walk1 (s : State) (T : Tenant) (a : Nat) : Nat → Nat → Bool → Except Bool Leaf
  | lvl, table, priv =>
    let ix := bits a (20 + 9 * lvl) (12 + 9 * lvl)
    match stage2 s T.root2 (table + 8 * ix) with
    | none => .error true
    | some (at_, _) =>
      let e := ofBytes (pocRead s at_ 8)
      let p := priv || bits e 5 5 = 1
      if !entryUsable e lvl (bits e 11 6 != 0 || bits e 63 63 != 0) then .error false
      else if bits e 1 1 = 1 then .ok ⟨e, at_, lvl, leafShift lvl (bits e 2 2 = 1), p⟩
      else
        match lvl with
        | 0 => .error false
        | k + 1 => walk1 s T a k (entryAddr e false) p

/-! ## Page zeroing (12 R288) -/

/-- Bytes at the homes become zero: owned grains are recalled and their bytes discarded, versions advance. -/
def zeroRange (a n : Nat) (s : State) : State :=
  let s1 := recallSectors (sectorOf a) ((n + 31) / 32) false s
  { s1 with
    mem := s1.mem.filter fun c => !(a ≤ c.1 && c.1 < a + n)
    zeroings := (lineOf a, (n + 127) / 128) :: s1.zeroings
    tags := s1.tags.filter fun t => !(lineOf a ≤ t.1 && t.1 < lineOf a + (n + 127) / 128)
    hostLines := s1.hostLines.filter fun l => !(lineOf a ≤ l && l < lineOf a + (n + 127) / 128) }

/-- The zeroing of bytes at the homes waits: one of their lines is locked, or may not advance (12 R264), or an owned grain's recall is
delayed (12 R259). -/
def zeroWaits (a n : Nat) (s : State) : Bool :=
  let here (line : Nat) : Bool := lineOf a ≤ line && line < lineOf a + (n + 127) / 128
  (s.locks.any fun l => here l.line) || (s.fills.any fun f => here f.line && s.versionFull f.line) || s.recallWaits (sectorOf a) ((n + 31) / 32)

/-- Whether the zeroing of a page's fabric pieces waits. -/
def zeroPageWaits (root : Dword) : Nat → Nat → Nat → State → Bool
  | 0, _, _, _ => false
  | k + 1, ipa, n, s =>
    if n = 0 then false
    else
      match stage2 s root ipa with
      | some (a, l) =>
        let m := min n (2 ^ l.shift - ipa % 2 ^ l.shift)
        zeroWaits a m s || zeroPageWaits root k (ipa + m) (n - m) s
      | none => zeroPageWaits root k (ipa + min n 4096) (n - min n 4096) s

/-- The page's fabric pieces, each as the second stage maps it, are zeroed. -/
def zeroPage (root : Dword) : Nat → Nat → Nat → State → State
  | 0, _, _, s => s
  | k + 1, ipa, n, s =>
    if n = 0 then s
    else
      match stage2 s root ipa with
      | some (a, l) =>
        let m := min n (2 ^ l.shift - ipa % 2 ^ l.shift)
        zeroPage root k (ipa + m) (n - m) (zeroRange a m s)
      | none => zeroPage root k (ipa + min n 4096) (n - min n 4096) s

/-- The entries of a leaf's group, by their addresses (18 R407). -/
def groupEntries (l : Leaf) : List Nat :=
  let c := if bits l.entry 2 2 = 0 then 1 else if l.lvl = 2 then 32 else 16
  let first := l.at_ - 8 * (l.at_ % 4096 / 8 % c)
  (List.range c).map fun k => first + 8 * k

/-- The home of an entry cannot write it now. -/
def homeBusy (a : Nat) (s : State) : Bool := s.locked (lineOf a) || s.recallWaits (sectorOf a) 1

/-- A write of one entry at its home, clearing its zero-pending bit. -/
def clearPending (a : Nat) (s : State) : State :=
  let s1 := recallSectors (sectorOf a) 1 true s
  let e := ofBytes (s1.mem.read a 8)
  if bits e 61 61 = 1 then homeWrite a (toBytes 8 (e - 2 ^ 61)) s1 else s1

/-! ## A translation -/

/-- First virtual address of the switch aperture: the top 4 TiB (15 R343). -/
def apertureBase : Nat := 0x1FFFC0000000000

/-- A cached translation of a tenant that covers an address. -/
def State.tlbHit (s : State) (t : BitVec 6) (va : Nat) : Option TlbEntry :=
  s.tlb.find? fun e => e.tenant = t && e.base ≤ va && va < e.base + e.size

def addTlb (e : TlbEntry) (s : State) : State := { s with tlb := e :: s.tlb }

/-- An address of this package's host window, which the coherence attributes of its entry do not touch (01 R20). -/
def State.inWindow (s : State) (fpa : Nat) : Bool := s.isLocal fpa && regionOf (ppaOf fpa) = .host

/-- The walk for an address no translation covers: failures are not kept (12 R289). -/
def tlbMiss (t : BitVec 6) (va : Nat) (s : State) : State × Except Xl TlbEntry :=
  let T := s.tenant t
  if apertureBase ≤ va then
    let e := ofBytes (pocRead s (s.fpa (T.aperture.toNat + 8 * bits va 41 25)) 8)
    if bits e 0 0 = 0 then (s, .error (.bad ⟨1, 1, va, false⟩))
    else
      let x : TlbEntry := ⟨t, va / 2 ^ 25 * 2 ^ 25, 2 ^ 25, 2 ^ 63 + bits e 13 2 * 2 ^ 51 + bits e 39 14 * 2 ^ 25, true, true, true, true,
        false, false, 0, false, true⟩
      (addTlb x s, .ok x)
  else
    match walk1 s T va 4 T.root1.toNat false with
    | .error two => (s, .error (.bad ⟨1, if two then 2 else 1, va, two⟩))
    | .ok l =>
      let twin := bits l.entry 58 58 = 1
      let grain := bits l.entry 60 59
      let ipa := l.out va false
      let out := stage2 s T.root2 ipa
      let window := match out with
        | some (fpa, _) => s.inWindow fpa
        | none => false
      if !window && (grain = 3 ∨ (twin ∧ grain ≠ 0)) then (s, .error (.bad ⟨10, 6, va, false⟩))
      else
        match out with
        | none => (s, .error (.bad ⟨1, 2, va, true⟩))
        | some (fpa, l2) =>
          let sh := min l.shift l2.shift
          let x : TlbEntry := ⟨t, va / 2 ^ sh * 2 ^ sh, 2 ^ sh, fpa / 2 ^ sh * 2 ^ sh, bits l.entry 3 3 = 1, bits l.entry 4 4 = 1,
            bits l2.entry 3 3 = 1, bits l2.entry 4 4 = 1, l.priv, twin && !window, if window then 0 else BitVec.ofNat 2 grain,
            !window && bits l.entry 62 62 = 1, false⟩
          if !window && bits l.entry 61 61 = 1 then
            let n := 2 ^ l.shift
            if (groupEntries l).any (fun a => homeBusy a s) || zeroPageWaits T.root2 (n / 4096) (ipa / n * n) n s then (s, .error .wait)
            else
              let s1 := zeroPage T.root2 (n / 4096) (ipa / n * n) n s
              let s2 := (groupEntries l).foldl (fun s a => clearPending a s) s1
              (addTlb x s2, .ok x)
          else (addTlb x s, .ok x)

/-- The package, or the switch, of an address is in the domain (01 R18). -/
def State.inDomain (s : State) (fpa : Nat) : Bool :=
  if isSwitch fpa then s.switches.any fun w => w.id = switchOf fpa && w.state != .absent
  else s.domain.contains (packageOf fpa)

/-- The checks behind a translation: privilege, reserved ranges, rights, the weight store, the domain (01 R18-R22, 18 R407). -/
def checkAccess (s : State) (priv fill : Bool) (read write : Bool) (va fpa : Nat) (e : TlbEntry) : Option Why :=
  let reg := regionOf (ppaOf fpa)
  if e.priv && !priv then some ⟨2, 3, va, false⟩
  else if !isSwitch fpa && bits fpa 62 59 != 0 then some ⟨1, 4, va, false⟩
  else if !isSwitch fpa && (reg = .reserved || (reg = .regs && !e.priv)) then some ⟨2, 3, va, false⟩
  else if read && !e.read then some ⟨2, 1, va, false⟩
  else if read && !e.read2 then some ⟨2, 1, va, true⟩
  else if write && !e.write then some ⟨2, 2, va, false⟩
  else if write && !e.write2 then some ⟨2, 2, va, true⟩
  else if write && s.isLocal fpa && reg = .weight && !fill then some ⟨2, 4, va, false⟩
  else if !s.inDomain fpa then some ⟨12, 0x13, fpa, false⟩
  else none

/-- An address translated and checked for an access of a tenant (01 R17; 06 R172). -/
def translateFor (t : BitVec 6) (priv fill read write : Bool) (va : Nat) (s : State) : State × Xl :=
  if 2 ^ 57 ≤ va then (s, .bad ⟨1, 3, va, false⟩)
  else
    let (s1, r) := match s.tlbHit t va with
      | some e => (s, Except.ok e)
      | none => tlbMiss t va s
    match r with
    | .error x => (s1, x)
    | .ok e =>
      let fpa := e.fpa + (va - e.base)
      match checkAccess s1 priv fill read write va fpa e with
      | some w => (s1, .bad w)
      | none => (s1, .ok fpa e)

/-- A node that may store to the weight store: a fill node (01 R22). -/
def State.fillNode (s : State) (id : Word) : Bool :=
  match s.node? id with
  | some n => n.desc.kind = 1
  | none => false

/-- For the gang whose turn it is. -/
def translate (read write : Bool) (va : Nat) (s : State) : State × Xl :=
  translateFor s.g.tenant s.privileged (s.fillNode s.g.node) read write va s

end Sys2Proof.Machine
end

