-- ==== Sys2Proof/Machine/Coherence.lean ====
section
/-! DEFINITION. One access to memory at its point of coherence, local or remote; release and acquire (01 R18-R24, R28; 12
R257-R278; 15 R326-R336, R341-R348). -/

namespace Sys2Proof.Machine

/-- Who makes an access: its core, its tenant, its gang, and whether its ensemble straddles two dies. -/
structure Agent where
  core : Nat
  tenant : BitVec 6
  gang : Nat
  straddle : Bool
  deriving DecidableEq, Repr, Inhabited

def Agent.die (a : Agent) : Nat := a.core / 40

/-- The gang's ensemble straddles two dies (01 R26). -/
def State.straddles (s : State) : Bool :=
  match s.crew? s.g.crew with
  | some c =>
    match s.ensemble? c.ensemble with
    | some e => e.straddle
    | none => false
  | none => false

/-- The gang whose turn it is, as an agent. -/
def State.agent (s : State) : Agent := ⟨s.g.coreIx, s.g.tenant, s.g.uid, s.straddles⟩

/-- Where an access at a scope meets others (12 R269). -/
inductive Point where
  | l1 | die | home | far
  deriving DecidableEq, Repr, Inhabited

def pointOf (straddle : Bool) : Scope → Point
  | .gang => .l1
  | .crew => .l1
  | .ens => if straddle then .home else .die
  | .die => .die
  | .dev => .home
  | .fab => .far
  | .sys => .far

/-- What an access answers: the bytes found, a failure, or that it waits. -/
inductive Done where
  | ok (bytes : List Byte) (s : State)
  | bad (w : Why) (s : State)
  | wait (s : State)

/-! ## HBM lines of this package -/

/-- The die's unpublished bytes of a line over the bytes of its home. -/
def overlay (d line : Nat) (home : List Byte) (s : State) : List Byte :=
  match (s.die d).line? line with
  | some l =>
    match l.twin with
    | some t => applyRuns (runsOf l.data t.data) 0 home
    | none => home
  | none => home

/-- n bytes of a twin-mode line (12 R269). A read at the home installs nothing (12 R274). -/
def readTwin (ag : Agent) (pt : Point) (fpa n : Nat) (s : State) : List Byte × State :=
  let line := lineOf fpa
  match pt with
  | .l1 =>
    match lookup (s.core ag.core).l1 (sectorOf fpa) with
    | some d => (slice d (fpa % 32) n, touchL1 ag.core line s)
    | none =>
      let (l, s1) := twinLine ag.die line s
      (slice l.data (fpa % 128) n, fillL1 ag.core line l.data s1)
  | .die =>
    let (l, s1) := twinLine ag.die line s
    (slice l.data (fpa % 128) n, s1)
  | _ =>
    let s1 := twinService line s
    (slice (overlay ag.die line (homeLineFor s1 ag.die line) s1) (fpa % 128) n, s1)

/-- The die's copy of a grain, with the grain's base. -/
def grainData (d base n : Nat) (s : State) : List Byte :=
  match (s.die d).grain base n with
  | some g => g.data
  | none => s.mem.read (32 * base) (32 * n)

/-- n bytes of an owned-mode grain (12 R258, R269). -/
def readOwned (ag : Agent) (pt : Point) (grain : BitVec 2) (fpa n : Nat) (s : State) : List Byte × State :=
  let k := grainSectors grain
  let base := grainBase grain fpa
  let s0 := ownedService base k s
  match pt with
  | .far =>
    let s1 := recallSectors base k true s0
    (s1.mem.read fpa n, s1)
  | .home =>
    let s1 := ownGrain ag.die base k (grainRoom ag.die base k s0)
    (slice (grainData ag.die base k s1) (fpa - 32 * base) n, s1)
  | .die =>
    let s1 := shareGrain ag.die base k (grainRoom ag.die base k s0)
    (slice (grainData ag.die base k s1) (fpa - 32 * base) n, s1)
  | .l1 =>
    match lookup (s0.core ag.core).l1 (sectorOf fpa) with
    | some d => (slice d (fpa % 32) n, touchL1 ag.core (lineOf fpa) s0)
    | none =>
      let s1 := shareGrain ag.die base k (grainRoom ag.die base k s0)
      let data := grainData ag.die base k s1
      (slice data (fpa - 32 * base) n, fillL1Sectors ag.core base data s1)

/-- R277 step 1: the changed bytes of a word of a twinned line leave for the home, and the twin takes them. -/
def sendChanged (d fpa n : Nat) (s : State) : State :=
  let line := lineOf fpa
  let o := fpa % 128
  match (s.die d).line? line with
    | some l =>
      match l.twin with
      | some t =>
        let snap := patch t.data o (slice l.data o n)
        sendRecord d line (runsOf snap t.data) t.version .atomic t.tenant []
          (s.setDie d fun D => D.setLine { l with twin := some { t with data := snap } })
      | none => s
    | none => s

/-- They reach the home ahead of what follows (12 R268). -/
def prePublish (d fpa n : Nat) (s : State) : State := flushRecords d (lineOf fpa) (sendChanged d fpa n s)

/-- R277 step 3: a twinned line, its twin and the L1 copies of the word take the new bytes; a clean copy is dropped from the die cache and
from every L1, and fills asked before are overtaken. -/
def patchDie (ag : Agent) (fpa : Nat) (bs : List Byte) (s : State) : State :=
  let line := lineOf fpa
  let o := fpa % 128
  match (s.die ag.die).line? line with
  | some l =>
    match l.twin with
    | some t =>
      patchL1s ag.die fpa bs (s.setDie ag.die fun D =>
        D.setLine { l with data := patch l.data o bs, twin := some { t with data := patch t.data o bs } })
    | none => dropCopy ag.die line (dropL1s ag.die (fun k => k / 4 = line) s)
  | none => overtakeFills ag.die line (dropL1s ag.die (fun k => k / 4 = line) s)

/-- An update of n bytes of a twin-mode line: the bytes found, and the state with f of them written (12 R261, R269, R277). -/
def updTwin (ag : Agent) (pt : Point) (fpa n : Nat) (f : List Byte → List Byte) (s : State) : List Byte × State :=
  match pt with
  | .l1 =>
    let (old, s1) := match lookup (s.core ag.core).l1 (sectorOf fpa) with
      | some d => (slice d (fpa % 32) n, s)
      | none =>
        let (l, s1) := twinLine ag.die (lineOf fpa) s
        (slice l.data (fpa % 128) n, s1)
    (old, patchL1 ag.core fpa (f old) (twinWrite ag.die ag.tenant fpa (f old) s1))
  | .die =>
    let (l, s1) := twinLine ag.die (lineOf fpa) s
    let old := slice l.data (fpa % 128) n
    (old, patchL1 ag.core fpa (f old) (twinWrite ag.die ag.tenant fpa (f old) s1))
  | _ =>
    let s1 := twinService (lineOf fpa) (prePublish ag.die fpa n s)
    let old := s1.mem.read fpa n
    (old, patchDie ag fpa (f old) (homeWrite fpa (f old) s1))

/-- An update of n bytes of an owned-mode grain: in the core's L1 and its die's cache, in the die cache that owns it, or at the home after
recall (12 R258, R269, R277). One that meets others beyond the core reaches every L1 of the die (13 R309). -/
def updOwned (ag : Agent) (pt : Point) (grain : BitVec 2) (fpa n : Nat) (f : List Byte → List Byte) (s : State) : List Byte × State :=
  let k := grainSectors grain
  let base := grainBase grain fpa
  let s0 := ownedService base k s
  match pt with
  | .far =>
    let s1 := recallSectors base k true s0
    let old := s1.mem.read fpa n
    (old, homeWrite fpa (f old) s1)
  | _ =>
    let s1 := ownGrain ag.die base k (grainRoom ag.die base k s0)
    let data := grainData ag.die base k s1
    let held := if pt = .l1 then lookup (s1.core ag.core).l1 (sectorOf fpa) else none
    let old := match held with
      | some x => slice x (fpa % 32) n
      | none => slice data (fpa - 32 * base) n
    let s2 := bump (lineOf fpa) (setGrain ag.die base (patch data (fpa - 32 * base) (f old)) s1)
    (old, if pt = .home then patchL1s ag.die fpa (f old) s2 else patchL1 ag.core fpa (f old) s2)

/-- A write at a home by an agent without a die: owned grains are recalled first (15 R331, 19 R415). -/
def homeStore (a : Nat) (bs : List Byte) (s : State) : State :=
  homeWrite a bs (recallSectors (sectorOf a) ((a % 32 + bs.length + 31) / 32) true s)

/-- The access waits: its line, or another line of its grain, is locked, or a transfer of a grain is delayed (12 R259, R268, R281). -/
def hbmWaits (e : TlbEntry) (fpa : Nat) (s : State) : Bool :=
  if e.twin then s.locked (lineOf fpa) || s.recallWaits (4 * lineOf fpa) 4
  else
    let n := grainSectors e.grain
    let base := grainBase e.grain fpa
    (grainLines base n).any s.locked || s.transferWaits base n || s.recallWaits base n

/-- Bytes at a home may not be read or written by an agent without a die for now (12 R259, R281). -/
def homeWaits (a n : Nat) (s : State) : Bool :=
  s.locked (lineOf a) || s.recallWaits (sectorOf a) ((a % 32 + n + 31) / 32)

/-! ## The weight store (01 R22, R23) -/

/-- The bank of an address is in its die's eclipse window. -/
def eclipsed (s : State) (ppa : Nat) : Bool :=
  let off := ppa - 0x100000000000
  let E := (s.eclipseNow (off / 2 ^ 29))
  E.isOpen s && E.bank.toNat = bits off 28 25

/-! ## Remote memory (15 R326-R336) -/

/-- The stream an address belongs to: a package id, or 8192 + a switch id (15 R327). -/
def destOf (fpa : Nat) : Nat := if isSwitch fpa then 8192 + switchOf fpa else packageOf fpa

def State.switch? (s : State) (id : Nat) : Option Switch := s.switches.find? fun w => w.id = id

def State.linkUp (s : State) (p : Nat) : Bool := if h : p < 18 then s.links[p].up else false

/-- The plane a packet for an address takes now (15 R326). -/
def planeOf (s : State) (fpa : Nat) : Option Nat :=
  if isSwitch fpa then
    match s.switch? (switchOf fpa) with
    | some w => if s.linkUp w.plane then some w.plane else none
    | none => none
  else
    let q := packageOf fpa
    ((List.range 18).map fun k => (bits fpa 23 7 + q + k) % 18).find? fun p => s.linkUp p && !s.downLinks.contains (q, p)

/-- The planes of a critical packet (15 R336): p and (p + 9) mod 18, those of the two that it can use; where it can use neither, the next two
planes, ascending. A switch stands on its own plane alone. -/
def criticalPlanes (s : State) (fpa : Nat) : List Nat :=
  if isSwitch fpa then (planeOf s fpa).toList
  else
    let q := packageOf fpa
    let p := (bits fpa 23 7 + q) % 18
    let can (l : List Nat) : List Nat := l.filter fun k => s.linkUp k && !s.downLinks.contains (q, k)
    let two := can [p, (p + 9) % 18]
    if two.isEmpty then (can ((List.range 18).map fun k => (p + k) % 18)).take 2 else two

/-- The planes that a packet goes on now. -/
def planesFor (s : State) (critical : Bool) (fpa : Nat) : List Nat :=
  if critical then criticalPlanes s fpa else (planeOf s fpa).toList

/-- A lost switch, or a stale generation: the lane parks and nothing is sent (15 R347, R348). -/
def switchGone (s : State) (fpa : Nat) : Option Why :=
  if isSwitch fpa then
    match s.switch? (switchOf fpa) with
    | some w => if w.state != .present then some ⟨13, 1, fpa, false⟩ else if w.generation != generationOf fpa then some ⟨13, 2, fpa, false⟩ else none
    | none => some ⟨13, 1, fpa, false⟩
  else none

/-- What the far side answers, if it fails (15 R342, R360). -/
def farFault (s : State) (write : Bool) (t : BitVec 6) (fpa : Nat) : Option Why :=
  if isSwitch fpa then
    if 12288 ≤ granuleOf fpa then some ⟨12, 8, fpa, false⟩
    else if s.swAllocs.any fun a => a.sw = switchOf fpa && a.generation = generationOf fpa && a.first ≤ granuleOf fpa &&
        granuleOf fpa < a.first + a.count && a.tenant = t then none
    else some ⟨12, 7, fpa, false⟩
  else
    match regionOf (ppaOf fpa) with
    | .hbm => none
    | .weight => if write then some ⟨12, 2, fpa, false⟩ else none
    | _ => some ⟨12, 2, fpa, false⟩

/-- The next number of a stream. -/
def State.seqOf (s : State) (dest : Nat) : Word := (lookup s.seqs dest).getD 0

/-- The number is taken. -/
def takeSeq (dest : Nat) (s : State) : State := { s with seqs := upsert s.seqs dest (s.seqOf dest + 1) }

/-- Branches of multicasts still on their way: delivered from the switches, or held in residue entries (15 R357). -/
def State.branches (s : State) : List Delivery := s.deliveries ++ s.residues.flatMap Residue.branches

/-- A multicast sent before number id on the stream is not delivered yet. -/
def multicastAhead (s : State) (src dest id : Nat) : Bool :=
  s.branches.any fun d => d.counted && d.sender = src && d.pkg = dest && d.id < id

/-- A packet that may wait at its sender for as long as the receiver takes, holding up no other of its stream: a drain to peer (10 R244). -/
def PacketKind.apart : PacketKind → Bool
  | .drain _ _ _ => true
  | _ => false

/-- A packet sent and put into the retry buffer (15 R327, R336, R338). `cmd` and `node` name the engine command, or the signal's
release, that posts it. -/
def sendPacket (fpa vc : Nat) (kind : PacketKind) (gangs : List Nat) (cmd : Nat) (node : Word) (t : BitVec 6) (critical : Bool)
    (s : State) : State :=
  let dest := destOf fpa
  let ways := planesFor s critical fpa
  let p : Packet :=
    { id := s.nextId, src := s.pkg.toNat, dest := dest, plane := ways.headD 0, second := ways.tail.head?, vc := vc, seq := s.seqOf dest
      kind := kind, gangs := gangs, cmd := cmd, node := node, tenant := t, critical := critical, sent := 1, applied := false
      lost := ways.isEmpty }
  takeSeq dest { s with nextId := s.nextId + 1, packets := s.packets ++ [p] }

/-- The die's read copy of a line goes (15 R329). -/
def dropPeer (d line : Nat) (s : State) : State := s.setDie d fun D => { D with peers := eraseKey D.peers line }

/-- A write-combining entry drains as one write packet (15 R330). -/
def drainEntry (c line : Nat) (s : State) : State :=
  match (s.core c).wc.find? fun e => e.line = line with
  | some e =>
    dropPeer (c / 40) line (sendPacket (128 * line) 0 (.write line e.bytes) e.gangs 0 0 e.tenant false
      (s.setCore c fun k => { k with wc := k.wc.filter fun x => x.line != line }))
  | none => s

/-- Every entry of a core that carries a gang's bit drains (15 R330). -/
def drainGang (c uid : Nat) (s : State) : State :=
  ((s.core c).wc.filter fun e => e.gangs.contains uid).foldl (fun s e => drainEntry c e.line s) s

def addOutstanding (uid : Nat) (s : State) : State := s.updGang uid fun g => { g with outstanding := g.outstanding + 1 }

/-- Bytes merged into an entry. -/
def mergeWc (bytes : List (Option Byte)) (o : Nat) (bs : List Byte) : List (Option Byte) :=
  bytes.take o ++ (bs.take (128 - o)).map some ++ bytes.drop (o + bs.length)

/-- A remote store enters the write-combining buffer (15 R330, R332). -/
def wcStore (ag : Agent) (fpa : Nat) (bs : List Byte) (s : State) : State :=
  let line := lineOf fpa
  let K := s.core ag.core
  let s0 := if (K.wc.find? fun e => e.line = line).isNone ∧ 64 ≤ K.wc.length then
      match K.wc with
      | e :: _ => drainEntry ag.core e.line s
      | [] => s
    else s
  let old := (s0.core ag.core).wc.find? fun e => e.line = line
  let e := old.getD ⟨line, List.replicate 128 none, [], s.clk, 0, ag.tenant⟩
  let e1 : WcEntry := { e with bytes := mergeWc e.bytes (fpa % 128) bs, gangs := if e.gangs.contains ag.gang then e.gangs else e.gangs ++ [ag.gang] }
  let s1 := s0.setCore ag.core fun k =>
    { k with wc := if old.isSome then mapIf (fun x => x.line = line) (fun _ => e1) k.wc else k.wc ++ [e1] }
  let s2 := dropPeer ag.die line (if e.gangs.contains ag.gang then s1 else addOutstanding ag.gang s1)
  if (e1.bytes.all Option.isSome) || (s.tenant ag.tenant).age = 0 then drainEntry ag.core line s2 else s2

/-- An entry of this package that drained for the line has no acknowledgement yet (15 R329). -/
def entryUnacked (s : State) (fpa : Nat) : Bool :=
  s.packets.any fun p => p.src = s.pkg.toNat && match p.kind with
    | .write line _ => line = lineOf fpa
    | _ => false

/-- A remote load waits: entries drained for its line are not acknowledged, or what was sent before it on the stream is not applied
(15 R327, R329). -/
def streamWaits (s : State) (fpa : Nat) : Bool :=
  entryUnacked s fpa || (s.packets.any fun p => p.src = s.pkg.toNat && p.dest = destOf fpa && !p.applied && !p.kind.apart) ||
    multicastAhead s s.pkg.toNat (destOf fpa) s.nextId

/-- What comes back in place of the answer to a load or returning atomic, as no state of this package shows: 16 transmissions without an
acknowledgement, a tenant that the peer does not admit, an uncorrectable error there (15 R339, R360). A free value says whether one does, and
which (log entry 95). -/
def farReport (s : State) (fpa : Nat) : Option Nat :=
  match Config.pick s.tick % 4 with
  | 1 => some 1
  | 2 => if isSwitch fpa then none else some 3
  | 3 => some 6
  | _ => none

/-- A remote load, or the read of a returning atomic, a critical request (15 R329, R336): request and answer are one exchange, with one
number of its stream. `fresh` takes no read copy: an atomic, an access at `.fab`, and so every access to switch memory (01 R24; 12 R269). -/
def remoteRead (ag : Agent) (fresh critical : Bool) (fpa n : Nat) (s : State) : Done :=
  let line := lineOf fpa
  match switchGone s fpa with
  | some w => .bad w s
  | none =>
    if ((s.core ag.core).wc.any fun e => e.line = line) then .wait (drainEntry ag.core line s)
    else
    match (if fresh then none else lookup (s.die ag.die).peers line) with
    | some d => .ok (slice d (fpa % 128) n) s
    | none =>
      if streamWaits s fpa then .wait s
      else if (planesFor s critical fpa).isEmpty then .bad ⟨12, 1, fpa, false⟩ s
      else
        let s0 := takeSeq (destOf fpa) { s with tick := s.tick + 1 }
        match (farFault s false ag.tenant fpa).or ((farReport s fpa).map fun c => ⟨12, c, fpa, false⟩) with
        | some w => .bad w s0
        | none =>
          let s1 := if isSwitch fpa then s0 else recallSectors (4 * line) 4 true s0
          let d := s1.mem.read (128 * line) 128
          .ok (slice d (fpa % 128) n) (if fresh then s1 else (makeRoom ag.die 128 s1).setDie ag.die fun D => { D with peers := upsert D.peers line d })

/-- What a write is: a plain store, a release store, an atomic without a result (its code and operand), a returning atomic. -/
inductive Upd where
  | store
  | rel
  | red (op operand : Nat)
  | atom
  deriving DecidableEq, Repr

/-- A remote write (15 R330-R332, R336). -/
def remoteWrite (ag : Agent) (u : Upd) (fpa n : Nat) (f : List Byte → List Byte) (s : State) : Done :=
  match switchGone s fpa with
  | some w => .bad w s
  | none =>
    match u with
    | .store => .ok [] (wcStore ag fpa (f (zeros n)) s)
    | .rel =>
      .ok [] (addOutstanding ag.gang (dropPeer ag.die (lineOf fpa)
        (sendPacket fpa 4 (.write (lineOf fpa) (mergeWc (List.replicate 128 none) (fpa % 128) (f (zeros n)))) [ag.gang] 0 0 ag.tenant true
          (drainEntry ag.core (lineOf fpa) s))))
    | .red op operand =>
      if ((s.core ag.core).wc.any fun e => e.line = lineOf fpa) then .wait (drainEntry ag.core (lineOf fpa) s)
      else if entryUnacked s fpa then .wait s
      else
        .ok [] (addOutstanding ag.gang (dropPeer ag.die (lineOf fpa)
          (sendPacket fpa 4 (.atomic fpa op n operand) [ag.gang] 0 0 ag.tenant true s)))
    | .atom =>
      match remoteRead ag true true fpa n s with
      | .ok old s1 =>
        match farFault s1 true ag.tenant fpa with
        | some w => .bad w s1
        | none => .ok old (dropPeer ag.die (lineOf fpa) (homeStore fpa (f old) s1))
      | r => r

/-! ## An access at a fabric physical address -/

/-- n bytes of one line read at a point (12 R269; 01 R19, R20, R23). -/
def readAt (ag : Agent) (pt : Point) (e : TlbEntry) (fpa n : Nat) (s : State) : Done :=
  if s.isLocal fpa then
    match regionOf (ppaOf fpa) with
    | .hbm =>
      if hbmWaits e fpa s then .wait s
      else
        let (b, s1) := if e.twin then readTwin ag pt fpa n s else readOwned ag pt e.grain fpa n s
        .ok b s1
    | .weight => if eclipsed s (ppaOf fpa) then .wait s else .ok (s.mem.read fpa n) s
    | .regs => .ok (readRegBytes s (ppaOf fpa - 0x3F0000000000) n) s
    | _ => .ok (s.mem.read fpa n) s
  else remoteRead ag (pt == .far || isSwitch fpa) false fpa n s

/-- n bytes of one line updated at a point; `va` is the address of a failure. -/
def updAt (ag : Agent) (pt : Point) (e : TlbEntry) (u : Upd) (va fpa n : Nat) (f : List Byte → List Byte) (s : State) : Done :=
  if s.isLocal fpa then
    match regionOf (ppaOf fpa) with
    | .hbm =>
      if hbmWaits e fpa s then .wait s
      else
        let (b, s1) := if e.twin then updTwin ag pt fpa n f s else updOwned ag pt e.grain fpa n f s
        .ok b s1
    | .weight =>
      match u with
      | .atom => .bad ⟨2, 4, va, false⟩ s
      | .red _ _ => .bad ⟨2, 4, va, false⟩ s
      | _ => .ok [] (homeWrite fpa (f (zeros n)) s)
    | .regs =>
      let old := readRegBytes s (ppaOf fpa - 0x3F0000000000) n
      .ok old (writeRegBytes (ppaOf fpa - 0x3F0000000000) (f old) s)
    | _ => .ok (s.mem.read fpa n) (homeWrite fpa (f (s.mem.read fpa n)) s)
  else remoteWrite ag u fpa n f s

/-- A read at a virtual address: translation, checks, the read. -/
def readVa (ag : Agent) (pt : Point) (va n : Nat) (s : State) : Done :=
  match translate true false va s with
  | (s1, .ok fpa e) => readAt ag pt e fpa n s1
  | (s1, .bad w) => .bad w s1
  | (s1, .wait) => .wait s1

/-- A read at a scope: one of switch memory acts at fabric scope (01 R24). -/
def readScoped (ag : Agent) (scope : Scope) (va n : Nat) (s : State) : Done :=
  match translate true false va s with
  | (s1, .ok fpa e) => readAt ag (if isSwitch fpa then .far else pointOf ag.straddle scope) e fpa n s1
  | (s1, .bad w) => .bad w s1
  | (s1, .wait) => .wait s1

/-- An update at a virtual address. An atomic reads and writes. -/
def updVa (ag : Agent) (pt : Point) (u : Upd) (va n : Nat) (f : List Byte → List Byte) (s : State) : Done :=
  let rd := match u with
    | .store => false
    | .rel => false
    | _ => true
  match translate rd true va s with
  | (s1, .ok fpa e) => updAt ag pt e u va fpa n f s1
  | (s1, .bad w) => .bad w s1
  | (s1, .wait) => .wait s1

/-! ## Release (12 R270) -/

/-- The scope reaches the die's lines: `.die` or wider, or `.ens` of a straddling ensemble. -/
def scopeWide (straddle : Bool) : Scope → Bool
  | .gang => false
  | .crew => false
  | .ens => straddle
  | _ => true

def scopeFabric : Scope → Bool
  | .fab => true
  | .sys => true
  | _ => false

/-- Every dirty line of a die published under a new release number (12 R265, R270). -/
def publishDie (d : Nat) (fwd : List Nat) (s : State) : State :=
  let s1 := s.setDie d fun D => { D with relNo := D.relNo + 1 }
  (s1.die d).dirty.foldl (fun s line => publish d line .release fwd s) s1

/-- A release of the gang whose turn it is begins: the die's dirty lines are published, the gang's posted stores drained. The records
that it waits for. -/
def releaseBegin (scope : Scope) (fwd : List Nat) (s : State) : List Nat × State :=
  let d := s.g.die.toNat
  let wide := scopeWide s.straddles scope
  let s1 := if wide then publishDie d fwd s else s
  let s2 := if scopeFabric scope then drainGang s.g.coreIx s.g.uid s1 else s1
  (if wide then (s2.records.filter fun r => r.die = d).map fun r => r.id else [], s2)

/-! ## Acquire (12 R272) -/

/-- A dirty line rebased onto its home line. -/
def rebaseLine (d : Nat) (l : LineCopy) (s : State) : LineCopy :=
  match l.twin with
  | some t =>
    let H := homeLineFor s d l.line
    { l with data := applyRuns (runsOf l.data t.data) 0 H, twin := some { t with data := H, version := s.version16 l.line }, version := s.version16 l.line }
  | none => l

/-- The die's clean twin-mode lines go but for kept ones, its dirty ones are rebased, its fill epoch advances. `keep` holds the tags
that every lane of an acquire load received. -/
def flashDie (d : Nat) (keep : List (Nat × Half)) (s : State) : State :=
  s.setDie d fun D =>
    { D with
      epoch := D.epoch + 1
      lines := (D.lines.filter fun l => l.twin.isSome || match l.tag with
        | some t => keep.contains t
        | none => false).map fun l => rebaseLine d l s }

/-- An acquire at a scope for a core; none while a dirty line is locked at its home. -/
def acquireAt (c : Nat) (straddle : Bool) (scope : Scope) (keep : List (Nat × Half)) (s : State) : Option State :=
  let d := c / 40
  let home := match scope with
    | .ens => straddle
    | .dev => true
    | .fab => true
    | .sys => true
    | _ => false
  if scope = .gang then some s
  else if home && ((s.die d).dirty.any fun l => s.locked l) then none
  else
    let s1 := dropL1 c (fun _ => true) s
    let s2 := if home then flashDie d keep s1 else s1
    some (if scopeFabric scope then s2.setDie d fun D => { D with peers := [] } else s2)

/-- A word that is an acquire. -/
def withAcquire (scope : Scope) (keep : List (Nat × Half)) (body : State → State) (s : State) : State :=
  match acquireAt s.g.coreIx s.straddles scope keep s with
  | some s1 => body s1
  | none => stall s

end Sys2Proof.Machine
end

