-- ==== Sys2Proof/Machine/Tensor.lean ====
section
/-! DEFINITION. Tensor records and the elements they locate: offsets, fill, scales, encodings, swizzle, conversion on the way
(02 R49-R66). -/

namespace Sys2Proof.Machine

/-! ## Accesses in sequence -/

/-- The next access of a sequence, from the bytes found. -/
def Done.next (x : Done) (f : List Byte → State → Done) : Done :=
  match x with
  | .ok b s => f b s
  | y => y

/-- An answer that carries a value. -/
inductive Got (α : Type) where
  | ok (a : α) (s : State)
  | bad (w : Why) (s : State)
  | wait (s : State)

def Got.next {α β : Type} (x : Got α) (f : α → State → Got β) : Got β :=
  match x with
  | .ok a s => f a s
  | .bad w s => .bad w s
  | .wait s => .wait s

def Done.got (x : Done) : Got (List Byte) :=
  match x with
  | .ok b s => .ok b s
  | .bad w s => .bad w s
  | .wait s => .wait s

/-- How bytes are read and written: at an address, in a state. -/
abbrev Reader := Nat → Nat → State → Done
abbrev Writer := Nat → List Byte → State → Done

/-- Bytes from an address, in runs that stay inside one 32-byte sector. -/
def readLong (rd : Reader) : Nat → Nat → Nat → State → Done
  | 0, _, _, s => .ok [] s
  | f + 1, va, n, s =>
    if n = 0 then .ok [] s
    else
      let m := min n (32 - va % 32)
      (rd va m s).next fun b s => (readLong rd f (va + m) (n - m) s).next fun r s => .ok (b ++ r) s

/-- Enough runs for n bytes. -/
def linesFor (n : Nat) : Nat := n / 32 + 2

/-! ## The record (02 R49) -/

structure Rec where
  base : Nat
  elem : Elem
  enc : Nat
  inter : Nat
  smode : Nat
  sblk : Nat
  sbase : Nat
  ext : List Nat
  stride : List Nat
  fill : Nat
  swz : Nat
  rights : Nat
  deriving DecidableEq, Repr

def Rec.extent (R : Rec) (k : Nat) : Nat := R.ext.getD k 1
def Rec.strideOf (R : Rec) (k : Nat) : Nat := R.stride.getD (k - 1) 0

/-- Bytes of a container; 1 for a packed one. -/
def Rec.cbytes (R : Rec) : Nat := if R.elem.cont = 0 then 1 else R.elem.bits / 8

/-- The fields of a record, where it is well formed (02 R58). -/
def recordFields (r : BitVec 320) : Option Rec :=
  let x := r.toNat
  match elemOf (bits x 80 57) with
  | none => none
  | some E =>
    let R : Rec :=
      { base := bits x 56 0, elem := E, enc := bits x 83 81, inter := bits x 85 84, smode := bits x 88 86, sblk := bits x 91 89
        sbase := bits x 148 92
        ext := (List.range 4).map fun k => bits x (149 + 20 * k + 19) (149 + 20 * k) + 1
        stride := (List.range 3).map fun k => bits x (229 + 24 * k + 23) (229 + 24 * k)
        fill := bits x 302 301, swz := bits x 305 303, rights := bits x 307 306 }
    if bits x 308 308 = 1 ∧ bits x 319 309 = 0 ∧ R.enc ≤ 2 ∧ R.inter ≤ 2 ∧ R.smode ≤ 3 ∧ R.swz ≤ 3 ∧ R.base % R.cbytes = 0 ∧
        (R.smode ≤ 1 ∨ R.sbase % 2 = 0) then some R
    else none

/-- The rights of R57: 1 read, 2 write, 3 both. -/
def Rec.allows (R : Rec) (need : Nat) : Bool := (need % 2 ≤ R.rights % 2) && (need / 2 ≤ R.rights / 2)

/-- A gang access or a copy command may use the record for a need (02 R54, R55, R57). -/
def Rec.usable (R : Rec) (need : Nat) : Bool :=
  R.allows need && R.enc ≤ 1 && (need = 1 || (R.enc = 0 && R.smode ≤ 1))

/-! ## Elements (02 R50-R52) -/

def coordAt (c : List Int) (k : Nat) : Int := c.getD k 0

/-- In bounds (02 R51). -/
def Rec.inBounds (R : Rec) (c : List Int) : Bool := (List.range 4).all fun k => 0 ≤ coordAt c k && coordAt c k < R.extent k

/-- The element offset of in-bounds coordinates. -/
def Rec.offset (R : Rec) (c : List Int) : Nat :=
  let q := 2 ^ R.inter
  let i (k : Nat) : Nat := (coordAt c k).toNat
  i 1 % q + q * i 0 + R.strideOf 1 * (i 1 / q) + R.strideOf 2 * i 2 + R.strideOf 3 * i 3

/-- The coordinates of a linear element index (02 R52). -/
def Rec.coords (R : Rec) (j : Nat) : List Int :=
  let a := R.extent 0
  let b := R.extent 1
  let c := R.extent 2
  [(j % a : Nat), (j / a % b : Nat), (j / (a * b) % c : Nat), (j / (a * b * c) : Nat)]

/-- The byte of the image where an element's container starts, and the bit in it. -/
def Rec.place (R : Rec) (c : List Int) : Nat × Nat :=
  if R.elem.cont = 0 then (R.offset c * R.elem.fmt.width / 8, R.offset c * R.elem.fmt.width % 8) else (R.offset c * R.cbytes, 0)

/-- The address of an element's container. -/
def Rec.addr (R : Rec) (c : List Int) : Nat := R.base + (R.place c).1

/-- A scratchpad address under the swizzle (02 R56). -/
def swizzle (k a : Nat) : Nat := if k = 0 then a else a ^^^ (bits a (9 + k - 1) (7 + k - 1) * 16)

/-! ## Values in memory are quiet (02 R37) -/

def quiet : XVal → XVal
  | .nan n _ => .nan n false
  | x => x

/-- The value of a fill code (02 R53). -/
def fillValue (code : Nat) : XVal := if code = 1 then .inf true else if code = 2 then .one else .zero

/-! ## Zero-run blocks (02 R59) -/

/-- The set bits of a mask below bit i. -/
def popBelow (mask i : Nat) : Nat := ((List.range i).filter fun k => bits mask k k = 1).length

/-- A 4-byte word of an encoding-1 tensor: an index entry, a mask or a word of a block. A base of any alignment is legal (02 R49), so it may lie
across two sectors. -/
def readWord4 (rd : Reader) : Nat → State → Done := fun va s => readLong rd (linesFor 4) va 4 s

/-- n bytes of the image of an encoding-1 tensor from offset o, within one 4-byte word. -/
def readBlock (rd : Reader) (base o n : Nat) (s : State) : Done :=
  (readWord4 rd (base + 4 * (o / 128)) s).next fun e s =>
    let ent := ofBytes e
    if ent % 4 != 0 then .bad ⟨2, 0x0A, base + 4 * (o / 128), false⟩ s
    else
      (readWord4 rd (base + ent) s).next fun m s =>
        let i := o % 128 / 4
        if bits (ofBytes m) i i = 1 then
          (readWord4 rd (base + ent + 4 + 4 * popBelow (ofBytes m) i) s).next fun w s => .ok (slice w (o % 4) n) s
        else .ok (zeros n) s

/-- A block as an instruction fetches it: its 32 words, none where a word cannot be read (02 R59, R64). -/
abbrev Image := List (Option (List Byte))

/-- The words of a block's record, from word i of the mask on. -/
def blockWords (rd : Reader) (first mask : Nat) : List Nat → State → Got Image
  | [], s => .ok [] s
  | i :: is, s =>
    if bits mask i i = 1 then
      match readWord4 rd (first + 4 * popBelow mask i) s with
      | .ok w s1 => (blockWords rd first mask is s1).next fun r s => .ok (some w :: r) s
      | .bad _ s1 => (blockWords rd first mask is s1).next fun r s => .ok (none :: r) s
      | .wait s1 => .wait s1
    else (blockWords rd first mask is s).next fun r s => .ok (some (zeros 4) :: r) s

/-- Block b of an encoding-1 tensor, whole. -/
def fetchBlock (rd : Reader) (base b : Nat) (s : State) : Got Image :=
  (readWord4 rd (base + 4 * b) s).got.next fun e s =>
    let ent := ofBytes e
    if ent % 4 != 0 then .bad ⟨2, 0x0A, base + 4 * b, false⟩ s
    else (readWord4 rd (base + ent) s).got.next fun m s => blockWords rd (base + ent + 4) (ofBytes m) (List.range 32) s

/-- The blocks that an instruction has fetched, each once (02 R64), and those it has to wait for. -/
structure Blocks where
  known : List (Nat × Image)
  waits : List Nat
  deriving DecidableEq, Repr, Inhabited

/-- Blocks fetched that are not known yet; one that cannot be read at all is left to the lanes that name it. -/
def fetchBlocks (rd : Reader) (base : Nat) : List Nat → Blocks → State → Blocks × State
  | [], k, s => (k, s)
  | b :: bs, k, s =>
    if (lookup k.known b).isSome then fetchBlocks rd base bs k s
    else
      match fetchBlock rd base b s with
      | .ok im s1 => fetchBlocks rd base bs { k with known := upsert k.known b im } s1
      | .bad _ s1 => fetchBlocks rd base bs k s1
      | .wait s1 => fetchBlocks rd base bs { k with waits := b :: k.waits } s1

/-- n bytes of a record's image. -/
def Rec.fetch (R : Rec) (rd : Reader) (o n : Nat) (s : State) : Done :=
  if R.enc = 1 then readBlock rd R.base o n s else rd (R.base + o) n s

/-- n bytes of a record's image out of the blocks an instruction has fetched. -/
def Rec.fetchFrom (R : Rec) (rd : Reader) (k : Blocks) (o n : Nat) (s : State) : Done :=
  if R.enc != 1 then R.fetch rd o n s
  else if k.waits.contains (o / 128) then .wait s
  else
    match (lookup k.known (o / 128)).bind fun im => im.getD (o % 128 / 4) none with
    | some w => .ok (slice w (o % 4) n) s
    | none => R.fetch rd o n s

/-! ## Scales (02 R54) -/

/-- The address of an element's scale. -/
def Rec.scaleAddr (R : Rec) (c : List Int) : Nat :=
  if R.smode = 3 then R.sbase
  else
    let n0 := (R.extent 0 + 2 ^ R.sblk - 1) / 2 ^ R.sblk
    let i (k : Nat) : Nat := (coordAt c k).toNat
    let b := i 0 / 2 ^ R.sblk + n0 * (i 1 + R.extent 1 * (i 2 + R.extent 2 * i 3))
    R.sbase + (if R.smode = 1 then b else 2 * b)

/-- An E8M0 scale (02 R40). -/
def e8m0 (x : Nat) : XVal := if x = 255 then .nan false false else pow2 ((x : Int) - 127)

/-- The scale of an element; none without a scale. -/
def Rec.scale (R : Rec) (rd : Reader) (c : List Int) (s : State) : Got (Option XVal) :=
  if R.smode = 0 then .ok none s
  else
    (rd (R.scaleAddr c) (if R.smode = 1 then 1 else 2) s).got.next fun b s =>
      .ok (some (if R.smode = 1 then e8m0 (ofBytes b) else quiet (bf16.value (ofBytes b)))) s

/-! ## Reading and writing an element (02 R62, R63) -/

/-- An element of n bits at a bit of its container's bytes. -/
def Rec.code (R : Rec) (b : List Byte) (bit : Nat) : Nat := ofBytes b / 2 ^ bit % 2 ^ R.elem.fmt.width

/-- An element times its scale, exact in X32 but for one rounding (02 R42). The NaN of a NaN element, or of any element under scale 0xFF
(02 R54), has sign + whatever the element's sign: no rule states it, DESIGN CHOICE (log entry 30). -/
def scaled (x : XVal) : Option XVal → XVal
  | none => x
  | some k => toX32 (xmul x k).1

/-- An in-bounds element's value, its container's bytes got by `fetch`; out of bounds, the fill (codes 0-2). -/
def Rec.readElemBy (R : Rec) (fetch rd : Reader) (c : List Int) (s : State) : Got XVal :=
  if !R.inBounds c then .ok (fillValue R.fill) s
  else
    let (o, bit) := R.place c
    (fetch o R.cbytes s).got.next fun b s =>
      (R.scale rd c s).next fun k s => .ok (scaled (quiet (R.elem.fmt.value (R.code b bit))) k) s

def Rec.readElem (R : Rec) (rd : Reader) (c : List Int) (s : State) : Got XVal := R.readElemBy (R.fetch rd) rd c s

/-- A code put at a bit of a byte. -/
def putBits (old : List Byte) (bit w code : Nat) : List Byte :=
  let x := ofBytes old
  toBytes old.length (x - x / 2 ^ bit % 2 ^ w * 2 ^ bit + code * 2 ^ bit)

/-- The container of an element written with a code; `rw` reads the byte that a packed element shares. -/
def Rec.writeCode (R : Rec) (rw : Reader) (wr : Writer) (c : List Int) (code : Nat) (s : State) : Done :=
  let (o, bit) := R.place c
  if R.elem.cont = 0 then (rw (R.base + o) 1 s).next fun b s => wr (R.base + o) (putBits b bit R.elem.fmt.width code) s
  else wr (R.base + o) (toBytes R.cbytes code) s

/-- A value brought under the scale in memory (02 R54): divided by it, or a NaN under 0xFF. -/
def underScale (v : XVal) : Option XVal → XVal
  | some (.fin _ _ k) =>
    match v with
    | .fin n m e => .fin n m (e - k)
    | x => x
  | some _ => .nan v.isNeg false
  | none => v

/-- A value written into an element: the flags of its one rounding (02 R44, R54, R63); out of bounds it is dropped. -/
def Rec.writeElem (R : Rec) (rd rw : Reader) (wr : Writer) (mode : RMode) (rnd : Half) (c : List Int) (v : XVal) (s : State) : Got Flags :=
  if !R.inBounds c then .ok 0 s
  else
    (R.scale rd c s).next fun k s =>
      let (code, fl) := R.elem.fmt.round mode rnd (underScale v k)
      (R.writeCode rw wr c code s).got.next fun _ s => .ok fl s

end Sys2Proof.Machine
end

