-- ==== Sys2Proof/Machine/Access.lean ====
section
/-! DEFINITION. Memory words in the operand log: capture, the lanes one by one, parking, completion, re-issue (05 R138-R154; 06
R172-R174, R187). -/

namespace Sys2Proof.Machine

/-! ## The pooled window (01 R25-R27, R31) -/

/-- The crew whose allocation a window address names for a crew's gang, with the offset inside it. -/
def windowAt (s : State) (c : Crew) (a : Nat) : Option (Crew × Nat) :=
  if 2 ^ 21 ≤ a then none
  else
    let o := a % 2 ^ 20
    let half := if bits a 20 20 = 1 then !c.far else c.far
    (s.crews.find? fun x => x.ensemble = c.ensemble && x.far == half && x.offset ≤ o && o < x.offset + x.size).map fun x => (x, o - x.offset)

/-- Where a byte of an allocation lies in `State.spad`. -/
def Crew.key (c : Crew) (o : Nat) : Nat := c.core * 2 ^ 20 + c.spad + o

/-- The tile of an offset is engine-owned. -/
def Crew.engineOwned (c : Crew) (o : Nat) : Bool := c.tiles.any fun t => t.1 = o / 4096

/-- The gang's own crew. -/
def State.myCrew (s : State) : Option Crew := s.crew? s.g.crew

/-- The crew and offset of a window address for a gang's access, after the owner check (01 R31, 06 R188). -/
def spadPlace (s : State) (a : Nat) : Except Why (Crew × Nat) :=
  match s.myCrew with
  | none => .error ⟨1, 5, a, false⟩
  | some c =>
    match windowAt s c a with
    | none => .error ⟨1, 5, a, false⟩
    | some (x, o) =>
      let lifted := x.uid = c.uid && (s.g.handler == some (causeOf 16 1) || s.g.handler == some (causeOf 16 2))
      if x.engineOwned o && !lifted then .error ⟨2, 5, a, false⟩ else .ok (x, o)

/-- The `State.spad` key of a window address for a gang's access. -/
def spadKey (s : State) (a : Nat) : Except Why Nat := (spadPlace s a).map fun p => p.1.key p.2

/-! ## Capture (06 R174) -/

def capture (op : MemOp) (lanes : Word) (base idx extra : Dword) (offs : Lanes Word) (data : List (Lanes Word)) (s : State) : Access :=
  ⟨op, s.g.place, lanes, base, idx, extra, 0, offs, data, if op.slot = 0 then 0 else slotIdent s.src op.slot⟩

/-- The address, or the element index, of a lane (05 R139). -/
def Access.addr (a : Access) (L : Fin 32) : Nat :=
  if a.op.uniform then (a.base + a.idx).toNat
  else (a.base + a.offs[L].setWidth 64).toNat

/-- The record of an access's slot. -/
def Access.record (a : Access) (s : State) : Option Rec := if a.op.slot = 0 then none else recordFields (recordOf s a.ident)

/-- The 128-byte line a lane names, in the window or by virtual address (06 R173). -/
def Access.line (a : Access) (s : State) (L : Fin 32) : Bool × Nat :=
  if a.op.window then (true, lineOf (a.addr L))
  else
    match a.record s with
    | some R => if R.inBounds (R.coords (a.addr L)) then (false, lineOf (R.addr (R.coords (a.addr L)))) else (false, lineOf (a.addr L))
    | none => (false, lineOf (a.addr L))

/-- The lanes an access touches memory in: lane 0 for a uniform word. -/
def Access.active (a : Access) : Word := if a.op.uniform then 1 else a.lanes

def laneList (m : Word) : List (Fin 32) := lanes32.filter fun L => lane m L

/-- The detail's kind of an access (06 R177). -/
def MemKind.code : MemKind → Nat
  | .load _ => 0
  | .ldtr _ => 0
  | .acqLoad => 0
  | .store => 1
  | .relStore => 1
  | .atomic _ _ => 2
  | _ => 5

/-- A lane's fault record. -/
def Access.fault (a : Access) (e : Nat) (L : Fin 32) (w : Why) : FaultRec :=
  faultRec w (if w.group = 10 then min a.op.kind.code 1 else a.op.kind.code) a.op.window e L.val a.ident.toNat

/-! ## Checks of the record (02 R53, R55, R57, R58; 05 R146) -/

/-- The right an access needs. -/
def MemKind.need : MemKind → Nat
  | .store => 2
  | .relStore => 2
  | _ => 1

/-- A failure of the record parks every lane that the access is performed for. -/
def Access.recordFault (a : Access) (lanes : Word) (s : State) : Option Nat :=
  if a.op.slot = 0 then none
  else
    match a.record s with
    | none => some 6
    | some R =>
      match a.op.kind with
      | .ldtr _ => if R.allows 1 && R.enc != 2 then none else some 7
      | k =>
        if !R.usable k.need then some 7
        else if a.op.window then (if R.enc != 0 || R.smode != 0 || R.elem.cont = 0 then some 7 else none)
        else if R.fill = 3 ∧ (laneList lanes).any (fun L => !R.inBounds (R.coords (a.addr L))) then some 8
        else none

/-- What a lane reports where the record fails with a code: its own misalignment or missing translation first, then the record's code, a
permission (06 R172). The address beside the code is the lane's own (log entry 16). -/
def Access.recordWhy (a : Access) (c : Nat) (L : Fin 32) (s : State) : Why :=
  let own : Why := ⟨2, c, a.addr L, false⟩
  match a.record s with
  | none => own
  | some R =>
    if a.op.window then
      let va := swizzle R.swz (a.addr L)
      let n := match a.op.kind with
        | .ldtr z => 4 * z
        | _ => R.cbytes
      if va % n != 0 then ⟨3, 1, va, false⟩
      else
        match spadKey s va with
        | .error w => if w.group = 1 then w else own
        | .ok _ => own
    else if R.inBounds (R.coords (a.addr L)) then
      match (translate false false (R.addr (R.coords (a.addr L))) s).2 with
      | .bad w => if w.group = 1 ∨ w.group = 10 then w else own
      | _ => own
    else own

/-! ## Atomics (05 R150-R154) -/

/-- The new value of an atomic of `w` bits, from the old value, the operand and, for `cas`, the value compared and the new one. -/
def atomicNew (op w old b cmp new : Nat) : Nat :=
  let m := 2 ^ w
  let sx (x : Nat) : Int := if 2 * x < m then (x : Int) else (x : Int) - (m : Int)
  match op with
  | 0 => (old + b) % m
  | 1 => old &&& b
  | 2 => old ||| b
  | 3 => old ^^^ b
  | 4 => if sx b < sx old then b else old
  | 5 => if sx old < sx b then b else old
  | 6 => min old b
  | 7 => max old b
  | 8 => b
  | 9 => if old = cmp then new else old
  | 10 => if b ≤ old then 0 else old + 1
  | 11 => if old = 0 ∨ b < old then b else old - 1
  | 12 => (fAdd (BitVec.ofNat 32 old) (BitVec.ofNat 32 b)).1.toNat
  | 13 => (fMinMax true false (BitVec.ofNat 32 old) (BitVec.ofNat 32 b)).1.toNat
  | 14 => (fMinMax false false (BitVec.ofNat 32 old) (BitVec.ofNat 32 b)).1.toNat
  | _ => old

/-- Register k of the operand run in a lane, and a value of the access's width from register k upward. -/
def Access.run (a : Access) (k : Nat) (L : Fin 32) : Nat :=
  match a.data[k]? with
  | some x => x[L].toNat
  | none => 0

def Access.operand (a : Access) (k : Nat) (L : Fin 32) : Nat :=
  if a.op.bytes = 8 then a.run (2 * k) L + a.run (2 * k + 1) L * 2 ^ 32 else a.run k L

/-- The bytes an atomic leaves, from the bytes it finds. -/
def Access.atomicBytes (a : Access) (op : Nat) (L : Fin 32) (old : List Byte) : List Byte :=
  toBytes a.op.bytes (atomicNew op (8 * a.op.bytes) (ofBytes old) (a.operand 0 L) (a.operand 0 L) (a.operand 1 L))

/-! ## One lane -/

inductive LaneRes where
  | done (s : State)
  | bad (why : Why) (s : State)
  | wait (s : State)

/-- A 32-bit result in one lane of a register. -/
def putLane (d : Nat) (L : Fin 32) (x : Nat) (s : State) : State :=
  s.setR fun r => r.setV d (merge (1#32 <<< L.val) (r.vreg d) (Lanes.all (BitVec.ofNat 32 x)))

/-- A value of the access's width into the access's result registers: a scalar register for a uniform word. -/
def Access.result (a : Access) (L : Fin 32) (x : Nat) (s : State) : State :=
  if a.op.uniform then
    s.setR fun r => r.setS a.op.reg (match a.op.kind with
      | .load true => (BitVec.ofNat 32 x).signExtend 64
      | _ => BitVec.ofNat 64 x)
  else if a.op.bytes = 8 then putLane (a.op.reg + 1) L (x / 2 ^ 32) (putLane a.op.reg L x s)
  else putLane a.op.reg L x s

/-- The value a store writes in a lane. -/
def Access.value (a : Access) (L : Fin 32) : Nat := if a.op.uniform then a.extra.toNat else a.operand 0 L

def Done.lane (x : Done) (f : List Byte → State → State) : LaneRes :=
  match x with
  | .ok b s => .done (f b s)
  | .bad w s => .bad w s
  | .wait s => .wait s

def Got.lane {α : Type} (x : Got α) (f : α → State → State) : LaneRes :=
  match x with
  | .ok a s => .done (f a s)
  | .bad w s => .bad w s
  | .wait s => .wait s

/-- A load's read: line data delivered by a fill serve the loads that waited for it (12 R273). -/
def gangRead (got : List (Nat × List Byte)) (ag : Agent) : Reader := fun va n s =>
  match translate true false va s with
  | (s1, .ok fpa e) =>
    match lookup got (lineOf fpa) with
    | some d =>
      if s1.isHbm fpa && e.twin && (lookup (s1.core ag.core).l1 (sectorOf fpa)).isNone && ((s1.die ag.die).line? (lineOf fpa)).isNone &&
          !s1.locked (lineOf fpa) then .ok (slice d (fpa % 128) n) s1
      else readAt ag .l1 e fpa n s1
    | none => readAt ag .l1 e fpa n s1
  | (s1, .bad w) => .bad w s1
  | (s1, .wait) => .wait s1

/-- A read of a byte about to be rewritten: the write right alone is checked. -/
def gangReadForWrite (ag : Agent) : Reader := fun va n s =>
  match translate false true va s with
  | (s1, .ok fpa e) => readAt ag .l1 e fpa n s1
  | (s1, .bad w) => .bad w s1
  | (s1, .wait) => .wait s1

def gangWrite (ag : Agent) : Writer := fun va bs s => updVa ag .l1 .store va bs.length (fun _ => bs) s

/-- The value of an element as FP32 bits, with the flags of the conversion stage (02 R46, R62). -/
def putElem (a : Access) (L : Fin 32) (v : XVal) (s : State) : State :=
  let (c, f) := fp32.round .rne 0 v
  a.result L c (s.flag f)

/-- A release store that reaches its line's point of coherence leaves its release tag there: the die and the number of its own release
(12 R271). -/
def setTag (a : Access) (relNo : Half) (va : Nat) (s : State) : State :=
  let home := match pointOf s.straddles a.op.scope with
    | .home => true
    | .far => true
    | _ => false
  match s.tlbHit s.g.tenant va with
  | some e =>
    let fpa := e.fpa + (va - e.base)
    if s.isHbm fpa && (home || !e.twin) then { s with tags := upsert s.tags (lineOf fpa) (s.g.die.toNat, relNo) } else s
  | none => s

/-- What the lanes of an access share: line data delivered by fills, compressed blocks fetched, the number of a release store's release. -/
structure LaneCtx where
  got : List (Nat × List Byte)
  blocks : Blocks
  relNo : Half
  deriving DecidableEq, Repr, Inhabited

/-- A lane of a global access: alignment, translation, permission, the access (05 R140, R143, R144, R153; 12 R274). -/
def globalLane (a : Access) (k : LaneCtx) (L : Fin 32) (s : State) : LaneRes :=
  let ag := s.agent
  let va := a.addr L
  let n := a.op.bytes
  match a.record s with
  | some R =>
    match a.op.kind with
    | .store =>
      (R.writeElem (gangRead [] ag) (gangReadForWrite ag) (gangWrite ag) .rne 0 (R.coords va) (f32 (BitVec.ofNat 32 (a.value L))) s).lane
        fun f s => s.flag f
    | _ => (R.readElemBy (R.fetchFrom (gangRead k.got ag) k.blocks) (gangRead k.got ag) (R.coords va) s).lane fun v s => putElem a L v s
  | none =>
    if va % n != 0 then .bad ⟨3, 1, va, false⟩ s
    else
      match a.op.kind with
      | .store => (updVa ag .l1 .store va n (fun _ => toBytes n (a.value L)) s).lane fun _ s => s
      | .relStore => (updVa ag (pointOf ag.straddle a.op.scope) .rel va n (fun _ => toBytes n (a.value L)) s).lane fun _ s => setTag a k.relNo va s
      | .acqLoad => (readScoped ag a.op.scope va n s).lane fun b s => a.result L (ofBytes b) s
      | .atomic op ret =>
        (updVa ag (pointOf ag.straddle a.op.scope) (if ret then .atom else .red op (a.operand 0 L)) va n (a.atomicBytes op L) s).lane
          fun b s => if ret then a.result L (ofBytes b) s else s
      | _ => (gangRead k.got ag va n s).lane fun b s => a.result L (ofBytes b) s

/-- A lane of a scratchpad access (05 R145, R146, R154). -/
def windowLane (a : Access) (L : Fin 32) (s : State) : LaneRes :=
  let R := a.record s
  let va := match R with
    | some R => swizzle R.swz (a.addr L)
    | none => a.addr L
  let n := match R with
    | some R => R.cbytes
    | none => a.op.bytes
  if va % n != 0 then .bad ⟨3, 1, va, false⟩ s
  else
    match spadKey s va with
    | .error w => .bad w s
    | .ok k =>
      match a.op.kind, R with
      | .store, some R =>
        let (c, f) := R.elem.fmt.round .rne 0 (f32 (BitVec.ofNat 32 (a.value L)))
        .done ({ s with spad := s.spad.write k (toBytes n c) }.flag f)
      | .store, none => .done { s with spad := s.spad.write k (toBytes n (a.value L)) }
      | .atomic op ret, _ =>
        let old := s.spad.read k n
        let s1 := { s with spad := s.spad.write k (a.atomicBytes op L old) }
        .done (if ret then a.result L (ofBytes old) s1 else s1)
      | _, some R => .done (putElem a L (quiet (R.elem.fmt.value (R.code (s.spad.read k n) 0))) s)
      | _, none => .done (a.result L (ofBytes (s.spad.read k n)) s)

def accessLane (a : Access) (k : LaneCtx) (L : Fin 32) (s : State) : LaneRes :=
  if a.op.window then windowLane a L s else globalLane a k L s

/-- What came of the lanes of an access: those still to be performed, those parked, and the compressed blocks fetched for it. -/
structure Progress where
  todo : Word
  parked : List Parked
  blocks : List (Nat × Image) := []
  deriving DecidableEq, Repr

/-- A lane of the mask names the line of lane L. -/
def Access.sharesLine (a : Access) (s : State) (m : Word) (L : Fin 32) : Bool := m != 0 && (laneList m).any fun M => a.line s M == a.line s L

/-- The lanes of a list in ascending order (05 R141, R154): a lane behind one that waits for its line waits too. -/
def runLanes (a : Access) (k : LaneCtx) (e : Nat) : List (Fin 32) → Progress → State → Progress × State
  | [], p, s => (p, s)
  | L :: Ls, p, s =>
    let later : Progress := { p with todo := p.todo ||| (1#32 <<< L.val) }
    if a.sharesLine s p.todo L then runLanes a k e Ls later s
    else
      match accessLane a k L s with
      | .done s1 => runLanes a k e Ls p s1
      | .bad w s1 => runLanes a k e Ls { p with parked := p.parked ++ [⟨L, a.fault e L w⟩] } s1
      | .wait s1 => runLanes a k e Ls later s1

/-! ## `ldtr` (05 R147) -/

/-- The rows of a transposed load: their bytes by lane, and the lanes that fail. -/
def trRows (a : Access) (z e : Nat) (s : State) : List (Fin 32 × List Byte) × List Parked :=
  (laneList a.lanes).foldl (fun (rows, bad) L =>
    let va := match a.record s with
      | some R => swizzle R.swz (a.addr L)
      | none => a.addr L
    if va % (4 * z) != 0 then (rows, bad ++ [⟨L, a.fault e L ⟨3, 1, va, false⟩⟩])
    else
      match spadKey s va with
      | .error w => (rows, bad ++ [⟨L, a.fault e L w⟩])
      | .ok k => (rows ++ [(L, s.spad.read k (4 * z))], bad)) ([], [])

/-- Element (row r, column c) of half h; an inactive row reads as zero. -/
def trElem (rows : List (Fin 32 × List Byte)) (z h r c : Nat) : Nat :=
  match rows.find? fun x => x.1.val = 16 * h + r with
  | some x => ofBytes (slice x.2 (c * z) z)
  | none => 0

/-- Register j of the destination group in a lane. -/
def trWord (rows : List (Fin 32 × List Byte)) (z j : Nat) (L : Fin 32) : Word :=
  let h := L.val / 16
  let k := L.val % 16
  let el (i : Nat) : Nat := trElem rows z h (4 * (k % 4) + i) (k / 4)
  match z with
  | 1 => BitVec.ofNat 32 (el 0 + el 1 * 2 ^ 8 + el 2 * 2 ^ 16 + el 3 * 2 ^ 24)
  | 2 => BitVec.ofNat 32 (el (2 * j) + el (2 * j + 1) * 2 ^ 16)
  | _ => BitVec.ofNat 32 (el j)

/-- A transposed load whole: any lane that parks leaves every destination lane unwritten. -/
def runTr (a : Access) (z e : Nat) (s : State) : Progress × State :=
  let (rows, bad) := trRows a z e s
  if bad.isEmpty then
    ({ todo := 0, parked := [] }, (List.range z).foldl (fun s j => s.setR fun r =>
      r.setV (a.op.reg + j) (merge a.lanes (r.vreg (a.op.reg + j)) (Lanes.of fun L => trWord rows z j L))) s)
  else ({ todo := 0, parked := bad }, s)

/-! ## Performing an access, in whole or in part -/

/-- The lanes that a fault of the record parks. -/
def Access.parkAll (a : Access) (c e : Nat) (lanes : Word) (s : State) : List Parked :=
  (laneList lanes).map fun L => ⟨L, a.fault e L (a.recordWhy c L s)⟩

/-- The compressed blocks that lanes of a load name. -/
def Access.blocksOf (a : Access) (lanes : Word) (s : State) : List Nat :=
  match a.record s, a.op.kind with
  | some R, .load _ =>
    if R.enc = 1 && !a.op.window then
      (((laneList lanes).filter fun L => R.inBounds (R.coords (a.addr L))).map fun L => (R.place (R.coords (a.addr L))).1 / 128).eraseDups
    else []
  | _, _ => []

/-- The base of an access's tensor. -/
def Access.tensorBase (a : Access) (s : State) : Nat := ((a.record s).map Rec.base).getD 0

/-- What the lanes of an access have written is in their die's lines: a write that found no twin free ends (12 R262). -/
def Access.land (a : Access) (s : State) : State := if a.op.window then s else landWrites s.g.die.toNat s

/-- The lanes of an access performed; a fault of its record parks them all. -/
def perform (x : LogEntry) (a : Access) (e : Nat) (lanes : Word) (parked : List Parked) (s : State) : Progress × State :=
  match a.recordFault lanes s with
  | some c => ({ todo := 0, parked := parked ++ a.parkAll c e lanes s }, s)
  | none =>
    match a.op.kind with
    | .ldtr z => runTr a z e s
    | _ =>
      let (k, s1) := fetchBlocks (gangRead x.got s.agent) (a.tensorBase s) (a.blocksOf lanes s) ⟨x.blocks, []⟩ s
      let (p, s2) := runLanes a ⟨x.got, k, x.relNo⟩ e (laneList lanes) { todo := 0, parked := parked, blocks := k.known } s1
      (p, a.land s2)

/-- An entry's state after its lanes ran: in flight, faulted with replay set, or free (06 R174). -/
def settle (e : Nat) (x : LogEntry) (p : Progress) (s : State) : State :=
  s.setG fun g => g.setEntry e
    (if p.todo != 0 then { x with state := .inFlight, todo := p.todo, parked := p.parked, blocks := p.blocks }
     else if p.parked.isEmpty then LogEntry.empty
     else { x with state := .faulted, replay := true, todo := 0, parked := p.parked, got := [], blocks := [] })

/-! ## What stands between the accesses of one gang (05 R142; 06 R173; 12 R270-R276) -/

/-- The word has register results: the words past its window wait for them (03 R82). -/
def MemKind.results : MemKind → Bool
  | .load _ => true
  | .ldtr _ => true
  | .acqLoad => true
  | .mcas => true
  | .atomic _ ret => ret
  | _ => false

/-- The word writes memory. -/
def MemKind.writes : MemKind → Bool
  | .store => true
  | .relStore => true
  | .atomic _ _ => true
  | .mcas => true
  | _ => false

/-- While it is in flight no later memory word of the gang issues (12 R272, R276). -/
def MemKind.holdsMemory : MemKind → Bool
  | .acqLoad => true
  | .mcas => true
  | .fence _ acq => acq
  | .range _ => true
  | .tlbinv => true
  | _ => false

/-- A fence whose release is not complete. -/
def MemKind.fences : MemKind → Bool
  | .fence rel _ => rel
  | _ => false

/-- An entry in flight whose word fits. -/
def LogEntry.flies (x : LogEntry) (p : MemKind → Bool) : Bool := x.state = .inFlight && ((x.acc.map fun a => p a.op.kind).getD false)

def Gang.flies (g : Gang) (p : MemKind → Bool) : Bool := g.log.toList.any fun x => x.flies p

/-- An access that may still park a lane: one in flight, save a fence that only releases and a command that stands at its engine. -/
def LogEntry.open_ (x : LogEntry) : Bool :=
  x.state = .inFlight && !(x.engine && x.recs.isSome) && !(x.flies fun k => match k with
    | .fence true false => true
    | _ => false)

/-- What a release, an arrival or a hand-off to an engine stands behind (06 R173, 12 R270). -/
def Gang.opens (g : Gang) : Bool := g.log.toList.any LogEntry.open_

/-- An access of the gang is in flight other than a release alone (12 R270: a release does not hold back later words). -/
def Gang.busyBeyondReleases (g : Gang) : Bool := g.log.toList.any fun x => x.open_ && !x.flies fun k => k == .relStore

/-- The physical address a virtual one of the gang has now, without any effect. -/
def State.peekFpa (s : State) (va : Nat) : Option Nat :=
  match s.tlbHit s.g.tenant va with
  | some e => some (e.fpa + (va - e.base))
  | none =>
    match (tlbMiss s.g.tenant va s).2 with
    | .ok e => some (e.fpa + (va - e.base))
    | .error _ => none

/-- The virtual addresses a lane of a global access touches: its element's container, index entry and record, and scale. -/
def Access.places (a : Access) (s : State) (L : Fin 32) : List Nat :=
  match a.record s with
  | none => [a.addr L]
  | some R =>
    let c := R.coords (a.addr L)
    if !R.inBounds c then []
    else
      (if R.smode = 0 then [] else [R.scaleAddr c]) ++
        if R.enc != 1 then [R.addr c]
        else
          let ix := R.base + 4 * ((R.place c).1 / 128)
          ix :: match readWord4 (gangRead [] s.agent) ix s with
            | .ok b _ => [ix + 3, R.base + ofBytes b, R.base + ofBytes b + 128, R.base + ofBytes b + 131]
            | _ => [ix + 3]

/-- The 128-byte lines a lane names: in the window (0), by virtual address (1), and by physical address where it has one (2). -/
def Access.keys (a : Access) (s : State) (L : Fin 32) : List (Nat × Nat) :=
  if a.op.window then [(0, lineOf (a.addr L))]
  else (a.places s L).flatMap fun va => (1, lineOf va) :: match s.peekFpa va with
    | some f => [(2, lineOf f)]
    | none => []

/-- Lanes of two accesses name a line in common. -/
def meetKeys (a : Access) (A : List (Fin 32)) (b : Access) (B : List (Fin 32)) (s : State) : Bool :=
  let ks := B.flatMap (b.keys s)
  A.any fun L => (a.keys s L).any ks.contains

/-- A free entry of the gang's present mode. -/
def Gang.freeEntry (g : Gang) : Option Nat := (List.range 4).find? fun e => (g.entry e).state = .free

/-- A lane of the access names a line that an access still in flight has yet to touch, or the object of an arrival behind its release. -/
def overlapsFlight (s : State) (a : Access) : Bool :=
  (s.g.log.toList.any fun x => x.state = .inFlight && !x.engine && match x.acc with
    | some b => meetKeys b (laneList x.todo) a (laneList a.active) s
    | none => false) ||
    s.g.arriving.any fun x => (laneList a.active).any fun L => a.line s L == (true, lineOf x.addr)

/-- Lanes of a line that no cache of the issuing core holds are asked of its home, for the access whose entry has this `seq` (12 R273). -/
def requestFills (a : Access) (seq : Nat) (s : State) : State :=
  let isLoad := match a.op.kind with
    | .load _ => !a.op.window && a.op.slot = 0
    | _ => false
  if !isLoad then s
  else
    (laneList a.active).foldl (fun s L =>
      match translate true false (a.addr L) s with
      | (s1, .ok fpa x) =>
        let line := lineOf fpa
        let d := s1.g.die.toNat
        if s1.isHbm fpa && x.twin && !hbmWaits x fpa s1 && (lookup (s1.core s1.g.coreIx).l1 (sectorOf fpa)).isNone &&
            ((s1.die d).line? line).isNone && (s1.fills.all fun f => !(f.line = line && f.waiters.contains (s1.g.uid, seq))) then
          let s2 := twinService line s1
          { s2 with
            nextId := s2.nextId + 1
            fills := s2.fills ++ [⟨s2.nextId, d, line, homeLineFor s2 d line, s2.version16 line, (s2.die d).epoch, [(s2.g.uid, seq)], true⟩] }
        else s1
      | (_, _) => s) s

/-- The lanes of an access left in flight. One without register results, whose join point waits for nothing, is checked now: the lanes that
fail are parked at once (03 R82; 06 R172, R173). -/
def Access.early (a : Access) (e : Nat) (s : State) : Progress :=
  if a.op.kind.results then { todo := a.active, parked := [] }
  else
    match a.recordFault a.active s with
    | some c => { todo := 0, parked := a.parkAll c e a.active s }
    | none =>
      (laneList a.active).foldl (fun p L =>
        match accessLane a default L s with
        | .bad w _ => { p with parked := p.parked ++ [⟨L, a.fault e L w⟩] }
        | _ => { p with todo := p.todo ||| (1#32 <<< L.val) }) { todo := 0, parked := [] }

/-- A new entry of the log for an access, in flight. -/
def Access.newEntry (a : Access) (s : State) : LogEntry :=
  { LogEntry.empty with state := .inFlight, acc := some a, seq := s.nextId, holds := a.op.kind.results }

/-- A memory word takes an entry and runs: its lanes are performed in this step, or left in flight where the turn says so
(log entry 4), or where it writes behind a fence's release that is not complete (log entry 31). -/
def memStart (sh : Shape) (a : Access) (e : Nat) (s : State) : State :=
  let x := a.newEntry s
  let s0 := { s with nextId := s.nextId + 1 }
  let s1 := if s0.inFlight || (a.op.kind.writes && s0.g.flies MemKind.fences) then settle e x (a.early e s0) (requestFills a x.seq s0)
    else
      let (p, s1) := perform x a e a.active [] s0
      settle e x p s1
  openWindow sh (if (s1.g.entry e).state = .free then none else some e) s1

/-- A lane of the access names a line that a parked lane of an earlier access names (06 R173, case 3). -/
def overlapsParked (s : State) (a : Access) : Bool :=
  s.g.log.toList.any fun x => !x.engine && match x.acc with
    | some b => meetKeys b (x.parked.map Parked.lane) a (laneList a.active) s
    | none => false

/-- The join point of every access with parked lanes is reached: the gang traps in front of the word (06 R173, cases 3 and 4). -/
def joinFaulted (s : State) : State :=
  s.setG fun g => g.setLog (g.log.map fun x => if x.parked.isEmpty then x else { x with join := true })

/-- A memory word (05 R138; 03 R84): with no active lane it has no effect; without a free entry, behind an access in flight to one of its
lines, or behind a word that holds back memory words (12 R272, R276), it waits; a join point of R173 stands in front of it. -/
def memWord (sh : Shape) (mk : State → Access) (s : State) : State :=
  issue sh (fun s =>
    let a := mk s
    if a.active = 0 then openWindow sh none s
    else
      match s.g.freeEntry with
      | none => stall (joinFaulted s)
      | some e =>
        if overlapsParked s a then stall (joinFaulted s)
        else if s.g.flies MemKind.holdsMemory || overlapsFlight s a then stall s
        else memStart sh a e s) s

end Sys2Proof.Machine
end

