-- ==== Sys2Proof/Machine/LoadStore.lean ====
section
/-! DEFINITION. Meanings: uniform, vector and scratchpad loads and stores, majors 0x05 and 0x15-0x17 (05 R138-R147). -/

namespace Sys2Proof.Machine

/-- A word of one 128-byte line at a time: its kind, its bytes, its slot, its register. -/
def mop (k : MemKind) (bytes slot reg : Nat) : MemOp := ⟨k, false, false, bytes, slot, .gang, reg⟩
def mopUniform (k : MemKind) (bytes slot reg : Nat) : MemOp := ⟨k, false, true, bytes, slot, .gang, reg⟩
def mopWindow (k : MemKind) (bytes slot reg : Nat) : MemOp := ⟨k, true, false, bytes, slot, .gang, reg⟩

/-- The operands of a uniform word: base, index and, for a store, the value (05 R139, R144). -/
def capUniform (op : MemOp) (a b v : Nat) (s : State) : Access :=
  capture op s.emask (s.src.sreg a) (s.src.sreg b) (s.src.sreg v) (Lanes.all 0) [] s

/-- The operands of a vector word: lane offsets or window addresses, a scalar base, source registers (05 R139). -/
def capVector (op : MemOp) (a b : Nat) (srcs : List Nat) (s : State) : Access :=
  capture op s.emask (s.src.sreg b) 0 0 (s.src.vreg a) (srcs.map s.src.vreg) s

/-- `sld_b64` (05 R144). -/
def execSldB64 (d : BitVec 5) (a : BitVec 5) (b : BitVec 5) (l : BitVec 4) (s : State) : Out :=
  .next (memWord ({ major := 5, sr := [a.toNat, b.toNat], sw := [d.toNat], la := l.toNat }) (capUniform (mopUniform (.load false) 8 0 d.toNat) a.toNat b.toNat 0) s)

/-- `sld_n32` (05 R144). -/
def execSldN32 (d : BitVec 5) (a : BitVec 5) (b : BitVec 5) (l : BitVec 4) (s : State) : Out :=
  .next (memWord ({ major := 5, sr := [a.toNat, b.toNat], sw := [d.toNat], la := l.toNat }) (capUniform (mopUniform (.load false) 4 0 d.toNat) a.toNat b.toNat 0) s)

/-- `sld_i32` (05 R144). -/
def execSldI32 (d : BitVec 5) (a : BitVec 5) (b : BitVec 5) (l : BitVec 4) (s : State) : Out :=
  .next (memWord ({ major := 5, sr := [a.toNat, b.toNat], sw := [d.toNat], la := l.toNat }) (capUniform (mopUniform (.load true) 4 0 d.toNat) a.toNat b.toNat 0) s)

/-- `sld_nf` (05 R144). -/
def execSldNf (d : BitVec 5) (a : BitVec 5) (b : BitVec 5) (t : BitVec 3) (l : BitVec 4) (s : State) : Out :=
  .next (memWord ({ major := 5, sr := [a.toNat, b.toNat], sw := [d.toNat], la := l.toNat, bad := codeIf (t.toNat = 0) 0x04 }) (capUniform (mopUniform (.load false) 4 t.toNat d.toNat) a.toNat b.toNat 0) s)

/-- `sst_b64` (05 R144). -/
def execSstB64 (v : BitVec 5) (a : BitVec 5) (b : BitVec 5) (l : BitVec 4) (s : State) : Out :=
  .next (memWord ({ major := 5, sr := [a.toNat, b.toNat, v.toNat], la := l.toNat }) (capUniform (mopUniform .store 8 0 0) a.toNat b.toNat v.toNat) s)

/-- `sst_b32` (05 R144). -/
def execSstB32 (v : BitVec 5) (a : BitVec 5) (b : BitVec 5) (l : BitVec 4) (s : State) : Out :=
  .next (memWord ({ major := 5, sr := [a.toNat, b.toNat, v.toNat], la := l.toNat }) (capUniform (mopUniform .store 4 0 0) a.toNat b.toNat v.toNat) s)

/-- `sst_nf` (05 R144). -/
def execSstNf (v : BitVec 5) (a : BitVec 5) (b : BitVec 5) (t : BitVec 3) (l : BitVec 4) (s : State) : Out :=
  .next (memWord ({ major := 5, sr := [a.toNat, b.toNat, v.toNat], la := l.toNat, bad := codeIf (t.toNat = 0) 0x04 }) (capUniform (mopUniform .store 4 t.toNat 0) a.toNat b.toNat v.toNat) s)

/-- `ld_b32` (05 R143). -/
def execLdB32 (d : BitVec 7) (a : BitVec 7) (b : BitVec 4) (l : BitVec 4) (s : State) : Out :=
  .next (memWord ({ major := 0x15, srcA := [a.toNat], sr := [b.toNat], dst := [d.toNat], la := l.toNat }) (capVector (mop (.load false) 4 0 d.toNat) a.toNat b.toNat []) s)

/-- `ld_nf` (05 R143). -/
def execLdNf (d : BitVec 7) (a : BitVec 7) (b : BitVec 4) (t : BitVec 3) (l : BitVec 4) (s : State) : Out :=
  .next (memWord ({ major := 0x15, srcA := [a.toNat], sr := [b.toNat], dst := [d.toNat], la := l.toNat }) (capVector (mop (.load false) 4 t.toNat d.toNat) a.toNat b.toNat []) s)

/-- `st_b32` (05 R143). -/
def execStB32 (v : BitVec 7) (a : BitVec 7) (b : BitVec 4) (l : BitVec 4) (s : State) : Out :=
  .next (memWord ({ major := 0x16, srcA := [a.toNat], srcD := [v.toNat], sr := [b.toNat], la := l.toNat }) (capVector (mop .store 4 0 0) a.toNat b.toNat [v.toNat]) s)

/-- `st_nf` (05 R143). -/
def execStNf (v : BitVec 7) (a : BitVec 7) (b : BitVec 4) (t : BitVec 3) (l : BitVec 4) (s : State) : Out :=
  .next (memWord ({ major := 0x16, srcA := [a.toNat], srcD := [v.toNat], sr := [b.toNat], la := l.toNat }) (capVector (mop .store 4 t.toNat 0) a.toNat b.toNat [v.toNat]) s)

/-- `pld_b32` (05 R145, R146). -/
def execPldB32 (d : BitVec 7) (a : BitVec 7) (l : BitVec 4) (s : State) : Out :=
  .next (memWord ({ major := 0x17, srcA := [a.toNat], dst := [d.toNat], la := l.toNat }) (capVector (mopWindow (.load false) 4 0 d.toNat) a.toNat 0 []) s)

/-- `pld_nf` (05 R145, R146). -/
def execPldNf (d : BitVec 7) (a : BitVec 7) (t : BitVec 3) (l : BitVec 4) (s : State) : Out :=
  .next (memWord ({ major := 0x17, srcA := [a.toNat], dst := [d.toNat], la := l.toNat }) (capVector (mopWindow (.load false) 4 t.toNat d.toNat) a.toNat 0 []) s)

/-- `pld_b64` (05 R145, R146). -/
def execPldB64 (d : BitVec 7) (a : BitVec 7) (l : BitVec 4) (s : State) : Out :=
  .next (memWord ({ major := 0x17, srcA := [a.toNat], dst := run d.toNat 2, la := l.toNat, bad := runBad d.toNat 2 }) (capVector (mopWindow (.load false) 8 0 d.toNat) a.toNat 0 []) s)

/-- `ldtr_b8` (05 R145, R147). -/
def execLdtrB8 (d : BitVec 7) (a : BitVec 7) (t : BitVec 3) (l : BitVec 4) (s : State) : Out :=
  .next (memWord ({ major := 0x17, srcA := [a.toNat], dst := [d.toNat], la := l.toNat }) (capVector (mopWindow (.ldtr 1) 4 t.toNat d.toNat) a.toNat 0 []) s)

/-- `ldtr_b16` (05 R145, R147). -/
def execLdtrB16 (d : BitVec 7) (a : BitVec 7) (t : BitVec 3) (l : BitVec 4) (s : State) : Out :=
  .next (memWord ({ major := 0x17, srcA := [a.toNat], dst := run d.toNat 2, la := l.toNat, bad := runBad d.toNat 2 }) (capVector (mopWindow (.ldtr 2) 4 t.toNat d.toNat) a.toNat 0 []) s)

/-- `ldtr_b32` (05 R145, R147). -/
def execLdtrB32 (d : BitVec 7) (a : BitVec 7) (t : BitVec 3) (l : BitVec 4) (s : State) : Out :=
  .next (memWord ({ major := 0x17, srcA := [a.toNat], dst := run d.toNat 4, la := l.toNat, bad := runBad d.toNat 4 }) (capVector (mopWindow (.ldtr 4) 4 t.toNat d.toNat) a.toNat 0 []) s)

/-- `pst_b32` (05 R145, R146). -/
def execPstB32 (v : BitVec 7) (a : BitVec 7) (l : BitVec 4) (s : State) : Out :=
  .next (memWord ({ major := 0x17, srcA := [a.toNat], srcD := [v.toNat], la := l.toNat }) (capVector (mopWindow .store 4 0 0) a.toNat 0 ([v.toNat])) s)

/-- `pst_nf` (05 R145, R146). -/
def execPstNf (v : BitVec 7) (a : BitVec 7) (t : BitVec 3) (l : BitVec 4) (s : State) : Out :=
  .next (memWord ({ major := 0x17, srcA := [a.toNat], srcD := [v.toNat], la := l.toNat }) (capVector (mopWindow .store 4 t.toNat 0) a.toNat 0 ([v.toNat])) s)

/-- `pst_b64` (05 R145, R146). -/
def execPstB64 (v : BitVec 7) (a : BitVec 7) (l : BitVec 4) (s : State) : Out :=
  .next (memWord ({ major := 0x17, srcA := [a.toNat], srcD := run v.toNat 2, la := l.toNat, bad := runBad v.toNat 2 }) (capVector (mopWindow .store 8 0 0) a.toNat 0 (run v.toNat 2)) s)

end Sys2Proof.Machine
end

