-- ==== Sys2Proof/Machine/Atomic.lean ====
section
/-! DEFINITION. Meanings: global and scratchpad atomics, majors 0x18 and 0x19 (05 R150-R154). -/

namespace Sys2Proof.Machine

/-- The scope of a code (03 R72). -/
def scopeOf (c : Nat) : Scope :=
  match c with
  | 0 => .gang
  | 1 => .crew
  | 2 => .ens
  | 3 => .die
  | 4 => .dev
  | 5 => .fab
  | _ => .sys

/-- The registers of an operand run (05 R150). -/
def atomRun (cas : Bool) (w : Nat) : Nat := (if cas then 2 else 1) * (if w = 0 then 1 else 2)

/-- What the fields of an atomic say: the run from va + 1, read, and written where it returns the old value (05 R150, R152). -/
def shAtomic (major : Nat) (ret cas : Bool) (w a b scope la : Nat) : Shape :=
  { major := major
    bad := lowest [codeIf (1 < w) 0x03, codeIf (scope = 7) 0x06, runBad (a + 1) (atomRun cas w)]
    srcA := a :: run (a + 1) (atomRun cas w), sr := [b]
    dst := if ret then run (a + 1) (atomRun cas w) else []
    la := la }

/-- The operands of an atomic: lane offsets, base, the run. (05 R139) -/
def capAtomic (window : Bool) (op : Nat) (ret : Bool) (w scope a b : Nat) (s : State) : Access :=
  capture ⟨.atomic op ret, window, false, if w = 0 then 4 else 8, 0, scopeOf scope, a + 1⟩ s.emask (s.src.sreg b) 0 0 (s.src.vreg a)
    ((run (a + 1) 4).map s.src.vreg) s

/-- `atom_add` (05 R150-R154). -/
def execAtomAdd (a : BitVec 7) (sc : BitVec 3) (b : BitVec 4) (w : BitVec 2) (l : BitVec 4) (s : State) : Out :=
  .next (memWord (shAtomic 0x18 true false w.toNat a.toNat b.toNat sc.toNat l.toNat) (capAtomic false 0 true w.toNat sc.toNat a.toNat b.toNat) s)

/-- `red_add` (05 R150-R154). -/
def execRedAdd (a : BitVec 7) (sc : BitVec 3) (b : BitVec 4) (w : BitVec 2) (l : BitVec 4) (s : State) : Out :=
  .next (memWord (shAtomic 0x18 false false w.toNat a.toNat b.toNat sc.toNat l.toNat) (capAtomic false 0 false w.toNat sc.toNat a.toNat b.toNat) s)

/-- `atom_and` (05 R150-R154). -/
def execAtomAnd (a : BitVec 7) (sc : BitVec 3) (b : BitVec 4) (w : BitVec 2) (l : BitVec 4) (s : State) : Out :=
  .next (memWord (shAtomic 0x18 true false w.toNat a.toNat b.toNat sc.toNat l.toNat) (capAtomic false 1 true w.toNat sc.toNat a.toNat b.toNat) s)

/-- `red_and` (05 R150-R154). -/
def execRedAnd (a : BitVec 7) (sc : BitVec 3) (b : BitVec 4) (w : BitVec 2) (l : BitVec 4) (s : State) : Out :=
  .next (memWord (shAtomic 0x18 false false w.toNat a.toNat b.toNat sc.toNat l.toNat) (capAtomic false 1 false w.toNat sc.toNat a.toNat b.toNat) s)

/-- `atom_or` (05 R150-R154). -/
def execAtomOr (a : BitVec 7) (sc : BitVec 3) (b : BitVec 4) (w : BitVec 2) (l : BitVec 4) (s : State) : Out :=
  .next (memWord (shAtomic 0x18 true false w.toNat a.toNat b.toNat sc.toNat l.toNat) (capAtomic false 2 true w.toNat sc.toNat a.toNat b.toNat) s)

/-- `red_or` (05 R150-R154). -/
def execRedOr (a : BitVec 7) (sc : BitVec 3) (b : BitVec 4) (w : BitVec 2) (l : BitVec 4) (s : State) : Out :=
  .next (memWord (shAtomic 0x18 false false w.toNat a.toNat b.toNat sc.toNat l.toNat) (capAtomic false 2 false w.toNat sc.toNat a.toNat b.toNat) s)

/-- `atom_xor` (05 R150-R154). -/
def execAtomXor (a : BitVec 7) (sc : BitVec 3) (b : BitVec 4) (w : BitVec 2) (l : BitVec 4) (s : State) : Out :=
  .next (memWord (shAtomic 0x18 true false w.toNat a.toNat b.toNat sc.toNat l.toNat) (capAtomic false 3 true w.toNat sc.toNat a.toNat b.toNat) s)

/-- `red_xor` (05 R150-R154). -/
def execRedXor (a : BitVec 7) (sc : BitVec 3) (b : BitVec 4) (w : BitVec 2) (l : BitVec 4) (s : State) : Out :=
  .next (memWord (shAtomic 0x18 false false w.toNat a.toNat b.toNat sc.toNat l.toNat) (capAtomic false 3 false w.toNat sc.toNat a.toNat b.toNat) s)

/-- `atom_min_i` (05 R150-R154). -/
def execAtomMinI (a : BitVec 7) (sc : BitVec 3) (b : BitVec 4) (w : BitVec 2) (l : BitVec 4) (s : State) : Out :=
  .next (memWord (shAtomic 0x18 true false w.toNat a.toNat b.toNat sc.toNat l.toNat) (capAtomic false 4 true w.toNat sc.toNat a.toNat b.toNat) s)

/-- `red_min_i` (05 R150-R154). -/
def execRedMinI (a : BitVec 7) (sc : BitVec 3) (b : BitVec 4) (w : BitVec 2) (l : BitVec 4) (s : State) : Out :=
  .next (memWord (shAtomic 0x18 false false w.toNat a.toNat b.toNat sc.toNat l.toNat) (capAtomic false 4 false w.toNat sc.toNat a.toNat b.toNat) s)

/-- `atom_max_i` (05 R150-R154). -/
def execAtomMaxI (a : BitVec 7) (sc : BitVec 3) (b : BitVec 4) (w : BitVec 2) (l : BitVec 4) (s : State) : Out :=
  .next (memWord (shAtomic 0x18 true false w.toNat a.toNat b.toNat sc.toNat l.toNat) (capAtomic false 5 true w.toNat sc.toNat a.toNat b.toNat) s)

/-- `red_max_i` (05 R150-R154). -/
def execRedMaxI (a : BitVec 7) (sc : BitVec 3) (b : BitVec 4) (w : BitVec 2) (l : BitVec 4) (s : State) : Out :=
  .next (memWord (shAtomic 0x18 false false w.toNat a.toNat b.toNat sc.toNat l.toNat) (capAtomic false 5 false w.toNat sc.toNat a.toNat b.toNat) s)

/-- `atom_min_n` (05 R150-R154). -/
def execAtomMinN (a : BitVec 7) (sc : BitVec 3) (b : BitVec 4) (w : BitVec 2) (l : BitVec 4) (s : State) : Out :=
  .next (memWord (shAtomic 0x18 true false w.toNat a.toNat b.toNat sc.toNat l.toNat) (capAtomic false 6 true w.toNat sc.toNat a.toNat b.toNat) s)

/-- `red_min_n` (05 R150-R154). -/
def execRedMinN (a : BitVec 7) (sc : BitVec 3) (b : BitVec 4) (w : BitVec 2) (l : BitVec 4) (s : State) : Out :=
  .next (memWord (shAtomic 0x18 false false w.toNat a.toNat b.toNat sc.toNat l.toNat) (capAtomic false 6 false w.toNat sc.toNat a.toNat b.toNat) s)

/-- `atom_max_n` (05 R150-R154). -/
def execAtomMaxN (a : BitVec 7) (sc : BitVec 3) (b : BitVec 4) (w : BitVec 2) (l : BitVec 4) (s : State) : Out :=
  .next (memWord (shAtomic 0x18 true false w.toNat a.toNat b.toNat sc.toNat l.toNat) (capAtomic false 7 true w.toNat sc.toNat a.toNat b.toNat) s)

/-- `red_max_n` (05 R150-R154). -/
def execRedMaxN (a : BitVec 7) (sc : BitVec 3) (b : BitVec 4) (w : BitVec 2) (l : BitVec 4) (s : State) : Out :=
  .next (memWord (shAtomic 0x18 false false w.toNat a.toNat b.toNat sc.toNat l.toNat) (capAtomic false 7 false w.toNat sc.toNat a.toNat b.toNat) s)

/-- `atom_exch` (05 R150-R154). -/
def execAtomExch (a : BitVec 7) (sc : BitVec 3) (b : BitVec 4) (w : BitVec 2) (l : BitVec 4) (s : State) : Out :=
  .next (memWord (shAtomic 0x18 true false w.toNat a.toNat b.toNat sc.toNat l.toNat) (capAtomic false 8 true w.toNat sc.toNat a.toNat b.toNat) s)

/-- `red_exch` (05 R150-R154). -/
def execRedExch (a : BitVec 7) (sc : BitVec 3) (b : BitVec 4) (w : BitVec 2) (l : BitVec 4) (s : State) : Out :=
  .next (memWord (shAtomic 0x18 false false w.toNat a.toNat b.toNat sc.toNat l.toNat) (capAtomic false 8 false w.toNat sc.toNat a.toNat b.toNat) s)

/-- `atom_cas` (05 R150-R154). -/
def execAtomCas (a : BitVec 7) (sc : BitVec 3) (b : BitVec 4) (w : BitVec 2) (l : BitVec 4) (s : State) : Out :=
  .next (memWord (shAtomic 0x18 true true w.toNat a.toNat b.toNat sc.toNat l.toNat) (capAtomic false 9 true w.toNat sc.toNat a.toNat b.toNat) s)

/-- `atom_inc` (05 R150-R154). -/
def execAtomInc (a : BitVec 7) (sc : BitVec 3) (b : BitVec 4) (w : BitVec 2) (l : BitVec 4) (s : State) : Out :=
  .next (memWord (shAtomic 0x18 true false w.toNat a.toNat b.toNat sc.toNat l.toNat) (capAtomic false 10 true w.toNat sc.toNat a.toNat b.toNat) s)

/-- `red_inc` (05 R150-R154). -/
def execRedInc (a : BitVec 7) (sc : BitVec 3) (b : BitVec 4) (w : BitVec 2) (l : BitVec 4) (s : State) : Out :=
  .next (memWord (shAtomic 0x18 false false w.toNat a.toNat b.toNat sc.toNat l.toNat) (capAtomic false 10 false w.toNat sc.toNat a.toNat b.toNat) s)

/-- `atom_dec` (05 R150-R154). -/
def execAtomDec (a : BitVec 7) (sc : BitVec 3) (b : BitVec 4) (w : BitVec 2) (l : BitVec 4) (s : State) : Out :=
  .next (memWord (shAtomic 0x18 true false w.toNat a.toNat b.toNat sc.toNat l.toNat) (capAtomic false 11 true w.toNat sc.toNat a.toNat b.toNat) s)

/-- `red_dec` (05 R150-R154). -/
def execRedDec (a : BitVec 7) (sc : BitVec 3) (b : BitVec 4) (w : BitVec 2) (l : BitVec 4) (s : State) : Out :=
  .next (memWord (shAtomic 0x18 false false w.toNat a.toNat b.toNat sc.toNat l.toNat) (capAtomic false 11 false w.toNat sc.toNat a.toNat b.toNat) s)

/-- `atom_fadd` (05 R150-R154). -/
def execAtomFadd (a : BitVec 7) (sc : BitVec 3) (b : BitVec 4) (l : BitVec 4) (s : State) : Out :=
  .next (memWord (shAtomic 0x18 true false 0 a.toNat b.toNat sc.toNat l.toNat) (capAtomic false 12 true 0 sc.toNat a.toNat b.toNat) s)

/-- `red_fadd` (05 R150-R154). -/
def execRedFadd (a : BitVec 7) (sc : BitVec 3) (b : BitVec 4) (l : BitVec 4) (s : State) : Out :=
  .next (memWord (shAtomic 0x18 false false 0 a.toNat b.toNat sc.toNat l.toNat) (capAtomic false 12 false 0 sc.toNat a.toNat b.toNat) s)

/-- `atom_fmax` (05 R150-R154). -/
def execAtomFmax (a : BitVec 7) (sc : BitVec 3) (b : BitVec 4) (l : BitVec 4) (s : State) : Out :=
  .next (memWord (shAtomic 0x18 true false 0 a.toNat b.toNat sc.toNat l.toNat) (capAtomic false 13 true 0 sc.toNat a.toNat b.toNat) s)

/-- `red_fmax` (05 R150-R154). -/
def execRedFmax (a : BitVec 7) (sc : BitVec 3) (b : BitVec 4) (l : BitVec 4) (s : State) : Out :=
  .next (memWord (shAtomic 0x18 false false 0 a.toNat b.toNat sc.toNat l.toNat) (capAtomic false 13 false 0 sc.toNat a.toNat b.toNat) s)

/-- `atom_fmin` (05 R150-R154). -/
def execAtomFmin (a : BitVec 7) (sc : BitVec 3) (b : BitVec 4) (l : BitVec 4) (s : State) : Out :=
  .next (memWord (shAtomic 0x18 true false 0 a.toNat b.toNat sc.toNat l.toNat) (capAtomic false 14 true 0 sc.toNat a.toNat b.toNat) s)

/-- `red_fmin` (05 R150-R154). -/
def execRedFmin (a : BitVec 7) (sc : BitVec 3) (b : BitVec 4) (l : BitVec 4) (s : State) : Out :=
  .next (memWord (shAtomic 0x18 false false 0 a.toNat b.toNat sc.toNat l.toNat) (capAtomic false 14 false 0 sc.toNat a.toNat b.toNat) s)

/-- `patom_add` (05 R150-R154). -/
def execPatomAdd (a : BitVec 7) (b : BitVec 4) (w : BitVec 2) (l : BitVec 4) (s : State) : Out :=
  .next (memWord (shAtomic 0x19 true false w.toNat a.toNat b.toNat 0 l.toNat) (capAtomic true 0 true w.toNat 0 a.toNat b.toNat) s)

/-- `pred_add` (05 R150-R154). -/
def execPredAdd (a : BitVec 7) (b : BitVec 4) (w : BitVec 2) (l : BitVec 4) (s : State) : Out :=
  .next (memWord (shAtomic 0x19 false false w.toNat a.toNat b.toNat 0 l.toNat) (capAtomic true 0 false w.toNat 0 a.toNat b.toNat) s)

/-- `patom_and` (05 R150-R154). -/
def execPatomAnd (a : BitVec 7) (b : BitVec 4) (w : BitVec 2) (l : BitVec 4) (s : State) : Out :=
  .next (memWord (shAtomic 0x19 true false w.toNat a.toNat b.toNat 0 l.toNat) (capAtomic true 1 true w.toNat 0 a.toNat b.toNat) s)

/-- `pred_and` (05 R150-R154). -/
def execPredAnd (a : BitVec 7) (b : BitVec 4) (w : BitVec 2) (l : BitVec 4) (s : State) : Out :=
  .next (memWord (shAtomic 0x19 false false w.toNat a.toNat b.toNat 0 l.toNat) (capAtomic true 1 false w.toNat 0 a.toNat b.toNat) s)

/-- `patom_or` (05 R150-R154). -/
def execPatomOr (a : BitVec 7) (b : BitVec 4) (w : BitVec 2) (l : BitVec 4) (s : State) : Out :=
  .next (memWord (shAtomic 0x19 true false w.toNat a.toNat b.toNat 0 l.toNat) (capAtomic true 2 true w.toNat 0 a.toNat b.toNat) s)

/-- `pred_or` (05 R150-R154). -/
def execPredOr (a : BitVec 7) (b : BitVec 4) (w : BitVec 2) (l : BitVec 4) (s : State) : Out :=
  .next (memWord (shAtomic 0x19 false false w.toNat a.toNat b.toNat 0 l.toNat) (capAtomic true 2 false w.toNat 0 a.toNat b.toNat) s)

/-- `patom_xor` (05 R150-R154). -/
def execPatomXor (a : BitVec 7) (b : BitVec 4) (w : BitVec 2) (l : BitVec 4) (s : State) : Out :=
  .next (memWord (shAtomic 0x19 true false w.toNat a.toNat b.toNat 0 l.toNat) (capAtomic true 3 true w.toNat 0 a.toNat b.toNat) s)

/-- `pred_xor` (05 R150-R154). -/
def execPredXor (a : BitVec 7) (b : BitVec 4) (w : BitVec 2) (l : BitVec 4) (s : State) : Out :=
  .next (memWord (shAtomic 0x19 false false w.toNat a.toNat b.toNat 0 l.toNat) (capAtomic true 3 false w.toNat 0 a.toNat b.toNat) s)

/-- `patom_min_i` (05 R150-R154). -/
def execPatomMinI (a : BitVec 7) (b : BitVec 4) (w : BitVec 2) (l : BitVec 4) (s : State) : Out :=
  .next (memWord (shAtomic 0x19 true false w.toNat a.toNat b.toNat 0 l.toNat) (capAtomic true 4 true w.toNat 0 a.toNat b.toNat) s)

/-- `pred_min_i` (05 R150-R154). -/
def execPredMinI (a : BitVec 7) (b : BitVec 4) (w : BitVec 2) (l : BitVec 4) (s : State) : Out :=
  .next (memWord (shAtomic 0x19 false false w.toNat a.toNat b.toNat 0 l.toNat) (capAtomic true 4 false w.toNat 0 a.toNat b.toNat) s)

/-- `patom_max_i` (05 R150-R154). -/
def execPatomMaxI (a : BitVec 7) (b : BitVec 4) (w : BitVec 2) (l : BitVec 4) (s : State) : Out :=
  .next (memWord (shAtomic 0x19 true false w.toNat a.toNat b.toNat 0 l.toNat) (capAtomic true 5 true w.toNat 0 a.toNat b.toNat) s)

/-- `pred_max_i` (05 R150-R154). -/
def execPredMaxI (a : BitVec 7) (b : BitVec 4) (w : BitVec 2) (l : BitVec 4) (s : State) : Out :=
  .next (memWord (shAtomic 0x19 false false w.toNat a.toNat b.toNat 0 l.toNat) (capAtomic true 5 false w.toNat 0 a.toNat b.toNat) s)

/-- `patom_min_n` (05 R150-R154). -/
def execPatomMinN (a : BitVec 7) (b : BitVec 4) (w : BitVec 2) (l : BitVec 4) (s : State) : Out :=
  .next (memWord (shAtomic 0x19 true false w.toNat a.toNat b.toNat 0 l.toNat) (capAtomic true 6 true w.toNat 0 a.toNat b.toNat) s)

/-- `pred_min_n` (05 R150-R154). -/
def execPredMinN (a : BitVec 7) (b : BitVec 4) (w : BitVec 2) (l : BitVec 4) (s : State) : Out :=
  .next (memWord (shAtomic 0x19 false false w.toNat a.toNat b.toNat 0 l.toNat) (capAtomic true 6 false w.toNat 0 a.toNat b.toNat) s)

/-- `patom_max_n` (05 R150-R154). -/
def execPatomMaxN (a : BitVec 7) (b : BitVec 4) (w : BitVec 2) (l : BitVec 4) (s : State) : Out :=
  .next (memWord (shAtomic 0x19 true false w.toNat a.toNat b.toNat 0 l.toNat) (capAtomic true 7 true w.toNat 0 a.toNat b.toNat) s)

/-- `pred_max_n` (05 R150-R154). -/
def execPredMaxN (a : BitVec 7) (b : BitVec 4) (w : BitVec 2) (l : BitVec 4) (s : State) : Out :=
  .next (memWord (shAtomic 0x19 false false w.toNat a.toNat b.toNat 0 l.toNat) (capAtomic true 7 false w.toNat 0 a.toNat b.toNat) s)

/-- `patom_exch` (05 R150-R154). -/
def execPatomExch (a : BitVec 7) (b : BitVec 4) (w : BitVec 2) (l : BitVec 4) (s : State) : Out :=
  .next (memWord (shAtomic 0x19 true false w.toNat a.toNat b.toNat 0 l.toNat) (capAtomic true 8 true w.toNat 0 a.toNat b.toNat) s)

/-- `pred_exch` (05 R150-R154). -/
def execPredExch (a : BitVec 7) (b : BitVec 4) (w : BitVec 2) (l : BitVec 4) (s : State) : Out :=
  .next (memWord (shAtomic 0x19 false false w.toNat a.toNat b.toNat 0 l.toNat) (capAtomic true 8 false w.toNat 0 a.toNat b.toNat) s)

/-- `patom_cas` (05 R150-R154). -/
def execPatomCas (a : BitVec 7) (b : BitVec 4) (w : BitVec 2) (l : BitVec 4) (s : State) : Out :=
  .next (memWord (shAtomic 0x19 true true w.toNat a.toNat b.toNat 0 l.toNat) (capAtomic true 9 true w.toNat 0 a.toNat b.toNat) s)

/-- `patom_inc` (05 R150-R154). -/
def execPatomInc (a : BitVec 7) (b : BitVec 4) (w : BitVec 2) (l : BitVec 4) (s : State) : Out :=
  .next (memWord (shAtomic 0x19 true false w.toNat a.toNat b.toNat 0 l.toNat) (capAtomic true 10 true w.toNat 0 a.toNat b.toNat) s)

/-- `pred_inc` (05 R150-R154). -/
def execPredInc (a : BitVec 7) (b : BitVec 4) (w : BitVec 2) (l : BitVec 4) (s : State) : Out :=
  .next (memWord (shAtomic 0x19 false false w.toNat a.toNat b.toNat 0 l.toNat) (capAtomic true 10 false w.toNat 0 a.toNat b.toNat) s)

/-- `patom_dec` (05 R150-R154). -/
def execPatomDec (a : BitVec 7) (b : BitVec 4) (w : BitVec 2) (l : BitVec 4) (s : State) : Out :=
  .next (memWord (shAtomic 0x19 true false w.toNat a.toNat b.toNat 0 l.toNat) (capAtomic true 11 true w.toNat 0 a.toNat b.toNat) s)

/-- `pred_dec` (05 R150-R154). -/
def execPredDec (a : BitVec 7) (b : BitVec 4) (w : BitVec 2) (l : BitVec 4) (s : State) : Out :=
  .next (memWord (shAtomic 0x19 false false w.toNat a.toNat b.toNat 0 l.toNat) (capAtomic true 11 false w.toNat 0 a.toNat b.toNat) s)

/-- `patom_fadd` (05 R150-R154). -/
def execPatomFadd (a : BitVec 7) (b : BitVec 4) (l : BitVec 4) (s : State) : Out :=
  .next (memWord (shAtomic 0x19 true false 0 a.toNat b.toNat 0 l.toNat) (capAtomic true 12 true 0 0 a.toNat b.toNat) s)

/-- `pred_fadd` (05 R150-R154). -/
def execPredFadd (a : BitVec 7) (b : BitVec 4) (l : BitVec 4) (s : State) : Out :=
  .next (memWord (shAtomic 0x19 false false 0 a.toNat b.toNat 0 l.toNat) (capAtomic true 12 false 0 0 a.toNat b.toNat) s)

/-- `patom_fmax` (05 R150-R154). -/
def execPatomFmax (a : BitVec 7) (b : BitVec 4) (l : BitVec 4) (s : State) : Out :=
  .next (memWord (shAtomic 0x19 true false 0 a.toNat b.toNat 0 l.toNat) (capAtomic true 13 true 0 0 a.toNat b.toNat) s)

/-- `pred_fmax` (05 R150-R154). -/
def execPredFmax (a : BitVec 7) (b : BitVec 4) (l : BitVec 4) (s : State) : Out :=
  .next (memWord (shAtomic 0x19 false false 0 a.toNat b.toNat 0 l.toNat) (capAtomic true 13 false 0 0 a.toNat b.toNat) s)

/-- `patom_fmin` (05 R150-R154). -/
def execPatomFmin (a : BitVec 7) (b : BitVec 4) (l : BitVec 4) (s : State) : Out :=
  .next (memWord (shAtomic 0x19 true false 0 a.toNat b.toNat 0 l.toNat) (capAtomic true 14 true 0 0 a.toNat b.toNat) s)

/-- `pred_fmin` (05 R150-R154). -/
def execPredFmin (a : BitVec 7) (b : BitVec 4) (l : BitVec 4) (s : State) : Out :=
  .next (memWord (shAtomic 0x19 false false 0 a.toNat b.toNat 0 l.toNat) (capAtomic true 14 false 0 0 a.toNat b.toNat) s)

end Sys2Proof.Machine
end

