-- ==== Sys2Proof/Machine/Barrier.lean ====
section
/-! DEFINITION. Meanings: transaction barriers, major 0x1A (05 R155-R160). -/

namespace Sys2Proof.Machine

/-! ## Objects in the window (05 R156, R157) -/

/-- A field of an object replaced. -/
def putField (x hi lo v : Nat) : Nat := x - bits x hi lo * 2 ^ lo + v % 2 ^ (hi + 1 - lo) * 2 ^ lo

/-- A trap of a word that names an object: kind 4 of R177. -/
def objTrap (group code addr : Nat) (window : Bool) (s : State) : State :=
  takeTrap group code (accessDetail addr (if group = 10 then 0 else 4) window false 0 0 0) 0 0 s.g.cur s

/-- A trap of group 11: the detail is the object's window address (05 R170). -/
def barTrap (code addr : Nat) (s : State) : State := takeTrap 11 code (BitVec.ofNat 96 (addr % 2 ^ 64)) 0 0 s.g.cur s

/-- The object at a window address, after alignment, translation and the owner check. A word on an object on which the gang has an arrival
behind its release waits for it (05 R142). -/
def withObject (addr align : Nat) (body : Nat → State → State) (s : State) : State :=
  if addr % align != 0 then objTrap 3 2 addr true s
  else if s.g.arriving.any fun x => x.addr = addr then stall s
  else
    match spadKey s addr with
    | .error w => objTrap w.group w.code addr true s
    | .ok k => body k s

/-! ## The barrier object (05 R155) -/

def barrierAt (s : State) (k : Nat) : Nat := ofBytes (s.spad.read k 16)

def setBarrier (k x : Nat) (s : State) : State := { s with spad := s.spad.write k (toBytes 16 x) }

/-- Pending sectors, a 28-bit two's-complement count. -/
def sectorsOf (x : Nat) : Int := if bits x 55 55 = 1 then (bits x 55 28 : Int) - (2 ^ 28 : Nat) else bits x 55 28

def putSectors (x : Nat) (n : Int) : Nat := putField x 55 28 (n + (2 ^ 28 : Nat)).toNat

/-- A sector sum that the field cannot hold (05 R158). -/
def sectorsFit (n : Int) : Bool := -(2 ^ 27 : Nat) ≤ n && n < (2 ^ 27 : Nat)

/-- The gangs that wait on an object wake, to test their parity again (05 R157, R159). -/
def wakeBarrier (k : Nat) (s : State) : State :=
  let on (g : Gang) : Bool := match g.wait with
    | .barWait c a => c * 2 ^ 20 + a = k
    | _ => false
  let n := (s.allGangs.filter on).length
  let x := barrierAt s k
  (setBarrier k (putField x 79 64 (bits x 79 64 - n)) s).mapGangs fun g => if on g then { g with wait := .none } else g

/-- `complete` (05 R157). -/
def barComplete (k : Nat) (s : State) : State :=
  let x := barrierAt s k
  if bits x 27 16 = 0 ∧ bits x 55 28 = 0 then
    wakeBarrier k (setBarrier k (putField (putField x 3 0 (bits x 3 0 + 1)) 27 16 (bits x 15 4)) s)
  else s

/-- `bar.init`. Where its count is bad and gangs wait too, the count is reported: no order is stated, DESIGN CHOICE (log entry 91). -/
def barInit (sh : Shape) (addr n : Nat) (s : State) : State :=
  withObject addr 16 (fun k s =>
    if n = 0 ∨ 4095 < n then barTrap 3 addr s
    else if bits (barrierAt s k) 79 64 != 0 then barTrap 8 addr s
    else openWindow sh none (setBarrier k (n * 2 ^ 4 + n * 2 ^ 16) s)) s

/-- The fault of an arrival of n sectors on an object (05 R158). Where its count is 0 and its sectors do not fit too, the count is reported: no
order is stated, DESIGN CHOICE (log entry 91). -/
def arriveFault (x : Nat) (n : Int) : Option Nat :=
  if bits x 27 16 = 0 then some 4 else if !sectorsFit (sectorsOf x + n) then some 5 else none

/-- The count of an arrival, with the phase it found (05 R157). -/
def arrive (k : Nat) (d : Option Nat) (n : Int) (s : State) : State :=
  let x := barrierAt s k
  let s1 := match d with
    | some r => s.setR fun q => q.setS r (BitVec.ofNat 64 (bits x 3 0))
    | none => s
  barComplete k (setBarrier k (putField (putSectors x (sectorsOf x + n)) 27 16 (bits x 27 16 - 1)) s1)

/-- An arrival stands behind its release, and the gang goes on (12 R270); a phase to come opens the word's window for it. -/
def standArrival (sh : Shape) (d : Option Nat) (addr : Nat) (n : Int) (ids : List Nat) (s : State) : State :=
  let x : PendingArrival := ⟨s.nextId, addr, n, d, ids, false⟩
  let s1 := { s with nextId := s.nextId + 1 }.setG fun g => { g with arriving := g.arriving ++ [x] }
  match d with
  | some _ => s1.setG fun g => g.setWins (g.wins ++ [⟨sh.writes Block.single, sh.la, none, some s.nextId⟩])
  | none => openWindow sh none s1

/-- An arrival: a release, then the count (05 R157, R160), in one step where no record is to be waited for. One that would fault does so before
its release begins (log entry 80). -/
def barArrive (sh : Shape) (scope : Scope) (d : Option Nat) (addr : Nat) (n : Int) (s : State) : State :=
  withObject addr 16 (fun k s =>
    match arriveFault (barrierAt s k) n with
    | some c => barTrap c addr s
    | none =>
      if s.g.opens then stall s
      else
        match releaseBegin scope [] s with
        | ([], s1) => openWindow sh none (arrive k d n s1)
        | (ids, s1) => standArrival sh d addr n ids s1) s

/-- What a late fault of an arrival is: it has no effect, and its trap is due at the gang's next boundary (log entry 80). -/
def lateFault (f : FaultRec) (s : State) : State := s.setG fun g => { g with errorDue := g.errorDue.or (some f) }

/-- The release of an arrival is complete: the tests stand again, and the arrival is counted. -/
def finishArrival (x : PendingArrival) (s : State) : State :=
  let s1 := s.setG fun g => { g with arriving := g.arriving.filter fun y => y.id != x.id }
  match spadKey s1 x.addr with
  | .error w => lateFault ⟨causeOf w.group w.code, accessDetail x.addr 4 true false 0 0 0⟩ s1
  | .ok k =>
    match arriveFault (barrierAt s1 k) x.sectors with
    | some c => lateFault ⟨causeOf 11 c, BitVec.ofNat 96 (x.addr % 2 ^ 64)⟩ s1
    | none => arrive k x.reg x.sectors s1

def barExpect (sh : Shape) (addr : Nat) (n : Int) (s : State) : State :=
  withObject addr 16 (fun k s =>
    let x := barrierAt s k
    if !sectorsFit (sectorsOf x + n) then barTrap 5 addr s
    else openWindow sh none (barComplete k (setBarrier k (putSectors x (sectorsOf x + n)) s))) s

/-- `bar.wait`: it blocks while phase bit 0 equals the parity, else it is an acquire (05 R157, R159, R160). -/
def barWait (scope : Scope) (addr : Nat) (parity : Bool) (s : State) : State :=
  withObject addr 16 (fun k s =>
    let x := barrierAt s k
    if (bits x 0 0 = 1) == parity then
      stall ((setBarrier k (putField x 79 64 (bits x 79 64 + 1)) s).setG fun g => { g with wait := .barWait (k / 2 ^ 20) (k % 2 ^ 20) })
    else withAcquire scope [] (fun s => s) s) s

def barTest (sh : Shape) (d addr : Nat) (s : State) : State :=
  withObject addr 16 (fun k s =>
    let x := barrierAt s k
    openWindow sh none (s.setR fun q => q.setS d (BitVec.ofNat 64 (bits x 3 0 + bits x 95 80 * 2 ^ 16)))) s

/-- `bar.drop`. With the count of expected arrivals below 2 that is reported, whatever the arrivals: no order is stated, DESIGN CHOICE
(log entry 91). -/
def barDrop (sh : Shape) (addr : Nat) (s : State) : State :=
  withObject addr 16 (fun k s =>
    let x := barrierAt s k
    if bits x 15 4 < 2 then barTrap 3 addr s
    else if bits x 27 16 = 0 then barTrap 4 addr s
    else openWindow sh none (barComplete k (setBarrier k (putField (putField x 15 4 (bits x 15 4 - 1)) 27 16 (bits x 27 16 - 1)) s))) s

/-- `bar_init` (05 R157, R158). -/
def execBarInit (a : BitVec 5) (b : BitVec 5) (l : BitVec 4) (s : State) : Out :=
  .next (issue ({ major := 0x1A, sr := [a.toNat, b.toNat], sw := [], la := l.toNat }) (fun s => barInit ({ major := 0x1A, sr := [a.toNat, b.toNat], sw := [], la := l.toNat }) (s.src.sreg a.toNat).toNat (s.src.sreg b.toNat).toNat s) s)

/-- `bar_arrive` (05 R157, R160). S[sc] is added as a signed number: no rule says so, DESIGN CHOICE (log entry 92). -/
def execBarArrive (a : BitVec 5) (c : BitVec 5) (sc : BitVec 3) (l : BitVec 4) (s : State) : Out :=
  .next (issue ({ major := 0x1A, sr := [a.toNat, c.toNat], sw := [], la := l.toNat, bad := codeIf (sc.toNat = 0 ∨ 4 < sc.toNat) 0x03 }) (fun s => barArrive ({ major := 0x1A, sr := [a.toNat, c.toNat], sw := [], la := l.toNat, bad := codeIf (sc.toNat = 0 ∨ 4 < sc.toNat) 0x03 }) (scopeOf sc.toNat) none (s.src.sreg a.toNat).toNat (s.src.sreg c.toNat).toInt s) s)

/-- `bar_arrivet` (05 R157, R160). S[sc] is signed (log entry 92). -/
def execBarArrivet (d : BitVec 5) (b : BitVec 5) (c : BitVec 5) (sc : BitVec 3) (l : BitVec 4) (s : State) : Out :=
  .next (issue ({ major := 0x1A, sr := [b.toNat, c.toNat], sw := [d.toNat], la := l.toNat, bad := codeIf (sc.toNat = 0 ∨ 4 < sc.toNat) 0x03 }) (fun s => barArrive ({ major := 0x1A, sr := [b.toNat, c.toNat], sw := [d.toNat], la := l.toNat, bad := codeIf (sc.toNat = 0 ∨ 4 < sc.toNat) 0x03 }) (scopeOf sc.toNat) (some d.toNat) (s.src.sreg b.toNat).toNat (s.src.sreg c.toNat).toInt s) s)

/-- `bar_expect` (05 R157). S[sb] is added as a signed number: no rule says so, DESIGN CHOICE (log entry 92). -/
def execBarExpect (a : BitVec 5) (b : BitVec 5) (l : BitVec 4) (s : State) : Out :=
  .next (issue ({ major := 0x1A, sr := [a.toNat, b.toNat], sw := [], la := l.toNat }) (fun s => barExpect ({ major := 0x1A, sr := [a.toNat, b.toNat], sw := [], la := l.toNat }) (s.src.sreg a.toNat).toNat (s.src.sreg b.toNat).toInt s) s)

/-- `bar_wait` (05 R157, R159, R160). -/
def execBarWait (a : BitVec 5) (b : BitVec 5) (sc : BitVec 3) (s : State) : Out :=
  .next (issue ({ major := 0x1A, sr := [a.toNat, b.toNat], sw := [], la := 0, bad := codeIf (sc.toNat = 0 ∨ 4 < sc.toNat) 0x03 }) (fun s => barWait (scopeOf sc.toNat) (s.src.sreg a.toNat).toNat ((s.src.sreg b.toNat).getLsbD 0) s) s)

/-- `bar_test` (05 R157). -/
def execBarTest (d : BitVec 5) (b : BitVec 5) (l : BitVec 4) (s : State) : Out :=
  .next (issue ({ major := 0x1A, sr := [b.toNat], sw := [d.toNat], la := l.toNat }) (fun s => barTest ({ major := 0x1A, sr := [b.toNat], sw := [d.toNat], la := l.toNat }) d.toNat (s.src.sreg b.toNat).toNat s) s)

/-- `bar_drop` (05 R157, R158). -/
def execBarDrop (a : BitVec 5) (l : BitVec 4) (s : State) : Out :=
  .next (issue ({ major := 0x1A, sr := [a.toNat], sw := [], la := l.toNat }) (fun s => barDrop ({ major := 0x1A, sr := [a.toNat], sw := [], la := l.toNat }) (s.src.sreg a.toNat).toNat s) s)

end Sys2Proof.Machine
end

