-- ==== Sys2Proof/Machine/Branch.lean ====
section
/-! DEFINITION. Meanings: branches, divergence and loop counters of majors 0x06-0x09 (03 R69, 05 R132-R137). -/

namespace Sys2Proof.Machine

/-- The target of a branch: its packet plus the signed offset, mod 2^32 (03 R69). -/
def relTarget (s : State) (o : BitVec 20) : Word := s.g.cur.packet + o.signExtend 32

/-- A taken branch: to slot 0 of the target packet; open windows end (03 R69, R80). -/
def takeBranch (t : Word) (s : State) : State := (endWindows s).setG fun g => { g with pc := ⟨t, 0⟩ }

/-- S[31] := the number of the packet after the call's (03 R69). -/
def linkReturn (s : State) : State := s.setR fun r => r.setS 31 ((s.g.cur.packet + 1).setWidth 64)

/-- A trap of the divergence stack: the detail is its depth (05 R170). -/
def stackTrap (code : Nat) (s : State) : State :=
  takeTrap 11 code (BitVec.ofNat 96 s.src.dstack.length) 0 0 s.g.cur s

/-- An entry: the outer mask above the arm mask (05 R134). -/
def stackEntry (outer arm : Word) : Dword := outer ++ arm

def splitArm (p : Word) (t : Word) (s : State) : State :=
  if s.src.dstack.length = 16 then stackTrap 1 s
  else
    let arm := s.emask &&& p
    let s1 := s.setR fun r => { r with dstack := stackEntry s.emask arm :: s.src.dstack, emask := arm }
    if arm = 0 then takeBranch t s1 else s1

def elseArm (t : Word) (s : State) : State :=
  match s.src.dstack with
  | [] => stackTrap 2 s
  | e :: r =>
    let outer := e.extractLsb' 32 32
    let arm := outer &&& ~~~(e.extractLsb' 0 32)
    let s1 := s.setR fun q => { q with dstack := stackEntry outer arm :: r, emask := arm }
    if arm = 0 then takeBranch t s1 else s1

def joinArms (s : State) : State :=
  match s.src.dstack with
  | [] => stackTrap 2 s
  | e :: r => s.setR fun q => { q with dstack := r, emask := e.extractLsb' 32 32 }

def popEntry (d : Nat) (s : State) : State :=
  match s.src.dstack with
  | [] => stackTrap 2 s
  | e :: r => s.setR fun q => { q with dstack := r }.setS d e

def pushEntry (x : Dword) (s : State) : State :=
  if s.src.dstack.length = 16 then stackTrap 1 s
  else s.setR fun q => { q with dstack := x :: s.src.dstack }

/-- `dbnz`: the new value decides (05 R137). -/
def countDown (k : Nat) (t : Word) (s : State) : State :=
  let x := s.src.sreg k - 1
  let s1 := s.setR fun r => r.setS k x
  if x = 0 then s1 else takeBranch t s1

/-- `br` (03 R69, 05 R132). -/
def execBr (o : BitVec 20) (s : State) : Out :=
  .next (issue (shB 6 [] []) (fun s => takeBranch (relTarget s o) s) s)

/-- `call` (03 R69, 05 R132). -/
def execCall (o : BitVec 20) (s : State) : Out :=
  .next (issue ({ shB 6 [] [] with sw := [31] }) (fun s => takeBranch (relTarget s o) (linkReturn s)) s)

/-- `ret` (05 R132). -/
def execRet (s : State) : Out :=
  .next (issue (shB 6 [] [31]) (fun s => takeBranch ((s.src.sreg 31).setWidth 32) s) s)

/-- `callr` (05 R132). -/
def execCallr (s : State) : Out :=
  .next (issue ({ shB 6 [] [30] with sw := [31] }) (fun s => takeBranch ((s.src.sreg 30).setWidth 32) (linkReturn s)) s)

/-- `bany` (05 R133). -/
def execBany (p : BitVec 3) (o : BitVec 20) (s : State) : Out :=
  .next (issue (shB 7 [p.toNat] []) (fun s => if s.src.preg p.toNat &&& s.emask != 0 then takeBranch (relTarget s o) s else s) s)

/-- `ball` (05 R133). -/
def execBall (p : BitVec 3) (o : BitVec 20) (s : State) : Out :=
  .next (issue (shB 7 [p.toNat] []) (fun s => if s.src.preg p.toNat &&& s.emask == s.emask then takeBranch (relTarget s o) s else s) s)

/-- `bnone` (05 R133). -/
def execBnone (p : BitVec 3) (o : BitVec 20) (s : State) : Out :=
  .next (issue (shB 7 [p.toNat] []) (fun s => if s.src.preg p.toNat &&& s.emask == 0 then takeBranch (relTarget s o) s else s) s)

/-- `bnall` (05 R133). -/
def execBnall (p : BitVec 3) (o : BitVec 20) (s : State) : Out :=
  .next (issue (shB 7 [p.toNat] []) (fun s => if s.src.preg p.toNat &&& s.emask != s.emask then takeBranch (relTarget s o) s else s) s)

/-- `split` (05 R134). -/
def execSplit (p : BitVec 3) (o : BitVec 20) (s : State) : Out :=
  .next (issue ({ shB 8 [p.toNat] [] with sp := [0] }) (fun s => splitArm (s.src.preg p.toNat) (relTarget s o) s) s)

/-- `else` (05 R134). -/
def execElseArm (o : BitVec 20) (s : State) : Out :=
  .next (issue ({ shB 8 [] [] with sp := [0] }) (fun s => elseArm (relTarget s o) s) s)

/-- `join` (05 R134). -/
def execJoin (s : State) : Out :=
  .next (issue ({ shB 8 [] [] with sp := [0] }) (fun s => joinArms s) s)

/-- `mand` (05 R135). -/
def execMand (p : BitVec 3) (s : State) : Out :=
  .next (issue ({ shB 8 [p.toNat] [] with sp := [0] }) (fun s => s.setR fun r => { r with emask := s.emask &&& s.src.preg p.toNat }) s)

/-- `mandn` (05 R135). -/
def execMandn (p : BitVec 3) (s : State) : Out :=
  .next (issue ({ shB 8 [p.toNat] [] with sp := [0] }) (fun s => s.setR fun r => { r with emask := s.emask &&& ~~~(s.src.preg p.toNat) }) s)

/-- `dspop` (05 R135). -/
def execDspop (d : BitVec 5) (s : State) : Out :=
  .next (issue ({ shB 8 [] [] with sw := [d.toNat] }) (fun s => popEntry d.toNat s) s)

/-- `dspush` (05 R135). -/
def execDspush (a : BitVec 5) (s : State) : Out :=
  .next (issue (shB 8 [] [a.toNat]) (fun s => pushEntry (s.src.sreg a.toNat) s) s)

/-- `dsdepth` (05 R135). -/
def execDsdepth (d : BitVec 5) (s : State) : Out :=
  .next (issue ({ shB 8 [] [] with sw := [d.toNat] }) (fun s => s.setR fun r => r.setS d.toNat (BitVec.ofNat 64 s.src.dstack.length)) s)

/-- `dbnz` (05 R137). -/
def execDbnz (k : BitVec 3) (o : BitVec 20) (s : State) : Out :=
  .next (issue ({ shB 9 [] [16 + k.toNat] with sw := [16 + k.toNat] }) (fun s => countDown (16 + k.toNat) (relTarget s o) s) s)

/-- `bz` (05 R137). -/
def execBz (k : BitVec 3) (o : BitVec 20) (s : State) : Out :=
  .next (issue (shB 9 [] [16 + k.toNat]) (fun s => if s.src.sreg (16 + k.toNat) = 0 then takeBranch (relTarget s o) s else s) s)

/-- `bnz` (05 R137). -/
def execBnz (k : BitVec 3) (o : BitVec 20) (s : State) : Out :=
  .next (issue (shB 9 [] [16 + k.toNat]) (fun s => if s.src.sreg (16 + k.toNat) = 0 then s else takeBranch (relTarget s o) s) s)

end Sys2Proof.Machine
end

