-- ==== Sys2Proof/Machine/Ring.lean ====
section
/-! DEFINITION. Meanings: stage rings, major 0x1B (05 R161-R163). -/

namespace Sys2Proof.Machine

/-! ## A ring of a crew (05 R161, 08 R208) -/

/-- The declaration of queue q of a node: window offset in bits 19:0, slots in bits 26:20 (18 R388). -/
def queueDecl (s : State) (node : Word) (q : Nat) : Nat :=
  match s.node? node with
  | some n => (n.desc.queues.getD q 0).toNat
  | none => 0

/-- Header fields: slots, head, tail, free, filled. -/
structure Ring where
  key : Nat
  slots : Nat
  head : Nat
  tail : Nat
  free : Nat
  filled : Nat
  deriving DecidableEq, Repr

def ringAt (s : State) (k : Nat) : Ring :=
  ⟨k, (s.spad.get k).toNat, (s.spad.get (k + 1)).toNat, (s.spad.get (k + 2)).toNat, ofBytes (s.spad.read (k + 4) 2), ofBytes (s.spad.read (k + 6) 2)⟩

def setRing (r : Ring) (s : State) : State :=
  let m1 := s.spad.write (r.key + 1) [BitVec.ofNat 8 r.head, BitVec.ofNat 8 r.tail]
  { s with spad := m1.write (r.key + 4) (toBytes 2 r.free ++ toBytes 2 r.filled) }

/-- A crew's reserved entries of a ring and what was pushed behind them (08 R208). -/
def Crew.pending (c : Crew) (q : Nat) : List (Nat × Bool) := (lookup c.pend q).getD []

/-- A header that R163 accepts: reserved entries count towards filled. -/
def ringOk (c : Crew) (q : Nat) (r : Ring) : Bool :=
  1 ≤ r.slots && r.slots ≤ 64 && r.head < r.slots && r.tail < r.slots && r.free + r.filled + (c.pending q).length = r.slots

/-- An entry's bytes: handle and phase. -/
def ringEntry (r : Ring) (i handle phase : Nat) (s : State) : State :=
  { s with spad := s.spad.write (r.key + 16 + 4 * i) (toBytes 4 (handle % 2 ^ 16 + phase % 2 * 2 ^ 31)) }

/-- The tail moves on; a completed lap is counted. -/
def ringAdvance (uid q : Nat) (r : Ring) (s : State) : State :=
  if r.tail + 1 = r.slots then s.setCrew uid fun c => { c with laps := upsert c.laps q ((lookup c.laps q).getD 0 + 1) } else s

/-- A push of a handle (05 R162): behind a reserved entry it becomes poppable later (08 R208). -/
def ringPush (uid q : Nat) (r : Ring) (handle : Nat) (s : State) : State :=
  match s.crew? uid with
  | none => s
  | some c =>
    let s1 := ringEntry r r.tail handle ((lookup c.laps q).getD 0) s
    let s2 := setRing { r with
        tail := (r.tail + 1) % r.slots, free := r.free - 1, filled := if (c.pending q).isEmpty then r.filled + 1 else r.filled } s1
    let s3 := if (c.pending q).isEmpty then s2 else s2.setCrew uid fun c => { c with pend := upsert c.pend q (c.pending q ++ [(r.tail, true)]) }
    ringAdvance uid q r s3

/-- A reservation of the entry at tail (08 R208). -/
def ringReserve (uid q : Nat) (r : Ring) (s : State) : State :=
  let s1 := setRing { r with tail := (r.tail + 1) % r.slots, free := r.free - 1 } s
  ringAdvance uid q r (s1.setCrew uid fun c => { c with pend := upsert c.pend q (c.pending q ++ [(r.tail, false)]) })

/-- The written entries at the front of a list of pending ones, and the rest. -/
def writtenFront : List (Nat × Bool) → Nat × List (Nat × Bool)
  | (_, true) :: r => ((writtenFront r).1 + 1, (writtenFront r).2)
  | l => (0, l)

/-- A reserved entry receives its handle; filled takes in what is now contiguous (08 R208). -/
def ringFill (uid q i handle : Nat) (r : Ring) (s : State) : State :=
  match s.crew? uid with
  | none => s
  | some c =>
    let laps := (lookup c.laps q).getD 0
    let l := mapIf (fun x => x.1 = i && !x.2) (fun x => (x.1, true)) (c.pending q)
    let (n, rest) := writtenFront l
    let s1 := ringEntry r i handle (if i < r.tail then laps else laps + 1) s
    (setRing { r with filled := r.filled + n } s1).setCrew uid fun c => { c with pend := upsert c.pend q rest }

/-- A pop: the handle at head leaves. -/
def ringPop (r : Ring) (s : State) : Nat × State :=
  (ofBytes (s.spad.read (r.key + 16 + 4 * r.head) 2), setRing { r with head := (r.head + 1) % r.slots, filled := r.filled - 1, free := r.free + 1 } s)

/-- The ring a queue word names, after the tests of R163 and the owner check of R161. Where the node declares no such queue there is no
object to name: code 6 then gives the allocation's base plus the offset field of the undeclared word, DESIGN CHOICE (log entry 106). -/
def withRing (q : Nat) (body : Crew → Ring → State → State) (s : State) : State :=
  match s.myCrew with
  | none => s
  | some c =>
    let d := queueDecl s s.g.node q
    let o := bits d 19 0
    let addr := c.offset + o
    if bits d 26 20 = 0 then barTrap 6 addr s
    else if (List.range (16 + 4 * bits d 26 20)).any (fun k => c.engineOwned (o + k)) then objTrap 2 5 addr true s
    else
      let r := ringAt s (c.key o)
      if ringOk c q r then body c r s else barTrap 7 addr s

/-- The word waits, holding nothing (05 R130, 08 R201). -/
def block (s : State) : State := stall (s.setG fun g => { g with wait := .blocked })

/-- `qpush` and `qtrypush`: a push is a crew-scope release (05 R162, R163), complete where the gang's accesses are performed (12 R270). -/
def ringPushWord (sh : Shape) (blocking : Bool) (d : Option Nat) (b q : Nat) (s : State) : State :=
  withRing q (fun c r s =>
    let answer (x : Dword) (s : State) : State := match d with
      | some k => openWindow sh none (s.setR fun z => z.setS k x)
      | none => s
    if r.free = 0 then (if blocking then block s else answer 0 s)
    else if s.g.opens then stall s
    else answer 1 (ringPush c.uid q r (s.src.sreg b).toNat s)) s

/-- `qpop` and `qtrypop`: a pop that takes an entry is a crew-scope acquire. -/
def ringPopWord (sh : Shape) (blocking : Bool) (d q : Nat) (s : State) : State :=
  withRing q (fun _ r s =>
    if r.filled = 0 then (if blocking then block s else openWindow sh none (s.setR fun z => z.setS d 0xFFFFFFFFFFFFFFFF))
    else
      withAcquire .crew [] (fun s =>
        let (h, s1) := ringPop r s
        openWindow sh none (s1.setR fun z => z.setS d (BitVec.ofNat 64 h))) s) s

/-- `qpush` (05 R162, R163). -/
def execQpush (b : BitVec 5) (q : BitVec 4) (s : State) : Out :=
  .next (issue ({ major := 0x1B, sr := [b.toNat], sw := [], la := 0 }) (fun s => ringPushWord ({ major := 0x1B, sr := [b.toNat], sw := [], la := 0 }) true none b.toNat q.toNat s) s)

/-- `qpop` (05 R162, R163). -/
def execQpop (d : BitVec 5) (q : BitVec 4) (s : State) : Out :=
  .next (issue ({ major := 0x1B, sr := [], sw := [d.toNat], la := 0 }) (fun s => ringPopWord ({ major := 0x1B, sr := [], sw := [d.toNat], la := 0 }) true d.toNat q.toNat s) s)

/-- `qtrypush` (05 R162, R163). -/
def execQtrypush (d : BitVec 5) (b : BitVec 5) (q : BitVec 4) (l : BitVec 4) (s : State) : Out :=
  .next (issue ({ major := 0x1B, sr := [b.toNat], sw := [d.toNat], la := l.toNat }) (fun s => ringPushWord ({ major := 0x1B, sr := [b.toNat], sw := [d.toNat], la := l.toNat }) false (some d.toNat) b.toNat q.toNat s) s)

/-- `qtrypop` (05 R162, R163). -/
def execQtrypop (d : BitVec 5) (q : BitVec 4) (l : BitVec 4) (s : State) : Out :=
  .next (issue ({ major := 0x1B, sr := [], sw := [d.toNat], la := l.toNat }) (fun s => ringPopWord ({ major := 0x1B, sr := [], sw := [d.toNat], la := l.toNat }) false d.toNat q.toNat s) s)

end Sys2Proof.Machine
end

