-- ==== Sys2Proof/Machine/Own.lean ====
section
/-! DEFINITION. Meanings: tile ownership, major 0x1C (05 R164, R165; 01 R30-R32). -/

namespace Sys2Proof.Machine

/-- The tiles a word names, by their index in the issuing crew's allocation, near half (05 R164). -/
def withTiles (addr n : Nat) (body : Crew → List Nat → State → State) (s : State) : State :=
  match s.myCrew with
  | none => s
  | some c =>
    if addr % 4096 != 0 then objTrap 3 2 addr true s
    else if n = 0 ∨ 256 < n ∨ 2 ^ 20 ≤ addr ∨ addr < c.offset ∨ c.offset + c.size < addr + 4096 * n then objTrap 2 9 addr true s
    else body c ((List.range n).map fun k => (addr - c.offset) / 4096 + k) s

/-- A tile is engine-owned. -/
def Crew.tileOwned (c : Crew) (t : Nat) : Bool := c.tiles.any fun x => x.1 = t

/-- `own.give`: it takes effect behind the gang's earlier scratchpad accesses (05 R165). -/
def ownGive (sh : Shape) (addr n : Nat) (s : State) : State :=
  withTiles addr n (fun c ts s =>
    if ts.any c.tileOwned then objTrap 2 9 addr true s
    else if s.g.opens || !s.g.arriving.isEmpty then stall s
    else openWindow sh none (s.setCrew c.uid fun c => { c with tiles := ts.foldl (fun l t => upsert l t []) c.tiles })) s

/-- `own.take`: idle tiles flip back at once, held ones when their last command ends; the word blocks until all are back. -/
def ownTake (addr n : Nat) (s : State) : State :=
  withTiles addr n (fun c ts s =>
    let c1 : Crew := { c with tiles := c.tiles.filter fun x => !(ts.contains x.1 && x.2.isEmpty) }
    let s1 := s.setCrew c.uid fun _ => c1
    if ts.any c1.tileOwned then block s1 else s1) s

def ownTest (sh : Shape) (d addr : Nat) (s : State) : State :=
  withTiles addr 1 (fun c ts s =>
    openWindow sh none (s.setR fun r => r.setS d (if ts.any c.tileOwned then 1 else 0))) s

/-- `own_give` (05 R164, R165). -/
def execOwnGive (a : BitVec 5) (b : BitVec 5) (l : BitVec 4) (s : State) : Out :=
  .next (issue ({ major := 0x1C, sr := [a.toNat, b.toNat], sw := [], la := l.toNat }) (fun s => ownGive ({ major := 0x1C, sr := [a.toNat, b.toNat], sw := [], la := l.toNat }) (s.src.sreg a.toNat).toNat (s.src.sreg b.toNat).toNat s) s)

/-- `own_take` (05 R164, R165). -/
def execOwnTake (a : BitVec 5) (b : BitVec 5) (s : State) : Out :=
  .next (issue ({ major := 0x1C, sr := [a.toNat, b.toNat], sw := [], la := 0 }) (fun s => ownTake (s.src.sreg a.toNat).toNat (s.src.sreg b.toNat).toNat s) s)

/-- `own_test` (05 R164). -/
def execOwnTest (d : BitVec 5) (b : BitVec 5) (l : BitVec 4) (s : State) : Out :=
  .next (issue ({ major := 0x1C, sr := [b.toNat], sw := [d.toNat], la := l.toNat }) (fun s => ownTest ({ major := 0x1C, sr := [b.toNat], sw := [d.toNat], la := l.toNat }) d.toNat (s.src.sreg b.toNat).toNat s) s)

end Sys2Proof.Machine
end

