-- ==== Sys2Proof/Machine/Monitor.lean ====
section
/-! DEFINITION. Meanings: monitors, waits and sleep, major 0x1D (05 R166-R168). -/

namespace Sys2Proof.Machine

/-- The memory-interface die that homes a line of this package's HBM (01 R21). -/
def homeDie (line : Nat) : Nat :=
  let a := 128 * line
  (bits a 15 12 ^^^ bits a 19 16 ^^^ bits a 23 20) / 4

/-- A die's bit in the waiter table of a line, where the table of its home has room (12 R271). -/
def addWaiter (d line : Nat) (t : BitVec 6) (s : State) : State :=
  let w : Waiter := ⟨line, d, t⟩
  let entries := ((s.waiters.filter fun x => homeDie x.line = homeDie line).map Waiter.line).eraseDups
  if s.waiters.contains w then s
  else if entries.contains line ∨ entries.length < 1024 then { s with waiters := s.waiters ++ [w] }
  else s

/-- The tags an acquire load at `.dev` received, as the tags a line may be kept for (12 R271, R272). -/
def keepTags (tags : List (Option (Nat × Half))) : List (Nat × Half) :=
  match tags with
  | some t :: r => if r.all (· == some t) then [t] else []
  | _ => []

/-- The release tag of the line of a local address. -/
def tagOf (s : State) (fpa : Nat) : Option (Nat × Half) := if s.isHbm fpa then lookup s.tags (lineOf fpa) else none

/-- The scope of an access that reaches these physical addresses: the host window raises it to `.sys` (01 R20), switch memory to `.fab`
(01 R24). -/
def raisedScope (s : State) (places : List Nat) (scope : Scope) : Scope :=
  if places.any s.inWindow then .sys
  else if places.any isSwitch && scope != .sys then .fab
  else scope

/-- A die's clean copy of a line that an acquire load has read newer at the home is not kept, whatever its mark (13 R300, R304;
log entry 93). -/
def dropOutrun (d : Nat) (fpas : List Nat) (s : State) : State :=
  fpas.foldl (fun s fpa =>
    match (s.die d).line? (lineOf fpa) with
    | some l => if l.twin.isNone && l.version != s.version16 (lineOf fpa) then dropCopy d (lineOf fpa) s else s
    | none => s) s

/-- `mwatch`: an acquire load that arms the monitor (05 R166). -/
def monitorWatch (sh : Shape) (d va : Nat) (s : State) : State :=
  if va % 4 != 0 then objTrap 3 2 va false s
  else
    match translate true false va s with
    | (s1, .bad w) => takeTrap w.group w.code (faultRec w (if w.group = 10 then 0 else 4) false 0 0 0).det 0 0 s1.g.cur s1
    | (s1, .wait) => stall s1
    | (s1, .ok fpa e) =>
      let far := !s1.isLocal fpa
      match readAt s1.agent (if far then .far else .home) e fpa 4 s1 with
      | .bad w s2 => takeTrap w.group w.code (faultRec w (if w.group = 10 then 0 else 4) false 0 0 0).det 0 0 s2.g.cur s2
      | .wait s2 => stall s2
      | .ok b s2 =>
        let line := lineOf fpa
        let s3 := if s2.isHbm fpa && e.twin then addWaiter s2.g.die.toNat line s2.g.tenant s2 else s2
        withAcquire (raisedScope s2 [fpa] (if far then .fab else .dev)) (keepTags [tagOf s2 fpa]) (fun s =>
          openWindow sh none ((s.setR fun r => r.setS d (BitVec.ofNat 64 (ofBytes b))).setG fun g =>
            { g with monitor := some ⟨BitVec.ofNat 64 va, line, s.version line⟩ })) (dropOutrun s3.g.die.toNat [fpa] s3)

/-- A watched line changed since the watch (05 R167). -/
def monitorHit (s : State) (g : Gang) : Bool :=
  match g.monitor with
  | some m => s.version m.line != m.version
  | none => false

/-- `mwait` returns a code and disarms the monitor. -/
def monitorDone (d code : Nat) (s : State) : State :=
  (s.setR fun r => r.setS d (BitVec.ofNat 64 code)).setG fun g => { g with monitor := none, wait := .none, parkedWait := none }

/-- `mwait` (05 R166, R167): a write that came wins over a limit that passed. One that a trap ended blocks again with what its limit had
left (05 R168). -/
def monitorWait (d n : Nat) (s : State) : State :=
  if s.g.monitor.isNone then monitorDone d 2 s
  else if monitorHit s s.g then monitorDone d 0 s
  else
    match s.g.wait with
    | .woken c => monitorDone d c s
    | .mwait _ _ => stall s
    | _ =>
      let left := s.g.parkedWait.getD (if n = 0 then none else some n)
      stall (s.setG fun g => { g with wait := .mwait d (left.map fun m => s.clk + m), parkedWait := none })

/-- `sleep` (05 R166). -/
def sleepWord (n : Nat) (s : State) : State :=
  match s.g.wait with
  | .woken _ => s.setG fun g => { g with wait := .none }
  | .sleep _ => stall s
  | _ => if n = 0 then s else stall (s.setG fun g => { g with wait := .sleep (s.clk + n) })

/-- `mwatch` (05 R166). -/
def execMwatch (d : BitVec 5) (b : BitVec 5) (l : BitVec 4) (s : State) : Out :=
  .next (issue ({ major := 0x1D, sr := [b.toNat], sw := [d.toNat], la := l.toNat }) (fun s => monitorWatch ({ major := 0x1D, sr := [b.toNat], sw := [d.toNat], la := l.toNat }) d.toNat (s.src.sreg b.toNat).toNat s) s)

/-- `mwait` (05 R166, R167). -/
def execMwait (d : BitVec 5) (b : BitVec 5) (s : State) : Out :=
  .next (issue ({ major := 0x1D, sr := [b.toNat], sw := [d.toNat], la := 0 }) (fun s => monitorWait d.toNat (s.src.sreg b.toNat).toNat s) s)

/-- `sleep` (05 R166). -/
def execSleep (a : BitVec 5) (s : State) : Out :=
  .next (issue ({ major := 0x1D, sr := [a.toNat], sw := [], la := 0 }) (fun s => sleepWord ((s.src.sreg a.toNat).toNat % 2 ^ 32) s) s)

/-- `mclear` (05 R166). -/
def execMclear (l : BitVec 4) (s : State) : Out :=
  .next (issue ({ major := 0x1D, sr := [], sw := [], la := l.toNat }) (fun s => openWindow ({ major := 0x1D, sr := [], sw := [], la := l.toNat }) none (s.setG fun g => { g with monitor := none })) s)

end Sys2Proof.Machine
end

