-- ==== Sys2Proof/Machine/Engine.lean ====
section
/-! DEFINITION. What the engines share: a command's acceptance through the operand log, an engine's accesses, tiles it holds, sector
counts, the detail of its faults, and how a command ends (06 R174, R175; 08 R198-R211, R220-R222; 10 R240, R246-R249). -/

namespace Sys2Proof.Machine

/-! ## Acceptance (06 R175, 08 R201) -/

/-- What an engine answers to a command: done, rejected with a fault, that the word waits at issue, or that it goes on later from its
entry, which stands in flight. -/
inductive Accept where
  | done (s : State)
  | bad (f : FaultRec) (s : State)
  | wait (s : State)
  | pending (s : State)

/-- The lowest lane of a mask (08 R201). -/
def leaderOf (m : Word) : Fin 32 := (laneList m).headD 0

/-- The ensemble of the gang whose turn it is is being evicted: no new command is accepted (18 R401). -/
def State.leaving (s : State) : Bool :=
  match s.crew? s.g.crew with
  | some c =>
    match s.ensemble? c.ensemble with
    | some e => e.state = .evicting
    | none => false
  | none => false

/-- An entry whose command is rejected: the leader lane is parked (06 R175). -/
def rejectedEntry (a : Access) (f : FaultRec) (seq : Nat) : LogEntry :=
  { LogEntry.empty with
    state := .faulted, replay := true, engine := true, acc := some a, parked := [⟨leaderOf a.lanes, f⟩], seq := seq }

/-- The entry of a command that may go on later: the one it has in flight, else a new one, for whose result the words past its window
wait. -/
def ownEntry (a : Access) (e : Nat) (s : State) : LogEntry × State :=
  if (s.g.entry e).state = .inFlight then (s.g.entry e, s)
  else ({ a.newEntry s with engine := true, holds := true }, { s with nextId := s.nextId + 1 })

/-- The command stands in its entry. -/
def standIn (e : Nat) (x : LogEntry) (s : State) : Accept :=
  .pending (s.setG fun g => g.setEntry e { x with recs := some (x.recs.getD []) })

/-- The command is tried again from its entry. -/
def tryLater (a : Access) (e : Nat) (s : State) : Accept := standIn e (ownEntry a e s).1 (ownEntry a e s).2

/-- An engine command word: with no lane in its mask it has no effect; without a free entry, or while its engine cannot take it, it
waits holding nothing. It stands behind the gang's accesses in flight (06 R173; 08 R210; 13 R320). Words to the dispatch engine wait for those in
their entries, and are taken while the ensemble leaves too (18 R391). -/
def engineWord (sh : Shape) (mk : State → Access) (accept : Access → Nat → State → Accept) (s : State) : State :=
  let a := mk s
  if a.lanes = 0 then openWindow sh none s
  else if s.leaving && sh.major != 0x30 then block s
  else if s.g.opens && sh.major != 0x30 then stall s
  else
    match s.g.freeEntry with
    | none => stall s
    | some e =>
      match accept a e s with
      | .done s1 => openWindow sh none s1
      | .wait s1 => block s1
      | .pending s1 => openWindow sh (some e) s1
      | .bad f s1 =>
        openWindow sh (some e) ({ s1 with nextId := s1.nextId + 1 }.setG fun g => g.setEntry e (rejectedEntry a f s1.nextId))

/-- A command's operands: the mask P[k] and `%emask`, three scalar values and a control word. -/
def captureEngine (major op reg : Nat) (lanes : Word) (base idx extra ctl : Dword) (s : State) : Access :=
  { capture ⟨.engine major op, false, true, 8, 0, .gang, reg⟩ lanes base idx extra (Lanes.all 0) [] s with ctl := ctl }

/-- P[k] and `%emask` (08 R201). -/
def leaders (k : Nat) (s : State) : Word := s.src.preg k &&& s.emask

/-! ## The detail of groups 7, 8 and 9 (08 R222, 10 R249) -/

def engineDetail (addr kind : Nat) (two : Bool) (entry leader ident extra : Nat) (suspended : Bool) : BitVec 96 :=
  BitVec.ofNat 96 (addr % 2 ^ 64 + kind % 8 * 2 ^ 64 + (if two then 2 ^ 68 else 0) + entry % 4 * 2 ^ 69 + leader % 32 * 2 ^ 71 +
    ident % 256 * 2 ^ 76 + min extra 2047 * 2 ^ 84 + (if suspended then 2 ^ 95 else 0))

/-- A rejection at acceptance. -/
def reject (group code addr kind ident entry : Nat) (a : Access) (s : State) : Accept :=
  .bad ⟨causeOf group code, engineDetail addr kind false entry (leaderOf a.lanes).val ident 0 false⟩ s

/-- A failed access as an engine's code: translation, permission, remote, compressed index (08 R221, 10 R248). A mapping that
coherence refuses (group 10) counts as a translation failure, DESIGN CHOICE (log entry 105). -/
def engineCode (w : Why) : Nat :=
  match w.group with
  | 1 => 0x10
  | 2 => if w.code = 0x0A then 0x25 else 0x11
  | 10 => 0x10
  | _ => 0x12

/-! ## An engine's accesses (08 R210) -/

/-- An engine acts for a gang: its core, tenant and node. -/
structure Client where
  ag : Agent
  node : Word
  deriving DecidableEq, Repr, Inhabited

/-- For the gang whose turn it is. -/
def State.client (s : State) : Client := ⟨{ s.agent with straddle := false }, s.g.node⟩

def Client.xl (k : Client) (read write : Bool) (va : Nat) (s : State) : State × Xl :=
  translateFor k.ag.tenant (s.tenant k.ag.tenant).priv (s.fillNode k.node) read write va s

/-- A read through the die cache, which holds all that the core's L1 has written. -/
def Client.read (k : Client) : Reader := fun va n s =>
  match k.xl true false va s with
  | (s1, .ok fpa e) => readAt k.ag .die e fpa n s1
  | (s1, .bad w) => .bad w s1
  | (s1, .wait) => .wait s1

/-- A read of a byte about to be rewritten: the write right alone is checked. -/
def Client.readForWrite (k : Client) : Reader := fun va n s =>
  match k.xl false true va s with
  | (s1, .ok fpa e) => readAt k.ag .die e fpa n s1
  | (s1, .bad w) => .bad w s1
  | (s1, .wait) => .wait s1

/-- A write as a store of the issuing die; the core's L1 copy of the line goes. Remote bytes are posted under the command's number. -/
def Client.write (k : Client) (cmd : Nat) : Writer := fun va bs s =>
  match k.xl false true va s with
  | (s1, .ok fpa e) =>
    if s1.isLocal fpa then
      match updAt k.ag .die e .store va fpa bs.length (fun _ => bs) s1 with
      | .ok b s2 => .ok b (dropL1 k.ag.core (fun x => x / 4 = lineOf fpa) s2)
      | r => r
    else
      match switchGone s1 fpa with
      | some w => .bad w s1
      | none =>
        let line := lineOf fpa
        .ok [] (dropPeer k.ag.die line
          (sendPacket fpa 0 (.write line (mergeWc (List.replicate 128 none) (fpa % 128) bs)) [] cmd k.node k.ag.tenant false
            (drainEntry k.ag.core line s1)))
  | (s1, .bad w) => .bad w s1
  | (s1, .wait) => .wait s1

/-- The writes of an engine's step have landed in its die (12 R262). -/
def Got.land {α : Type} (d : Nat) (x : Got α) : Got α :=
  match x with
  | .ok a s => .ok a (landWrites d s)
  | .bad w s => .bad w (landWrites d s)
  | .wait s => .wait (landWrites d s)

/-- Bytes written from an address, in runs that stay inside one 32-byte sector. -/
def writeLong (wr : Writer) : Nat → Nat → List Byte → State → Done
  | 0, _, _, s => .ok [] s
  | f + 1, va, bs, s =>
    if bs.isEmpty then .ok [] s
    else
      let m := min bs.length (32 - va % 32)
      (wr va (bs.take m) s).next fun _ s => writeLong wr f (va + m) (bs.drop m) s

/-- A sequence of accesses, one per element, that stops at the first which does not succeed. -/
def eachGot {α β : Type} (f : α → β → State → Got β) : List α → β → State → Got β
  | [], b, s => .ok b s
  | a :: r, b, s => (f a b s).next fun b s => eachGot f r b s

/-! ## Sorted sets of numbers -/

def insertNat (x : Nat) : List Nat → List Nat
  | [] => [x]
  | y :: r => if x < y then x :: y :: r else if x = y then y :: r else y :: insertNat x r

def sortedNats (l : List Nat) : List Nat := l.foldl (fun a x => insertNat x a) []

/-- Elements in ascending order of a key, equal keys in their order. -/
def insertBy {α : Type} (key : α → Nat) (x : α) : List α → List α
  | [] => [x]
  | y :: r => if key x < key y then x :: y :: r else y :: insertBy key x r

def sortBy {α : Type} (key : α → Nat) (l : List α) : List α := l.foldl (fun a x => insertBy key x a) []

/-! ## Boxes (08 R205) -/

/-- The offsets of a box in ascending b0, then b1, b2, b3. -/
def boxOf (ext : List Nat) : List (List Int) :=
  let e (k : Nat) : List Nat := List.range (ext.getD k 1)
  (e 3).flatMap fun d : Nat => (e 2).flatMap fun c : Nat => (e 1).flatMap fun b : Nat => (e 0).map fun a : Nat => [(a : Int), (b : Int), (c : Int), (d : Int)]

def addCoords (c b : List Int) : List Int := (List.range 4).map fun k => coordAt c k + coordAt b k

/-- The bit of the image at which an element starts. -/
def Rec.bitOf (R : Rec) (b : List Int) : Nat := 8 * (R.place b).1 + (R.place b).2

/-- The bytes that a box occupies from its start, ascending. -/
def Rec.boxBytes (P : Rec) : List Nat :=
  sortedNats ((boxOf P.ext).flatMap fun b => (List.range P.cbytes).map fun j => (P.place b).1 + j)

/-- No byte that holds a bit of a box element also holds a bit of none (08 R205). -/
def Rec.boxDense (P : Rec) : Bool :=
  if P.elem.cont = 0 then
    let q := 8 / P.elem.fmt.width
    let offs := (boxOf P.ext).map P.offset
    offs.all fun o => (List.range q).all fun j => offs.contains (o / q * q + j)
  else true

/-- 32-byte sectors of the window that bytes at an address occupy (08 R211). -/
def windowSectors (w : Nat) (bytes : List Nat) : List Nat := sortedNats (bytes.map fun o => (w + o) / 32)

/-- Bytes of a crew's allocation, in the near half (08 R207). -/
def Crew.holds (c : Crew) (w : Nat) (bytes : List Nat) : Bool :=
  bytes.all fun o => w + o < 2 ^ 20 && c.offset ≤ w + o && w + o < c.offset + c.size

/-- The tiles of an allocation that bytes at a window address touch. -/
def Crew.tilesOf (c : Crew) (w : Nat) (bytes : List Nat) : List Nat := sortedNats (bytes.map fun o => (w + o - c.offset) / 4096)

/-- A 16-byte object of the allocation (08 R221). -/
def Crew.barrierOk (c : Crew) (a : Nat) : Bool := a % 16 = 0 && a < 2 ^ 20 && c.offset ≤ a && a + 16 ≤ c.offset + c.size

/-- Bytes of a crew's pad written at a window address, without an owner check. -/
def padWrite (c : Crew) (swz w : Nat) (bs : List Byte) (s : State) : State :=
  { s with spad := s.spad.write (c.key (swizzle swz w - c.offset)) bs }

def padRead (c : Crew) (swz w n : Nat) (s : State) : List Byte := s.spad.read (c.key (swizzle swz w - c.offset)) n

/-- An element's code put at a place of the pad. -/
def padPut (c : Crew) (P : Rec) (w : Nat) (b : List Int) (code : Nat) (s : State) : State :=
  let (o, bit) := P.place b
  if P.elem.cont = 0 then padWrite c P.swz (w + o) (putBits (padRead c P.swz (w + o) 1 s) bit P.elem.fmt.width code) s
  else padWrite c P.swz (w + o) (toBytes P.cbytes code) s

def padCode (c : Crew) (P : Rec) (w : Nat) (b : List Int) (s : State) : Nat :=
  let (o, bit) := P.place b
  P.code (padRead c P.swz (w + o) P.cbytes s) bit

/-! ## Tiles held by commands (01 R30, 08 R207) -/

def holdTiles (uid : Nat) (ts : List Nat) (id : Nat) (s : State) : State :=
  s.setCrew uid fun c => { c with tiles := ts.foldl (fun l t => upsert l t (((lookup l t).getD []) ++ [id])) c.tiles }

/-- A command ends: tiles it was the last to hold go back to the gangs. -/
def releaseTiles (id : Nat) (s : State) : State :=
  { s with crews := s.crews.map fun c => { c with
      tiles := c.tiles.filterMap fun (t, ids) =>
        if ids.contains id then (if (ids.filter (· != id)).isEmpty then none else some (t, ids.filter (· != id))) else some (t, ids) } }

/-! ## Sector counts (08 R211, R220) -/

/-- n sectors of a barrier of a crew counted. -/
def countSectors (c : Crew) (barrier n : Nat) (s : State) : State :=
  let k := c.key (barrier - c.offset)
  let x := barrierAt s k
  barComplete k (setBarrier k (putSectors x (sectorsOf x - n)) s)

/-- The barrier's fault field (08 R220). -/
def barrierFault (c : Crew) (barrier group code : Nat) (s : State) : State :=
  let k := c.key (barrier - c.offset)
  setBarrier k (putField (barrierAt s k) 95 80 (group * 256 + code)) s

/-- A report queued at a gang (08 R220). -/
def queueReport (gang : Nat) (r : EngineReport) (s : State) : State := s.updGang gang fun g => { g with engReports := g.engReports ++ [r] }

/-- A byte that an abandoned command leaves unspecified (08 R220). -/
def unspecified (n : Nat) (s : State) : List Byte × State :=
  ((List.range n).map fun k => Config.unspecifiedByte (s.tick + k), { s with tick := s.tick + n })

/-- The state of a stochastic source for a command (08 R206, 10 Drains). -/
def seedOf (x gangNo : Nat) : Half := srndFix (BitVec.ofNat 16 (0x1D87 ^^^ x % 2 ^ 16 ^^^ gangNo * 0x2469 % 2 ^ 16))

def stepFor (mode : RMode) (rnd : Half) : Half := if mode = .rs then srndFix (srndStep rnd) else rnd

/-- The mode a field of a checked command names. -/
def modeCode (code : Nat) : RMode := (RMode.ofCode code).getD .rne

end Sys2Proof.Machine
end

