-- ==== Sys2Proof/Machine/CohWords.lean ====
section
/-! DEFINITION. Meanings: acquire loads, release stores, fences, cache maintenance, `mcas` and translation invalidation, majors 0x28-0x2B (12 R270-R292). -/

namespace Sys2Proof.Machine

/-! ## Acquire loads and release stores (12 R274) -/

def mopAt (k : MemKind) (scope reg : Nat) : MemOp := ⟨k, false, false, 4, 0, scopeOf scope, reg⟩

/-- Where the addresses of lanes land, for those that are not parked. -/
def landed (a : Access) (m : Word) (p : Progress) (s : State) : List Nat :=
  ((laneList m).filter fun L => p.parked.all fun x => x.lane != L).filterMap fun L =>
    (s.tlbHit s.g.tenant (a.addr L)).map fun e => e.fpa + (a.addr L - e.base)

/-- An acquire load goes on: its lanes, each with the release tag it receives, then, with none left, its acquire. Lines keep their copies by tag
where no lane parked and every one received it (12 R272). An access to the host window or to switch memory raises the scope (01 R20, R24). -/
def acquireLanes (e : Nat) (x0 : LogEntry) (a : Access) (s : State) : State :=
  let (p, s1) := perform x0 a e x0.todo x0.parked s
  let x : LogEntry := { x0 with tags := x0.tags ++ (landed a (x0.todo &&& ~~~p.todo) p s1).map fun y => tagOf s1 y }
  if p.todo != 0 then settle e x p s1
  else
    let places := landed a a.active p s1
    let scope := raisedScope s1 places a.op.scope
    let keep := if p.parked.isEmpty ∧ scope = .dev then keepTags x.tags else []
    match acquireAt s1.g.coreIx s1.straddles scope keep (if scope = .dev then dropOutrun s1.g.die.toNat places s1 else s1) with
    | none => s1.setG fun g => g.setEntry e { x with todo := 0, parked := p.parked, blocks := p.blocks }
    | some s2 => settle e x p s2

/-- `ld.acq` (12 R274): no later memory word of the gang issues before it completes (12 R272). -/
def acquireLoad (sh : Shape) (a : Access) (s : State) : State :=
  if a.active = 0 then openWindow sh none s
  else
    match s.g.freeEntry with
    | none => stall (joinFaulted s)
    | some e =>
      if s.g.busyBeyondReleases || overlapsFlight s a then stall s
      else
        let x : LogEntry := { a.newEntry s with todo := a.active }
        let s1 := acquireLanes e x a { s with nextId := s.nextId + 1 }
        openWindow sh (if (s1.g.entry e).state = .free then none else some e) s1

/-- The twin-mode lines of this package that a store's lanes name. -/
def flagLines (a : Access) (s : State) : List Nat × State :=
  (laneList a.active).foldl (fun (l, s) L =>
    match translate false true (a.addr L) s with
    | (s1, .ok fpa e) => if s1.isHbm fpa && e.twin then (insertNat (lineOf fpa) l, s1) else (l, s1)
    | (s1, _) => (l, s1)) ([], s)

/-- The scope of a release store, as its lanes' places raise it. -/
def storeScope (a : Access) (s : State) : Scope :=
  raisedScope s ((laneList a.active).filterMap fun L => (s.tlbHit s.g.tenant (a.addr L)).map fun e => e.fpa + (a.addr L - e.base)) a.op.scope

/-- The numbers of records, of releases, of accesses in flight and of packets on their way: some of these are not done yet. -/
def State.awaits (s : State) (ids : List Nat) : Bool :=
  (s.records.any fun r => ids.contains r.id) || (s.releases.any fun r => ids.contains r.id) ||
    (s.packets.any fun p => ids.contains p.id || (p.cmd != 0 && ids.contains p.cmd)) ||
    s.allGangs.any fun g => (g.olog.toList ++ g.hlog.toList).any fun x => x.state = .inFlight && ids.contains x.seq

/-- The release of a log entry's word is not complete: a record of it is not acknowledged or, at fabric scope, an operation of the gang, or
an earlier signal, is not (12 R270). -/
def relWaits (scope : Scope) (x : LogEntry) (s : State) : Bool :=
  s.awaits (x.recs.getD []) ||
    (scopeFabric scope && (s.g.outstanding != 0 || s.releases.any fun r => r.gang = s.g.uid && r.signal.isSome && r.id < x.seq))

/-- The release of a log entry's word begins (12 R270). -/
def relBegin (scope : Scope) (fwd : List Nat) (x : LogEntry) (s : State) : LogEntry × State :=
  let (ids, s1) := releaseBegin scope fwd s
  ({ x with recs := some ids, relNo := (s1.die s1.g.die.toNat).relNo }, s1)

/-- A command behind its release (12 R270; 18 R392): from its entry it waits for the gang's accesses in front of it, then for the release, and
then has the rest of its effect. The entry's mask says that the release has begun. -/
def behindRelease (scope : Scope) (a : Access) (e : Nat) (k : State → Accept) (s : State) : Accept :=
  let (x, s1) := ownEntry a e s
  if x.todo = 0 && s1.g.log.toList.any (fun y => y.state = .inFlight && y.seq < x.seq) then standIn e x s1
  else
    let (y, s2) := if x.todo = 0 then relBegin scope [] x s1 else (x, s1)
    let z := { y with todo := 1 }
    if relWaits scope z s2 then standIn e z s2
    else
      match k s2 with
      | .wait s3 => standIn e z s3
      | r => r

/-- A fence of the gang in front of an entry has a release that is not complete: no write behind it is seen first (12 R275; 13 R297). -/
def Gang.behindFence (g : Gang) (x : LogEntry) : Bool := g.log.toList.any fun y => y.flies MemKind.fences && y.seq < x.seq

/-- A release store goes on (12 R271, R274): its release begins, at the scope that its lanes' places give it (01 R20, R24), with copies of its
records for the dies that wait on the flag's lines; behind it the lanes are performed and the waiter entries cleared. -/
def relStore (e : Nat) (x : LogEntry) (a : Access) (s : State) : State :=
  let (lines, s1) : List Nat × State := flagLines a s
  let scope : Scope := storeScope a s1
  let (y, s2) : LogEntry × State := match x.recs with
    | some _ => (x, s1)
    | none =>
      let fwd : List Nat := if scope = Scope.dev then sortedNats ((s1.waiters.filter fun w => lines.contains w.line).map Waiter.die) else []
      relBegin scope fwd x s1
  if relWaits scope y s2 || s2.g.behindFence y then s2.setG fun g => g.setEntry e y
  else
    let (p, s3) := perform y a e y.todo y.parked s2
    settle e y p (if scope = Scope.dev then { s3 with waiters := s3.waiters.filter fun w => !lines.contains w.line } else s3)

/-- `st.rel` takes its entry; while the release is not complete the gang goes on (12 R270). -/
def releaseStore (sh : Shape) (a : Access) (s : State) : State :=
  if a.active = 0 then openWindow sh none s
  else
    match s.g.freeEntry with
    | none => stall (joinFaulted s)
    | some e =>
      if s.g.opens then stall s
      else
        let p := a.early e s
        let s1 := relStore e { a.newEntry s with todo := p.todo, parked := p.parked } a { s with nextId := s.nextId + 1 }
        openWindow sh (if (s1.g.entry e).state = .free then none else some e) s1

/-! ## Fences (12 R275) -/

/-- A fence covering fabric scope takes queued reports when its drain is done (06 R192). -/
def takeReports (scope : Scope) (s : State) : State :=
  if scopeFabric scope && !s.g.reports.isEmpty then s.setG fun g => { g with reportDue := true } else s

/-- A fence goes on: its release, then its acquire; done, it leaves its entry. -/
def fenceStep (rel acq : Bool) (scope : Scope) (e : Nat) (x : LogEntry) (s : State) : State :=
  let (y, s1) := if x.recs.isNone && rel then relBegin scope [] x s else (x, s)
  if rel && relWaits scope y s1 then s1.setG fun g => g.setEntry e y
  else
    match (if acq then acquireAt s1.g.coreIx s1.straddles scope [] s1 else some s1) with
    | some s2 => (if rel then takeReports scope s2 else s2).setG fun g => g.setEntry e LogEntry.empty
    | none => s1.setG fun g => g.setEntry e { y with recs := some [] }

/-- A fence takes an entry (06 R174). The gang goes on while it is not complete, but behind one that covers fabric scope it waits, for the
reports taken there stand in front of the next group (06 R192). -/
def fenceWord (rel acq : Bool) (scope : Scope) (s : State) : State :=
  match s.g.freeEntry with
  | none => stall (joinFaulted s)
  | some e =>
    if s.g.opens then stall s
    else
      let a := capture ⟨.fence rel acq, false, true, 8, 0, scope, 0⟩ 0 0 0 0 (Lanes.all 0) [] s
      fenceStep rel acq scope e { a.newEntry s with join := scopeFabric scope, holds := scopeFabric scope } { s with nextId := s.nextId + 1 }

def fenceRelease (scope : Scope) (s : State) : State := fenceWord true false scope s
def fenceAcquire (scope : Scope) (s : State) : State := fenceWord false true scope s
def fenceBoth (scope : Scope) (s : State) : State := fenceWord true true scope s

/-! ## Cache maintenance over a range (12 R283-R286) -/

/-- A page's part of a range: its first line, its lines, whether dirty lines may be discarded. -/
structure RangePart where
  first : Nat
  lines : Nat
  discard : Bool
  deriving DecidableEq, Repr

/-- The parts of a range in this package, page by page; the first page that fails. -/
def rangeParts (op : Nat) : Nat → Nat → Nat → State → Got (List RangePart)
  | 0, _, _, s => .ok [] s
  | f + 1, va, n, s =>
    if n = 0 then .ok [] s
    else
      let m := min n (4096 - va % 4096)
      match translate (op != 5) false va s with
      | (s1, .wait) => .wait s1
      | (s1, .bad w) => .bad w s1
      | (s1, .ok fpa e) =>
        let free := s1.privileged || e.discard
        let rest (s : State) : Got (List RangePart) :=
          (rangeParts op f (va + m) (n - m) s).next fun l s =>
            .ok (if s.isLocal fpa then ⟨lineOf fpa, m / 128, free⟩ :: l else l) s
        if op = 4 && free then
          match translate true true va s1 with
          | (s2, .wait) => .wait s2
          | (s2, .bad w) => .bad w s2
          | (s2, .ok _ _) => rest s2
        else rest s1

/-- The part that holds a line. -/
def partOf (ps : List RangePart) (line : Nat) : Option RangePart := ps.find? fun p => p.first ≤ line && line < p.first + p.lines

/-- An owned grain written back by its owner, which keeps a shared copy. -/
def writeBackGrain (d : Nat) (g : GrainCopy) (s : State) : State :=
  let n := g.data.length / 32
  let e := s.dirEntry g.base n
  if e.owner = some d then
    (bumpLines (grainLines g.base n) { s with mem := s.mem.write (32 * g.base) g.data }).setDir
      { e with owner := none, sharers := [d], version := e.version + 1 }
  else s

/-- A die's copy of a grain goes; an owner's returns unwritten. -/
def discardGrain (d : Nat) (g : GrainCopy) (s : State) : State :=
  let n := g.data.length / 32
  let e := s.dirEntry g.base n
  if e.owner = some d then recallGrain e false s
  else (dropGrain d g.base n s).setDir { e with sharers := e.sharers.filter (· != d) }

/-- The part of a range that a grain stands in. -/
def partOfGrain (ps : List RangePart) (g : GrainCopy) : Option RangePart :=
  (grainLines g.base (g.data.length / 32)).findSome? fun l => partOf ps l

/-- `cwb.range` on a die. -/
def cleanRange (d : Nat) (ps : List RangePart) (s : State) : State :=
  let s1 := ((s.die d).dirty.filter fun l => (partOf ps l).isSome).foldl (fun s l => publish d l .maintenance [] s) s
  ((s1.die d).grains.filter fun g => (partOfGrain ps g).isSome).foldl (fun s g => writeBackGrain d g s) s1

/-- `cinv.range` on a die, and whether a dirty line had to be published or written back. -/
def dropRange (d : Nat) (ps : List RangePart) (s : State) : State × Bool :=
  let lines := (s.die d).lines.filter fun l => (partOf ps l.line).isSome
  let kept (l : LineCopy) : Bool := l.twin.isSome && match partOf ps l.line with
    | some p => !p.discard
    | none => false
  let s1 := lines.foldl (fun s l => dropCopy d l.line (if kept l then publish d l.line .maintenance [] s else s)) s
  let grains := (s1.die d).grains.filter fun g => (partOfGrain ps g).isSome
  let held (s : State) (g : GrainCopy) : Bool := (s.dirEntry g.base (g.data.length / 32)).owner = some d && match partOfGrain ps g with
    | some p => !p.discard
    | none => false
  let s2 := grains.foldl (fun s g => discardGrain d g (if held s g then writeBackGrain d g s else s)) s1
  (dropL1s d (fun k => (partOf ps (k / 4)).isSome) s2, (lines.any kept) || grains.any (held s1))

/-- Records of maintenance on a die's lines of a range that no home has acknowledged. -/
def rangeRecords (d : Nat) (ps : List RangePart) (s : State) : List Nat :=
  (s.records.filter fun r => r.die = d && r.kind = .maintenance && (partOf ps r.line).isSome).map fun r => r.id

/-- The entry stays in flight until these records are acknowledged (12 R276). -/
def awaitRecords (e : Nat) (x : LogEntry) (ids : List Nat) (s : State) : State :=
  s.setG fun g => g.setEntry e (if ids.isEmpty then LogEntry.empty else { x with recs := some ids })

/-- An entry that parks lane 0 (06 R172). -/
def parkFirst (e : Nat) (a : Access) (f : FaultRec) (stores : List (Dword × Dword)) (s : State) : State :=
  { s with nextId := s.nextId + 1 }.setG fun g => g.setEntry e
    { LogEntry.empty with state := .faulted, replay := true, acc := some a, parked := [⟨0, f⟩], stores := stores, seq := s.nextId }

def capRange (op : Nat) (base len : Dword) (s : State) : Access :=
  capture ⟨.range op, false, true, 8, 0, .dev, 0⟩ 1 base len 0 (Lanes.all 0) [] s

/-- The effect of a maintenance word on a range: done, failed, or waiting. Where records must be acknowledged, `wait` holds the word. -/
def rangeRun (a : Access) (op : Nat) (s : State) : Got (List Nat) :=
  let n := a.idx.toNat
  let d := s.g.die.toNat
  (rangeParts op (n / 4096 + 2) a.base.toNat n s).next fun ps s =>
    if op = 3 then
      let s1 := cleanRange d ps s
      .ok (rangeRecords d ps s1) s1
    else if op = 4 then
      let (s1, deg) := dropRange d ps s
      .ok (rangeRecords d ps s1) (if deg then s1.flag 0x100 else s1)
    else .ok [] (s.setCore s.g.coreIx fun k => { k with packets := k.packets.filter fun x => (partOf ps x.1).isNone })

/-- The failure of a range: kind 1 where the write right failed, else 0. -/
def rangeFault (e : Nat) (w : Why) : FaultRec := faultRec w (if w.group = 2 && w.code = 2 then 1 else if w.group = 10 then 4 else 0) false e 0 0

/-- A word that cannot act yet stands in its entry, in flight, and the gang goes on to words that are no memory words (12 R276). -/
def standBy (e : Nat) (a : Access) (s : State) : State :=
  { s with nextId := s.nextId + 1 }.setG fun g => g.setEntry e (a.newEntry s)

/-- `cwb.range`, `cinv.range` and `icinv.range`. -/
def rangeWord (sh : Shape) (op : Nat) (base len : Dword) (s : State) : State :=
  let b := base.toNat
  let n := len.toNat
  if b % 128 != 0 || n % 128 != 0 || n < 128 || 2 ^ 30 < n then takeTrap 10 4 (accessDetail b 4 false false 0 0 0) 0 0 s.g.cur s
  else
    match s.g.freeEntry with
    | none => stall (joinFaulted s)
    | some e =>
      if s.g.opens then stall s
      else
      let a := capRange op base len s
      match rangeRun a op s with
      | .ok ids s1 => awaitRecords e (a.newEntry s1) ids { s1 with nextId := s1.nextId + 1 }
      | .wait s1 => standBy e a { s1 with g := s.g }
      | .bad w s1 => openWindow sh (some e) (parkFirst e a (rangeFault e w) [] s1)

/-- `twin.stat` (12 R287). -/
def twinStat (sh : Shape) (d : Nat) (s : State) : State :=
  let D := s.die s.g.die.toNat
  openWindow sh none (s.setR fun r => r.setS d (BitVec.ofNat 64 (D.twinsUsed % 2 ^ 18 + D.capacity % 2 ^ 18 * 2 ^ 18 + D.early.toNat * 2 ^ 36)))

/-! ## `mcas` (12 R279-R282) -/

/-- A word of an `mcas`: its physical address, whether its page is in twin mode, its bytes, the value compared, the new value. -/
structure McWord where
  fpa : Nat
  twin : Bool
  bytes : Nat
  cmp : Nat
  new : Nat
  deriving DecidableEq, Repr

/-- The words as an entry keeps them while it walks the locks. -/
def McWord.pack (w : McWord) : Nat × List Byte := (w.fpa, toBytes 8 w.cmp ++ toBytes 8 w.new ++ [BitVec.ofNat 8 w.bytes, if w.twin then 1 else 0])

def McWord.unpack (x : Nat × List Byte) : McWord :=
  ⟨x.1, x.2.getD 17 0 = 1, (x.2.getD 16 0).toNat, ofBytes (slice x.2 0 8), ofBytes (slice x.2 8 8)⟩

/-- The read and write rights over the pages of the block, from a page on. -/
def blockRights : Nat → Nat → Nat → State → Done
  | 0, _, _, s => .ok [] s
  | f + 1, va, n, s =>
    if n = 0 then .ok [] s
    else
      let m := min n (4096 - va % 4096)
      match translate true true va s with
      | (s1, .wait) => .wait s1
      | (s1, .bad w) => .bad w s1
      | (s1, .ok _ _) => blockRights f (va + m) (n - m) s1

/-- What the checks of a block answer: its words, a failure with its detail's kind and its entry, or a wait. -/
inductive McCheck where
  | ok (ws : List McWord) (s : State)
  | bad (w : Why) (kind entry : Nat) (s : State)
  | wait (s : State)

/-- A word in a reserved range or the weight store is outside the package's HBM, once its write right stands (12 R280, R291). -/
def mcWhy (va : Nat) (w : Why) (s : State) : Why :=
  match s.tlbHit s.g.tenant va with
  | some e =>
    if w.group = 2 && (w.code = 4 || (w.code = 3 && (!e.priv || s.privileged))) then
      (if !e.write then ⟨2, 2, va, false⟩ else if !e.write2 then ⟨2, 2, va, true⟩ else ⟨10, 2, va, false⟩)
    else w
  | none => w

/-- The checks of the entries, in block order. -/
def mcWords (wide : Nat) : List (Nat × List Byte) → List McWord → State → McCheck
  | [], ws, s => .ok ws s
  | (i, b) :: rest, ws, s =>
    let va := ofBytes (slice b 0 8)
    let n := if bits wide i i = 1 then 8 else 4
    if va % n != 0 then .bad ⟨3, 1, va, false⟩ 1 i s
    else
      match translate false true va s with
      | (s1, .wait) => .wait s1
      | (s1, .bad w) =>
        let y := mcWhy va w s1
        .bad y (if y.group = 10 then 2 else 1) i s1
      | (s1, .ok fpa e) =>
        if !s1.isHbm fpa then .bad ⟨10, 2, va, false⟩ 2 i s1
        else if ws.any fun x => fpa < x.fpa + x.bytes && x.fpa < fpa + n then .bad ⟨10, 3, va, false⟩ 2 i s1
        else mcWords wide rest (ws ++ [⟨fpa, e.twin, n, ofBytes (slice b 8 n), ofBytes (slice b 16 n)⟩]) s1

/-- The kind of a failure of the block's pages: 3, an `mcas` block, in group 10 (12 R292), else a load (06 R177). -/
def blockKind (w : Why) : Nat := if w.group = 10 then 3 else 0

/-- A block checked before any lock is taken (12 R280). -/
def mcCheck (blk : Nat) (s : State) : McCheck :=
  if blk % 16 != 0 then .bad ⟨3, 1, blk, false⟩ 0 0 s
  else
    match blockRights 2 blk 16 s with
    | .wait s1 => .wait s1
    | .bad w s1 => .bad w (blockKind w) 0 s1
    | .ok _ s1 =>
      match gangRead [] s1.agent blk 16 s1 with
      | .wait s2 => .wait s2
      | .bad w s2 => .bad w (blockKind w) 0 s2
      | .ok h s2 =>
        let n := (h.getD 0 0).toNat
        let wide := (h.getD 1 0).toNat
        let good := 2 ≤ n && n ≤ 8
        match blockRights 3 blk (16 + 32 * (if good then n else 0)) s2 with
        | .wait s3 => .wait s3
        | .bad w s3 => .bad w (blockKind w) 0 s3
        | .ok _ s3 =>
          if !good || 2 ^ n ≤ wide || (h.drop 2).any (· != 0) then .bad ⟨10, 1, blk, false⟩ 3 0 s3
          else
            match readLong (gangRead [] s3.agent) (linesFor 256) (blk + 16) (32 * n) s3 with
            | .wait s4 => .wait s4
            | .bad w s4 => .bad w (blockKind w) 0 s4
            | .ok b s4 => mcWords wide ((List.range n).map fun i => (i, slice b (32 * i) 32)) [] s4

/-- The fault of a check: a group-10 detail has the `mcas` entry in bits 78:76 (12 R292). -/
def mcFault (e : Nat) (w : Why) (kind entry : Nat) : FaultRec :=
  if w.group = 10 then ⟨causeOf 10 w.code, accessDetail w.addr kind false w.stage2 e 0 entry⟩ else faultRec w kind false e 0 0

/-- The lines of the words, ascending. -/
def mcLines (ws : List McWord) : List Nat := sortedNats (ws.map fun w => lineOf w.fpa)

/-- Before any lock is asked: changed bytes of the words leave for their homes (12 R281 step 2). -/
def mcPublish (die : Nat) (ws : List McWord) (s : State) : State := ws.foldl (fun s w => sendChanged die w.fpa w.bytes s) s

/-- Before a line is locked: the records sent ahead of the request stand applied, and owned-mode copies are recalled, or the twin copies of
a line whose words are in owned mode (12 R257, R268, R281). -/
def lockReady (die : Nat) (ws : List McWord) (line : Nat) (s : State) : State :=
  let s1 := recallSectors (4 * line) 4 true (flushRecords die line s)
  if ws.any fun w => lineOf w.fpa = line && !w.twin then ownedService (4 * line) 4 s1 else s1

/-- A line cannot be locked yet: a recall of it is delayed (12 R259), or its version may not advance (12 R264). -/
def lockWaits (line : Nat) (s : State) : Bool := s.versionFull line || s.recallWaits (4 * line) 4

/-- The comparison and the update, with every lock held (12 R282): the words found, and whether all matched. -/
def mcUpdate (ag : Agent) (ws : List McWord) (s : State) : List Nat × Bool × State :=
  let old := ws.map fun w => ofBytes (s.mem.read w.fpa w.bytes)
  let hit := (ws.zip old).all fun x => x.1.cmp = x.2
  if hit then
    let s1 := { s with mem := ws.foldl (fun m w => m.write w.fpa (toBytes w.bytes w.new)) s.mem }
    let s2 := bumpLines (mcLines ws) s1
    (old, true, ws.foldl (fun s w => patchDie ag w.fpa (toBytes w.bytes w.new) s) s2)
  else (old, false, s)

/-- S[sd] (12 R282). -/
def mcResult (ws : List McWord) (old : List Nat) (hit : Bool) : Nat :=
  ((List.range ws.length).filter fun i => (ws.map McWord.cmp).getD i 0 = old.getD i 0).foldl (fun a i => a + 2 ^ i) 0 + (if hit then 2 ^ 63 else 0)

/-- The observed values stored, one after another: a failure parks lane 0 and keeps the stores still to be made, a wait keeps them in
flight. -/
def mcStores (e : Nat) (x : LogEntry) : List (Dword × Dword) → State → State
  | [], s => s.setG fun g => g.setEntry e LogEntry.empty
  | (va, v) :: rest, s =>
    match gangWrite s.agent va.toNat (toBytes 8 v.toNat) s with
    | .ok _ s1 => mcStores e x rest (landWrites s1.g.die.toNat s1)
    | .wait s1 => s1.setG fun g => g.setEntry e { x with state := .inFlight, todo := 1, parked := [], stores := (va, v) :: rest, got := [] }
    | .bad w s1 => s1.setG fun g => g.setEntry e
        { x with state := .faulted, replay := true, todo := 0, parked := [⟨0, faultRec w 1 false e 0 0⟩], stores := (va, v) :: rest, got := [] }

/-- The event of an `mcas` whose locks are all held, and the end of its word. -/
def mcFinish (e : Nat) (x : LogEntry) (a : Access) (ws : List McWord) (s : State) : State :=
  let (old, hit, s1) := mcUpdate s.agent ws s
  let s2 := s1.setR fun r => r.setS a.op.reg (BitVec.ofNat 64 (mcResult ws old hit))
  mcStores e x (old.zipIdx.map fun y => (a.base + BitVec.ofNat 64 (40 + 32 * y.2), BitVec.ofNat 64 y.1)) s2

/-- The request for a line's lock: it stands in the line's queue until LOCK_GRANT (12 R281). -/
def askLock (line uid : Nat) (s : State) : State :=
  if s.locks.any fun l => l.line = line then
    { s with locks := mapIf (fun l => l.line = line) (fun l => { l with queue := l.queue ++ [uid] }) s.locks }
  else { s with locks := s.locks ++ [⟨line, 0, [uid]⟩] }

/-- An `mcas` that has passed its checks: in one step where none of its lines is locked, else by the walk of the locks (log entry 4). -/
def mcStart (e : Nat) (a : Access) (ws : List McWord) (s : State) : State :=
  let x := a.newEntry s
  let d := s.g.die.toNat
  let s1 := mcPublish d ws { s with nextId := s.nextId + 1 }
  if !s.inFlight && (mcLines ws).all (fun l => !s.locked l && !lockWaits l s) then
    mcFinish e x a ws ((mcLines ws).foldl (fun s l => lockReady d ws l s) s1)
  else
    match mcLines ws with
    | l :: _ => (askLock l s.g.uid s1).setG fun g => g.setEntry e { x with todo := 1, got := ws.map McWord.pack }
    | [] => s1

/-- A block checked and run from its entry. -/
def mcRun (e : Nat) (a : Access) (s : State) : Option State :=
  match mcCheck a.base.toNat s with
  | .wait _ => none
  | .bad w kind i s1 => some (parkFirst e a (mcFault e w kind i) [] s1)
  | .ok ws s1 => some (mcStart e a ws s1)

/-- `mcas`: once for the gang, whatever its mask; behind its earlier accesses. Where it cannot act yet, or a fence's release is not complete, it
stands in its entry. -/
def mcasWord (sh : Shape) (d : Nat) (blk : Dword) (s : State) : State :=
  if s.g.opens then stall s
  else
    match s.g.freeEntry with
    | none => stall (joinFaulted s)
    | some e =>
      let a := capture ⟨.mcas, false, true, 8, 0, .dev, d⟩ 1 blk 0 0 (Lanes.all 0) [] s
      let s1 := ((if s.g.flies MemKind.fences then none else mcRun e a s)).getD (standBy e a s)
      openWindow sh (if (s1.g.entry e).state = .free then none else some e) s1

/-- The walk goes on: the next line above, or the update and the release of every lock. -/
def mcNext (e : Nat) (line : Nat) (s : State) : State :=
  let x := s.g.entry e
  let ws := x.got.map McWord.unpack
  match (mcLines ws).find? (line < ·) with
  | some l => askLock l s.g.uid s
  | none =>
    match x.acc with
    | some a =>
      let s1 := mcFinish e { x with got := [] } a ws s
      { s1 with
        locks := (s1.locks.map fun l => if l.holder = s.g.uid then { l with holder := 0 } else l).filter fun l => !(l.holder = 0 && l.queue.isEmpty) }
    | none => s

/-- The gang's `mcas` in flight. -/
def Gang.mcasEntry (g : Gang) : Option Nat := (List.range 4).find? fun e => (g.entry e).flies fun k => k == .mcas

/-- LOCK_GRANT: a home gives a line's lock to the request that came first (12 R281). -/
def grantLock (line : Nat) (s : State) : State :=
  match s.locks.find? fun l => l.line = line && l.holder = 0 with
  | some l =>
    match l.queue with
    | u :: r =>
      if lockWaits line s then s
      else
        let s1 := s.focus u
        let grant (s : State) : State := { s with locks := mapIf (fun l => l.line = line) (fun l => { l with holder := u, queue := r }) s.locks }
        match s1.g.mcasEntry with
        | some e => mcNext e line (grant (lockReady s1.g.die.toNat ((s1.g.entry e).got.map McWord.unpack) line s1))
        | none => grant s1
    | [] => s
  | none => s

/-! ## `tlbinv` (12 R289) -/

/-- An access that goes through translations: not an engine's command, not a fence, not `tlbinv`. -/
def MemKind.translates : MemKind → Bool
  | .engine _ _ => false
  | .fence _ _ => false
  | .tlbinv => false
  | _ => true

/-- Accesses of a tenant that are not performed yet: those in flight, posted ones, of the packets meant, without acknowledgement, and the adds
of signals, to the addresses meant, behind their releases (15 R358). -/
def State.pendingIds (t : BitVec 6) (meant : Packet → Bool) (adds : Nat → Bool) (s : State) : List Nat :=
  ((s.allGangs.filter fun g => g.tenant = t).flatMap fun g =>
    ((g.olog.toList ++ g.hlog.toList).filter fun x => x.flies MemKind.translates).map fun x => x.seq) ++
    ((s.packets.filter fun p => p.tenant = t && meant p).map fun p => p.id) ++
  (s.releases.filter fun r => (r.signal.any fun x => adds x.1) && s.allGangs.any fun g => g.uid = r.gang && g.tenant = t).map fun r => r.id

/-- The coherence mode that the tables now give a page of this package's HBM: whether it is in twin mode; none for another page. -/
def State.pageTwin (t : BitVec 6) (va : Nat) (s : State) : Option Bool :=
  if apertureBase ≤ va then none
  else
    match walk1 s (s.tenant t) va 4 (s.tenant t).root1.toNat false with
    | .error _ => none
    | .ok l =>
      match stage2 s (s.tenant t).root2 (l.out va false) with
      | some (fpa, _) => if s.isHbm fpa then some (bits l.entry 58 58 = 1) else none
      | none => none

/-- The translation covers part of a tenant's range. -/
def TlbEntry.covers (e : TlbEntry) (t : BitVec 6) (base n : Nat) : Bool := e.tenant = t && e.base < base + n && base < e.base + e.size

/-- Pages of a range whose removed translation had another coherence mode than the tables now give: where each lay, and whether in twin mode. -/
def changedPages (t : BitVec 6) (base n : Nat) (s : State) : List (Dword × Dword) :=
  (s.tlb.filter fun e => e.covers t base n).flatMap fun e =>
    (List.range (e.size / 4096)).filterMap fun k =>
      let va := e.base + 4096 * k
      let fpa := e.fpa + 4096 * k
      if base ≤ va && va < base + n && s.isHbm fpa && s.pageTwin t va = some (!e.twin) then some (BitVec.ofNat 64 fpa, if e.twin then 1 else 0)
      else none

/-- Lines of a page that a die holds. -/
def State.heldLines (fpa : Nat) (s : State) : List Nat :=
  sortedNats (s.dies.toList.flatMap fun D => (D.lines.map LineCopy.line).filter fun l => lineOf fpa ≤ l && l < lineOf fpa + 32)

/-- The recall of a page's copies waits. -/
def pageWaits (p : Dword × Dword) (s : State) : Bool :=
  (s.heldLines p.1.toNat).any (fun l => s.locked l) || s.recallWaits (sectorOf p.1.toNat) 128

/-- Every die's copies of a page return to the home (12 R257). -/
def recallPage (p : Dword × Dword) (s : State) : State :=
  if p.2 = 1 then (s.heldLines p.1.toNat).foldl (fun s l => recallTwins l s) s else recallSectors (sectorOf p.1.toNat) 128 true s

/-- Step 4 of `tlbinv`: the recalls, and the end of the word. -/
def tlbRecall (e : Nat) (x : LogEntry) (s : State) : State :=
  if s.awaits (x.recs.getD []) || x.stores.any (fun p => pageWaits p s) then s.setG fun g => g.setEntry e x
  else (x.stores.foldl (fun s p => recallPage p s) s).setG fun g => g.setEntry e LogEntry.empty

/-- Steps 2 and 3: the translations go, posted accesses of the tenant leave their buffers, and what still runs is waited for. -/
def tlbDrop (e : Nat) (x : LogEntry) (base n : Nat) (s : State) : State :=
  let t := s.g.tenant
  let pages := changedPages t base n s
  let s1 := { s with tlb := s.tlb.filter fun e => !e.covers t base n }
  let s2 := if s1.tlb.length = s.tlb.length then s1
    else s1.cores.foldl (fun s (c, k) => (k.wc.filter fun w => w.tenant = t).foldl (fun s w => drainEntry c w.line s) s) s1
  let ids := if s1.tlb.length = s.tlb.length then [] else (s2.pendingIds t (fun _ => true) fun _ => true).filter (· != x.seq)
  tlbRecall e { x with todo := 1, stores := pages, recs := some ids } s2

/-- `tlbinv` goes on: a release at `.dev`, then the rest. -/
def tlbStep (e : Nat) (x : LogEntry) (base n : Nat) (s : State) : State :=
  if x.todo != 0 then tlbRecall e x s
  else
    let (y, s1) := if x.recs.isNone then relBegin .dev [] x s else (x, s)
    if s1.awaits (y.recs.getD []) then s1.setG fun g => g.setEntry e y else tlbDrop e y base n s1

/-- `tlbinv` takes an entry; no later memory word of the gang issues before it completes (12 R276). -/
def tlbInvalidate (base n : Nat) (s : State) : State :=
  if base % 4096 != 0 || n % 4096 != 0 || n < 4096 || 2 ^ 30 < n || 2 ^ 57 < base + n then
    takeTrap 10 4 (accessDetail base 4 false false 0 0 0) 0 0 s.g.cur s
  else
    match s.g.freeEntry with
    | none => stall (joinFaulted s)
    | some e =>
      if s.g.opens then stall s
      else
        let a := capture ⟨.tlbinv, false, true, 8, 0, .dev, 0⟩ 1 (BitVec.ofNat 64 base) (BitVec.ofNat 64 n) 0 (Lanes.all 0) [] s
        tlbStep e (a.newEntry s) base n { s with nextId := s.nextId + 1 }

/-- `ld_acq_b32` (12 R274). -/
def execLdAcqB32 (d : BitVec 7) (a : BitVec 7) (b : BitVec 4) (sc : BitVec 3) (l : BitVec 4) (s : State) : Out :=
  .next (issue ({ major := 0x28, srcA := [a.toNat], sr := [b.toNat], dst := [d.toNat], la := l.toNat, bad := codeIf (6 < sc.toNat) 0x06 }) (fun s => acquireLoad ({ major := 0x28, srcA := [a.toNat], sr := [b.toNat], dst := [d.toNat], la := l.toNat, bad := codeIf (6 < sc.toNat) 0x06 }) (capVector (mopAt .acqLoad sc.toNat d.toNat) a.toNat b.toNat [] s) s) s)

/-- `st_rel_b32` (12 R271, R274, R277). -/
def execStRelB32 (v : BitVec 7) (a : BitVec 7) (b : BitVec 4) (sc : BitVec 3) (l : BitVec 4) (s : State) : Out :=
  .next (issue ({ major := 0x29, srcA := [a.toNat], srcD := [v.toNat], sr := [b.toNat], la := l.toNat, bad := codeIf (6 < sc.toNat) 0x06 }) (fun s => releaseStore ({ major := 0x29, srcA := [a.toNat], srcD := [v.toNat], sr := [b.toNat], la := l.toNat, bad := codeIf (6 < sc.toNat) 0x06 }) (capVector (mopAt .relStore sc.toNat 0) a.toNat b.toNat [v.toNat] s) s) s)

/-- `fence` (12 R275; 06 R192). -/
def execFence (sc : BitVec 3) (s : State) : Out :=
  .next (issue ({ major := 0x2A, sr := [], sw := [], la := 0, bad := codeIf (sc.toNat = 0 ∨ 6 < sc.toNat) 0x03 }) (fun s => fenceBoth (scopeOf sc.toNat) s) s)

/-- `fence_rel` (12 R275; 06 R192). -/
def execFenceRel (sc : BitVec 3) (s : State) : Out :=
  .next (issue ({ major := 0x2A, sr := [], sw := [], la := 0, bad := codeIf (sc.toNat = 0 ∨ 6 < sc.toNat) 0x03 }) (fun s => fenceRelease (scopeOf sc.toNat) s) s)

/-- `fence_acq` (12 R275). -/
def execFenceAcq (sc : BitVec 3) (s : State) : Out :=
  .next (issue ({ major := 0x2A, sr := [], sw := [], la := 0, bad := codeIf (sc.toNat = 0 ∨ 6 < sc.toNat) 0x03 }) (fun s => fenceAcquire (scopeOf sc.toNat) s) s)

/-- `cwb_range` (12 R275, R283, R284). -/
def execCwbRange (a : BitVec 5) (b : BitVec 5) (s : State) : Out :=
  .next (issue ({ major := 0x2A, sr := [a.toNat, b.toNat], sw := [], la := 0 }) (fun s => rangeWord ({ major := 0x2A, sr := [a.toNat, b.toNat], sw := [], la := 0 }) 3 (s.src.sreg a.toNat) (s.src.sreg b.toNat) s) s)

/-- `cinv_range` (12 R275, R283, R285). -/
def execCinvRange (a : BitVec 5) (b : BitVec 5) (s : State) : Out :=
  .next (issue ({ major := 0x2A, sr := [a.toNat, b.toNat], sw := [], la := 0 }) (fun s => rangeWord ({ major := 0x2A, sr := [a.toNat, b.toNat], sw := [], la := 0 }) 4 (s.src.sreg a.toNat) (s.src.sreg b.toNat) s) s)

/-- `icinv_range` (12 R275, R283, R286). -/
def execIcinvRange (a : BitVec 5) (b : BitVec 5) (s : State) : Out :=
  .next (issue ({ major := 0x2A, sr := [a.toNat, b.toNat], sw := [], la := 0 }) (fun s => rangeWord ({ major := 0x2A, sr := [a.toNat, b.toNat], sw := [], la := 0 }) 5 (s.src.sreg a.toNat) (s.src.sreg b.toNat) s) s)

/-- `twin_stat` (12 R275, R287). -/
def execTwinStat (d : BitVec 5) (l : BitVec 4) (s : State) : Out :=
  .next (issue ({ major := 0x2A, sr := [], sw := [d.toNat], la := l.toNat }) (fun s => twinStat ({ major := 0x2A, sr := [], sw := [d.toNat], la := l.toNat }) d.toNat s) s)

/-- `mcas` (12 R279-R282). -/
def execMcas (d : BitVec 5) (b : BitVec 5) (l : BitVec 4) (s : State) : Out :=
  .next (issue ({ major := 0x2B, sr := [b.toNat], sw := [d.toNat], la := l.toNat }) (fun s => mcasWord ({ major := 0x2B, sr := [b.toNat], sw := [d.toNat], la := l.toNat }) d.toNat (s.src.sreg b.toNat) s) s)

/-- `tlbinv` (12 R280, R289, R290). -/
def execTlbinv (a : BitVec 5) (b : BitVec 5) (s : State) : Out :=
  .next (issue ({ major := 0x2B, sr := [a.toNat, b.toNat], sw := [], la := 0, priv := some 3 }) (fun s => tlbInvalidate (s.src.sreg a.toNat).toNat (s.src.sreg b.toNat).toNat s) s)

end Sys2Proof.Machine
end

