-- ==== Sys2Proof/Machine/Compare.lean ====
section
/-! DEFINITION. Meanings: the vector compares of major 0x12 (04 R128). -/

namespace Sys2Proof.Machine

def compareWord (sh : Shape) (p a b : Nat) (f : Word → Word → Bool) (s : State) : State :=
  lanePredWord sh p (fun q L => f (q.vreg a)[L] (q.vreg b)[L]) s

/-- `vcmp_eq_b32` (04 R128). -/
def execVcmpEqB32 (p : BitVec 3) (a : BitVec 7) (b : BitVec 7) (s : State) : Out :=
  .next (compareWord (shCmp p.toNat a.toNat b.toNat) p.toNat a.toNat b.toNat (fun x y => x == y) s)

/-- `vcmp_ne_b32` (04 R128). -/
def execVcmpNeB32 (p : BitVec 3) (a : BitVec 7) (b : BitVec 7) (s : State) : Out :=
  .next (compareWord (shCmp p.toNat a.toNat b.toNat) p.toNat a.toNat b.toNat (fun x y => x != y) s)

/-- `vcmp_lt_i32` (04 R128). -/
def execVcmpLtI32 (p : BitVec 3) (a : BitVec 7) (b : BitVec 7) (s : State) : Out :=
  .next (compareWord (shCmp p.toNat a.toNat b.toNat) p.toNat a.toNat b.toNat (fun x y => x.slt y) s)

/-- `vcmp_le_i32` (04 R128). -/
def execVcmpLeI32 (p : BitVec 3) (a : BitVec 7) (b : BitVec 7) (s : State) : Out :=
  .next (compareWord (shCmp p.toNat a.toNat b.toNat) p.toNat a.toNat b.toNat (fun x y => x.sle y) s)

/-- `vcmp_lt_n32` (04 R128). -/
def execVcmpLtN32 (p : BitVec 3) (a : BitVec 7) (b : BitVec 7) (s : State) : Out :=
  .next (compareWord (shCmp p.toNat a.toNat b.toNat) p.toNat a.toNat b.toNat (fun x y => x.ult y) s)

/-- `vcmp_le_n32` (04 R128). -/
def execVcmpLeN32 (p : BitVec 3) (a : BitVec 7) (b : BitVec 7) (s : State) : Out :=
  .next (compareWord (shCmp p.toNat a.toNat b.toNat) p.toNat a.toNat b.toNat (fun x y => x.ule y) s)

/-- `vcmp_eq_f32` (04 R128). -/
def execVcmpEqF32 (p : BitVec 3) (a : BitVec 7) (b : BitVec 7) (s : State) : Out :=
  .next (compareWord (shCmp p.toNat a.toNat b.toNat) p.toNat a.toNat b.toNat (fun x y => fEq x y) s)

/-- `vcmp_ne_f32` (04 R128). -/
def execVcmpNeF32 (p : BitVec 3) (a : BitVec 7) (b : BitVec 7) (s : State) : Out :=
  .next (compareWord (shCmp p.toNat a.toNat b.toNat) p.toNat a.toNat b.toNat (fun x y => !fEq x y) s)

/-- `vcmp_lt_f32` (04 R128). -/
def execVcmpLtF32 (p : BitVec 3) (a : BitVec 7) (b : BitVec 7) (s : State) : Out :=
  .next (compareWord (shCmp p.toNat a.toNat b.toNat) p.toNat a.toNat b.toNat (fun x y => fLt x y) s)

/-- `vcmp_le_f32` (04 R128). -/
def execVcmpLeF32 (p : BitVec 3) (a : BitVec 7) (b : BitVec 7) (s : State) : Out :=
  .next (compareWord (shCmp p.toNat a.toNat b.toNat) p.toNat a.toNat b.toNat (fun x y => fLe x y) s)

/-- `vcmp_un_f32` (04 R128). -/
def execVcmpUnF32 (p : BitVec 3) (a : BitVec 7) (b : BitVec 7) (s : State) : Out :=
  .next (compareWord (shCmp p.toNat a.toNat b.toNat) p.toNat a.toNat b.toNat (fun x y => fUn x y) s)

/-- `vtest_b32` (04 R128). -/
def execVtestB32 (p : BitVec 3) (a : BitVec 7) (b : BitVec 7) (s : State) : Out :=
  .next (compareWord (shCmp p.toNat a.toNat b.toNat) p.toNat a.toNat b.toNat (fun x y => (x &&& y) != 0) s)

end Sys2Proof.Machine
end

