-- ==== Sys2Proof/Machine/Convert.lean ====
section
/-! DEFINITION. Meanings: the conversions of major 0x11 (04 R124-R127). -/

namespace Sys2Proof.Machine

/-- The mode of a conversion; codes 5-7 never issue. -/
def modeOf (m : BitVec 3) : RMode := (RMode.ofCode m.toNat).getD .rne

/-- Bits 31:16 replaced, bits 15:0 kept. -/
def intoHigh (d : Word) (x : Word × Flags) : Word × Flags := (x.1.extractLsb' 0 16 ++ d.extractLsb' 0 16, x.2)

/-- The format of a slot's record. -/
def slotFmt (s : State) (q : Regs) (t : Nat) : Fmt :=
  match convFormat (recordOf s (slotIdent q t)) with
  | some e => e.fmt
  | none => fp32

/-- `vcvt_f32_i32` (04 R124, R125). -/
def execVcvtF32I32 (d : BitVec 7) (a : BitVec 7) (m : BitVec 3) (s : State) : Out :=
  .next (blockWord (shCvt d.toNat a.toNat m.toNat false) (decide (m.toNat = 4)) d.toNat a.toNat 0 (fun _ _ a _ _ r => cvtTo fp32 (modeOf m) r (XVal.ofInt a.toInt)) s)

/-- `vcvt_f32_n32` (04 R124, R125). -/
def execVcvtF32N32 (d : BitVec 7) (a : BitVec 7) (m : BitVec 3) (s : State) : Out :=
  .next (blockWord (shCvt d.toNat a.toNat m.toNat false) (decide (m.toNat = 4)) d.toNat a.toNat 0 (fun _ _ a _ _ r => cvtTo fp32 (modeOf m) r (XVal.ofInt a.toNat)) s)

/-- `vcvt_i32_f32` (04 R124, R125, R127). -/
def execVcvtI32F32 (d : BitVec 7) (a : BitVec 7) (m : BitVec 3) (s : State) : Out :=
  .next (blockWord (shCvt d.toNat a.toNat m.toNat false) (decide (m.toNat = 4)) d.toNat a.toNat 0 (fun _ _ a _ _ r => toI32 (modeOf m) r a) s)

/-- `vcvt_n32_f32` (04 R124, R125, R127). -/
def execVcvtN32F32 (d : BitVec 7) (a : BitVec 7) (m : BitVec 3) (s : State) : Out :=
  .next (blockWord (shCvt d.toNat a.toNat m.toNat false) (decide (m.toNat = 4)) d.toNat a.toNat 0 (fun _ _ a _ _ r => toN32 (modeOf m) r a) s)

/-- `vcvt_bf16_f32` (04 R124, R125). -/
def execVcvtBf16F32 (d : BitVec 7) (a : BitVec 7) (m : BitVec 3) (s : State) : Out :=
  .next (blockWord (shCvt d.toNat a.toNat m.toNat false) (decide (m.toNat = 4)) d.toNat a.toNat 0 (fun _ _ a _ _ r => cvtTo bf16 (modeOf m) r (f32 a)) s)

/-- `vcvt_f32_bf16` (04 R124, R125). -/
def execVcvtF32Bf16 (d : BitVec 7) (a : BitVec 7) (m : BitVec 3) (s : State) : Out :=
  .next (blockWord (shCvt d.toNat a.toNat m.toNat false) (false) d.toNat a.toNat 0 (fun _ _ a _ _ _ => cvtFrom bf16 (half a 0)) s)

/-- `vcvt_f16_f32` (04 R124, R125). -/
def execVcvtF16F32 (d : BitVec 7) (a : BitVec 7) (m : BitVec 3) (s : State) : Out :=
  .next (blockWord (shCvt d.toNat a.toNat m.toNat false) (decide (m.toNat = 4)) d.toNat a.toNat 0 (fun _ _ a _ _ r => cvtTo fp16 (modeOf m) r (f32 a)) s)

/-- `vcvt_f32_f16` (04 R124, R125). -/
def execVcvtF32F16 (d : BitVec 7) (a : BitVec 7) (m : BitVec 3) (s : State) : Out :=
  .next (blockWord (shCvt d.toNat a.toNat m.toNat false) (false) d.toNat a.toNat 0 (fun _ _ a _ _ _ => cvtFrom fp16 (half a 0)) s)

/-- `vcvt_e4m3_f32` (04 R124, R125). -/
def execVcvtE4m3F32 (d : BitVec 7) (a : BitVec 7) (m : BitVec 3) (s : State) : Out :=
  .next (blockWord (shCvt d.toNat a.toNat m.toNat false) (decide (m.toNat = 4)) d.toNat a.toNat 0 (fun _ _ a _ _ r => cvtTo e4m3 (modeOf m) r (f32 a)) s)

/-- `vcvt_f32_e4m3` (04 R124, R125). -/
def execVcvtF32E4m3 (d : BitVec 7) (a : BitVec 7) (m : BitVec 3) (s : State) : Out :=
  .next (blockWord (shCvt d.toNat a.toNat m.toNat false) (false) d.toNat a.toNat 0 (fun _ _ a _ _ _ => cvtFrom e4m3 (a.toNat % 256)) s)

/-- `vcvt_e5m2_f32` (04 R124, R125). -/
def execVcvtE5m2F32 (d : BitVec 7) (a : BitVec 7) (m : BitVec 3) (s : State) : Out :=
  .next (blockWord (shCvt d.toNat a.toNat m.toNat false) (decide (m.toNat = 4)) d.toNat a.toNat 0 (fun _ _ a _ _ r => cvtTo e5m2 (modeOf m) r (f32 a)) s)

/-- `vcvt_f32_e5m2` (04 R124, R125). -/
def execVcvtF32E5m2 (d : BitVec 7) (a : BitVec 7) (m : BitVec 3) (s : State) : Out :=
  .next (blockWord (shCvt d.toNat a.toNat m.toNat false) (false) d.toNat a.toNat 0 (fun _ _ a _ _ _ => cvtFrom e5m2 (a.toNat % 256)) s)

/-- `vcvthi_bf16_f32` (04 R124, R125). -/
def execVcvthiBf16F32 (d : BitVec 7) (a : BitVec 7) (m : BitVec 3) (s : State) : Out :=
  .next (blockWord (shCvt d.toNat a.toNat m.toNat true) (decide (m.toNat = 4)) d.toNat a.toNat 0 (fun _ _ a _ d r => intoHigh d (cvtTo bf16 (modeOf m) r (f32 a))) s)

/-- `vcvthi_f16_f32` (04 R124, R125). -/
def execVcvthiF16F32 (d : BitVec 7) (a : BitVec 7) (m : BitVec 3) (s : State) : Out :=
  .next (blockWord (shCvt d.toNat a.toNat m.toNat true) (decide (m.toNat = 4)) d.toNat a.toNat 0 (fun _ _ a _ d r => intoHigh d (cvtTo fp16 (modeOf m) r (f32 a))) s)

/-- `vcvt_nf_f32` (04 R124-R126). -/
def execVcvtNfF32 (d : BitVec 7) (a : BitVec 7) (m : BitVec 3) (t : BitVec 3) (s : State) : Out :=
  .next (blockWord (shCvtSlot d.toNat a.toNat m.toNat t.toNat) (decide (m.toNat = 4)) d.toNat a.toNat 0 (fun q _ a _ _ r => cvtTo (slotFmt s q t.toNat) (modeOf m) r (f32 a)) s)

/-- `vcvt_f32_nf` (04 R124-R126). -/
def execVcvtF32Nf (d : BitVec 7) (a : BitVec 7) (m : BitVec 3) (t : BitVec 3) (s : State) : Out :=
  .next (blockWord (shCvtSlot d.toNat a.toNat m.toNat t.toNat) false d.toNat a.toNat 0 (fun q _ a _ _ _ => (cvtFromQuiet (slotFmt s q t.toNat) (a.toNat % 2 ^ (slotFmt s q t.toNat).width), 0)) s)

end Sys2Proof.Machine
end

