-- ==== Sys2Proof/Machine/Copy.lean ====
section
/-! DEFINITION. Meanings: the copy and expansion engines, majors 0x20-0x22, and what their commands do after acceptance (08). -/

namespace Sys2Proof.Machine

/-! ## Capture -/

/-- A copy word: the coordinates' register pair, the window address, the control word (08 R204). -/
def capCopy (op k a b c : Nat) (s : State) : Access :=
  captureEngine 0x20 op 0 (leaders k s) (s.src.sreg a) (s.src.sreg (a + 1)) (s.src.sreg b) (s.src.sreg c) s

/-- A word that runs once for the gang, whatever its mask: lane 0 stands for it. -/
def capOnce (major op d a b c : Nat) (s : State) : Access :=
  captureEngine major op d 1 (s.src.sreg a) (s.src.sreg b) (s.src.sreg c) 0 s

def capRun (k a : Nat) (s : State) : Access := captureEngine 0x22 0 0 (leaders k s) (s.src.sreg a) 0 0 0 s

/-! ## The command queue (08 R198, R199) -/

/-- Stages of a node with gangs. -/
def stagesOf (s : State) (node : Word) : Nat :=
  match s.node? node with
  | some n => n.desc.stages.countP fun b => b.toNat % 64 != 0
  | none => 0

/-- A crew stands on its core. -/
def crewHere (s : State) (c : Crew) : Bool :=
  match s.ensemble? c.ensemble with
  | some e => e.state = .resident || e.state = .evicting
  | none => false

/-- Entries that the crews resident on a core reserve. -/
def reservedEntries (s : State) (core : Nat) : Nat :=
  (s.crews.filter fun c => c.core = core && crewHere s c && c.retired < c.gangs).foldl (fun n c => n + 4 * stagesOf s c.node) 0

/-- A free entry for a stage of a crew: from the shared pool (false), else its own (true). -/
def freeSlot (s : State) (core crew stage : Nat) : Option Bool :=
  let cmds := (s.core core).cmds
  if cmds.countP (fun c => !c.reserved) < 32 - reservedEntries s core then some false
  else if cmds.countP (fun c => c.reserved && c.crew = crew && c.stage = stage) < 4 then some true
  else none

/-! ## The control word (08 R204) -/

def ctlG (x : Nat) : Nat := bits x 7 0
def ctlP (x : Nat) : Nat := bits x 15 8
def ctlBarrier (x : Nat) : Nat := bits x 36 16
def ctlBe (x : Nat) : Bool := bits x 37 37 = 1
def ctlMode (x : Nat) : Nat := bits x 40 38
def ctlQueue (x : Nat) : Nat := bits x 44 41
def ctlF (x : Nat) : Bool := bits x 45 45 = 1
def ctlMask (x : Nat) : Nat := bits x 63 48

/-- A field that the operation does not use is nonzero, or the mode is reserved. -/
def ctlBad (op x : Nat) : Bool :=
  bits x 47 46 != 0 || 4 < ctlMode x || (op != 2 && ctlQueue x != 0) || (op != 3 && ctlF x) || (op != 4 && ctlMask x != 0) ||
    (op = 3 && bits x 37 16 != 0)

def coordsOf (a : Access) : List Int :=
  [(a.base.extractLsb' 0 32).toInt, (a.base.extractLsb' 32 32).toInt, (a.idx.extractLsb' 0 32).toInt, (a.idx.extractLsb' 32 32).toInt]

/-- The bits of a payload element, and the FIFO bytes a payload takes (08 R209). -/
def payloadBits (P : Rec) : Nat := (P.extent 0 * P.extent 1 * P.extent 2 * P.extent 3) * P.elem.bits
def payloadBytes (P : Rec) : Nat := (payloadBits P + 1023) / 1024 * 128

/-! ## Crews of an ensemble -/

def crewsOf (s : State) (ens : Nat) : List Crew := sortBy (fun c => c.number) (s.crews.filter fun c => c.ensemble = ens)

/-- The crews a mask names (08 R212). -/
def masked (s : State) (ens mask : Nat) : List Crew := (crewsOf s ens).filter fun c => bits mask c.number c.number = 1

def maskBad (s : State) (ens mask : Nat) : Bool := mask = 0 || 2 ^ (crewsOf s ens).length ≤ mask

def Crew.done (c : Crew) : Bool := c.retired = c.gangs

/-- A queue of a crew: its declared offset and slots. -/
def queueOf (s : State) (c : Crew) (q : Nat) : Nat × Nat :=
  let d := queueDecl s c.node q
  (bits d 19 0, bits d 26 20)

/-- The ring is declared and its header stands (08 R208, 05 R163). -/
def ringUsable (s : State) (c : Crew) (q : Nat) : Bool :=
  let (o, n) := queueOf s c q
  n != 0 && ringOk c q (ringAt s (c.key o))

def ringFull (s : State) (c : Crew) (q : Nat) : Bool :=
  let (o, _) := queueOf s c q
  ringUsable s c q && (ringAt s (c.key o)).free = 0

/-! ## Acceptance of a copy (08 R201-R212, R428) -/

/-- What a copy waits for at issue beside its queue entry. -/
def copyWaits (op : Nat) (a : Access) (c : Crew) (s : State) : Bool :=
  let x := a.ctl.toNat
  match op with
  | 2 => ringFull s c (ctlQueue x)
  | 3 =>
    match recordFields (recordOf s (BitVec.ofNat 8 (ctlP x))) with
    | some P => payloadBytes P ≤ 65536 && (if ctlF x then (s.core c.core).roomB else (s.core c.core).roomA) < payloadBytes P
    | none => false
  | 4 =>
    !maskBad s c.ensemble (ctlMask x) && (masked s c.ensemble (ctlMask x)).all (fun w => !w.done) &&
      (masked s c.ensemble (ctlMask x)).any fun w => w.slots = 0
  | _ => false

/-- The crews a copy lands in. -/
def receiversOf (s : State) (op mask : Nat) (c : Crew) : List Crew := if op = 4 then masked s c.ensemble mask else [c]

/-- The window address in a receiver (08 R207). -/
def landAt (c x : Crew) (w : Nat) : Nat := w - c.offset + x.offset

/-- The first failure of R428: code, address, kind, identifier. -/
def copyFault (op : Nat) (a : Access) (c : Crew) (s : State) : Option (Nat × Nat × Nat × Nat) :=
  let x := a.ctl.toNat
  let w := a.extra.toNat
  let (gid, pid) := (ctlG x, ctlP x)
  if ctlBad op x then some (0x0A, 0, 0, 0)
  else
    match recordFields (recordOf s (BitVec.ofNat 8 gid)) with
    | none => some (0x01, 0, if op = 1 then 1 else 0, gid)
    | some G =>
      if !G.usable (if op = 1 then 2 else 1) then some (0x02, 0, if op = 1 then 1 else 0, gid)
      else
        match recordFields (recordOf s (BitVec.ofNat 8 pid)) with
        | none => some (0x01, 0, 2, pid)
        | some P =>
          let bytes := P.boxBytes
          let dst := receiversOf s op (ctlMask x) c
          if P.enc != 0 || P.smode != 0 || (op != 3 && (!P.boxDense || !P.allows (if op = 1 then 1 else 2))) then some (0x02, 0, 2, pid)
          else if op = 3 && 65536 < payloadBytes P then some (0x0A, 0, 0, 0)
          else if G.fill = 3 && (boxOf P.ext).any (fun b => !G.inBounds (addCoords (coordsOf a) b)) then
            some (0x03, 0, if op = 1 then 1 else 0, gid)
          else if op = 3 then none
          else if !c.holds w bytes then some (0x05, w, 2, 0)
          else if op = 4 && maskBad s c.ensemble (ctlMask x) then some (0x06, 0, 7, 0)
          else if op = 4 && dst.any Crew.done then some (0x07, 0, 7, 0)
          else if (c.tilesOf w bytes).any (fun t => (op != 4 && !c.tileOwned t) || dst.any fun r => !r.tileOwned t) then some (0x04, w, 2, 0)
          else if ctlBe x && !c.barrierOk (ctlBarrier x) then some (0x08, ctlBarrier x, 6, 0)
          else if op = 2 && !ringUsable s c (ctlQueue x) then some (0x09, c.offset + (queueOf s c (ctlQueue x)).1, 6, 0)
          else none

/-- A copy accepted: its entry, tiles, ring entry, FIFO space and slots taken in one step (08 R201). -/
def startCopy (op : Nat) (a : Access) (reserved : Bool) (c : Crew) (s : State) : State :=
  let x := a.ctl.toNat
  let w := a.extra.toNat
  let id := s.nextId
  let P := recordFields (recordOf s (BitVec.ofNat 8 (ctlP x)))
  let bytes := match P with
    | some P => P.boxBytes
    | none => []
  let pay := match P with
    | some P => payloadBytes P
    | none => 0
  let dst := receiversOf s op (ctlMask x) c
  let q := ctlQueue x
  let r := ringAt s (c.key (queueOf s c q).1)
  let cmd : Command :=
    { id := id, op := op, gang := s.g.uid, crew := c.uid, stage := s.g.stage.toNat, tenant := s.g.tenant, node := s.g.node
      leader := (leaderOf a.lanes).val, coords := coordsOf a, window := w, gId := BitVec.ofNat 8 (ctlG x), pId := BitVec.ofNat 8 (ctlP x)
      mode := BitVec.ofNat 3 (ctlMode x), barrier := if ctlBe x then some (ctlBarrier x) else none
      queue := if op = 2 then some (q, r.tail) else none, fifoB := ctlF x, mask := BitVec.ofNat 16 (ctlMask x), card := none, image := []
      rnd := seedOf (a.base.toNat % 2 ^ 16 ^^^ a.base.toNat / 2 ^ 32 % 2 ^ 16) s.g.gangNo.toNat, done := 0
      units := if op = 3 then pay / 32 else (windowSectors w bytes).length, sent := false, reserved := reserved, behind := [], suspended := false, fault := none }
  let s1 := { s with nextId := id + 1 }.setCore c.core fun k =>
    { k with
      cmds := k.cmds ++ [cmd]
      roomA := if op = 3 ∧ !ctlF x then k.roomA - pay else k.roomA
      roomB := if op = 3 ∧ ctlF x then k.roomB - pay else k.roomB }
  let s2 := if op = 3 then s1 else dst.foldl (fun s r => holdTiles r.uid (c.tilesOf w bytes) id s) s1
  let s3 := if op = 4 then dst.foldl (fun s r => s.setCrew r.uid fun k => { k with slots := k.slots - 1 }) s2 else s2
  if op = 2 then ringReserve c.uid q r s3 else s3

def acceptCopy (op : Nat) (a : Access) (e : Nat) (s : State) : Accept :=
  match s.myCrew with
  | none => .wait s
  | some c =>
    match freeSlot s c.core c.uid s.g.stage.toNat with
    | none => .wait s
    | some own =>
      if copyWaits op a c s then .wait s
      else
        match copyFault op a c s with
        | some (code, addr, kind, ident) => reject 7 code addr kind ident e a s
        | none => .done (startCopy op a own c s)

/-! ## Slots (08 R213) -/

def acceptGrant (a : Access) (e : Nat) (s : State) : Accept :=
  match s.myCrew with
  | none => .wait s
  | some c =>
    let n := a.base.toNat
    if n = 0 ∨ 15 < n ∨ 15 < c.slots + n then reject 7 0x0B 0 7 0 e a s
    else .done (s.setCrew c.uid fun k => { k with slots := k.slots + n })

def acceptSlots (a : Access) (_e : Nat) (s : State) : Accept :=
  .done (s.setR fun r => r.setS a.op.reg (BitVec.ofNat 64 (match s.myCrew with
    | some c => c.slots
    | none => 0)))

def acceptCount (a : Access) (_e : Nat) (s : State) : Accept :=
  .done (s.setR fun r => r.setS a.op.reg (BitVec.ofNat 64 ((s.core s.g.coreIx).cmds.countP fun c => c.gang = s.g.uid)))

/-! ## The back-reference stream (08 R214) -/

/-- n bytes copied one by one from d back. -/
def copyBack (d : Nat) : Nat → List Byte → List Byte
  | 0, out => out
  | n + 1, out => copyBack d n (out ++ [out.getD (out.length - d) 0])

/-- A token decoded: where it starts in the input and in the image, and its length. -/
structure Token where
  ip : Nat
  pos : Nat
  len : Nat
  deriving DecidableEq, Repr

/-- `expand`: the image and its tokens, or the fault's code and the input offset. A token makes a byte at least, so olen + 1 turns
are enough. -/
def expandGo (inp : List Byte) (ilen olen : Nat) : Nat → Nat → List Byte → List Token → Except (Nat × Nat) (List Byte × List Token)
  | 0, ip, _, _ => .error (0x20, ip)
  | f + 1, ip, out, ts =>
    let pos := out.length
    if olen ≤ pos then (if ip = ilen then .ok (out, ts) else .error (0x21, ip))
    else if ilen ≤ ip then .error (0x20, ip)
    else
      let h := (inp.getD ip 0).toNat
      if h < 0x80 then
        let n := h + 1
        if ilen < ip + 1 + n then .error (0x20, ip)
        else if olen < pos + n then .error (0x23, ip)
        else expandGo inp ilen olen f (ip + 1 + n) (out ++ slice inp (ip + 1) n) (ts ++ [⟨ip, pos, n⟩])
      else
        let n := h % 64 + 3
        let k := if h < 0xC0 then 1 else 2
        if ilen < ip + 1 + k then .error (0x20, ip)
        else
          let d := 1 + ofBytes (slice inp (ip + 1) k)
          if pos < d then .error (0x22, ip)
          else if olen < pos + n then .error (0x23, ip)
          else expandGo inp ilen olen f (ip + 1 + k) (copyBack d n out) (ts ++ [⟨ip, pos, n⟩])

/-- The gap table's entry for image byte `at_` (08 R215). -/
def gapEntry (ts : List Token) (at_ : Nat) : Nat :=
  match ts.find? fun t => t.pos ≤ at_ && at_ < t.pos + t.len with
  | some t => t.ip + (at_ - t.pos) * 2 ^ 32
  | none => 0

/-- The lowest-numbered entry that is not met. -/
def gapMiss (seg : Nat) (ts : List Token) (table : List Byte) : Option Nat :=
  (List.range (table.length / 8)).find? fun k => ofBytes (slice table (8 * k) 8) != gapEntry ts ((k + 1) * 2 ^ seg)

/-! ## A zero-run source (08 R216) -/

/-- One block of 128 bytes from its record, from word i on. -/
def expandedWords (inp : List Byte) (at_ mask : Nat) : List Byte :=
  (List.range 32).flatMap fun i => if bits mask i i = 1 then slice inp (at_ + 4 + 4 * popBelow mask i) 4 else zeros 4

/-- The blocks of an image; the offset that fails otherwise. -/
def expandBlocks (inp : List Byte) (ilen : Nat) : List Nat → List Byte → Except (Nat × Nat) (List Byte)
  | [], out => .ok out
  | b :: r, out =>
    if ilen < 4 * b + 4 then .error (0x25, ilen)
    else
      let e := ofBytes (slice inp (4 * b) 4)
      let mask := ofBytes (slice inp e 4)
      if e % 4 != 0 || ilen < e + 4 || ilen < e + 4 + 4 * popBelow mask 32 then .error (0x25, 4 * b)
      else expandBlocks inp ilen r (out ++ expandedWords inp e mask)

/-- The image of a job, from its input and its gap table; a fault is a code with an address. Which address codes 0x20-0x23 and 0x25 name, no rule
says: the token's header, the index entry; DESIGN CHOICE (log entry 112). -/
def imageOf (S : Rec) (k : Card) (inp table : List Byte) : Except (Nat × Nat) (List Byte) :=
  if S.enc = 1 then
    match expandBlocks inp k.ilen (List.range ((k.olen + 127) / 128)) [] with
    | .ok out => .ok (out.take k.olen)
    | .error (c, o) => .error (c, S.base + o)
  else
    match expandGo inp k.ilen k.olen (k.olen + 1) 0 [] [] with
    | .error (c, o) => .error (c, S.base + o)
    | .ok (out, ts) =>
      match (if k.seg = 0 then none else gapMiss k.seg.toNat ts table) with
      | some n => .error (0x24, k.gap + 8 * n)
      | none => .ok out

/-! ## The job card (08 R217, R218) -/

/-- The card's fields, where none breaks R217. -/
def parseCard (b : List Byte) : Option Card :=
  let f (k n : Nat) : Nat := ofBytes (slice b k n)
  let k : Card :=
    { source := b.getD 0 0, kind := b.getD 1 0, dest := b.getD 2 0, seg := b.getD 3 0, ilen := f 4 4, olen := f 8 4, window := f 12 4
      gap := f 16 8, barrier := bits (f 24 4) 20 0, be := bits (f 24 4) 31 31 = 1, push := bits (f 28 4) 31 31 = 1, queue := bits (f 28 4) 3 0 }
  let s := k.seg.toNat
  if k.kind.toNat ≤ 1 ∧ (k.kind = 1 ∨ k.dest = 0) ∧ (s = 0 ∨ (4 ≤ s ∧ s ≤ 16)) ∧ 1 ≤ k.ilen ∧ k.ilen ≤ 2 ^ 28 ∧ 1 ≤ k.olen ∧
      k.olen ≤ 2 ^ 24 ∧ (k.kind = 0 → k.window < 2 ^ 21) ∧ (k.kind = 1 → k.window = 0 ∧ !k.push) ∧ (s = 0 → k.gap = 0) ∧
      k.gap % 8 = 0 ∧ bits (f 24 4) 30 21 = 0 ∧ bits (f 28 4) 30 4 = 0 ∧ (k.push ∨ k.queue = 0) ∧ (b.drop 32).all (· == 0) then some k
  else none

/-- The bytes that a record's extents span (08 R217). -/
def Rec.span (R : Rec) : Nat :=
  let last := (List.range 4).foldl (fun m j =>
    max m (R.offset [(R.extent 0 - 1 : Nat), (R.extent 1 - 1 - min j (R.extent 1 - 1) : Nat), (R.extent 2 - 1 : Nat), (R.extent 3 - 1 : Nat)])) 0
  ((last + 1) * R.elem.bits + 7) / 8

/-- A card's field breaks what its records make of it: s with an encoding-1 source, olen above what D's extents span (08 R216, R217). -/
def Card.misfit (k : Card) (s : State) : Bool :=
  (k.seg != 0 && (recordFields (recordOf s k.source)).any fun S => S.enc = 1) ||
    (k.kind = 1 && (recordFields (recordOf s k.dest)).any fun D => D.span < k.olen)

/-- The first failure of a job card whose fields stand, in the order of R428. That a misaligned barrier field is a barrier failure (0x08), and one
only where `be` is set, no rule says: DESIGN CHOICE (log entry 111). -/
def runFault (k : Card) (va : Nat) (c : Crew) (s : State) : Option (Nat × Nat × Nat × Nat) :=
  if k.misfit s then some (0x0A, va, 3, 0)
  else
  match recordFields (recordOf s k.source) with
  | none => some (0x01, 0, 0, k.source.toNat)
  | some S =>
    if !(S.enc = 1 || S.enc = 2) || !S.allows 1 then some (0x02, 0, 0, k.source.toNat)
    else
      let bytes := List.range k.olen
      let dest : Option (Nat × Nat × Nat × Nat) :=
        if k.kind = 1 then
          match recordFields (recordOf s k.dest) with
          | none => some (0x01, 0, 1, k.dest.toNat)
          | some R => if R.enc != 0 || !R.allows 2 || 2 ≤ R.smode then some (0x02, 0, 1, k.dest.toNat) else none
        else if !c.holds k.window bytes then some (0x05, k.window, 2, 0)
        else if (c.tilesOf k.window bytes).any (fun t => !c.tileOwned t) then some (0x04, k.window, 2, 0)
        else none
      match dest with
      | some x => some x
      | none =>
        if k.be && !c.barrierOk k.barrier then some (0x08, k.barrier, 6, 0)
        else if k.push && !ringUsable s c k.queue then some (0x09, c.offset + (queueOf s c k.queue).1, 6, 0)
        else none

/-- Where the bytes of a job land: its window address or its tensor's base. -/
def Card.base (k : Card) (s : State) (core : Nat) (node : Word) : Nat :=
  if k.kind = 1 then
    match recordFields (recordAt s core node k.dest.toNat) with
    | some R => R.base
    | none => 0
  else k.window

/-- The 32-byte sectors of a job's output. -/
def Card.sectors (k : Card) (base : Nat) : List Nat := (List.range ((base + k.olen - 1) / 32 - base / 32 + 1)).map fun j => base / 32 + j

def startRun (k : Card) (a : Access) (reserved : Bool) (c : Crew) (s : State) : State :=
  let id := s.nextId
  let r := ringAt s (c.key (queueOf s c k.queue).1)
  let cmd : Command :=
    { id := id, op := 5, gang := s.g.uid, crew := c.uid, stage := s.g.stage.toNat, tenant := s.g.tenant, node := s.g.node
      leader := (leaderOf a.lanes).val, coords := [], window := k.window, gId := k.source, pId := k.dest, mode := 0
      barrier := if k.be then some k.barrier else none, queue := if k.push then some (k.queue, r.tail) else none, fifoB := false, mask := 0
      card := some k, image := [], rnd := 1, done := 0, units := (k.sectors (k.base s c.core s.g.node)).length, sent := false
      reserved := reserved, behind := [], suspended := false, fault := none }
  let s1 := { s with nextId := id + 1 }.setCore c.core fun q => { q with cmds := q.cmds ++ [cmd] }
  let s2 := if k.kind = 1 then s1 else holdTiles c.uid (c.tilesOf k.window (List.range k.olen)) id s1
  if k.push then ringReserve c.uid k.queue r s2 else s2

/-- The card that an `xp.run` keeps while it waits for ring room (08 R218): with the gang at its first issue, in its entry at a re-issue. -/
def keptCard (first : Bool) (e : Nat) (s : State) : Option Card := if first then s.g.card else (s.g.entry e).card

def keepCard (first : Bool) (e : Nat) (k : Option Card) (s : State) : State :=
  s.setG fun g => if first then { g with card := k } else g.setEntry e { g.entry e with card := k }

/-- The card as the engine keeps it: read once, when the word has met every condition but ring room. -/
def cardFor (first : Bool) (e va : Nat) (s : State) : Got (Option Card) :=
  match keptCard first e s with
  | some k => .ok (some k) s
  | none => (readLong s.client.read (linesFor 64) va 64 s).got.next fun b s => .ok (parseCard b) s

def acceptRun (first : Bool) (a : Access) (e : Nat) (s : State) : Accept :=
  match s.myCrew with
  | none => .wait s
  | some c =>
    match freeSlot s c.core c.uid s.g.stage.toNat with
    | none => .wait s
    | some own =>
      let va := a.base.toNat
      if va % 64 != 0 then reject 9 0x0A va 3 0 e a s
      else
        match cardFor first e va s with
        | .wait s1 => .wait s1
        | .bad w s1 =>
          .bad ⟨causeOf 9 (if engineCode w = 0x10 then 0x10 else 0x11), engineDetail w.addr 3 w.stage2 e (leaderOf a.lanes).val 0 0 false⟩
            (keepCard first e none s1)
        | .ok none s1 => reject 9 0x0A va 3 0 e a s1
        | .ok (some k) s1 =>
          if k.push && ringFull s1 c k.queue then .wait (keepCard first e (some k) s1)
          else
            let s2 := keepCard first e none s1
            match runFault k va c s2 with
            | some (code, addr, kind, ident) => reject 9 code addr kind ident e a s2
            | none => .done (startRun k a own c s2)

/-! ## A command's sectors (08 R206, R209-R211) -/

def Command.client (c : Command) (core : Nat) : Client := ⟨⟨core, c.tenant, c.gang, false⟩, c.node⟩

def Command.recordFor (c : Command) (core : Nat) (s : State) (id : Byte) : Option Rec := recordFields (recordAt s core c.node id.toNat)

def Command.receivers (c : Command) (s : State) : List Crew :=
  match s.crew? c.crew with
  | some k => receiversOf s c.op c.mask.toNat k
  | none => []

/-- The elements of the box whose first byte lies in the sector now due, in ascending pad offset (08 R206). -/
def Command.due (c : Command) (P : Rec) : List (List Int) :=
  let sec := (windowSectors c.window P.boxBytes).getD c.done 0
  sortBy P.bitOf ((boxOf P.ext).filter fun b => (c.window + (P.place b).1) / 32 = sec)

/-- An element's code on its way in: the element's bits where format and scale allow, else rounded (08 R206). -/
def loadCode (k : Client) (G P : Rec) (mode : RMode) (g : List Int) (rnd : Half) (s : State) : Got (Nat × Half) :=
  if G.inBounds g && G.elem == P.elem && G.smode = 0 then
    let (o, bit) := G.place g
    (G.fetch k.read o G.cbytes s).got.next fun b s => .ok (G.code b bit, rnd) s
  else
    (G.readElem k.read g s).next fun v s =>
      let r := stepFor mode rnd
      .ok ((P.elem.fmt.round mode r v).1, r) s

/-- A later element of the box names the same element of G (08 R206). -/
def superseded (G P : Rec) (c : List Int) (b : List Int) : Bool :=
  let rest := ((boxOf P.ext).dropWhile fun x => x != b).drop 1
  rest.any fun x => G.inBounds (addCoords c x) && G.offset (addCoords c x) = G.offset (addCoords c b)

/-- Elements of one sector moved into each receiver's pad. An element is rounded once, under RS too, and every receiver has the same code: no
rule says whether each draws its own; DESIGN CHOICE (log entry 113). -/
def moveIn (c : Command) (core : Nat) (G P : Rec) (me : Crew) (s : State) : Got Half :=
  eachGot (fun b rnd s =>
    (loadCode (c.client core) G P (modeCode c.mode.toNat) (addCoords c.coords b) rnd s).next fun x s =>
      .ok x.2 ((c.receivers s).foldl (fun s r => padPut r P (landAt me r c.window) b x.1 s) s)) (c.due P) c.rnd s

/-- Elements of one sector moved out of the pad. The source steps for an element written into a mode-1 block whose scale is 0xFF too: it is
an element that the write rounds, whatever its value (02 R45, R54); DESIGN CHOICE, log entry 96. -/
def moveOut (c : Command) (core : Nat) (G P : Rec) (me : Crew) (s : State) : Got Half :=
  let k := c.client core
  eachGot (fun b rnd s =>
    let g := addCoords c.coords b
    if !G.inBounds g then .ok rnd s
    else
      let r := stepFor (modeCode c.mode.toNat) rnd
      if superseded G P c.coords b then .ok r s
      else
        (G.writeElem k.read k.readForWrite (k.write c.id) (modeCode c.mode.toNat) r g (quiet (P.elem.fmt.value (padCode me P c.window b s))) s).next
          fun _ s => .ok r s) (c.due P) c.rnd s

/-- A FIFO of a core takes bytes. -/
def fifoPush (core : Nat) (b : Bool) (bs : List Byte) (s : State) : State :=
  s.setCore core fun k => if b then { k with fifoB := k.fifoB ++ bs } else { k with fifoA := k.fifoA ++ bs }

/-- One 32-byte unit of a FIFO payload (08 R209). Under RS the source steps in box order, ascending b0 first: a payload has no pad offset, and no rule
gives another order; DESIGN CHOICE (log entry 113). -/
def moveFifo (c : Command) (core : Nat) (G P : Rec) (s : State) : Got Half :=
  let w := P.elem.bits
  let per := 256 / w
  let els := ((boxOf P.ext).drop (c.done * per)).take per
  (eachGot (fun b (x : List Nat × Half) s =>
    (loadCode (c.client core) G P (modeCode c.mode.toNat) (addCoords c.coords b) x.2 s).next fun y s => .ok (x.1 ++ [y.1], y.2) s)
    els ([], c.rnd) s).next fun x s =>
      .ok x.2 (fifoPush core c.fifoB (toBytes 32 (x.1.reverse.foldl (fun a v => a * 2 ^ w + v) 0)) s)

/-- Bytes of a job's gap table (08 R215). -/
def Card.tableBytes (k : Card) : Nat := if k.seg = 0 then 0 else 8 * ((k.olen + 2 ^ k.seg.toNat - 1) / 2 ^ k.seg.toNat - 1)

/-- The whole image of a job, read and decoded. -/
def decodeJob (c : Command) (core : Nat) (k : Card) (s : State) : Got (List Byte) :=
  match c.recordFor core s k.source with
  | none => .ok (zeros k.olen) s
  | some S =>
    let rd := (c.client core).read
    (readLong rd (linesFor k.ilen) S.base k.ilen s).got.next fun inp s =>
      (readLong rd (linesFor k.tableBytes) k.gap k.tableBytes s).got.next fun table s =>
        match imageOf S k inp table with
        | .ok out => .ok out s
        | .error (code, addr) => .bad ⟨9, code, addr, false⟩ s

/-- The bytes of a job's image in the sector now due: the address of the first, and the bytes. -/
def Command.piece (c : Command) (k : Card) (base : Nat) : Nat × List Byte :=
  let sec := (k.sectors base).getD c.done 0
  let lo := max base (32 * sec)
  (lo, slice c.image (lo - base) (min (base + k.olen) (32 * sec + 32) - lo))

def moveJob (c : Command) (core : Nat) (k : Card) (me : Crew) (s : State) : Got Half :=
  let base := k.base s core c.node
  let (lo, bs) := c.piece k base
  if k.kind = 1 then ((c.client core).write c.id lo bs s).got.next fun _ s => .ok c.rnd s
  else .ok c.rnd (padWrite me 0 lo bs s)

/-- The sector now due moved. -/
def moveSector (c : Command) (core : Nat) (s : State) : Got Half :=
  match s.crew? c.crew with
  | none => .ok c.rnd s
  | some me =>
    match c.card with
    | some k => (moveJob c core k me s).land (core / 40)
    | none =>
      match c.recordFor core s c.gId, c.recordFor core s c.pId with
      | some G, some P =>
        if c.op = 1 then (moveOut c core G P me s).land (core / 40)
        else if c.op = 3 then moveFifo c core G P s
        else moveIn c core G P me s
      | _, _ => .ok c.rnd s

/-! ## Events of a command -/

def findCmd (s : State) (core id : Nat) : Option Command := (s.core core).cmds.find? fun c => c.id = id

def setCmd (core id : Nat) (f : Command → Command) (s : State) : State :=
  s.setCore core fun k => { k with cmds := mapIf (fun c => c.id = id) f k.cmds }

def dropCmd (core id : Nat) (s : State) : State := s.setCore core fun k => { k with cmds := k.cmds.filter fun c => c.id != id }

def Command.group (c : Command) : Nat := if c.op = 5 then 9 else 7

/-- A failure's address, virtual or fabric physical, lies in n bytes from a virtual address of a tenant. -/
def State.names (s : State) (t : BitVec 6) (va n addr : Nat) : Bool :=
  (va ≤ addr && addr < va + n) ||
    s.tlb.any fun e => e.tenant = t && e.fpa ≤ addr && addr < e.fpa + e.size && va + e.fpa ≤ e.base + addr && e.base + addr < va + n + e.fpa

/-- The kind a fault's detail names (08 R222): a `cp.st` reads no more of memory than the scales of its elements. -/
def Command.kind (c : Command) (core : Nat) (w : Why) (s : State) : Nat :=
  match c.card with
  | some k => if !c.image.isEmpty then 1 else if s.names c.tenant k.gap k.tableBytes w.addr then 4 else 5
  | none =>
    if c.op != 1 then 0
    else
      match c.recordFor core s c.gId, c.recordFor core s c.pId with
      | some G, some P =>
        if G.smode != 0 && ((c.due P).map (addCoords c.coords)).any fun g => G.inBounds g && s.names c.tenant (G.scaleAddr g) 1 w.addr then 0 else 1
      | _, _ => 1

/-- The identifier a report names: of a job's image on its way out, the destination's. -/
def Command.concerned (c : Command) : Nat := if c.card.isSome && !c.image.isEmpty then c.pId.toNat else c.gId.toNat

/-- A command meets a failure: it waits for its report, suspended where the failure is of translation (08 R220). The sectors that it reports of a
`cp.mc` are the box's, whatever the receivers: no rule says so; DESIGN CHOICE (log entry 114). -/
def failCmd (core : Nat) (c : Command) (kind : Nat) (w : Why) (s : State) : State :=
  let code := if w.group = 9 then w.code else engineCode w
  let f : FaultRec := ⟨causeOf c.group code, engineDetail w.addr kind w.stage2 0 c.leader c.concerned c.done (code = 0x10)⟩
  setCmd core c.id (fun c => { c with fault := some f, suspended := code = 0x10 }) s

/-- A fill of a FIFO may run: no earlier fill of that FIFO is left (08 R209, R223). -/
def fifoTurn (s : State) (core : Nat) (c : Command) : Bool :=
  c.op != 3 || ((s.core core).cmds.takeWhile fun x => x.id != c.id).all fun x => !(x.op = 3 && x.fifoB == c.fifoB)

/-- The command can run: what its handler stored is performed, where it has been resumed (11 R253). -/
def cmdRuns (s : State) (core : Nat) (c : Command) : Bool :=
  !c.suspended && c.fault.isNone && fifoTurn s core c && s.records.all fun r => !c.behind.contains r.id

/-- Writes that a command or task has posted and no home has acknowledged. -/
def posted (s : State) (id : Nat) : Bool := s.packets.any fun p => p.cmd = id

/-- n sectors counted at each receiver's barrier. -/
def countAt (c : Command) (n : Nat) (s : State) : State :=
  match c.barrier, s.crew? c.crew with
  | some b, some me => (c.receivers s).foldl (fun s r => countSectors r (landAt me r b) n s) s
  | _, _ => s

/-- A sector is landed and, but for the last, counted: the last waits for the tiles' return (08 R211). -/
def sectorDone (core : Nat) (c : Command) (s : State) : State :=
  let s1 := setCmd core c.id (fun c => { c with done := c.done + 1, sent := false }) s
  if c.op != 3 && c.done + 1 < c.units then countAt c 1 s1 else s1

/-- SECTOR_LANDED (08 R206, R211). -/
def landSector (core id : Nat) (s : State) : State :=
  match findCmd s core id with
  | none => s
  | some c =>
    if !cmdRuns s core c || c.units ≤ c.done then s
    else if c.sent then (if posted s c.id then s else sectorDone core c s)
    else
      match c.card, c.image with
      | some k, [] =>
        match decodeJob c core k s with
        | .wait s1 => s1
        | .bad w s1 => failCmd core c (c.kind core w s1) w s1
        | .ok out s1 => setCmd core id (fun c => { c with image := out }) s1
      | _, _ =>
        match moveSector c core s with
        | .wait s1 => s1
        | .bad w s1 => failCmd core c (c.kind core w s1) w s1
        | .ok rnd s1 =>
          let s2 := setCmd core id (fun c => { c with rnd := rnd, sent := true }) s1
          if posted s2 c.id then s2 else sectorDone core c s2

/-- The reserved ring entry of a command receives its handle (08 R208). -/
def fillEntry (c : Command) (bad : Bool) (s : State) : State :=
  match c.queue, s.crew? c.crew with
  | some (q, i), some me =>
    ringFill me.uid q i (c.window / 4096 + if bad then 0x8000 else 0) (ringAt s (me.key (queueOf s me q).1)) s
  | _, _ => s

/-- A command leaves: tiles back, ring entry written, the remaining sectors counted, its entry freed. -/
def endCmd (core : Nat) (c : Command) (bad : Bool) (n : Nat) (s : State) : State :=
  countAt c n (fillEntry c bad (releaseTiles c.id (dropCmd core c.id s)))

/-- COPY_COMMAND_COMPLETE (08 R200, R208, R211). -/
def completeCmd (core id : Nat) (s : State) : State :=
  match findCmd s core id with
  | some c =>
    if cmdRuns s core c && c.done = c.units && !posted s c.id then endCmd core c false (if c.op = 3 then 0 else 1) s else s
  | none => s

/-! ## Faults after acceptance (08 R220) -/

/-- The state of an access, whatever it answers. -/
def Got.state {α : Type} (x : Got α) : State :=
  match x with
  | .ok _ s => s
  | .bad _ s => s
  | .wait s => s

/-- The bytes of the sector now due take unspecified values. -/
def spoilSector (c : Command) (core : Nat) (s : State) : State :=
  match s.crew? c.crew with
  | none => s
  | some me =>
    match c.card with
    | some k =>
      let (u, s1) := unspecified k.olen s
      let d : Command := { c with image := u }
      (moveJob d core k me s1).state
    | none =>
      match c.recordFor core s c.gId, c.recordFor core s c.pId with
      | some G, some P =>
        if c.op = 3 then
          let (u, s1) := unspecified 32 s
          fifoPush core c.fifoB u s1
        else
          (c.due P).foldl (fun s b =>
            let (u, s1) := unspecified 4 s
            if c.op = 1 then
              let g := addCoords c.coords b
              if G.inBounds g then
                ((G.writeCode ((c.client core).readForWrite) ((c.client core).write 0) g (ofBytes u % 2 ^ G.elem.fmt.width) s1).got).state
              else s1
            else (c.receivers s1).foldl (fun s r => padPut r P (landAt me r c.window) b (ofBytes u % 2 ^ P.elem.fmt.width) s) s1) s
      | _, _ => s

/-- The sectors left take unspecified values. -/
def spoil (core : Nat) : Nat → Command → State → State
  | 0, _, s => s
  | n + 1, c, s => spoil core n { c with done := c.done + 1 } (spoilSector c core s)

/-- A command abandoned: the barrier's fault field, its remaining sectors, its tiles, its ring entry with bit 15 (08 R220). -/
def abandonCmd (core : Nat) (c : Command) (group code : Nat) (s : State) : State :=
  let s1 := landWrites (core / 40) (spoil core (c.units - c.done) c s)
  let s2 := match c.barrier, s1.crew? c.crew with
    | some b, some me => (c.receivers s1).foldl (fun s r => barrierFault r (landAt me r b) group code s) s1
    | _, _ => s1
  endCmd core c true (c.units - min c.done (c.units - 1)) s2

/-- COPY_FAULT_REPORT (08 R220). -/
def reportCmd (core id : Nat) (s : State) : State :=
  match findCmd s core id with
  | none => s
  | some c =>
    match c.fault with
    | none => s
    | some f =>
      let s1 := queueReport c.gang ⟨f, core, id, c.suspended⟩ s
      if c.suspended then setCmd core id (fun c => { c with fault := none }) s1
      else abandonCmd core c (f.cause.toNat / 256) (f.cause.toNat % 256) s1

/-- COMMAND_RESUME (08 R220): at `tret` a suspended command goes on from its faulting sector, behind records (11 R253), or is abandoned. -/
def resumeCmd (core id : Nat) (behind : Option (List Nat)) (s : State) : State :=
  match findCmd s core id with
  | some c =>
    if !c.suspended then s
    else
      match behind with
      | some ids => setCmd core id (fun c => { c with suspended := false, fault := none, behind := ids }) s
      | none => abandonCmd core c c.group 0x10 s
  | none => s

/-- `cp_ld` (08 R201-R212, R428). -/
def execCpLd (a : BitVec 5) (b : BitVec 5) (c : BitVec 5) (k : BitVec 3) (l : BitVec 4) (s : State) : Out :=
  .next (issue ({ major := 0x20, sr := [a.toNat, a.toNat + 1, b.toNat, c.toNat], pr := [k.toNat], la := l.toNat, bad := codeIf (a.toNat = 31) 0x07 }) (fun s => engineWord ({ major := 0x20, sr := [a.toNat, a.toNat + 1, b.toNat, c.toNat], pr := [k.toNat], la := l.toNat, bad := codeIf (a.toNat = 31) 0x07 }) (capCopy 0 k.toNat a.toNat b.toNat c.toNat) (acceptCopy 0) s) s)

/-- `cp_st` (08 R201-R212, R428). -/
def execCpSt (a : BitVec 5) (b : BitVec 5) (c : BitVec 5) (k : BitVec 3) (l : BitVec 4) (s : State) : Out :=
  .next (issue ({ major := 0x20, sr := [a.toNat, a.toNat + 1, b.toNat, c.toNat], pr := [k.toNat], la := l.toNat, bad := codeIf (a.toNat = 31) 0x07 }) (fun s => engineWord ({ major := 0x20, sr := [a.toNat, a.toNat + 1, b.toNat, c.toNat], pr := [k.toNat], la := l.toNat, bad := codeIf (a.toNat = 31) 0x07 }) (capCopy 1 k.toNat a.toNat b.toNat c.toNat) (acceptCopy 1) s) s)

/-- `cp_ldq` (08 R201-R212, R428). -/
def execCpLdq (a : BitVec 5) (b : BitVec 5) (c : BitVec 5) (k : BitVec 3) (l : BitVec 4) (s : State) : Out :=
  .next (issue ({ major := 0x20, sr := [a.toNat, a.toNat + 1, b.toNat, c.toNat], pr := [k.toNat], la := l.toNat, bad := codeIf (a.toNat = 31) 0x07 }) (fun s => engineWord ({ major := 0x20, sr := [a.toNat, a.toNat + 1, b.toNat, c.toNat], pr := [k.toNat], la := l.toNat, bad := codeIf (a.toNat = 31) 0x07 }) (capCopy 2 k.toNat a.toNat b.toNat c.toNat) (acceptCopy 2) s) s)

/-- `cp_mc` (08 R201-R212, R428). -/
def execCpMc (a : BitVec 5) (b : BitVec 5) (c : BitVec 5) (k : BitVec 3) (l : BitVec 4) (s : State) : Out :=
  .next (issue ({ major := 0x20, sr := [a.toNat, a.toNat + 1, b.toNat, c.toNat], pr := [k.toNat], la := l.toNat, bad := codeIf (a.toNat = 31) 0x07 }) (fun s => engineWord ({ major := 0x20, sr := [a.toNat, a.toNat + 1, b.toNat, c.toNat], pr := [k.toNat], la := l.toNat, bad := codeIf (a.toNat = 31) 0x07 }) (capCopy 4 k.toNat a.toNat b.toNat c.toNat) (acceptCopy 4) s) s)

/-- `cp_fifo` (08 R201-R209, R428). -/
def execCpFifo (a : BitVec 5) (c : BitVec 5) (k : BitVec 3) (l : BitVec 4) (s : State) : Out :=
  .next (issue ({ major := 0x20, sr := [a.toNat, a.toNat + 1, c.toNat], pr := [k.toNat], la := l.toNat, bad := codeIf (a.toNat = 31) 0x07 }) (fun s => engineWord ({ major := 0x20, sr := [a.toNat, a.toNat + 1, c.toNat], pr := [k.toNat], la := l.toNat, bad := codeIf (a.toNat = 31) 0x07 }) (capCopy 3 k.toNat a.toNat 0 c.toNat) (acceptCopy 3) s) s true)

/-- `cp_grant` (08 R213). -/
def execCpGrant (a : BitVec 5) (s : State) : Out :=
  .next (issue ({ major := 0x21, sr := [a.toNat], sw := [], la := 0 }) (fun s => engineWord ({ major := 0x21, sr := [a.toNat], sw := [], la := 0 }) (capOnce 0x21 0 0 a.toNat 0 0) (acceptGrant) s) s)

/-- `cp_slots` (08 R213). -/
def execCpSlots (d : BitVec 5) (l : BitVec 4) (s : State) : Out :=
  .next (issue ({ major := 0x21, sr := [], sw := [d.toNat], la := l.toNat }) (fun s => engineWord ({ major := 0x21, sr := [], sw := [d.toNat], la := l.toNat }) (capOnce 0x21 1 d.toNat 0 0 0) (acceptSlots) s) s)

/-- `cp_count` (08 R213). -/
def execCpCount (d : BitVec 5) (l : BitVec 4) (s : State) : Out :=
  .next (issue ({ major := 0x21, sr := [], sw := [d.toNat], la := l.toNat }) (fun s => engineWord ({ major := 0x21, sr := [], sw := [d.toNat], la := l.toNat }) (capOnce 0x21 2 d.toNat 0 0 0) (acceptCount) s) s)

/-- `xp_run` (08 R214-R218, R428). -/
def execXpRun (a : BitVec 5) (k : BitVec 3) (l : BitVec 4) (s : State) : Out :=
  .next (issue ({ major := 0x22, sr := [a.toNat], pr := [k.toNat], la := l.toNat }) (fun s => engineWord ({ major := 0x22, sr := [a.toNat], pr := [k.toNat], la := l.toNat }) (capRun k.toNat a.toNat) (acceptRun true) s) s)

end Sys2Proof.Machine
end

