-- ==== Sys2Proof/Machine/CrossLane.lean ====
section
/-! DEFINITION. Meanings: the cross-lane words of major 0x13 (05 R148, R149). -/

namespace Sys2Proof.Machine

/-- The value in a lane by number. -/
def laneAt (x : Lanes Word) (k : Nat) : Word := if h : k < 32 then x[k] else 0

def foldOne (f : Word → Word → Word) : List Word → Word
  | [] => 0
  | x :: r => r.foldl f x

/-- The active lanes' values below lane k. -/
def activeUpTo (m : Word) (k : Nat) (x : Lanes Word) : List Word :=
  (lanes32.filter fun L => lane m L && L.val < k).map fun L => x[L]

/-- One value for every active lane. -/
def reduceWord (sh : Shape) (d : Nat) (f : Regs → Word × Flags) (s : State) : State :=
  issue sh (fun s =>
    let q := s.src
    let v := f q
    if q.emask = 0 then s
    else s.setR fun r => { r.setV d (merge q.emask (r.vreg d) (Lanes.all v.1)) with xstat := r.xstat ||| v.2 }) s

/-- `vshfl_idx` (05 R148). -/
def execVshflIdx (d : BitVec 7) (a : BitVec 7) (b : BitVec 7) (s : State) : Out :=
  .next (laneWord ({ shX d.toNat a.toNat with srcB := [b.toNat] }) d.toNat (fun q L => (laneAt (q.vreg a.toNat) ((q.vreg b.toNat)[L].toNat % 32), 0)) s)

/-- `vshfl_up` (05 R148). -/
def execVshflUp (d : BitVec 7) (a : BitVec 7) (n : BitVec 5) (s : State) : Out :=
  .next (laneWord (shX d.toNat a.toNat) d.toNat (fun q L => (if n.toNat ≤ L.val then laneAt (q.vreg a.toNat) (L.val - n.toNat) else (q.vreg a.toNat)[L], 0)) s)

/-- `vshfl_down` (05 R148). -/
def execVshflDown (d : BitVec 7) (a : BitVec 7) (n : BitVec 5) (s : State) : Out :=
  .next (laneWord (shX d.toNat a.toNat) d.toNat (fun q L => (if L.val + n.toNat ≤ 31 then laneAt (q.vreg a.toNat) (L.val + n.toNat) else (q.vreg a.toNat)[L], 0)) s)

/-- `vshfl_xor` (05 R148). -/
def execVshflXor (d : BitVec 7) (a : BitVec 7) (n : BitVec 5) (s : State) : Out :=
  .next (laneWord (shX d.toNat a.toNat) d.toNat (fun q L => (laneAt (q.vreg a.toNat) (L.val ^^^ n.toNat), 0)) s)

/-- `vballot` (05 R148). -/
def execVballot (d : BitVec 7) (p : BitVec 3) (s : State) : Out :=
  .next (laneWord ({ major := 0x13, dst := [d.toNat], pr := [p.toNat] }) d.toNat (fun q _ => (q.preg p.toNat &&& q.emask, 0)) s)

/-- `vvote_all` (05 R148). -/
def execVvoteAll (d : BitVec 3) (p : BitVec 3) (s : State) : Out :=
  .next (lanePredWord ({ major := 0x13, pw := [d.toNat], pr := [p.toNat] }) d.toNat (fun q _ => (q.preg p.toNat &&& q.emask) == q.emask) s)

/-- `vvote_any` (05 R148). -/
def execVvoteAny (d : BitVec 3) (p : BitVec 3) (s : State) : Out :=
  .next (lanePredWord ({ major := 0x13, pw := [d.toNat], pr := [p.toNat] }) d.toNat (fun q _ => (q.preg p.toNat &&& q.emask) != 0) s)

/-- `vmatch_b32` (05 R148). -/
def execVmatchB32 (d : BitVec 7) (a : BitVec 7) (s : State) : Out :=
  .next (laneWord (shX d.toNat a.toNat) d.toNat (fun q L => (laneMask fun M => lane q.emask M && (q.vreg a.toNat)[M] == (q.vreg a.toNat)[L], 0)) s)

/-- `vred_add_i32` (05 R148). -/
def execVredAddI32 (d : BitVec 7) (a : BitVec 7) (s : State) : Out :=
  .next (laneWord (shX d.toNat a.toNat) d.toNat (fun q _ => ((activeValues q.emask (q.vreg a.toNat)).foldl (· + ·) 0, 0)) s)

/-- `vred_max_i32` (05 R148). -/
def execVredMaxI32 (d : BitVec 7) (a : BitVec 7) (s : State) : Out :=
  .next (laneWord (shX d.toNat a.toNat) d.toNat (fun q _ => (foldOne (fun x y => if x.slt y then y else x) (activeValues q.emask (q.vreg a.toNat)), 0)) s)

/-- `vred_min_i32` (05 R148). -/
def execVredMinI32 (d : BitVec 7) (a : BitVec 7) (s : State) : Out :=
  .next (laneWord (shX d.toNat a.toNat) d.toNat (fun q _ => (foldOne (fun x y => if y.slt x then y else x) (activeValues q.emask (q.vreg a.toNat)), 0)) s)

/-- `vred_add_f32` (05 R148, R149). -/
def execVredAddF32 (d : BitVec 7) (a : BitVec 7) (s : State) : Out :=
  .next (reduceWord (shX d.toNat a.toNat) d.toNat (fun q => fSumLanes (activeValues q.emask (q.vreg a.toNat))) s)

/-- `vred_max_f32` (05 R148, R149). -/
def execVredMaxF32 (d : BitVec 7) (a : BitVec 7) (s : State) : Out :=
  .next (reduceWord (shX d.toNat a.toNat) d.toNat (fun q => fMaxLanes (activeValues q.emask (q.vreg a.toNat))) s)

/-- `vscan_add_i32` (05 R148). -/
def execVscanAddI32 (d : BitVec 7) (a : BitVec 7) (s : State) : Out :=
  .next (laneWord (shX d.toNat a.toNat) d.toNat (fun q L => ((activeUpTo q.emask (L.val + 1) (q.vreg a.toNat)).foldl (· + ·) 0, 0)) s)

/-- `vscanx_add_i32` (05 R148). -/
def execVscanxAddI32 (d : BitVec 7) (a : BitVec 7) (s : State) : Out :=
  .next (laneWord (shX d.toNat a.toNat) d.toNat (fun q L => ((activeUpTo q.emask L.val (q.vreg a.toNat)).foldl (· + ·) 0, 0)) s)

/-- `vscan_add_f32` (05 R148, R149). -/
def execVscanAddF32 (d : BitVec 7) (a : BitVec 7) (s : State) : Out :=
  .next (laneWord (shX d.toNat a.toNat) d.toNat (fun q L => fSumLanes (activeUpTo q.emask (L.val + 1) (q.vreg a.toNat))) s)

end Sys2Proof.Machine
end

