-- ==== Sys2Proof/Machine/Matrix.lean ====
section
/-! DEFINITION. Meanings: the matrix engine, major 0x24, and what its tasks do after acceptance (10). -/

namespace Sys2Proof.Machine

/-! ## Capture -/

def capTask (op k a : Nat) (s : State) : Access := captureEngine 0x24 op 0 (leaders k s) (s.src.sreg a) 0 0 0 s

/-! ## The tile-task record (10 R233) -/

def Task.w (t : Task) (k : Nat) : Nat := (t.words.getD k 0).toNat
def Task.kind (t : Task) : Nat := bits (t.w 0) 1 0
def Task.tile (t : Task) : Nat := bits (t.w 0) 6 3
def Task.zero (t : Task) : Bool := bits (t.w 0) 7 7 = 1
def Task.ident (t : Task) (b : Bool) : Nat := if b then bits (t.w 0) 23 16 else bits (t.w 0) 15 8
def Task.latched (t : Task) (b : Bool) : Bool := if b then bits (t.w 0) 26 26 = 1 else bits (t.w 0) 24 24 = 1
def Task.keeps (t : Task) (b : Bool) : Bool := (if b then bits (t.w 0) 27 27 = 1 else bits (t.w 0) 25 25 = 1) && !t.latched b
def Task.scaleOf (t : Task) (b : Bool) : Nat := if b then bits (t.w 0) 31 30 else bits (t.w 0) 29 28
def Task.opens (t : Task) : Bool := bits (t.w 0) 32 32 = 1
def Task.awaits (t : Task) : Nat := bits (t.w 0) 47 40
def Task.tag (t : Task) : Nat := bits (t.w 0) 58 48
def Task.dest (t : Task) : Nat := bits (t.w 1) 7 0
def Task.adds (t : Task) : Bool := t.kind = 2 && bits (t.w 1) 8 8 = 1
def Task.mode (t : Task) : Nat := bits (t.w 1) 11 9
def Task.be (t : Task) : Bool := bits (t.w 1) 12 12 = 1
def Task.barrier (t : Task) : Nat := bits (t.w 1) 36 16
def Task.window (t : Task) : Nat := t.w 2
def Task.origin (t : Task) : List Int :=
  [(BitVec.ofNat 32 (t.w 2)).toInt, (BitVec.ofNat 32 (t.w 2 / 2 ^ 32)).toInt, (BitVec.ofNat 32 (t.w 3)).toInt, (BitVec.ofNat 32 (t.w 3 / 2 ^ 32)).toInt]

/-- The bits of word k that a kind uses. -/
def usedBits (kind k : Nat) : Nat :=
  let common := 0x07FF0001000000FB
  let barrier := 0x1FFFFF1000
  match k with
  | 0 => if kind = 0 then common + 0xFFFFFF00 else common + 0xFF0000000000
  | 1 => if kind = 0 then 0 else if kind = 1 then barrier + 0xEFF else if kind = 2 then barrier + 0xFFF else barrier
  | 2 => if kind = 1 then 0x1FFFFF else if kind = 2 then 2 ^ 64 - 1 else 0
  | 3 => if kind = 2 then 2 ^ 64 - 1 else 0
  | 4 => if kind = 3 then 2 ^ 64 - 1 else 0
  | 5 => if kind = 3 then 0x1FFFFF else 0
  | _ => 0

/-- A field that the kind does not use, or a reserved code. -/
def Task.bad (t : Task) : Bool :=
  (List.range 8).any (fun k => t.w k &&& usedBits t.kind k != t.w k) || 1 < t.scaleOf false || 1 < t.scaleOf true || 4 < t.mode

/-! ## Operands (10 R230-R232, R235, R236) -/

/-- The format field of a record. -/
def formatField (r : BitVec 320) : BitVec 24 := r.extractLsb' 57 24

/-- Bytes of a slice and of a scale block. -/
def sliceBytes (R : Rec) : Nat := 256 * R.elem.bits
def scaleBytes (scale groups : Nat) : Nat := if scale = 0 then 0 else (64 * groups + 127) / 128 * 128

def operandShape (R : Rec) : Bool := R.extent 0 = 32 && R.extent 1 = 64 && R.extent 2 ≤ 256 && R.extent 3 = 1

def Core.pick (c : Core) (b : Bool) : Option (BitVec 24 × BitVec 2 × Nat) := if b then c.pickB else c.pickA
def Core.latch (c : Core) (b : Bool) : Option Latch := if b then c.latchB else c.latchA
def Core.setLatch (c : Core) (b : Bool) (l : Option Latch) : Core := if b then { c with latchB := l } else { c with latchA := l }
def Core.fifo (c : Core) (b : Bool) : List Byte := if b then c.fifoB else c.fifoA

/-- The bytes a latch holds when it is full. -/
def latchSize (format : BitVec 24) (scale groups : Nat) : Nat :=
  match elemOf format.toNat with
  | some E => scaleBytes scale groups + groups * (256 * E.bits)
  | none => 0

def Latch.full (l : Latch) : Bool := l.bytes.length = latchSize l.format l.scale.toNat l.groups

/-- A latched operand that does not fit the task, or a kept one that is too large (10 R236). -/
def latchBad (t : Task) (K : Core) (b : Bool) (raw : BitVec 320) (R : Rec) : Bool :=
  (t.latched b && K.pick b != some (formatField raw, BitVec.ofNat 2 (t.scaleOf b), R.extent 2)) ||
    (t.keeps b && 32768 < scaleBytes (t.scaleOf b) (R.extent 2) + R.extent 2 * sliceBytes R)

/-! ## Acceptance (10 R238, R429) -/

/-- The box of a drain: element (m, n) is box element (n, m), in ascending m, then n, m fastest. -/
def drainOrder : List (Nat × Nat) := (List.range 64).flatMap fun n => (List.range 64).map fun m => (m, n)

def Task.place (t : Task) (mn : Nat × Nat) : List Int := addCoords t.origin [(mn.2 : Nat), (mn.1 : Nat), 0, 0]

/-- Sectors a drain counts (10 R246). -/
def Task.sectorCount (t : Task) (D : Option Rec) : Nat :=
  match t.kind, D with
  | 1, some R => (windowSectors t.window R.boxBytes).length
  | 2, some R => (sortedNats ((drainOrder.filter fun mn => R.inBounds (t.place mn)).map fun mn => R.addr (t.place mn) / 32)).length
  | 3, _ => 512
  | _, _ => 0

/-- The first failure of a compute task's record: code, address, kind, identifier. -/
def computeFault (t : Task) (va : Nat) (s : State) : Option (Nat × Nat × Nat × Nat) :=
  let raw (b : Bool) : BitVec 320 := recordOf s (BitVec.ofNat 8 (t.ident b))
  let one (b : Bool) : Option (Nat × Nat × Nat × Nat) :=
    match recordFields (raw b) with
    | none => some (0x01, va, 5, t.ident b)
    | some R => if R.enc != 0 || R.smode != 0 then some (0x02, va, 5, t.ident b) else none
  match one false, one true with
  | some f, _ => some f
  | none, some f => some f
  | none, none =>
    match recordFields (raw false), recordFields (raw true) with
    | some A, some B =>
      let K := s.core s.g.coreIx
      if !operandShape A then some (0x0C, va, 5, t.ident false)
      else if !operandShape B || A.extent 2 != B.extent 2 then some (0x0C, va, 5, t.ident true)
      else if latchBad t K false (raw false) A then some (0x0D, va, 5, t.ident false)
      else if latchBad t K true (raw true) B then some (0x0D, va, 5, t.ident true)
      else none
    | _, _ => none

/-- The first failure of a drain's record. -/
def drainFault (t : Task) (va : Nat) (c : Crew) (s : State) : Option (Nat × Nat × Nat × Nat) :=
  let barrier : Option (Nat × Nat × Nat × Nat) := if t.be && !c.barrierOk t.barrier then some (0x08, t.barrier, 4, 0) else none
  if t.kind = 3 then barrier
  else
    match recordFields (recordOf s (BitVec.ofNat 8 t.dest)) with
    | none => some (0x01, va, 0, t.dest)
    | some D =>
      let bytes := D.boxBytes
      if D.enc != 0 || !D.allows (if t.adds then 3 else 2) || 2 ≤ D.smode || (D.smode != 0 && (t.kind = 1 || t.adds)) ||
          (t.kind = 1 && !D.boxDense) then some (0x02, va, 0, t.dest)
      else if t.kind = 1 && !(D.extent 0 = 64 && D.extent 1 = 64 && D.extent 2 = 1 && D.extent 3 = 1) then some (0x0C, va, 0, t.dest)
      else if t.kind = 2 && D.smode = 1 && (6 < D.sblk || coordAt t.origin 0 % ((2 ^ D.sblk : Nat) : Int) != 0) then some (0x0A, va, 0, t.dest)
      else if t.kind = 2 && D.fill = 3 && drainOrder.any (fun mn => !D.inBounds (t.place mn)) then some (0x03, va, 0, t.dest)
      else if t.kind = 1 && !c.holds t.window bytes then some (0x05, t.window, 2, 0)
      else if t.kind = 1 && (c.tilesOf t.window bytes).any (fun k => !c.tileOwned k) then some (0x04, t.window, 2, 0)
      else barrier

/-- A task accepted: queued, its pad tiles held, the latched shapes tracked. -/
def startTask (t : Task) (c : Crew) (s : State) : State :=
  let D := recordFields (recordOf s (BitVec.ofNat 8 t.dest))
  let t1 : Task := { t with total := t.sectorCount D }
  let shape (b : Bool) : Option (BitVec 24 × BitVec 2 × Nat) :=
    let raw := recordOf s (BitVec.ofNat 8 (t.ident b))
    (recordFields raw).map fun R => (formatField raw, BitVec.ofNat 2 (t.scaleOf b), R.extent 2)
  let s1 := { s with nextId := s.nextId + 1 }.setCore c.core fun k =>
    { k with
      tasks := k.tasks ++ [t1]
      pickA := if t.kind = 0 && t.keeps false then shape false else k.pickA
      pickB := if t.kind = 0 && t.keeps true then shape true else k.pickB }
  match t.kind, D with
  | 1, some R => holdTiles c.uid (c.tilesOf t.window R.boxBytes) t.id s1
  | _, _ => s1

/-- A rejected task: the detail carries the record's tag (10 R249). -/
def rejectTask (code addr kind ident entry tag : Nat) (two : Bool) (a : Access) (s : State) : Accept :=
  .bad ⟨causeOf 8 code, engineDetail addr kind two entry (leaderOf a.lanes).val ident tag false⟩ s

/-- `mtask` and `mdrain`. A record whose read fails remotely is reported with code 0x11: no code is stated for it, DESIGN CHOICE (log
entry 115). -/
def acceptTask (op : Nat) (a : Access) (e : Nat) (s : State) : Accept :=
  match s.myCrew with
  | none => .wait s
  | some c =>
    let va := a.base.toNat
    if 16 ≤ (s.core c.core).tasks.length then .wait s
    else if va % 64 != 0 then rejectTask 0x0A va 0 0 e 0 false a s
    else
      match readLong s.client.read (linesFor 64) va 64 s with
      | .wait s1 => .wait s1
      | .bad w s1 => rejectTask (if engineCode w = 0x10 then 0x10 else 0x11) w.addr 0 0 e 0 w.stage2 a s1
      | .ok b s1 =>
        let words := (List.range 8).map fun k => BitVec.ofNat 64 (ofBytes (slice b (8 * k) 8))
        let tag := bits (words.getD 0 0).toNat 58 48
        let t : Task :=
          { id := s1.nextId, gang := s1.g.uid, crew := c.uid, tenant := s1.g.tenant, node := s1.g.node, leader := (leaderOf a.lanes).val
            words := words, state := .queued, group := 0, sectors := 0, total := 0, rnd := seedOf tag s1.g.gangNo.toNat, values := []
            prevOpen := false, scaleA := [], scaleB := [], suspended := false, behind := [], fault := none }
        if (op = 0) != (t.kind = 0) || t.bad then rejectTask 0x0A va 0 0 e tag false a s1
        else
          match (if t.kind = 0 then computeFault t va s1 else drainFault t va c s1) with
          | some (code, addr, kind, ident) => rejectTask code addr kind ident e tag false a s1
          | none => .done (startTask t c s1)

def tileOf (K : Core) (t : Nat) : Tile :=
  match K.tiles with
  | some v => if h : t < 16 then v[t] else ⟨Vector.replicate 4096 0, false, 0⟩
  | none => ⟨Vector.replicate 4096 0, false, 0⟩

/-- `mstat` (10 R239). -/
def acceptStat (a : Access) (_e : Nat) (s : State) : Accept :=
  let K := s.core s.g.coreIx
  let T := tileOf K (a.base.toNat % 16)
  let full (b : Bool) : Nat := match K.latch b with
    | some l => if l.full then 1 else 0
    | none => 0
  .done (s.setR fun r => r.setS a.op.reg (BitVec.ofNat 64
    (K.tasks.length + T.arrivals * 2 ^ 8 + (if T.open_ then 2 ^ 16 else 0) + full false * 2 ^ 17 + full true * 2 ^ 18)))

/-! ## Tasks and tiles of a core -/

def setTask (core id : Nat) (f : Task → Task) (s : State) : State :=
  s.setCore core fun k => { k with tasks := mapIf (fun t => t.id = id) f k.tasks }

def findTask (s : State) (core id : Nat) : Option Task := (s.core core).tasks.find? fun t => t.id = id

def setTile (core t : Nat) (f : Tile → Tile) (s : State) : State :=
  s.setCore core fun k => { k with tiles := k.tiles.map fun v => v.setIfInBounds t (f (tileOf k t)) }

def zeroTile (T : Tile) : Tile := { T with acc := Vector.replicate 4096 0 }

/-- The queue stands still: its crew is being evicted, or a gang of it has not issued its restoring `tret` (10 R250, R251). -/
def matrixPaused (s : State) (core : Nat) : Bool :=
  match (s.core core).matrixOf with
  | none => true
  | some u =>
    (s.allGangs.any fun g => g.crew = u && g.restoring) ||
      match s.crew? u with
      | some c =>
        match s.ensemble? c.ensemble with
        | some e => e.state != .resident
        | none => true
      | none => true

/-! ## The picker (10 R240) -/

/-- The task's own conditions hold, behind the tasks before it. -/
def taskReady (K : Core) (before : List Task) (t : Task) : Bool :=
  (before.all fun x => x.tile != t.tile) &&
    (if t.kind = 0 then
      [false, true].all fun b =>
        (!t.latched b || before.all fun x => !(x.kind = 0 && x.keeps b)) && (!t.keeps b || before.all fun x => !(x.kind = 0 && x.latched b))
     else t.awaits ≤ (tileOf K t.tile).arrivals)

/-- A task starts: a compute task clears its tile where it says so; a drain reads its tile, clears it, takes its arrivals and closes
it (10 R234, R245). -/
def beginTask (core : Nat) (t : Task) (s : State) : State :=
  let T := tileOf (s.core core) t.tile
  if t.kind = 0 then
    (if t.zero then setTile core t.tile zeroTile s else s) |> setTask core t.id fun t => { t with state := .running }
  else
    let s1 := setTile core t.tile (fun T =>
      let U := if t.zero then zeroTile T else T
      if t.awaits = 0 then U else { U with arrivals := U.arrivals - t.awaits, open_ := false }) s
    setTask core t.id (fun t => { t with state := .running, values := T.acc.toList, prevOpen := T.open_ }) s1

/-! ## A k-group (10 R231-R236) -/

/-- An element's value under its scale. -/
def operandValue (E : Elem) (code : Nat) (scale : Option Nat) : XVal :=
  let v := quiet (E.fmt.value (code % 2 ^ E.fmt.width))
  match scale with
  | none => v
  | some 255 => .nan false false
  | some x =>
    match v with
    | .fin n m e => .fin n m (e + x - 127)
    | y => y

/-- Row r of a slice: its 32 values. -/
def sliceRow (E : Elem) (bytes : List Byte) (r : Nat) (scale : Option Nat) : List XVal :=
  let row := ofBytes (slice bytes (4 * E.bits * r) (4 * E.bits))
  (List.range 32).map fun j => operandValue E (row / 2 ^ (E.bits * j) % 2 ^ E.bits) scale

/-- One accumulation (10 R234). -/
def accumulate (old : Word) (a b : List XVal) : Word :=
  let s := (xsum false (List.zipWith (fun x y => (xmul x y).1) a b)).1
  (out32 (xadd (f32 old) (toX32 s))).1

def computeGroup (acc : Vector Word 4096) (A B : Nat → List XVal) : Vector Word 4096 :=
  let rows := (List.range 64).map A
  let cols := (List.range 64).map B
  Vector.ofFn fun k : Fin 4096 => accumulate acc[k] (rows.getD (k.val / 64) []) (cols.getD (k.val % 64) [])

/-- The bytes an operand of the task takes for its next k-group: its scale block and its slice. None while its stream has not
brought them, or an earlier task has not taken its own. -/
def operandBytes (K : Core) (t : Task) (b : Bool) (R : Rec) : Option (List Byte × List Byte) :=
  let sb := scaleBytes (t.scaleOf b) (R.extent 2)
  let sl := sliceBytes R
  if t.latched b then
    match K.latch b with
    | some l => some (l.bytes.take sb, slice l.bytes (sb + t.group * sl) sl)
    | none => none
  else
    let behind := (K.tasks.takeWhile fun x => x.id != t.id).any fun x => x.kind = 0 && !x.latched b
    let need := if t.group = 0 then sb + sl else sl
    if behind || (K.fifo b).length < need then none
    else
      let kept := if b then t.scaleB else t.scaleA
      let q := (K.fifo b).take need
      some (if t.group = 0 then q.take sb else kept, q.drop (need - sl))

/-- The operand's bytes leave its FIFO, freeing their space, and go into its latch where it is kept. -/
def consume (t : Task) (b : Bool) (raw : BitVec 320) (R : Rec) (K : Core) : Core :=
  if t.latched b then K
  else
    let need := if t.group = 0 then scaleBytes (t.scaleOf b) (R.extent 2) + sliceBytes R else sliceBytes R
    let q := (K.fifo b).take need
    let K1 := if b then { K with fifoB := K.fifoB.drop need, roomB := K.roomB + need } else { K with fifoA := K.fifoA.drop need, roomA := K.roomA + need }
    if t.keeps b then
      let old := match K.latch b with
        | some l => if t.group = 0 then [] else l.bytes
        | none => []
      K1.setLatch b (some ⟨formatField raw, BitVec.ofNat 2 (t.scaleOf b), R.extent 2, old ++ q⟩)
    else K1

def scaleAt (t : Task) (b : Bool) (block : List Byte) (r : Nat) : Option Nat :=
  if t.scaleOf b = 0 then none else some (block.getD (64 * t.group + r) 0).toNat

/-- KGROUP_COMPUTE (10 R231-R236). -/
def computeStep (core id : Nat) (s : State) : State :=
  match findTask s core id with
  | none => s
  | some t =>
    if matrixPaused s core || t.kind != 0 || t.state != .running then s
    else
      let raw (b : Bool) : BitVec 320 := recordAt s core t.node (t.ident b)
      match recordFields (raw false), recordFields (raw true) with
      | some A, some B =>
        if A.extent 2 ≤ t.group then s
        else
          let K := s.core core
          match operandBytes K t false A, operandBytes K t true B with
          | some (sa, xa), some (sb, xb) =>
            let s1 := s.setCore core fun k => consume t true (raw true) B (consume t false (raw false) A k)
            let s2 := setTile core t.tile (fun T =>
              { T with acc := computeGroup T.acc (fun r => sliceRow A.elem xa r (scaleAt t false sa r)) (fun r => sliceRow B.elem xb r (scaleAt t true sb r)) }) s1
            setTask core id (fun t => { t with group := t.group + 1, scaleA := sa, scaleB := sb }) s2
          | _, _ => s
      | _, _ => s

/-! ## Drains (10 R241-R246) -/

def Task.value (t : Task) (mn : Nat × Nat) : XVal := f32 (t.values.getD (64 * mn.1 + mn.2) 0)

/-- A drain is suspended, or was resumed and the records of its handler's stores are not acknowledged yet (08 R220; 11 R253). -/
def Task.held (s : State) (t : Task) : Bool := t.suspended || s.records.any fun r => t.behind.contains r.id

/-- A drain's accesses are those of its gang's node. -/
def Task.client (t : Task) (core : Nat) : Client := ⟨⟨core, t.tenant, t.gang, false⟩, t.node⟩

/-- What stopped a drain: nothing, a wait, a failure. -/
inductive Stop where
  | no | waits | fails (w : Why)
  deriving DecidableEq, Repr

/-- Elements written from the n-th on, with the progress made. -/
def drainGo (f : Nat × Nat → Half → State → Got Half) : List (Nat × Nat) → Nat → Half → State → Nat × Half × Stop × State
  | [], n, r, s => (n, r, .no, s)
  | x :: xs, n, r, s =>
    match f x r s with
    | .ok r1 s1 => drainGo f xs (n + 1) r1 s1
    | .wait s1 => (n, r, .waits, s1)
    | .bad w s1 => (n, r, .fails w, s1)

/-- To pad: round(acc, format, mode) at the element's place (10 R241). -/
def padElement (t : Task) (D : Rec) (c : Crew) (mn : Nat × Nat) (r : Half) (s : State) : Got Half :=
  let r1 := stepFor (modeCode t.mode) r
  .ok r1 (padPut c D t.window [(mn.2 : Nat), (mn.1 : Nat), 0, 0] (D.elem.fmt.round (modeCode t.mode) r1 (t.value mn)).1 s)

/-- To memory without a scale; an element out of bounds is dropped without a step (10 R242). -/
def memElement (t : Task) (D : Rec) (core : Nat) (mn : Nat × Nat) (r : Half) (s : State) : Got Half :=
  let k := t.client core
  if !D.inBounds (t.place mn) then .ok r s
  else
    let r1 := stepFor (modeCode t.mode) r
    (D.writeElem k.read k.readForWrite (k.write t.id) (modeCode t.mode) r1 (t.place mn) (t.value mn) s).next fun _ s => .ok r1 s

/-- floor(log2) of a finite value above zero. -/
def floorLog : XVal → Int
  | .fin _ m e => Nat.log2 m + e
  | _ => 0

/-- MX scale selection (02 R47): the scale byte, and the elements' codes. Under scale 0xFF every element takes the code of a NaN without a sign:
which NaN, no rule says, DESIGN CHOICE (log entry 37). -/
def mxSelect (F : Fmt) (xs : List XVal) : Nat × List Nat :=
  let nan := xs.any XVal.isNan
  let inf := xs.any fun x => x == .inf true || x == .inf false
  if nan || (inf && F.pol != 2) then (255, xs.map fun _ => (F.round .rne 0 (.nan false false)).1)
  else
    let mags := xs.filter fun x => !x.isZero && !(x == .inf true || x == .inf false)
    let x0 := (mags.map fun x => floorLog x).foldl max (-1000)
    let X : Int := if mags.isEmpty then 0 else max (-127) (min 127 (x0 - floorLog (F.value F.maxCode)))
    ((X + 127).toNat, xs.map fun x =>
      let v := match x with
        | .fin n m e => XVal.fin n m (e - X)
        | y => y
      let (c, f) := F.round .rne 0 v
      if f &&& fOverflow != 0 then F.signBit x.isNeg + F.maxCode else c)

/-- A later element of the drain names the same element of D. -/
def Task.superseded (t : Task) (D : Rec) (mn : Nat × Nat) : Bool :=
  ((drainOrder.dropWhile fun x => x != mn).drop 1).any fun x => D.inBounds (t.place x) && D.offset (t.place x) = D.offset (t.place mn)

/-- A block of a scaled drain: the in-bounds elements of 2^n along dimension 0 from element (m, n), with their scale (10 R242). -/
def mxBlock (t : Task) (D : Rec) (core : Nat) (mn : Nat × Nat) (r : Half) (s : State) : Got Half :=
  let k := t.client core
  let els := ((List.range (2 ^ D.sblk)).map fun j => (mn.1, mn.2 + j)).filter fun x => D.inBounds (t.place x)
  match els with
  | [] => .ok r s
  | x0 :: _ =>
    let (scale, codes) := mxSelect D.elem.fmt (els.map t.value)
    (k.write t.id (D.scaleAddr (t.place x0)) [BitVec.ofNat 8 scale] s).got.next fun _ s =>
      eachGot (fun (x : (Nat × Nat) × Nat) r s =>
        if t.superseded D x.1 then .ok r s
        else (D.writeCode k.readForWrite (k.write t.id) (t.place x.1) x.2 s).got.next fun _ s => .ok r s) (els.zip codes) r s

/-- The units a drain writes: its elements, or the first elements of its blocks. -/
def Task.units (t : Task) (D : Rec) : List (Nat × Nat) :=
  if t.kind = 2 && D.smode = 1 then drainOrder.filter fun mn => mn.2 % 2 ^ D.sblk = 0 else drainOrder

/-! ## Add-on-store (10 R243) -/

/-- Distinct in-bounds elements of the box, in the order in which they first stand in it, each with the values added to it. -/
def Task.groups (t : Task) (D : Rec) : List (List Int × List XVal) :=
  let ins := drainOrder.filter fun mn => D.inBounds (t.place mn)
  let key (mn : Nat × Nat) : Nat := D.offset (t.place mn)
  (ins.foldl (fun (seen : List (Nat × Nat)) mn => if seen.any fun x => key x = key mn then seen else seen ++ [mn]) []).map fun mn =>
    (t.place mn, (ins.filter fun x => key x = key mn).map t.value)

/-- Every address translated and checked: in this package's HBM, and no line locked. -/
def addPlaces (t : Task) (D : Rec) (core : Nat) : List (List Int × List XVal) → State → Got (List (Nat × TlbEntry × Nat × List XVal))
  | [], s => .ok [] s
  | (g, xs) :: rest, s =>
    let va := D.addr g
    match (t.client core).xl true true va s with
    | (s1, .wait) => .wait s1
    | (s1, .bad w) => .bad w s1
    | (s1, .ok fpa e) =>
      if s1.isHbm fpa then
        if hbmWaits e fpa s1 then .wait s1
        else (addPlaces t D core rest s1).next fun l s => .ok ((fpa, e, (D.place g).2, xs) :: l) s
      else .bad ⟨8, if s1.isLocal fpa && regionOf (ppaOf fpa) = .weight then 0x11 else 0x14, va, false⟩ s1

/-- The home of a place is current: the die's differences in its bytes are applied there, or every owned copy of its grain is recalled
(10 R243; 12 R257, R277). -/
def addReady (die : Nat) (n : Nat) (x : Nat × TlbEntry × Nat × List XVal) (s : State) : State :=
  let (fpa, e, _, _) := x
  if e.twin then twinService (lineOf fpa) (prePublish die fpa n s)
  else recallSectors (grainBase e.grain fpa) (grainSectors e.grain) true (ownedService (grainBase e.grain fpa) (grainSectors e.grain) s)

/-- One element's new bytes at its home, and the random state behind it. -/
def addOne (t : Task) (D : Rec) (x : Nat × TlbEntry × Nat × List XVal) (m : Memory) (r : Half) : Memory × Half :=
  let (fpa, _, bit, xs) := x
  let F := D.elem.fmt
  let r1 := stepFor (modeCode t.mode) r
  let old := m.read fpa D.cbytes
  let c := (F.round (modeCode t.mode) r1 (xsum (modeCode t.mode = .rd) (quiet (F.value (D.code old bit)) :: xs)).1).1
  (m.write fpa (if D.elem.cont = 0 then putBits old bit F.width c else toBytes D.cbytes c), r1)

/-- ADD_ON_STORE, one event: each line that it changes has its version raised once (12 R264), and the die's copies take the new bytes. -/
def addOnStore (t : Task) (D : Rec) (core : Nat) (s : State) : Got Half :=
  (addPlaces t D core (t.groups D) s).next fun l s0 =>
    let s1 := l.foldl (fun s x => addReady (core / 40) D.cbytes x s) s0
    let (m, r) := l.foldl (fun (a : Memory × Half) x => addOne t D x a.1 a.2) (s1.mem, t.rnd)
    let s2 := bumpLines (sortedNats (l.map fun x => lineOf x.1)) { s1 with mem := m }
    .ok r (l.foldl (fun s x =>
      if x.2.1.twin then patchDie ⟨core, t.tenant, t.gang, false⟩ x.1 (m.read x.1 D.cbytes) s else s) s2)

/-! ## Events of tasks -/

/-- The box elements that a unit of a drain writes. -/
def Task.inUnit (t : Task) (D : Rec) (mn : Nat × Nat) : List (Nat × Nat) :=
  if t.kind = 2 && D.smode = 1 then (List.range (2 ^ D.sblk)).map fun j => (mn.1, mn.2 + j) else [mn]

/-- An address in this package's memory, as its translation stands. -/
def Task.near (t : Task) (s : State) (va : Nat) : Bool :=
  ((s.tlbHit t.tenant va).map fun e => s.isLocal (e.fpa + (va - e.base))).getD false

/-- Sectors of a drain to memory with n units written that count: those whose elements are all written, a sector of posted writes once these
are acknowledged (10 R246). -/
def Task.sectorsDone (t : Task) (D : Rec) (n : Nat) (s : State) : Nat :=
  let sectors (us : List (Nat × Nat)) : List Nat :=
    sortedNats (((us.flatMap (t.inUnit D)).filter fun mn => D.inBounds (t.place mn)).map fun mn => D.addr (t.place mn) / 32)
  let left := sectors ((t.units D).drop n)
  ((sectors ((t.units D).take n)).filter fun k => !left.contains k && (!posted s t.id || t.near s (32 * k))).length

/-- A drain meets a failure (10 R248, R249). -/
def failTask (core : Nat) (t : Task) (kind : Nat) (w : Why) (s : State) : State :=
  let code := if w.group = 8 then w.code else engineCode w
  let f : FaultRec := ⟨causeOf 8 code, engineDetail w.addr kind w.stage2 0 t.leader t.dest t.tag (code = 0x10)⟩
  setTask core t.id (fun t => { t with fault := some f, suspended := code = 0x10 }) s

def countTask (t : Task) (n : Nat) (s : State) : State :=
  match s.crew? t.crew with
  | some c => if t.be && n != 0 then countSectors c t.barrier n s else s
  | none => s

/-- Sectors counted so far become k, less the last of all, which the end of the task counts. -/
def countTo (core : Nat) (t : Task) (k : Nat) (s : State) : State :=
  let n := max t.sectors (min k (t.total - 1))
  countTask t (n - t.sectors) (setTask core t.id (fun t => { t with sectors := n }) s)

/-- The writes of a drain go on: all it can write now. Each sector whose elements are all written is counted, but for the last
(10 R246). -/
def drainStep (core : Nat) (t : Task) (s : State) : State :=
  match recordFields (recordAt s core t.node t.dest), s.crew? t.crew with
  | some D, some c =>
    let n0 := (t.units D).length
    if n0 ≤ t.group then s
    else if t.adds then
      match addOnStore t D core s with
      | .ok r s1 => countTo core t t.total (setTask core t.id (fun t => { t with group := n0, rnd := r }) s1)
      | .wait s1 => s1
      | .bad w s1 => failTask core t 6 w s1
    else
      let f := if t.kind = 1 then padElement t D c else if D.smode = 1 then mxBlock t D core else memElement t D core
      let (n, r, stop, s1) := drainGo f ((t.units D).drop t.group) t.group t.rnd s
      let s2 := setTask core t.id (fun t => { t with group := n, rnd := r }) (landWrites (core / 40) s1)
      let s3 := countTo core t (if t.kind = 2 then t.sectorsDone D n s2 else if n = n0 then t.total else 0) s2
      match stop with
      | .fails w => failTask core { t with group := n, rnd := r } 1 w s3
      | _ => s3
  | _, _ => s

/-- A drain to peer leaves with its values, inside the package or as a posted packet (10 R244). On a package that the domain lacks no node is
live. -/
def sendPeer (core : Nat) (t : Task) (s : State) : State :=
  let id := s.nextId
  let to_ := bits (t.w 5) 12 0
  if to_ = s.pkg.toNat then
    setTask core t.id (fun t => { t with state := .sent })
      { s with nextId := id + 1
               arrivals := s.arrivals ++ [⟨id, to_, core, t.id, 0, t.tenant, BitVec.ofNat 64 (t.w 4), BitVec.ofNat 64 (t.w 5), t.values, false⟩] }
  else if s.domain.contains to_ then
    setTask core t.id (fun t => { t with state := .sent })
      (sendPacket (to_ * 2 ^ 46) 0 (.drain (BitVec.ofNat 64 (t.w 4)) (BitVec.ofNat 64 (t.w 5)) t.values) [] t.id t.node t.tenant false s)
  else failTask core t 3 ⟨8, 0x13, 0, false⟩ s

/-- The engine's work on a started drain. -/
def drainOn (core id : Nat) (s : State) : State :=
  match findTask s core id with
  | some t =>
    if t.state != .running || t.kind = 0 || t.held s || t.fault.isSome then s
    else if t.kind = 3 then sendPeer core t s
    else drainStep core t s
  | none => s

/-- A started drain with writes left that can go on. -/
def unfinished (s : State) (core : Nat) : Option Task :=
  (s.core core).tasks.find? fun t => t.state = .running && t.kind != 0 && !t.held s && t.fault.isNone &&
    match recordFields (recordAt s core t.node t.dest) with
    | some D => t.group < (t.units D).length
    | none => false

/-- A started compute task whose next k-group has not come on its streams: it holds back every later task (10 R240). -/
def Task.starved (s : State) (core : Nat) (t : Task) : Bool :=
  t.kind = 0 &&
    match recordFields (recordAt s core t.node (t.ident false)), recordFields (recordAt s core t.node (t.ident true)) with
    | some A, some B =>
      t.group < A.extent 2 && ((operandBytes (s.core core) t false A).isNone || (operandBytes (s.core core) t true B).isNone)
    | _, _ => false

/-- TASK_START (10 R240): the oldest task that has not started, on a free engine, once its conditions hold. A started drain that has
had to wait, or was resumed, goes on first. -/
def taskStep (core : Nat) (s : State) : State :=
  match unfinished s core with
  | some t => drainOn core t.id s
  | none =>
    let K := s.core core
    let before := K.tasks.takeWhile fun t => t.state != .queued
    match K.tasks.find? fun t => t.state = .queued with
    | some t =>
      if matrixPaused s core || 2 ≤ before.length || before.any (Task.starved s core) || !taskReady K before t then s
      else drainOn core t.id (beginTask core t s)
    | none => s

/-- A task ends: its tiles go back, its remaining sectors are counted, its tile opens where it says so (10 R241, R245, R246). -/
def endTask (core : Nat) (t : Task) (s : State) : State :=
  let s1 := releaseTiles t.id (s.setCore core fun k => { k with tasks := k.tasks.filter fun x => x.id != t.id })
  countTask t (t.total - t.sectors) (if t.opens then setTile core t.tile (fun T => { T with open_ := true }) s1 else s1)

/-- All of a running task's work is done. -/
def taskDone (s : State) (core : Nat) (t : Task) : Bool :=
  t.state = .running && !t.held s && t.fault.isNone && !posted s t.id &&
    match recordFields (recordAt s core t.node (if t.kind = 0 then t.ident false else t.dest)) with
    | some R => if t.kind = 0 then t.group = R.extent 2 else (t.kind = 1 || t.kind = 2) && (t.units R).length ≤ t.group
    | none => false

/-- TASK_COMPLETE. -/
def completeTask (core id : Nat) (s : State) : State :=
  match findTask s core id with
  | some t => if taskDone s core t then endTask core t s else s
  | none => s

/-! ## Peer arrivals (10 R244) -/

/-- Where an arrival goes: absent, not placed yet or evicted, or a crew on its core. -/
inductive Target where
  | absent | away | here (c : Crew)
  deriving DecidableEq, Repr

def targetOf (s : State) (tenant : BitVec 6) (w4 w5 : Nat) : Target :=
  let id := BitVec.ofNat 32 w4
  let e := w4 / 2 ^ 32
  let j := bits w5 16 13
  match s.node? id with
  | none => .absent
  | some n =>
    if n.desc.stream || n.desc.tenant.setWidth 6 != tenant || n.error.isSome || n.desc.gridX * n.desc.gridY * n.desc.gridZ ≤ e ||
        n.desc.crews ≤ j then .absent
    else if n.nextEns ≤ e then .away
    else
      match s.ensembles.find? fun x => x.node = id && x.index = e with
      | none => .absent
      | some x =>
        match s.crews.find? fun c => c.ensemble = x.uid && c.number = j with
        | none => .absent
        | some c =>
          if c.done then .absent
          else if (x.state = .resident || x.state = .evicting) && (s.core c.core).matrixOf = some c.uid then .here c else .away

def setArrival (id : Nat) (f : Arrival → Arrival) (s : State) : State := { s with arrivals := mapIf (fun a => a.id = id) f s.arrivals }

def dropArrival (id : Nat) (s : State) : State := { s with arrivals := s.arrivals.filter fun x => x.id != id }

/-- The tile an arrival goes to, in its crew's core. -/
def Arrival.tile (a : Arrival) : Nat := bits a.w5.toNat 20 17

/-- The drain of this package that an arrival comes from. -/
def Arrival.sender (a : Arrival) (s : State) : Option Task := if a.src = s.pkg.toNat then findTask s a.core a.task else none

/-- A packet, or its acknowledgement, takes its planes. -/
def Packet.onPlanes (p : Packet) (ways : List Nat) : Packet := { p with plane := ways.headD p.plane, second := ways.tail.head?, lost := ways.isEmpty }

/-- An arrival is applied: one of this package's waits for PEER_ACKNOWLEDGE; the packet of another's stands for its acknowledgement from then
on, which is of the critical class (15 R336). -/
def arrivalDone (a : Arrival) (s : State) : State :=
  if a.src = s.pkg.toNat then setArrival a.id (fun a => { a with applied := true }) s
  else
    let answered (p : Packet) : Packet := { p.onPlanes (criticalPlanes s (a.src * 2 ^ 46)) with applied := true }
    dropArrival a.id { s with packets := mapIf (fun p => p.id = a.packet) answered s.packets }

/-- An arrival into an open tile that no task holds, while its count is below 255: applied whole. -/
def intoTile (a : Arrival) (core : Nat) (s : State) : State :=
  let K := s.core core
  let T := tileOf K a.tile
  if !T.open_ || T.arrivals = 255 || K.tasks.any (fun x => x.state != .queued && x.tile = a.tile) then s
  else
    arrivalDone a (setTile core a.tile (fun T =>
      { T with
        acc := Vector.ofFn fun k : Fin 4096 => (fAdd T.acc[k] (a.values.getD k.val 0)).1
        arrivals := T.arrivals + 1 }) s)

/-- ARRIVAL_APPLY. One of a drain that is no more is no arrival; a receiver that is absent is reported at the sender, another package's packet
answered so. -/
def applyArrival (id : Nat) (s : State) : State :=
  match s.arrivals.find? fun a => a.id = id && !a.applied with
  | none => s
  | some a =>
    if a.src = s.pkg.toNat && (a.sender s).isNone then dropArrival id s
    else
      match targetOf s a.tenant a.w4.toNat a.w5.toNat with
      | .absent =>
        match a.sender s with
        | some t => failTask a.core t 3 ⟨8, 0x13, 0, false⟩ (dropArrival id s)
        | none => dropArrival id { s with packets := s.packets.filter fun p => p.id != a.packet }
      | .away => s
      | .here c => intoTile a c.core s

/-- Arrivals of a drain of this package. -/
def State.arrivalsOf (s : State) (core id : Nat) : List Arrival := s.arrivals.filter fun a => a.src = s.pkg.toNat && a.core = core && a.task = id

/-- PEER_ACKNOWLEDGE: the drain completes, all its sectors counted at once. -/
def acknowledgePeer (core id : Nat) (s : State) : State :=
  match findTask s core id with
  | some t =>
    if t.state = .sent && t.fault.isNone && !posted s id && (s.arrivalsOf core id).all Arrival.applied then
      endTask core t { s with arrivals := s.arrivals.filter fun a => !(a.src = s.pkg.toNat && a.core = core && a.task = id) }
    else s
  | none => s

/-! ## Faults after acceptance (10 R248) -/

/-- The elements an abandoned drain to memory has not written take unspecified values (08 R220). -/
def spoilDrain (core : Nat) (t : Task) (s : State) : State :=
  match recordFields (recordAt s core t.node t.dest) with
  | some D =>
    if t.kind != 2 || t.adds then s
    else
      let k := t.client core
      landWrites (core / 40) ((((t.units D).drop t.group).flatMap (t.inUnit D)).filter (fun mn => D.inBounds (t.place mn)) |>.foldl (fun s mn =>
        let (u, s1) := unspecified 4 s
        ((D.writeCode k.readForWrite (k.write 0) (t.place mn) (ofBytes u % 2 ^ D.elem.fmt.width) s1).got).state) s)
  | none => s

def abandonTask (core : Nat) (t : Task) (group code : Nat) (s : State) : State :=
  let s1 := spoilDrain core t s
  let s2 := match s1.crew? t.crew with
    | some c => if t.be then barrierFault c t.barrier group code s1 else s1
    | none => s1
  endTask core { t with words := t.words.set 0 (BitVec.ofNat 64 (t.w 0 % 2 ^ 32)) } s2

/-- MATRIX_FAULT_REPORT. -/
def reportTask (core id : Nat) (s : State) : State :=
  match findTask s core id with
  | none => s
  | some t =>
    match t.fault with
    | some f =>
      let s1 := queueReport t.gang ⟨f, core, id, t.suspended⟩ s
      if t.suspended then setTask core id (fun t => { t with fault := none }) s1 else abandonTask core t (f.cause.toNat / 256) (f.cause.toNat % 256) s1
    | none => s

/-- COMMAND_RESUME for a drain: it goes on behind the records given, or is abandoned. -/
def resumeTask (core id : Nat) (behind : Option (List Nat)) (s : State) : State :=
  match findTask s core id with
  | some t =>
    if !t.suspended then s
    else
      match behind with
      | some l => setTask core id (fun t => { t with suspended := false, fault := none, behind := l }) s
      | none => abandonTask core t 8 0x10 s
  | none => s

/-- `mtask` (10 R233-R238, R429). -/
def execMtask (a : BitVec 5) (k : BitVec 3) (l : BitVec 4) (s : State) : Out :=
  .next (issue ({ major := 0x24, sr := [a.toNat], pr := [k.toNat], la := l.toNat }) (fun s => engineWord ({ major := 0x24, sr := [a.toNat], pr := [k.toNat], la := l.toNat }) (capTask 0 k.toNat a.toNat) (acceptTask 0) s) s)

/-- `mdrain` (10 R233, R237, R238, R241-R246, R429). -/
def execMdrain (a : BitVec 5) (k : BitVec 3) (l : BitVec 4) (s : State) : Out :=
  .next (issue ({ major := 0x24, sr := [a.toNat], pr := [k.toNat], la := l.toNat }) (fun s => engineWord ({ major := 0x24, sr := [a.toNat], pr := [k.toNat], la := l.toNat }) (capTask 1 k.toNat a.toNat) (acceptTask 1) s) s)

/-- `mstat` (10 R239). -/
def execMstat (d : BitVec 5) (b : BitVec 5) (l : BitVec 4) (s : State) : Out :=
  .next (issue ({ major := 0x24, sr := [b.toNat], sw := [d.toNat], la := l.toNat }) (fun s => engineWord ({ major := 0x24, sr := [b.toNat], sw := [d.toNat], la := l.toNat }) (capOnce 0x24 2 d.toNat b.toNat 0 0) (acceptStat) s) s)

end Sys2Proof.Machine
end

