-- ==== Sys2Proof/Machine/Fabric.lean ====
section
/-! DEFINITION. Meanings: switch memory, multicast, reduction and signals, majors 0x2C-0x2E (15 R341-R358). -/

namespace Sys2Proof.Machine

/-! ## Reports (06 R192, 15 R333) -/

/-- A report queued at a gang: at most 8 wait, further ones are counted. -/
def postReport (uid : Nat) (w : Why) (s : State) : State :=
  s.updGang uid fun g =>
    if g.reports.length < 8 then { g with reports := g.reports ++ [⟨causeOf w.group w.code, BitVec.ofNat 64 w.addr⟩] }
    else { g with reportsLost := g.reportsLost + 1 }

/-- A rejection by the fabric engine: the detail is the operand concerned (15 R360). -/
def rejectFabric (code addr : Nat) (s : State) : Accept := .bad (faultRec ⟨12, code, addr, false⟩ 0 false 0 0 0) s

/-- A word's result. -/
def answer (a : Access) (x : Nat) (s : State) : Accept := .done (s.setR fun r => r.setS a.op.reg (BitVec.ofNat 64 x))

/-! ## The aperture table (15 R343) -/

/-- Where entry i of a tenant's aperture table stands. -/
def apertureEntry (t : BitVec 6) (i : Nat) (s : State) : Nat := s.fpa ((s.tenant t).aperture.toNat + 8 * i)

def readAperture (t : BitVec 6) (i : Nat) (s : State) : Nat := ofBytes (pocRead s (apertureEntry t i s) 8)

def writeAperture (t : BitVec 6) (i x : Nat) (s : State) : State := homeStore (apertureEntry t i s) (toBytes 8 x) s

/-- Entries i, i + 1, … i + n - 1 that map n granules from a switch-memory address; the first holds n. -/
def mapGranules (t : BitVec 6) (i fpa n : Nat) (s : State) : State :=
  (List.range n).foldl (fun s k =>
    writeAperture t (i + k) (1 + (if k = 0 then 2 + n * 2 ^ 40 else 0) + switchOf fpa * 4 + (bits fpa 50 25 + k) * 2 ^ 14) s) s

/-- An aperture base: its entry, where it is 32 MiB aligned and inside the aperture. -/
def apertureIndex (va : Nat) : Option Nat := if va % 2 ^ 25 = 0 ∧ apertureBase ≤ va ∧ va < 2 ^ 57 then some (bits va 41 25) else none

/-- Entries i, … i + n - 1 may not be written for now. -/
def apertureWaits (t : BitVec 6) (i n : Nat) (s : State) : Bool := (List.range n).any fun k => homeWaits (apertureEntry t (i + k) s) 8 s

/-- The switch is there. -/
def switchPresent (s : State) (id : Nat) : Bool := s.switches.any fun w => w.id = id && w.state = .present

/-- A switch's generation (15 R341). -/
def State.generation (s : State) (id : Nat) : Nat := ((s.switch? id).map Switch.generation).getD 0

/-- The entries of a mapping that does not fit: status 5, or 3 where one is in use. -/
def mapStatus (t : BitVec 6) (i n : Nat) (s : State) : Option Nat :=
  if 131072 < i + n then some 5 else if (List.range n).any fun k => bits (readAperture t (i + k) s) 0 0 = 1 then some 3 else none

/-! ## Allocation (15 R345, R346) -/

/-- The granules of a switch's present generation that no allocation holds. -/
def granuleFree (s : State) (id k : Nat) : Bool :=
  k < 12288 && s.swAllocs.all fun a => !(a.sw = id && a.generation = s.generation id && a.first ≤ k && k < a.first + a.count)

def runFree (s : State) (id k n : Nat) : Bool := (List.range n).all fun j => granuleFree s id (k + j)

/-- The run granted: a free value where it names a free run (the manual says no more than that a run is granted), else the lowest. -/
def granuleRun (s : State) (id n : Nat) : Option Nat :=
  if runFree s id (Config.pick s.tick) n then some (Config.pick s.tick)
  else (List.range 12288).find? fun k => runFree s id k n

/-- A tenant's granules on a switch, and its quota there. -/
def granulesHeld (s : State) (t : BitVec 6) (id : Nat) : Nat :=
  (s.swAllocs.filter fun a => a.sw = id && a.generation = s.generation id && a.tenant = t).foldl (fun n a => n + a.count) 0

def quotaOf (s : State) (t : BitVec 6) (id : Nat) : Nat :=
  match s.quotas.find? fun q => q.1 = t.toNat && q.2.1 = id with
  | some q => q.2.2
  | none => 0

def switchBase (id generation granule : Nat) : Nat := 2 ^ 63 + id * 2 ^ 51 + generation * 2 ^ 39 + granule * 2 ^ 25

/-- A critical request to a switch, one exchange with one number of its stream (15 R327, R336). Where no plane reaches the switch the word's
lane parks, unreachable (15 R339, R360). -/
def askSwitch (fpa : Nat) (body : State → Accept) (s : State) : Accept :=
  if (planesFor s true fpa).isEmpty then .bad (faultRec ⟨12, 1, fpa, false⟩ 0 false 0 0 0) s else body (takeSeq (destOf fpa) s)

/-- An earlier allocation word of the package stands in its entry: the package serialises them in the order they reach it (15 R344). -/
def swmBehind (e : Nat) (s : State) : Bool :=
  let own := if (s.g.entry e).state = .inFlight then (s.g.entry e).seq else s.nextId
  s.allGangs.any fun g => (g.olog.toList ++ g.hlog.toList).any fun x => x.flies (fun k => match k with
    | .engine m _ => m = 0x2C
    | _ => false) && x.seq < own

/-- An allocation word's turn at the package. -/
def swmTurn (body : Access → Nat → State → Accept) (a : Access) (e : Nat) (s : State) : Accept :=
  if swmBehind e s then tryLater a e s else body a e s

/-- `swm.alloc`. -/
def acceptAlloc (a : Access) (e : Nat) (s : State) : Accept :=
  let c := a.idx.toNat
  let n := bits c 29 16
  let id := bits c 11 0
  let t := s.g.tenant
  match apertureIndex a.base.toNat with
  | none => rejectFabric 0x10 a.base.toNat s
  | some i =>
    if n = 0 || 12288 < n || bits c 15 12 != 0 || bits c 63 30 != 0 then rejectFabric 0x10 c s
    else
      match mapStatus t i n s with
      | some x => answer a x s
      | none =>
        if !switchPresent s id then answer a 4 s
        else
          let gen := s.generation id
          askSwitch (switchBase id gen 0) (fun s =>
            if quotaOf s t id < granulesHeld s t id + n then answer a 1 s
            else
              match granuleRun s id n with
              | none => answer a 2 s
              | some k =>
                if apertureWaits t i n s then tryLater a e s
                else
                let b := switchBase id gen k
                let s1 := zeroRange b (n * 2 ^ 25) { s with tick := s.tick + 1, swAllocs := s.swAllocs ++ [⟨id, gen, k, n, t⟩] }
                answer a b (mapGranules t i b n s1)) s

/-- `swm.map`. -/
def acceptMap (a : Access) (e : Nat) (s : State) : Accept :=
  let b := a.idx.toNat
  let t := s.g.tenant
  match apertureIndex a.base.toNat with
  | none => rejectFabric 0x10 a.base.toNat s
  | some i =>
    if !isSwitch b || b % 2 ^ 25 != 0 then rejectFabric 0x10 b s
    else if !switchPresent s (switchOf b) then answer a 4 s
    else
      askSwitch b (fun s =>
        match s.swAllocs.find? fun x => x.sw = switchOf b && x.generation = generationOf b && x.first = granuleOf b && x.tenant = t &&
            s.generation (switchOf b) = generationOf b with
        | none => answer a 6 s
        | some x =>
          match mapStatus t i x.count s with
          | some y => answer a y s
          | none => if apertureWaits t i x.count s then tryLater a e s else answer a (2 ^ 63 + x.count) (mapGranules t i b x.count s)) s

/-- Write-combining entries for switch memory drain. -/
def drainSwitch (t : BitVec 6) (s : State) : State :=
  s.cores.foldl (fun s (c, k) => (k.wc.filter fun e => e.tenant = t && isSwitch (128 * e.line)).foldl (fun s e => drainEntry c e.line s) s) s

/-- The mapping of a first entry names an allocation of a switch that is there, of its present generation. -/
def mappingLive (x : Nat) (s : State) : Bool := switchPresent s (bits x 13 2) && s.generation (bits x 13 2) = bits x 39 28

/-- The end of `swm.unmap` or `swm.free` of the mapping that a first entry held. -/
def unmapped (free : Bool) (x : Nat) (a : Access) (s : State) : Accept :=
  if !free then answer a (2 ^ 63) s
  else if !mappingLive x s then answer a 4 s
  else
    answer a (2 ^ 63) { s with swAllocs := s.swAllocs.filter fun y =>
      !(y.sw = bits x 13 2 && y.generation = bits x 39 28 && y.first = bits x 27 14 && y.tenant = s.g.tenant) }

/-- Entries i, … i + n - 1 go, and their translations. -/
def unmapGranules (t : BitVec 6) (i n va : Nat) (s : State) : State :=
  let s1 := (List.range n).foldl (fun s k => writeAperture t (i + k) 0 s) s
  { s1 with tlb := s1.tlb.filter fun e => !(e.tenant = t && va ≤ e.base && e.base < va + n * 2 ^ 25) }

/-- `swm.unmap` and `swm.free`: the mapping goes, then the word waits until every access that may have used it has been performed. A
`swm.free` whose switch cannot be reached parks before anything is unmapped (log entry 97). -/
def acceptUnmap (free : Bool) (a : Access) (e : Nat) (s : State) : Accept :=
  let t := s.g.tenant
  match apertureIndex a.base.toNat with
  | none => rejectFabric 0x10 a.base.toNat s
  | some i =>
    let y := s.g.entry e
    if y.state = .inFlight && y.todo != 0 then
      if s.awaits (y.recs.getD []) then .pending s else unmapped free (y.stores.headD (0, 0)).1.toNat a s
    else
      let x := readAperture t i s
      let body (s : State) : Accept :=
        if apertureWaits t i (bits x 53 40) s then tryLater a e s
        else
          let s1 := drainSwitch t (unmapGranules t i (bits x 53 40) a.base.toNat s)
          let ids := s1.pendingIds t (fun p => 8192 ≤ p.dest) fun fpa => isSwitch fpa
          if ids.isEmpty then unmapped free x a s1
          else
            let (z, s2) := ownEntry a e s1
            standIn e { z with todo := 1, recs := some ids, stores := [(BitVec.ofNat 64 x, 0)] } s2
      if bits x 1 0 != 3 then answer a 7 s
      else if free && mappingLive x s then askSwitch (switchBase (bits x 13 2) (bits x 39 28) (bits x 27 14)) body s
      else body s

/-! ## Multicast and reduction (15 R349-R353) -/

/-- A word led by the lowest lane of P[k] and `%emask`, with three scalar operands. -/
def capPost (major op k a b c : Nat) (s : State) : Access :=
  captureEngine major op 0 (leaders k s) (s.src.sreg a) (s.src.sreg b) (s.src.sreg c) 0 s

/-- The switches copy a multicast to the branches with credit; for the others a residue entry of the input port is kept, of which there are 8
(15 R357). Which branches have credit is a free value (log entry 18). -/
def sendBranches (plane port : Nat) (new : List Delivery) (s : State) : State :=
  let s1 := { s with tick := s.tick + 1 }
  let held := if (s.residues.filter fun r => r.sw = plane && r.port = port).length < 8 then
      new.filter fun d => Config.pick (s.tick + d.id) % 2 = 1
    else []
  let go := new.filter fun d => held.all fun h => h.id != d.id
  { s1 with
    deliveries := s1.deliveries ++ go
    residues := if held.isEmpty then s1.residues else s1.residues ++ [⟨plane, port, s.nextId, held⟩]
    nextId := s1.nextId + 1 }

/-- Collective words of a core that no one has acknowledged yet. -/
def collectives (s : State) (core : Nat) : Nat :=
  let mine := (s.allGangs.filter fun g => g.coreIx = core).map Gang.uid
  (sortedNats ((s.branches.filter fun d => d.op != 0 && d.sender = s.pkg.toNat && mine.contains d.gang).map Delivery.op)).length +
    (s.contribs.filter fun c => c.pkg = s.pkg.toNat && mine.contains c.gang).length

/-- A group of the tenant that this package's table holds. -/
def groupFor (s : State) (id : Nat) : Option Group :=
  s.groups.find? fun g => g.id = id && g.tenant = s.g.tenant.toNat && g.members.contains s.pkg.toNat

/-- What both words check in common, in the order of R360, and the payload. -/
def withPayload (a : Access) (badWord : Bool) (s : State) (body : Group → List Byte → State → Accept) : Accept :=
  let c := a.extra.toNat
  if 16 ≤ collectives s s.g.coreIx then .wait s
  else if badWord then rejectFabric 0x11 c s
  else if a.base.toNat % 256 != 0 then rejectFabric 0x12 a.base.toNat s
  else if a.idx.toNat % 256 != 0 then rejectFabric 0x12 a.idx.toNat s
  else
    match groupFor s (bits c 11 0) with
    | none => rejectFabric 0x09 c s
    | some G =>
      match readLong (gangRead [] s.agent) (linesFor 256) a.base.toNat 256 s with
      | .wait s1 => .wait s1
      | .bad _ s1 => rejectFabric 0x12 a.base.toNat s1
      | .ok b s1 => body G b s1

/-- `fmc`. With the package's link to the group's plane down it sends nothing and is reported. -/
def acceptMulticast (a : Access) (_e : Nat) (s : State) : Accept :=
  let c := a.extra.toNat
  withPayload a (bits c 63 13 != 0) s fun G b s =>
    if !s.linkUp G.plane then .done (postReport s.g.uid ⟨12, 1, 0, false⟩ s)
    else
      let members := G.members.filter fun m => m != s.pkg.toNat || bits c 12 12 = 1
      if members.isEmpty then .done s
      else
        let op := s.nextId
        let new := members.zipIdx.map fun m : Nat × Nat =>
          (⟨op + 1 + m.2, m.1, s.pkg.toNat, s.g.uid, s.g.tenant, a.idx, b, true, G.id, op, s.seqOf m.1, 1⟩ : Delivery)
        .done (addOutstanding s.g.uid (sendBranches G.plane s.pkg.toNat new
          (members.foldl (fun s m => takeSeq m s) { s with nextId := op + 1 + members.length })))

/-- A control word of `fred` with a reserved code, or with a root outside its group where the group is there. -/
def reduceBad (s : State) (c : Nat) : Bool :=
  3 < bits c 14 12 || 2 < bits c 17 15 || (bits c 14 12 = 3 && bits c 17 15 != 1) || bits c 63 46 != 0 ||
    match groupFor s (bits c 11 0) with
    | some G => !G.members.contains (bits c 44 32)
    | none => false

/-- `fred`. -/
def acceptReduce (a : Access) (_e : Nat) (s : State) : Accept :=
  withPayload a (reduceBad s a.extra.toNat) s fun G b s =>
    if !s.linkUp G.plane then .done (postReport s.g.uid ⟨12, 1, 0, false⟩ s)
    else
      .done (addOutstanding s.g.uid { s with
        nextId := s.nextId + 1
        contribs := s.contribs ++ [⟨s.nextId, s.pkg.toNat, s.g.uid, s.g.tenant, a.extra, a.idx, b, 0⟩] })

/-! ## Signals and status (15 R358) -/

/-- `fsig`: its release begins, and its add leaves when that is complete; the gang goes on (12 R270). -/
def acceptSignal (a : Access) (e : Nat) (s : State) : Accept :=
  let va := a.base.toNat
  let bad (w : Why) (s : State) : Accept := .bad (faultRec w 5 false e (leaderOf a.lanes).val 0) s
  if (List.range 4).any (fun k => k != e && (s.g.entry k).state = .inFlight) then .wait s
  else if va % 8 != 0 then bad ⟨3, 1, va, false⟩ s
  else
    match translate true true va s with
    | (s1, .wait) => .wait s1
    | (s1, .bad w) => bad w s1
    | (s1, .ok fpa _) =>
      let d := s1.g.die.toNat
      match switchGone s1 fpa with
      | some w => bad w s1
      | none =>
        if s1.isLocal fpa && regionOf (ppaOf fpa) = .weight then bad ⟨2, 4, va, false⟩ s1
        else
          let s2 := drainGang s1.g.coreIx s1.g.uid (publishDie d [] s1)
          let recs := (s2.records.filter fun r => r.die = d).map fun r => r.id
          .done { s2 with
            nextId := s2.nextId + 1
            releases := s2.releases ++ [⟨s2.nextId, s2.g.uid, .fab, recs, some (fpa, a.idx)⟩] }

/-- Signals of a gang whose release is not complete. -/
def signalsPending (s : State) (uid : Nat) : Nat := s.releases.countP fun r => r.gang = uid && r.signal.isSome

/-- `fstat`. -/
def acceptFabricStat (a : Access) (_e : Nat) (s : State) : Accept :=
  answer a (min 65535 (s.g.outstanding + signalsPending s s.g.uid) + (s.core s.g.coreIx).wc.length * 2 ^ 16 + s.g.reports.length * 2 ^ 23 +
    (s.tenant s.g.tenant).age.toNat * 2 ^ 32) s

/-- `swm_alloc` (15 R344-R346). -/
def execSwmAlloc (d : BitVec 5) (b : BitVec 5) (c : BitVec 5) (l : BitVec 4) (s : State) : Out :=
  .next (issue ({ major := 0x2C, sr := [b.toNat, c.toNat], sw := [d.toNat], la := l.toNat }) (fun s => engineWord ({ major := 0x2C, sr := [b.toNat, c.toNat], sw := [d.toNat], la := l.toNat }) (capOnce 0x2C 0 d.toNat b.toNat c.toNat 0) (swmTurn acceptAlloc) s) s)

/-- `swm_map` (15 R344, R345). -/
def execSwmMap (d : BitVec 5) (b : BitVec 5) (c : BitVec 5) (l : BitVec 4) (s : State) : Out :=
  .next (issue ({ major := 0x2C, sr := [b.toNat, c.toNat], sw := [d.toNat], la := l.toNat }) (fun s => engineWord ({ major := 0x2C, sr := [b.toNat, c.toNat], sw := [d.toNat], la := l.toNat }) (capOnce 0x2C 1 d.toNat b.toNat c.toNat 0) (swmTurn acceptMap) s) s)

/-- `swm_unmap` (15 R344, R345, R348). -/
def execSwmUnmap (d : BitVec 5) (b : BitVec 5) (l : BitVec 4) (s : State) : Out :=
  .next (issue ({ major := 0x2C, sr := [b.toNat], sw := [d.toNat], la := l.toNat }) (fun s => engineWord ({ major := 0x2C, sr := [b.toNat], sw := [d.toNat], la := l.toNat }) (capOnce 0x2C 2 d.toNat b.toNat 0 0) (swmTurn (acceptUnmap false)) s) s)

/-- `swm_free` (15 R344, R345). -/
def execSwmFree (d : BitVec 5) (b : BitVec 5) (l : BitVec 4) (s : State) : Out :=
  .next (issue ({ major := 0x2C, sr := [b.toNat], sw := [d.toNat], la := l.toNat }) (fun s => engineWord ({ major := 0x2C, sr := [b.toNat], sw := [d.toNat], la := l.toNat }) (capOnce 0x2C 3 d.toNat b.toNat 0 0) (swmTurn (acceptUnmap true)) s) s)

/-- `fmc` (15 R349-R352, R360). -/
def execFmc (a : BitVec 5) (b : BitVec 5) (c : BitVec 5) (k : BitVec 3) (l : BitVec 4) (s : State) : Out :=
  .next (issue ({ major := 0x2D, sr := [a.toNat, b.toNat, c.toNat], pr := [k.toNat], la := l.toNat }) (fun s => engineWord ({ major := 0x2D, sr := [a.toNat, b.toNat, c.toNat], pr := [k.toNat], la := l.toNat }) (capPost 0x2D 0 k.toNat a.toNat b.toNat c.toNat) (acceptMulticast) s) s)

/-- `fred` (15 R349-R353, R360). -/
def execFred (a : BitVec 5) (b : BitVec 5) (c : BitVec 5) (k : BitVec 3) (l : BitVec 4) (s : State) : Out :=
  .next (issue ({ major := 0x2D, sr := [a.toNat, b.toNat, c.toNat], pr := [k.toNat], la := l.toNat }) (fun s => engineWord ({ major := 0x2D, sr := [a.toNat, b.toNat, c.toNat], pr := [k.toNat], la := l.toNat }) (capPost 0x2D 1 k.toNat a.toNat b.toNat c.toNat) (acceptReduce) s) s)

/-- `fsig` (15 R358). -/
def execFsig (a : BitVec 5) (b : BitVec 5) (k : BitVec 3) (l : BitVec 4) (s : State) : Out :=
  .next (issue ({ major := 0x2E, sr := [a.toNat, b.toNat], pr := [k.toNat], la := l.toNat }) (fun s => engineWord ({ major := 0x2E, sr := [a.toNat, b.toNat], pr := [k.toNat], la := l.toNat }) (capPost 0x2E 0 k.toNat a.toNat b.toNat 0) (acceptSignal) s) s)

/-- `fstat` (15 R358). -/
def execFstat (d : BitVec 5) (l : BitVec 4) (s : State) : Out :=
  .next (issue ({ major := 0x2E, sr := [], sw := [d.toNat], la := l.toNat }) (fun s => engineWord ({ major := 0x2E, sr := [], sw := [d.toNat], la := l.toNat }) (capOnce 0x2E 1 d.toNat 0 0 0) (acceptFabricStat) s) s)

end Sys2Proof.Machine
end

