-- ==== Sys2Proof/Machine/Scalar.lean ====
section
/-! DEFINITION. Meanings: the scalar words of majors 0x01-0x03 (03 R76, 04 R110-R113). -/

namespace Sys2Proof.Machine

/-- The set bits, leading and trailing zeros of a number of w bits. -/
def popCount (w x : Nat) : Nat := (List.range w).countP fun k => x.testBit k
def leadingZeros (w x : Nat) : Nat := if x = 0 then w else w - 1 - Nat.log2 x
def trailingZeros (w x : Nat) : Nat := ((List.range w).find? fun k => x.testBit k).getD w

def scalar1 (sh : Shape) (d a : Nat) (f : Dword → Dword) (s : State) : State := scalarWord sh d (fun r => f (r.sreg a)) s
def scalar2 (sh : Shape) (d a b : Nat) (f : Dword → Dword → Dword) (s : State) : State :=
  scalarWord sh d (fun r => f (r.sreg a) (r.sreg b)) s

/-- A division word: the zero-divide flag where b is 0 (04 R112). -/
def scalarDiv (sh : Shape) (d a b : Nat) (f : Dword → Dword → Dword) (s : State) : State :=
  issue sh (fun s =>
    (s.setR fun r => r.setS d (f (s.src.sreg a) (s.src.sreg b))).flag (flagIf (s.src.sreg b == 0) fZeroDivide)) s

/-- Signed division toward zero; −2^63 / −1 is −2^63 (04 R112). -/
def sdivI (x y : Dword) : Dword := BitVec.ofInt 64 (Int.tdiv x.toInt y.toInt)
def sremI (x y : Dword) : Dword := if y = 0 then x else BitVec.ofInt 64 (Int.tmod x.toInt y.toInt)

/-- Bits 16k+15 : 16k replaced. -/
def insertHalf (x : Dword) (k : Nat) (h : Half) : Dword :=
  (x &&& ~~~(0xFFFF#64 <<< (16 * k))) ||| (h.setWidth 64 <<< (16 * k))

/-- `sadd` (04 R110). -/
def execSadd (d : BitVec 5) (a : BitVec 5) (b : BitVec 5) (s : State) : Out :=
  .next (scalar2 (shS 1 d.toNat [a.toNat, b.toNat]) d.toNat a.toNat b.toNat (fun x y => x + y) s)

/-- `ssub` (04 R110). -/
def execSsub (d : BitVec 5) (a : BitVec 5) (b : BitVec 5) (s : State) : Out :=
  .next (scalar2 (shS 1 d.toNat [a.toNat, b.toNat]) d.toNat a.toNat b.toNat (fun x y => x - y) s)

/-- `smul` (04 R110). -/
def execSmul (d : BitVec 5) (a : BitVec 5) (b : BitVec 5) (s : State) : Out :=
  .next (scalar2 (shS 1 d.toNat [a.toNat, b.toNat]) d.toNat a.toNat b.toNat (fun x y => x * y) s)

/-- `smulh_i64` (04 R110). -/
def execSmulhI64 (d : BitVec 5) (a : BitVec 5) (b : BitVec 5) (s : State) : Out :=
  .next (scalar2 (shS 1 d.toNat [a.toNat, b.toNat]) d.toNat a.toNat b.toNat (fun x y => BitVec.ofInt 64 (x.toInt * y.toInt / 2 ^ 64)) s)

/-- `smulh_n64` (04 R110). -/
def execSmulhN64 (d : BitVec 5) (a : BitVec 5) (b : BitVec 5) (s : State) : Out :=
  .next (scalar2 (shS 1 d.toNat [a.toNat, b.toNat]) d.toNat a.toNat b.toNat (fun x y => BitVec.ofNat 64 (x.toNat * y.toNat / 2 ^ 64)) s)

/-- `sand` (04 R110). -/
def execSand (d : BitVec 5) (a : BitVec 5) (b : BitVec 5) (s : State) : Out :=
  .next (scalar2 (shS 1 d.toNat [a.toNat, b.toNat]) d.toNat a.toNat b.toNat (fun x y => x &&& y) s)

/-- `sor` (04 R110). -/
def execSor (d : BitVec 5) (a : BitVec 5) (b : BitVec 5) (s : State) : Out :=
  .next (scalar2 (shS 1 d.toNat [a.toNat, b.toNat]) d.toNat a.toNat b.toNat (fun x y => x ||| y) s)

/-- `sxor` (04 R110). -/
def execSxor (d : BitVec 5) (a : BitVec 5) (b : BitVec 5) (s : State) : Out :=
  .next (scalar2 (shS 1 d.toNat [a.toNat, b.toNat]) d.toNat a.toNat b.toNat (fun x y => x ^^^ y) s)

/-- `sandn` (04 R110). -/
def execSandn (d : BitVec 5) (a : BitVec 5) (b : BitVec 5) (s : State) : Out :=
  .next (scalar2 (shS 1 d.toNat [a.toNat, b.toNat]) d.toNat a.toNat b.toNat (fun x y => x &&& ~~~y) s)

/-- `sshl` (04 R110). -/
def execSshl (d : BitVec 5) (a : BitVec 5) (b : BitVec 5) (s : State) : Out :=
  .next (scalar2 (shS 1 d.toNat [a.toNat, b.toNat]) d.toNat a.toNat b.toNat (fun x y => x <<< (y.toNat % 64)) s)

/-- `sshr_n64` (04 R110). -/
def execSshrN64 (d : BitVec 5) (a : BitVec 5) (b : BitVec 5) (s : State) : Out :=
  .next (scalar2 (shS 1 d.toNat [a.toNat, b.toNat]) d.toNat a.toNat b.toNat (fun x y => x >>> (y.toNat % 64)) s)

/-- `sshr_i64` (04 R110). -/
def execSshrI64 (d : BitVec 5) (a : BitVec 5) (b : BitVec 5) (s : State) : Out :=
  .next (scalar2 (shS 1 d.toNat [a.toNat, b.toNat]) d.toNat a.toNat b.toNat (fun x y => x.sshiftRight (y.toNat % 64)) s)

/-- `smin_i64` (04 R110). -/
def execSminI64 (d : BitVec 5) (a : BitVec 5) (b : BitVec 5) (s : State) : Out :=
  .next (scalar2 (shS 1 d.toNat [a.toNat, b.toNat]) d.toNat a.toNat b.toNat (fun x y => if x.slt y then x else y) s)

/-- `smin_n64` (04 R110). -/
def execSminN64 (d : BitVec 5) (a : BitVec 5) (b : BitVec 5) (s : State) : Out :=
  .next (scalar2 (shS 1 d.toNat [a.toNat, b.toNat]) d.toNat a.toNat b.toNat (fun x y => if x.ult y then x else y) s)

/-- `smax_i64` (04 R110). -/
def execSmaxI64 (d : BitVec 5) (a : BitVec 5) (b : BitVec 5) (s : State) : Out :=
  .next (scalar2 (shS 1 d.toNat [a.toNat, b.toNat]) d.toNat a.toNat b.toNat (fun x y => if x.slt y then y else x) s)

/-- `smax_n64` (04 R110). -/
def execSmaxN64 (d : BitVec 5) (a : BitVec 5) (b : BitVec 5) (s : State) : Out :=
  .next (scalar2 (shS 1 d.toNat [a.toNat, b.toNat]) d.toNat a.toNat b.toNat (fun x y => if x.ult y then y else x) s)

/-- `srem_i64` (04 R110, R112). -/
def execSremI64 (d : BitVec 5) (a : BitVec 5) (b : BitVec 5) (s : State) : Out :=
  .next (scalarDiv (shS 1 d.toNat [a.toNat, b.toNat]) d.toNat a.toNat b.toNat (fun x y => sremI x y) s)

/-- `srem_n64` (04 R110, R112). -/
def execSremN64 (d : BitVec 5) (a : BitVec 5) (b : BitVec 5) (s : State) : Out :=
  .next (scalarDiv (shS 1 d.toNat [a.toNat, b.toNat]) d.toNat a.toNat b.toNat (fun x y => if y = 0 then x else x % y) s)

/-- `sdiv_i64` (04 R110, R112). -/
def execSdivI64 (d : BitVec 5) (a : BitVec 5) (b : BitVec 5) (s : State) : Out :=
  .next (scalarDiv (shS 1 d.toNat [a.toNat, b.toNat]) d.toNat a.toNat b.toNat (fun x y => if y = 0 then -1 else sdivI x y) s)

/-- `sdiv_n64` (04 R110, R112). -/
def execSdivN64 (d : BitVec 5) (a : BitVec 5) (b : BitVec 5) (s : State) : Out :=
  .next (scalarDiv (shS 1 d.toNat [a.toNat, b.toNat]) d.toNat a.toNat b.toNat (fun x y => if y = 0 then -1 else x / y) s)

/-- `spopc` (04 R110). -/
def execSpopc (d : BitVec 5) (a : BitVec 5) (s : State) : Out :=
  .next (scalar1 (shS 1 d.toNat [a.toNat]) d.toNat a.toNat (fun x => BitVec.ofNat 64 (popCount 64 x.toNat)) s)

/-- `sclz` (04 R110). -/
def execSclz (d : BitVec 5) (a : BitVec 5) (s : State) : Out :=
  .next (scalar1 (shS 1 d.toNat [a.toNat]) d.toNat a.toNat (fun x => BitVec.ofNat 64 (leadingZeros 64 x.toNat)) s)

/-- `sctz` (04 R110). -/
def execSctz (d : BitVec 5) (a : BitVec 5) (s : State) : Out :=
  .next (scalar1 (shS 1 d.toNat [a.toNat]) d.toNat a.toNat (fun x => BitVec.ofNat 64 (trailingZeros 64 x.toNat)) s)

/-- `saddi` (04 R111). -/
def execSaddi (d : BitVec 5) (a : BitVec 5) (i : BitVec 12) (s : State) : Out :=
  .next (scalar1 (shS 2 d.toNat [a.toNat]) d.toNat a.toNat (fun x => x + i.signExtend 64) s)

/-- `sandi` (04 R111). -/
def execSandi (d : BitVec 5) (a : BitVec 5) (i : BitVec 12) (s : State) : Out :=
  .next (scalar1 (shS 2 d.toNat [a.toNat]) d.toNat a.toNat (fun x => x &&& i.signExtend 64) s)

/-- `sori` (04 R111). -/
def execSori (d : BitVec 5) (a : BitVec 5) (i : BitVec 12) (s : State) : Out :=
  .next (scalar1 (shS 2 d.toNat [a.toNat]) d.toNat a.toNat (fun x => x ||| i.setWidth 64) s)

/-- `sxori` (04 R111). -/
def execSxori (d : BitVec 5) (a : BitVec 5) (i : BitVec 12) (s : State) : Out :=
  .next (scalar1 (shS 2 d.toNat [a.toNat]) d.toNat a.toNat (fun x => x ^^^ i.setWidth 64) s)

/-- `sshli` (04 R111). -/
def execSshli (d : BitVec 5) (a : BitVec 5) (i : BitVec 6) (s : State) : Out :=
  .next (scalar1 (shS 2 d.toNat [a.toNat]) d.toNat a.toNat (fun x => x <<< i.toNat) s)

/-- `sshri_n64` (04 R111). -/
def execSshriN64 (d : BitVec 5) (a : BitVec 5) (i : BitVec 6) (s : State) : Out :=
  .next (scalar1 (shS 2 d.toNat [a.toNat]) d.toNat a.toNat (fun x => x >>> i.toNat) s)

/-- `sshri_i64` (04 R111). -/
def execSshriI64 (d : BitVec 5) (a : BitVec 5) (i : BitVec 6) (s : State) : Out :=
  .next (scalar1 (shS 2 d.toNat [a.toNat]) d.toNat a.toNat (fun x => x.sshiftRight i.toNat) s)

/-- `smuli` (04 R111). -/
def execSmuli (d : BitVec 5) (a : BitVec 5) (i : BitVec 12) (s : State) : Out :=
  .next (scalar1 (shS 2 d.toNat [a.toNat]) d.toNat a.toNat (fun x => x * i.signExtend 64) s)

/-- `sli` (04 R113). -/
def execSli (d : BitVec 5) (i : BitVec 16) (s : State) : Out :=
  .next (scalarWord (shS 3 d.toNat []) d.toNat (fun _ => i.signExtend 64) s)

/-- `sliu` (04 R113). -/
def execSliu (d : BitVec 5) (i : BitVec 16) (s : State) : Out :=
  .next (scalarWord (shS 3 d.toNat []) d.toNat (fun _ => i.setWidth 64) s)

/-- `sins_h0` (04 R113). -/
def execSinsH0 (d : BitVec 5) (i : BitVec 16) (s : State) : Out :=
  .next (scalarWord (shS 3 d.toNat [d.toNat]) d.toNat (fun r => insertHalf (r.sreg d.toNat) 0 i) s)

/-- `sins_h1` (04 R113). -/
def execSinsH1 (d : BitVec 5) (i : BitVec 16) (s : State) : Out :=
  .next (scalarWord (shS 3 d.toNat [d.toNat]) d.toNat (fun r => insertHalf (r.sreg d.toNat) 1 i) s)

/-- `sins_h2` (04 R113). -/
def execSinsH2 (d : BitVec 5) (i : BitVec 16) (s : State) : Out :=
  .next (scalarWord (shS 3 d.toNat [d.toNat]) d.toNat (fun r => insertHalf (r.sreg d.toNat) 2 i) s)

/-- `sins_h3` (04 R113). -/
def execSinsH3 (d : BitVec 5) (i : BitVec 16) (s : State) : Out :=
  .next (scalarWord (shS 3 d.toNat [d.toNat]) d.toNat (fun r => insertHalf (r.sreg d.toNat) 3 i) s)

/-- `vget` (04 R113). -/
def execVget (d : BitVec 5) (n : BitVec 5) (a : BitVec 7) (s : State) : Out :=
  .next (scalarWord ({ major := 3, sw := [d.toNat], srcA := [a.toNat] }) d.toNat (fun r => (r.vreg a.toNat)[n.toNat].setWidth 64) s)

/-- `pget` (04 R113). -/
def execPget (d : BitVec 5) (p : BitVec 3) (s : State) : Out :=
  .next (scalarWord ({ major := 3, sw := [d.toNat], pr := [p.toNat] }) d.toNat (fun r => (r.preg p.toNat).setWidth 64) s)

/-- `psets` (04 R113). -/
def execPsets (a : BitVec 5) (p : BitVec 3) (s : State) : Out :=
  .next (predWord ({ major := 3, pw := [p.toNat], sr := [a.toNat] }) p.toNat (fun r => (r.sreg a.toNat).setWidth 32) s)

/-- `nop` (03 R76). -/
def execNop (s : State) : Out :=
  .next (noEffect ({ major := 1 }) s)

end Sys2Proof.Machine
end

