-- ==== Sys2Proof/Machine/Sequencer.lean ====
section
/-! DEFINITION. Meanings: the sequencer, major 0x32 and `dwx` (17). -/

namespace Sys2Proof.Machine

/-! ## Faults (17 R386, R387) -/

/-- The detail of group 14 but for codes 1 and 2. -/
def sequenceDetail (addr kind : Nat) (window two : Bool) (entry lane micro group code : Nat) : BitVec 96 :=
  BitVec.ofNat 96 (addr % 2 ^ 64 + kind % 8 * 2 ^ 64 + (if window then 2 ^ 67 else 0) + (if two then 2 ^ 68 else 0) + entry % 4 * 2 ^ 69 +
    lane % 32 * 2 ^ 71 + micro % 64 * 2 ^ 76 + group % 32 * 2 ^ 82 + code % 256 * 2 ^ 87)

/-- A rejection at acceptance. -/
def rejectSequence (code addr kind entry : Nat) (w : Why) (s : State) : Accept :=
  .bad ⟨causeOf 14 code, sequenceDetail addr kind false w.stage2 entry 0 0 w.group w.code⟩ s

/-- A failed read of the image: translation or permission. -/
def imageFault (w : Why) (kind entry : Nat) (s : State) : Accept := rejectSequence (if engineCode w = 0x10 then 0x10 else 0x11) w.addr kind entry w s

/-! ## Micro-op words (17 R369, R370, R374) -/

def uOp (w : Nat) : Nat := bits w 31 26
def uDst (w : Nat) : Nat := bits w 25 23
def uX (w : Nat) : Nat := bits w 22 19
def uY (w : Nat) : Nat := bits w 18 15
def uZ (w : Nat) : Nat := bits w 14 11
def uImm (w : Nat) : Nat := bits w 10 0

/-- How many selectors an op reads; none for a reserved op. -/
def uReads (op : Nat) : Option Nat :=
  if op ≤ 0x0C then some 2
  else if op ≤ 0x0F then some 1
  else if op ≤ 0x13 then some 2
  else if op = 0x14 then some 3
  else if op = 0x15 then some 2
  else if 0x20 ≤ op ∧ op ≤ 0x22 then some 2
  else if op = 0x23 then some 3
  else if 0x24 ≤ op ∧ op ≤ 0x27 then some 2
  else if op = 0x28 ∨ op = 0x29 then some 1
  else if op = 0x30 then some 1
  else if op = 0x31 then some 2
  else if op = 0x3C ∨ op = 0x3F then some 1
  else none

/-- A micro-op that R374 accepts at index i of n, with `loads` loads before it. -/
def uGood (w i n loads : Nat) : Bool :=
  let op := uOp w
  match uReads op with
  | none => false
  | some k =>
    let sel := [uX w, uY w, uZ w]
    let field := op = 0x0F || op = 0x10 || op = 0x3C
    let reads14 := (sel.take k).contains 14
    !sel.contains 15 && (sel.drop k).all (· == 13) && (uDst w = 0 || !(op = 0x3C || op = 0x3F)) &&
      (if op = 0x0F then bits (uImm w) 4 0 + bits (uImm w) 9 5 + 1 ≤ 32
       else if op = 0x10 then bits (uImm w) 4 0 + bits (uImm w) 9 5 + 1 ≤ 32 && bits (uImm w) 10 10 = 0
       else if op = 0x3C then 1 ≤ uImm w && uImm w ≤ 255
       else uImm w = 0 || reads14) &&
      !(field && reads14) && ((op = 0x3F) == (i + 1 = n)) && !((op = 0x30 || op = 0x31) && 8 ≤ loads)

/-- The first micro-op that breaks R374. -/
def firstBad : List Nat → Nat → Nat → Nat → Option Nat
  | [], _, _, _ => none
  | w :: r, i, n, loads => if uGood w i n loads then firstBad r (i + 1) n (if uOp w = 0x30 ∨ uOp w = 0x31 then loads + 1 else loads) else some i

/-! ## Pages (17 R364, R365) -/

/-- The pages of a core that bindings of crews resident there name: a run ends in the step in which it begins (17 R364). -/
def namedPages (s : State) (core : Nat) : List Nat :=
  (s.crews.filter fun c => c.core = core && crewHere s c).flatMap fun c => c.bindings.map Binding.page

/-- A page that holds the sequence, else one that is not occupied: a free value where it names one, else the lowest. -/
def pageFor (s : State) (core : Nat) (t : BitVec 6) (digest : BitVec 512) : Option Nat :=
  let pages := (s.core core).pages.filter fun p => (namedPages s core).contains p.1
  match pages.find? fun p => p.2.tenant = t && p.2.digest = digest with
  | some p => some p.1
  | none =>
    let free (k : Nat) : Bool := k < 64 && (lookup pages k).isNone
    if free (Config.pick s.tick) then some (Config.pick s.tick) else (List.range 64).find? free

/-- Pages of a core that are not occupied are cleared. -/
def freePages (core : Nat) (s : State) : State :=
  s.setCore core fun k => { k with pages := k.pages.filter fun p => (namedPages s core).contains p.1 }

def wordsOf (b : List Byte) (n : Nat) : List Nat := (List.range n).map fun i => ofBytes (slice b (4 * i) 4)

/-- A sequence put into a page. -/
def loadPage (core page : Nat) (t : BitVec 6) (digest : BitVec 512) (slot : Nat) (words : List Nat) (s : State) : State :=
  { s with tick := s.tick + 1 }.setCore core fun k => { k with pages := upsert k.pages page ⟨t, digest, slot, words.map (BitVec.ofNat 32)⟩ }

/-! ## The control words (17 R376-R379) -/

/-- A header and the words behind it, read and checked; a status, or the sequence: slot, words, digest. -/
inductive Sequence where
  | status (n : Nat)
  | good (slot : Nat) (words : List Nat) (digest : BitVec 512)
  deriving DecidableEq, Repr

def readSequence (rd : Reader) (at_ : Nat) (s : State) : Got Sequence :=
  (readLong rd (linesFor 8) at_ 8 s).got.next fun h s =>
    let x := ofBytes h
    if bits x 63 10 != 0 then .ok (.status 2) s
    else
      let n := bits x 9 4 + 1
      (readLong rd (linesFor (4 * n)) (at_ + 8) (4 * n) s).got.next fun b s =>
        let ws := wordsOf b n
        match firstBad ws 0 n 0 with
        | some i => .ok (.status (3 + i * 256)) s
        | none => .ok (.good (bits x 3 0) ws (Config.shake256 (h ++ b))) s

/-- `sq.bind`. -/
def acceptBind (a : Access) (e : Nat) (s : State) : Accept :=
  match s.myCrew with
  | none => .wait s
  | some c =>
    let T := s.tenant s.g.tenant
    let ix := a.base.toNat
    if T.image = 0 then answer a 5 s
    else if T.imageCount ≤ ix then answer a 1 s
    else
      match readLong (gangRead [] s.agent) (linesFor 8) (T.image.toNat + 8 * ix) 8 s with
      | .wait s1 => .wait s1
      | .bad w s1 => imageFault w 2 e s1
      | .ok b s1 =>
        let x := ofBytes b
        if bits x 63 63 = 0 || bits x 19 0 % 8 != 0 then answer a 1 s1
        else
          let at_ := T.image.toNat + bits x 19 0
          match readSequence (gangRead [] s1.agent) at_ s1 with
          | .wait s2 => .wait s2
          | .bad w s2 => imageFault w 3 e s2
          | .ok (.status n) s2 => answer a n s2
          | .ok (.good slot ws digest) s2 =>
            match pageFor s2 c.core s2.g.tenant digest with
            | none => answer a 4 s2
            | some p =>
              let s3 := loadPage c.core p s2.g.tenant digest slot ws s2
              let s4 := s3.setCrew c.uid fun k => { k with bindings := ⟨slot, ix, at_, digest, p⟩ :: k.bindings.filter fun y => y.slot != slot }
              answer a (2 ^ 63 + slot) (freePages c.core s4)

/-- `sq.unbind`. -/
def acceptUnbind (a : Access) (_e : Nat) (s : State) : Accept :=
  match s.myCrew with
  | none => .wait s
  | some c =>
    .done (freePages c.core (s.setCrew c.uid fun k => { k with bindings := k.bindings.filter fun y => y.slot != a.base.toNat % 16 }))

/-- The binding of a slot of the gang's crew, with its page. -/
def bindingOf (s : State) (slot : Nat) : Option (Binding × Page) :=
  match s.myCrew with
  | none => none
  | some c =>
    match c.bindings.find? fun b => b.slot = slot with
    | none => none
    | some b => (lookup (s.core c.core).pages b.page).map fun p => (b, p)

/-- `sq.query`. -/
def acceptQuery (a : Access) (_e : Nat) (s : State) : Accept :=
  answer a (match bindingOf s (a.base.toNat % 16) with
    | some (b, p) => b.index % 256 + (p.words.length - 1) * 2 ^ 8 + b.page * 2 ^ 14 + 2 ^ 63
    | none => 0) s

/-- `sq.img`. -/
def acceptImage (a : Access) (e : Nat) (s : State) : Accept :=
  let b := a.base.toNat
  let n := a.idx.toNat
  if b = 0 then .done (s.setTenant s.g.tenant fun T => { T with image := 0, imageCount := 0 })
  else if b % 4096 != 0 || 2 ^ 57 ≤ b then rejectSequence 0x0A b 0 e ⟨0, 0, 0, false⟩ s
  else if n = 0 || 256 < n then rejectSequence 0x0A n 0 e ⟨0, 0, 0, false⟩ s
  else .done (s.setTenant s.g.tenant fun T => { T with image := a.base, imageCount := n })

/-! ## A run (17 R380-R383) -/

/-- What a run reads: the word's k and its sources, as read at issue. -/
structure RunIn where
  k : Nat
  a : Lanes Word
  b : Lanes Word
  d : Lanes Word
  mask : Word
  deriving DecidableEq, Repr

/-- A selector's values. -/
def RunIn.sel (r : RunIn) (t : List (Lanes Word)) (w n : Nat) : Lanes Word :=
  if n < 8 then t.getD n (Lanes.all 0)
  else if n = 8 then r.a
  else if n = 9 then r.b
  else if n = 10 then r.d
  else if n = 11 then Lanes.of fun L => BitVec.ofNat 32 L.val
  else if n = 12 then Lanes.all (BitVec.ofNat 32 r.k)
  else if n = 14 then Lanes.all ((BitVec.ofNat 11 (uImm w)).signExtend 32)
  else Lanes.all 0

def allOnes (b : Bool) : Word := if b then 0xFFFFFFFF else 0

/-- A bit field of x, zero-extended or sign-extended. -/
def uExtract (imm : Nat) (x : Word) : Word :=
  let v := x.toNat / 2 ^ bits imm 4 0 % 2 ^ (bits imm 9 5 + 1)
  if bits imm 10 10 = 1 ∧ 2 ^ bits imm 9 5 ≤ v then BitVec.ofNat 32 (v + 2 ^ 32 - 2 ^ (bits imm 9 5 + 1)) else BitVec.ofNat 32 v

def uInsert (imm : Nat) (x y : Word) : Word :=
  let p := bits imm 4 0
  let m := 2 ^ (bits imm 9 5 + 1)
  BitVec.ofNat 32 (x.toNat - x.toNat / 2 ^ p % m * 2 ^ p + y.toNat % m * 2 ^ p)

/-- A micro-op that neither loads nor ends a run, in one lane (17 R370). -/
def uLane (w : Nat) (x y z : Word) (from_ : Lanes Word) : Word × Flags :=
  match uOp w with
  | 0x00 => (x + y, 0)
  | 0x01 => (x - y, 0)
  | 0x02 => (x * y, 0)
  | 0x03 => (x &&& y, 0)
  | 0x04 => (x ||| y, 0)
  | 0x05 => (x ^^^ y, 0)
  | 0x06 => (x <<< (y.toNat % 32), 0)
  | 0x07 => (x >>> (y.toNat % 32), 0)
  | 0x08 => (x.sshiftRight (y.toNat % 32), 0)
  | 0x09 => (if x.slt y then x else y, 0)
  | 0x0A => (if x.slt y then y else x, 0)
  | 0x0B => (if x.ult y then x else y, 0)
  | 0x0C => (if x.ult y then y else x, 0)
  | 0x0D => (BitVec.ofNat 32 (popCount 32 x.toNat), 0)
  | 0x0E => (BitVec.ofNat 32 (leadingZeros 32 x.toNat), 0)
  | 0x0F => (uExtract (uImm w) x, 0)
  | 0x10 => (uInsert (uImm w) x y, 0)
  | 0x11 => (allOnes (x == y), 0)
  | 0x12 => (allOnes (x.slt y), 0)
  | 0x13 => (allOnes (x.ult y), 0)
  | 0x14 => (if z != 0 then x else y, 0)
  | 0x15 => (laneAt from_ (y.toNat % 32), 0)
  | 0x20 => fAdd x y
  | 0x21 => fSub x y
  | 0x22 => fMul x y
  | 0x23 => fFma x y z
  | 0x24 => fMinMax false false x y
  | 0x25 => fMinMax true false x y
  | 0x26 => (allOnes (fEq x y), 0)
  | 0x27 => (allOnes (fLt x y), 0)
  | 0x28 => cvtTo fp32 .rne 0 (XVal.ofInt x.toInt)
  | 0x29 => toI32 .rne 0 x
  | _ => (0, 0)

/-- A micro-op's load in one lane (17 R371): alignment, then translation and permission. -/
def uLoad (global : Bool) (addr : Nat) (s : State) : Got Word :=
  if addr % 4 != 0 then .bad ⟨3, 1, addr, false⟩ s
  else if global then (gangRead [] s.agent addr 4 s).got.next fun b s => .ok (BitVec.ofNat 32 (ofBytes b)) s
  else
    match spadKey s addr with
    | .error w => .bad w s
    | .ok k => .ok (BitVec.ofNat 32 (ofBytes (s.spad.read k 4))) s

/-- The loads of a micro-op lane by lane: what they read, the lanes that failed, whether one waits. -/
def uLoads (global : Bool) (x y : Lanes Word) : List (Fin 32) → Lanes Word → List (Fin 32 × Why) → Bool → State →
    Lanes Word × List (Fin 32 × Why) × Bool × State
  | [], v, bad, wt, s => (v, bad, wt, s)
  | L :: Ls, v, bad, wt, s =>
    match uLoad global (if global then y[L].toNat * 2 ^ 32 + x[L].toNat else x[L].toNat) s with
    | .ok r s1 => uLoads global x y Ls (merge (1#32 <<< L.val) v (Lanes.all r)) bad wt s1
    | .bad w s1 => uLoads global x y Ls v (bad ++ [(L, w)]) wt s1
    | .wait s1 => uLoads global x y Ls v bad true s1

/-- How a run ends: its result and flags, a trap, or a load that waits. -/
inductive RunEnd where
  | done (x : Lanes Word) (f : Flags) (s : State)
  | trap (group code : Nat) (det : BitVec 96) (lanes : Word) (s : State)
  | wait (s : State)

def lanesMask (l : List (Fin 32)) : Word := l.foldl (fun m L => m ||| (1#32 <<< L.val)) 0

/-- `run` (17 R381) from micro-op i on. -/
def runFrom (r : RunIn) (word : Nat) : List Word → Nat → List (Lanes Word) → Flags → State → RunEnd
  | [], _, _, f, s => .done r.d f s
  | w :: ws, i, t, f, s =>
    let u := w.toNat
    let x := r.sel t u (uX u)
    let y := r.sel t u (uY u)
    let z := r.sel t u (uZ u)
    if uOp u = 0x3F then .done x f s
    else if uOp u = 0x3C then
      let hit := laneMask fun L => lane r.mask L && x[L] != 0
      if hit = 0 then runFrom r word ws (i + 1) t f s
      else .trap 4 (uImm u % 256) (BitVec.ofNat 96 (hit.toNat + i % 64 * 2 ^ 32 + word * 2 ^ 64)) hit s
    else if uOp u = 0x30 ∨ uOp u = 0x31 then
      let global := uOp u = 0x31
      match uLoads global x y (laneList r.mask) (Lanes.all 0) [] false s with
      | (_, _, true, s1) => .wait s1
      | (v, [], false, s1) => runFrom r word ws (i + 1) (t.set (uDst u) v) f s1
      | (_, (L, why) :: bad, false, s1) =>
        .trap 14 3 (sequenceDetail why.addr (if global then 1 else 0) (!global) why.stage2 0 L.val i why.group why.code)
          (lanesMask (L :: bad.map Prod.fst)) s1
    else
      let res : Lanes (Word × Flags) := Lanes.of fun L => uLane u x[L] y[L] z[L] x
      runFrom r word ws (i + 1) (t.set (uDst u) (Lanes.of fun L => res[L].1)) (f ||| (laneFlags r.mask res &&& 0xF)) s

/-- `dwx.n`: a run in one step, discarded where it is abandoned or where a load waits (17 R380-R382). -/
def sequenceWord (k d a b n : Nat) (s : State) : State :=
  match bindingOf s n with
  | none => issueTrap 14 1 s
  | some (_, p) =>
    if s.emask = 0 then s
    else
      let r : RunIn := ⟨k, s.src.vreg a, s.src.vreg b, s.src.vreg d, s.emask⟩
      match runFrom r s.curWord p.words 0 (List.replicate 8 (Lanes.all 0)) 0 s with
      | .done x f s1 => s1.setR fun q => { q.setV d (merge s.emask (q.vreg d) x) with xstat := q.xstat ||| f }
      | .trap g c det lanes s1 => takeTrap g c det lanes 0 s.g.cur { s1 with g := s.g }
      | .wait s1 => stall { s1 with g := s.g }

/-- `sq_bind` (17 R374-R377). -/
def execSqBind (d : BitVec 5) (b : BitVec 5) (s : State) : Out :=
  .next (issue ({ major := 0x32, sr := [b.toNat], sw := [d.toNat], la := 0 }) (fun s => engineWord ({ major := 0x32, sr := [b.toNat], sw := [d.toNat], la := 0 }) (capOnce 0x32 0 d.toNat b.toNat 0 0) (acceptBind) s) s)

/-- `sq_unbind` (17 R375, R376). -/
def execSqUnbind (a : BitVec 5) (s : State) : Out :=
  .next (issue ({ major := 0x32, sr := [a.toNat], sw := [], la := 0 }) (fun s => engineWord ({ major := 0x32, sr := [a.toNat], sw := [], la := 0 }) (capOnce 0x32 1 0 a.toNat 0 0) (acceptUnbind) s) s)

/-- `sq_query` (17 R376, R378). -/
def execSqQuery (d : BitVec 5) (b : BitVec 5) (s : State) : Out :=
  .next (issue ({ major := 0x32, sr := [b.toNat], sw := [d.toNat], la := 0 }) (fun s => engineWord ({ major := 0x32, sr := [b.toNat], sw := [d.toNat], la := 0 }) (capOnce 0x32 2 d.toNat b.toNat 0 0) (acceptQuery) s) s)

/-- `sq_img` (17 R376, R379). -/
def execSqImg (b : BitVec 5) (c : BitVec 5) (s : State) : Out :=
  .next (issue ({ major := 0x32, sr := [b.toNat, c.toNat], sw := [], la := 0, priv := some 4 }) (fun s => engineWord ({ major := 0x32, sr := [b.toNat, c.toNat], sw := [], la := 0, priv := some 4 }) (capOnce 0x32 3 0 b.toNat c.toNat 0) (acceptImage) s) s)

/-- `dwx` (17 R369-R373, R380-R383, R386, R387). -/
def execDwx (i : BitVec 2) (d : BitVec 7) (a : BitVec 7) (b : BitVec 7) (n : BitVec 4) (s : State) : Out :=
  .next (issue ({ major := 0x38 + i.toNat, srcA := [a.toNat], srcB := [b.toNat], srcD := [d.toNat], dst := [d.toNat] }) (fun s => sequenceWord i.toNat d.toNat a.toNat b.toNat n.toNat s) s)

end Sys2Proof.Machine
end

