-- ==== Sys2Proof/Machine/Nodes.lean ====
section
/-! DEFINITION. Meanings: the dispatch engine: descriptors, admission, predecessor signals, and major 0x30 (18 R388-R395, R404). -/

namespace Sys2Proof.Machine

/-! ## The hub's accesses (18 R390, R403: at `.sys`, through a tenant's translation) -/

/-- The hub as an agent: it stands on no core and no die. -/
def hubCore : Nat := 320

def hubAgent (t : BitVec 6) : Agent := ⟨hubCore, t, 0, false⟩

def hubXl (t : BitVec 6) (read write : Bool) (va : Nat) (s : State) : State × Xl := translateFor t (s.tenant t).priv false read write va s

def hubRead (t : BitVec 6) : Reader := fun va n s =>
  match hubXl t true false va s with
  | (s1, .ok fpa e) => readAt (hubAgent t) .far e fpa n s1
  | (s1, .bad w) => .bad w s1
  | (s1, .wait) => .wait s1

def hubWrite (t : BitVec 6) : Writer := fun va bs s =>
  match hubXl t false true va s with
  | (s1, .bad w) => .bad w s1
  | (s1, .wait) => .wait s1
  | (s1, .ok fpa _) =>
    if s1.isLocal fpa then
      match regionOf (ppaOf fpa) with
      | .hbm => if homeWaits fpa bs.length s1 then .wait s1 else .ok [] (homeStore fpa bs s1)
      | .regs => .ok [] (writeRegBytes (ppaOf fpa - 0x3F0000000000) bs s1)
      | _ => .ok [] (homeWrite fpa bs s1)
    else remoteWrite (hubAgent t) .rel fpa bs.length (fun _ => bs) s1

/-! ## Descriptors (18 R388, R389) -/

def parseDescriptor (b : List Byte) : Descriptor :=
  let f (k n : Nat) : Nat := ofBytes (slice b k n)
  let queues : List Word := (List.range 16).map fun q => BitVec.ofNat 32 (f (0x40 + 4 * q) 4)
  { code := BitVec.ofNat 64 (f 0 8), table := BitVec.ofNat 64 (f 8 8), signal := BitVec.ofNat 64 (f 0x10 8)
    kind := BitVec.ofNat 2 (f 0x18 2), stream := bits (f 0x18 2) 2 2 = 1, blockMode := bits (f 0x18 2) 3 3 = 1
    priority := b.getD 0x1A 0, tenant := b.getD 0x1B 0, nV := f 0x1C 2, crews := f 0x1E 2, spad := f 0x20 4, preds := f 0x24 4
    gridX := f 0x28 2, gridY := f 0x2A 2, gridZ := f 0x2C 2, succCount := f 0x2E 2
    stages := slice b 0x38 8, queues := queues
    barriers := (List.range 8).map fun j => BitVec.ofNat 32 (f (0x80 + 4 * j) 4)
    succs := (List.range 8).map fun i => BitVec.ofNat 64 (f (0xA0 + 8 * i) 8)
    reserved := bits (f 0x18 2) 15 4 != 0 || bits (f 0x18 2) 1 0 = 3 || bits (f 0x1B 1) 7 6 != 0 || f 0x34 4 != 0 ||
      (slice b 0xE0 32).any (· != 0) || queues.any fun q => bits q.toNat 31 27 != 0 }

def Descriptor.gangs (d : Descriptor) : Nat := d.stages.foldl (fun n b => n + b.toNat % 64) 0

/-- Stages with gangs reserve 4 queue entries each (08 R198). -/
def Descriptor.reserve (d : Descriptor) : Nat := 4 * d.stages.countP fun b => b.toNat % 64 != 0

/-- A stage of matrix role with gangs (10 R229). -/
def Descriptor.matrix (d : Descriptor) : Bool := d.stages.any fun b => b.toNat / 64 = 2 && b.toNat % 64 != 0

/-- A stage declares the matrix role (18 R389). -/
def Descriptor.declaresMatrix (d : Descriptor) : Bool := d.stages.any fun b => b.toNat / 64 = 2

/-- A crew's allocation (01 R25). -/
def Descriptor.size (d : Descriptor) : Nat := (d.spad + 4095) / 4096 * 4096

def Descriptor.total (d : Descriptor) : Nat := d.gridX * d.gridY * d.gridZ

def Descriptor.owner (d : Descriptor) : BitVec 6 := d.tenant.setWidth 6

/-- Declared queues and barriers: where each starts, and its bytes. -/
def Descriptor.objects (d : Descriptor) : List (Nat × Nat) :=
  ((d.queues.map BitVec.toNat).filter fun q => bits q 26 20 != 0).map (fun q => (bits q 19 0, 16 + 4 * bits q 26 20)) ++
    ((d.barriers.map BitVec.toNat).filter fun b => bits b 31 20 != 0).map fun b => (bits b 19 0, 16)

/-- No two objects overlap. -/
def apart : List (Nat × Nat) → Bool
  | [] => true
  | x :: r => (r.all fun y => x.1 + x.2 ≤ y.1 || y.1 + y.2 ≤ x.1) && apart r

/-- The scratchpad of a core of a kind (01 R8). -/
def padSize (stream : Bool) : Nat := if stream then 2 ^ 20 else 2 ^ 19

/-- Crews of a node that one empty core holds (18 R396). -/
def Descriptor.perCore (d : Descriptor) : Nat :=
  let n := min (min (64 / d.gangs) (8192 / (d.gangs * d.nV))) (min (32 / d.reserve) (if d.size = 0 then 64 else padSize d.stream / d.size))
  if d.matrix then min n 1 else n

/-- An empty die holds n crews of the node. -/
def Descriptor.dieHolds (d : Descriptor) (n : Nat) : Bool := n * d.size ≤ 2 ^ 20 && n ≤ (if d.stream then 10 else 30) * d.perCore

/-- Some placement on an empty device exists (18 R397). -/
def Descriptor.placeable (d : Descriptor) : Bool := d.dieHolds d.crews || d.dieHolds ((d.crews + 1) / 2)

def Descriptor.valid (d : Descriptor) : Bool :=
  !d.reserved && d.code.toNat % 128 = 0 && d.code.toNat < 2 ^ 57 && d.table.toNat % 8 = 0 && d.signal.toNat % 8 = 0 &&
    d.nV % 8 = 0 && 8 ≤ d.nV && d.nV ≤ 128 && 1 ≤ d.crews && d.crews ≤ 16 && d.spad ≤ 2 ^ 20 && d.preds ≤ 65535 && d.succCount ≤ 8 &&
    1 ≤ d.gridX && 1 ≤ d.gridY && 1 ≤ d.gridZ && d.total < 2 ^ 32 &&
    (d.stages.all fun b => b.toNat % 64 ≤ 32) && 1 ≤ d.gangs && d.gangs ≤ 32 && d.gangs ≤ min 64 (8192 / d.nV) &&
    !(d.declaresMatrix && d.stream) && !(d.kind = 2 && d.stages.any fun b => b.toNat % 64 != 0 && b.toNat / 64 != 1) &&
    (d.queues.all fun q => bits q.toNat 3 0 = 0 && bits q.toNat 26 20 ≤ 64) && (d.barriers.all fun b => bits b.toNat 3 0 = 0) &&
    (d.objects.all fun o => o.1 + o.2 ≤ d.size) && apart d.objects && d.placeable

/-! ## Records of errors without a node (18 R390, R395, R406) -/

def tenantError (t : BitVec 6) (code : Byte) (s : State) : State :=
  raiseTenantError t (s.setTenant t fun T => { T with lastError := ⟨0, code, 0, 0, 0, 0, 0, 0, 0, 0, 0⟩ })

/-- The word a completion signal is (18 R403). -/
def signalWordOf (id : Word) (code : Byte) : Nat := 2 ^ 63 + (if code = 0 then 0 else 2 ^ 62) + code.toNat * 2 ^ 48 + id.toNat

/-- A completion signal written; none while its line is locked. One that cannot be written is not. -/
def writeSignal (t : BitVec 6) (va v : Nat) (s : State) : Option State :=
  if va = 0 then some s
  else
    match hubWrite t va (toBytes 8 v) s with
    | .ok _ s1 => some s1
    | .bad _ s1 => some s1
    | .wait _ => none

/-- A host queue entry or descriptor refused (18 R390, R405). -/
def refuseEntry (t : BitVec 6) (code : Byte) (d : Option Descriptor) (s : State) : Option State :=
  (writeSignal t (match d with
    | some d => d.signal.toNat
    | none => 0) (signalWordOf 0 code) s).map (tenantError t code)

/-! ## Admission (18 R393, R394) -/

def poolFull (s : State) : Bool := 4096 ≤ s.nodes.length

/-- The next id that is not live. -/
def nextId (s : State) : Word :=
  (((List.range 4097).map fun k => s.nextNode + BitVec.ofNat 32 k).find? fun i => s.nodes.all fun n => n.id != i).getD s.nextNode

/-- A waiting node with no predecessor left: ready, in error where one of its predecessors was, or still behind its fence. -/
def settleNode (id : Word) (s : State) : State :=
  match s.node? id with
  | some n =>
    if n.state != .waiting || n.remaining != 0 || n.error.isSome then s
    else if n.predError then nodeError id 7 none s
    else if n.fenceOn.isEmpty then { s with nextId := s.nextId + 1 }.setNode id fun n => { n with state := .ready, readySeq := s.nextId }
    else s
  | none => s

/-- The descriptor's early count, read and cleared: none on a wait; an unreadable one counts as 0. -/
def takeEarly (t : BitVec 6) (addr : Nat) (s : State) : Option (Nat × State) :=
  match hubRead t (addr + 0x30) 4 s with
  | .wait _ => none
  | .bad _ s1 => some (0, s1)
  | .ok b s1 =>
    match hubWrite t (addr + 0x30) (zeros 4) s1 with
    | .wait _ => none
    | .bad _ s2 => some (ofBytes b, s2)
    | .ok _ s2 => some (ofBytes b, s2)

/-- A descriptor enters the pool: its node's id, and the state; none on a wait. -/
def enterPool (d : Descriptor) (addr : Nat) (queue : Option Nat) (irq fence : Bool) (s : State) : Option (Word × State) :=
  (takeEarly d.owner addr s).map fun (e, s1) =>
    let id := nextId s1
    let tok := s1.tokens.find? fun x => x.tenant = d.owner && x.addr = addr
    let n : Node :=
      { id := id, addr := addr, desc := d, state := .waiting, remaining := d.preds - e
        fenceOn := if fence then (s1.nodes.filter fun n => n.queue = queue && n.desc.owner = d.owner).map Node.id else []
        queue := queue, irq := irq, readySeq := 0, nextEns := 0, release := none, ranOn := []
        predCores := match tok with
          | some x => x.cores
          | none => []
        hasPred := d.preds != 0
        remotePred := match tok with
          | some x => x.remote
          | none => false
        predError := match tok with
          | some x => x.error
          | none => false
        error := none, errorHeld := none }
    (id, settleNode id { s1 with
      nextNode := id + 1
      nodes := s1.nodes ++ [n]
      tokens := s1.tokens.filter fun x => !(x.tenant = d.owner && x.addr = addr) })

/-! ## Host queues (18 R390) -/

def HostQueue.size (q : HostQueue) : Nat := 2 ^ (q.log.toNat + 4)

/-- An enabled queue with an entry that may be taken: not while the pool, with what is on its way into it, is full. -/
def entryWaits (t : BitVec 6) (q : Nat) (s : State) : Bool :=
  let T := s.tenant t
  let Q := queueAt T q
  s.host.ready && T.valid && !T.resetting && Q.enabled && Q.head.toNat % Q.size != Q.tail.toNat % Q.size && s.nodes.length + s.admissions.length < 4096

def advanceHead (t : BitVec 6) (q : Nat) (s : State) : State :=
  s.setTenant t fun T =>
    let Q := queueAt T q
    { T with queues := T.queues.setIfInBounds q { Q with head := BitVec.ofNat 12 ((Q.head.toNat + 1) % Q.size) } }

/-- One entry taken: the entry and its descriptor are read, then the head advances. None on a wait. -/
def takeEntry (t : BitVec 6) (q : Nat) (s : State) : Option State :=
  let Q := queueAt (s.tenant t) q
  match hubRead t (Q.base.toNat + 16 * (Q.head.toNat % Q.size)) 16 s with
  | .wait _ => none
  | .bad _ s1 => refuseEntry t 2 none (advanceHead t q s1)
  | .ok b s1 =>
    let x := ofBytes b
    let va := bits x 56 0
    let bad := bits x 63 57 != 0 || bits x 127 66 != 0 || va % 64 != 0
    match readLong (hubRead t) (linesFor 256) va 256 s1 with
    | .wait _ => none
    | .bad _ s2 => refuseEntry t (if bad then 1 else 2) none (advanceHead t q s2)
    | .ok d s2 =>
      let D := parseDescriptor d
      if bad || !D.valid || D.owner != t then refuseEntry t 1 (some D) (advanceHead t q s2)
      else
        some (advanceHead t q { s2 with
          nextId := s2.nextId + 1
          admissions := s2.admissions ++ [⟨s2.nextId, t, q, va, D, bits x 64 64 = 1, bits x 65 65 = 1⟩] })

/-- Entries of a queue taken up to its tail, at most a ring of them. -/
def takeEntries (t : BitVec 6) (q : Nat) : Nat → State → State
  | 0, s => s
  | k + 1, s =>
    if entryWaits t q s then
      match takeEntry t q s with
      | some s1 => takeEntries t q k s1
      | none => s
    else s

/-- Entries of every queue taken: room has come into the pool, or a queue has been enabled. -/
def takeAll (s : State) : State :=
  (List.range 64).foldl (fun s t => (List.range 16).foldl (fun s q => takeEntries (BitVec.ofNat 6 t) q 4096 s) s) s

/-- HOST_DOORBELL (18 R390). -/
def hostDoorbell (t q tail : Nat) (s : State) : State :=
  if q < 16 then takeEntries (BitVec.ofNat 6 t) q 4096 (writeDoorbell (BitVec.ofNat 6 t) q tail s) else s

/-- NODE_ADMIT (18 R394): an admission enters the pool, behind those taken before it from its queue. With no such admission the engine
looks at its queues again. -/
def nodeAdmit (k : Nat) (s : State) : State :=
  match s.admissions.find? fun a => a.id = k with
  | none => takeAll s
  | some a =>
    if poolFull s || (s.admissions.takeWhile fun b => b.id != k).any (fun b => b.tenant = a.tenant && b.queue = a.queue) then s
    else
      match enterPool a.desc a.addr (some a.queue) a.irq a.fence s with
      | some (_, s1) => { s1 with admissions := s1.admissions.filter fun b => b.id != k }
      | none => s

/-! ## Predecessor signals (18 R395) -/

def unionNats (a b : List Nat) : List Nat := a ++ b.filter fun x => !a.contains x

def mergeToken (p : PredSignal) (l : List EarlyToken) : List EarlyToken :=
  match l.find? fun x => x.tenant = p.tenant && x.addr = p.addr with
  | some _ => mapIf (fun x => x.tenant = p.tenant && x.addr = p.addr)
      (fun x => { x with cores := unionNats x.cores p.cores, remote := x.remote || p.remote, error := x.error || p.error }) l
  | none => l ++ [⟨p.tenant, p.addr, p.cores, p.remote, p.error⟩]

/-- The target engine's acknowledgement of an `nd.signal`. -/
def acknowledgeSignal (p : PredSignal) (fault : Option Why) (s : State) : State :=
  match p.gang with
  | some u =>
    let s1 := s.updGang u fun g => { g with outstanding := g.outstanding - 1 }
    match fault with
    | some w => postReport u w s1
    | none => s1
  | none => s

/-- What the engine does with a signal; none on a wait. -/
def applySignal (p : PredSignal) (s : State) : Option State :=
  let mine := s.nodes.filter fun n => n.desc.owner = p.tenant && n.addr = p.addr && n.error.isNone
  if (s.tenant p.tenant).resetting then some (acknowledgeSignal p none s)
  else
    match mine.find? fun n => n.state = .waiting && n.remaining != 0 with
    | some n =>
      some (acknowledgeSignal p none (settleNode n.id (s.setNode n.id fun n => { n with
        remaining := n.remaining - 1, predCores := unionNats n.predCores p.cores
        remotePred := n.remotePred || p.remote, predError := n.predError || p.error })))
    | none =>
      if !mine.isEmpty then some (acknowledgeSignal p none s)
      else
        let lost (w : Why) (s : State) : Option State :=
          some (acknowledgeSignal p (some ⟨12, 4, w.addr, false⟩) (tenantError p.tenant 0 s))
        match hubRead p.tenant (p.addr + 0x30) 4 s with
        | .wait _ => none
        | .bad w s1 => lost w s1
        | .ok b s1 =>
          match hubWrite p.tenant (p.addr + 0x30) (toBytes 4 (ofBytes b + 1)) s1 with
          | .wait _ => none
          | .bad w s2 => lost w s2
          | .ok _ s2 => some (acknowledgeSignal p none { s2 with tokens := mergeToken p s2.tokens })

/-- PREDECESSOR_SIGNAL. -/
def predecessorSignal (k : Nat) (s : State) : State :=
  match s.predSignals.find? fun p => p.id = k with
  | some p =>
    match applySignal p s with
    | some s1 => { s1 with predSignals := s1.predSignals.filter fun x => x.id != k }
    | none => s
  | none => s

/-- A signal sent to a package: kept for this package's engine, or a packet of the critical class (18 R395, 15 R336). -/
def sendSignal (t : BitVec 6) (pkg addr : Nat) (cores : List Nat) (error : Bool) (gang : Option Nat) (s : State) : State :=
  if pkg = s.pkg.toNat then
    { s with nextId := s.nextId + 1, predSignals := s.predSignals ++ [⟨s.nextId, t, addr, cores, false, error, gang⟩] }
  else sendPacket (pkg * 2 ^ 46) 4 (.predSignal t (BitVec.ofNat 64 addr) error) gang.toList 0 0 t true s

/-! ## Major 0x30 (18 R391, R392) -/

/-- A launch, once its release is complete. -/
def launchNode (a : Access) (e : Nat) (s : State) : Accept :=
  let va := a.base.toNat
  match readLong (gangRead [] s.agent) (linesFor 256) va 256 s with
  | .wait s1 => .wait s1
  | .bad w s1 => .bad (faultRec w 0 false e 0 0) s1
  | .ok b s1 =>
    let d := parseDescriptor b
    if va % 64 != 0 || !d.valid then answer a 2 s1
    else if d.owner != s1.g.tenant then answer a 3 s1
    else if poolFull s1 then answer a 1 s1
    else
      match enterPool d va none false false s1 with
      | some (id, s2) => answer a (2 ^ 63 + id.toNat) s2
      | none => .wait s1

/-- `nd.launch`: the word never waits at issue; what it has to wait for, it waits for in its entry (18 R391). -/
def acceptLaunch (a : Access) (e : Nat) (s : State) : Accept := behindRelease .dev a e (launchNode a e) s

/-- The status of an `nd.signal` that sends nothing. -/
def signalStatus (addr pkg : Nat) (s : State) : Option Nat :=
  if addr % 64 != 0 || 2 ^ 57 ≤ addr || 8191 < pkg then some 1 else if s.domain.contains pkg then none else some 2

/-- `nd.signal`: one that sends nothing answers at once, another goes behind its release. A token of no core asks for a `.dev` acquire: the
hub's number stands for it. -/
def acceptNodeSignal (a : Access) (e : Nat) (s : State) : Accept :=
  let addr := a.base.toNat
  let pkg := a.idx.toNat
  match signalStatus addr pkg s with
  | some x => answer a x s
  | none =>
    behindRelease (if pkg = s.pkg.toNat then .dev else .fab) a e (fun s =>
      answer a (2 ^ 63) (sendSignal s.g.tenant pkg addr [hubCore] false (some s.g.uid) (addOutstanding s.g.uid s))) s

/-- `nd.stat`. -/
def acceptNodeStat (a : Access) (_e : Nat) (s : State) : Accept :=
  answer a (match s.node? (a.base.setWidth 32) with
    | none => 0
    | some n =>
      match n.state with
      | .waiting => 1
      | .ready => 2
      | .running => if s.ensembles.any (fun e => e.node = n.id && e.state = .evicted) then 4 else 3) s

/-- `nd_launch` (18 R391, R392, R394). -/
def execNdLaunch (d : BitVec 5) (b : BitVec 5) (l : BitVec 4) (s : State) : Out :=
  .next (issue ({ major := 0x30, sr := [b.toNat], sw := [d.toNat], la := l.toNat }) (fun s => engineWord ({ major := 0x30, sr := [b.toNat], sw := [d.toNat], la := l.toNat }) (capOnce 0x30 0 d.toNat b.toNat 0 0) (acceptLaunch) s) s)

/-- `nd_signal` (18 R391, R392, R395). -/
def execNdSignal (d : BitVec 5) (b : BitVec 5) (c : BitVec 5) (l : BitVec 4) (s : State) : Out :=
  .next (issue ({ major := 0x30, sr := [b.toNat, c.toNat], sw := [d.toNat], la := l.toNat }) (fun s => engineWord ({ major := 0x30, sr := [b.toNat, c.toNat], sw := [d.toNat], la := l.toNat }) (capOnce 0x30 1 d.toNat b.toNat c.toNat 0) (acceptNodeSignal) s) s)

/-- `nd_stat` (18 R391, R392). -/
def execNdStat (d : BitVec 5) (b : BitVec 5) (l : BitVec 4) (s : State) : Out :=
  .next (issue ({ major := 0x30, sr := [b.toNat], sw := [d.toNat], la := l.toNat }) (fun s => engineWord ({ major := 0x30, sr := [b.toNat], sw := [d.toNat], la := l.toNat }) (capOnce 0x30 2 d.toNat b.toNat 0 0) (acceptNodeStat) s) s)

end Sys2Proof.Machine
end

