-- ==== Sys2Proof/Machine/Frames.lean ====
section
/-! DEFINITION. Meanings: what leaves a core with an evicted ensemble and returns with it: kept commands, matrix state, hardware frames (06 R188-R191; 08 R223; 10 R250, R251; 15 R335; 18 R401). -/

namespace Sys2Proof.Machine

/-! ## The save area (06 R189) -/

/-- The crew save area C: its slot of the tenant's context store. -/
def Crew.area (c : Crew) (s : State) : Nat := (s.tenant c.tenant).ctxBase.toNat + c.saveArea.getD 0 * 3145728

def Crew.frame (c : Crew) (gangNo : Nat) (s : State) : Nat := c.area s + gangNo * 65536

/-- The device acting for a crew: a store of the crew's die, through the tenant's translation (log entry 17). -/
def Crew.client (c : Crew) : Client := ⟨⟨c.core, c.tenant, 0, false⟩, c.node⟩

/-- Bytes the device writes for a crew; none on a wait. An unwritable place keeps its bytes, and its check fails at restore. -/
def areaWrite (c : Crew) (va : Nat) (bs : List Byte) (s : State) : Option State :=
  match writeLong (c.client.write 0) (linesFor bs.length) va bs s with
  | .ok _ s1 => some (landWrites (c.core / 40) s1)
  | .bad _ s1 => some (landWrites (c.core / 40) s1)
  | .wait _ => none

/-! ## What an eviction waits for (18 R401; 08 R223; 10 R250; 15 R335) -/

/-- A command that is not run before the save: suspended and reported, or a fill behind one of its FIFO (08 R223). -/
def cmdKept (K : Core) (c : Command) : Bool :=
  (c.suspended && c.fault.isNone) ||
    (c.op = 3 && (K.cmds.takeWhile fun x => x.id != c.id).any fun x => x.op = 3 && x.fifoB == c.fifoB && x.suspended && x.fault.isNone)

/-- A task that keeps no eviction waiting (10 R250): not started, a compute task between two k-groups, a suspended drain, or a drain to
peer whose arrival has not begun to be applied. -/
def taskQuiet (s : State) (core : Nat) (t : Task) : Bool :=
  match t.state with
  | .queued => true
  | .running => t.kind = 0 || (t.suspended && t.fault.isNone)
  | .sent => (s.arrivalsOf core t.id).any (fun a => !a.applied) || s.packets.any fun p => p.cmd = t.id && !p.applied
  | .finished => true

/-- A handler that still decides on a suspended command. -/
def Gang.decides (g : Gang) : Bool := g.handler.isSome && match g.handlerReport with
  | some r => r.suspended
  | none => false

def gangsOf (s : State) (crew : Nat) : List Gang := s.allGangs.filter fun g => g.crew = crew

/-- A gang has retired, or has left with an eviction. -/
def Gang.gone (g : Gang) : Bool := g.status = .retired || g.status = .saved

def crewQuiet (s : State) (c : Crew) : Bool :=
  let K := s.core c.core
  ((K.cmds.filter fun x => x.crew = c.uid).all fun x => cmdKept K x) &&
    (K.matrixOf != some c.uid || K.tasks.all fun t => taskQuiet s c.core t) &&
    (gangsOf s c.uid).all fun g => g.gone || (g.outstanding = 0 && signalsPending s g.uid = 0 && !g.decides)

def crewsIn (s : State) (ens : Nat) : List Crew := s.crews.filter fun c => c.ensemble = ens

/-- Every crew of an ensemble is quiet. -/
def ensembleQuiet (s : State) (ens : Nat) : Bool := (crewsIn s ens).all fun c => crewQuiet s c

/-- The device drains every entry with a bit of the ensemble's gangs (15 R335). -/
def drainEnsemble (ens : Nat) (s : State) : State :=
  (crewsIn s ens).foldl (fun s c => (gangsOf s c.uid).foldl (fun s g => drainGang c.core g.uid s) s) s

/-! ## Matrix state (10 R250, R251) -/

/-- A drain to peer that has not been applied returns to the queue, its start undone. -/
def revertPeer (core : Nat) (t : Task) (s : State) : State :=
  if t.state != .sent then s
  else
    let s1 := setTile core t.tile (fun T =>
      { T with acc := Vector.ofFn fun k : Fin 4096 => t.values.getD k.val 0, arrivals := T.arrivals + t.awaits, open_ := t.prevOpen }) s
    setTask core t.id (fun t => { t with state := .queued, values := [] })
      { s1 with
        arrivals := s1.arrivals.filter fun a => !(a.src = s1.pkg.toNat && a.core = core && a.task = t.id)
        packets := s1.packets.filter fun p => p.cmd != t.id }

def tileBytes (K : Core) : List Byte :=
  match K.tiles with
  | some v => v.toList.flatMap fun T => T.acc.toList.flatMap fun x => toBytes 4 x.toNat
  | none => []

def latchBytes : Option Latch → List Byte
  | some l => l.bytes
  | none => []

/-- The matrix part of a core. -/
def matrixPart (K : Core) : Core :=
  { Core.empty with fifoA := K.fifoA, fifoB := K.fifoB, roomA := K.roomA, roomB := K.roomB, latchA := K.latchA, latchB := K.latchB
                    pickA := K.pickA, pickB := K.pickB, tasks := K.tasks, tiles := K.tiles }

def clearMatrix (K : Core) : Core :=
  { K with fifoA := [], fifoB := [], roomA := 65536, roomB := 65536, latchA := none, latchB := none, pickA := none, pickB := none
           tasks := [], tiles := none, matrixOf := none }

/-- The pieces of the saved image: offset from C and bytes. -/
def matrixPieces (K : Core) : List (Nat × List Byte) :=
  [(0x280000, tileBytes K), (0x2C0000, K.fifoA), (0x2D0000, K.fifoB), (0x2E0000, latchBytes K.latchA), (0x2E8000, latchBytes K.latchB)]

/-- The matrix state of a crew written into its area, and taken off the core. -/
def saveMatrix (c : Crew) (s : State) : Option State :=
  if (s.core c.core).matrixOf != some c.uid then some s
  else
    let s1 := (s.core c.core).tasks.foldl (fun s t => revertPeer c.core t s) s
    let K := s1.core c.core
    let (u, s2) := unspecified 65520 s1
    let check := toBytes 16 (Config.frameCheck ((matrixPieces K).flatMap Prod.snd ++ u)).toNat
    ((matrixPieces K ++ [(0x2F0000, u ++ check)]).foldl (fun (o : Option State) (p : Nat × List Byte) => o.bind fun s => areaWrite c (c.area s + p.1) p.2 s)
        (some s2)).map fun (s3 : State) =>
      ({ s3 with parkedMatrix := s3.parkedMatrix ++ [(c.uid, matrixPart K)] }).setCore c.core clearMatrix

/-- Bytes read back; none on a wait, `some none` where they cannot be read. -/
def areaRead (c : Crew) (va n : Nat) (s : State) : Option (Option (List Byte) × State) :=
  match readLong c.client.read (linesFor n) va n s with
  | .ok b s1 => some (some b, s1)
  | .bad _ s1 => some (none, s1)
  | .wait _ => none

def wordsAt (b : List Byte) (k : Nat) : Word := BitVec.ofNat 32 (ofBytes (slice b (4 * k) 4))

/-- Tile t as it stands in the saved image. -/
def loadTile (b : List Byte) (t : Nat) (T : Tile) : Tile := { T with acc := Vector.ofFn fun k : Fin 4096 => wordsAt b (4096 * t + k.val) }

/-- The pieces read back, one after another. -/
def readPieces (c : Crew) : List (Nat × Nat) → State → Option (Option (List (List Byte)) × State)
  | [], s => some (some [], s)
  | (o, n) :: r, s =>
    (areaRead c (c.area s + o) n s).bind fun (b, s1) =>
      match b with
      | none => some (none, s1)
      | some b => (readPieces c r s1).map fun (l, s2) => (l.map fun l => b :: l, s2)

/-- What became of a reload. -/
inductive Reload where
  | ok (s : State)
  | wait
  | bad (code : Byte) (s : State)

/-- The matrix state reloaded before any restoring handler word (10 R251). -/
def loadMatrix (c : Crew) (s : State) : Reload :=
  match s.parkedMatrix.find? fun p => p.1 = c.uid with
  | none => .ok s
  | some (_, P) =>
    match readPieces c ((matrixPieces P).map (fun p => (p.1, p.2.length)) ++ [(0x2F0000, 65536)]) s with
    | none => .wait
    | some (none, s1) => .bad 4 s1
    | some (some l, s1) =>
      let tail := l.getD 5 []
      let data := (l.take 5).flatMap fun x => x
      if Config.frameCheck (data ++ tail.take 65520) != BitVec.ofNat 128 (ofBytes (tail.drop 65520)) then .bad 4 s1
      else
        .ok ({ s1 with parkedMatrix := s1.parkedMatrix.filter fun p => p.1 != c.uid }.setCore c.core fun K =>
          { K with
            fifoA := l.getD 1 [], fifoB := l.getD 2 [], roomA := P.roomA, roomB := P.roomB, pickA := P.pickA, pickB := P.pickB
            latchA := P.latchA.map fun (x : Latch) => { x with bytes := l.getD 3 [] }
            latchB := P.latchB.map fun (x : Latch) => { x with bytes := l.getD 4 [] }
            tasks := P.tasks, matrixOf := some c.uid
            tiles := P.tiles.map fun v => Vector.ofFn fun t : Fin 16 => loadTile (l.getD 0 []) t.val v[t] })

/-! ## Quiescing a crew (06 R188) -/

/-- The kept commands leave with the crew, in acceptance order; then its matrix state. -/
def quiesceCrew (c : Crew) (s : State) : Option State :=
  let kept := (s.core c.core).cmds.filter fun x => x.crew = c.uid
  saveMatrix c ({ s with parkedCmds := s.parkedCmds ++ kept.map fun x => (c.uid, x) }.setCore c.core fun K =>
    { K with cmds := K.cmds.filter fun x => x.crew != c.uid })

def quiesceEnsemble (ens : Nat) (s : State) : Option State :=
  (crewsIn s ens).foldl (fun (o : Option State) c => o.bind fun s => quiesceCrew c s) (some s)

/-! ## The hardware frame (06 R189) -/

/-- The owner bits of an allocation's tiles. -/
def ownerBytes (c : Crew) : List Byte := toBytes 32 ((List.range 256).foldl (fun a t => if c.tileOwned t then a + 2 ^ t else a) 0)

/-- Normal s24-s31 of a gang in normal mode. -/
def highRegs (r : Regs) : List Byte := (List.range 8).flatMap fun k => toBytes 8 (r.sreg (24 + k)).toNat

/-- The check covers every byte of the frame but its own. -/
def frameSum (b : List Byte) : BitVec 128 := Config.frameCheck (b.take 0xF0 ++ b.drop 0x100)

/-- A gang's frame over 8 KiB of bytes: those the manual does not lay out keep them. -/
def frameBytes (g : Gang) (c : Crew) (u : List Byte) : List Byte :=
  let watch := match g.monitor with
    | some m => toBytes 8 (m.va.toNat / 128 * 128 + 1) ++ toBytes 8 m.version
    | none => zeros 16
  let parked := match g.parkedWait with
    | some (some n) => 2 ^ 63 + max 1 n
    | some none => 2 ^ 63
    | none => 0
  let b := patch (patch (patch u 0 (watch ++ toBytes 8 parked)) 0x40 (if g.gangNo = 0 then ownerBytes c else zeros 32)) 0x80 (highRegs g.r)
  patch b 0xF0 (toBytes 16 (frameSum b).toNat)

/-- The frame of the gang whose turn it is, written; none on a wait. -/
def writeFrame (c : Crew) (s : State) : Option State :=
  let (u, s1) := unspecified 8192 s
  areaWrite c (c.frame s.g.gangNo.toNat s) (frameBytes s.g c u) s1

/-- The detail of group 16 (06 R177). -/
def evictDetail (c : Crew) (g : Gang) (s : State) : BitVec 96 :=
  BitVec.ofNat 96 (c.area s % 2 ^ 57 + (g.nV / 8 - 1) * 2 ^ 57 + c.size / 4096 * 2 ^ 64 + (c.gangs - 1) * 2 ^ 73 + c.offset / 4096 * 2 ^ 78)

/-- The monitor that a frame holds (05 R168). -/
def frameMonitor (b : List Byte) (s : State) (t : BitVec 6) : Option Monitor :=
  let w := ofBytes (slice b 0 8)
  if w % 2 = 0 then none
  else
    let va := w / 128 * 128
    let line := match s.tlbHit t va with
      | some e => lineOf (e.fpa + (va - e.base))
      | none => 0
    some ⟨BitVec.ofNat 64 va, line, ofBytes (slice b 8 8)⟩

def frameParked (b : List Byte) : Option (Option Nat) :=
  let x := ofBytes (slice b 0x10 8)
  if bits x 63 63 = 0 then none else some (if bits x 62 0 = 0 then none else some (bits x 62 0))

/-- The owner bits of a frame, with the commands that hold the tiles. -/
def frameTiles (b : List Byte) (old : List (Nat × List Nat)) : List (Nat × List Nat) :=
  let x := ofBytes (slice b 0x40 32)
  ((List.range 256).filter fun t => bits x t t = 1).map fun t => (t, (lookup old t).getD [])

/-- The reload of a restoring `tret` (06 R191): the frame's check, the monitor, s24-s31, the owner bits. The bank holds the normal
registers until handler mode is left. The operand log has stayed in the gang's record, as the handlers left it (log entry 99). -/
def reloadFrame (s : State) : Reload :=
  match s.myCrew with
  | none => .ok s
  | some c =>
    match areaRead c (c.frame s.g.gangNo.toNat s) 8192 s with
    | none => .wait
    | some (none, s1) => .bad 4 s1
    | some (some b, s1) =>
      if frameSum b != BitVec.ofNat 128 (ofBytes (slice b 0xF0 16)) then .bad 4 s1
      else
        let (s2, _) := translate true false (ofBytes (slice b 0 8) / 128 * 128) s1
        let s3 := s2.setG fun g => { g with
          monitor := frameMonitor b s2 g.tenant
          parkedWait := frameParked b
          bank := Vector.ofFn fun k : Fin 8 => BitVec.ofNat 64 (ofBytes (slice b (0x80 + 8 * k.val) 8)) }
        .ok (if s.g.gangNo = 0 then s3.setCrew c.uid fun k => { k with tiles := frameTiles b k.tiles } else s3)

/-! ## A gang's return (06 R191) -/

/-- The seeds of `%srnd` (02 R45). -/
def seeds (gangNo ens : Nat) : Lanes Half :=
  Lanes.of fun L => srndFix (BitVec.ofNat 16 (0x1D87 ^^^ (L.val * 0x0101) ^^^ (gangNo * 0x2469 % 2 ^ 16) ^^^ ens % 2 ^ 16))

/-- A gang as a restore leaves it, on a new core. Its detail is that of its eviction for the place where it now stands: that its tile bits
follow the new offset is DEDUCED (log entry 99). -/
def restoredGang (c : Crew) (s : State) (g : Gang) : Gang :=
  let g1 := { g with r := { Regs.start with srnd := seeds g.gangNo.toNat g.ens.toNat } }.loadTrap (causeOf 16 2) (evictDetail c g s) 0 0 ⟨0, 0⟩
  { g1 with
    status := .resident, die := BitVec.ofNat 3 (c.core / 40), core := BitVec.ofNat 6 (c.core % 40)
    r := { g1.r with tslots := 0 }, src := none, hlog := Vector.replicate 4 .empty, handler := some (causeOf 16 2), restoring := true
    bank := Vector.replicate 8 0, cur := ⟨64, 0⟩, pc := ⟨64, 0⟩, fetched := none, hwindows := [], monitor := none, wait := .none
    alone := [], arriving := [], relPending := none, evictDue := false, watchdogDue := none, handlerReport := none, reported := false, card := none, runStart := s.clk }

/-! ## The end of an eviction and of an ensemble (18 R401, R402) -/

/-- Context-store slots of an ensemble go back to its tenant. -/
def freeSlots (ens : Nat) (s : State) : State :=
  (crewsIn s ens).foldl (fun s c =>
    match c.saveArea with
    | some k => (s.setTenant c.tenant fun T => { T with ctxUsed := T.ctxUsed.filter (· != k) }).setCrew c.uid fun c => { c with saveArea := none }
    | none => s) s

def freeCrewPages (ens : Nat) (s : State) : State := (crewsIn s ens).foldl (fun s c => freePages c.core s) s

/-- An ensemble whose gangs have all retired is done; one being evicted whose gangs have all left is out. -/
def settleEnsemble (ens : Nat) (s : State) : State :=
  let gs := (crewsIn s ens).flatMap fun c => gangsOf s c.uid
  match s.ensemble? ens with
  | none => s
  | some e =>
    if gs.all fun g => g.status = .retired then
      freeCrewPages ens (freeSlots ens (s.setEnsemble ens fun e => { e with state := .done, restoring := false, deadline := none }))
    else if e.state = .evicting && gs.all Gang.gone then
      freeCrewPages ens ({ s with nextId := s.nextId + 1 }.setEnsemble ens fun e =>
        { e with state := .evicted, evictedAt := s.nextId, deadline := none })
    else s

/-- The gang whose turn it is leaves its core. -/
def leaveCore (st : GangStatus) (s : State) : State :=
  match s.myCrew with
  | none => s.setG fun g => { g with status := st }
  | some c =>
    let s1 := (s.setG fun g => { g with status := st, wait := .none, windows := if st = .saved then g.windows else [], fetched := none }).setCrew c.uid
      fun k => if st = .saved then { k with saved := k.saved + 1 } else { k with retired := k.retired + 1 }
    let last := st = .retired && c.retired + 1 = c.gangs
    let s2 := if last && (s1.core c.core).matrixOf = some c.uid then s1.setCore c.core clearMatrix else s1
    settleEnsemble c.ensemble s2


end Sys2Proof.Machine
end

