-- ==== Sys2Proof/Machine/Placement.lean ====
section
/-! DEFINITION. Meanings: placement, crew start, priority, pre-emption, restore and completion (01 R25, R33; 04 R96; 05 R161; 13 R319; 18 R396-R405). -/

namespace Sys2Proof.Machine

/-! ## Resources (18 R396) -/

/-- What a crew needs of a core. -/
structure Need where
  gangs : Nat
  regs : Nat
  rsv : Nat
  matrix : Bool
  size : Nat
  pages : List (BitVec 512)
  kept : Nat
  deriving DecidableEq, Repr

/-- What a crew holds of a core: with its pages, and its commands in entries of the shared pool (08 R223; 17 R365). -/
structure Held where
  gangs : Nat
  regs : Nat
  rsv : Nat
  matrix : Bool
  base : Nat
  size : Nat
  tenant : BitVec 6
  pages : List (BitVec 512)
  kept : Nat
  deriving DecidableEq, Repr

def needOf (d : Descriptor) : Need := ⟨d.gangs, d.gangs * d.nV, d.reserve, d.matrix, d.size, [], 0⟩

/-- Kept commands of a crew beyond the reserved entries of their stages (08 R223). -/
def keptExtra (s : State) (crew : Nat) : Nat :=
  (List.range 8).foldl (fun n k => n + ((s.parkedCmds.countP fun p => p.1 = crew && p.2.stage = k) - 4)) 0

def needRestore (s : State) (d : Descriptor) (c : Crew) : Need :=
  { needOf d with pages := (c.bindings.map Binding.digest).dedup, kept := keptExtra s c.uid }

/-- A crew holds its resources until all its gangs have retired and no command holds its tiles (08 R212). -/
def crewHolds (s : State) (c : Crew) : Bool := crewHere s c && !(c.done && c.tiles.all fun t => t.2.isEmpty)

def heldOf (s : State) (c : Crew) : Held :=
  let pages := c.bindings.map Binding.digest
  let kept := (s.core c.core).cmds.countP fun x => x.crew = c.uid && !x.reserved
  match s.node? c.node with
  | some n =>
    if crewHolds s c then ⟨n.desc.gangs, n.desc.gangs * n.desc.nV, n.desc.reserve, n.desc.matrix, c.spad, c.size, c.tenant, pages, kept⟩
    else ⟨0, 0, 0, false, 0, 0, c.tenant, pages, kept⟩
  | none => ⟨c.gangs, 0, 0, false, c.spad, c.size, c.tenant, pages, kept⟩

/-- The holders on a core, less the ensembles of a list. A crew that is done still names its pages while its ensemble stays (17 R364). -/
def occupants (s : State) (core : Nat) (excl : List Nat) : List Held :=
  (s.crews.filter fun c => c.core = core && crewHere s c && !excl.contains c.ensemble).map fun c => heldOf s c

def sumBy {α : Type} (f : α → Nat) (l : List α) : Nat := l.foldl (fun n x => n + f x) 0

/-- The lowest free run of a scratchpad. -/
def padBase (occ : List Held) (cap size : Nat) : Option Nat :=
  (sortedNats (0 :: occ.map fun h => h.base + h.size)).find? fun b =>
    b + size ≤ cap && occ.all fun h => h.size = 0 || size = 0 || b + size ≤ h.base || h.base + h.size ≤ b

/-- The pages a restore needs are there beside those of the holders: shared, or free (17 R365). -/
def pagesFit (t : BitVec 6) (occ : List Held) (l : List (BitVec 512)) : Bool :=
  (occ.flatMap (fun h => h.pages.map fun x => (h.tenant, x)) ++ l.map fun x => (t, x)).dedup.length ≤ 64

/-- A core holds one more crew: where its allocation goes. -/
def fitOn (core : Nat) (t : BitVec 6) (occ : List Held) (n : Need) : Option Nat :=
  if sumBy Held.gangs occ + n.gangs ≤ 64 && sumBy Held.regs occ + n.regs ≤ 8192 && sumBy Held.rsv occ + n.rsv ≤ 32 &&
      !(n.matrix && occ.any Held.matrix) && pagesFit t occ n.pages &&
      n.kept + sumBy Held.kept occ ≤ 32 - (sumBy Held.rsv occ + n.rsv) then
    padBase occ (padSize (isStreamCore core)) n.size
  else none

def Need.at_ (n : Need) (t : BitVec 6) (base : Nat) : Held := ⟨n.gangs, n.regs, n.rsv, n.matrix, base, n.size, t, n.pages, n.kept⟩

/-- Crews put on given cores one after another: where their allocations go. -/
def tryPlaces (s : State) (t : BitVec 6) (excl : List Nat) : List (Nat × Need) → List (Nat × Held) → Option (List Nat)
  | [], _ => some []
  | (c, n) :: r, tent =>
    match fitOn c t (occupants s c excl ++ (tent.filter fun x => x.1 = c).map Prod.snd) n with
    | none => none
    | some b => (tryPlaces s t excl r ((c, n.at_ t b) :: tent)).map fun l => b :: l

/-- The first core of a list for each crew. -/
def firstFit (s : State) (t : BitVec 6) (excl : List Nat) (cores : List Nat) : List Need → List (Nat × Held) → Option (List Nat)
  | [], _ => some []
  | n :: r, tent =>
    let fits (c : Nat) : Option (Nat × Nat) :=
      (fitOn c t (occupants s c excl ++ (tent.filter fun x => x.1 = c).map Prod.snd) n).map fun b => (c, b)
    match cores.findSome? fits with
    | none => none
    | some (c, b) => (firstFit s t excl cores r ((c, n.at_ t b) :: tent)).map fun l => c :: l

/-- Some core of a list for each crew: every choice is tried. -/
def searchFit (s : State) (t : BitVec 6) (excl : List Nat) (cores : List Nat) : List Need → List (Nat × Held) → Option (List Nat)
  | [], _ => some []
  | n :: r, tent =>
    cores.findSome? fun c =>
      match fitOn c t (occupants s c excl ++ (tent.filter fun x => x.1 = c).map Prod.snd) n with
      | none => none
      | some b => (searchFit s t excl cores r ((c, n.at_ t b) :: tent)).map fun l => c :: l

/-- Cores of a list for every crew, where there are any (18 R397). Crews of one ensemble have allocations of one size, of which the lowest free
place is always a best one; where they need the same of a core the first core is too, else, at a restore, every choice is tried. -/
def someFit (s : State) (t : BitVec 6) (excl : List Nat) (cores : List Nat) (l : List Need) : Option (List Nat) :=
  if l.all fun n => some n = l.head? then firstFit s t excl cores l [] else searchFit s t excl cores l []

/-- The cores of a kind on a die (01 R8). -/
def coresOf (die : Nat) (stream : Bool) : List Nat :=
  (List.range 40).filterMap fun k => if (30 ≤ k) == stream then some (coreIndex die k) else none

def halfOf (n : Nat) : Nat := (n + 1) / 2

/-- A placement on one die. -/
def placeOnDie (s : State) (t : BitVec 6) (excl : List Nat) (stream : Bool) (l : List Need) : Option (List Nat) :=
  if 2 ^ 20 < sumBy Need.size l then none
  else (List.range 8).findSome? fun d => someFit s t excl (coresOf d stream) l

/-- A placement over an adjacent pair of dies (01 R26). -/
def placeOnPair (s : State) (t : BitVec 6) (excl : List Nat) (stream : Bool) (l : List Need) : Option (List Nat) :=
  let a := l.take (halfOf l.length)
  let b := l.drop (halfOf l.length)
  if 2 ^ 20 < sumBy Need.size a || 2 ^ 20 < sumBy Need.size b then none
  else
    (List.range 8).findSome? fun d =>
      match someFit s t excl (coresOf d stream) a, someFit s t excl (coresOf ((d + 1) % 8) stream) b with
      | some x, some y => some (x ++ y)
      | _, _ => none

/-- Some placement: over two dies only where none on one exists (18 R397). -/
def autoPlace (s : State) (t : BitVec 6) (excl : List Nat) (stream : Bool) (l : List Need) : Option (List Nat) :=
  match placeOnDie s t excl stream l with
  | some p => some p
  | none => placeOnPair s t excl stream l

/-- The cores stand as R397 lays an ensemble out: on one die, or on a pair. -/
def layoutOk (s : State) (t : BitVec 6) (stream : Bool) (l : List Need) (places : List Nat) : Bool :=
  let d := places.headD 0 / 40
  let h := halfOf l.length
  places.length = l.length && (places.all fun c => c < 320 && isStreamCore c == stream) &&
    (((places.all fun c => c / 40 = d) && sumBy Need.size l ≤ 2 ^ 20) ||
      (((places.take h).all fun c => c / 40 = d) && ((places.drop h).all fun c => c / 40 = (d + 1) % 8) &&
        sumBy Need.size (l.take h) ≤ 2 ^ 20 && sumBy Need.size (l.drop h) ≤ 2 ^ 20 && (placeOnDie s t [] stream l).isNone))

/-- A chosen placement, or some placement where none is named, holds: the cores, and where the allocations go. -/
def placesAt (s : State) (t : BitVec 6) (stream : Bool) (l : List Need) (places : List Nat) : Option (List Nat × List Nat) :=
  let chosen :=
    if places.isEmpty then autoPlace s t [] stream l else if layoutOk s t stream l places then some places else none
  chosen.bind fun p => (tryPlaces s t [] (p.zip l) []).map fun b => (p, b)

/-! ## Whose turn it is (18 R398, R399) -/

/-- A node's effective priority. -/
def effPriority (s : State) (n : Node) : Nat := min n.desc.priority.toNat (s.tenant n.desc.owner).ceiling.toNat

/-- An ensemble that waits to be placed: its node, and the ensemble where it is evicted. -/
structure Turnout where
  node : Node
  ens : Option Ensemble
  deriving DecidableEq, Repr

/-- What may be placed. A fill node is placed only when no other node runs; while one is live, waiting, ready or running (R393), no other node
starts, a fill node neither (log entry 51). -/
def waitingEnsembles (s : State) : List Turnout :=
  let fill (n : Node) : Bool := s.nodes.any fun m => m.id != n.id && m.desc.kind = 1
  s.nodes.flatMap fun n =>
    if n.state = .waiting || n.error.isSome || n.errorHeld.isSome || (fill n && n.state != .running) then []
    else
      ((s.ensembles.filter fun e => e.node = n.id && e.state = .evicted).map fun e => (⟨n, some e⟩ : Turnout)) ++
        (if n.nextEns < n.desc.total && !(n.desc.kind = 1 && s.nodes.any fun m => m.id != n.id && m.state = .running) then [⟨n, none⟩] else [])

/-- An element with the least key. -/
def leastBy {α : Type} (key : α → Nat) : List α → Option α
  | [] => none
  | x :: r =>
    match leastBy key r with
    | some y => if key y < key x then some y else some x
    | none => some x

def Turnout.key (x : Turnout) : Word × Option Nat := (x.node.id, x.ens.map Ensemble.uid)

/-- The next ensemble: the one resources are held for (R400); else of the highest effective priority, evicted ones first in order of
eviction, then tenants in turn, then nodes in the order they became ready. -/
def nextEnsemble (s : State) : Option Turnout :=
  let l : List Turnout := waitingEnsembles s
  match (match s.hold with
    | some h => l.find? fun x => x.key = h
    | none => none) with
  | some x => some x
  | none =>
    let top := l.foldl (fun m (x : Turnout) => max m (effPriority s x.node)) 0
    let l1 := l.filter fun (x : Turnout) => effPriority s x.node = top
    match leastBy (fun x : Turnout => (x.ens.map Ensemble.evictedAt).getD 0) (l1.filter fun x => x.ens.isSome) with
    | some x => some x
    | none =>
      let turn (x : Turnout) : Nat := (x.node.desc.owner.toNat + 63 - s.rrTenant % 64) % 64
      let t := (leastBy turn l1).map turn
      leastBy (fun x : Turnout => x.node.readySeq) (l1.filter fun x => some (turn x) = t)

def Turnout.needs (s : State) (x : Turnout) : List Need :=
  match x.ens with
  | some e => (crewsOf s e.uid).map fun c => needRestore s x.node.desc c
  | none => List.replicate x.node.desc.crews (needOf x.node.desc)

/-- A placement of the next ensemble with some ensembles taken away. -/
def Turnout.fits (s : State) (x : Turnout) (excl : List Nat) : Bool :=
  (autoPlace s x.node.desc.owner excl x.node.desc.stream (x.needs s)).isSome

/-! ## Crew start (18 R397) -/

/-- Bytes of an allocation outside the declared objects are unspecified. -/
def spoilPad (core base size : Nat) (s : State) : State :=
  let (u, s1) := unspecified size s
  { s1 with spad := s1.spad.write (core * 2 ^ 20 + base) u }

/-- Queue headers with zeroed entries, and barriers in phase 0 (05 R155, R161). -/
def writeObjects (d : Descriptor) (key : Nat) (s : State) : State :=
  let queues := (d.queues.map BitVec.toNat).filter fun q => bits q 26 20 != 0
  let bars := (d.barriers.map BitVec.toNat).filter fun b => bits b 31 20 != 0
  let m1 := queues.foldl (fun m q =>
    let n := bits q 26 20
    m.write (key + bits q 19 0) ([BitVec.ofNat 8 n, 0, 0, 0] ++ toBytes 2 n ++ zeros (10 + 4 * n))) s.spad
  { s with spad := bars.foldl (fun m b => m.write (key + bits b 19 0) (toBytes 16 (bits b 31 20 * 2 ^ 4 + bits b 31 20 * 2 ^ 16))) m1 }

/-- The descriptor table of a node: a record that cannot be read loads as an invalid one. None on a wait. -/
def loadTable (t : BitVec 6) (table : Nat) : List Nat → State → Option (List (BitVec 320) × State)
  | [], s => some ([], s)
  | i :: r, s =>
    match readLong (hubRead t) (linesFor 40) (table + 40 * i) 40 s with
    | .wait _ => none
    | .bad _ s1 => (loadTable t table r s1).map fun x => (0 :: x.1, x.2)
    | .ok b s1 => (loadTable t table r s1).map fun x => (BitVec.ofNat 320 (ofBytes b) :: x.1, x.2)

/-- The table in a core's descriptor cache, and the core's packet cache empty (01 R33, 12 R286). -/
def bringTable (n : Node) (core : Nat) (again : Bool) (s : State) : Option State :=
  if ((s.core core).tables.any fun x => x.1 = n.id) && !again then some s
  else
    (loadTable n.desc.owner n.desc.table.toNat (List.range 256) s).map fun (l, s1) =>
      s1.setCore core fun k => { k with packets := [], tables := (n.id, l) :: k.tables.filter fun x => x.1 != n.id }

/-- The scope of the acquire before a crew's first word (13 R319, 18 R404). -/
def startScope (n : Node) (core : Nat) : Scope :=
  if n.remotePred then .fab
  else if !n.hasPred then (if n.queue.isSome then .sys else .dev)
  else if n.predCores.all (· == core) then .crew
  else if n.predCores.all (fun c => c / 40 = core / 40) then .die
  else .dev

def roleOf (code : Nat) : Role := if code = 0 then .general else if code = 1 then .copy else if code = 2 then .matrix else .vector

/-- Stage and role of each gang of a crew, in stage order (01 R11). -/
def stageList (d : Descriptor) : List (Nat × Role) :=
  d.stages.zipIdx.flatMap fun (b, k) => List.replicate (b.toNat % 64) (k, roleOf (b.toNat / 64))

/-- A gang as a crew start leaves it (04 R96). -/
def newGang (n : Node) (c : Crew) (idx uid gangNo : Nat) (st : Nat × Role) (clk : Nat) : Gang :=
  { Gang.vacant with
    uid := uid, status := .resident, crew := c.uid, node := n.id, ens := BitVec.ofNat 32 idx, crewNo := BitVec.ofNat 4 c.number
    gangNo := BitVec.ofNat 5 gangNo, stage := BitVec.ofNat 3 st.1, die := BitVec.ofNat 3 (c.core / 40), core := BitVec.ofNat 6 (c.core % 40)
    role := st.2, tenant := n.desc.owner, nV := n.desc.nV, blockMode := n.desc.blockMode, codeBase := n.desc.code
    r := { Regs.start with srnd := seeds gangNo idx }, runStart := clk }

/-- The matrix state at its start (10 R229). -/
def freshMatrix (crew : Nat) (K : Core) : Core :=
  { clearMatrix K with matrixOf := some crew, tiles := some (Vector.replicate 16 ⟨Vector.replicate 4096 0, false, 0⟩) }

/-- A crew starts on its core; none on a wait. -/
def startCrew (n : Node) (c : Crew) (idx : Nat) (straddle : Bool) (s : State) : Option State :=
  (bringTable n c.core false s).bind fun s1 =>
    let s2 := writeObjects n.desc (c.key 0) (spoilPad c.core c.spad c.size s1)
    let s3 := if n.desc.matrix then s2.setCore c.core (freshMatrix c.uid) else s2
    (acquireAt c.core straddle (startScope n c.core) [] s3).map fun s4 =>
      let gs := (stageList n.desc).zipIdx.map fun (st, k) => newGang n c idx (s4.nextId + k) k st s4.clk
      { s4 with nextId := s4.nextId + gs.length, gangs := s4.gangs ++ gs, crews := s4.crews ++ [c] }

/-- Where crew i of an ensemble stands in the window: its half, and its offset there (01 R25, R26). -/
def windowOf (n size i : Nat) (straddle : Bool) : Bool × Nat :=
  if straddle && halfOf n ≤ i then (true, (i - halfOf n) * size) else (false, i * size)

def straddles (places : List Nat) : Bool := places.any fun c => c / 40 != places.headD 0 / 40

/-- The next ensemble of a node starts on the cores chosen; none on a wait. -/
def startEnsemble (n : Node) (places bases : List Nat) (s : State) : Option State :=
  let st := straddles places
  let uid := s.nextId
  let crews : List Crew := (places.zip bases).zipIdx.map fun (p, i) =>
    let w := windowOf places.length n.desc.size i st
    { uid := uid + 1 + i, node := n.id, tenant := n.desc.owner, ensemble := uid, number := i, core := p.1, far := w.1, offset := w.2
      size := n.desc.size, spad := p.2, tiles := [], slots := 0, bindings := [], laps := [], pend := [], gangs := n.desc.gangs
      retired := 0, saved := 0, returned := 0, saveArea := none }
  let e : Ensemble := ⟨uid, n.id, n.nextEns, crews.map Crew.uid, places.headD 0 / 40, st, .resident, false, uid, 0, none⟩
  let s1 := { s with nextId := uid + 1 + crews.length, ensembles := s.ensembles ++ [e], rrTenant := n.desc.owner.toNat, hold := none }
  let s2 := s1.setNode n.id fun n => { n with state := .running, nextEns := n.nextEns + 1, ranOn := unionNats n.ranOn places }
  crews.foldl (fun (o : Option State) c => o.bind fun s => startCrew n c n.nextEns st s) (some s2)

/-! ## Pre-emption (18 R400, R401) -/

/-- An eviction begins: a slot for each crew, no new command, group 16 due at every gang. -/
def evictEnsemble (e : Ensemble) (s : State) : State :=
  let cs := crewsOf s e.uid
  match cs with
  | [] => s
  | c0 :: _ =>
    let T := s.tenant c0.tenant
    let slots := ((List.range T.ctxSlots).filter fun k => !T.ctxUsed.contains k).take cs.length
    let s1 := (cs.zip slots).foldl (fun s p => s.setCrew p.1.uid fun c => { c with saveArea := some p.2, saved := 0, returned := 0 }) s
    let s2 := s1.setTenant c0.tenant fun T => { T with ctxUsed := T.ctxUsed ++ slots }
    let s3 := s2.setEnsemble e.uid fun e =>
      { e with state := .evicting, deadline := if T.saveLimit = 0 then none else some (s.clk + T.saveLimit.toNat) }
    settleEnsemble e.uid (s3.mapGangs fun g =>
      if g.status = .resident && cs.any (fun c => c.uid = g.crew) then { g with evictDue := true } else g)

/-- Candidates in order: lowest priority, then youngest start; each with its node's priority below P. -/
def victims (s : State) (P : Nat) : List Ensemble :=
  let l := s.ensembles.filter fun e => e.state = .resident && !e.restoring && match s.node? e.node with
    | some n => n.desc.kind != 1 && effPriority s n < P && n.error.isNone && n.errorHeld.isNone
    | none => false
  let eff (e : Ensemble) : Nat := match s.node? e.node with
    | some n => effPriority s n
    | none => 0
  sortBy eff (sortBy (fun e => s.nextId - e.started) l)

/-- Those whose tenants' stores have a slot for each of their crews. -/
def storable (s : State) : List Ensemble → List (BitVec 6 × Nat) → List Ensemble
  | [], _ => []
  | e :: r, used =>
    let t := match s.node? e.node with
      | some n => n.desc.owner
      | none => 0
    let n := ((used.find? fun x => x.1 = t).map Prod.snd).getD 0
    let T := s.tenant t
    if T.ctxUsed.length + n + e.crews.length ≤ T.ctxSlots then e :: storable s r ((t, n + e.crews.length) :: used) else storable s r used

/-- The shortest prefix whose eviction lets the ensemble be placed. -/
def shortest (s : State) (x : Turnout) : List Ensemble → List Nat → List Ensemble
  | [], _ => []
  | e :: r, excl => if x.fits s (e.uid :: excl) then [e] else e :: shortest s x r (e.uid :: excl)

/-- Evictions for an ensemble that cannot be placed, or none where they would not help. -/
def preempt (x : Turnout) (s : State) : State :=
  let leaving := (s.ensembles.filter fun e => e.state = .evicting).map Ensemble.uid
  if s.hold = some x.key && !leaving.isEmpty then s
  else
    let l := storable s (victims s (effPriority s x.node)) []
    if l.isEmpty || x.fits s leaving || !x.fits s (leaving ++ l.map Ensemble.uid) then s
    else (shortest s x l leaving).foldl (fun s e => evictEnsemble e s) { s with hold := some x.key }

/-- ENSEMBLE_PLACE: the next ensemble on the cores the engine chose, or evictions where none fit. -/
def placeEnsemble (node : Nat) (places : List Nat) (s : State) : State :=
  match nextEnsemble s with
  | some ⟨n, none⟩ =>
    let x : Turnout := ⟨n, none⟩
    if n.id.toNat != node then s
    else
      match placesAt s n.desc.owner n.desc.stream (x.needs s) places with
      | some (p, b) => (startEnsemble n p b s).getD s
      | none => if x.fits s [] then s else preempt x s
  | _ => s

/-! ## Restore (18 R402, 17 R384, 06 R191) -/

/-- The kept commands take queue entries of the new core (08 R223). -/
def returnCmds (c : Crew) (s : State) : State :=
  let mine := s.parkedCmds.filter fun p => p.1 = c.uid
  mine.foldl (fun s p => s.setCore c.core fun K =>
      { K with cmds := K.cmds ++ [{ p.2 with reserved := K.cmds.countP (fun x => x.reserved && x.crew = c.uid && x.stage = p.2.stage) < 4 }] })
    { s with parkedCmds := s.parkedCmds.filter fun p => p.1 != c.uid }

/-- A bound sequence read again and put into a page of the new core. -/
def reloadSequence (c : Crew) (b : Binding) (s : State) : Reload :=
  match readSequence c.client.read b.header s with
  | .wait _ => .wait
  | .bad _ s1 => .bad 5 s1
  | .ok (.status _) s1 => .bad 5 s1
  | .ok (.good slot ws digest) s1 =>
    if digest != b.digest then .bad 5 s1
    else
      match pageFor s1 c.core c.tenant digest with
      | none => .wait
      | some p =>
        .ok ((loadPage c.core p c.tenant digest slot ws s1).setCrew c.uid fun k =>
          { k with bindings := mapIf (fun x => x.slot = b.slot) (fun x => { x with page := p }) k.bindings })

/-- One reload behind another. -/
def Reload.then (x : Reload) (f : State → Reload) : Reload :=
  match x with
  | .ok s => f s
  | r => r

def ofOption : Option State → Reload
  | some s => .ok s
  | none => .wait

/-- A crew of an evicted ensemble comes back to its new core, whose table of the node is read again (02 R61). -/
def restoreCrew (n : Node) (c : Crew) (straddle : Bool) (s : State) : Reload :=
  (ofOption (bringTable n c.core true s)).then fun s1 =>
    (ofOption (acquireAt c.core straddle .dev [] (spoilPad c.core c.spad c.size s1))).then fun s2 =>
      (loadMatrix c (returnCmds c s2)).then fun s3 =>
        (c.bindings.foldl (fun (r : Reload) b => r.then fun s => reloadSequence c b s) (.ok s3)).then fun s4 =>
          let on (g : Gang) : Bool := g.crew = c.uid && g.status = .saved
          .ok (s4.mapGangs fun g => if on g then restoredGang c s4 g else g)

/-- The evicted ensemble restored; none on a wait. -/
def restoreEnsemble (n : Node) (e : Ensemble) (places bases : List Nat) (s : State) : Option State :=
  let st := straddles places
  let cs := crewsOf s e.uid
  let s1 := ((cs.zip (places.zip bases)).zipIdx.foldl (fun s (p, i) => s.setCrew p.1.uid fun c =>
      let w := windowOf places.length c.size i st
      { c with core := p.2.1, spad := p.2.2, far := w.1, offset := w.2 }) s)
  let s2 := { s1 with nextId := s1.nextId + 1, hold := none }.setEnsemble e.uid fun e =>
    { e with state := .resident, restoring := true, started := s1.nextId, die := places.headD 0 / 40, straddle := st }
  let s3 := s2.setNode n.id fun n => { n with ranOn := unionNats n.ranOn places }
  match (crewsOf s3 e.uid).foldl (fun (r : Reload) c => r.then fun s => restoreCrew n c st s) (.ok s3) with
  | .ok s4 => some s4
  | .wait => none
  | .bad code s4 => some (nodeError n.id code none s4)

/-- ENSEMBLE_RESTORE. -/
def restoreAt (ens : Nat) (places : List Nat) (s : State) : State :=
  match nextEnsemble s with
  | some ⟨n, some e⟩ =>
    let x : Turnout := ⟨n, some e⟩
    if e.uid != ens then s
    else
      match placesAt s n.desc.owner n.desc.stream (x.needs s) places with
      | some (p, b) => (restoreEnsemble n e p b s).getD s
      | none => if x.fits s [] then s else preempt x s
  | _ => s

/-- SAVE_LIMIT_PASSED (18 R401, R405). -/
def saveLimitPassed (ens : Nat) (s : State) : State :=
  match s.ensemble? ens with
  | some e =>
    if e.state = .evicting && match e.deadline with
      | some d => d ≤ s.clk
      | none => false
    then nodeError e.node 6 none s else s
  | none => s

/-! ## Completion (18 R403-R405, 13 R319) -/

/-- A write or drain that an engine posted for a node, and that no one has acknowledged. -/
def Packet.postedFor (p : Packet) (id : Word) : Bool :=
  p.gangs.isEmpty && p.node = id && match p.kind with
    | .predSignal _ _ _ => false
    | _ => true

/-- Nothing of the node is left: gangs retired or stopped, no ensemble out, no command, task or posted operation. -/
def nodeDone (s : State) (n : Node) : Bool :=
  let gs := s.allGangs.filter fun g => g.node = n.id
  (n.error.isSome || (n.nextEns = n.desc.total && n.state = .running && (s.ensembles.filter fun e => e.node = n.id).all fun e => e.state = .done)) &&
    (gs.all fun g => (g.status = .retired || g.status = .stopped) && g.outstanding = 0 && signalsPending s g.uid = 0) &&
    (s.cores.all fun k => (k.2.cmds.all fun c => c.node != n.id) && k.2.tasks.all fun t => t.node != n.id) &&
    s.packets.all fun p => !p.postedFor n.id

/-- The dies a node ran on. -/
def Node.dies (n : Node) : List Nat := sortedNats (n.ranOn.map fun c => c / 40)

/-- The node's release begins: every die it ran on publishes (13 R319). -/
def beginRelease (n : Node) (s : State) : State :=
  let s1 := n.dies.foldl (fun s d => publishDie d [] s) s
  let ids := (s1.records.filter fun r => n.dies.contains r.die).map fun r => r.id
  s1.setNode n.id fun n => { n with release := some ids }

/-- The node leaves the pool, and its gangs, crews and tables with it. -/
def dropNode (n : Node) (s : State) : State :=
  let s1 := { s with
    g := if s.g.node = n.id && s.g.status != .vacant then Gang.vacant else s.g
    gangs := s.gangs.filter fun g => g.node != n.id
    crews := s.crews.filter fun c => c.node != n.id
    ensembles := s.ensembles.filter fun e => e.node != n.id
    nodes := (s.nodes.filter fun m => m.id != n.id).map fun m => { m with fenceOn := m.fenceOn.filter (· != n.id) }
    cores := s.cores.map fun (k, c) => (k, { c with tables := c.tables.filter fun t => t.1 != n.id }) }
  let waited := (s.nodes.filter fun m => m.fenceOn.contains n.id).map Node.id
  waited.foldl (fun s m => settleNode m s) (n.ranOn.foldl (fun s c => freePages c s) s1)

/-- The signals to a node's successors. -/
def signalSuccessors (n : Node) (s : State) : State :=
  (n.desc.succs.take n.desc.succCount).foldl (fun s x =>
    sendSignal n.desc.owner (bits x.toNat 63 51) (bits x.toNat 50 0 * 64) n.ranOn n.error.isSome none s) s

/-- NODE_COMPLETE. -/
def nodeComplete (node : Nat) (s : State) : State :=
  match s.nodes.find? fun n => n.id.toNat = node with
  | none => s
  | some n0 =>
    if !nodeDone s n0 then s
    else
      let s0 := if n0.release.isNone then beginRelease n0 s else s
      let ids := ((s0.node? n0.id).bind Node.release).getD []
      if s0.records.any fun r => ids.contains r.id then s0
      else
        let t := n0.desc.owner
        let code := match n0.error with
          | some e => e.code
          | none => 0
        match writeSignal t n0.desc.signal.toNat (signalWordOf n0.id code) s0 with
        | none => s0
        | some s1 =>
          let s2 := match n0.queue with
            | some q => if n0.irq then raiseVector ((s1.tenant t).msix.toNat + q) s1 else s1
            | none => s1
          let s3 := dropNode n0 (signalSuccessors n0 s2)
          drainEvents (if n0.error.isSome then raiseTenantError t s3 else s3)


end Sys2Proof.Machine
end

