-- ==== Sys2Proof/Machine/System.lean ====
section
/-! DEFINITION. Meanings: the traps due at a boundary, accesses left in flight, and the system words, major 0x1F (06 R171-R193). -/

namespace Sys2Proof.Machine

/-- A resident gang becomes the gang whose turn it is. -/
def atGang (uid : Nat) (f : State → State) (s : State) : State :=
  match s.gang? uid with
  | some g => if g.status = .resident then f (s.focus uid) else s
  | none => s

/-! ## Accesses in flight (06 R174, R187) -/

/-- The engine that a command word is for. -/
def acceptOf (major op : Nat) (a : Access) (e : Nat) (s : State) : Accept :=
  match major, op with
  | 0x20, _ => acceptCopy op a e s
  | 0x21, 0 => acceptGrant a e s
  | 0x21, 1 => acceptSlots a e s
  | 0x21, _ => acceptCount a e s
  | 0x22, _ => acceptRun false a e s
  | 0x24, 2 => acceptStat a e s
  | 0x24, _ => acceptTask op a e s
  | 0x2C, 0 => swmTurn acceptAlloc a e s
  | 0x2C, 1 => swmTurn acceptMap a e s
  | 0x2C, 2 => swmTurn (acceptUnmap false) a e s
  | 0x2C, _ => swmTurn (acceptUnmap true) a e s
  | 0x2D, 0 => acceptMulticast a e s
  | 0x2D, _ => acceptReduce a e s
  | 0x2E, 0 => acceptSignal a e s
  | 0x2E, _ => acceptFabricStat a e s
  | 0x30, 0 => acceptLaunch a e s
  | 0x30, 1 => acceptNodeSignal a e s
  | 0x30, _ => acceptNodeStat a e s
  | 0x32, 0 => acceptBind a e s
  | 0x32, 1 => acceptUnbind a e s
  | 0x32, 2 => acceptQuery a e s
  | _, _ => acceptImage a e s

/-- An entry written again by its re-issue keeps its age and its join point (06 R187). -/
def keepPlace (e : Nat) (x : LogEntry) (s : State) : State :=
  s.setG fun g => if (g.entry e).state = .free then g else g.setEntry e { g.entry e with seq := x.seq, join := x.join }

/-- A plain load, store or atomic, or an acquire load. -/
def MemKind.plain : MemKind → Bool
  | .load _ => true
  | .store => true
  | .ldtr _ => true
  | .atomic _ _ => true
  | .acqLoad => true
  | _ => false

/-- An older access of the gang that is in flight stands in front of an entry (06 R173; 08 R210; 12 R270, R272, R276): of a plain access and an
acquire load one that holds memory words, of any other word every access but an engine's command, of a write also a fence's release. -/
def behindOlder (x : LogEntry) (k : MemKind) (s : State) : Bool :=
  s.g.log.toList.any fun y => y.state = .inFlight && y.seq < x.seq &&
    ((if k.plain then y.flies MemKind.holdsMemory else y.open_ && !y.engine) || (k.writes && y.flies MemKind.fences))

/-- ACCESS_COMPLETE: an access left in flight, or re-issued, goes on as far as it can; complete in every lane, it leaves its entry. -/
def completeAccess (e : Nat) (s : State) : State :=
  let x := s.g.entry e
  match x.state, x.acc with
  | .inFlight, some a =>
    if behindOlder x a.op.kind s then s
    else
      match a.op.kind with
      | .engine major op =>
        if s.leaving && x.recs.isNone && major != 0x30 then s
        else
          match acceptOf major op a e s with
          | .done s1 => s1.setG fun g => g.setEntry e LogEntry.empty
          | .wait s1 => s1
          | .pending s1 => s1
          | .bad f s1 => s1.setG fun g => g.setEntry e { rejectedEntry a f x.seq with join := x.join }
      | .mcas =>
        if !x.stores.isEmpty then mcStores e x x.stores s
        else if !x.got.isEmpty then s
        else
          match mcRun e a s with
          | none => s
          | some s1 => keepPlace e x s1
      | .range op =>
        match x.recs with
        | some ids => if s.awaits ids then s else s.setG fun g => g.setEntry e LogEntry.empty
        | none =>
          match rangeRun a op s with
          | .ok ids s1 => awaitRecords e x ids s1
          | .wait s1 => { s1 with g := s.g }
          | .bad w s1 => keepPlace e x (parkFirst e a (rangeFault e w) [] s1)
      | .fence rel acq => fenceStep rel acq a.op.scope e x s
      | .tlbinv => tlbStep e x a.base.toNat a.idx.toNat s
      | .acqLoad => acquireLanes e x a s
      | .relStore => relStore e x a s
      | _ =>
        let (p, s1) := perform x a e x.todo x.parked s
        settle e x p s1
  | _, _ => s

/-! ## Traps due at a boundary (06 R181; 08 R220) -/

/-- An `mwait` that a trap ends keeps what its limit has left (05 R168, 06 R193). -/
def keepWait (s : State) : State :=
  s.setG fun g =>
    match g.wait with
    | .mwait _ limit => { g with parkedWait := some (limit.map fun n => max 1 (n - s.clk)) }
    | _ => g

/-- A re-issued engine command that waits holds nothing: an event from outside finds it faulted, to be replayed (06 R187, R188). -/
def recallWaiting (s : State) : State :=
  s.setG fun g => g.setLog (g.log.map fun x =>
    if x.state = .inFlight && x.engine && x.recs.isNone then { x with state := .faulted, replay := true, card := none } else x)

/-- A trap from outside the gang, in front of the next group. -/
def asyncTrap (f : FaultRec) (clear : Gang → Gang) (s : State) : State :=
  let s1 := recallWaiting s
  if s1.g.busy then stall s1
  else enterTrap (f.cause.toNat / 256) (f.cause.toNat % 256) f.det 0 0 s1.g.pc ((keepWait s1).setG clear)

/-- An access with parked lanes has reached its join point. -/
def Gang.joined (g : Gang) : Bool := g.log.toList.any fun x => x.state = .faulted && x.join

/-- The oldest faulted entry. -/
def Gang.oldest (g : Gang) : Option Nat :=
  ((sortBy (fun e => (g.entry e).seq) (List.range 4)).find? fun e => (g.entry e).state = .faulted)

def parkedMask (x : LogEntry) : Word := laneMask fun L => x.parked.any fun p => p.lane = L

/-- The record of the lowest parked lane (06 R180). -/
def lowestParked (x : LogEntry) : FaultRec := ((x.parked.find? fun p => x.parked.all fun q => p.lane ≤ q.lane).map Parked.why).getD ⟨0, 0⟩

/-- The access fault of the oldest faulted entry. -/
def faultTrap (s : State) : State :=
  match s.g.oldest with
  | some e =>
    let x := s.g.entry e
    let f := lowestParked x
    takeTrap (f.cause.toNat / 256) (f.cause.toNat % 256) f.det (parkedMask x) e s.g.pc s
  | none => s

/-- The oldest engine report (08 R220). -/
def engineTrap (r : EngineReport) (rest : List EngineReport) (s : State) : State :=
  let s1 := asyncTrap r.why (fun g => { g with engReports := rest }) s
  if s1.g.handler.isSome then s1.setG fun g => { g with handlerReport := some r } else s1

/-- The report's command or task has left its core with the ensemble: the report is taken after the restoring `tret` (08 R223). -/
def reportParked (s : State) (r : EngineReport) : Bool :=
  r.suspended && ((s.parkedCmds.any fun p => p.2.id = r.id) || s.parkedMatrix.any fun p => p.2.tasks.any fun t => t.id = r.id)

/-- The engine report now due, and those behind it. -/
def engineDue (s : State) : Option (EngineReport × List EngineReport) :=
  match s.g.engReports with
  | r :: rest => if reportParked s r then none else some (r, rest)
  | [] => none

/-- The oldest fabric report (06 R192): the count of lost reports travels with a report of group 12, whose detail has room for it. -/
def takeReport (s : State) : State :=
  match s.g.reports with
  | r :: rest =>
    let group := r.cause.toNat / 256
    let f : FaultRec :=
      if group = 12 then ⟨r.cause, BitVec.ofNat 96 (r.det.toNat + min s.g.reportsLost 65535 * 2 ^ 64)⟩
      else ⟨r.cause, (faultRec ⟨group, r.cause.toNat % 256, r.det.toNat, false⟩ 0 false 0 0 0).det⟩
    asyncTrap f (fun g => { g with reports := rest, reportDue := false, reportsLost := if group = 12 then 0 else g.reportsLost }) s
  | [] => s

/-- The eviction trap (06 R188; 18 R401): the ensemble's engines quiet, what they keep and the gang's frame saved, then the handler. -/
def evictTrap (s : State) : State :=
  match s.myCrew with
  | none => s
  | some c =>
    let s1 := keepWait (recallWaiting s)
    if s1.g.busy then stall s1
    else
      let s2 := drainEnsemble c.ensemble s1
      if !ensembleQuiet s2 c.ensemble then stall s2
      else
        match (quiesceEnsemble c.ensemble s2).bind (writeFrame c) with
        | none => stall s2
        | some s3 => enterTrap 16 1 (evictDetail c s3.g s3) 0 0 s3.g.pc (s3.setG fun g => { g with evictDue := false })

/-- What ranks before an issue trap: a hardware error, an access fault at its join point, engine reports (08 R220), a fabric report that a fence
or a `tret` has made due (06 R192). R181 gives a fabric report no rank; this one is a DESIGN CHOICE (log entry 101). -/
def firstDue (s : State) : Option State :=
  match s.g.errorDue with
  | some f => some (asyncTrap f (fun g => { g with errorDue := none }) s)
  | none =>
    if s.g.joined then some (faultTrap s)
    else if s.g.handler.isSome then none
    else
      match engineDue s with
      | some (r, rest) => some (engineTrap r rest s)
      | none => if !s.g.reports.isEmpty && s.g.reportDue then some (takeReport s) else none

/-- What ranks after it: a single step, the watchdog, pre-emption. In handler mode a step and a pre-emption stay due (06 R182). -/
def lastDue (s : State) : Option State :=
  match s.g.handler, s.g.stepDue with
  | none, some d => some (asyncTrap ⟨causeOf 18 2, d⟩ (fun g => { g with stepDue := none }) s)
  | _, _ =>
    match s.g.watchdogDue with
    | some c => some (asyncTrap ⟨causeOf 17 1, c.setWidth 96⟩ (fun g => { g with watchdogDue := none, runStart := s.clk }) s)
    | none => if s.g.handler.isNone && s.g.evictDue then some (evictTrap s) else none

/-- TAKE_TRAP: the first due trap is taken. A `sleep` that it ends is over (05 R168). Whether the next group has an issue trap is found at
the gang's own turn, which then comes at once. -/
def takeDue (s : State) : State :=
  let s0 := s.setG fun g => { g with cur := g.pc }
  let turn (s : State) : State := { s with agenda := .gang s.g.uid false :: s.agenda }
  match (firstDue s0).or (lastDue s0) with
  | none => s
  | some t =>
    match s.g.wait with
    | .sleep _ => turn (s.setG fun g => { g with wait := .woken 0 })
    | .woken _ => turn s
    | .none =>
      match firstDue s0 with
      | some t => t
      | none => turn s
    | _ => t

/-! ## `tret` (06 R187, R191) -/

/-- A faulted entry at `tret`: in flight for its lanes, in its place in the windows, or dropped. `named` says that `%tslots` names an entry: where
it does not, and `%tlanes` is zero, every entry has its own lanes (06 R188; log entry 58). -/
def replayEntry (named : Bool) (cur : Nat) (lanes : Word) (g : Gang) (e : Nat) : Gang :=
  let x := g.entry e
  match x.state, x.acc with
  | .faulted, some a =>
    let own := if x.engine then a.lanes else a.active
    let m := if e = cur && (named || lanes != 0) then lanes &&& own else parkedMask x
    if x.replay && m != 0 then
      g.setEntry e { x with
        state := .inFlight, replay := false, holds := true, got := [], blocks := [], recs := none
        parked := if x.engine then x.parked else []
        todo := match a.op.kind with
          | .ldtr _ => a.lanes
          | .engine _ _ => 0
          | _ => m }
    else g.setEntry e LogEntry.empty
  | _, _ => g

/-- COMMAND_RESUME: a suspended command goes on, or is abandoned where the handler cleared bit 95 of the detail (08 R220, 10 R248). It goes on
when the handler's stores are performed at device scope, so that the walk done again finds them (11 R253): `tret` itself does not wait. -/
def resumeReported (r : EngineReport) (go : Bool) (s : State) : State :=
  match s.myCrew with
  | some c =>
    let (behind, s1) : Option (List Nat) × State := if go then (some (releaseBegin .dev [] s).1, (releaseBegin .dev [] s).2) else (none, s)
    if r.why.cause.toNat / 256 = 8 then resumeTask c.core r.id behind s1 else resumeCmd c.core r.id behind s1
  | none => s

/-- The end of a restore: with the last gang's the ensemble's context slots are free (18 R402). -/
def restoreDone (s : State) : State :=
  match s.myCrew with
  | none => s
  | some c =>
    let s1 := (s.setG fun g => { g with restoring := false }).setCrew c.uid fun k => { k with returned := k.returned + 1 }
    if ((crewsIn s1 c.ensemble).flatMap fun k => gangsOf s1 k.uid).any fun g => g.restoring then s1
    else freeSlots c.ensemble (s1.setEnsemble c.ensemble fun e => { e with restoring := false })

/-- `tret` with the frame reloaded, where it restores. -/
def returnFrom (s : State) : State :=
  let r := s.src
  let s1 := (leaveHandler r s).setG fun g =>
    let g1 := (List.range 4).foldl (replayEntry (s.g.reported || s.g.quietEntry.isSome) (r.tslots.extractLsb' 36 2).toNat r.tlanes) g
    { g1 with reportDue := !g.reports.isEmpty, handlerReport := none }
  let s2 := match s.g.handlerReport with
    | some q => if q.suspended then resumeReported q (r.tdet2.getLsbD 31) s1 else s1
    | none => s1
  if s.g.restoring then restoreDone s2 else s2

/-- A lane is parked in the log of the gang's present mode. -/
def Gang.anyFaulted (g : Gang) : Bool := g.log.toList.any fun x => x.state = .faulted

/-- `tret`: behind the handler's own accesses (06 R174); a lane of them that is parked traps in front of it (06 R173). -/
def returnWord (s : State) : State :=
  if s.g.busy then stall s
  else if s.g.anyFaulted then stall (joinFaulted s)
  else if s.g.restoring then
    match reloadFrame s with
    | .wait => stall s
    | .bad code s1 => nodeError s1.g.node code (some s1.g) s1
    | .ok s1 => returnFrom s1
  else returnFrom s

/-! ## The other system words (06 R184-R186, R190) -/

/-- The detail of `brk`: its word, its place, its number (06 R177). -/
def breakDetail (w packet slot i : Nat) : BitVec 96 := BitVec.ofNat 96 (w + packet * 2 ^ 32 + slot * 2 ^ 64 + i * 2 ^ 66)

/-- `brk`: the resume point is the group behind the word's (06 R171, R177). -/
def breakWord (i : BitVec 12) (s : State) : State :=
  takeTrap 18 1 (breakDetail s.curWord s.g.cur.packet.toNat s.g.slot.toNat i.toNat) 0 0 s.g.pc s

/-- `tlane`. -/
def selectLane (a e : Nat) (s : State) : State :=
  let x := s.g.olog.toList.getD e LogEntry.empty
  let faulted := x.state = .faulted
  let n := (s.src.sreg a).toNat % 32
  let f := match x.parked.find? fun p => p.lane.val = n with
    | some p => if faulted then p.why else ⟨0, 0⟩
    | none => ⟨0, 0⟩
  (s.setR fun r =>
    { r with
      tslots := (r.tslots &&& ~~~(3#39 <<< 36)) ||| (BitVec.ofNat 39 e <<< 36)
      tlanes := if faulted then parkedMask x else 0
      tcause := f.cause
      tdet0 := f.det.extractLsb' 0 32
      tdet1 := f.det.extractLsb' 32 32
      tdet2 := f.det.extractLsb' 64 32 }).setG fun g => { g with reported := true }

/-- Every record of a release is acknowledged and, at fabric scope, the gang's posted operations and earlier signals too (12 R270). -/
def releaseDone (s : State) (r : PendingRelease) : Bool :=
  (s.records.all fun x => !r.records.contains x.id) &&
    (!scopeFabric r.scope || (((s.gang? r.gang).map Gang.outstanding).getD 0 = 0 &&
      (s.releases.takeWhile fun x => x.id != r.id).all fun x => !(x.gang = r.gang && x.signal.isSome)))

/-- `tdone`: a release of every store the gang made, its remote ones among them; with it complete the gang leaves the core (06 R190; 15 R335). -/
def saveDone (s : State) : State :=
  if s.g.busy then stall s
  else if s.g.anyFaulted then stall (joinFaulted s)
  else
    let (ids, s1) := releaseBegin .fab [] s
    let r : PendingRelease := ⟨s1.nextId, s1.g.uid, .fab, ids, none⟩
    if releaseDone s1 r then leaveCore .saved s1
    else { s1 with nextId := s1.nextId + 1, releases := s1.releases ++ [r] }.setG fun g => { g with relPending := some r.id, wait := .release }

/-- An `exit` waits for the gang's posted stores and signals (06 R186), and for its commands and tasks (08 R220; 10 R248). -/
def storesWait (s : State) : Bool := s.g.outstanding != 0 || signalsPending s s.g.uid != 0
def commandsWait (s : State) : Bool :=
  let K := s.core s.g.coreIx
  (K.cmds.any fun c => c.gang = s.g.uid) || K.tasks.any fun t => t.gang = s.g.uid

/-- `exit`: with no access in flight and every posted store acknowledged, the report then pending is taken in front of it (06 R186, R192). -/
def exitWord (s : State) : State :=
  if s.g.busy then stall s
  else if s.g.anyFaulted then stall (joinFaulted s)
  else
    match engineDue s with
    | some (r, rest) => engineTrap r rest (s.setG fun g => { g with pc := g.cur })
    | none =>
      let s1 := drainGang s.g.coreIx s.g.uid s
      if storesWait s1 then block s1
      else if !s1.g.reports.isEmpty then takeReport (s1.setG fun g => { g with pc := g.cur })
      else if commandsWait s1 then block s1
      else leaveCore .retired s1

/-- `tret` (06 R184, R187, R191). -/
def execTret (s : State) : Out :=
  .next (issue ({ major := 0x1F, mode := .handlerOnly }) (fun s => returnWord s) s)

/-- `brk` (06 R184, R171). -/
def execBrk (i : BitVec 12) (s : State) : Out :=
  .next (issue ({ major := 0x1F }) (fun s => breakWord i s) s)

/-- `tlane` (06 R184, R185). -/
def execTlane (a : BitVec 5) (e : BitVec 2) (s : State) : Out :=
  .next (issue ({ major := 0x1F, sr := [a.toNat], mode := .handlerOnly }) (fun s => selectLane a.toNat e.toNat s) s)

/-- `tdone` (06 R184, R190). -/
def execTdone (s : State) : Out :=
  .next (issue ({ major := 0x1F, mode := .evictHandlerOnly }) (fun s => saveDone s) s)

/-- `exit` (06 R184, R186). -/
def execExit (s : State) : Out :=
  .next (issue ({ major := 0x1F, mode := .normalOnly }) (fun s => exitWord s) s)

/-- ACCESS_COMPLETE (06 R174). -/
def execAccessComplete (gang entry : Nat) (s : State) : Out :=
  .next (atGang gang (completeAccess entry) s)

/-- TAKE_TRAP (06 R180, R181). -/
def execTakeTrap (gang : Nat) (s : State) : Out :=
  .next (atGang gang takeDue s)

end Sys2Proof.Machine
end

