-- ==== Sys2Proof/Machine/GangEvents.lean ====
section
/-! DEFINITION. Meanings: events of one gang: the ends of its waits, the watchdog, uncorrectable errors (05 R166, R167; 06 R193). -/

namespace Sys2Proof.Machine

/-- An `mwait` whose limit has passed returns 1. -/
def endTimedWait (s : State) : State :=
  match s.g.wait with
  | .mwait _ (some n) => if n ≤ s.clk then s.setG fun g => { g with wait := .woken 1 } else s
  | _ => s

/-- A `sleep` whose cycles have passed ends. -/
def endSleep (s : State) : State :=
  match s.g.wait with
  | .sleep n => if n ≤ s.clk then s.setG fun g => { g with wait := .woken 0 } else s
  | _ => s

/-- The device ends an `mwait` with code 2. -/
def wakeOther (s : State) : State :=
  match s.g.wait with
  | .mwait _ _ => s.setG fun g => { g with wait := .woken 2 }
  | _ => s

/-- The run limit of the gang's tenant, where one is set, is reached: group 17 is due, with the cycle at which that was so. -/
def reachLimit (s : State) : State :=
  let n := (s.tenant s.g.tenant).runLimit.toNat
  if n != 0 && s.g.runStart + n ≤ s.clk && s.g.watchdogDue.isNone then
    s.setG fun g => { g with watchdogDue := some (BitVec.ofNat 64 (g.runStart + n)) }
  else s

/-! ## Uncorrectable errors (06 R193) -/

/-- A structure that holds data an access reads: scratchpad, L1, die cache, HBM, weight store, host memory (06 R177). -/
def holdsData (sid : Nat) : Bool := sid = 1 || sid = 2 || sid = 3 || sid = 4 || sid = 5 || sid = 8

/-- Storage on a core, for which a detail gives address 0 (06 R177). -/
def onCore (sid : Nat) : Bool := sid = 0 || sid = 1 || sid = 2 || sid = 6 || sid = 7

/-- A lane of an access reads the bad line; of the L1, whose line need not be known, any that goes through it. -/
def readsBad (s : State) (a : Access) (sid addr : Nat) (L : Fin 32) : Bool :=
  if a.op.window then sid = 1
  else
    match s.tlbHit s.g.tenant (128 * (a.line s L).2) with
    | some e => sid != 1 && (sid = 2 && addr = 0 || lineOf (e.fpa + (128 * (a.line s L).2 - e.base)) = lineOf addr)
    | none => false

/-- The entry and lane in flight that read the bad data. A plain store's lane in flight to the bad line counts as one that reads it: no rule says
whether a store does, DESIGN CHOICE (log entry 117). -/
def badLane (s : State) (sid addr : Nat) : Option (Nat × Fin 32) :=
  (List.range 4).findSome? fun e =>
    let x := s.g.entry e
    match x.state, x.acc with
    | .inFlight, some a => ((laneList x.todo).find? fun L => !x.engine && readsBad s a sid addr L).map fun L => (e, L)
    | _, _ => none

/-- The lane is parked, its part of the access not performed (06 R172). -/
def parkLane (e : Nat) (L : Fin 32) (f : FaultRec) (s : State) : State :=
  let x := s.g.entry e
  settle e x ⟨x.todo &&& ~~~(1#32 <<< L.val), x.parked ++ [⟨L, f⟩], x.blocks⟩ s

/-- Data that an access of the gang reads parks its lane; data that a command or task of the gang reads ends it with a report (08 R221, 10
R248); state of the gang itself is taken at the next boundary. Bad data that no lane of the gang in flight reads hits a running command of the gang,
else the gang at its next boundary: no rule says what it hits, DESIGN CHOICE (log entry 117). No code of group 15 is stated: a free value (log
entry 8). -/
def hardError (sid addr : Nat) (s0 : State) : State :=
  let f : FaultRec := ⟨causeOf 15 (Config.unspecifiedByte s0.tick).toNat, BitVec.ofNat 96 ((if onCore sid then 0 else addr % 2 ^ 64) + sid % 256 * 2 ^ 64)⟩
  let s := { s0 with tick := s0.tick + 1 }
  let K := s.core s.g.coreIx
  if holdsData sid then
    match badLane s sid addr with
    | some (e, L) => parkLane e L f s
    | none =>
      match K.cmds.find? fun c => c.gang = s.g.uid && cmdRuns s s.g.coreIx c with
      | some c => setCmd s.g.coreIx c.id (fun c => { c with fault := some f }) s
      | none => s.setG fun g => { g with errorDue := some f }
  else if sid = 7 then
    match K.tasks.find? fun t => t.gang = s.g.uid && t.state = .running && t.fault.isNone with
    | some t => setTask s.g.coreIx t.id (fun t => { t with fault := some f }) s
    | none => s.setG fun g => { g with errorDue := some f }
  else s.setG fun g => { g with errorDue := some f }

/-- MWAIT_TIMEOUT (05 R166). -/
def execMwaitTimeout (gang : Nat) (s : State) : Out :=
  .next (atGang gang endTimedWait s)

/-- SLEEP_END (05 R166). -/
def execSleepEnd (gang : Nat) (s : State) : Out :=
  .next (atGang gang endSleep s)

/-- SPURIOUS_WAKE (05 R167). -/
def execSpuriousWake (gang : Nat) (s : State) : Out :=
  .next (atGang gang wakeOther s)

/-- WATCHDOG (06 R193). -/
def execWatchdog (gang : Nat) (s : State) : Out :=
  .next (atGang gang reachLimit s)

/-- UNCORRECTABLE_ERROR (06 R177, R193; 08 R221; 10 R248). -/
def execUncorrectableError (gang structureId : Nat) (address : Nat) (s : State) : Out :=
  .next (atGang gang (hardError structureId address) s)

end Sys2Proof.Machine
end

