-- ==== Sys2Proof/Machine/EngineEvents.lean ====
section
/-! DEFINITION. Meanings: events of the copy, expansion and matrix engines and of the quadrille (08, 10, 12 R281). -/

namespace Sys2Proof.Machine

/-- SECTOR_LANDED (08 R206, R211). -/
def execSectorLanded (core cmd : Nat) (s : State) : Out :=
  .next (landSector core cmd s)

/-- COPY_COMMAND_COMPLETE (08 R200, R208, R211). -/
def execCopyCommandComplete (core cmd : Nat) (s : State) : Out :=
  .next (completeCmd core cmd s)

/-- COPY_FAULT_REPORT (08 R220). -/
def execCopyFaultReport (core cmd : Nat) (s : State) : Out :=
  .next (reportCmd core cmd s)

/-- TASK_START (10 R240). -/
def execTaskStart (core : Nat) (s : State) : Out :=
  .next (taskStep core s)

/-- KGROUP_COMPUTE (10 R234, R235). -/
def execKgroupCompute (core task : Nat) (s : State) : Out :=
  .next (computeStep core task s)

/-- TASK_COMPLETE (10 R245). -/
def execTaskComplete (core task : Nat) (s : State) : Out :=
  .next (completeTask core task s)

/-- ARRIVAL_APPLY (10 R244). -/
def execArrivalApply (arrival : Nat) (s : State) : Out :=
  .next (applyArrival arrival s)

/-- PEER_ACKNOWLEDGE (10 R244). -/
def execPeerAcknowledge (core task : Nat) (s : State) : Out :=
  .next (acknowledgePeer core task s)

/-- MATRIX_FAULT_REPORT (10 R248). -/
def execMatrixFaultReport (core task : Nat) (s : State) : Out :=
  .next (reportTask core task s)

/-- LOCK_GRANT (12 R281). -/
def execLockGrant (line : Nat) (s : State) : Out :=
  .next (grantLock line s)

end Sys2Proof.Machine
end

