-- ==== Sys2Proof/Machine/Approx.lean ====
section
/-! DEFINITION. The approximate transcendentals (02 R47; 04 R121, R122). The bits that an implementation gives inside the bound of
R47 are a free value: the opaque constants of Config propose them, and a proposal stands where it lies inside the bound of a
reference computed here to far more digits; elsewhere the rounded reference stands (log entry 6). -/

namespace Sys2Proof.Machine

/-- Fixed point with 200 fractional bits; ln 2 in it. -/
def fxBits : Nat := 200
def fxOne : Nat := 2 ^ fxBits
def fxLn2 : Nat := 1113844574712631719546256151097547306333272293549090750737802

/-- Σ y^k / k! from the k-th term on, y and the term in fixed point. -/
def expSeries : Nat → Nat → Nat → Nat → Nat
  | 0, _, _, _ => 0
  | n + 1, k, y, t => t + expSeries n (k + 1) y (t * y / fxOne / (k + 1))

/-- 2^f in fixed point, for f in fixed point below one. -/
def exp2Fx (f : Nat) : Nat := expSeries 60 0 (f * fxLn2 / fxOne) fxOne

/-- Σ z^(2k+1) / (2k+1), z in fixed point; w is z². -/
def atanhSeries : Nat → Nat → Nat → Nat → Nat
  | 0, _, _, _ => 0
  | n + 1, k, w, t => t / (2 * k + 1) + atanhSeries n (k + 1) w (t * w / fxOne)

/-- log2 of q / 2^23, for 2^23 ≤ q < 2^24, in fixed point. -/
def log2Fx (q : Nat) : Nat :=
  let z := (q - 2 ^ 23) * fxOne / (q + 2 ^ 23)
  2 * atanhSeries 70 0 (z * z / fxOne) z * fxOne / fxLn2

/-- 2^(m × 2^e) (or its inverse), for an exponent above −200 and a value below 2^10, as a value of more than 64 digits. -/
def exp2Ref (neg : Bool) (m : Nat) (e : Int) : XVal :=
  let x : Int := signed neg (if 0 ≤ e then m * 2 ^ e.toNat * fxOne else m * fxOne / 2 ^ (-e).toNat)
  let n := Int.fdiv x (fxOne : Int)
  let f := (x - n * fxOne).toNat
  .fin false (exp2Fx f) (n - fxBits)

/-- log2 of a finite value above 0. -/
def log2Ref (m : Nat) (e : Int) : XVal :=
  let k := Nat.log2 m
  let q := if k ≤ 23 then m * 2 ^ (23 - k) else m / 2 ^ (k - 23)
  let v : Int := (e + (k : Int)) * fxOne + log2Fx q
  .fin (v < 0) v.natAbs (-(fxBits : Int))

/-- The unit in the last place of FP32 at a finite nonzero value (02 R47). -/
def ulp32 (x : XVal) : XVal :=
  match x with
  | .fin _ m e => pow2 (fp32.unit (XVal.log2 m e)).1
  | _ => pow2 0

def scaleX (n : Nat) (x : XVal) : XVal :=
  match x with
  | .fin s m e => .fin s (n * m) e
  | _ => x

/-- |p − r| is at most the bound, for finite values. -/
def within (p r bound : XVal) : Bool := !(bound.lt (xadd p r.neg).1.abs)

/-- A finite FP32 code. -/
def isFinite32 (w : Word) : Bool := w.extractLsb' 23 8 ≠ 255

/-- The proposal where it is finite and inside the bound, else the rounded reference. -/
def accept (proposal : Word) (r bound : XVal) : Word :=
  if isFinite32 proposal && within (f32 proposal) r bound then proposal else (out32 (r, 0)).1

def nan32 (sig : Bool) : Word × Flags := (canonNan, flagIf sig fInvalid)

/-- `vexp2.apx.f32` (04 R121, R122). -/
def apxExp2 (a : Word) : Word × Flags :=
  match f32 a with
  | .nan _ s => nan32 s
  | .inf s => (if s then 0 else 0x7F800000, 0)
  | .fin s m e =>
    if m = 0 then (0x3F800000, 0)
    else if !s && (XVal.ofInt 128).lt (f32 a) || a = 0x43000000 then (0x7F800000, 0)
    else if (f32 a).lt (XVal.ofInt (-150)) then (0, 0)
    else
      let r := exp2Ref s m e
      -- an integer power that binary32 holds is exact
      if (0 ≤ e || m % 2 ^ (-e).toNat == 0) && !(f32 a).lt (XVal.ofInt (-149)) then ((out32 (r, 0)).1, 0)
      else (accept (Config.exp2Apx a) r (scaleX 2 (ulp32 r)), 0)

/-- `vlog2.apx.f32` (04 R121, R122). -/
def apxLog2 (a : Word) : Word × Flags :=
  match f32 a with
  | .nan _ s => nan32 s
  | .inf s => if s then (canonNan, fInvalid) else (0x7F800000, 0)
  | .fin s m e =>
    if m = 0 then (0xFF800000, fZeroDivide)
    else if s then (canonNan, fInvalid)
    else if m = 2 ^ Nat.log2 m then ((out32 (XVal.ofInt (XVal.log2 m e), 0)).1, 0)
    else
      let r := log2Ref m e
      if XVal.log2 m e = 0 ∨ XVal.log2 m e = -1 then (accept (Config.log2Apx a) r (pow2 (-22)), 0)
      else (accept (Config.log2Apx a) r (scaleX 2 (ulp32 r)), 0)

/-- `vrcp.apx.f32` (04 R121, R122). -/
def apxRcp (a : Word) : Word × Flags :=
  match f32 a with
  | .nan _ s => nan32 s
  | .inf s => (if s then 0x80000000 else 0, 0)
  | .fin s m e =>
    if m = 0 then (if s then 0xFF800000 else 0x7F800000, fZeroDivide)
    else
      let r := ratio s 1 m (-e)
      if m = 2 ^ Nat.log2 m ∨ !isFinite32 (out32 (r, 0)).1 then ((out32 (r, 0)).1, 0)
      else (accept (Config.rcpApx a) r (ulp32 r), 0)

/-- `vrsqrt.apx.f32` (04 R121, R122). -/
def apxRsqrt (a : Word) : Word × Flags :=
  match f32 a with
  | .nan _ s => nan32 s
  | .inf s => if s then (canonNan, fInvalid) else (0, 0)
  | .fin s m e =>
    if m = 0 then (if s then 0xFF800000 else 0x7F800000, fZeroDivide)
    else if s then (canonNan, fInvalid)
    else
      let r := match rootOf m e with
        | .fin _ n f => ratio false 1 n (-f)
        | x => x
      if m = 2 ^ Nat.log2 m ∧ XVal.log2 m e % 2 = 0 then ((out32 (r, 0)).1, 0)
      else (accept (Config.rsqrtApx a) r (scaleX 2 (ulp32 r)), 0)

end Sys2Proof.Machine
end

