-- ==== Sys2Proof/Machine/MemoryEvents.lean ====
section
/-! DEFINITION. Meanings: events of the memory system: publications, records, releases, fills, write-backs, eclipse windows, the host and peers (01 R23; 12 R259-R273; 15 R331; 19 R415). -/

namespace Sys2Proof.Machine

/-! ## The diff record as it travels (12 R266) -/

/-- The kind flag's bit. -/
def PubKind.flag : PubKind → Nat
  | .release => 96
  | .early => 97
  | .eviction => 98
  | .atomic => 99
  | .maintenance => 101

/-- The run descriptors: last, Z, len − 1, skip. -/
def runWords : List DiffRun → List Byte
  | [] => []
  | r :: rest =>
    toBytes 2 (r.skip % 128 + (r.data.length - 1) % 128 * 2 ^ 7 + (if r.data.all (· == 0) then 2 ^ 14 else 0) + (if rest.isEmpty then 2 ^ 15 else 0)) ++
      runWords rest

/-- A record's bytes: header, descriptors, the payload of the runs without Z, padding to 16 bytes. -/
def DiffRecord.bytes (r : DiffRecord) : List Byte :=
  let header := toBytes 16 (r.line % 2 ^ 39 + r.die * 2 ^ 39 + r.runs.length * 2 ^ 42 + r.version.toNat * 2 ^ 64 + r.relNo.toNat * 2 ^ 80 +
    2 ^ r.kind.flag + r.tenant.toNat * 2 ^ 104)
  let body := header ++ runWords r.runs ++ r.runs.flatMap fun x => if x.data.all (· == 0) then [] else x.data
  body ++ zeros ((16 - body.length % 16) % 16)

/-- A forwarded copy's bytes: its record's, with bit 100 set and the version the home returned in bits 79:64 (12 R266, R271). That the kind
flag of the record stays beside bit 100 is DEDUCED (log entry 89). -/
def Forwarded.bytes (c : Forwarded) : List Byte :=
  let b := DiffRecord.bytes { c.record with version := c.version }
  patch b 12 [b.getD 12 0 ||| 0x10]

/-! ## Publications (12 R262, R263) -/

/-- Twinned lines oldest twin first. -/
def Die.byAge (D : Die) : List Nat :=
  (sortBy (fun l => match l.twin with
    | some t => t.born
    | none => 0) (D.lines.filter fun l => l.twin.isSome)).map fun l => l.line

/-- Under pressure, the oldest twinned lines are published until max(32, C/32) twins are free. -/
def publishEarly (d : Nat) (s : State) : State :=
  let D := s.die d
  let C := D.capacity
  let free := C - D.twinsUsed
  if free < max 16 (C / 64) then (D.byAge.take (max 32 (C / 32) - free)).foldl (fun s l => publish d l .early [] s) s else s

/-! ## Records, forwarded copies, fills (12 R268, R271, R273) -/

/-- A record applies behind the earlier ones of its die for its line, unless the line is locked. -/
def recordArrives (id : Nat) (s : State) : State :=
  match s.records.find? fun r => r.id = id with
  | some r =>
    if s.locked r.line || ((s.records.takeWhile fun x => x.id != id).any fun x => x.die = r.die && x.line = r.line) then s else applyRecord r s
  | none => s

/-- A forwarded copy applies to a clean resident line that lacks this write alone. -/
def applyForwarded (id : Nat) (s : State) : State :=
  match s.copies.find? fun c => c.id = id with
  | some c =>
    let s1 := { s with copies := s.copies.filter fun x => x.id != id }
    match (s1.die c.target).line? c.record.line with
    | some l =>
      if l.twin.isNone && l.version = c.version - 1 then
        s1.setDie c.target fun D =>
          D.setLine { l with data := applyRuns c.record.runs 0 l.data, version := c.version, tag := some (c.record.die, c.record.relNo) }
      else s1
    | none => s1
  | none => s

/-- v is newer than u (12 R264). -/
def newer (v u : Half) : Bool := 1 ≤ (v - u).toNat && (v - u).toNat ≤ 32767

/-- The load that asked for the line, where it still waits, receives it; it is known by its entry's `seq`. -/
def deliver (line : Nat) (data : List Byte) (w : Nat × Nat) (s : State) : State :=
  s.updGang w.1 fun g =>
    let take (x : LogEntry) : LogEntry := if x.state = .inFlight && x.seq = w.2 then { x with got := upsert x.got line data } else x
    { g with olog := g.olog.map take, hlog := g.hlog.map take }

/-- A fill is installed where its epoch is the die's, nothing has overtaken it and it is newer than a resident copy; another goes to its
waiting loads alone. -/
def fillArrives (id : Nat) (s : State) : State :=
  match s.fills.find? fun f => f.id = id with
  | some f =>
    let s1 := { s with fills := s.fills.filter fun x => x.id != id }
    let D := s1.die f.die
    let resident := D.line? f.line
    let stale := match resident with
      | some l => !newer f.version l.version
      | none => false
    if stale then s1
    else
      let s2 := f.waiters.foldl (fun s w => deliver f.line f.data w s) s1
      if f.epoch = D.epoch && f.install && resident.all (fun l => l.twin.isNone) then
        (makeRoom f.die 128 s2).setDie f.die fun D => D.setLine ⟨f.line, f.data, none, f.version, none⟩
      else s2
  | none => s

/-! ## Releases (12 R270) -/

/-- An 8-byte add at a home of this package or in another of its regions (15 R352, R358); none while it waits. -/
def homeAdd (ag : Agent) (fpa : Nat) (x : Dword) (s : State) : Option State :=
  if s.isHbm fpa then
    if homeWaits fpa 8 s then none
    else
      let s1 := recallSectors (sectorOf fpa) 1 true (prePublish ag.die fpa 8 s)
      let bs := toBytes 8 (ofBytes (s1.mem.read fpa 8) + x.toNat)
      some (patchDie ag fpa bs (homeWrite fpa bs s1))
  else if regionOf (ppaOf fpa) = .regs then
    let off := ppaOf fpa - 0x3F0000000000
    some (writeRegBytes off (toBytes 8 (ofBytes (readRegBytes s off 8) + x.toNat)) s)
  else some (homeWrite fpa (toBytes 8 (ofBytes (s.mem.read fpa 8) + x.toNat)) s)

def dropRelease (id : Nat) (s : State) : State := { s with releases := s.releases.filter fun x => x.id != id }

/-- The signal of an `fsig` behind its release (15 R358): a remote add waits for the acknowledgement of what the core had combined for its
line (15 R329). -/
def sendAdd (r : PendingRelease) (fpa : Nat) (x : Dword) (s : State) : State :=
  match s.gang? r.gang with
  | none => dropRelease r.id s
  | some g =>
    if s.isLocal fpa then ((homeAdd ⟨g.coreIx, g.tenant, g.uid, false⟩ fpa x s).map (dropRelease r.id)).getD s
    else
      match switchGone s fpa with
      | some w => dropRelease r.id (postReport r.gang w s)
      | none =>
        let s1 := drainEntry g.coreIx (lineOf fpa) s
        if entryUnacked s1 fpa then s1
        else
          dropRelease r.id (addOutstanding r.gang (dropPeer (g.coreIx / 40) (lineOf fpa)
            (sendPacket fpa 4 (.signalAdd fpa x) [r.gang] r.id 0 g.tenant true s1)))

/-- The gang of a `tdone` whose release is complete leaves its core. -/
def leaveReleased (id uid : Nat) (s : State) : State :=
  atGang uid (fun s => if s.g.relPending = some id then leaveCore .saved (s.setG fun g => { g with relPending := none }) else s) s

/-- An arrival whose records are all acknowledged is counted. -/
def finishArrivals (id : Nat) (s : State) : State :=
  match s.allGangs.find? fun g => g.arriving.any fun x => x.id = id with
  | none => s
  | some g => atGang g.uid (fun s =>
      match s.g.arriving.find? fun x => x.id = id with
      | some x => if s.records.any fun r => x.records.contains r.id then s else finishArrival x s
      | none => s) s

/-- RELEASE_COMPLETE: what stands behind the release goes on: a signal leaves, a gang leaves its core, an arrival is counted. -/
def finishPending (id : Nat) (s : State) : State :=
  match s.releases.find? fun r => r.id = id with
  | some r =>
    if !releaseDone s r then s
    else
      match r.signal with
      | some (fpa, x) => sendAdd r fpa x s
      | none => leaveReleased id r.gang (dropRelease id s)
  | none => finishArrivals id s

/-! ## Owned grains (12 R259) -/

/-- The directory applies a write-back under the grain's current version, and discards any other. -/
def applyWriteBack (id : Nat) (s : State) : State :=
  match s.writeBacks.find? fun w => w.id = id with
  | some w =>
    let n := w.data.length / 32
    let e := s.dirEntry w.base n
    let s1 := { s with writeBacks := s.writeBacks.filter fun x => x.id != id }
    if e.owner = some w.die && e.version = w.version then
      (bumpLines (grainLines w.base n) { s1 with mem := s1.mem.write (32 * w.base) w.data }).setDir
        { e with owner := none, sharers := [], version := e.version + 1 }
    else s1
  | none => s

/-! ## Eclipse (01 R23): the cadence follows from the clock; the two events record what it is by now -/

/-- A window has begun since the cadence was recorded. -/
def windowOpens (d : Nat) (s : State) : State :=
  if d < 8 && (s.die d).eclipse.next ≤ s.clk then s.setDie d fun D => { D with eclipse := s.eclipseNow d } else s

/-- The end of a window changes nothing that is recorded: what is open follows from the clock. -/
def windowCloses (d : Nat) (s : State) : State := windowOpens d s

/-! ## The host (19 R415) -/

/-- An access of at most 64 bytes inside one 64-byte line. -/
def hostFits (ppa n : Nat) : Bool := 1 ≤ n && ppa % 64 + n ≤ 64

/-- A host load of HBM, served at the line's home; the host may hold the line from then on. -/
def hostLoad (ppa n : Nat) (s : State) : State :=
  if hostFits ppa n && regionOf ppa = .hbm && !homeWaits (s.fpa ppa) n s then
    let s1 := recallSectors (sectorOf (s.fpa ppa)) ((ppa % 32 + n + 31) / 32) true s
    { s1 with hostLines := insertNat (lineOf (s.fpa ppa)) s1.hostLines, host := { s1.host with readData := s1.mem.read (s.fpa ppa) n } }
  else s

/-- A host store of HBM, or of its own memory. -/
def hostStore (ppa : Nat) (bs : List Byte) (s : State) : State :=
  if hostFits ppa bs.length && !homeWaits (s.fpa ppa) bs.length s then
    match regionOf ppa with
    | .hbm => homeStore (s.fpa ppa) bs s
    | .host => homeWrite (s.fpa ppa) bs s
    | _ => s
  else s

/-! ## Peers (15 R331) -/

/-- A remote load, or a returning atomic, of a peer: the answer is the line's bytes, or the old value. -/
def servePeer (id : Nat) (s : State) : State :=
  match s.requests.find? fun q => q.id = id && q.reply.isNone with
  | some q =>
    if !s.isLocal q.addr || homeWaits (128 * lineOf q.addr) 128 s then s
    else
      let done (x : Nat) (s : State) : State := { s with requests := mapIf (fun r => r.id = id) (fun r => { r with reply := some x }) s.requests }
      match regionOf (ppaOf q.addr), q.op with
      | .hbm, none =>
        let s1 := recallSectors (4 * lineOf q.addr) 4 true s
        done (ofBytes (s1.mem.read (128 * lineOf q.addr) 128)) s1
      | .weight, none => if eclipsed s (ppaOf q.addr) then s else done (ofBytes (s.mem.read (128 * lineOf q.addr) 128)) s
      | .hbm, some (op, n, x, y) =>
        let s1 := recallSectors (sectorOf q.addr) 1 true s
        let old := ofBytes (s1.mem.read q.addr n)
        done old (homeWrite q.addr (toBytes n (atomicNew op (8 * n) old x x y)) s1)
      | _, _ => { s with requests := s.requests.filter fun r => r.id != id }
  | none => s

/-- EARLY_PUBLICATION (12 R262). -/
def execEarlyPublication (die : Nat) (s : State) : Out :=
  .next (publishEarly die s)

/-- EVICTION_PUBLICATION (12 R263). -/
def execEvictionPublication (die line : Nat) (s : State) : Out :=
  .next (evictLine die line s)

/-- RECORD_APPLY (12 R268). -/
def execRecordApply (record : Nat) (s : State) : Out :=
  .next (recordArrives record s)

/-- RELEASE_COMPLETE (12 R270; 15 R358). -/
def execReleaseComplete (release : Nat) (s : State) : Out :=
  .next (finishPending release s)

/-- FORWARDED_COPY_APPLY (12 R271). -/
def execForwardedCopyApply (copy : Nat) (s : State) : Out :=
  .next (applyForwarded copy s)

/-- FILL_ARRIVAL (12 R264, R273). -/
def execFillArrival (fill : Nat) (s : State) : Out :=
  .next (fillArrives fill s)

/-- WRITE_BACK_APPLY (12 R259). -/
def execWriteBackApply (writeBack : Nat) (s : State) : Out :=
  .next (applyWriteBack writeBack s)

/-- VOLUNTARY_WRITE_BACK (12 R259). -/
def execVoluntaryWriteBack (die : Nat) (grain : Nat) (s : State) : Out :=
  .next (voluntaryWriteBack die grain s)

/-- ECLIPSE_WINDOW_START (01 R23). -/
def execEclipseWindowStart (die : Nat) (s : State) : Out :=
  .next (windowOpens die s)

/-- ECLIPSE_WINDOW_END (01 R23). -/
def execEclipseWindowEnd (die : Nat) (s : State) : Out :=
  .next (windowCloses die s)

/-- HOST_MEM_LOAD (19 R415). -/
def execHostMemLoad (address bytes : Nat) (s : State) : Out :=
  .next (hostLoad address bytes s)

/-- HOST_MEM_STORE (19 R415). -/
def execHostMemStore (address : Nat) (data : List (BitVec 8)) (s : State) : Out :=
  .next (hostStore address data s)

/-- REMOTE_LOAD_OR_ATOMIC_SERVE (15 R331). -/
def execRemoteLoadOrAtomicServe (request : Nat) (s : State) : Out :=
  .next (servePeer request s)

end Sys2Proof.Machine
end

