-- ==== Sys2Proof/Machine/FabricEvents.lean ====
section
/-! DEFINITION. Meanings: events of the fabric: packets, links, switches, groups, rounds (15). -/

namespace Sys2Proof.Machine

/-- A write-combining entry whose age has reached the tenant's drains (15 R330): the age counts units of 10 ns. -/
def drainAged (c line : Nat) (s : State) : State :=
  match (s.core c).wc.find? fun e => e.line = line with
  | some e => if (s.tenant e.tenant).age.toNat * s.unit.clockMhz ≤ 100 * e.age s.clk then drainEntry c line s else s
  | none => s

/-! ## Packets (15 R327, R331-R339) -/

def findPacket (s : State) (id : Nat) : Option Packet := s.packets.find? fun p => p.id = id

def dropPacket (id : Nat) (s : State) : State := { s with packets := s.packets.filter fun p => p.id != id }

def setPacket (id : Nat) (f : Packet → Packet) (s : State) : State := { s with packets := mapIf (fun p => p.id = id) f s.packets }

/-- Every earlier packet of the stream is applied, its multicasts among them; a drain to peer that waits at its sender is none (10 R244). -/
def packetTurn (s : State) (p : Packet) : Bool :=
  ((s.packets.takeWhile fun q => q.id != p.id).all fun q => q.applied || q.src != p.src || q.dest != p.dest || q.kind.apart) &&
    !multicastAhead s p.src p.dest p.id

/-- The address a packet acts at: its line, or its word. -/
def Packet.addr (p : Packet) : Nat :=
  match p.kind with
  | .write line _ => 128 * line
  | .atomic a _ _ _ => a
  | .signalAdd a _ => a
  | .predSignal _ _ _ => p.dest * 2 ^ 46
  | .drain _ _ _ => p.dest * 2 ^ 46

/-- The home may not take the packet for now. -/
def Packet.waits (p : Packet) (s : State) : Bool :=
  match p.kind with
  | .write line _ => homeWaits (128 * line) 128 s
  | .atomic a _ n _ => homeWaits a n s
  | .signalAdd a _ => homeWaits a 8 s
  | .predSignal _ _ _ => false
  | .drain _ _ _ => false

/-- The bytes of a write packet over a line. -/
def overLine : List (Option Byte) → List Byte → List Byte
  | some b :: r, _ :: l => b :: overLine r l
  | none :: r, c :: l => c :: overLine r l
  | _, l => l

/-- The destination refuses the packet: nothing is written; a drain whose receiver is absent is answered so (10 R244). -/
def packetFault (s : State) (p : Packet) : Option Why :=
  match p.kind with
  | .predSignal _ _ _ => none
  | .drain w4 w5 _ =>
    if p.dest = s.pkg.toNat && targetOf s p.tenant w4.toNat w5.toNat == .absent then some ⟨8, 0x13, 0, false⟩ else none
  | _ =>
    match switchGone s p.addr with
    | some w => some w
    | none => farFault s true p.tenant p.addr

/-- What a packet does at its home (15 R331, R358; 18 R395, R405), or at this package's engines (10 R244). -/
def packetEffect (p : Packet) (s : State) : State :=
  match p.kind with
  | .write line bs => homeStore (128 * line) (overLine bs ((recallSectors (4 * line) 4 true s).mem.read (128 * line) 128)) s
  | .atomic a op n x =>
    let s1 := recallSectors (sectorOf a) 1 true s
    homeStore a (toBytes n (atomicNew op (8 * n) (ofBytes (s1.mem.read a n)) x x 0)) s1
  | .signalAdd a x =>
    let s1 := recallSectors (sectorOf a) 1 true s
    homeStore a (toBytes 8 (ofBytes (s1.mem.read a 8) + x.toNat)) s1
  | .predSignal t a err =>
    if p.dest = s.pkg.toNat then
      { s with nextId := s.nextId + 1, predSignals := s.predSignals ++ [⟨s.nextId, t, a.toNat, [], true, err, none⟩] }
    else s
  | .drain w4 w5 values =>
    if p.dest = s.pkg.toNat && s.arrivals.all (fun a => a.packet != p.id) then
      { s with nextId := s.nextId + 1, arrivals := s.arrivals ++ [⟨s.nextId, p.src, 0, 0, p.id, p.tenant, w4, w5, values, false⟩] }
    else s

/-- WRITE_PACKET_APPLY: in its turn on its stream, unless its home cannot take it now or its destination refuses it. From then on the packet
stands for its acknowledgement, which is of the critical class (15 R336); another package's drain does so when its arrival is applied
(10 R244). -/
def applyPacket (id : Nat) (s : State) : State :=
  match findPacket s id with
  | some p =>
    if p.applied || p.lost || !packetTurn s p || (packetFault s p).isSome || p.waits s then s
    else if p.kind.apart && p.dest = s.pkg.toNat then packetEffect p s
    else setPacket id (fun q => { q.onPlanes (criticalPlanes s p.addr) with applied := true }) (packetEffect p s)
  | none => s

/-- The outstanding counts of a packet's gangs fall. -/
def fallAt (gangs : List Nat) (s : State) : State :=
  gangs.foldl (fun s u => s.updGang u fun g => { g with outstanding := g.outstanding - 1 }) s

/-- ACKNOWLEDGE_RECEIVE: the packet leaves its retry buffer; its link has carried a good flit. -/
def receiveAck (id : Nat) (s : State) : State :=
  match findPacket s id with
  | some p =>
    if p.applied && !p.lost then
      fallAt p.gangs (dropPacket id { s with links := if h : p.plane < 18 then s.links.set p.plane { s.links[p.plane] with failures := 0 } else s.links })
    else s
  | none => s

/-- The command or task that posted a packet meets a failure (08 R221, 10 R248). -/
def failPoster (cmd : Nat) (w : Why) (s : State) : State :=
  if cmd = 0 then s
  else
    match s.cores.findSome? fun k => (k.2.cmds.find? fun c => c.id = cmd).map fun c => (k.1, c) with
    | some (core, c) => failCmd core c 1 w s
    | none =>
      match s.cores.findSome? fun k => (k.2.tasks.find? fun t => t.id = cmd).map fun t => (k.1, t) with
      | some (core, t) => failTask core t (if t.kind = 3 then 3 else 1) w s
      | none => s

/-- A posted packet ends with a report at each of its gangs, and at the engine that posted it (15 R333). -/
def endPacket (p : Packet) (w : Why) (s : State) : State :=
  failPoster p.cmd w (p.gangs.foldl (fun s u => postReport u w s) (fallAt p.gangs (dropPacket p.id s)))

/-- What a peer may answer of its own: a tenant not admitted, an uncorrectable error (15 R360); to a signal, that its early count cannot be
reached (18 R392); to a drain, that the receiver is absent (10 R244). The
address of a refused signal's report is that of the descriptor's early count, DESIGN CHOICE (log entry 107). -/
def peerRefusal (s : State) (p : Packet) (code : Nat) : Option Why :=
  match p.kind, code with
  | _, 3 => some ⟨12, 3, p.addr, false⟩
  | _, 6 => some ⟨12, 6, p.addr, false⟩
  | .predSignal _ a _, 4 => some ⟨12, 4, a.toNat + 0x30, false⟩
  | .drain _ _ _, 0x13 => if p.dest = s.pkg.toNat then none else some ⟨8, 0x13, 0, false⟩
  | _, _ => none

/-- REMOTE_FAULT_REPORT: the destination's refusal, or one of the peer's own. -/
def packetFails (id code : Nat) (s : State) : State :=
  match findPacket s id with
  | some p =>
    if p.applied || p.lost || !packetTurn s p then s
    else
      match packetFault s p with
      | some w => endPacket p w s
      | none => ((peerRefusal s p code).map fun w => endPacket p w s).getD s
  | none => s

/-- A packet waits for as long as it takes: a drain to peer (10 R244). -/
def Packet.patient (p : Packet) : Bool := !p.lost && p.kind.apart

/-- A branch is done; with its word's last the sender is acknowledged. -/
def endBranch (d : Delivery) (s : State) : State :=
  let s1 := { s with deliveries := s.deliveries.filter fun x => x.id != d.id }
  if d.counted && d.sender = s.pkg.toNat && s1.branches.all (fun x => x.op != d.op) then fallAt [d.gang] s1 else s1

/-- A branch that fails is reported to its sender, a result to the gang whose contribution it answers. -/
def failBranch (d : Delivery) (code addr : Nat) (s : State) : State :=
  endBranch d (if (if d.counted then d.sender else d.pkg) = s.pkg.toNat then postReport d.gang ⟨12, code, addr, false⟩ s else s)

/-- A branch on its way is sent again; after 16 transmissions it is given up (15 R338, R339). -/
def resendBranch (d : Delivery) (s : State) : State :=
  if 16 ≤ d.sent then failBranch d 1 0 s
  else { s with deliveries := mapIf (fun x => x.id = d.id) (fun x => { x with sent := x.sent + 1 }) s.deliveries }

/-- One more transmission of a contribution without an acknowledgement; after 16 it is given up (15 R339). -/
def resendContribution (c : Contribution) (s : State) : State :=
  let s1 := { s with contribs := s.contribs.filter fun x => x.id != c.id }
  if c.sent < 15 then { s with contribs := mapIf (fun x => x.id = c.id) (fun x => { x with sent := x.sent + 1 }) s.contribs }
  else if c.pkg = s.pkg.toNat then postReport c.gang ⟨12, 1, 0, false⟩ (fallAt [c.gang] s1)
  else s1

/-- A multicast on its way, or a contribution that waits at the first switch, is sent again. -/
def resendOther (id : Nat) (s : State) : State :=
  match s.contribs.find? fun c => c.id = id with
  | some c => resendContribution c s
  | none =>
    match s.deliveries.find? fun d => d.id = id with
    | some d => resendBranch d s
    | none => s

/-- RETRANSMIT: sent again on the planes chosen now; after 16 transmissions the source gives up (15 R338, R339). One that has been applied
already is answered again. -/
def retransmit (id : Nat) (s : State) : State :=
  match findPacket s id with
  | some p =>
    if p.patient then s
    else if 16 ≤ p.sent then (if p.src = s.pkg.toNat then endPacket p ⟨12, 1, p.addr, false⟩ s else dropPacket id s)
    else setPacket id (fun q => { q.onPlanes (planesFor s (p.critical || p.applied) p.addr) with sent := q.sent + 1 }) s
  | none => resendOther id s

/-- The copy of a packet, or of its acknowledgement, on a plane is lost; with its last copy it waits to be sent again. -/
def Packet.loseCopy (p : Packet) (plane : Nat) : Packet :=
  if p.second = some plane then { p with second := none }
  else if p.plane = plane then
    match p.second with
    | some q => { p with plane := q, second := none }
    | none => { p with lost := true }
  else p

/-- RECOVERY_DISCARD: what stood at the head of its channel; a contribution or a multicast is sent again on the negative acknowledgement
(15 R337, R338). -/
def discardPacket (id : Nat) (s : State) : State := if (findPacket s id).isSome then setPacket id (fun p => p.loseCopy p.plane) s else resendOther id s

/-! ## Links (15 R325, R326, R340) -/

def setLink (p : Nat) (f : Link → Link) (s : State) : State := { s with links := if h : p < 18 then s.links.set p (f s.links[p]) else s.links }

/-- The key of a phase. -/
def Link.setKey (k : Link) (phase : Bool) (n : Option Nat) : Link := if phase then { k with key1 := n } else { k with key0 := n }

/-- Steps 1 and 2 of a rollover: the key delivered for the other phase is installed, the receiver holds both, new flits carry the new phase.
A key is known by the number of its delivery (log entry 100). -/
def rollKey (k : Link) : Link :=
  if k.up && k.rollover = .steady then { k.setKey (!k.phase) (some (k.rolled + 1)) with rollover := .rolling, phase := !k.phase } else k

/-- Step 4: the drained flit retires the old key, and the rollover's completion is reported (19 R425). It is a good flit. -/
def retireKey (k : Link) : Link :=
  if k.rollover = .rolling then { k.setKey (!k.phase) none with rollover := .steady, failures := 0, rolled := k.rolled + 1 } else k

def flitFails (k : Link) : Link := if k.up && k.failures < 64 then { k with failures := k.failures + 1 } else k

/-- The die that serves a link (15 R325). -/
def linkDie (p : Nat) : Nat :=
  if p < 3 then 0 else if p < 5 then 1 else if p < 7 then 2 else if p < 9 then 3 else if p < 12 then 4 else if p < 14 then 5 else if p < 16 then 6 else 7

/-- An event of kind 4: the link in the low half of the detail, 1 for up above it (19 R416; log entry 19). -/
def linkEvent (p : Nat) (up : Bool) (s : State) : State :=
  postEvent ⟨4, linkDie p, 0xFF, 0, BitVec.ofNat 128 (p + if up then 2 ^ 64 else 0), 0⟩ s

/-- A link goes down: the copies that it carried are lost, and a rollover under way ends with its new key (log entry 100). -/
def takeDown (p : Nat) (s : State) : State :=
  linkEvent p false (setLink p (fun k => { k.setKey (!k.phase) none with up := false, rollover := .steady })
    { s with packets := s.packets.map fun q => q.loseCopy p })

/-- LINK_DOWN: after 64 failures in a row. -/
def linkFails (p : Nat) (s : State) : State :=
  if h : p < 18 then (if s.links[p].up && 64 ≤ s.links[p].failures then takeDown p s else s) else s

/-- LINK_STATE_UPDATE: the fabric manager reports a link of the domain up or down. -/
def linkState (pkg plane : Nat) (up : Bool) (s : State) : State :=
  if 18 ≤ plane then s
  else if pkg = s.pkg.toNat then
    if s.linkUp plane = up then s
    else if up then linkEvent plane true (setLink plane (fun k => { k with up := true, failures := 0 }) s)
    else takeDown plane s
  else if up then { s with downLinks := s.downLinks.filter fun x => x != (pkg, plane) }
  else if s.downLinks.contains (pkg, plane) then s
  else { s with downLinks := s.downLinks ++ [(pkg, plane)] }

/-! ## Switches (15 R341-R348) -/

def switchCode : Nat → Option SwitchState
  | 0 => some .absent
  | 1 => some .present
  | 2 => some .lost
  | _ => none

def putSwitch (w : Switch) (s : State) : State :=
  { s with switches := if s.switches.any fun x => x.id = w.id then mapIf (fun x => x.id = w.id) (fun _ => w) s.switches else s.switches ++ [w] }

/-- The streams to a switch that is gone end with reports of group 13. -/
def endStreams (sw : Nat) (s : State) : State :=
  (s.packets.filter fun p => p.dest = 8192 + sw).foldl (fun s p => endPacket p ⟨13, 1, p.addr, false⟩ s) s

/-- A switch that is lost, replaced or of another generation holds no allocation (15 R347, R348). -/
def emptySwitch (sw : Nat) (s : State) : State := { s with swAllocs := s.swAllocs.filter fun a => a.sw != sw }

/-- SWITCH_LOST: its contents and allocations go. -/
def loseSwitch (sw : Nat) (s : State) : State :=
  match s.switch? sw with
  | some w =>
    if w.state = .present then
      endStreams sw (putSwitch { w with state := .lost } (emptySwitch sw s))
    else s
  | none => s

/-- SWITCH_REPLACED: the next generation, with no allocation; past 4,095 the id is retired. -/
def replaceSwitch (sw : Nat) (s : State) : State :=
  match s.switch? sw with
  | some w =>
    if w.state != .lost then s
    else if w.generation < 4095 then putSwitch { w with state := .present, generation := w.generation + 1 } (emptySwitch sw s)
    else putSwitch { w with state := .absent } (emptySwitch sw s)
  | none => s

/-- SWITCH_TABLE_WRITE: a switch that stays present in its generation keeps its allocations; the streams to one that is not present end. -/
def writeSwitch (sw plane state generation : Nat) (s : State) : State :=
  match switchCode state with
  | some st =>
    if sw < 4096 ∧ plane < 18 ∧ generation < 4096 then
      let same := st = .present && switchPresent s sw && s.generation sw = generation
      let s1 := putSwitch ⟨sw, plane, st, generation⟩ (if same then s else emptySwitch sw s)
      if st = .present then s1 else endStreams sw s1
    else s
  | none => s

def setQuota (t sw n : Nat) (s : State) : State :=
  if t < 64 ∧ sw < 4096 then { s with quotas := (t, sw, n) :: s.quotas.filter fun q => !(q.1 = t && q.2.1 = sw) } else s

/-! ## Groups (15 R349, R350) -/

def installGroup (id tenant : Nat) (members : List Nat) (s : State) : State :=
  if id < 4096 ∧ tenant < 64 ∧ s.groups.all (fun g => g.id != id) then { s with groups := s.groups ++ [⟨id, tenant, members, id % 18⟩] } else s

/-- A report at the gang of a contribution of this package: it carries no fabric address (log entry 20). -/
def reportMember (code : Nat) (c : Contribution) (s : State) : State := if c.pkg = s.pkg.toNat then postReport c.gang ⟨12, code, 0, false⟩ s else s

/-- Reinstallation ends every open round of the group, one that has failed among them (15 R350, R353). -/
def reinstallGroup (id plane : Nat) (s : State) : State :=
  if 18 ≤ plane then s
  else
    let s1 := (s.rounds.filter fun r => r.group = id).foldl (fun s r => r.taken.foldl (fun s c => reportMember 0x0C c s) s) s
    { s1 with
      rounds := s1.rounds.filter fun r => r.group != id
      groups := mapIf (fun g => g.id = id) (fun g => { g with plane := plane }) s1.groups }

/-! ## Reductions (15 R353-R356) -/

/-- The exp2 unit: x a finite FP32 not above 0; 2^t to 24 significant bits, ties to even, from a reference of 200 bits (log entry 6). -/
def exp2Unit (x : Word) : XVal :=
  match f32 x with
  | .fin _ m e =>
    if m = 0 then XVal.one
    else
      let v : Int := -(if 0 ≤ e then (m * 2 ^ e.toNat * fxOne : Nat) else (m * fxOne / 2 ^ (-e).toNat : Nat))
      let n := Int.fdiv v (fxOne : Int)
      if n < -510 then XVal.zero
      else
        let y := exp2Fx (v - n * fxOne).toNat
        let q := y / 2 ^ 177
        let r := y % 2 ^ 177
        let up := 2 ^ 176 < r || (r = 2 ^ 176 && q % 2 = 1)
        .fin false (if up then q + 1 else q) (n - 23)
  | _ => XVal.zero

/-- The factor of one triple (15 R355). -/
def rescaleFactor (mi m : Word) : XVal :=
  if mi = 0xFF800000 then XVal.zero
  else if m = 0x7F800000 then (if mi = 0x7F800000 then XVal.one else XVal.zero)
  else exp2Unit (fSub mi m).1

/-- round(a·f + b·g): exact products and sum, one rounding. -/
def twoProducts (a : Word) (f : XVal) (b : Word) (g : XVal) : Word :=
  (out32 (xsum false [(xmul (f32 a) f).1, (xmul (f32 b) g).1])).1

/-- `combine`: words m, l, o[0..31]; the rest zero. -/
def combineTriples (a b : List Word) : List Word :=
  let m1 := a.getD 0 0
  let m2 := b.getD 0 0
  if (f32 m1).isNan || (f32 m2).isNan then List.replicate 34 canonNan ++ List.replicate 30 0
  else
    let m := (fMinMax true false m1 m2).1
    let f := rescaleFactor m1 m
    let g := rescaleFactor m2 m
    m :: ((List.range 33).map fun k => twoProducts (a.getD (k + 1) 0) f (b.getD (k + 1) 0) g) ++ List.replicate 30 0

/-- One pair of elements (15 R354): op 0 add, 1 max, 2 min; type 0 i32, 1 f32 and partial sums of bf16. -/
def combineElem (op type : Nat) (a b : Word) : Word :=
  match op, type with
  | 0, 0 => a + b
  | 0, _ => (fAdd a b).1
  | 1, 0 => if a.slt b then b else a
  | 1, _ => (fMinMax true false a b).1
  | _, 0 => if b.slt a then b else a
  | _, _ => (fMinMax false false a b).1

def combinePair (op type : Nat) (a b : List Word) : List Word :=
  if op = 3 then combineTriples a b else (a.zip b).map fun x => combineElem op type x.1 x.2

/-- A payload's elements; bf16 carried as FP32. -/
def elemsOf (type : Nat) (p : List Byte) : List Word :=
  if type = 2 then (List.range 128).map fun k => BitVec.ofNat 32 (ofBytes (slice p (2 * k) 2) * 2 ^ 16)
  else (List.range 64).map fun k => BitVec.ofNat 32 (ofBytes (slice p (4 * k) 4))

/-- The result's bytes: the root rounds bf16 once. -/
def bytesOf (type : Nat) (l : List Word) : List Byte :=
  if type = 2 then l.flatMap fun w => toBytes 2 (bf16.round .rne 0 (f32 w)).1 else l.flatMap fun w => toBytes 4 w.toNat

/-- The tree pairs contributions in an order that the manual leaves open (15 R354): a free value names the pair at each step. -/
def pairUp (op type : Nat) : Nat → Nat → List (List Word) → List Word
  | 0, _, l => l.headD []
  | n + 1, tick, l =>
    match l.rotateLeft (Config.pick tick % max 1 l.length) with
    | a :: r =>
      match r.rotateLeft (Config.pick (tick + 1) % max 1 r.length) with
      | b :: rest => pairUp op type n (tick + 2) (combinePair op type a b :: rest)
      | [] => a
    | [] => []

/-- Fields of a control word that contributions must agree in (15 R353). -/
def roundFields (c : Contribution) : Nat × Nat × Nat × Nat :=
  let x := c.control.toNat
  (bits x 14 12, bits x 17 15, bits x 44 32, bits x 45 45)

def setRound (r : Round) (s : State) : State :=
  { s with rounds := if s.rounds.any fun x => x.group = r.group && x.number = r.number
      then mapIf (fun x => x.group = r.group && x.number = r.number) (fun _ => r) s.rounds else s.rounds ++ [r] }

def dropRound (r : Round) (s : State) : State := { s with rounds := s.rounds.filter fun x => !(x.group = r.group && x.number = r.number) }

/-- A round in which every member has contributed sends its result down the tree. -/
def completeRound (G : Group) (r : Round) (s : State) : State :=
  match r.taken with
  | [] => s
  | c :: _ =>
    let (op, type, root, all) := roundFields c
    let n := r.taken.length
    let x := pairUp op type n s.tick (r.taken.map fun c => elemsOf type c.payload)
    let result := bytesOf type (if op = 3 then x.take 34 ++ List.replicate 30 0 else x)
    let to_ := r.taken.filter fun c => all = 1 || c.pkg = root
    let new := to_.zipIdx.map fun x : Contribution × Nat =>
      (⟨s.nextId + x.2, x.1.pkg, root, x.1.gang, x.1.tenant, x.1.dest, result, false, G.id, 0, 0, 1⟩ : Delivery)
    dropRound r (sendBranches G.plane root new { s with tick := s.tick + 2 * n, nextId := s.nextId + to_.length })

/-- A failed round closes once every member has contributed. -/
def settleFailed (G : Group) (r : Round) (s : State) : State :=
  if G.members.all fun m => r.taken.any fun c => c.pkg = m then dropRound r s else setRound r s

/-- A round fails: every member that has contributed is told. -/
def failRound (G : Group) (r : Round) (code : Nat) (s : State) : State :=
  settleFailed G { r with failed := some (BitVec.ofNat 8 code) } (r.taken.foldl (fun s c => reportMember code c s) s)

/-- What a contribution makes of its round. -/
def enterRound (G : Group) (r : Round) (c : Contribution) (s : State) : State :=
  let r1 := { r with taken := r.taken ++ [c] }
  match r.failed with
  | some code => settleFailed G r1 (reportMember code.toNat c s)
  | none =>
    if r.taken.any fun x => x.pkg = c.pkg then failRound G r1 0x0B s
    else if r.taken.any fun x => roundFields x != roundFields c then failRound G r1 0x0A s
    else if G.members.all fun m => r1.taken.any fun x => x.pkg = m then completeRound G r1 s
    else setRound r1 s

/-- REDUCTION_CONTRIBUTION: taken into its round and acknowledged. One to another round waits while 16 are open, unacknowledged, and is sent
again by RETRANSMIT; one of this package's whose link is down is sent again (15 R338, R339, R353). -/
def takeContribution (id : Nat) (s : State) : State :=
  match s.contribs.find? fun c => c.id = id with
  | some c =>
    let gid := bits c.control.toNat 11 0
    let number := bits c.control.toNat 31 18
    match s.groups.find? fun g => g.id = gid with
    | none => s
    | some G =>
      let cut := if c.pkg = s.pkg.toNat then !s.linkUp G.plane else s.downLinks.contains (c.pkg, G.plane)
      let old := s.rounds.find? fun r => r.group = gid && r.number = number
      if cut && c.pkg = s.pkg.toNat then resendContribution c s
      else if cut || (old.isNone && 16 ≤ (s.rounds.filter fun r => r.group = gid).length) then s
      else
        let s1 := { s with contribs := s.contribs.filter fun x => x.id != id }
        enterRound G (old.getD ⟨gid, number, [], none⟩) c (if c.pkg = s.pkg.toNat then fallAt [c.gang] s1 else s1)
  | none => s

/-! ## Deliveries (15 R352, R353, R357) -/

/-- The bytes of a delivery and its signal translated with the write right: three pieces, or a failure. -/
def translateBranch (t : BitVec 6) : List Nat → State → Got (List Nat)
  | [], s => .ok [] s
  | va :: r, s =>
    match translateFor t (s.tenant t).priv false false true va s with
    | (s1, .ok fpa _) => (translateBranch t r s1).next fun l s => .ok (fpa :: l) s
    | (s1, .bad w) => .bad w s1
    | (s1, .wait) => .wait s1

/-- A line written whole at its home, or in another region of the package. -/
def writeWhole (fpa : Nat) (bs : List Byte) (s : State) : State := if s.isHbm fpa then homeStore fpa bs s else homeWrite fpa bs s

/-- Where a peer's own tables put an address of a tenant, or the code of a failure there: for a page that they are known to map, where they
map it; else a free value answers for them (log entry 69). -/
def peerPlace (k pkg : Nat) (t : BitVec 6) (va : Nat) (s : State) : Except Nat Nat :=
  match s.peerPages.find? fun x => x.pkg = pkg && x.tenant = t && x.page = va / 4096 with
  | some x => .ok (x.fpa + va % 4096)
  | none =>
    let x := Config.pick (s.tick + k)
    match x % 4 with
    | 0 => .error 4
    | 1 => .error 5
    | _ => .ok (pkg * 2 ^ 46 + x / 4 % 2 ^ 34 * 4096 + va % 4096)

/-- A delivery at a peer: the two lines and the signal at their homes there. -/
def deliverFar (d : Delivery) (s : State) : State :=
  let va := d.dest.toNat
  let s1 := { s with tick := s.tick + 2 }
  match peerPlace 0 d.pkg d.tenant va s, peerPlace (if (va + 256) / 4096 = va / 4096 then 0 else 1) d.pkg d.tenant (va + 256) s with
  | .error c, _ => failBranch d c va s1
  | _, .error c => failBranch d c (va + 256) s1
  | .ok a, .ok c =>
    let s2 := homeWrite a (d.payload.take 128) s1
    let s3 := homeWrite (a + 128) (d.payload.drop 128) s2
    endBranch d (homeWrite c (toBytes 8 (ofBytes (s3.mem.read c 8) + 1)) s3)

/-- What was sent before on the stream stands before this branch: of a multicast the packets, and the multicasts of every group, on their way
or in a residue entry; of a result the group's results (15 R327, R357). -/
def branchBehind (d : Delivery) (s : State) : Bool :=
  if d.counted then
    multicastAhead s d.sender d.pkg d.id ||
      s.packets.any fun q => q.id < d.id && q.src = d.sender && q.dest = d.pkg && !q.applied && !q.kind.apart
  else s.branches.any fun x => !x.counted && x.id < d.id && x.sender = d.sender && x.pkg = d.pkg && x.group = d.group

/-- MULTICAST_DELIVERY, here or at a peer. -/
def deliverBranch (id : Nat) (s : State) : State :=
  match s.deliveries.find? fun d => d.id = id with
  | none => s
  | some d =>
    let plane := ((s.groups.find? fun g => g.id = d.group).map Group.plane).getD 0
    let down := if d.pkg = s.pkg.toNat then !s.linkUp plane else s.downLinks.contains (d.pkg, plane)
    if branchBehind d s then s
    else if down then failBranch d 1 0 s
    else if d.pkg != s.pkg.toNat then deliverFar d s
    else
      let va := d.dest.toNat
      match translateBranch d.tenant [va, va + 128, va + 256] s with
      | .wait s1 => s1
      | .bad w s1 => failBranch d (if w.group = 1 then 4 else 5) w.addr s1
      | .ok l s1 =>
        let a := l.getD 0 0
        let b := l.getD 1 0
        let c := l.getD 2 0
        if !(s1.isLocal a && s1.isLocal b && s1.isLocal c) then failBranch d 5 va s1
        else if homeWaits a 128 s1 || homeWaits b 128 s1 then s1
        else
          match homeAdd ⟨hubCore, d.tenant, 0, false⟩ c 1 (writeWhole b (d.payload.drop 128) (writeWhole a (d.payload.take 128) s1)) with
          | some s2 => endBranch d s2
          | none => s1

/-- RESIDUE_SEND: credit has returned for a blocked branch of an entry. -/
def sendResidue (sw port entry : Nat) (s : State) : State :=
  match s.residues.find? fun r => r.sw = sw && r.port = port && r.entry = entry with
  | some r =>
    match r.branches with
    | d :: rest =>
      { s with
        deliveries := s.deliveries ++ [d]
        residues := if rest.isEmpty then s.residues.filter fun x => !(x.sw = sw && x.port = port && x.entry = entry)
          else mapIf (fun x => x.sw = sw && x.port = port && x.entry = entry) (fun x => { x with branches := rest }) s.residues }
    | [] => s
  | none => s

/-- WC_AGE_DRAIN (15 R330). -/
def execWcAgeDrain (core : Nat) (line : Nat) (s : State) : Out :=
  .next (drainAged core line s)

/-- WRITE_PACKET_APPLY (15 R327, R331). -/
def execWritePacketApply (packet : Nat) (s : State) : Out :=
  .next (applyPacket packet s)

/-- ACKNOWLEDGE_RECEIVE (15 R332). -/
def execAcknowledgeReceive (packet : Nat) (s : State) : Out :=
  .next (receiveAck packet s)

/-- REMOTE_FAULT_REPORT (15 R333, R342, R360). -/
def execRemoteFaultReport (packet code : Nat) (s : State) : Out :=
  .next (packetFails packet code s)

/-- RETRANSMIT (15 R338, R339). -/
def execRetransmit (packet : Nat) (s : State) : Out :=
  .next (retransmit packet s)

/-- RECOVERY_DISCARD (15 R337). -/
def execRecoveryDiscard (packet : Nat) (s : State) : Out :=
  .next (discardPacket packet s)

/-- KEY_ROLLOVER (15 R340). -/
def execKeyRollover (link : Nat) (s : State) : Out :=
  .next (setLink link rollKey s)

/-- DRAINED_FLIT (15 R340). -/
def execDrainedFlit (link : Nat) (s : State) : Out :=
  .next (setLink link retireKey s)

/-- FLIT_AUTHENTICATION_FAILURE (15 R340). -/
def execFlitAuthenticationFailure (link : Nat) (s : State) : Out :=
  .next (setLink link flitFails s)

/-- LINK_DOWN (15 R340; 19 R416). -/
def execLinkDown (link : Nat) (s : State) : Out :=
  .next (linkFails link s)

/-- SWITCH_LOST (15 R347). -/
def execSwitchLost (sw : Nat) (s : State) : Out :=
  .next (loseSwitch sw s)

/-- SWITCH_REPLACED (15 R348). -/
def execSwitchReplaced (sw : Nat) (s : State) : Out :=
  .next (replaceSwitch sw s)

/-- MULTICAST_DELIVERY (15 R350, R352, R353). -/
def execMulticastDelivery (delivery : Nat) (s : State) : Out :=
  .next (deliverBranch delivery s)

/-- REDUCTION_CONTRIBUTION (15 R353). -/
def execReductionContribution (contribution : Nat) (s : State) : Out :=
  .next (takeContribution contribution s)

/-- RESIDUE_SEND (15 R357). -/
def execResidueSend (sw port entry : Nat) (s : State) : Out :=
  .next (sendResidue sw port entry s)

/-- GROUP_INSTALL (15 R349). -/
def execGroupInstall (group tenant : Nat) (members : List Nat) (s : State) : Out :=
  .next (installGroup group tenant members s)

/-- GROUP_REINSTALL (15 R350). -/
def execGroupReinstall (group plane : Nat) (s : State) : Out :=
  .next (reinstallGroup group plane s)

/-- SWITCH_TABLE_WRITE (15 R341). -/
def execSwitchTableWrite (sw plane state generation : Nat) (s : State) : Out :=
  .next (writeSwitch sw plane state generation s)

/-- QUOTA_SET (15 R346). -/
def execQuotaSet (tenant sw granules : Nat) (s : State) : Out :=
  .next (setQuota tenant sw granules s)

/-- LINK_STATE_UPDATE (15 R326; 19 R416, R425). -/
def execLinkStateUpdate (pkg plane : Nat) (up : Bool) (s : State) : Out :=
  .next (linkState pkg plane up s)

end Sys2Proof.Machine
end

