-- ==== Sys2Proof/Machine/HostEvents.lean ====
section
/-! DEFINITION. Meanings: events of the dispatch engine and the host (18, 19 R411-R418, R424). -/

namespace Sys2Proof.Machine

/-- A write of a word of a tenant record (18 R406). -/
def recordWrite (t off : Nat) (v : Dword) (s : State) : State :=
  if t < 64 ∧ off % 8 = 0 ∧ off < 1024 then writeTenant (BitVec.ofNat 6 t) off v.toNat s else s

/-- A write of 1 to the write-refused bit; while the tenant is being reset its record takes no write (19 R411). -/
def clearRefused (t : BitVec 6) (s : State) : State :=
  if (s.tenant t).resetting then s else s.setTenant t fun T => { T with refused := false }

/-- A host write of a 64-bit word of BAR0; behind one of doorbells the engine takes entries (18 R390). -/
def hostWrite (off : Nat) (v : Dword) (s : State) : State :=
  if off % 8 != 0 then s
  else
    let s1 := writeReg off v.toNat true true s
    if 0x20000 ≤ off ∧ off < 0x21000 then takeAll s1 else s1

/-- The tenant table's bytes (19 R424). -/
def tableBytes (s : State) : List Byte :=
  (List.range 64).flatMap fun t => (List.range 128).flatMap fun k => toBytes 8 (tenantWord (s.tenant (BitVec.ofNat 6 t)) (8 * k))

/-- An SPDM answer: index 0 the certificate, 1 to 3 a signed measurement. -/
def spdmAnswer (index : Nat) (s : State) : State :=
  let signed (d : BitVec 512) : List Byte := toBytes 64 d.toNat ++ Config.ed448Sign d
  let b := match index with
    | 0 => Config.certificate
    | 1 => signed (Config.shake256 s.unit.firmware)
    | 2 => signed (Config.shake256 Config.fusedConfig)
    | 3 => signed (Config.shake256 (tableBytes s))
    | _ => []
  { s with host := { s.host with spdm := b } }

def outsideError (origin : Nat) (detail : BitVec 128) (s : State) : State :=
  if origin ≤ 12 then postEvent ⟨3, origin, 0xFF, 0, detail, 0⟩ s else s

/-- HOST_DOORBELL (18 R390). -/
def execHostDoorbell (tenant queue tail : Nat) (s : State) : Out :=
  .next (hostDoorbell tenant queue tail s)

/-- NODE_ADMIT (18 R393, R394). -/
def execNodeAdmit (admission : Nat) (s : State) : Out :=
  .next (nodeAdmit admission s)

/-- PREDECESSOR_SIGNAL (18 R395). -/
def execPredecessorSignal (signal : Nat) (s : State) : Out :=
  .next (predecessorSignal signal s)

/-- ENSEMBLE_PLACE (18 R397-R404; 12 R286). -/
def execEnsemblePlace (node : Nat) (places : List Nat) (s : State) : Out :=
  .next (placeEnsemble node places s)

/-- ENSEMBLE_RESTORE (18 R399, R402; 06 R191). -/
def execEnsembleRestore (ensemble : Nat) (places : List Nat) (s : State) : Out :=
  .next (restoreAt ensemble places s)

/-- NODE_COMPLETE (18 R403; 13 R319). -/
def execNodeComplete (node : Nat) (s : State) : Out :=
  .next (nodeComplete node s)

/-- SAVE_LIMIT_PASSED (18 R401). -/
def execSaveLimitPassed (ensemble : Nat) (s : State) : Out :=
  .next (saveLimitPassed ensemble s)

/-- TENANT_RECORD_WRITE (18 R406; 19 R411). -/
def execTenantRecordWrite (tenant offset : Nat) (value : BitVec 64) (s : State) : Out :=
  .next (recordWrite tenant offset value s)

/-- WRITE_REFUSED_CLEAR (18 R406). -/
def execWriteRefusedClear (tenant : Nat) (s : State) : Out :=
  .next (clearRefused (BitVec.ofNat 6 tenant) s)

/-- EVENT_OVERFLOW_CLEAR (19 R414). -/
def execEventOverflowClear (s : State) : Out :=
  .next (writeReg 0x10 2 true false s)

/-- EVENT_QUEUE_HEAD_WRITE (19 R417). -/
def execEventQueueHeadWrite (head : Nat) (s : State) : Out :=
  .next (writeReg 0x30010 (head % 65536) true true s)

/-- REGISTER_WRITE (19 R413-R418). -/
def execRegisterWrite (offset : Nat) (value : BitVec 64) (s : State) : Out :=
  .next (hostWrite offset value s)

/-- SPDM_REQUEST (19 R424). -/
def execSpdmRequest (index : Nat) (s : State) : Out :=
  .next (spdmAnswer index s)

/-- UNCORRECTABLE_ERROR_OUTSIDE_GANG (19 R416). -/
def execUncorrectableErrorOutsideGang (origin : Nat) (detail : BitVec 128) (s : State) : Out :=
  .next (outsideError origin detail s)

end Sys2Proof.Machine
end

