-- ==== Sys2Proof/Machine/Packed.lean ====
section
/-! DEFINITION. Meanings: the packed 16-bit float words of major 0x10 (04 R123). -/

namespace Sys2Proof.Machine

/-- `vadd_bf16` (04 R123). -/
def execVaddBf16 (d : BitVec 7) (a : BitVec 7) (b : BitVec 7) (s : State) : Out :=
  .next (blockWord (shV 16 d.toNat a.toNat b.toNat) false d.toNat a.toNat b.toNat (lane3f (packed (pAdd bf16))) s)

/-- `vmul_bf16` (04 R123). -/
def execVmulBf16 (d : BitVec 7) (a : BitVec 7) (b : BitVec 7) (s : State) : Out :=
  .next (blockWord (shV 16 d.toNat a.toNat b.toNat) false d.toNat a.toNat b.toNat (lane3f (packed (pMul bf16))) s)

/-- `vfma_bf16` (04 R123). -/
def execVfmaBf16 (d : BitVec 7) (a : BitVec 7) (b : BitVec 7) (s : State) : Out :=
  .next (blockWord (shVD 16 d.toNat a.toNat b.toNat) false d.toNat a.toNat b.toNat (lane3f (packed (pFma bf16))) s)

/-- `vsub_bf16` (04 R123). -/
def execVsubBf16 (d : BitVec 7) (a : BitVec 7) (b : BitVec 7) (s : State) : Out :=
  .next (blockWord (shV 16 d.toNat a.toNat b.toNat) false d.toNat a.toNat b.toNat (lane3f (packed (pSub bf16))) s)

/-- `vmin_bf16` (04 R123). -/
def execVminBf16 (d : BitVec 7) (a : BitVec 7) (b : BitVec 7) (s : State) : Out :=
  .next (blockWord (shV 16 d.toNat a.toNat b.toNat) false d.toNat a.toNat b.toNat (lane3f (packed (pMinMax bf16 false))) s)

/-- `vmax_bf16` (04 R123). -/
def execVmaxBf16 (d : BitVec 7) (a : BitVec 7) (b : BitVec 7) (s : State) : Out :=
  .next (blockWord (shV 16 d.toNat a.toNat b.toNat) false d.toNat a.toNat b.toNat (lane3f (packed (pMinMax bf16 true))) s)

/-- `vdot2_f32_bf16` (04 R123). -/
def execVdot2F32Bf16 (d : BitVec 7) (a : BitVec 7) (b : BitVec 7) (s : State) : Out :=
  .next (blockWord (shVD 16 d.toNat a.toNat b.toNat) false d.toNat a.toNat b.toNat (lane3f (fDot2 bf16)) s)

/-- `vadd_f16` (04 R123). -/
def execVaddF16 (d : BitVec 7) (a : BitVec 7) (b : BitVec 7) (s : State) : Out :=
  .next (blockWord (shV 16 d.toNat a.toNat b.toNat) false d.toNat a.toNat b.toNat (lane3f (packed (pAdd fp16))) s)

/-- `vmul_f16` (04 R123). -/
def execVmulF16 (d : BitVec 7) (a : BitVec 7) (b : BitVec 7) (s : State) : Out :=
  .next (blockWord (shV 16 d.toNat a.toNat b.toNat) false d.toNat a.toNat b.toNat (lane3f (packed (pMul fp16))) s)

/-- `vfma_f16` (04 R123). -/
def execVfmaF16 (d : BitVec 7) (a : BitVec 7) (b : BitVec 7) (s : State) : Out :=
  .next (blockWord (shVD 16 d.toNat a.toNat b.toNat) false d.toNat a.toNat b.toNat (lane3f (packed (pFma fp16))) s)

/-- `vsub_f16` (04 R123). -/
def execVsubF16 (d : BitVec 7) (a : BitVec 7) (b : BitVec 7) (s : State) : Out :=
  .next (blockWord (shV 16 d.toNat a.toNat b.toNat) false d.toNat a.toNat b.toNat (lane3f (packed (pSub fp16))) s)

/-- `vmin_f16` (04 R123). -/
def execVminF16 (d : BitVec 7) (a : BitVec 7) (b : BitVec 7) (s : State) : Out :=
  .next (blockWord (shV 16 d.toNat a.toNat b.toNat) false d.toNat a.toNat b.toNat (lane3f (packed (pMinMax fp16 false))) s)

/-- `vmax_f16` (04 R123). -/
def execVmaxF16 (d : BitVec 7) (a : BitVec 7) (b : BitVec 7) (s : State) : Out :=
  .next (blockWord (shV 16 d.toNat a.toNat b.toNat) false d.toNat a.toNat b.toNat (lane3f (packed (pMinMax fp16 true))) s)

/-- `vdot2_f32_f16` (04 R123). -/
def execVdot2F32F16 (d : BitVec 7) (a : BitVec 7) (b : BitVec 7) (s : State) : Out :=
  .next (blockWord (shVD 16 d.toNat a.toNat b.toNat) false d.toNat a.toNat b.toNat (lane3f (fDot2 fp16)) s)

end Sys2Proof.Machine
end

