-- ==== Sys2Proof/Machine/Predicate.lean ====
section
/-! DEFINITION. Meanings: the scalar compares and predicate words of major 0x04 (04 R114). -/

namespace Sys2Proof.Machine

/-- `seq` (04 R114). -/
def execSeq (d : BitVec 5) (a : BitVec 5) (b : BitVec 5) (s : State) : Out :=
  .next (scalar2 (shS 4 d.toNat [a.toNat, b.toNat]) d.toNat a.toNat b.toNat (fun x y => if x == y then 1 else 0) s)

/-- `sne` (04 R114). -/
def execSne (d : BitVec 5) (a : BitVec 5) (b : BitVec 5) (s : State) : Out :=
  .next (scalar2 (shS 4 d.toNat [a.toNat, b.toNat]) d.toNat a.toNat b.toNat (fun x y => if x != y then 1 else 0) s)

/-- `slt_i64` (04 R114). -/
def execSltI64 (d : BitVec 5) (a : BitVec 5) (b : BitVec 5) (s : State) : Out :=
  .next (scalar2 (shS 4 d.toNat [a.toNat, b.toNat]) d.toNat a.toNat b.toNat (fun x y => if x.slt y then 1 else 0) s)

/-- `sle_i64` (04 R114). -/
def execSleI64 (d : BitVec 5) (a : BitVec 5) (b : BitVec 5) (s : State) : Out :=
  .next (scalar2 (shS 4 d.toNat [a.toNat, b.toNat]) d.toNat a.toNat b.toNat (fun x y => if x.sle y then 1 else 0) s)

/-- `slt_n64` (04 R114). -/
def execSltN64 (d : BitVec 5) (a : BitVec 5) (b : BitVec 5) (s : State) : Out :=
  .next (scalar2 (shS 4 d.toNat [a.toNat, b.toNat]) d.toNat a.toNat b.toNat (fun x y => if x.ult y then 1 else 0) s)

/-- `sle_n64` (04 R114). -/
def execSleN64 (d : BitVec 5) (a : BitVec 5) (b : BitVec 5) (s : State) : Out :=
  .next (scalar2 (shS 4 d.toNat [a.toNat, b.toNat]) d.toNat a.toNat b.toNat (fun x y => if x.ule y then 1 else 0) s)

/-- `pand` (04 R114). -/
def execPand (d : BitVec 3) (a : BitVec 3) (b : BitVec 3) (s : State) : Out :=
  .next (predWord ({ major := 4, pw := [d.toNat], pr := [a.toNat, b.toNat] }) d.toNat (fun r => let x := r.preg a.toNat; let y := r.preg b.toNat; x &&& y) s)

/-- `por` (04 R114). -/
def execPor (d : BitVec 3) (a : BitVec 3) (b : BitVec 3) (s : State) : Out :=
  .next (predWord ({ major := 4, pw := [d.toNat], pr := [a.toNat, b.toNat] }) d.toNat (fun r => let x := r.preg a.toNat; let y := r.preg b.toNat; x ||| y) s)

/-- `pxor` (04 R114). -/
def execPxor (d : BitVec 3) (a : BitVec 3) (b : BitVec 3) (s : State) : Out :=
  .next (predWord ({ major := 4, pw := [d.toNat], pr := [a.toNat, b.toNat] }) d.toNat (fun r => let x := r.preg a.toNat; let y := r.preg b.toNat; x ^^^ y) s)

/-- `pandn` (04 R114). -/
def execPandn (d : BitVec 3) (a : BitVec 3) (b : BitVec 3) (s : State) : Out :=
  .next (predWord ({ major := 4, pw := [d.toNat], pr := [a.toNat, b.toNat] }) d.toNat (fun r => let x := r.preg a.toNat; let y := r.preg b.toNat; x &&& ~~~y) s)

/-- `pnot` (04 R114). -/
def execPnot (d : BitVec 3) (a : BitVec 3) (s : State) : Out :=
  .next (predWord ({ major := 4, pw := [d.toNat], pr := [a.toNat] }) d.toNat (fun r => ~~~(r.preg a.toNat)) s)

/-- `ppopc` (04 R114). -/
def execPpopc (d : BitVec 5) (a : BitVec 3) (s : State) : Out :=
  .next (scalarWord ({ major := 4, sw := [d.toNat], pr := [a.toNat] }) d.toNat (fun r => BitVec.ofNat 64 (popCount 32 (r.preg a.toNat).toNat)) s)

/-- `pffs` (04 R114). -/
def execPffs (d : BitVec 5) (a : BitVec 3) (s : State) : Out :=
  .next (scalarWord ({ major := 4, sw := [d.toNat], pr := [a.toNat] }) d.toNat (fun r => BitVec.ofNat 64 (trailingZeros 32 (r.preg a.toNat).toNat)) s)

/-- `pfill` (04 R114). -/
def execPfill (d : BitVec 3) (a : BitVec 5) (s : State) : Out :=
  .next (predWord ({ major := 4, pw := [d.toNat], sr := [a.toNat] }) d.toNat (fun r => if r.sreg a.toNat = 0 then 0 else 0xFFFFFFFF) s)

end Sys2Proof.Machine
end

