-- ==== Sys2Proof/Machine/ResetEvents.lean ====
section
/-! DEFINITION. Meanings: resets, firmware, power and cooling (18 R410; 19 R411, R419-R426). -/

namespace Sys2Proof.Machine

/-! ## Removing nodes without a signal -/

/-- Nodes leave the machine with their crews, gangs, commands and tasks; no signal is written. -/
def removeNodes (gone : Word → Bool) (s : State) : State :=
  let out (u : Nat) : Bool := s.allGangs.any fun g => g.uid = u && gone g.node
  let crewOut (u : Nat) : Bool := s.crews.any fun c => c.uid = u && gone c.node
  { s with
    g := if s.g.status != .vacant && gone s.g.node then Gang.vacant else s.g
    gangs := s.gangs.filter fun g => !gone g.node
    crews := s.crews.filter fun c => !gone c.node
    ensembles := s.ensembles.filter fun e => !gone e.node
    nodes := (s.nodes.filter fun n => !gone n.id).map fun n => { n with fenceOn := n.fenceOn.filter fun i => !gone i }
    locks := dropLocks out s.locks
    releases := s.releases.filter fun r => !out r.gang
    fills := s.fills.map fun f => { f with waiters := f.waiters.filter fun w => !out w.1 }
    parkedCmds := s.parkedCmds.filter fun c => !gone c.2.node
    parkedMatrix := s.parkedMatrix.filter fun c => !crewOut c.1
    hold := match s.hold with
      | some h => if gone h.1 then none else some h
      | none => none
    cores := s.cores.map fun (k, c) => (k, { c with
      cmds := c.cmds.filter fun x => !gone x.node
      tasks := c.tasks.filter fun x => !gone x.node
      matrixOf := match c.matrixOf with
        | some u => if crewOut u then none else some u
        | none => none
      tables := c.tables.filter fun t => !gone t.1 }) }

/-- Queues disabled, heads set to tails (18 R410, 19 R419). -/
def Tenant.stopQueues (T : Tenant) : Tenant := { T with queues := T.queues.map fun q => { q with enabled := false, head := q.tail } }

/-! ## The reset of one tenant (18 R410) -/

/-- Its twins are dropped on every die, with their lines; its waiter entries go (12 R293). -/
def dropTwins (t : BitVec 6) (s : State) : State :=
  { s with
    waiters := s.waiters.filter fun w => w.tenant != t
    dies := s.dies.map fun D => { D with lines := D.lines.filter fun l => match l.twin with
      | some w => w.tenant != t
      | none => true } }

/-- L1 copies of lines that a die has dropped go too. -/
def dropOrphans (t : BitVec 6) (s : State) : State :=
  (List.range 8).foldl (fun s d =>
    let bad := ((s.die d).lines.filter fun l => match l.twin with
      | some w => w.tenant = t
      | none => false).map fun l => l.line
    dropL1s d (fun k => bad.contains (k / 4)) s) s

def resetTenant (t : BitVec 6) (s : State) : State :=
  if !(s.tenant t).resetting then s
  else
    let ids := (s.nodes.filter fun n => n.desc.owner = t).map Node.id
    let s1 := s.setTenant t fun T => { T.stopQueues with ctxUsed := [] }
    let s2 := removeNodes (fun i => ids.contains i) { s1 with
      admissions := s1.admissions.filter fun a => a.tenant != t
      predSignals := s1.predSignals.filter fun p => p.tenant != t
      tokens := s1.tokens.filter fun p => p.tenant != t }
    let s3 := { s2 with cores := s2.cores.map fun (k, c) => (k, { c with
      wc := c.wc.filter fun e => e.tenant != t
      pages := c.pages.filter fun p => p.2.tenant != t }) }
    let s4 := dropTwins t (dropOrphans t s3)
    postEvent ⟨2, 12, BitVec.ofNat 8 t.toNat, 0, 0, 0⟩ (raiseTenantError t (s4.setTenant t fun T => { T with resetting := false }))

/-! ## Warm and cold reset (19 R419, R420) -/

/-- Steps 1 to 3: nothing new is accepted, every gang stopped, every command abandoned, the write-combining buffers drained. -/
def quietDown (s : State) : State :=
  let s1 := removeNodes (fun _ => true) { s with
    host := { s.host with ready := false }, admissions := [], predSignals := [], tokens := [], arrivals := [], parkedCmds := [], parkedMatrix := [] }
  s1.cores.foldl (fun s (c, k) => k.wc.foldl (fun s e => drainEntry c e.line s) s) s1

/-- Every packet sent is acknowledged or declared unreachable. -/
def allAcknowledged (s : State) : Bool := s.packets.all fun p => p.src != s.pkg.toNat

/-- Steps 4 to 7 of a warm reset, with its cause. A tenant reset that was under way is still asked for (19 R419), and the device stays in
side-band-only mode where it is (19 R422). -/
def finishWarm (cause : Byte) (s : State) : State :=
  let s1 := (List.range 8).foldl (fun s d => (s.die d).dirty.foldl (fun s l => publish d l .maintenance [] s) s) s
  -- a larger umbra pool leaves the die cache less (12 R262)
  (List.range 8).foldl (fun s d => makeRoom d 0 s) { s1 with
    cores := s1.cores.map fun (k, c) => (k, { Core.empty with l1 := c.l1 })
    fills := [], releases := [], tlb := []
    dies := Vector.ofFn fun d : Fin 8 => { s1.dies[d] with pool := s1.host.poolRegs[d].toNat, early := 0 }
    tenants := s1.tenants.map fun T => { T.stopQueues with ctxUsed := [] }
    host := { s1.host with ready := s1.unit.railOn && !s1.host.sideBandOnly, resetAsked := 0, resetCause := cause, evStalls := 0 } }

def resetDone (s : State) : State := postEvent ⟨6, 12, 0xFF, 0, 0, 0⟩ s

/-- WARM_RESET: asked for by the control block or the side-band port. Without the main rail nothing is left to reset: it ends at once. DESIGN
CHOICE (log entry 104). -/
def warmReset (s : State) : State :=
  if s.host.resetAsked = 1 || s.host.resetAsked = 3 then
    let s1 := quietDown s
    if allAcknowledged s1 then resetDone (finishWarm (if s.host.resetAsked = 3 then 5 else 2) s1) else s1
  else s

/-- Memory cells of this package's regions that a reset leaves unspecified are unlisted again (log entry 1). -/
def dropCells (lost : Region → Bool) (s : State) : Memory := s.mem.filter fun c => !(s.isLocal c.1 && lost (regionOf (ppaOf c.1)))

/-- The firmware is verified; an image that fails leaves the device in side-band-only mode (19 R423). -/
def verifyFirmware (s : State) : State :=
  let ok := Config.ed448Ok s.unit.firmware
  { s with unit := { s.unit with firmwareOk := ok }, host := { s.host with ready := ok && s.unit.railOn, sideBandOnly := !ok } }

/-- Every owned grain returns to its home, then every cache is invalid. -/
def emptyCaches (s : State) : State :=
  let s1 := s.directory.foldl (fun s e => recallGrain e true s) s
  { s1 with
    directory := [], twinHome := [], writeBacks := [], copies := []
    cores := s1.cores.map fun (k, c) => (k, { c with l1 := [], packets := [] })
    dies := s1.dies.map fun D => { Die.reset with relNo := D.relNo, pool := D.pool } }

/-- COLD_RESET: a warm reset, then the firmware, the links, and the rest of R419. -/
def coldReset (s : State) : State :=
  if s.host.resetAsked = 2 || s.host.resetAsked = 4 then
    let s1 := quietDown s
    if allAcknowledged s1 then
      let s2 := verifyFirmware (emptyCaches (finishWarm (if s.host.resetAsked = 4 then 5 else 3) s1))
      resetDone { s2 with
        mem := dropCells (· == .weight) s2
        links := Vector.replicate 18 .trained
        tenants := Vector.replicate 64 .reset
        clk := 0, clkFloor := 0 }
    else s1
  else s

/-! ## Power (19 R419, R422, R426) -/

/-- What is left of the machine without its main rail: other packages' memory and the host's, the switches, the management side. -/
def withoutRail (s : State) : State :=
  { State.reset with
    pkg := s.pkg, domain := s.domain, mem := dropCells (fun r => r == .hbm || r == .weight) s
    switches := s.switches, swAllocs := s.swAllocs, quotas := s.quotas, groups := s.groups, rounds := s.rounds
    contribs := s.contribs.filter fun c => c.pkg != s.pkg.toNat
    deliveries := s.deliveries.filter fun d => d.sender != s.pkg.toNat && d.pkg != s.pkg.toNat
    downLinks := s.downLinks, nextId := s.nextId, tick := s.tick, agenda := s.agenda
    unit := { s.unit with clockMhz := 3300, unreachable := false }
    host := { HostPort.reset with sideBand := s.host.sideBand, spdm := s.host.spdm, raised := s.host.raised } }

/-- POWER_ON_RESET. The cause is the side-band port's power cycle, a thermal trip before this start, or power-on. -/
def powerOn (s : State) : State :=
  let cause : Byte := if s.host.resetAsked = 5 then 5 else if s.unit.railOn then 1 else 4
  let s1 := withoutRail s
  let s2 := verifyFirmware { s1 with unit := { s1.unit with railOn := true }, host := { s1.host with resetCause := cause } }
  if s.host.resetAsked = 5 then resetDone s2 else s2

/-- SIDEBAND_RESET_REQUEST: the completion byte, and the reset asked for. -/
def sideBandReset (secured : Bool) (command level : Byte) (s : State) : State :=
  let code : Byte := if !secured then 2 else if command != 1 || level = 0 || 3 < level.toNat then 1 else if s.host.resetAsked != 0 then 3 else 0
  { s with host := { s.host with
      sideBand := code, resetAsked := if code = 0 then level.toNat + 2 else s.host.resetAsked } }

/-- FIRMWARE_UPDATE: the image is verified at the next power-on or cold reset. -/
def loadFirmware (image : List Byte) (s : State) : State := { s with unit := { s.unit with firmware := image } }

def setCap (w : Nat) (s : State) : State := if 2000 ≤ w ∧ w ≤ 4600 then { s with unit := { s.unit with capWatts := w } } else s

/-- An event of kind 5: the limit in the low half of the detail, the clock above it (log entry 19). -/
def powerEvent (origin limit : Nat) (s : State) : State :=
  postEvent ⟨5, origin, 0xFF, 0, BitVec.ofNat 128 (limit + s.unit.clockMhz * 2 ^ 64), 0⟩ s

/-- CLOCK_THROTTLE: one step down; at 1.2 GHz with the cap still passed, "cap unreachable" begins. -/
def lowerClock (limit : Nat) (s : State) : State :=
  if 1 < limit then s
  else if 1200 < s.unit.clockMhz then powerEvent 12 limit (rescaleEclipse (s.unit.clockMhz - 100) s)
  else if limit = 0 && !s.unit.unreachable then powerEvent 12 2 { s with unit := { s.unit with unreachable := true } }
  else s

def raiseClock (limit : Nat) (s : State) : State :=
  if limit ≤ 1 ∧ s.unit.clockMhz < 3300 then powerEvent 12 limit (rescaleEclipse (s.unit.clockMhz + 100) s) else s

def capReachable (s : State) : State :=
  if s.unit.unreachable then powerEvent 12 2 { s with unit := { s.unit with unreachable := false } } else s

/-- THERMAL_TRIP of any of the thirteen dies (00 R5; 19 R416): the event, then the rail goes with nothing published; the next start has cause 4. -/
def thermalTrip (d : Nat) (s : State) : State :=
  if d < 13 && s.unit.railOn then
    let s1 := withoutRail (powerEvent d 1 s)
    { s1 with unit := { s1.unit with railOn := false }, host := { s1.host with ready := false } }
  else s

/-- TENANT_RESET (18 R410; 12 R293; 19 R411). -/
def execTenantReset (tenant : Nat) (s : State) : Out :=
  .next (resetTenant (BitVec.ofNat 6 tenant) s)

/-- WARM_RESET (19 R419, R420). -/
def execWarmReset (s : State) : Out :=
  .next (warmReset s)

/-- COLD_RESET (19 R419, R420, R423). -/
def execColdReset (s : State) : Out :=
  .next (coldReset s)

/-- POWER_ON_RESET (19 R419, R422, R423). -/
def execPowerOnReset (s : State) : Out :=
  .next (powerOn s)

/-- SIDEBAND_RESET_REQUEST (19 R422). -/
def execSidebandResetRequest (secured : Bool) (command level : BitVec 8) (s : State) : Out :=
  .next (sideBandReset secured command level s)

/-- FIRMWARE_UPDATE (19 R421, R423). -/
def execFirmwareUpdate (image : List (BitVec 8)) (s : State) : Out :=
  .next (loadFirmware image s)

/-- POWER_CAP_SET (19 R426). -/
def execPowerCapSet (watts : Nat) (s : State) : Out :=
  .next (setCap watts s)

/-- CLOCK_THROTTLE (19 R426). -/
def execClockThrottle (limit : Nat) (s : State) : Out :=
  .next (lowerClock limit s)

/-- CLOCK_RAISE (19 R426). -/
def execClockRaise (limit : Nat) (s : State) : Out :=
  .next (raiseClock limit s)

/-- CAP_UNREACHABLE_END (19 R426). -/
def execCapUnreachableEnd (s : State) : Out :=
  .next (capReachable s)

/-- THERMAL_TRIP (19 R426). -/
def execThermalTrip (die : Nat) (s : State) : Out :=
  .next (thermalTrip die s)

end Sys2Proof.Machine
end

