-- ==== Sys2Proof/Machine/Select.lean ====
section
/-! DEFINITION. Meanings: select, broadcast and move of major 0x14 (04 R129). -/

namespace Sys2Proof.Machine

/-- `vins`: one lane of every block element, whatever the mask. -/
def insertWord (sh : Shape) (d sa n : Nat) (s : State) : State :=
  issue sh (fun s =>
    let x := (s.src.sreg sa).setWidth 32
    s.setR fun r => (sh.blk s).offsets.foldl (fun r k => r.setV (d + k) ((r.vreg (d + k)).setIfInBounds n x)) r) s

/-- `vmov` (04 R129). -/
def execVmov (d : BitVec 7) (a : BitVec 7) (s : State) : Out :=
  .next (blockWord (shV1 20 d.toNat a.toNat) false d.toNat a.toNat 0 (lane1 fun x => x) s)

/-- `vli` (04 R129). -/
def execVli (d : BitVec 7) (i : BitVec 14) (s : State) : Out :=
  .next (blockWord ({ major := 0x14, block := true, dst := [d.toNat] }) false d.toNat 0 0 (fun _ _ _ _ _ _ => (i.signExtend 32, 0)) s)

/-- `vbcast` (04 R129). -/
def execVbcast (d : BitVec 7) (sc : BitVec 5) (s : State) : Out :=
  .next (blockWord ({ major := 0x14, block := true, dst := [d.toNat], sr := [sc.toNat] }) false d.toNat 0 0 (fun q _ _ _ _ _ => ((q.sreg sc.toNat).setWidth 32, 0)) s)

/-- `vbcasth` (04 R129). -/
def execVbcasth (d : BitVec 7) (sc : BitVec 5) (s : State) : Out :=
  .next (blockWord ({ major := 0x14, block := true, dst := [d.toNat], sr := [sc.toNat] }) false d.toNat 0 0 (fun q _ _ _ _ _ => ((q.sreg sc.toNat).extractLsb' 32 32, 0)) s)

/-- `vpmask` (04 R129). -/
def execVpmask (d : BitVec 7) (p : BitVec 3) (s : State) : Out :=
  .next (blockWord ({ major := 0x14, block := true, dst := [d.toNat], pr := [p.toNat] }) false d.toNat 0 0 (fun q L _ _ _ _ => (if lane (q.preg p.toNat) L then 0xFFFFFFFF else 0, 0)) s)

/-- `vins` (04 R129). -/
def execVins (d : BitVec 7) (sc : BitVec 5) (n : BitVec 5) (s : State) : Out :=
  .next (insertWord ({ major := 0x14, block := true, dst := [d.toNat], sr := [sc.toNat] }) d.toNat sc.toNat n.toNat s)

/-- `vsel` (04 R129). -/
def execVsel (d : BitVec 7) (a : BitVec 7) (b : BitVec 7) (k : BitVec 3) (s : State) : Out :=
  .next (blockWord ({ shV 0x14 d.toNat a.toNat b.toNat with pr := [k.toNat] }) false d.toNat a.toNat b.toNat (fun q L x y _ _ => (if lane (q.preg k.toNat) L then x else y, 0)) s)

end Sys2Proof.Machine
end

