-- ==== Sys2Proof/WellFormed.lean ====
section
/-! DEFINITION. Which instructions are well formed: the field values an encoding admits under R75 whatever the node and the
core (03_gang_words.md; the checks that depend on them are `issueTrap`, Machine/Issue.lean). -/

namespace Sys2Proof

/-- Scalar-kind special registers by number (04 R97). -/
def isScalarSpecial (x : Nat) : Bool :=
  x ≤ 2 || x = 4 || x = 5 || (0x010 ≤ x && x ≤ 0x017) || (0x021 ≤ x && x ≤ 0x028) || (0x040 ≤ x && x ≤ 0x046) ||
    (0x048 ≤ x && x ≤ 0x04B)

/-- Vector-kind special registers: `%srnd` and `%lane` (04 R97). -/
def isVectorSpecial (x : Nat) : Bool := x = 3 || x = 0x020

/-- The special registers a move may write (04 R97); a write to `%tslot0` is accepted and ignored (01 R34). -/
def isWritableSpecial (x : Nat) : Bool :=
  x ≤ 3 || (0x010 ≤ x && x ≤ 0x017) || (0x040 ≤ x && x ≤ 0x046) || (0x048 ≤ x && x ≤ 0x04B)

/-- The rows with an encoding are words; the rest are steps of the machine. -/
def Instr.isWord : Instr → Bool
  | .mwaitTimeout _ => false
  | .sleepEnd _ => false
  | .sectorLanded _ _ => false
  | .copyCommandComplete _ _ => false
  | .copyFaultReport _ _ => false
  | .taskStart _ => false
  | .kgroupCompute _ _ => false
  | .taskComplete _ _ => false
  | .arrivalApply _ => false
  | .peerAcknowledge _ _ => false
  | .matrixFaultReport _ _ => false
  | .lockGrant _ => false
  | .earlyPublication _ => false
  | .evictionPublication _ _ => false
  | .recordApply _ => false
  | .releaseComplete _ => false
  | .forwardedCopyApply _ => false
  | .fillArrival _ => false
  | .writeBackApply _ => false
  | .accessComplete _ _ => false
  | .takeTrap _ => false
  | .watchdog _ => false
  | .uncorrectableError _ _ _ => false
  | .wcAgeDrain _ _ => false
  | .writePacketApply _ => false
  | .acknowledgeReceive _ => false
  | .remoteFaultReport _ _ => false
  | .retransmit _ => false
  | .recoveryDiscard _ => false
  | .keyRollover _ => false
  | .drainedFlit _ => false
  | .linkDown _ => false
  | .switchLost _ => false
  | .switchReplaced _ => false
  | .multicastDelivery _ => false
  | .reductionContribution _ => false
  | .residueSend _ _ _ => false
  | .groupInstall _ _ _ => false
  | .groupReinstall _ _ => false
  | .switchTableWrite _ _ _ _ => false
  | .quotaSet _ _ _ => false
  | .linkStateUpdate _ _ _ => false
  | .hostDoorbell _ _ _ => false
  | .nodeAdmit _ => false
  | .predecessorSignal _ => false
  | .ensemblePlace _ _ => false
  | .ensembleRestore _ _ => false
  | .nodeComplete _ => false
  | .eclipseWindowStart _ => false
  | .eclipseWindowEnd _ => false
  | .tenantRecordWrite _ _ _ => false
  | .writeRefusedClear _ => false
  | .tenantReset _ => false
  | .warmReset => false
  | .coldReset => false
  | .powerOnReset => false
  | .eventOverflowClear => false
  | .eventQueueHeadWrite _ => false
  | .registerWrite _ _ => false
  | .hostMemLoad _ _ => false
  | .hostMemStore _ _ => false
  | .sidebandResetRequest _ _ _ => false
  | .firmwareUpdate _ => false
  | .spdmRequest _ => false
  | .powerCapSet _ => false
  | .clockThrottle _ => false
  | .clockRaise _ => false
  | .thermalTrip _ => false
  | .spuriousWake _ => false
  | .saveLimitPassed _ => false
  | .remoteLoadOrAtomicServe _ => false
  | .flitAuthenticationFailure _ => false
  | .voluntaryWriteBack _ _ => false
  | .capUnreachableEnd => false
  | .uncorrectableErrorOutsideGang _ _ => false
  | _ => true

/-- An instruction whose fields every node and core accept. -/
def Instr.WellFormed : Instr → Prop
  | .sadd d a b => ¬(d.toNat = 0 ∧ a.toNat = 0 ∧ b.toNat = 0)
  | .sldNf _ _ _ t _ => t.toNat ≠ 0
  | .sstNf _ _ _ t _ => t.toNat ≠ 0
  | .vcvtF32I32 _ _ m => m.toNat ≤ 4
  | .vcvtF32N32 _ _ m => m.toNat ≤ 4
  | .vcvtI32F32 _ _ m => m.toNat ≤ 4
  | .vcvtN32F32 _ _ m => m.toNat ≤ 4
  | .vcvtBf16F32 _ _ m => m.toNat ≤ 4
  | .vcvtF16F32 _ _ m => m.toNat ≤ 4
  | .vcvtF32Bf16 _ _ m => m.toNat ≤ 4
  | .vcvtF32F16 _ _ m => m.toNat ≤ 4
  | .vcvtNfF32 _ _ m t => t.toNat ≠ 0 ∧ m.toNat ≤ 4
  | .vcvtF32Nf _ _ m t => t.toNat ≠ 0 ∧ m.toNat ≤ 4
  | .vcvtE4m3F32 _ _ m => m.toNat ≤ 4
  | .vcvtE5m2F32 _ _ m => m.toNat ≤ 4
  | .vcvtF32E4m3 _ _ m => m.toNat ≤ 4
  | .vcvtF32E5m2 _ _ m => m.toNat ≤ 4
  | .vcvthiBf16F32 _ _ m => m.toNat ≤ 4
  | .vcvthiF16F32 _ _ m => m.toNat ≤ 4
  | .ldNf _ _ _ t _ => t.toNat ≠ 0
  | .stNf _ _ _ t _ => t.toNat ≠ 0
  | .pldNf _ _ t _ => t.toNat ≠ 0
  | .pstNf _ _ t _ => t.toNat ≠ 0
  | .pldB64 d _ _ => d.toNat ≤ 126
  | .pstB64 v _ _ => v.toNat ≤ 126
  | .ldtrB16 d _ _ _ => d.toNat ≤ 126
  | .ldtrB32 d _ _ _ => d.toNat ≤ 124
  | .atomAdd a s _ w _ => w.toNat ≤ 1 ∧ s.toNat ≤ 6 ∧ a.toNat + (w.toNat + 1) ≤ 127
  | .redAdd a s _ w _ => w.toNat ≤ 1 ∧ s.toNat ≤ 6 ∧ a.toNat + (w.toNat + 1) ≤ 127
  | .atomAnd a s _ w _ => w.toNat ≤ 1 ∧ s.toNat ≤ 6 ∧ a.toNat + (w.toNat + 1) ≤ 127
  | .redAnd a s _ w _ => w.toNat ≤ 1 ∧ s.toNat ≤ 6 ∧ a.toNat + (w.toNat + 1) ≤ 127
  | .atomOr a s _ w _ => w.toNat ≤ 1 ∧ s.toNat ≤ 6 ∧ a.toNat + (w.toNat + 1) ≤ 127
  | .redOr a s _ w _ => w.toNat ≤ 1 ∧ s.toNat ≤ 6 ∧ a.toNat + (w.toNat + 1) ≤ 127
  | .atomXor a s _ w _ => w.toNat ≤ 1 ∧ s.toNat ≤ 6 ∧ a.toNat + (w.toNat + 1) ≤ 127
  | .redXor a s _ w _ => w.toNat ≤ 1 ∧ s.toNat ≤ 6 ∧ a.toNat + (w.toNat + 1) ≤ 127
  | .atomMinI a s _ w _ => w.toNat ≤ 1 ∧ s.toNat ≤ 6 ∧ a.toNat + (w.toNat + 1) ≤ 127
  | .redMinI a s _ w _ => w.toNat ≤ 1 ∧ s.toNat ≤ 6 ∧ a.toNat + (w.toNat + 1) ≤ 127
  | .atomMaxI a s _ w _ => w.toNat ≤ 1 ∧ s.toNat ≤ 6 ∧ a.toNat + (w.toNat + 1) ≤ 127
  | .redMaxI a s _ w _ => w.toNat ≤ 1 ∧ s.toNat ≤ 6 ∧ a.toNat + (w.toNat + 1) ≤ 127
  | .atomMinN a s _ w _ => w.toNat ≤ 1 ∧ s.toNat ≤ 6 ∧ a.toNat + (w.toNat + 1) ≤ 127
  | .redMinN a s _ w _ => w.toNat ≤ 1 ∧ s.toNat ≤ 6 ∧ a.toNat + (w.toNat + 1) ≤ 127
  | .atomMaxN a s _ w _ => w.toNat ≤ 1 ∧ s.toNat ≤ 6 ∧ a.toNat + (w.toNat + 1) ≤ 127
  | .redMaxN a s _ w _ => w.toNat ≤ 1 ∧ s.toNat ≤ 6 ∧ a.toNat + (w.toNat + 1) ≤ 127
  | .atomExch a s _ w _ => w.toNat ≤ 1 ∧ s.toNat ≤ 6 ∧ a.toNat + (w.toNat + 1) ≤ 127
  | .redExch a s _ w _ => w.toNat ≤ 1 ∧ s.toNat ≤ 6 ∧ a.toNat + (w.toNat + 1) ≤ 127
  | .atomCas a s _ w _ => w.toNat ≤ 1 ∧ s.toNat ≤ 6 ∧ a.toNat + 2 * (w.toNat + 1) ≤ 127
  | .atomInc a s _ w _ => w.toNat ≤ 1 ∧ s.toNat ≤ 6 ∧ a.toNat + (w.toNat + 1) ≤ 127
  | .redInc a s _ w _ => w.toNat ≤ 1 ∧ s.toNat ≤ 6 ∧ a.toNat + (w.toNat + 1) ≤ 127
  | .atomDec a s _ w _ => w.toNat ≤ 1 ∧ s.toNat ≤ 6 ∧ a.toNat + (w.toNat + 1) ≤ 127
  | .redDec a s _ w _ => w.toNat ≤ 1 ∧ s.toNat ≤ 6 ∧ a.toNat + (w.toNat + 1) ≤ 127
  | .atomFadd a s _ _ => s.toNat ≤ 6 ∧ a.toNat + 1 ≤ 127
  | .redFadd a s _ _ => s.toNat ≤ 6 ∧ a.toNat + 1 ≤ 127
  | .atomFmax a s _ _ => s.toNat ≤ 6 ∧ a.toNat + 1 ≤ 127
  | .redFmax a s _ _ => s.toNat ≤ 6 ∧ a.toNat + 1 ≤ 127
  | .atomFmin a s _ _ => s.toNat ≤ 6 ∧ a.toNat + 1 ≤ 127
  | .redFmin a s _ _ => s.toNat ≤ 6 ∧ a.toNat + 1 ≤ 127
  | .patomAdd a _ w _ => w.toNat ≤ 1 ∧ a.toNat + (w.toNat + 1) ≤ 127
  | .predAdd a _ w _ => w.toNat ≤ 1 ∧ a.toNat + (w.toNat + 1) ≤ 127
  | .patomAnd a _ w _ => w.toNat ≤ 1 ∧ a.toNat + (w.toNat + 1) ≤ 127
  | .predAnd a _ w _ => w.toNat ≤ 1 ∧ a.toNat + (w.toNat + 1) ≤ 127
  | .patomOr a _ w _ => w.toNat ≤ 1 ∧ a.toNat + (w.toNat + 1) ≤ 127
  | .predOr a _ w _ => w.toNat ≤ 1 ∧ a.toNat + (w.toNat + 1) ≤ 127
  | .patomXor a _ w _ => w.toNat ≤ 1 ∧ a.toNat + (w.toNat + 1) ≤ 127
  | .predXor a _ w _ => w.toNat ≤ 1 ∧ a.toNat + (w.toNat + 1) ≤ 127
  | .patomMinI a _ w _ => w.toNat ≤ 1 ∧ a.toNat + (w.toNat + 1) ≤ 127
  | .predMinI a _ w _ => w.toNat ≤ 1 ∧ a.toNat + (w.toNat + 1) ≤ 127
  | .patomMaxI a _ w _ => w.toNat ≤ 1 ∧ a.toNat + (w.toNat + 1) ≤ 127
  | .predMaxI a _ w _ => w.toNat ≤ 1 ∧ a.toNat + (w.toNat + 1) ≤ 127
  | .patomMinN a _ w _ => w.toNat ≤ 1 ∧ a.toNat + (w.toNat + 1) ≤ 127
  | .predMinN a _ w _ => w.toNat ≤ 1 ∧ a.toNat + (w.toNat + 1) ≤ 127
  | .patomMaxN a _ w _ => w.toNat ≤ 1 ∧ a.toNat + (w.toNat + 1) ≤ 127
  | .predMaxN a _ w _ => w.toNat ≤ 1 ∧ a.toNat + (w.toNat + 1) ≤ 127
  | .patomExch a _ w _ => w.toNat ≤ 1 ∧ a.toNat + (w.toNat + 1) ≤ 127
  | .predExch a _ w _ => w.toNat ≤ 1 ∧ a.toNat + (w.toNat + 1) ≤ 127
  | .patomCas a _ w _ => w.toNat ≤ 1 ∧ a.toNat + 2 * (w.toNat + 1) ≤ 127
  | .patomInc a _ w _ => w.toNat ≤ 1 ∧ a.toNat + (w.toNat + 1) ≤ 127
  | .predInc a _ w _ => w.toNat ≤ 1 ∧ a.toNat + (w.toNat + 1) ≤ 127
  | .patomDec a _ w _ => w.toNat ≤ 1 ∧ a.toNat + (w.toNat + 1) ≤ 127
  | .predDec a _ w _ => w.toNat ≤ 1 ∧ a.toNat + (w.toNat + 1) ≤ 127
  | .patomFadd a _ _ => a.toNat + 1 ≤ 127
  | .predFadd a _ _ => a.toNat + 1 ≤ 127
  | .patomFmax a _ _ => a.toNat + 1 ≤ 127
  | .predFmax a _ _ => a.toNat + 1 ≤ 127
  | .patomFmin a _ _ => a.toNat + 1 ≤ 127
  | .predFmin a _ _ => a.toNat + 1 ≤ 127
  | .barArrive _ _ s _ => 1 ≤ s.toNat ∧ s.toNat ≤ 4
  | .barArrivet _ _ _ s _ => 1 ≤ s.toNat ∧ s.toNat ≤ 4
  | .barWait _ _ s => 1 ≤ s.toNat ∧ s.toNat ≤ 4
  | .mfs _ x => isScalarSpecial (x.toNat)
  | .mts _ x => isScalarSpecial (x.toNat) ∧ isWritableSpecial (x.toNat)
  | .mfsv _ x => isVectorSpecial (x.toNat)
  | .mtsv _ x => isVectorSpecial (x.toNat) ∧ isWritableSpecial (x.toNat)
  | .cpLd a _ _ _ _ => a.toNat ≤ 30
  | .cpSt a _ _ _ _ => a.toNat ≤ 30
  | .cpLdq a _ _ _ _ => a.toNat ≤ 30
  | .cpFifo a _ _ _ => a.toNat ≤ 30
  | .cpMc a _ _ _ _ => a.toNat ≤ 30
  | .ldAcqB32 _ _ _ s _ => s.toNat ≤ 6
  | .stRelB32 _ _ _ s _ => s.toNat ≤ 6
  | .fence s => 1 ≤ s.toNat ∧ s.toNat ≤ 6
  | .fenceRel s => 1 ≤ s.toNat ∧ s.toNat ≤ 6
  | .fenceAcq s => 1 ≤ s.toNat ∧ s.toNat ≤ 6
  | _ => True

end Sys2Proof
end

