-- ==== Sys2Proof/Decode.lean ====
section
/-! DEFINITION. Decoding a word, total, rejecting by the name of R75; and the encoder. 03_gang_words.md R71, R73, R75 and the
function tables of the instruction chapters. -/

namespace Sys2Proof

/-- Why a 32-bit pattern is no instruction, whatever the node and the core (R75). -/
inductive Reject where
  | zeroWord | reservedMajor | reservedFunction | reservedField | reservedRounding | reservedScope | registerRange | readOnly
  deriving DecidableEq, Repr

/-- The code of group 5 (R75). -/
def Reject.code : Reject → Nat
  | .zeroWord => 0x01
  | .reservedMajor => 0x02
  | .reservedFunction => 0x03
  | .reservedField => 0x04
  | .reservedRounding => 0x05
  | .reservedScope => 0x06
  | .registerRange => 0x07
  | .readOnly => 0x0E

/-- Bits lo + len − 1 : lo of w. -/
def fld (w lo len : Nat) : Nat := w / 2 ^ lo % 2 ^ len

/-- The same bits as a bit vector. -/
def bv (w lo len : Nat) : BitVec len := BitVec.ofNat len (w / 2 ^ lo)

/-- Major 0x01. -/
noncomputable def dec01 (w : Nat) : Except Reject Instr :=
  match fld w 4 6 with
  | 0 => if fld w 0 4 = 0 then (if fld w 20 5 = 0 ∧ fld w 15 5 = 0 ∧ fld w 10 5 = 0 then .ok .nop else .ok (.sadd (bv w 20 5) (bv w 15 5) (bv w 10 5))) else .error .reservedField
  | 1 => if fld w 0 4 = 0 then .ok (.ssub (bv w 20 5) (bv w 15 5) (bv w 10 5)) else .error .reservedField
  | 2 => if fld w 0 4 = 0 then .ok (.smul (bv w 20 5) (bv w 15 5) (bv w 10 5)) else .error .reservedField
  | 3 => if fld w 0 4 = 0 then .ok (.smulhI64 (bv w 20 5) (bv w 15 5) (bv w 10 5)) else .error .reservedField
  | 4 => if fld w 0 4 = 0 then .ok (.smulhN64 (bv w 20 5) (bv w 15 5) (bv w 10 5)) else .error .reservedField
  | 5 => if fld w 0 4 = 0 then .ok (.sdivI64 (bv w 20 5) (bv w 15 5) (bv w 10 5)) else .error .reservedField
  | 6 => if fld w 0 4 = 0 then .ok (.sdivN64 (bv w 20 5) (bv w 15 5) (bv w 10 5)) else .error .reservedField
  | 7 => if fld w 0 4 = 0 then .ok (.sremI64 (bv w 20 5) (bv w 15 5) (bv w 10 5)) else .error .reservedField
  | 8 => if fld w 0 4 = 0 then .ok (.sremN64 (bv w 20 5) (bv w 15 5) (bv w 10 5)) else .error .reservedField
  | 9 => if fld w 0 4 = 0 then .ok (.sand (bv w 20 5) (bv w 15 5) (bv w 10 5)) else .error .reservedField
  | 10 => if fld w 0 4 = 0 then .ok (.sor (bv w 20 5) (bv w 15 5) (bv w 10 5)) else .error .reservedField
  | 11 => if fld w 0 4 = 0 then .ok (.sxor (bv w 20 5) (bv w 15 5) (bv w 10 5)) else .error .reservedField
  | 12 => if fld w 0 4 = 0 then .ok (.sandn (bv w 20 5) (bv w 15 5) (bv w 10 5)) else .error .reservedField
  | 13 => if fld w 0 4 = 0 then .ok (.sshl (bv w 20 5) (bv w 15 5) (bv w 10 5)) else .error .reservedField
  | 14 => if fld w 0 4 = 0 then .ok (.sshrN64 (bv w 20 5) (bv w 15 5) (bv w 10 5)) else .error .reservedField
  | 15 => if fld w 0 4 = 0 then .ok (.sshrI64 (bv w 20 5) (bv w 15 5) (bv w 10 5)) else .error .reservedField
  | 16 => if fld w 0 4 = 0 then .ok (.sminI64 (bv w 20 5) (bv w 15 5) (bv w 10 5)) else .error .reservedField
  | 17 => if fld w 0 4 = 0 then .ok (.sminN64 (bv w 20 5) (bv w 15 5) (bv w 10 5)) else .error .reservedField
  | 18 => if fld w 0 4 = 0 then .ok (.smaxI64 (bv w 20 5) (bv w 15 5) (bv w 10 5)) else .error .reservedField
  | 19 => if fld w 0 4 = 0 then .ok (.smaxN64 (bv w 20 5) (bv w 15 5) (bv w 10 5)) else .error .reservedField
  | 20 => if fld w 0 4 = 0 ∧ fld w 10 5 = 0 then .ok (.spopc (bv w 20 5) (bv w 15 5)) else .error .reservedField
  | 21 => if fld w 0 4 = 0 ∧ fld w 10 5 = 0 then .ok (.sclz (bv w 20 5) (bv w 15 5)) else .error .reservedField
  | 22 => if fld w 0 4 = 0 ∧ fld w 10 5 = 0 then .ok (.sctz (bv w 20 5) (bv w 15 5)) else .error .reservedField
  | _ => .error .reservedFunction

/-- Major 0x02. -/
noncomputable def dec02 (w : Nat) : Except Reject Instr :=
  match fld w 12 3 with
  | 0 => .ok (.saddi (bv w 20 5) (bv w 15 5) (bv w 0 12))
  | 1 => .ok (.sandi (bv w 20 5) (bv w 15 5) (bv w 0 12))
  | 2 => .ok (.sori (bv w 20 5) (bv w 15 5) (bv w 0 12))
  | 3 => .ok (.sxori (bv w 20 5) (bv w 15 5) (bv w 0 12))
  | 4 => if fld w 6 6 = 0 then .ok (.sshli (bv w 20 5) (bv w 15 5) (bv w 0 6)) else .error .reservedField
  | 5 => if fld w 6 6 = 0 then .ok (.sshriN64 (bv w 20 5) (bv w 15 5) (bv w 0 6)) else .error .reservedField
  | 6 => if fld w 6 6 = 0 then .ok (.sshriI64 (bv w 20 5) (bv w 15 5) (bv w 0 6)) else .error .reservedField
  | 7 => .ok (.smuli (bv w 20 5) (bv w 15 5) (bv w 0 12))
  | _ => .error .reservedFunction

/-- Major 0x03. -/
noncomputable def dec03 (w : Nat) : Except Reject Instr :=
  match fld w 16 4 with
  | 0 => .ok (.sli (bv w 20 5) (bv w 0 16))
  | 1 => .ok (.sliu (bv w 20 5) (bv w 0 16))
  | 2 => .ok (.sinsH0 (bv w 20 5) (bv w 0 16))
  | 3 => .ok (.sinsH1 (bv w 20 5) (bv w 0 16))
  | 4 => .ok (.sinsH2 (bv w 20 5) (bv w 0 16))
  | 5 => .ok (.sinsH3 (bv w 20 5) (bv w 0 16))
  | 6 => if fld w 12 4 = 0 then .ok (.vget (bv w 20 5) (bv w 7 5) (bv w 0 7)) else .error .reservedField
  | 7 => if fld w 3 13 = 0 then .ok (.pget (bv w 20 5) (bv w 0 3)) else .error .reservedField
  | 8 => if fld w 3 13 = 0 then .ok (.psets (bv w 20 5) (bv w 0 3)) else .error .reservedField
  | _ => .error .reservedFunction

/-- Major 0x04. -/
noncomputable def dec04 (w : Nat) : Except Reject Instr :=
  match fld w 4 6 with
  | 0 => if fld w 0 4 = 0 then .ok (.seq (bv w 20 5) (bv w 15 5) (bv w 10 5)) else .error .reservedField
  | 1 => if fld w 0 4 = 0 then .ok (.sne (bv w 20 5) (bv w 15 5) (bv w 10 5)) else .error .reservedField
  | 2 => if fld w 0 4 = 0 then .ok (.sltI64 (bv w 20 5) (bv w 15 5) (bv w 10 5)) else .error .reservedField
  | 3 => if fld w 0 4 = 0 then .ok (.sleI64 (bv w 20 5) (bv w 15 5) (bv w 10 5)) else .error .reservedField
  | 4 => if fld w 0 4 = 0 then .ok (.sltN64 (bv w 20 5) (bv w 15 5) (bv w 10 5)) else .error .reservedField
  | 5 => if fld w 0 4 = 0 then .ok (.sleN64 (bv w 20 5) (bv w 15 5) (bv w 10 5)) else .error .reservedField
  | 8 => if fld w 0 4 = 0 ∧ fld w 13 2 = 0 ∧ fld w 18 2 = 0 ∧ fld w 23 2 = 0 then .ok (.pand (bv w 20 3) (bv w 15 3) (bv w 10 3)) else .error .reservedField
  | 9 => if fld w 0 4 = 0 ∧ fld w 13 2 = 0 ∧ fld w 18 2 = 0 ∧ fld w 23 2 = 0 then .ok (.por (bv w 20 3) (bv w 15 3) (bv w 10 3)) else .error .reservedField
  | 10 => if fld w 0 4 = 0 ∧ fld w 13 2 = 0 ∧ fld w 18 2 = 0 ∧ fld w 23 2 = 0 then .ok (.pxor (bv w 20 3) (bv w 15 3) (bv w 10 3)) else .error .reservedField
  | 11 => if fld w 0 4 = 0 ∧ fld w 13 2 = 0 ∧ fld w 18 2 = 0 ∧ fld w 23 2 = 0 then .ok (.pandn (bv w 20 3) (bv w 15 3) (bv w 10 3)) else .error .reservedField
  | 12 => if fld w 0 4 = 0 ∧ fld w 10 5 = 0 ∧ fld w 18 2 = 0 ∧ fld w 23 2 = 0 then .ok (.pnot (bv w 20 3) (bv w 15 3)) else .error .reservedField
  | 13 => if fld w 0 4 = 0 ∧ fld w 10 5 = 0 ∧ fld w 18 2 = 0 then .ok (.ppopc (bv w 20 5) (bv w 15 3)) else .error .reservedField
  | 14 => if fld w 0 4 = 0 ∧ fld w 10 5 = 0 ∧ fld w 18 2 = 0 then .ok (.pffs (bv w 20 5) (bv w 15 3)) else .error .reservedField
  | 15 => if fld w 0 4 = 0 ∧ fld w 10 5 = 0 ∧ fld w 23 2 = 0 then .ok (.pfill (bv w 20 3) (bv w 15 5)) else .error .reservedField
  | _ => .error .reservedFunction

/-- Major 0x05. -/
noncomputable def dec05 (w : Nat) : Except Reject Instr :=
  match fld w 7 3 with
  | 0 => if fld w 4 3 = 0 then .ok (.sldB64 (bv w 20 5) (bv w 15 5) (bv w 10 5) (bv w 0 4)) else .error .reservedField
  | 1 => if fld w 4 3 = 0 then .ok (.sldN32 (bv w 20 5) (bv w 15 5) (bv w 10 5) (bv w 0 4)) else .error .reservedField
  | 2 => if fld w 4 3 = 0 then .ok (.sldI32 (bv w 20 5) (bv w 15 5) (bv w 10 5) (bv w 0 4)) else .error .reservedField
  | 3 => if fld w 4 3 ≠ 0 then .ok (.sldNf (bv w 20 5) (bv w 15 5) (bv w 10 5) (bv w 4 3) (bv w 0 4)) else .error .reservedField
  | 4 => if fld w 4 3 = 0 then .ok (.sstB64 (bv w 20 5) (bv w 15 5) (bv w 10 5) (bv w 0 4)) else .error .reservedField
  | 5 => if fld w 4 3 = 0 then .ok (.sstB32 (bv w 20 5) (bv w 15 5) (bv w 10 5) (bv w 0 4)) else .error .reservedField
  | 6 => if fld w 4 3 ≠ 0 then .ok (.sstNf (bv w 20 5) (bv w 15 5) (bv w 10 5) (bv w 4 3) (bv w 0 4)) else .error .reservedField
  | _ => .error .reservedFunction

/-- Major 0x06. -/
noncomputable def dec06 (w : Nat) : Except Reject Instr :=
  match fld w 20 2 with
  | 0 => if fld w 22 3 = 0 then .ok (.br (bv w 0 20)) else .error .reservedField
  | 1 => if fld w 22 3 = 0 then .ok (.call (bv w 0 20)) else .error .reservedField
  | 2 => if fld w 0 20 = 0 ∧ fld w 22 3 = 0 then .ok .ret else .error .reservedField
  | 3 => if fld w 0 20 = 0 ∧ fld w 22 3 = 0 then .ok .callr else .error .reservedField
  | _ => .error .reservedFunction

/-- Major 0x07. -/
noncomputable def dec07 (w : Nat) : Except Reject Instr :=
  match fld w 20 2 with
  | 0 => .ok (.bany (bv w 22 3) (bv w 0 20))
  | 1 => .ok (.ball (bv w 22 3) (bv w 0 20))
  | 2 => .ok (.bnone (bv w 22 3) (bv w 0 20))
  | 3 => .ok (.bnall (bv w 22 3) (bv w 0 20))
  | _ => .error .reservedFunction

noncomputable def dec08m (w : Nat) : Except Reject Instr :=
  match fld w 16 4 with
  | 0 => if fld w 0 16 = 0 then .ok (.mand (bv w 22 3)) else .error .reservedField
  | 1 => if fld w 0 16 = 0 then .ok (.mandn (bv w 22 3)) else .error .reservedField
  | 2 => if fld w 5 11 = 0 ∧ fld w 22 3 = 0 then .ok (.dspop (bv w 0 5)) else .error .reservedField
  | 3 => if fld w 5 11 = 0 ∧ fld w 22 3 = 0 then .ok (.dspush (bv w 0 5)) else .error .reservedField
  | 4 => if fld w 5 11 = 0 ∧ fld w 22 3 = 0 then .ok (.dsdepth (bv w 0 5)) else .error .reservedField
  | _ => .error .reservedFunction

/-- Major 0x08. -/
noncomputable def dec08 (w : Nat) : Except Reject Instr :=
  match fld w 20 2 with
  | 0 => .ok (.split (bv w 22 3) (bv w 0 20))
  | 1 => if fld w 22 3 = 0 then .ok (.elseArm (bv w 0 20)) else .error .reservedField
  | 2 => if fld w 0 20 = 0 ∧ fld w 22 3 = 0 then .ok .join else .error .reservedField
  | 3 => dec08m w
  | _ => .error .reservedFunction

/-- Major 0x09. -/
noncomputable def dec09 (w : Nat) : Except Reject Instr :=
  match fld w 20 2 with
  | 0 => .ok (.dbnz (bv w 22 3) (bv w 0 20))
  | 1 => .ok (.bz (bv w 22 3) (bv w 0 20))
  | 2 => .ok (.bnz (bv w 22 3) (bv w 0 20))
  | _ => .error .reservedFunction

/-- Major 0x0A. -/
noncomputable def dec0A (w : Nat) : Except Reject Instr :=
  match fld w 0 4 with
  | 0 => .ok (.vaddI32 (bv w 18 7) (bv w 11 7) (bv w 4 7))
  | 1 => .ok (.vsubI32 (bv w 18 7) (bv w 11 7) (bv w 4 7))
  | 2 => .ok (.vmulI32 (bv w 18 7) (bv w 11 7) (bv w 4 7))
  | 3 => .ok (.vmulhI32 (bv w 18 7) (bv w 11 7) (bv w 4 7))
  | 4 => .ok (.vmulhN32 (bv w 18 7) (bv w 11 7) (bv w 4 7))
  | 5 => .ok (.vandB32 (bv w 18 7) (bv w 11 7) (bv w 4 7))
  | 6 => .ok (.vorB32 (bv w 18 7) (bv w 11 7) (bv w 4 7))
  | 7 => .ok (.vxorB32 (bv w 18 7) (bv w 11 7) (bv w 4 7))
  | 8 => .ok (.vandnB32 (bv w 18 7) (bv w 11 7) (bv w 4 7))
  | 9 => .ok (.vshlB32 (bv w 18 7) (bv w 11 7) (bv w 4 7))
  | 10 => .ok (.vshrN32 (bv w 18 7) (bv w 11 7) (bv w 4 7))
  | 11 => .ok (.vshrI32 (bv w 18 7) (bv w 11 7) (bv w 4 7))
  | 12 => .ok (.vminI32 (bv w 18 7) (bv w 11 7) (bv w 4 7))
  | 13 => .ok (.vmaxI32 (bv w 18 7) (bv w 11 7) (bv w 4 7))
  | 14 => .ok (.vminN32 (bv w 18 7) (bv w 11 7) (bv w 4 7))
  | 15 => .ok (.vmaxN32 (bv w 18 7) (bv w 11 7) (bv w 4 7))
  | _ => .error .reservedFunction

/-- Major 0x0B. -/
noncomputable def dec0B (w : Nat) : Except Reject Instr :=
  match fld w 0 4 with
  | 0 => .ok (.vaddsI32 (bv w 18 7) (bv w 11 7) (bv w 4 7))
  | 1 => .ok (.vaddsN32 (bv w 18 7) (bv w 11 7) (bv w 4 7))
  | 2 => .ok (.vsubsI32 (bv w 18 7) (bv w 11 7) (bv w 4 7))
  | 3 => .ok (.vsubsN32 (bv w 18 7) (bv w 11 7) (bv w 4 7))
  | 4 => if fld w 4 7 = 0 then .ok (.vabsI32 (bv w 18 7) (bv w 11 7)) else .error .reservedField
  | 5 => if fld w 4 7 = 0 then .ok (.vnegI32 (bv w 18 7) (bv w 11 7)) else .error .reservedField
  | 6 => if fld w 4 7 = 0 then .ok (.vpopcB32 (bv w 18 7) (bv w 11 7)) else .error .reservedField
  | 7 => if fld w 4 7 = 0 then .ok (.vclzB32 (bv w 18 7) (bv w 11 7)) else .error .reservedField
  | 8 => if fld w 4 7 = 0 then .ok (.vbrevB32 (bv w 18 7) (bv w 11 7)) else .error .reservedField
  | 9 => .ok (.vmadI32 (bv w 18 7) (bv w 11 7) (bv w 4 7))
  | 10 => .ok (.vabsdN32 (bv w 18 7) (bv w 11 7) (bv w 4 7))
  | 11 => .ok (.vabsdI32 (bv w 18 7) (bv w 11 7) (bv w 4 7))
  | 12 => .ok (.vavgN32 (bv w 18 7) (bv w 11 7) (bv w 4 7))
  | 13 => .ok (.vrotB32 (bv w 18 7) (bv w 11 7) (bv w 4 7))
  | 14 => .ok (.vdot4I8 (bv w 18 7) (bv w 11 7) (bv w 4 7))
  | 15 => .ok (.vdot4N8 (bv w 18 7) (bv w 11 7) (bv w 4 7))
  | _ => .error .reservedFunction

/-- Major 0x0C. -/
noncomputable def dec0C (w : Nat) : Except Reject Instr :=
  match fld w 0 4 with
  | 0 => .ok (.vaddB16 (bv w 18 7) (bv w 11 7) (bv w 4 7))
  | 1 => .ok (.vsubB16 (bv w 18 7) (bv w 11 7) (bv w 4 7))
  | 2 => .ok (.vaddsI16 (bv w 18 7) (bv w 11 7) (bv w 4 7))
  | 3 => .ok (.vaddsN16 (bv w 18 7) (bv w 11 7) (bv w 4 7))
  | 4 => .ok (.vaddB8 (bv w 18 7) (bv w 11 7) (bv w 4 7))
  | 5 => .ok (.vsubB8 (bv w 18 7) (bv w 11 7) (bv w 4 7))
  | 6 => .ok (.vaddsI8 (bv w 18 7) (bv w 11 7) (bv w 4 7))
  | 7 => .ok (.vaddsN8 (bv w 18 7) (bv w 11 7) (bv w 4 7))
  | 8 => .ok (.vminI16 (bv w 18 7) (bv w 11 7) (bv w 4 7))
  | 9 => .ok (.vmaxI16 (bv w 18 7) (bv w 11 7) (bv w 4 7))
  | 10 => .ok (.vminN8 (bv w 18 7) (bv w 11 7) (bv w 4 7))
  | 11 => .ok (.vmaxN8 (bv w 18 7) (bv w 11 7) (bv w 4 7))
  | 12 => .ok (.vpermB8 (bv w 18 7) (bv w 11 7) (bv w 4 7))
  | 13 => .ok (.vshlB16 (bv w 18 7) (bv w 11 7) (bv w 4 7))
  | 14 => .ok (.vshrN16 (bv w 18 7) (bv w 11 7) (bv w 4 7))
  | 15 => .ok (.vshrI16 (bv w 18 7) (bv w 11 7) (bv w 4 7))
  | _ => .error .reservedFunction

/-- Major 0x0D. -/
noncomputable def dec0D (w : Nat) : Except Reject Instr :=
  match fld w 0 4 with
  | 0 => .ok (.vaddF32 (bv w 18 7) (bv w 11 7) (bv w 4 7))
  | 1 => .ok (.vsubF32 (bv w 18 7) (bv w 11 7) (bv w 4 7))
  | 2 => .ok (.vmulF32 (bv w 18 7) (bv w 11 7) (bv w 4 7))
  | 3 => .ok (.vfmaF32 (bv w 18 7) (bv w 11 7) (bv w 4 7))
  | 4 => .ok (.vfmsF32 (bv w 18 7) (bv w 11 7) (bv w 4 7))
  | 5 => .ok (.vminF32 (bv w 18 7) (bv w 11 7) (bv w 4 7))
  | 6 => .ok (.vmaxF32 (bv w 18 7) (bv w 11 7) (bv w 4 7))
  | 7 => if fld w 4 7 = 0 then .ok (.vabsF32 (bv w 18 7) (bv w 11 7)) else .error .reservedField
  | 8 => if fld w 4 7 = 0 then .ok (.vnegF32 (bv w 18 7) (bv w 11 7)) else .error .reservedField
  | 9 => .ok (.vdivF32 (bv w 18 7) (bv w 11 7) (bv w 4 7))
  | 10 => if fld w 4 7 = 0 then .ok (.vsqrtF32 (bv w 18 7) (bv w 11 7)) else .error .reservedField
  | 11 => if fld w 4 7 = 0 then .ok (.vfloorF32 (bv w 18 7) (bv w 11 7)) else .error .reservedField
  | 12 => if fld w 4 7 = 0 then .ok (.vceilF32 (bv w 18 7) (bv w 11 7)) else .error .reservedField
  | 13 => if fld w 4 7 = 0 then .ok (.vtruncF32 (bv w 18 7) (bv w 11 7)) else .error .reservedField
  | 14 => if fld w 4 7 = 0 then .ok (.vrintF32 (bv w 18 7) (bv w 11 7)) else .error .reservedField
  | 15 => .ok (.vscaleF32 (bv w 18 7) (bv w 11 7) (bv w 4 7))
  | _ => .error .reservedFunction

/-- Major 0x0E. -/
noncomputable def dec0E (w : Nat) : Except Reject Instr :=
  match fld w 0 4 with
  | 0 => .ok (.vmaxabsF32 (bv w 18 7) (bv w 11 7) (bv w 4 7))
  | 1 => .ok (.vcopysignF32 (bv w 18 7) (bv w 11 7) (bv w 4 7))
  | 2 => if fld w 4 7 = 0 then .ok (.vclassF32 (bv w 18 7) (bv w 11 7)) else .error .reservedField
  | 3 => if fld w 4 7 = 0 then .ok (.vexpoF32 (bv w 18 7) (bv w 11 7)) else .error .reservedField
  | 4 => .ok (.vminnanF32 (bv w 18 7) (bv w 11 7) (bv w 4 7))
  | 5 => .ok (.vmaxnanF32 (bv w 18 7) (bv w 11 7) (bv w 4 7))
  | _ => .error .reservedFunction

/-- Major 0x0F. -/
noncomputable def dec0F (w : Nat) : Except Reject Instr :=
  match fld w 7 4 with
  | 0 => if fld w 4 3 = 0 then .ok (.vexp2ApxF32 (bv w 18 7) (bv w 11 7) (bv w 0 4)) else .error .reservedField
  | 1 => if fld w 4 3 = 0 then .ok (.vlog2ApxF32 (bv w 18 7) (bv w 11 7) (bv w 0 4)) else .error .reservedField
  | 2 => if fld w 4 3 = 0 then .ok (.vrcpApxF32 (bv w 18 7) (bv w 11 7) (bv w 0 4)) else .error .reservedField
  | 3 => if fld w 4 3 = 0 then .ok (.vrsqrtApxF32 (bv w 18 7) (bv w 11 7) (bv w 0 4)) else .error .reservedField
  | _ => .error .reservedFunction

/-- Major 0x10. -/
noncomputable def dec10 (w : Nat) : Except Reject Instr :=
  match fld w 0 4 with
  | 0 => .ok (.vaddBf16 (bv w 18 7) (bv w 11 7) (bv w 4 7))
  | 1 => .ok (.vmulBf16 (bv w 18 7) (bv w 11 7) (bv w 4 7))
  | 2 => .ok (.vfmaBf16 (bv w 18 7) (bv w 11 7) (bv w 4 7))
  | 3 => .ok (.vminBf16 (bv w 18 7) (bv w 11 7) (bv w 4 7))
  | 4 => .ok (.vmaxBf16 (bv w 18 7) (bv w 11 7) (bv w 4 7))
  | 5 => .ok (.vdot2F32Bf16 (bv w 18 7) (bv w 11 7) (bv w 4 7))
  | 6 => .ok (.vsubBf16 (bv w 18 7) (bv w 11 7) (bv w 4 7))
  | 8 => .ok (.vaddF16 (bv w 18 7) (bv w 11 7) (bv w 4 7))
  | 9 => .ok (.vmulF16 (bv w 18 7) (bv w 11 7) (bv w 4 7))
  | 10 => .ok (.vfmaF16 (bv w 18 7) (bv w 11 7) (bv w 4 7))
  | 11 => .ok (.vminF16 (bv w 18 7) (bv w 11 7) (bv w 4 7))
  | 12 => .ok (.vmaxF16 (bv w 18 7) (bv w 11 7) (bv w 4 7))
  | 13 => .ok (.vdot2F32F16 (bv w 18 7) (bv w 11 7) (bv w 4 7))
  | 14 => .ok (.vsubF16 (bv w 18 7) (bv w 11 7) (bv w 4 7))
  | _ => .error .reservedFunction

/-- Major 0x11. -/
noncomputable def dec11 (w : Nat) : Except Reject Instr :=
  match fld w 0 4 with
  | 0 => if fld w 4 4 = 0 then if fld w 8 3 ≤ 4 then .ok (.vcvtF32I32 (bv w 18 7) (bv w 11 7) (bv w 8 3)) else .error .reservedRounding else .error .reservedField
  | 1 => if fld w 4 4 = 0 then if fld w 8 3 ≤ 4 then .ok (.vcvtF32N32 (bv w 18 7) (bv w 11 7) (bv w 8 3)) else .error .reservedRounding else .error .reservedField
  | 2 => if fld w 4 4 = 0 then if fld w 8 3 ≤ 4 then .ok (.vcvtI32F32 (bv w 18 7) (bv w 11 7) (bv w 8 3)) else .error .reservedRounding else .error .reservedField
  | 3 => if fld w 4 4 = 0 then if fld w 8 3 ≤ 4 then .ok (.vcvtN32F32 (bv w 18 7) (bv w 11 7) (bv w 8 3)) else .error .reservedRounding else .error .reservedField
  | 4 => if fld w 4 4 = 0 then if fld w 8 3 ≤ 4 then .ok (.vcvtBf16F32 (bv w 18 7) (bv w 11 7) (bv w 8 3)) else .error .reservedRounding else .error .reservedField
  | 5 => if fld w 4 4 = 0 then if fld w 8 3 ≤ 4 then .ok (.vcvtF16F32 (bv w 18 7) (bv w 11 7) (bv w 8 3)) else .error .reservedRounding else .error .reservedField
  | 6 => if fld w 4 4 = 0 then if fld w 8 3 ≤ 4 then .ok (.vcvtF32Bf16 (bv w 18 7) (bv w 11 7) (bv w 8 3)) else .error .reservedRounding else .error .reservedField
  | 7 => if fld w 4 4 = 0 then if fld w 8 3 ≤ 4 then .ok (.vcvtF32F16 (bv w 18 7) (bv w 11 7) (bv w 8 3)) else .error .reservedRounding else .error .reservedField
  | 8 => if fld w 7 1 = 0 then if fld w 4 3 ≠ 0 then if fld w 8 3 ≤ 4 then .ok (.vcvtNfF32 (bv w 18 7) (bv w 11 7) (bv w 8 3) (bv w 4 3)) else .error .reservedRounding else .error .reservedField else .error .reservedField
  | 9 => if fld w 7 1 = 0 then if fld w 4 3 ≠ 0 then if fld w 8 3 ≤ 4 then .ok (.vcvtF32Nf (bv w 18 7) (bv w 11 7) (bv w 8 3) (bv w 4 3)) else .error .reservedRounding else .error .reservedField else .error .reservedField
  | 10 => if fld w 4 4 = 0 then if fld w 8 3 ≤ 4 then .ok (.vcvtE4m3F32 (bv w 18 7) (bv w 11 7) (bv w 8 3)) else .error .reservedRounding else .error .reservedField
  | 11 => if fld w 4 4 = 0 then if fld w 8 3 ≤ 4 then .ok (.vcvtE5m2F32 (bv w 18 7) (bv w 11 7) (bv w 8 3)) else .error .reservedRounding else .error .reservedField
  | 12 => if fld w 4 4 = 0 then if fld w 8 3 ≤ 4 then .ok (.vcvtF32E4m3 (bv w 18 7) (bv w 11 7) (bv w 8 3)) else .error .reservedRounding else .error .reservedField
  | 13 => if fld w 4 4 = 0 then if fld w 8 3 ≤ 4 then .ok (.vcvtF32E5m2 (bv w 18 7) (bv w 11 7) (bv w 8 3)) else .error .reservedRounding else .error .reservedField
  | 14 => if fld w 4 4 = 0 then if fld w 8 3 ≤ 4 then .ok (.vcvthiBf16F32 (bv w 18 7) (bv w 11 7) (bv w 8 3)) else .error .reservedRounding else .error .reservedField
  | 15 => if fld w 4 4 = 0 then if fld w 8 3 ≤ 4 then .ok (.vcvthiF16F32 (bv w 18 7) (bv w 11 7) (bv w 8 3)) else .error .reservedRounding else .error .reservedField
  | _ => .error .reservedFunction

/-- Major 0x12. -/
noncomputable def dec12 (w : Nat) : Except Reject Instr :=
  match fld w 0 4 with
  | 0 => if fld w 21 4 = 0 then .ok (.vcmpEqB32 (bv w 18 3) (bv w 11 7) (bv w 4 7)) else .error .reservedField
  | 1 => if fld w 21 4 = 0 then .ok (.vcmpNeB32 (bv w 18 3) (bv w 11 7) (bv w 4 7)) else .error .reservedField
  | 2 => if fld w 21 4 = 0 then .ok (.vcmpLtI32 (bv w 18 3) (bv w 11 7) (bv w 4 7)) else .error .reservedField
  | 3 => if fld w 21 4 = 0 then .ok (.vcmpLeI32 (bv w 18 3) (bv w 11 7) (bv w 4 7)) else .error .reservedField
  | 4 => if fld w 21 4 = 0 then .ok (.vcmpLtN32 (bv w 18 3) (bv w 11 7) (bv w 4 7)) else .error .reservedField
  | 5 => if fld w 21 4 = 0 then .ok (.vcmpLeN32 (bv w 18 3) (bv w 11 7) (bv w 4 7)) else .error .reservedField
  | 6 => if fld w 21 4 = 0 then .ok (.vcmpEqF32 (bv w 18 3) (bv w 11 7) (bv w 4 7)) else .error .reservedField
  | 7 => if fld w 21 4 = 0 then .ok (.vcmpNeF32 (bv w 18 3) (bv w 11 7) (bv w 4 7)) else .error .reservedField
  | 8 => if fld w 21 4 = 0 then .ok (.vcmpLtF32 (bv w 18 3) (bv w 11 7) (bv w 4 7)) else .error .reservedField
  | 9 => if fld w 21 4 = 0 then .ok (.vcmpLeF32 (bv w 18 3) (bv w 11 7) (bv w 4 7)) else .error .reservedField
  | 10 => if fld w 21 4 = 0 then .ok (.vcmpUnF32 (bv w 18 3) (bv w 11 7) (bv w 4 7)) else .error .reservedField
  | 11 => if fld w 21 4 = 0 then .ok (.vtestB32 (bv w 18 3) (bv w 11 7) (bv w 4 7)) else .error .reservedField
  | _ => .error .reservedFunction

/-- Major 0x13. -/
noncomputable def dec13 (w : Nat) : Except Reject Instr :=
  match fld w 0 4 with
  | 0 => .ok (.vshflIdx (bv w 18 7) (bv w 11 7) (bv w 4 7))
  | 1 => if fld w 9 2 = 0 then .ok (.vshflUp (bv w 18 7) (bv w 11 7) (bv w 4 5)) else .error .reservedField
  | 2 => if fld w 9 2 = 0 then .ok (.vshflDown (bv w 18 7) (bv w 11 7) (bv w 4 5)) else .error .reservedField
  | 3 => if fld w 9 2 = 0 then .ok (.vshflXor (bv w 18 7) (bv w 11 7) (bv w 4 5)) else .error .reservedField
  | 4 => if fld w 4 7 = 0 ∧ fld w 14 4 = 0 then .ok (.vballot (bv w 18 7) (bv w 11 3)) else .error .reservedField
  | 5 => if fld w 4 7 = 0 ∧ fld w 14 4 = 0 ∧ fld w 21 4 = 0 then .ok (.vvoteAll (bv w 18 3) (bv w 11 3)) else .error .reservedField
  | 6 => if fld w 4 7 = 0 ∧ fld w 14 4 = 0 ∧ fld w 21 4 = 0 then .ok (.vvoteAny (bv w 18 3) (bv w 11 3)) else .error .reservedField
  | 7 => if fld w 4 7 = 0 then .ok (.vmatchB32 (bv w 18 7) (bv w 11 7)) else .error .reservedField
  | 8 => if fld w 4 7 = 0 then .ok (.vredAddI32 (bv w 18 7) (bv w 11 7)) else .error .reservedField
  | 9 => if fld w 4 7 = 0 then .ok (.vredMaxI32 (bv w 18 7) (bv w 11 7)) else .error .reservedField
  | 10 => if fld w 4 7 = 0 then .ok (.vredMinI32 (bv w 18 7) (bv w 11 7)) else .error .reservedField
  | 11 => if fld w 4 7 = 0 then .ok (.vredAddF32 (bv w 18 7) (bv w 11 7)) else .error .reservedField
  | 12 => if fld w 4 7 = 0 then .ok (.vredMaxF32 (bv w 18 7) (bv w 11 7)) else .error .reservedField
  | 13 => if fld w 4 7 = 0 then .ok (.vscanAddI32 (bv w 18 7) (bv w 11 7)) else .error .reservedField
  | 14 => if fld w 4 7 = 0 then .ok (.vscanxAddI32 (bv w 18 7) (bv w 11 7)) else .error .reservedField
  | 15 => if fld w 4 7 = 0 then .ok (.vscanAddF32 (bv w 18 7) (bv w 11 7)) else .error .reservedField
  | _ => .error .reservedFunction

/-- Major 0x14. -/
noncomputable def dec14 (w : Nat) : Except Reject Instr :=
  match fld w 0 4 with
  | 0 => if fld w 4 7 = 0 then .ok (.vmov (bv w 18 7) (bv w 11 7)) else .error .reservedField
  | 1 => .ok (.vli (bv w 18 7) (bv w 4 14))
  | 2 => if fld w 4 7 = 0 ∧ fld w 16 2 = 0 then .ok (.vbcast (bv w 18 7) (bv w 11 5)) else .error .reservedField
  | 3 => if fld w 4 7 = 0 ∧ fld w 16 2 = 0 then .ok (.vbcasth (bv w 18 7) (bv w 11 5)) else .error .reservedField
  | 4 => if fld w 4 7 = 0 ∧ fld w 14 4 = 0 then .ok (.vpmask (bv w 18 7) (bv w 11 3)) else .error .reservedField
  | 5 => if fld w 9 2 = 0 ∧ fld w 16 2 = 0 then .ok (.vins (bv w 18 7) (bv w 11 5) (bv w 4 5)) else .error .reservedField
  | _ => if 8 ≤ fld w 0 4 then .ok (.vsel (bv w 18 7) (bv w 11 7) (bv w 4 7) (bv w 0 3)) else .error .reservedFunction

noncomputable def dec15 (w : Nat) : Except Reject Instr :=
  if fld w 4 3 = 0 then .ok (.ldB32 (bv w 18 7) (bv w 11 7) (bv w 7 4) (bv w 0 4)) else .ok (.ldNf (bv w 18 7) (bv w 11 7) (bv w 7 4) (bv w 4 3) (bv w 0 4))

noncomputable def dec16 (w : Nat) : Except Reject Instr :=
  if fld w 4 3 = 0 then .ok (.stB32 (bv w 18 7) (bv w 11 7) (bv w 7 4) (bv w 0 4)) else .ok (.stNf (bv w 18 7) (bv w 11 7) (bv w 7 4) (bv w 4 3) (bv w 0 4))

/-- Major 0x17. -/
noncomputable def dec17 (w : Nat) : Except Reject Instr :=
  match fld w 8 3 with
  | 0 => if fld w 7 1 = 0 then (if fld w 4 3 = 0 then .ok (.pldB32 (bv w 18 7) (bv w 11 7) (bv w 0 4)) else .ok (.pldNf (bv w 18 7) (bv w 11 7) (bv w 4 3) (bv w 0 4))) else .error .reservedField
  | 1 => if fld w 7 1 = 0 then (if fld w 4 3 = 0 then .ok (.pstB32 (bv w 18 7) (bv w 11 7) (bv w 0 4)) else .ok (.pstNf (bv w 18 7) (bv w 11 7) (bv w 4 3) (bv w 0 4))) else .error .reservedField
  | 2 => if fld w 4 4 = 0 then if fld w 18 7 ≤ 126 then .ok (.pldB64 (bv w 18 7) (bv w 11 7) (bv w 0 4)) else .error .registerRange else .error .reservedField
  | 3 => if fld w 4 4 = 0 then if fld w 18 7 ≤ 126 then .ok (.pstB64 (bv w 18 7) (bv w 11 7) (bv w 0 4)) else .error .registerRange else .error .reservedField
  | 4 => if fld w 7 1 = 0 then .ok (.ldtrB8 (bv w 18 7) (bv w 11 7) (bv w 4 3) (bv w 0 4)) else .error .reservedField
  | 5 => if fld w 7 1 = 0 then if fld w 18 7 ≤ 126 then .ok (.ldtrB16 (bv w 18 7) (bv w 11 7) (bv w 4 3) (bv w 0 4)) else .error .registerRange else .error .reservedField
  | 6 => if fld w 7 1 = 0 then if fld w 18 7 ≤ 124 then .ok (.ldtrB32 (bv w 18 7) (bv w 11 7) (bv w 4 3) (bv w 0 4)) else .error .registerRange else .error .reservedField
  | _ => .error .reservedFunction

/-- Major 0x18. -/
noncomputable def dec18 (w : Nat) : Except Reject Instr :=
  match fld w 14 4 with
  | 0 => if fld w 6 1 = 1 then (if fld w 4 2 ≤ 1 then if fld w 11 3 ≤ 6 then if fld w 18 7 + (fld w 4 2 + 1) ≤ 127 then .ok (.atomAdd (bv w 18 7) (bv w 11 3) (bv w 7 4) (bv w 4 2) (bv w 0 4)) else .error .registerRange else .error .reservedScope else .error .reservedFunction) else (if fld w 4 2 ≤ 1 then if fld w 11 3 ≤ 6 then if fld w 18 7 + (fld w 4 2 + 1) ≤ 127 then .ok (.redAdd (bv w 18 7) (bv w 11 3) (bv w 7 4) (bv w 4 2) (bv w 0 4)) else .error .registerRange else .error .reservedScope else .error .reservedFunction)
  | 1 => if fld w 6 1 = 1 then (if fld w 4 2 ≤ 1 then if fld w 11 3 ≤ 6 then if fld w 18 7 + (fld w 4 2 + 1) ≤ 127 then .ok (.atomAnd (bv w 18 7) (bv w 11 3) (bv w 7 4) (bv w 4 2) (bv w 0 4)) else .error .registerRange else .error .reservedScope else .error .reservedFunction) else (if fld w 4 2 ≤ 1 then if fld w 11 3 ≤ 6 then if fld w 18 7 + (fld w 4 2 + 1) ≤ 127 then .ok (.redAnd (bv w 18 7) (bv w 11 3) (bv w 7 4) (bv w 4 2) (bv w 0 4)) else .error .registerRange else .error .reservedScope else .error .reservedFunction)
  | 2 => if fld w 6 1 = 1 then (if fld w 4 2 ≤ 1 then if fld w 11 3 ≤ 6 then if fld w 18 7 + (fld w 4 2 + 1) ≤ 127 then .ok (.atomOr (bv w 18 7) (bv w 11 3) (bv w 7 4) (bv w 4 2) (bv w 0 4)) else .error .registerRange else .error .reservedScope else .error .reservedFunction) else (if fld w 4 2 ≤ 1 then if fld w 11 3 ≤ 6 then if fld w 18 7 + (fld w 4 2 + 1) ≤ 127 then .ok (.redOr (bv w 18 7) (bv w 11 3) (bv w 7 4) (bv w 4 2) (bv w 0 4)) else .error .registerRange else .error .reservedScope else .error .reservedFunction)
  | 3 => if fld w 6 1 = 1 then (if fld w 4 2 ≤ 1 then if fld w 11 3 ≤ 6 then if fld w 18 7 + (fld w 4 2 + 1) ≤ 127 then .ok (.atomXor (bv w 18 7) (bv w 11 3) (bv w 7 4) (bv w 4 2) (bv w 0 4)) else .error .registerRange else .error .reservedScope else .error .reservedFunction) else (if fld w 4 2 ≤ 1 then if fld w 11 3 ≤ 6 then if fld w 18 7 + (fld w 4 2 + 1) ≤ 127 then .ok (.redXor (bv w 18 7) (bv w 11 3) (bv w 7 4) (bv w 4 2) (bv w 0 4)) else .error .registerRange else .error .reservedScope else .error .reservedFunction)
  | 4 => if fld w 6 1 = 1 then (if fld w 4 2 ≤ 1 then if fld w 11 3 ≤ 6 then if fld w 18 7 + (fld w 4 2 + 1) ≤ 127 then .ok (.atomMinI (bv w 18 7) (bv w 11 3) (bv w 7 4) (bv w 4 2) (bv w 0 4)) else .error .registerRange else .error .reservedScope else .error .reservedFunction) else (if fld w 4 2 ≤ 1 then if fld w 11 3 ≤ 6 then if fld w 18 7 + (fld w 4 2 + 1) ≤ 127 then .ok (.redMinI (bv w 18 7) (bv w 11 3) (bv w 7 4) (bv w 4 2) (bv w 0 4)) else .error .registerRange else .error .reservedScope else .error .reservedFunction)
  | 5 => if fld w 6 1 = 1 then (if fld w 4 2 ≤ 1 then if fld w 11 3 ≤ 6 then if fld w 18 7 + (fld w 4 2 + 1) ≤ 127 then .ok (.atomMaxI (bv w 18 7) (bv w 11 3) (bv w 7 4) (bv w 4 2) (bv w 0 4)) else .error .registerRange else .error .reservedScope else .error .reservedFunction) else (if fld w 4 2 ≤ 1 then if fld w 11 3 ≤ 6 then if fld w 18 7 + (fld w 4 2 + 1) ≤ 127 then .ok (.redMaxI (bv w 18 7) (bv w 11 3) (bv w 7 4) (bv w 4 2) (bv w 0 4)) else .error .registerRange else .error .reservedScope else .error .reservedFunction)
  | 6 => if fld w 6 1 = 1 then (if fld w 4 2 ≤ 1 then if fld w 11 3 ≤ 6 then if fld w 18 7 + (fld w 4 2 + 1) ≤ 127 then .ok (.atomMinN (bv w 18 7) (bv w 11 3) (bv w 7 4) (bv w 4 2) (bv w 0 4)) else .error .registerRange else .error .reservedScope else .error .reservedFunction) else (if fld w 4 2 ≤ 1 then if fld w 11 3 ≤ 6 then if fld w 18 7 + (fld w 4 2 + 1) ≤ 127 then .ok (.redMinN (bv w 18 7) (bv w 11 3) (bv w 7 4) (bv w 4 2) (bv w 0 4)) else .error .registerRange else .error .reservedScope else .error .reservedFunction)
  | 7 => if fld w 6 1 = 1 then (if fld w 4 2 ≤ 1 then if fld w 11 3 ≤ 6 then if fld w 18 7 + (fld w 4 2 + 1) ≤ 127 then .ok (.atomMaxN (bv w 18 7) (bv w 11 3) (bv w 7 4) (bv w 4 2) (bv w 0 4)) else .error .registerRange else .error .reservedScope else .error .reservedFunction) else (if fld w 4 2 ≤ 1 then if fld w 11 3 ≤ 6 then if fld w 18 7 + (fld w 4 2 + 1) ≤ 127 then .ok (.redMaxN (bv w 18 7) (bv w 11 3) (bv w 7 4) (bv w 4 2) (bv w 0 4)) else .error .registerRange else .error .reservedScope else .error .reservedFunction)
  | 8 => if fld w 6 1 = 1 then (if fld w 4 2 ≤ 1 then if fld w 11 3 ≤ 6 then if fld w 18 7 + (fld w 4 2 + 1) ≤ 127 then .ok (.atomExch (bv w 18 7) (bv w 11 3) (bv w 7 4) (bv w 4 2) (bv w 0 4)) else .error .registerRange else .error .reservedScope else .error .reservedFunction) else (if fld w 4 2 ≤ 1 then if fld w 11 3 ≤ 6 then if fld w 18 7 + (fld w 4 2 + 1) ≤ 127 then .ok (.redExch (bv w 18 7) (bv w 11 3) (bv w 7 4) (bv w 4 2) (bv w 0 4)) else .error .registerRange else .error .reservedScope else .error .reservedFunction)
  | 9 => if fld w 6 1 = 1 then (if fld w 4 2 ≤ 1 then if fld w 11 3 ≤ 6 then if fld w 18 7 + 2 * (fld w 4 2 + 1) ≤ 127 then .ok (.atomCas (bv w 18 7) (bv w 11 3) (bv w 7 4) (bv w 4 2) (bv w 0 4)) else .error .registerRange else .error .reservedScope else .error .reservedFunction) else (.error .reservedFunction)
  | 10 => if fld w 6 1 = 1 then (if fld w 4 2 ≤ 1 then if fld w 11 3 ≤ 6 then if fld w 18 7 + (fld w 4 2 + 1) ≤ 127 then .ok (.atomInc (bv w 18 7) (bv w 11 3) (bv w 7 4) (bv w 4 2) (bv w 0 4)) else .error .registerRange else .error .reservedScope else .error .reservedFunction) else (if fld w 4 2 ≤ 1 then if fld w 11 3 ≤ 6 then if fld w 18 7 + (fld w 4 2 + 1) ≤ 127 then .ok (.redInc (bv w 18 7) (bv w 11 3) (bv w 7 4) (bv w 4 2) (bv w 0 4)) else .error .registerRange else .error .reservedScope else .error .reservedFunction)
  | 11 => if fld w 6 1 = 1 then (if fld w 4 2 ≤ 1 then if fld w 11 3 ≤ 6 then if fld w 18 7 + (fld w 4 2 + 1) ≤ 127 then .ok (.atomDec (bv w 18 7) (bv w 11 3) (bv w 7 4) (bv w 4 2) (bv w 0 4)) else .error .registerRange else .error .reservedScope else .error .reservedFunction) else (if fld w 4 2 ≤ 1 then if fld w 11 3 ≤ 6 then if fld w 18 7 + (fld w 4 2 + 1) ≤ 127 then .ok (.redDec (bv w 18 7) (bv w 11 3) (bv w 7 4) (bv w 4 2) (bv w 0 4)) else .error .registerRange else .error .reservedScope else .error .reservedFunction)
  | 12 => if fld w 6 1 = 1 then (if fld w 4 2 = 0 then if fld w 11 3 ≤ 6 then if fld w 18 7 + 1 ≤ 127 then .ok (.atomFadd (bv w 18 7) (bv w 11 3) (bv w 7 4) (bv w 0 4)) else .error .registerRange else .error .reservedScope else .error .reservedFunction) else (if fld w 4 2 = 0 then if fld w 11 3 ≤ 6 then if fld w 18 7 + 1 ≤ 127 then .ok (.redFadd (bv w 18 7) (bv w 11 3) (bv w 7 4) (bv w 0 4)) else .error .registerRange else .error .reservedScope else .error .reservedFunction)
  | 13 => if fld w 6 1 = 1 then (if fld w 4 2 = 0 then if fld w 11 3 ≤ 6 then if fld w 18 7 + 1 ≤ 127 then .ok (.atomFmax (bv w 18 7) (bv w 11 3) (bv w 7 4) (bv w 0 4)) else .error .registerRange else .error .reservedScope else .error .reservedFunction) else (if fld w 4 2 = 0 then if fld w 11 3 ≤ 6 then if fld w 18 7 + 1 ≤ 127 then .ok (.redFmax (bv w 18 7) (bv w 11 3) (bv w 7 4) (bv w 0 4)) else .error .registerRange else .error .reservedScope else .error .reservedFunction)
  | 14 => if fld w 6 1 = 1 then (if fld w 4 2 = 0 then if fld w 11 3 ≤ 6 then if fld w 18 7 + 1 ≤ 127 then .ok (.atomFmin (bv w 18 7) (bv w 11 3) (bv w 7 4) (bv w 0 4)) else .error .registerRange else .error .reservedScope else .error .reservedFunction) else (if fld w 4 2 = 0 then if fld w 11 3 ≤ 6 then if fld w 18 7 + 1 ≤ 127 then .ok (.redFmin (bv w 18 7) (bv w 11 3) (bv w 7 4) (bv w 0 4)) else .error .registerRange else .error .reservedScope else .error .reservedFunction)
  | _ => .error .reservedFunction

/-- Major 0x19. -/
noncomputable def dec19 (w : Nat) : Except Reject Instr :=
  match fld w 14 4 with
  | 0 => if fld w 6 1 = 1 then (if fld w 4 2 ≤ 1 then if fld w 11 3 = 0 then if fld w 18 7 + (fld w 4 2 + 1) ≤ 127 then .ok (.patomAdd (bv w 18 7) (bv w 7 4) (bv w 4 2) (bv w 0 4)) else .error .registerRange else .error .reservedScope else .error .reservedFunction) else (if fld w 4 2 ≤ 1 then if fld w 11 3 = 0 then if fld w 18 7 + (fld w 4 2 + 1) ≤ 127 then .ok (.predAdd (bv w 18 7) (bv w 7 4) (bv w 4 2) (bv w 0 4)) else .error .registerRange else .error .reservedScope else .error .reservedFunction)
  | 1 => if fld w 6 1 = 1 then (if fld w 4 2 ≤ 1 then if fld w 11 3 = 0 then if fld w 18 7 + (fld w 4 2 + 1) ≤ 127 then .ok (.patomAnd (bv w 18 7) (bv w 7 4) (bv w 4 2) (bv w 0 4)) else .error .registerRange else .error .reservedScope else .error .reservedFunction) else (if fld w 4 2 ≤ 1 then if fld w 11 3 = 0 then if fld w 18 7 + (fld w 4 2 + 1) ≤ 127 then .ok (.predAnd (bv w 18 7) (bv w 7 4) (bv w 4 2) (bv w 0 4)) else .error .registerRange else .error .reservedScope else .error .reservedFunction)
  | 2 => if fld w 6 1 = 1 then (if fld w 4 2 ≤ 1 then if fld w 11 3 = 0 then if fld w 18 7 + (fld w 4 2 + 1) ≤ 127 then .ok (.patomOr (bv w 18 7) (bv w 7 4) (bv w 4 2) (bv w 0 4)) else .error .registerRange else .error .reservedScope else .error .reservedFunction) else (if fld w 4 2 ≤ 1 then if fld w 11 3 = 0 then if fld w 18 7 + (fld w 4 2 + 1) ≤ 127 then .ok (.predOr (bv w 18 7) (bv w 7 4) (bv w 4 2) (bv w 0 4)) else .error .registerRange else .error .reservedScope else .error .reservedFunction)
  | 3 => if fld w 6 1 = 1 then (if fld w 4 2 ≤ 1 then if fld w 11 3 = 0 then if fld w 18 7 + (fld w 4 2 + 1) ≤ 127 then .ok (.patomXor (bv w 18 7) (bv w 7 4) (bv w 4 2) (bv w 0 4)) else .error .registerRange else .error .reservedScope else .error .reservedFunction) else (if fld w 4 2 ≤ 1 then if fld w 11 3 = 0 then if fld w 18 7 + (fld w 4 2 + 1) ≤ 127 then .ok (.predXor (bv w 18 7) (bv w 7 4) (bv w 4 2) (bv w 0 4)) else .error .registerRange else .error .reservedScope else .error .reservedFunction)
  | 4 => if fld w 6 1 = 1 then (if fld w 4 2 ≤ 1 then if fld w 11 3 = 0 then if fld w 18 7 + (fld w 4 2 + 1) ≤ 127 then .ok (.patomMinI (bv w 18 7) (bv w 7 4) (bv w 4 2) (bv w 0 4)) else .error .registerRange else .error .reservedScope else .error .reservedFunction) else (if fld w 4 2 ≤ 1 then if fld w 11 3 = 0 then if fld w 18 7 + (fld w 4 2 + 1) ≤ 127 then .ok (.predMinI (bv w 18 7) (bv w 7 4) (bv w 4 2) (bv w 0 4)) else .error .registerRange else .error .reservedScope else .error .reservedFunction)
  | 5 => if fld w 6 1 = 1 then (if fld w 4 2 ≤ 1 then if fld w 11 3 = 0 then if fld w 18 7 + (fld w 4 2 + 1) ≤ 127 then .ok (.patomMaxI (bv w 18 7) (bv w 7 4) (bv w 4 2) (bv w 0 4)) else .error .registerRange else .error .reservedScope else .error .reservedFunction) else (if fld w 4 2 ≤ 1 then if fld w 11 3 = 0 then if fld w 18 7 + (fld w 4 2 + 1) ≤ 127 then .ok (.predMaxI (bv w 18 7) (bv w 7 4) (bv w 4 2) (bv w 0 4)) else .error .registerRange else .error .reservedScope else .error .reservedFunction)
  | 6 => if fld w 6 1 = 1 then (if fld w 4 2 ≤ 1 then if fld w 11 3 = 0 then if fld w 18 7 + (fld w 4 2 + 1) ≤ 127 then .ok (.patomMinN (bv w 18 7) (bv w 7 4) (bv w 4 2) (bv w 0 4)) else .error .registerRange else .error .reservedScope else .error .reservedFunction) else (if fld w 4 2 ≤ 1 then if fld w 11 3 = 0 then if fld w 18 7 + (fld w 4 2 + 1) ≤ 127 then .ok (.predMinN (bv w 18 7) (bv w 7 4) (bv w 4 2) (bv w 0 4)) else .error .registerRange else .error .reservedScope else .error .reservedFunction)
  | 7 => if fld w 6 1 = 1 then (if fld w 4 2 ≤ 1 then if fld w 11 3 = 0 then if fld w 18 7 + (fld w 4 2 + 1) ≤ 127 then .ok (.patomMaxN (bv w 18 7) (bv w 7 4) (bv w 4 2) (bv w 0 4)) else .error .registerRange else .error .reservedScope else .error .reservedFunction) else (if fld w 4 2 ≤ 1 then if fld w 11 3 = 0 then if fld w 18 7 + (fld w 4 2 + 1) ≤ 127 then .ok (.predMaxN (bv w 18 7) (bv w 7 4) (bv w 4 2) (bv w 0 4)) else .error .registerRange else .error .reservedScope else .error .reservedFunction)
  | 8 => if fld w 6 1 = 1 then (if fld w 4 2 ≤ 1 then if fld w 11 3 = 0 then if fld w 18 7 + (fld w 4 2 + 1) ≤ 127 then .ok (.patomExch (bv w 18 7) (bv w 7 4) (bv w 4 2) (bv w 0 4)) else .error .registerRange else .error .reservedScope else .error .reservedFunction) else (if fld w 4 2 ≤ 1 then if fld w 11 3 = 0 then if fld w 18 7 + (fld w 4 2 + 1) ≤ 127 then .ok (.predExch (bv w 18 7) (bv w 7 4) (bv w 4 2) (bv w 0 4)) else .error .registerRange else .error .reservedScope else .error .reservedFunction)
  | 9 => if fld w 6 1 = 1 then (if fld w 4 2 ≤ 1 then if fld w 11 3 = 0 then if fld w 18 7 + 2 * (fld w 4 2 + 1) ≤ 127 then .ok (.patomCas (bv w 18 7) (bv w 7 4) (bv w 4 2) (bv w 0 4)) else .error .registerRange else .error .reservedScope else .error .reservedFunction) else (.error .reservedFunction)
  | 10 => if fld w 6 1 = 1 then (if fld w 4 2 ≤ 1 then if fld w 11 3 = 0 then if fld w 18 7 + (fld w 4 2 + 1) ≤ 127 then .ok (.patomInc (bv w 18 7) (bv w 7 4) (bv w 4 2) (bv w 0 4)) else .error .registerRange else .error .reservedScope else .error .reservedFunction) else (if fld w 4 2 ≤ 1 then if fld w 11 3 = 0 then if fld w 18 7 + (fld w 4 2 + 1) ≤ 127 then .ok (.predInc (bv w 18 7) (bv w 7 4) (bv w 4 2) (bv w 0 4)) else .error .registerRange else .error .reservedScope else .error .reservedFunction)
  | 11 => if fld w 6 1 = 1 then (if fld w 4 2 ≤ 1 then if fld w 11 3 = 0 then if fld w 18 7 + (fld w 4 2 + 1) ≤ 127 then .ok (.patomDec (bv w 18 7) (bv w 7 4) (bv w 4 2) (bv w 0 4)) else .error .registerRange else .error .reservedScope else .error .reservedFunction) else (if fld w 4 2 ≤ 1 then if fld w 11 3 = 0 then if fld w 18 7 + (fld w 4 2 + 1) ≤ 127 then .ok (.predDec (bv w 18 7) (bv w 7 4) (bv w 4 2) (bv w 0 4)) else .error .registerRange else .error .reservedScope else .error .reservedFunction)
  | 12 => if fld w 6 1 = 1 then (if fld w 4 2 = 0 then if fld w 11 3 = 0 then if fld w 18 7 + 1 ≤ 127 then .ok (.patomFadd (bv w 18 7) (bv w 7 4) (bv w 0 4)) else .error .registerRange else .error .reservedScope else .error .reservedFunction) else (if fld w 4 2 = 0 then if fld w 11 3 = 0 then if fld w 18 7 + 1 ≤ 127 then .ok (.predFadd (bv w 18 7) (bv w 7 4) (bv w 0 4)) else .error .registerRange else .error .reservedScope else .error .reservedFunction)
  | 13 => if fld w 6 1 = 1 then (if fld w 4 2 = 0 then if fld w 11 3 = 0 then if fld w 18 7 + 1 ≤ 127 then .ok (.patomFmax (bv w 18 7) (bv w 7 4) (bv w 0 4)) else .error .registerRange else .error .reservedScope else .error .reservedFunction) else (if fld w 4 2 = 0 then if fld w 11 3 = 0 then if fld w 18 7 + 1 ≤ 127 then .ok (.predFmax (bv w 18 7) (bv w 7 4) (bv w 0 4)) else .error .registerRange else .error .reservedScope else .error .reservedFunction)
  | 14 => if fld w 6 1 = 1 then (if fld w 4 2 = 0 then if fld w 11 3 = 0 then if fld w 18 7 + 1 ≤ 127 then .ok (.patomFmin (bv w 18 7) (bv w 7 4) (bv w 0 4)) else .error .registerRange else .error .reservedScope else .error .reservedFunction) else (if fld w 4 2 = 0 then if fld w 11 3 = 0 then if fld w 18 7 + 1 ≤ 127 then .ok (.predFmin (bv w 18 7) (bv w 7 4) (bv w 0 4)) else .error .registerRange else .error .reservedScope else .error .reservedFunction)
  | _ => .error .reservedFunction

/-- Major 0x1A. -/
noncomputable def dec1A (w : Nat) : Except Reject Instr :=
  match fld w 4 3 with
  | 0 => if fld w 7 3 = 0 then if fld w 7 8 = 0 then .ok (.barInit (bv w 20 5) (bv w 15 5) (bv w 0 4)) else .error .reservedField else .error .reservedFunction
  | 1 => if 1 ≤ fld w 7 3 ∧ fld w 7 3 ≤ 4 then if fld w 15 5 = 0 then .ok (.barArrive (bv w 20 5) (bv w 10 5) (bv w 7 3) (bv w 0 4)) else .error .reservedField else .error .reservedFunction
  | 2 => if 1 ≤ fld w 7 3 ∧ fld w 7 3 ≤ 4 then .ok (.barArrivet (bv w 20 5) (bv w 15 5) (bv w 10 5) (bv w 7 3) (bv w 0 4)) else .error .reservedFunction
  | 3 => if fld w 7 3 = 0 then if fld w 7 8 = 0 then .ok (.barExpect (bv w 20 5) (bv w 15 5) (bv w 0 4)) else .error .reservedField else .error .reservedFunction
  | 4 => if 1 ≤ fld w 7 3 ∧ fld w 7 3 ≤ 4 then if fld w 0 4 = 0 ∧ fld w 10 5 = 0 then .ok (.barWait (bv w 20 5) (bv w 15 5) (bv w 7 3)) else .error .reservedField else .error .reservedFunction
  | 5 => if fld w 7 3 = 0 then if fld w 7 8 = 0 then .ok (.barTest (bv w 20 5) (bv w 15 5) (bv w 0 4)) else .error .reservedField else .error .reservedFunction
  | 6 => if fld w 7 3 = 0 then if fld w 7 13 = 0 then .ok (.barDrop (bv w 20 5) (bv w 0 4)) else .error .reservedField else .error .reservedFunction
  | _ => .error .reservedFunction

/-- Major 0x1B. -/
noncomputable def dec1B (w : Nat) : Except Reject Instr :=
  match fld w 4 6 with
  | 0 => if fld w 0 4 = 0 ∧ fld w 14 1 = 0 ∧ fld w 20 5 = 0 then .ok (.qpush (bv w 15 5) (bv w 10 4)) else .error .reservedField
  | 1 => if fld w 0 4 = 0 ∧ fld w 14 6 = 0 then .ok (.qpop (bv w 20 5) (bv w 10 4)) else .error .reservedField
  | 2 => if fld w 14 1 = 0 then .ok (.qtrypush (bv w 20 5) (bv w 15 5) (bv w 10 4) (bv w 0 4)) else .error .reservedField
  | 3 => if fld w 14 6 = 0 then .ok (.qtrypop (bv w 20 5) (bv w 10 4) (bv w 0 4)) else .error .reservedField
  | _ => .error .reservedFunction

/-- Major 0x1C. -/
noncomputable def dec1C (w : Nat) : Except Reject Instr :=
  match fld w 4 6 with
  | 0 => if fld w 10 5 = 0 then .ok (.ownGive (bv w 20 5) (bv w 15 5) (bv w 0 4)) else .error .reservedField
  | 1 => if fld w 0 4 = 0 ∧ fld w 10 5 = 0 then .ok (.ownTake (bv w 20 5) (bv w 15 5)) else .error .reservedField
  | 2 => if fld w 10 5 = 0 then .ok (.ownTest (bv w 20 5) (bv w 15 5) (bv w 0 4)) else .error .reservedField
  | _ => .error .reservedFunction

/-- Major 0x1D. -/
noncomputable def dec1D (w : Nat) : Except Reject Instr :=
  match fld w 4 6 with
  | 0 => if fld w 10 5 = 0 then .ok (.mwatch (bv w 20 5) (bv w 15 5) (bv w 0 4)) else .error .reservedField
  | 1 => if fld w 0 4 = 0 ∧ fld w 10 5 = 0 then .ok (.mwait (bv w 20 5) (bv w 15 5)) else .error .reservedField
  | 2 => if fld w 0 4 = 0 ∧ fld w 10 10 = 0 then .ok (.sleep (bv w 20 5)) else .error .reservedField
  | 3 => if fld w 10 15 = 0 then .ok (.mclear (bv w 0 4)) else .error .reservedField
  | _ => .error .reservedFunction

/-- Major 0x1E. -/
noncomputable def dec1E (w : Nat) : Except Reject Instr :=
  match fld w 16 4 with
  | 0 => if isScalarSpecial (fld w 4 12) then if fld w 0 4 = 0 then .ok (.mfs (bv w 20 5) (bv w 4 12)) else .error .reservedField else .error .reservedFunction
  | 1 => if isScalarSpecial (fld w 4 12) then if fld w 0 4 = 0 then if isWritableSpecial (fld w 4 12) then .ok (.mts (bv w 20 5) (bv w 4 12)) else .error .readOnly else .error .reservedField else .error .reservedFunction
  | 2 => if isVectorSpecial (fld w 4 12) then if fld w 0 4 = 0 then .ok (.mfsv (bv w 20 5) (bv w 4 12)) else .error .reservedField else .error .reservedFunction
  | 3 => if isVectorSpecial (fld w 4 12) then if fld w 0 4 = 0 then if isWritableSpecial (fld w 4 12) then .ok (.mtsv (bv w 20 5) (bv w 4 12)) else .error .readOnly else .error .reservedField else .error .reservedFunction
  | _ => .error .reservedFunction

/-- Major 0x1F. -/
noncomputable def dec1F (w : Nat) : Except Reject Instr :=
  match fld w 12 3 with
  | 0 => if fld w 0 12 = 0 ∧ fld w 15 10 = 0 then .ok .tret else .error .reservedField
  | 1 => if fld w 15 10 = 0 then .ok (.brk (bv w 0 12)) else .error .reservedField
  | 2 => if fld w 2 10 = 0 ∧ fld w 20 5 = 0 then .ok (.tlane (bv w 15 5) (bv w 0 2)) else .error .reservedField
  | 3 => if fld w 0 12 = 0 ∧ fld w 15 10 = 0 then .ok .tdone else .error .reservedField
  | 4 => if fld w 0 12 = 0 ∧ fld w 15 10 = 0 then .ok .exit else .error .reservedField
  | _ => .error .reservedFunction

/-- Major 0x20. -/
noncomputable def dec20 (w : Nat) : Except Reject Instr :=
  match fld w 4 3 with
  | 0 => if fld w 20 5 ≤ 30 then .ok (.cpLd (bv w 20 5) (bv w 15 5) (bv w 10 5) (bv w 7 3) (bv w 0 4)) else .error .registerRange
  | 1 => if fld w 20 5 ≤ 30 then .ok (.cpSt (bv w 20 5) (bv w 15 5) (bv w 10 5) (bv w 7 3) (bv w 0 4)) else .error .registerRange
  | 2 => if fld w 20 5 ≤ 30 then .ok (.cpLdq (bv w 20 5) (bv w 15 5) (bv w 10 5) (bv w 7 3) (bv w 0 4)) else .error .registerRange
  | 3 => if fld w 15 5 = 0 then if fld w 20 5 ≤ 30 then .ok (.cpFifo (bv w 20 5) (bv w 10 5) (bv w 7 3) (bv w 0 4)) else .error .registerRange else .error .reservedField
  | 4 => if fld w 20 5 ≤ 30 then .ok (.cpMc (bv w 20 5) (bv w 15 5) (bv w 10 5) (bv w 7 3) (bv w 0 4)) else .error .registerRange
  | _ => .error .reservedFunction

/-- Major 0x21. -/
noncomputable def dec21 (w : Nat) : Except Reject Instr :=
  match fld w 4 6 with
  | 0 => if fld w 0 4 = 0 ∧ fld w 10 10 = 0 then .ok (.cpGrant (bv w 20 5)) else .error .reservedField
  | 1 => if fld w 10 10 = 0 then .ok (.cpSlots (bv w 20 5) (bv w 0 4)) else .error .reservedField
  | 2 => if fld w 10 10 = 0 then .ok (.cpCount (bv w 20 5) (bv w 0 4)) else .error .reservedField
  | _ => .error .reservedFunction

/-- Major 0x22. -/
noncomputable def dec22 (w : Nat) : Except Reject Instr :=
  match fld w 4 3 with
  | 0 => if fld w 10 10 = 0 then .ok (.xpRun (bv w 20 5) (bv w 7 3) (bv w 0 4)) else .error .reservedField
  | _ => .error .reservedFunction

/-- Major 0x24. -/
noncomputable def dec24 (w : Nat) : Except Reject Instr :=
  match fld w 4 3 with
  | 0 => if fld w 10 10 = 0 then .ok (.mtask (bv w 20 5) (bv w 7 3) (bv w 0 4)) else .error .reservedField
  | 1 => if fld w 10 10 = 0 then .ok (.mdrain (bv w 20 5) (bv w 7 3) (bv w 0 4)) else .error .reservedField
  | 2 => if fld w 7 8 = 0 then .ok (.mstat (bv w 20 5) (bv w 15 5) (bv w 0 4)) else .error .reservedField
  | _ => .error .reservedFunction

noncomputable def dec28 (w : Nat) : Except Reject Instr :=
  if fld w 4 3 ≤ 6 then .ok (.ldAcqB32 (bv w 18 7) (bv w 11 7) (bv w 7 4) (bv w 4 3) (bv w 0 4)) else .error .reservedScope

noncomputable def dec29 (w : Nat) : Except Reject Instr :=
  if fld w 4 3 ≤ 6 then .ok (.stRelB32 (bv w 18 7) (bv w 11 7) (bv w 7 4) (bv w 4 3) (bv w 0 4)) else .error .reservedScope

/-- Major 0x2A. -/
noncomputable def dec2A (w : Nat) : Except Reject Instr :=
  match fld w 4 3 with
  | 0 => if 1 ≤ fld w 7 3 ∧ fld w 7 3 ≤ 6 then if fld w 0 4 = 0 ∧ fld w 10 15 = 0 then .ok (.fence (bv w 7 3)) else .error .reservedField else .error .reservedFunction
  | 1 => if 1 ≤ fld w 7 3 ∧ fld w 7 3 ≤ 6 then if fld w 0 4 = 0 ∧ fld w 10 15 = 0 then .ok (.fenceRel (bv w 7 3)) else .error .reservedField else .error .reservedFunction
  | 2 => if 1 ≤ fld w 7 3 ∧ fld w 7 3 ≤ 6 then if fld w 0 4 = 0 ∧ fld w 10 15 = 0 then .ok (.fenceAcq (bv w 7 3)) else .error .reservedField else .error .reservedFunction
  | 3 => if fld w 7 3 = 0 then if fld w 0 4 = 0 ∧ fld w 7 8 = 0 then .ok (.cwbRange (bv w 20 5) (bv w 15 5)) else .error .reservedField else .error .reservedFunction
  | 4 => if fld w 7 3 = 0 then if fld w 0 4 = 0 ∧ fld w 7 8 = 0 then .ok (.cinvRange (bv w 20 5) (bv w 15 5)) else .error .reservedField else .error .reservedFunction
  | 5 => if fld w 7 3 = 0 then if fld w 0 4 = 0 ∧ fld w 7 8 = 0 then .ok (.icinvRange (bv w 20 5) (bv w 15 5)) else .error .reservedField else .error .reservedFunction
  | 6 => if fld w 7 3 = 0 then if fld w 7 13 = 0 then .ok (.twinStat (bv w 20 5) (bv w 0 4)) else .error .reservedField else .error .reservedFunction
  | _ => .error .reservedFunction

/-- Major 0x2B. -/
noncomputable def dec2B (w : Nat) : Except Reject Instr :=
  match fld w 4 3 with
  | 0 => if fld w 7 8 = 0 then .ok (.mcas (bv w 20 5) (bv w 15 5) (bv w 0 4)) else .error .reservedField
  | 1 => if fld w 0 4 = 0 ∧ fld w 7 8 = 0 then .ok (.tlbinv (bv w 20 5) (bv w 15 5)) else .error .reservedField
  | _ => .error .reservedFunction

/-- Major 0x2C. That a nonzero fn 9:7 takes code 0x04 and not 0x03 is a DESIGN CHOICE (log entry 116). -/
noncomputable def dec2C (w : Nat) : Except Reject Instr :=
  match fld w 4 3 with
  | 0 => if fld w 7 3 = 0 then .ok (.swmAlloc (bv w 20 5) (bv w 15 5) (bv w 10 5) (bv w 0 4)) else .error .reservedField
  | 1 => if fld w 7 3 = 0 then .ok (.swmMap (bv w 20 5) (bv w 15 5) (bv w 10 5) (bv w 0 4)) else .error .reservedField
  | 2 => if fld w 7 8 = 0 then .ok (.swmUnmap (bv w 20 5) (bv w 15 5) (bv w 0 4)) else .error .reservedField
  | 3 => if fld w 7 8 = 0 then .ok (.swmFree (bv w 20 5) (bv w 15 5) (bv w 0 4)) else .error .reservedField
  | _ => .error .reservedFunction

/-- Major 0x2D. -/
noncomputable def dec2D (w : Nat) : Except Reject Instr :=
  match fld w 4 3 with
  | 0 => .ok (.fmc (bv w 20 5) (bv w 15 5) (bv w 10 5) (bv w 7 3) (bv w 0 4))
  | 1 => .ok (.fred (bv w 20 5) (bv w 15 5) (bv w 10 5) (bv w 7 3) (bv w 0 4))
  | _ => .error .reservedFunction

/-- Major 0x2E. -/
noncomputable def dec2E (w : Nat) : Except Reject Instr :=
  match fld w 4 3 with
  | 0 => if fld w 10 5 = 0 then .ok (.fsig (bv w 20 5) (bv w 15 5) (bv w 7 3) (bv w 0 4)) else .error .reservedField
  | 1 => if fld w 7 13 = 0 then .ok (.fstat (bv w 20 5) (bv w 0 4)) else .error .reservedField
  | _ => .error .reservedFunction

/-- Major 0x30. That a nonzero fn 9:7 takes code 0x04 and not 0x03 is a DESIGN CHOICE (log entry 116). -/
noncomputable def dec30 (w : Nat) : Except Reject Instr :=
  match fld w 4 3 with
  | 0 => if fld w 7 8 = 0 then .ok (.ndLaunch (bv w 20 5) (bv w 15 5) (bv w 0 4)) else .error .reservedField
  | 1 => if fld w 7 3 = 0 then .ok (.ndSignal (bv w 20 5) (bv w 15 5) (bv w 10 5) (bv w 0 4)) else .error .reservedField
  | 2 => if fld w 7 8 = 0 then .ok (.ndStat (bv w 20 5) (bv w 15 5) (bv w 0 4)) else .error .reservedField
  | _ => .error .reservedFunction

/-- Major 0x32. -/
noncomputable def dec32 (w : Nat) : Except Reject Instr :=
  match fld w 4 3 with
  | 0 => if fld w 0 4 = 0 ∧ fld w 7 8 = 0 then .ok (.sqBind (bv w 20 5) (bv w 15 5)) else .error .reservedField
  | 1 => if fld w 0 4 = 0 ∧ fld w 7 13 = 0 then .ok (.sqUnbind (bv w 20 5)) else .error .reservedField
  | 2 => if fld w 0 4 = 0 ∧ fld w 7 8 = 0 then .ok (.sqQuery (bv w 20 5) (bv w 15 5)) else .error .reservedField
  | 3 => if fld w 0 4 = 0 ∧ fld w 7 3 = 0 ∧ fld w 20 5 = 0 then .ok (.sqImg (bv w 15 5) (bv w 10 5)) else .error .reservedField
  | _ => .error .reservedFunction

/-- The word w (bit 31, the chain bit, plays no part), by its major (R73). -/
noncomputable def decodeNat (w : Nat) : Except Reject Instr :=
  match fld w 25 6 with
  | 0 => if w % 2 ^ 32 = 0 then .error .zeroWord else .error .reservedMajor
  | 0x01 => dec01 w
  | 0x02 => dec02 w
  | 0x03 => dec03 w
  | 0x04 => dec04 w
  | 0x05 => dec05 w
  | 0x06 => dec06 w
  | 0x07 => dec07 w
  | 0x08 => dec08 w
  | 0x09 => dec09 w
  | 0x0A => dec0A w
  | 0x0B => dec0B w
  | 0x0C => dec0C w
  | 0x0D => dec0D w
  | 0x0E => dec0E w
  | 0x0F => dec0F w
  | 0x10 => dec10 w
  | 0x11 => dec11 w
  | 0x12 => dec12 w
  | 0x13 => dec13 w
  | 0x14 => dec14 w
  | 0x15 => dec15 w
  | 0x16 => dec16 w
  | 0x17 => dec17 w
  | 0x18 => dec18 w
  | 0x19 => dec19 w
  | 0x1A => dec1A w
  | 0x1B => dec1B w
  | 0x1C => dec1C w
  | 0x1D => dec1D w
  | 0x1E => dec1E w
  | 0x1F => dec1F w
  | 0x20 => dec20 w
  | 0x21 => dec21 w
  | 0x22 => dec22 w
  | 0x24 => dec24 w
  | 0x28 => dec28 w
  | 0x29 => dec29 w
  | 0x2A => dec2A w
  | 0x2B => dec2B w
  | 0x2C => dec2C w
  | 0x2D => dec2D w
  | 0x2E => dec2E w
  | 0x30 => dec30 w
  | 0x32 => dec32 w
  | 0x23 => .error .reservedFunction
  | 0x25 => .error .reservedFunction
  | 0x26 => .error .reservedFunction
  | 0x27 => .error .reservedFunction
  | 0x2F => .error .reservedFunction
  | 0x31 => .error .reservedFunction
  | 0x33 => .error .reservedFunction
  | 0x38 => .ok (.dwx (bv w 25 2) (bv w 18 7) (bv w 11 7) (bv w 4 7) (bv w 0 4))
  | 0x39 => .ok (.dwx (bv w 25 2) (bv w 18 7) (bv w 11 7) (bv w 4 7) (bv w 0 4))
  | 0x3A => .ok (.dwx (bv w 25 2) (bv w 18 7) (bv w 11 7) (bv w 4 7) (bv w 0 4))
  | 0x3B => .ok (.dwx (bv w 25 2) (bv w 18 7) (bv w 11 7) (bv w 4 7) (bv w 0 4))
  | _ => .error .reservedMajor

/-- The chain bit of a word (R67). -/
def chainBit (w : Nat) : Bool := w / 2 ^ 31 % 2 = 1

/-- The number a word's four bytes hold, the lowest address first (R1). -/
def wordOfBytes (b0 b1 b2 b3 : Byte) : Nat :=
  b0.toNat + b1.toNat * 2 ^ 8 + b2.toNat * 2 ^ 16 + b3.toNat * 2 ^ 24

/-- The instruction at the head of a byte string, its chain bit, and the rest. -/
noncomputable def decodeBytes : List Byte → Option (Except Reject Instr × Bool × List Byte)
  | b0 :: b1 :: b2 :: b3 :: rest =>
    some (decodeNat (wordOfBytes b0 b1 b2 b3), chainBit (wordOfBytes b0 b1 b2 b3), rest)
  | _ => none

/-- The instruction this decoder reads from a word whose bits are w. Every word of the SZ-9 has 32 bits. -/
noncomputable def decodeTableWord (nbits w : Nat) : Option Instr :=
  match decodeBytes [BitVec.ofNat 8 w, BitVec.ofNat 8 (w / 2 ^ 8), BitVec.ofNat 8 (w / 2 ^ 16), BitVec.ofNat 8 (w / 2 ^ 24)] with
  | some (.ok i, _, _) => if nbits = 0 then none else some i
  | _ => none

/-- A pattern with 1 field put into it. -/
def put1 (m : Nat) {w1 : Nat} (x1 : BitVec w1) (k1 : Nat) : Nat :=
  m + x1.toNat * 2 ^ k1

/-- A pattern with 2 fields put into it. -/
def put2 (m : Nat) {w1 : Nat} (x1 : BitVec w1) (k1 : Nat) {w2 : Nat} (x2 : BitVec w2) (k2 : Nat) : Nat :=
  m + x1.toNat * 2 ^ k1 + x2.toNat * 2 ^ k2

/-- A pattern with 3 fields put into it. -/
def put3 (m : Nat) {w1 : Nat} (x1 : BitVec w1) (k1 : Nat) {w2 : Nat} (x2 : BitVec w2) (k2 : Nat) {w3 : Nat} (x3 : BitVec w3) (k3 : Nat) : Nat :=
  m + x1.toNat * 2 ^ k1 + x2.toNat * 2 ^ k2 + x3.toNat * 2 ^ k3

/-- A pattern with 4 fields put into it. -/
def put4 (m : Nat) {w1 : Nat} (x1 : BitVec w1) (k1 : Nat) {w2 : Nat} (x2 : BitVec w2) (k2 : Nat) {w3 : Nat} (x3 : BitVec w3) (k3 : Nat) {w4 : Nat} (x4 : BitVec w4) (k4 : Nat) : Nat :=
  m + x1.toNat * 2 ^ k1 + x2.toNat * 2 ^ k2 + x3.toNat * 2 ^ k3 + x4.toNat * 2 ^ k4

/-- A pattern with 5 fields put into it. -/
def put5 (m : Nat) {w1 : Nat} (x1 : BitVec w1) (k1 : Nat) {w2 : Nat} (x2 : BitVec w2) (k2 : Nat) {w3 : Nat} (x3 : BitVec w3) (k3 : Nat) {w4 : Nat} (x4 : BitVec w4) (k4 : Nat) {w5 : Nat} (x5 : BitVec w5) (k5 : Nat) : Nat :=
  m + x1.toNat * 2 ^ k1 + x2.toNat * 2 ^ k2 + x3.toNat * 2 ^ k3 + x4.toNat * 2 ^ k4 + x5.toNat * 2 ^ k5

/-- A pattern with 6 fields put into it. -/
def put6 (m : Nat) {w1 : Nat} (x1 : BitVec w1) (k1 : Nat) {w2 : Nat} (x2 : BitVec w2) (k2 : Nat) {w3 : Nat} (x3 : BitVec w3) (k3 : Nat) {w4 : Nat} (x4 : BitVec w4) (k4 : Nat) {w5 : Nat} (x5 : BitVec w5) (k5 : Nat) {w6 : Nat} (x6 : BitVec w6) (k6 : Nat) : Nat :=
  m + x1.toNat * 2 ^ k1 + x2.toNat * 2 ^ k2 + x3.toNat * 2 ^ k3 + x4.toNat * 2 ^ k4 + x5.toNat * 2 ^ k5 + x6.toNat * 2 ^ k6

/-- The word of an instruction with its chain bit clear, by the encodings of R71 and the instruction chapters (a row
without an encoding has none: 0). -/
def encodeNat : Instr → Nat
  | .nop => 0x02000000
  | .sadd d a b => put3 0x02000000 d 20 a 15 b 10
  | .ssub d a b => put3 0x02000010 d 20 a 15 b 10
  | .smul d a b => put3 0x02000020 d 20 a 15 b 10
  | .smulhI64 d a b => put3 0x02000030 d 20 a 15 b 10
  | .smulhN64 d a b => put3 0x02000040 d 20 a 15 b 10
  | .sdivI64 d a b => put3 0x02000050 d 20 a 15 b 10
  | .sdivN64 d a b => put3 0x02000060 d 20 a 15 b 10
  | .sremI64 d a b => put3 0x02000070 d 20 a 15 b 10
  | .sremN64 d a b => put3 0x02000080 d 20 a 15 b 10
  | .sand d a b => put3 0x02000090 d 20 a 15 b 10
  | .sor d a b => put3 0x020000A0 d 20 a 15 b 10
  | .sxor d a b => put3 0x020000B0 d 20 a 15 b 10
  | .sandn d a b => put3 0x020000C0 d 20 a 15 b 10
  | .sshl d a b => put3 0x020000D0 d 20 a 15 b 10
  | .sshrN64 d a b => put3 0x020000E0 d 20 a 15 b 10
  | .sshrI64 d a b => put3 0x020000F0 d 20 a 15 b 10
  | .sminI64 d a b => put3 0x02000100 d 20 a 15 b 10
  | .sminN64 d a b => put3 0x02000110 d 20 a 15 b 10
  | .smaxI64 d a b => put3 0x02000120 d 20 a 15 b 10
  | .smaxN64 d a b => put3 0x02000130 d 20 a 15 b 10
  | .spopc d a => put2 0x02000140 d 20 a 15
  | .sclz d a => put2 0x02000150 d 20 a 15
  | .sctz d a => put2 0x02000160 d 20 a 15
  | .saddi d a i => put3 0x04000000 d 20 a 15 i 0
  | .sandi d a i => put3 0x04001000 d 20 a 15 i 0
  | .sori d a i => put3 0x04002000 d 20 a 15 i 0
  | .sxori d a i => put3 0x04003000 d 20 a 15 i 0
  | .sshli d a i => put3 0x04004000 d 20 a 15 i 0
  | .sshriN64 d a i => put3 0x04005000 d 20 a 15 i 0
  | .sshriI64 d a i => put3 0x04006000 d 20 a 15 i 0
  | .smuli d a i => put3 0x04007000 d 20 a 15 i 0
  | .sli d i => put2 0x06000000 d 20 i 0
  | .sliu d i => put2 0x06010000 d 20 i 0
  | .sinsH0 d i => put2 0x06020000 d 20 i 0
  | .sinsH1 d i => put2 0x06030000 d 20 i 0
  | .sinsH2 d i => put2 0x06040000 d 20 i 0
  | .sinsH3 d i => put2 0x06050000 d 20 i 0
  | .vget d n a => put3 0x06060000 d 20 n 7 a 0
  | .pget d p => put2 0x06070000 d 20 p 0
  | .psets a p => put2 0x06080000 a 20 p 0
  | .seq d a b => put3 0x08000000 d 20 a 15 b 10
  | .sne d a b => put3 0x08000010 d 20 a 15 b 10
  | .sltI64 d a b => put3 0x08000020 d 20 a 15 b 10
  | .sleI64 d a b => put3 0x08000030 d 20 a 15 b 10
  | .sltN64 d a b => put3 0x08000040 d 20 a 15 b 10
  | .sleN64 d a b => put3 0x08000050 d 20 a 15 b 10
  | .pand d a b => put3 0x08000080 d 20 a 15 b 10
  | .por d a b => put3 0x08000090 d 20 a 15 b 10
  | .pxor d a b => put3 0x080000A0 d 20 a 15 b 10
  | .pandn d a b => put3 0x080000B0 d 20 a 15 b 10
  | .pnot d a => put2 0x080000C0 d 20 a 15
  | .ppopc d a => put2 0x080000D0 d 20 a 15
  | .pffs d a => put2 0x080000E0 d 20 a 15
  | .pfill d a => put2 0x080000F0 d 20 a 15
  | .sldB64 d a b l => put4 0x0A000000 d 20 a 15 b 10 l 0
  | .sldN32 d a b l => put4 0x0A000080 d 20 a 15 b 10 l 0
  | .sldI32 d a b l => put4 0x0A000100 d 20 a 15 b 10 l 0
  | .sldNf d a b t l => put5 0x0A000180 d 20 a 15 b 10 t 4 l 0
  | .sstB64 v a b l => put4 0x0A000200 v 20 a 15 b 10 l 0
  | .sstB32 v a b l => put4 0x0A000280 v 20 a 15 b 10 l 0
  | .sstNf v a b t l => put5 0x0A000300 v 20 a 15 b 10 t 4 l 0
  | .br o => put1 0x0C000000 o 0
  | .call o => put1 0x0C100000 o 0
  | .ret => 0x0C200000
  | .callr => 0x0C300000
  | .bany p o => put2 0x0E000000 p 22 o 0
  | .ball p o => put2 0x0E100000 p 22 o 0
  | .bnone p o => put2 0x0E200000 p 22 o 0
  | .bnall p o => put2 0x0E300000 p 22 o 0
  | .split p o => put2 0x10000000 p 22 o 0
  | .elseArm o => put1 0x10100000 o 0
  | .join => 0x10200000
  | .mand p => put1 0x10300000 p 22
  | .mandn p => put1 0x10310000 p 22
  | .dspop d => put1 0x10320000 d 0
  | .dspush a => put1 0x10330000 a 0
  | .dsdepth d => put1 0x10340000 d 0
  | .dbnz k o => put2 0x12000000 k 22 o 0
  | .bz k o => put2 0x12100000 k 22 o 0
  | .bnz k o => put2 0x12200000 k 22 o 0
  | .vaddI32 d a b => put3 0x14000000 d 18 a 11 b 4
  | .vsubI32 d a b => put3 0x14000001 d 18 a 11 b 4
  | .vmulI32 d a b => put3 0x14000002 d 18 a 11 b 4
  | .vmulhI32 d a b => put3 0x14000003 d 18 a 11 b 4
  | .vmulhN32 d a b => put3 0x14000004 d 18 a 11 b 4
  | .vandB32 d a b => put3 0x14000005 d 18 a 11 b 4
  | .vorB32 d a b => put3 0x14000006 d 18 a 11 b 4
  | .vxorB32 d a b => put3 0x14000007 d 18 a 11 b 4
  | .vandnB32 d a b => put3 0x14000008 d 18 a 11 b 4
  | .vshlB32 d a b => put3 0x14000009 d 18 a 11 b 4
  | .vshrN32 d a b => put3 0x1400000A d 18 a 11 b 4
  | .vshrI32 d a b => put3 0x1400000B d 18 a 11 b 4
  | .vminI32 d a b => put3 0x1400000C d 18 a 11 b 4
  | .vmaxI32 d a b => put3 0x1400000D d 18 a 11 b 4
  | .vminN32 d a b => put3 0x1400000E d 18 a 11 b 4
  | .vmaxN32 d a b => put3 0x1400000F d 18 a 11 b 4
  | .vaddsI32 d a b => put3 0x16000000 d 18 a 11 b 4
  | .vaddsN32 d a b => put3 0x16000001 d 18 a 11 b 4
  | .vsubsI32 d a b => put3 0x16000002 d 18 a 11 b 4
  | .vsubsN32 d a b => put3 0x16000003 d 18 a 11 b 4
  | .vabsI32 d a => put2 0x16000004 d 18 a 11
  | .vnegI32 d a => put2 0x16000005 d 18 a 11
  | .vpopcB32 d a => put2 0x16000006 d 18 a 11
  | .vclzB32 d a => put2 0x16000007 d 18 a 11
  | .vbrevB32 d a => put2 0x16000008 d 18 a 11
  | .vmadI32 d a b => put3 0x16000009 d 18 a 11 b 4
  | .vabsdN32 d a b => put3 0x1600000A d 18 a 11 b 4
  | .vabsdI32 d a b => put3 0x1600000B d 18 a 11 b 4
  | .vavgN32 d a b => put3 0x1600000C d 18 a 11 b 4
  | .vrotB32 d a b => put3 0x1600000D d 18 a 11 b 4
  | .vdot4I8 d a b => put3 0x1600000E d 18 a 11 b 4
  | .vdot4N8 d a b => put3 0x1600000F d 18 a 11 b 4
  | .vaddB16 d a b => put3 0x18000000 d 18 a 11 b 4
  | .vsubB16 d a b => put3 0x18000001 d 18 a 11 b 4
  | .vaddsI16 d a b => put3 0x18000002 d 18 a 11 b 4
  | .vaddsN16 d a b => put3 0x18000003 d 18 a 11 b 4
  | .vaddB8 d a b => put3 0x18000004 d 18 a 11 b 4
  | .vsubB8 d a b => put3 0x18000005 d 18 a 11 b 4
  | .vaddsI8 d a b => put3 0x18000006 d 18 a 11 b 4
  | .vaddsN8 d a b => put3 0x18000007 d 18 a 11 b 4
  | .vminI16 d a b => put3 0x18000008 d 18 a 11 b 4
  | .vmaxI16 d a b => put3 0x18000009 d 18 a 11 b 4
  | .vminN8 d a b => put3 0x1800000A d 18 a 11 b 4
  | .vmaxN8 d a b => put3 0x1800000B d 18 a 11 b 4
  | .vpermB8 d a b => put3 0x1800000C d 18 a 11 b 4
  | .vshlB16 d a b => put3 0x1800000D d 18 a 11 b 4
  | .vshrN16 d a b => put3 0x1800000E d 18 a 11 b 4
  | .vshrI16 d a b => put3 0x1800000F d 18 a 11 b 4
  | .vaddF32 d a b => put3 0x1A000000 d 18 a 11 b 4
  | .vsubF32 d a b => put3 0x1A000001 d 18 a 11 b 4
  | .vmulF32 d a b => put3 0x1A000002 d 18 a 11 b 4
  | .vfmaF32 d a b => put3 0x1A000003 d 18 a 11 b 4
  | .vfmsF32 d a b => put3 0x1A000004 d 18 a 11 b 4
  | .vminF32 d a b => put3 0x1A000005 d 18 a 11 b 4
  | .vmaxF32 d a b => put3 0x1A000006 d 18 a 11 b 4
  | .vabsF32 d a => put2 0x1A000007 d 18 a 11
  | .vnegF32 d a => put2 0x1A000008 d 18 a 11
  | .vdivF32 d a b => put3 0x1A000009 d 18 a 11 b 4
  | .vsqrtF32 d a => put2 0x1A00000A d 18 a 11
  | .vfloorF32 d a => put2 0x1A00000B d 18 a 11
  | .vceilF32 d a => put2 0x1A00000C d 18 a 11
  | .vtruncF32 d a => put2 0x1A00000D d 18 a 11
  | .vrintF32 d a => put2 0x1A00000E d 18 a 11
  | .vscaleF32 d a b => put3 0x1A00000F d 18 a 11 b 4
  | .vmaxabsF32 d a b => put3 0x1C000000 d 18 a 11 b 4
  | .vcopysignF32 d a b => put3 0x1C000001 d 18 a 11 b 4
  | .vclassF32 d a => put2 0x1C000002 d 18 a 11
  | .vexpoF32 d a => put2 0x1C000003 d 18 a 11
  | .vminnanF32 d a b => put3 0x1C000004 d 18 a 11 b 4
  | .vmaxnanF32 d a b => put3 0x1C000005 d 18 a 11 b 4
  | .vexp2ApxF32 d a l => put3 0x1E000000 d 18 a 11 l 0
  | .vlog2ApxF32 d a l => put3 0x1E000080 d 18 a 11 l 0
  | .vrcpApxF32 d a l => put3 0x1E000100 d 18 a 11 l 0
  | .vrsqrtApxF32 d a l => put3 0x1E000180 d 18 a 11 l 0
  | .vaddBf16 d a b => put3 0x20000000 d 18 a 11 b 4
  | .vmulBf16 d a b => put3 0x20000001 d 18 a 11 b 4
  | .vfmaBf16 d a b => put3 0x20000002 d 18 a 11 b 4
  | .vminBf16 d a b => put3 0x20000003 d 18 a 11 b 4
  | .vmaxBf16 d a b => put3 0x20000004 d 18 a 11 b 4
  | .vdot2F32Bf16 d a b => put3 0x20000005 d 18 a 11 b 4
  | .vsubBf16 d a b => put3 0x20000006 d 18 a 11 b 4
  | .vaddF16 d a b => put3 0x20000008 d 18 a 11 b 4
  | .vmulF16 d a b => put3 0x20000009 d 18 a 11 b 4
  | .vfmaF16 d a b => put3 0x2000000A d 18 a 11 b 4
  | .vminF16 d a b => put3 0x2000000B d 18 a 11 b 4
  | .vmaxF16 d a b => put3 0x2000000C d 18 a 11 b 4
  | .vdot2F32F16 d a b => put3 0x2000000D d 18 a 11 b 4
  | .vsubF16 d a b => put3 0x2000000E d 18 a 11 b 4
  | .vcvtF32I32 d a m => put3 0x22000000 d 18 a 11 m 8
  | .vcvtF32N32 d a m => put3 0x22000001 d 18 a 11 m 8
  | .vcvtI32F32 d a m => put3 0x22000002 d 18 a 11 m 8
  | .vcvtN32F32 d a m => put3 0x22000003 d 18 a 11 m 8
  | .vcvtBf16F32 d a m => put3 0x22000004 d 18 a 11 m 8
  | .vcvtF16F32 d a m => put3 0x22000005 d 18 a 11 m 8
  | .vcvtF32Bf16 d a m => put3 0x22000006 d 18 a 11 m 8
  | .vcvtF32F16 d a m => put3 0x22000007 d 18 a 11 m 8
  | .vcvtNfF32 d a m t => put4 0x22000008 d 18 a 11 m 8 t 4
  | .vcvtF32Nf d a m t => put4 0x22000009 d 18 a 11 m 8 t 4
  | .vcvtE4m3F32 d a m => put3 0x2200000A d 18 a 11 m 8
  | .vcvtE5m2F32 d a m => put3 0x2200000B d 18 a 11 m 8
  | .vcvtF32E4m3 d a m => put3 0x2200000C d 18 a 11 m 8
  | .vcvtF32E5m2 d a m => put3 0x2200000D d 18 a 11 m 8
  | .vcvthiBf16F32 d a m => put3 0x2200000E d 18 a 11 m 8
  | .vcvthiF16F32 d a m => put3 0x2200000F d 18 a 11 m 8
  | .vcmpEqB32 p a b => put3 0x24000000 p 18 a 11 b 4
  | .vcmpNeB32 p a b => put3 0x24000001 p 18 a 11 b 4
  | .vcmpLtI32 p a b => put3 0x24000002 p 18 a 11 b 4
  | .vcmpLeI32 p a b => put3 0x24000003 p 18 a 11 b 4
  | .vcmpLtN32 p a b => put3 0x24000004 p 18 a 11 b 4
  | .vcmpLeN32 p a b => put3 0x24000005 p 18 a 11 b 4
  | .vcmpEqF32 p a b => put3 0x24000006 p 18 a 11 b 4
  | .vcmpNeF32 p a b => put3 0x24000007 p 18 a 11 b 4
  | .vcmpLtF32 p a b => put3 0x24000008 p 18 a 11 b 4
  | .vcmpLeF32 p a b => put3 0x24000009 p 18 a 11 b 4
  | .vcmpUnF32 p a b => put3 0x2400000A p 18 a 11 b 4
  | .vtestB32 p a b => put3 0x2400000B p 18 a 11 b 4
  | .vshflIdx d a b => put3 0x26000000 d 18 a 11 b 4
  | .vshflUp d a n => put3 0x26000001 d 18 a 11 n 4
  | .vshflDown d a n => put3 0x26000002 d 18 a 11 n 4
  | .vshflXor d a n => put3 0x26000003 d 18 a 11 n 4
  | .vballot d p => put2 0x26000004 d 18 p 11
  | .vvoteAll d p => put2 0x26000005 d 18 p 11
  | .vvoteAny d p => put2 0x26000006 d 18 p 11
  | .vmatchB32 d a => put2 0x26000007 d 18 a 11
  | .vredAddI32 d a => put2 0x26000008 d 18 a 11
  | .vredMaxI32 d a => put2 0x26000009 d 18 a 11
  | .vredMinI32 d a => put2 0x2600000A d 18 a 11
  | .vredAddF32 d a => put2 0x2600000B d 18 a 11
  | .vredMaxF32 d a => put2 0x2600000C d 18 a 11
  | .vscanAddI32 d a => put2 0x2600000D d 18 a 11
  | .vscanxAddI32 d a => put2 0x2600000E d 18 a 11
  | .vscanAddF32 d a => put2 0x2600000F d 18 a 11
  | .vmov d a => put2 0x28000000 d 18 a 11
  | .vli d i => put2 0x28000001 d 18 i 4
  | .vbcast d s => put2 0x28000002 d 18 s 11
  | .vbcasth d s => put2 0x28000003 d 18 s 11
  | .vpmask d p => put2 0x28000004 d 18 p 11
  | .vins d s n => put3 0x28000005 d 18 s 11 n 4
  | .vsel d a b k => put4 0x28000008 d 18 a 11 b 4 k 0
  | .ldB32 d a b l => put4 0x2A000000 d 18 a 11 b 7 l 0
  | .ldNf d a b t l => put5 0x2A000000 d 18 a 11 b 7 t 4 l 0
  | .stB32 v a b l => put4 0x2C000000 v 18 a 11 b 7 l 0
  | .stNf v a b t l => put5 0x2C000000 v 18 a 11 b 7 t 4 l 0
  | .pldB32 d a l => put3 0x2E000000 d 18 a 11 l 0
  | .pldNf d a t l => put4 0x2E000000 d 18 a 11 t 4 l 0
  | .pstB32 v a l => put3 0x2E000100 v 18 a 11 l 0
  | .pstNf v a t l => put4 0x2E000100 v 18 a 11 t 4 l 0
  | .pldB64 d a l => put3 0x2E000200 d 18 a 11 l 0
  | .pstB64 v a l => put3 0x2E000300 v 18 a 11 l 0
  | .ldtrB8 d a t l => put4 0x2E000400 d 18 a 11 t 4 l 0
  | .ldtrB16 d a t l => put4 0x2E000500 d 18 a 11 t 4 l 0
  | .ldtrB32 d a t l => put4 0x2E000600 d 18 a 11 t 4 l 0
  | .atomAdd a s b w l => put5 0x30000040 a 18 s 11 b 7 w 4 l 0
  | .redAdd a s b w l => put5 0x30000000 a 18 s 11 b 7 w 4 l 0
  | .atomAnd a s b w l => put5 0x30004040 a 18 s 11 b 7 w 4 l 0
  | .redAnd a s b w l => put5 0x30004000 a 18 s 11 b 7 w 4 l 0
  | .atomOr a s b w l => put5 0x30008040 a 18 s 11 b 7 w 4 l 0
  | .redOr a s b w l => put5 0x30008000 a 18 s 11 b 7 w 4 l 0
  | .atomXor a s b w l => put5 0x3000C040 a 18 s 11 b 7 w 4 l 0
  | .redXor a s b w l => put5 0x3000C000 a 18 s 11 b 7 w 4 l 0
  | .atomMinI a s b w l => put5 0x30010040 a 18 s 11 b 7 w 4 l 0
  | .redMinI a s b w l => put5 0x30010000 a 18 s 11 b 7 w 4 l 0
  | .atomMaxI a s b w l => put5 0x30014040 a 18 s 11 b 7 w 4 l 0
  | .redMaxI a s b w l => put5 0x30014000 a 18 s 11 b 7 w 4 l 0
  | .atomMinN a s b w l => put5 0x30018040 a 18 s 11 b 7 w 4 l 0
  | .redMinN a s b w l => put5 0x30018000 a 18 s 11 b 7 w 4 l 0
  | .atomMaxN a s b w l => put5 0x3001C040 a 18 s 11 b 7 w 4 l 0
  | .redMaxN a s b w l => put5 0x3001C000 a 18 s 11 b 7 w 4 l 0
  | .atomExch a s b w l => put5 0x30020040 a 18 s 11 b 7 w 4 l 0
  | .redExch a s b w l => put5 0x30020000 a 18 s 11 b 7 w 4 l 0
  | .atomCas a s b w l => put5 0x30024040 a 18 s 11 b 7 w 4 l 0
  | .atomInc a s b w l => put5 0x30028040 a 18 s 11 b 7 w 4 l 0
  | .redInc a s b w l => put5 0x30028000 a 18 s 11 b 7 w 4 l 0
  | .atomDec a s b w l => put5 0x3002C040 a 18 s 11 b 7 w 4 l 0
  | .redDec a s b w l => put5 0x3002C000 a 18 s 11 b 7 w 4 l 0
  | .atomFadd a s b l => put4 0x30030040 a 18 s 11 b 7 l 0
  | .redFadd a s b l => put4 0x30030000 a 18 s 11 b 7 l 0
  | .atomFmax a s b l => put4 0x30034040 a 18 s 11 b 7 l 0
  | .redFmax a s b l => put4 0x30034000 a 18 s 11 b 7 l 0
  | .atomFmin a s b l => put4 0x30038040 a 18 s 11 b 7 l 0
  | .redFmin a s b l => put4 0x30038000 a 18 s 11 b 7 l 0
  | .patomAdd a b w l => put4 0x32000040 a 18 b 7 w 4 l 0
  | .predAdd a b w l => put4 0x32000000 a 18 b 7 w 4 l 0
  | .patomAnd a b w l => put4 0x32004040 a 18 b 7 w 4 l 0
  | .predAnd a b w l => put4 0x32004000 a 18 b 7 w 4 l 0
  | .patomOr a b w l => put4 0x32008040 a 18 b 7 w 4 l 0
  | .predOr a b w l => put4 0x32008000 a 18 b 7 w 4 l 0
  | .patomXor a b w l => put4 0x3200C040 a 18 b 7 w 4 l 0
  | .predXor a b w l => put4 0x3200C000 a 18 b 7 w 4 l 0
  | .patomMinI a b w l => put4 0x32010040 a 18 b 7 w 4 l 0
  | .predMinI a b w l => put4 0x32010000 a 18 b 7 w 4 l 0
  | .patomMaxI a b w l => put4 0x32014040 a 18 b 7 w 4 l 0
  | .predMaxI a b w l => put4 0x32014000 a 18 b 7 w 4 l 0
  | .patomMinN a b w l => put4 0x32018040 a 18 b 7 w 4 l 0
  | .predMinN a b w l => put4 0x32018000 a 18 b 7 w 4 l 0
  | .patomMaxN a b w l => put4 0x3201C040 a 18 b 7 w 4 l 0
  | .predMaxN a b w l => put4 0x3201C000 a 18 b 7 w 4 l 0
  | .patomExch a b w l => put4 0x32020040 a 18 b 7 w 4 l 0
  | .predExch a b w l => put4 0x32020000 a 18 b 7 w 4 l 0
  | .patomCas a b w l => put4 0x32024040 a 18 b 7 w 4 l 0
  | .patomInc a b w l => put4 0x32028040 a 18 b 7 w 4 l 0
  | .predInc a b w l => put4 0x32028000 a 18 b 7 w 4 l 0
  | .patomDec a b w l => put4 0x3202C040 a 18 b 7 w 4 l 0
  | .predDec a b w l => put4 0x3202C000 a 18 b 7 w 4 l 0
  | .patomFadd a b l => put3 0x32030040 a 18 b 7 l 0
  | .predFadd a b l => put3 0x32030000 a 18 b 7 l 0
  | .patomFmax a b l => put3 0x32034040 a 18 b 7 l 0
  | .predFmax a b l => put3 0x32034000 a 18 b 7 l 0
  | .patomFmin a b l => put3 0x32038040 a 18 b 7 l 0
  | .predFmin a b l => put3 0x32038000 a 18 b 7 l 0
  | .barInit a b l => put3 0x34000000 a 20 b 15 l 0
  | .barArrive a c s l => put4 0x34000010 a 20 c 10 s 7 l 0
  | .barArrivet d b c s l => put5 0x34000020 d 20 b 15 c 10 s 7 l 0
  | .barExpect a b l => put3 0x34000030 a 20 b 15 l 0
  | .barWait a b s => put3 0x34000040 a 20 b 15 s 7
  | .barTest d b l => put3 0x34000050 d 20 b 15 l 0
  | .barDrop a l => put2 0x34000060 a 20 l 0
  | .qpush b q => put2 0x36000000 b 15 q 10
  | .qpop d q => put2 0x36000010 d 20 q 10
  | .qtrypush d b q l => put4 0x36000020 d 20 b 15 q 10 l 0
  | .qtrypop d q l => put3 0x36000030 d 20 q 10 l 0
  | .ownGive a b l => put3 0x38000000 a 20 b 15 l 0
  | .ownTake a b => put2 0x38000010 a 20 b 15
  | .ownTest d b l => put3 0x38000020 d 20 b 15 l 0
  | .mwatch d b l => put3 0x3A000000 d 20 b 15 l 0
  | .mwait d b => put2 0x3A000010 d 20 b 15
  | .sleep a => put1 0x3A000020 a 20
  | .mclear l => put1 0x3A000030 l 0
  | .mfs d x => put2 0x3C000000 d 20 x 4
  | .mts a x => put2 0x3C010000 a 20 x 4
  | .mfsv d x => put2 0x3C020000 d 20 x 4
  | .mtsv a x => put2 0x3C030000 a 20 x 4
  | .tret => 0x3E000000
  | .brk i => put1 0x3E001000 i 0
  | .tlane a e => put2 0x3E002000 a 15 e 0
  | .tdone => 0x3E003000
  | .exit => 0x3E004000
  | .cpLd a b c k l => put5 0x40000000 a 20 b 15 c 10 k 7 l 0
  | .cpSt a b c k l => put5 0x40000010 a 20 b 15 c 10 k 7 l 0
  | .cpLdq a b c k l => put5 0x40000020 a 20 b 15 c 10 k 7 l 0
  | .cpFifo a c k l => put4 0x40000030 a 20 c 10 k 7 l 0
  | .cpMc a b c k l => put5 0x40000040 a 20 b 15 c 10 k 7 l 0
  | .cpGrant a => put1 0x42000000 a 20
  | .cpSlots d l => put2 0x42000010 d 20 l 0
  | .cpCount d l => put2 0x42000020 d 20 l 0
  | .xpRun a k l => put3 0x44000000 a 20 k 7 l 0
  | .mtask a k l => put3 0x48000000 a 20 k 7 l 0
  | .mdrain a k l => put3 0x48000010 a 20 k 7 l 0
  | .mstat d b l => put3 0x48000020 d 20 b 15 l 0
  | .ldAcqB32 d a b s l => put5 0x50000000 d 18 a 11 b 7 s 4 l 0
  | .stRelB32 v a b s l => put5 0x52000000 v 18 a 11 b 7 s 4 l 0
  | .fence s => put1 0x54000000 s 7
  | .fenceRel s => put1 0x54000010 s 7
  | .fenceAcq s => put1 0x54000020 s 7
  | .cwbRange a b => put2 0x54000030 a 20 b 15
  | .cinvRange a b => put2 0x54000040 a 20 b 15
  | .icinvRange a b => put2 0x54000050 a 20 b 15
  | .twinStat d l => put2 0x54000060 d 20 l 0
  | .mcas d b l => put3 0x56000000 d 20 b 15 l 0
  | .tlbinv a b => put2 0x56000010 a 20 b 15
  | .swmAlloc d b c l => put4 0x58000000 d 20 b 15 c 10 l 0
  | .swmMap d b c l => put4 0x58000010 d 20 b 15 c 10 l 0
  | .swmUnmap d b l => put3 0x58000020 d 20 b 15 l 0
  | .swmFree d b l => put3 0x58000030 d 20 b 15 l 0
  | .fmc a b c k l => put5 0x5A000000 a 20 b 15 c 10 k 7 l 0
  | .fred a b c k l => put5 0x5A000010 a 20 b 15 c 10 k 7 l 0
  | .fsig a b k l => put4 0x5C000000 a 20 b 15 k 7 l 0
  | .fstat d l => put2 0x5C000010 d 20 l 0
  | .ndLaunch d b l => put3 0x60000000 d 20 b 15 l 0
  | .ndSignal d b c l => put4 0x60000010 d 20 b 15 c 10 l 0
  | .ndStat d b l => put3 0x60000020 d 20 b 15 l 0
  | .sqBind d b => put2 0x64000000 d 20 b 15
  | .sqUnbind a => put1 0x64000010 a 20
  | .sqQuery d b => put2 0x64000020 d 20 b 15
  | .sqImg b c => put2 0x64000030 b 15 c 10
  | .dwx i d a b n => put5 0x70000000 i 25 d 18 a 11 b 4 n 0
  | .mwaitTimeout _ => 0
  | .sleepEnd _ => 0
  | .sectorLanded _ _ => 0
  | .copyCommandComplete _ _ => 0
  | .copyFaultReport _ _ => 0
  | .taskStart _ => 0
  | .kgroupCompute _ _ => 0
  | .taskComplete _ _ => 0
  | .arrivalApply _ => 0
  | .peerAcknowledge _ _ => 0
  | .matrixFaultReport _ _ => 0
  | .lockGrant _ => 0
  | .earlyPublication _ => 0
  | .evictionPublication _ _ => 0
  | .recordApply _ => 0
  | .releaseComplete _ => 0
  | .forwardedCopyApply _ => 0
  | .fillArrival _ => 0
  | .writeBackApply _ => 0
  | .accessComplete _ _ => 0
  | .takeTrap _ => 0
  | .watchdog _ => 0
  | .uncorrectableError _ _ _ => 0
  | .wcAgeDrain _ _ => 0
  | .writePacketApply _ => 0
  | .acknowledgeReceive _ => 0
  | .remoteFaultReport _ _ => 0
  | .retransmit _ => 0
  | .recoveryDiscard _ => 0
  | .keyRollover _ => 0
  | .drainedFlit _ => 0
  | .linkDown _ => 0
  | .switchLost _ => 0
  | .switchReplaced _ => 0
  | .multicastDelivery _ => 0
  | .reductionContribution _ => 0
  | .residueSend _ _ _ => 0
  | .groupInstall _ _ _ => 0
  | .groupReinstall _ _ => 0
  | .switchTableWrite _ _ _ _ => 0
  | .quotaSet _ _ _ => 0
  | .linkStateUpdate _ _ _ => 0
  | .hostDoorbell _ _ _ => 0
  | .nodeAdmit _ => 0
  | .predecessorSignal _ => 0
  | .ensemblePlace _ _ => 0
  | .ensembleRestore _ _ => 0
  | .nodeComplete _ => 0
  | .eclipseWindowStart _ => 0
  | .eclipseWindowEnd _ => 0
  | .tenantRecordWrite _ _ _ => 0
  | .writeRefusedClear _ => 0
  | .tenantReset _ => 0
  | .warmReset => 0
  | .coldReset => 0
  | .powerOnReset => 0
  | .eventOverflowClear => 0
  | .eventQueueHeadWrite _ => 0
  | .registerWrite _ _ => 0
  | .hostMemLoad _ _ => 0
  | .hostMemStore _ _ => 0
  | .sidebandResetRequest _ _ _ => 0
  | .firmwareUpdate _ => 0
  | .spdmRequest _ => 0
  | .powerCapSet _ => 0
  | .clockThrottle _ => 0
  | .clockRaise _ => 0
  | .thermalTrip _ => 0
  | .spuriousWake _ => 0
  | .saveLimitPassed _ => 0
  | .remoteLoadOrAtomicServe _ => 0
  | .flitAuthenticationFailure _ => 0
  | .voluntaryWriteBack _ _ => 0
  | .capUnreachableEnd => 0
  | .uncorrectableErrorOutsideGang _ _ => 0

/-- The word with its chain bit. -/
def encodeWith (h : Bool) (i : Instr) : Nat := encodeNat i + (if h then 2 ^ 31 else 0)

/-- The word as a bit vector. -/
def encode (i : Instr) : BitVec 32 := BitVec.ofNat 32 (encodeNat i)

end Sys2Proof
end

