-- ==== Sys2Proof/Machine/Special.lean ====
section
/-! DEFINITION. Meanings: moves of special registers, major 0x1E (04 R97-R102, 06 R183). -/

namespace Sys2Proof.Machine

/-! ## Registers that a clock or an eclipse cadence gives (04 R101, R102) -/

/-- `%clk`: the count, off by less than 64 cycles and never backwards; the reading and the state after it. -/
def readClock (s : State) : Nat × State :=
  let x := max s.clkFloor (s.clk + Config.clockSkew s.tick % 64)
  (x, { s with clkFloor := x, tick := s.tick + 1 })

/-- `%ecl`: the bank in eclipse or next in it, whether one is in eclipse, the cycles to the next window, off by at most 64. -/
def readEclipse (s : State) : Nat × State :=
  let E := s.eclipseNow s.g.die.toNat
  let n := (E.next - s.clk) + Config.clockSkew s.tick % 129 - 64
  ((if E.isOpen s then E.bank.toNat + 16 else (E.bank + 1).toNat) + n % 2 ^ 20 * 2 ^ 8, { s with tick := s.tick + 1 })

/-- `%olog` entry e as software sees it (06 R174): the entries of the interrupted code. -/
def LogEntry.bits (x : LogEntry) : Nat :=
  let p : Pc := match x.acc with
    | some a => a.at_
    | none => ⟨0, 0⟩
  p.toBits.toNat + (match x.state with
    | .free => 0
    | .inFlight => 1
    | .faulted => 2) * 2 ^ 34 + (if x.replay then 2 ^ 36 else 0) + (if x.engine then 2 ^ 37 else 0)

/-- A scalar special register but for `%ecl` and `%clk` (04 R97). -/
def scalarSpecial (s : State) (x : Nat) : Nat :=
  let r := s.src
  if x = 0x000 then r.emask.toNat
  else if x = 0x001 then r.blk.toNat
  else if x = 0x002 then r.xstat.toNat
  else if 0x010 ≤ x ∧ x ≤ 0x017 then (slotIdent r (x - 0x010)).toNat
  else if x = 0x021 then s.g.gangNo.toNat
  else if x = 0x022 then s.g.crewNo.toNat
  else if x = 0x023 then s.g.ens.toNat
  else if x = 0x024 then s.g.stage.toNat
  else if x = 0x025 then s.g.node.toNat
  else if x = 0x026 then s.g.die.toNat
  else if x = 0x027 then s.g.core.toNat
  else if x = 0x028 then s.pkg.toNat
  else if x = 0x040 then r.tcause.toNat
  else if x = 0x041 then r.tdet0.toNat
  else if x = 0x042 then r.tdet1.toNat
  else if x = 0x043 then r.tdet2.toNat
  else if x = 0x044 then r.tpc.toNat
  else if x = 0x045 then r.tlanes.toNat
  else if x = 0x046 then r.tslots.toNat
  else if 0x048 ≤ x ∧ x ≤ 0x04B then (s.srcOlog.toList.getD (x - 0x048) LogEntry.empty).bits
  else 0

def readSpecial (d x : Nat) (s : State) : State :=
  let (v, s1) := if x = 0x005 then readClock s else if x = 0x004 then readEclipse s else (scalarSpecial s x, s)
  s1.setR fun r => r.setS d (BitVec.ofNat 64 v)

/-- A scalar special register written: its bits that the register has; `%tslot0` ignores it, `%olog` takes bit 36, `%xstat` bits 7:6
stay zero. -/
def writeSpecial (x : Nat) (v : Dword) (g : Gang) : Gang :=
  let r := g.r
  if x = 0x000 then { g with r := { r with emask := v.setWidth 32 } }
  else if x = 0x001 then { g with r := { r with blk := v.setWidth 11 } }
  else if x = 0x002 then { g with r := { r with xstat := v.setWidth 9 &&& 0x13F } }
  else if 0x011 ≤ x ∧ x ≤ 0x017 then { g with r := { r with tslot := r.tslot.setIfInBounds (x - 0x010) (v.setWidth 8) } }
  else if x = 0x040 then { g with r := { r with tcause := v.setWidth 13 } }
  else if x = 0x041 then { g with r := { r with tdet0 := v.setWidth 32 } }
  else if x = 0x042 then { g with r := { r with tdet1 := v.setWidth 32 } }
  else if x = 0x043 then { g with r := { r with tdet2 := v.setWidth 32 } }
  else if x = 0x044 then { g with r := { r with tpc := v.setWidth 34 } }
  else if x = 0x045 then { g with r := { r with tlanes := v.setWidth 32 } }
  else if x = 0x046 then
    { g with r := { r with tslots := v.setWidth 39 }, reported := g.reported || r.tslots.extractLsb' 36 2 != v.extractLsb' 36 2 }
  else if 0x048 ≤ x ∧ x ≤ 0x04B then
    let e := x - 0x048
    { g with olog := g.olog.setIfInBounds e { g.olog.toList.getD e LogEntry.empty with replay := v.getLsbD 36 } }
  else g

/-- A vector special register: `%srnd` (bits 31:16 zero) or `%lane`. -/
def specialLanes (r : Regs) (x : Nat) : Lanes Word :=
  if x = 0x003 then Lanes.of fun L => r.srnd[L].setWidth 32 else Lanes.of fun L => BitVec.ofNat 32 L.val

def writeSpecialLanes (x : Nat) (m : Word) (v : Lanes Word) (r : Regs) : Regs :=
  if x = 0x003 then { r with srnd := Lanes.of fun L => if lane m L then srndFix (v[L].setWidth 16) else r.srnd[L] } else r

/-- `mfs` (04 R97, R101, R102; 06 R183). -/
def execMfs (d : BitVec 5) (x : BitVec 12) (s : State) : Out :=
  .next (issue ({ major := 0x1E, sw := [d.toNat] }) (fun s => readSpecial d.toNat x.toNat s) s)

/-- `mts` (04 R97; 06 R174, R176, R183). -/
def execMts (a : BitVec 5) (x : BitVec 12) (s : State) : Out :=
  .next (issue ({ major := 0x1E, sr := [a.toNat], sp := [x.toNat] }) (fun s => s.setG fun g => writeSpecial x.toNat (s.src.sreg a.toNat) g) s)

/-- `mfsv` (04 R97, R98; 06 R183). -/
def execMfsv (d : BitVec 5) (x : BitVec 12) (s : State) : Out :=
  .next (issue ({ major := 0x1E, dst := [d.toNat] }) (fun s => s.setR fun r => r.setV d.toNat (merge s.emask (r.vreg d.toNat) (specialLanes s.src x.toNat))) s)

/-- `mtsv` (04 R97, R98; 06 R183). -/
def execMtsv (a : BitVec 5) (x : BitVec 12) (s : State) : Out :=
  .next (issue ({ major := 0x1E, srcD := [a.toNat], sp := [x.toNat] }) (fun s => s.setR fun r => writeSpecialLanes x.toNat s.emask (s.src.vreg a.toNat) r) s)

end Sys2Proof.Machine
end

