-- ==== Sys2Proof/Machine/Shapes.lean ====
section
/-! DEFINITION. What each instruction word says about its issue, for the tests over a chain group (03 R73-R83): the same shapes as the
meanings issue under. The steps without an encoding (95) never issue. -/

namespace Sys2Proof.Machine

/-- The shape of a word. -/
def wordShapeOf (i : Instr) : Shape :=
  match i with
  | .sldB64 d a b l => { major := 5, sr := [a.toNat, b.toNat], sw := [d.toNat], la := l.toNat }
  | .sldN32 d a b l => { major := 5, sr := [a.toNat, b.toNat], sw := [d.toNat], la := l.toNat }
  | .sldI32 d a b l => { major := 5, sr := [a.toNat, b.toNat], sw := [d.toNat], la := l.toNat }
  | .sldNf d a b t l => { major := 5, sr := [a.toNat, b.toNat], sw := [d.toNat], la := l.toNat, bad := codeIf (t.toNat = 0) 0x04 }
  | .sstB64 v a b l => { major := 5, sr := [a.toNat, b.toNat, v.toNat], la := l.toNat }
  | .sstB32 v a b l => { major := 5, sr := [a.toNat, b.toNat, v.toNat], la := l.toNat }
  | .sstNf v a b t l => { major := 5, sr := [a.toNat, b.toNat, v.toNat], la := l.toNat, bad := codeIf (t.toNat = 0) 0x04 }
  | .ldB32 d a b l => { major := 0x15, srcA := [a.toNat], sr := [b.toNat], dst := [d.toNat], la := l.toNat }
  | .ldNf d a b _ l => { major := 0x15, srcA := [a.toNat], sr := [b.toNat], dst := [d.toNat], la := l.toNat }
  | .stB32 v a b l => { major := 0x16, srcA := [a.toNat], srcD := [v.toNat], sr := [b.toNat], la := l.toNat }
  | .stNf v a b _ l => { major := 0x16, srcA := [a.toNat], srcD := [v.toNat], sr := [b.toNat], la := l.toNat }
  | .pldB32 d a l => { major := 0x17, srcA := [a.toNat], dst := [d.toNat], la := l.toNat }
  | .pldNf d a _ l => { major := 0x17, srcA := [a.toNat], dst := [d.toNat], la := l.toNat }
  | .pstB32 v a l => { major := 0x17, srcA := [a.toNat], srcD := [v.toNat], la := l.toNat }
  | .pstNf v a _ l => { major := 0x17, srcA := [a.toNat], srcD := [v.toNat], la := l.toNat }
  | .pldB64 d a l => { major := 0x17, srcA := [a.toNat], dst := run d.toNat 2, la := l.toNat, bad := runBad d.toNat 2 }
  | .pstB64 v a l => { major := 0x17, srcA := [a.toNat], srcD := run v.toNat 2, la := l.toNat, bad := runBad v.toNat 2 }
  | .ldtrB8 d a _ l => { major := 0x17, srcA := [a.toNat], dst := [d.toNat], la := l.toNat }
  | .ldtrB16 d a _ l => { major := 0x17, srcA := [a.toNat], dst := run d.toNat 2, la := l.toNat, bad := runBad d.toNat 2 }
  | .ldtrB32 d a _ l => { major := 0x17, srcA := [a.toNat], dst := run d.toNat 4, la := l.toNat, bad := runBad d.toNat 4 }
  | .atomAdd a sc b w l => shAtomic 0x18 true false w.toNat a.toNat b.toNat sc.toNat l.toNat
  | .redAdd a sc b w l => shAtomic 0x18 false false w.toNat a.toNat b.toNat sc.toNat l.toNat
  | .atomAnd a sc b w l => shAtomic 0x18 true false w.toNat a.toNat b.toNat sc.toNat l.toNat
  | .redAnd a sc b w l => shAtomic 0x18 false false w.toNat a.toNat b.toNat sc.toNat l.toNat
  | .atomOr a sc b w l => shAtomic 0x18 true false w.toNat a.toNat b.toNat sc.toNat l.toNat
  | .redOr a sc b w l => shAtomic 0x18 false false w.toNat a.toNat b.toNat sc.toNat l.toNat
  | .atomXor a sc b w l => shAtomic 0x18 true false w.toNat a.toNat b.toNat sc.toNat l.toNat
  | .redXor a sc b w l => shAtomic 0x18 false false w.toNat a.toNat b.toNat sc.toNat l.toNat
  | .atomMinI a sc b w l => shAtomic 0x18 true false w.toNat a.toNat b.toNat sc.toNat l.toNat
  | .redMinI a sc b w l => shAtomic 0x18 false false w.toNat a.toNat b.toNat sc.toNat l.toNat
  | .atomMaxI a sc b w l => shAtomic 0x18 true false w.toNat a.toNat b.toNat sc.toNat l.toNat
  | .redMaxI a sc b w l => shAtomic 0x18 false false w.toNat a.toNat b.toNat sc.toNat l.toNat
  | .atomMinN a sc b w l => shAtomic 0x18 true false w.toNat a.toNat b.toNat sc.toNat l.toNat
  | .redMinN a sc b w l => shAtomic 0x18 false false w.toNat a.toNat b.toNat sc.toNat l.toNat
  | .atomMaxN a sc b w l => shAtomic 0x18 true false w.toNat a.toNat b.toNat sc.toNat l.toNat
  | .redMaxN a sc b w l => shAtomic 0x18 false false w.toNat a.toNat b.toNat sc.toNat l.toNat
  | .atomExch a sc b w l => shAtomic 0x18 true false w.toNat a.toNat b.toNat sc.toNat l.toNat
  | .redExch a sc b w l => shAtomic 0x18 false false w.toNat a.toNat b.toNat sc.toNat l.toNat
  | .atomCas a sc b w l => shAtomic 0x18 true true w.toNat a.toNat b.toNat sc.toNat l.toNat
  | .atomInc a sc b w l => shAtomic 0x18 true false w.toNat a.toNat b.toNat sc.toNat l.toNat
  | .redInc a sc b w l => shAtomic 0x18 false false w.toNat a.toNat b.toNat sc.toNat l.toNat
  | .atomDec a sc b w l => shAtomic 0x18 true false w.toNat a.toNat b.toNat sc.toNat l.toNat
  | .redDec a sc b w l => shAtomic 0x18 false false w.toNat a.toNat b.toNat sc.toNat l.toNat
  | .atomFadd a sc b l => shAtomic 0x18 true false 0 a.toNat b.toNat sc.toNat l.toNat
  | .redFadd a sc b l => shAtomic 0x18 false false 0 a.toNat b.toNat sc.toNat l.toNat
  | .atomFmax a sc b l => shAtomic 0x18 true false 0 a.toNat b.toNat sc.toNat l.toNat
  | .redFmax a sc b l => shAtomic 0x18 false false 0 a.toNat b.toNat sc.toNat l.toNat
  | .atomFmin a sc b l => shAtomic 0x18 true false 0 a.toNat b.toNat sc.toNat l.toNat
  | .redFmin a sc b l => shAtomic 0x18 false false 0 a.toNat b.toNat sc.toNat l.toNat
  | .patomAdd a b w l => shAtomic 0x19 true false w.toNat a.toNat b.toNat 0 l.toNat
  | .predAdd a b w l => shAtomic 0x19 false false w.toNat a.toNat b.toNat 0 l.toNat
  | .patomAnd a b w l => shAtomic 0x19 true false w.toNat a.toNat b.toNat 0 l.toNat
  | .predAnd a b w l => shAtomic 0x19 false false w.toNat a.toNat b.toNat 0 l.toNat
  | .patomOr a b w l => shAtomic 0x19 true false w.toNat a.toNat b.toNat 0 l.toNat
  | .predOr a b w l => shAtomic 0x19 false false w.toNat a.toNat b.toNat 0 l.toNat
  | .patomXor a b w l => shAtomic 0x19 true false w.toNat a.toNat b.toNat 0 l.toNat
  | .predXor a b w l => shAtomic 0x19 false false w.toNat a.toNat b.toNat 0 l.toNat
  | .patomMinI a b w l => shAtomic 0x19 true false w.toNat a.toNat b.toNat 0 l.toNat
  | .predMinI a b w l => shAtomic 0x19 false false w.toNat a.toNat b.toNat 0 l.toNat
  | .patomMaxI a b w l => shAtomic 0x19 true false w.toNat a.toNat b.toNat 0 l.toNat
  | .predMaxI a b w l => shAtomic 0x19 false false w.toNat a.toNat b.toNat 0 l.toNat
  | .patomMinN a b w l => shAtomic 0x19 true false w.toNat a.toNat b.toNat 0 l.toNat
  | .predMinN a b w l => shAtomic 0x19 false false w.toNat a.toNat b.toNat 0 l.toNat
  | .patomMaxN a b w l => shAtomic 0x19 true false w.toNat a.toNat b.toNat 0 l.toNat
  | .predMaxN a b w l => shAtomic 0x19 false false w.toNat a.toNat b.toNat 0 l.toNat
  | .patomExch a b w l => shAtomic 0x19 true false w.toNat a.toNat b.toNat 0 l.toNat
  | .predExch a b w l => shAtomic 0x19 false false w.toNat a.toNat b.toNat 0 l.toNat
  | .patomCas a b w l => shAtomic 0x19 true true w.toNat a.toNat b.toNat 0 l.toNat
  | .patomInc a b w l => shAtomic 0x19 true false w.toNat a.toNat b.toNat 0 l.toNat
  | .predInc a b w l => shAtomic 0x19 false false w.toNat a.toNat b.toNat 0 l.toNat
  | .patomDec a b w l => shAtomic 0x19 true false w.toNat a.toNat b.toNat 0 l.toNat
  | .predDec a b w l => shAtomic 0x19 false false w.toNat a.toNat b.toNat 0 l.toNat
  | .patomFadd a b l => shAtomic 0x19 true false 0 a.toNat b.toNat 0 l.toNat
  | .predFadd a b l => shAtomic 0x19 false false 0 a.toNat b.toNat 0 l.toNat
  | .patomFmax a b l => shAtomic 0x19 true false 0 a.toNat b.toNat 0 l.toNat
  | .predFmax a b l => shAtomic 0x19 false false 0 a.toNat b.toNat 0 l.toNat
  | .patomFmin a b l => shAtomic 0x19 true false 0 a.toNat b.toNat 0 l.toNat
  | .predFmin a b l => shAtomic 0x19 false false 0 a.toNat b.toNat 0 l.toNat
  | .barInit a b l => { major := 0x1A, sr := [a.toNat, b.toNat], sw := [], la := l.toNat }
  | .barArrive a c sc l => { major := 0x1A, sr := [a.toNat, c.toNat], sw := [], la := l.toNat, bad := codeIf (sc.toNat = 0 ∨ 4 < sc.toNat) 0x03 }
  | .barArrivet d b c sc l => { major := 0x1A, sr := [b.toNat, c.toNat], sw := [d.toNat], la := l.toNat, bad := codeIf (sc.toNat = 0 ∨ 4 < sc.toNat) 0x03 }
  | .barExpect a b l => { major := 0x1A, sr := [a.toNat, b.toNat], sw := [], la := l.toNat }
  | .barWait a b sc => { major := 0x1A, sr := [a.toNat, b.toNat], sw := [], la := 0, bad := codeIf (sc.toNat = 0 ∨ 4 < sc.toNat) 0x03 }
  | .barTest d b l => { major := 0x1A, sr := [b.toNat], sw := [d.toNat], la := l.toNat }
  | .barDrop a l => { major := 0x1A, sr := [a.toNat], sw := [], la := l.toNat }
  | .qpush b _ => { major := 0x1B, sr := [b.toNat], sw := [], la := 0 }
  | .qpop d _ => { major := 0x1B, sr := [], sw := [d.toNat], la := 0 }
  | .qtrypush d b _ l => { major := 0x1B, sr := [b.toNat], sw := [d.toNat], la := l.toNat }
  | .qtrypop d _ l => { major := 0x1B, sr := [], sw := [d.toNat], la := l.toNat }
  | .ownGive a b l => { major := 0x1C, sr := [a.toNat, b.toNat], sw := [], la := l.toNat }
  | .ownTake a b => { major := 0x1C, sr := [a.toNat, b.toNat], sw := [], la := 0 }
  | .ownTest d b l => { major := 0x1C, sr := [b.toNat], sw := [d.toNat], la := l.toNat }
  | .mwatch d b l => { major := 0x1D, sr := [b.toNat], sw := [d.toNat], la := l.toNat }
  | .mwait d b => { major := 0x1D, sr := [b.toNat], sw := [d.toNat], la := 0 }
  | .sleep a => { major := 0x1D, sr := [a.toNat], sw := [], la := 0 }
  | .mclear l => { major := 0x1D, sr := [], sw := [], la := l.toNat }
  | .mfs d _ => { major := 0x1E, sw := [d.toNat] }
  | .mts a x => { major := 0x1E, sr := [a.toNat], sp := [x.toNat] }
  | .mfsv d _ => { major := 0x1E, dst := [d.toNat] }
  | .mtsv a x => { major := 0x1E, srcD := [a.toNat], sp := [x.toNat] }
  | .tret => { major := 0x1F, mode := .handlerOnly }
  | .brk _ => { major := 0x1F }
  | .tlane a _ => { major := 0x1F, sr := [a.toNat], mode := .handlerOnly }
  | .tdone => { major := 0x1F, mode := .evictHandlerOnly }
  | .exit => { major := 0x1F, mode := .normalOnly }
  | .cpLd a b c k l => { major := 0x20, sr := [a.toNat, a.toNat + 1, b.toNat, c.toNat], pr := [k.toNat], la := l.toNat, bad := codeIf (a.toNat = 31) 0x07 }
  | .cpSt a b c k l => { major := 0x20, sr := [a.toNat, a.toNat + 1, b.toNat, c.toNat], pr := [k.toNat], la := l.toNat, bad := codeIf (a.toNat = 31) 0x07 }
  | .cpLdq a b c k l => { major := 0x20, sr := [a.toNat, a.toNat + 1, b.toNat, c.toNat], pr := [k.toNat], la := l.toNat, bad := codeIf (a.toNat = 31) 0x07 }
  | .cpFifo a c k l => { major := 0x20, sr := [a.toNat, a.toNat + 1, c.toNat], pr := [k.toNat], la := l.toNat, bad := codeIf (a.toNat = 31) 0x07 }
  | .cpMc a b c k l => { major := 0x20, sr := [a.toNat, a.toNat + 1, b.toNat, c.toNat], pr := [k.toNat], la := l.toNat, bad := codeIf (a.toNat = 31) 0x07 }
  | .cpGrant a => { major := 0x21, sr := [a.toNat], sw := [], la := 0 }
  | .cpSlots d l => { major := 0x21, sr := [], sw := [d.toNat], la := l.toNat }
  | .cpCount d l => { major := 0x21, sr := [], sw := [d.toNat], la := l.toNat }
  | .xpRun a k l => { major := 0x22, sr := [a.toNat], pr := [k.toNat], la := l.toNat }
  | .mtask a k l => { major := 0x24, sr := [a.toNat], pr := [k.toNat], la := l.toNat }
  | .mdrain a k l => { major := 0x24, sr := [a.toNat], pr := [k.toNat], la := l.toNat }
  | .mstat d b l => { major := 0x24, sr := [b.toNat], sw := [d.toNat], la := l.toNat }
  | .ldAcqB32 d a b sc l => { major := 0x28, srcA := [a.toNat], sr := [b.toNat], dst := [d.toNat], la := l.toNat, bad := codeIf (6 < sc.toNat) 0x06 }
  | .stRelB32 v a b sc l => { major := 0x29, srcA := [a.toNat], srcD := [v.toNat], sr := [b.toNat], la := l.toNat, bad := codeIf (6 < sc.toNat) 0x06 }
  | .fence sc => { major := 0x2A, sr := [], sw := [], la := 0, bad := codeIf (sc.toNat = 0 ∨ 6 < sc.toNat) 0x03 }
  | .fenceRel sc => { major := 0x2A, sr := [], sw := [], la := 0, bad := codeIf (sc.toNat = 0 ∨ 6 < sc.toNat) 0x03 }
  | .fenceAcq sc => { major := 0x2A, sr := [], sw := [], la := 0, bad := codeIf (sc.toNat = 0 ∨ 6 < sc.toNat) 0x03 }
  | .cwbRange a b => { major := 0x2A, sr := [a.toNat, b.toNat], sw := [], la := 0 }
  | .cinvRange a b => { major := 0x2A, sr := [a.toNat, b.toNat], sw := [], la := 0 }
  | .icinvRange a b => { major := 0x2A, sr := [a.toNat, b.toNat], sw := [], la := 0 }
  | .twinStat d l => { major := 0x2A, sr := [], sw := [d.toNat], la := l.toNat }
  | .mcas d b l => { major := 0x2B, sr := [b.toNat], sw := [d.toNat], la := l.toNat }
  | .tlbinv a b => { major := 0x2B, sr := [a.toNat, b.toNat], sw := [], la := 0, priv := some 3 }
  | .swmAlloc d b c l => { major := 0x2C, sr := [b.toNat, c.toNat], sw := [d.toNat], la := l.toNat }
  | .swmMap d b c l => { major := 0x2C, sr := [b.toNat, c.toNat], sw := [d.toNat], la := l.toNat }
  | .swmUnmap d b l => { major := 0x2C, sr := [b.toNat], sw := [d.toNat], la := l.toNat }
  | .swmFree d b l => { major := 0x2C, sr := [b.toNat], sw := [d.toNat], la := l.toNat }
  | .fmc a b c k l => { major := 0x2D, sr := [a.toNat, b.toNat, c.toNat], pr := [k.toNat], la := l.toNat }
  | .fred a b c k l => { major := 0x2D, sr := [a.toNat, b.toNat, c.toNat], pr := [k.toNat], la := l.toNat }
  | .fsig a b k l => { major := 0x2E, sr := [a.toNat, b.toNat], pr := [k.toNat], la := l.toNat }
  | .fstat d l => { major := 0x2E, sr := [], sw := [d.toNat], la := l.toNat }
  | .ndLaunch d b l => { major := 0x30, sr := [b.toNat], sw := [d.toNat], la := l.toNat }
  | .ndSignal d b c l => { major := 0x30, sr := [b.toNat, c.toNat], sw := [d.toNat], la := l.toNat }
  | .ndStat d b l => { major := 0x30, sr := [b.toNat], sw := [d.toNat], la := l.toNat }
  | .sqBind d b => { major := 0x32, sr := [b.toNat], sw := [d.toNat], la := 0 }
  | .sqUnbind a => { major := 0x32, sr := [a.toNat], sw := [], la := 0 }
  | .sqQuery d b => { major := 0x32, sr := [b.toNat], sw := [d.toNat], la := 0 }
  | .sqImg b c => { major := 0x32, sr := [b.toNat, c.toNat], sw := [], la := 0, priv := some 4 }
  | .dwx i d a b _ => { major := 0x38 + i.toNat, srcA := [a.toNat], srcB := [b.toNat], srcD := [d.toNat], dst := [d.toNat] }
  | .mwaitTimeout _ => { major := 0 }
  | .sleepEnd _ => { major := 0 }
  | .sectorLanded _ _ => { major := 0 }
  | .copyCommandComplete _ _ => { major := 0 }
  | .copyFaultReport _ _ => { major := 0 }
  | .taskStart _ => { major := 0 }
  | .kgroupCompute _ _ => { major := 0 }
  | .taskComplete _ _ => { major := 0 }
  | .arrivalApply _ => { major := 0 }
  | .peerAcknowledge _ _ => { major := 0 }
  | .matrixFaultReport _ _ => { major := 0 }
  | .lockGrant _ => { major := 0 }
  | .earlyPublication _ => { major := 0 }
  | .evictionPublication _ _ => { major := 0 }
  | .recordApply _ => { major := 0 }
  | .releaseComplete _ => { major := 0 }
  | .forwardedCopyApply _ => { major := 0 }
  | .fillArrival _ => { major := 0 }
  | .writeBackApply _ => { major := 0 }
  | .accessComplete _ _ => { major := 0 }
  | .takeTrap _ => { major := 0 }
  | .watchdog _ => { major := 0 }
  | .uncorrectableError _ _ _ => { major := 0 }
  | .wcAgeDrain _ _ => { major := 0 }
  | .writePacketApply _ => { major := 0 }
  | .acknowledgeReceive _ => { major := 0 }
  | .remoteFaultReport _ _ => { major := 0 }
  | .retransmit _ => { major := 0 }
  | .recoveryDiscard _ => { major := 0 }
  | .keyRollover _ => { major := 0 }
  | .drainedFlit _ => { major := 0 }
  | .linkDown _ => { major := 0 }
  | .switchLost _ => { major := 0 }
  | .switchReplaced _ => { major := 0 }
  | .multicastDelivery _ => { major := 0 }
  | .reductionContribution _ => { major := 0 }
  | .residueSend _ _ _ => { major := 0 }
  | .groupInstall _ _ _ => { major := 0 }
  | .groupReinstall _ _ => { major := 0 }
  | .switchTableWrite _ _ _ _ => { major := 0 }
  | .quotaSet _ _ _ => { major := 0 }
  | .linkStateUpdate _ _ _ => { major := 0 }
  | .hostDoorbell _ _ _ => { major := 0 }
  | .nodeAdmit _ => { major := 0 }
  | .predecessorSignal _ => { major := 0 }
  | .ensemblePlace _ _ => { major := 0 }
  | .ensembleRestore _ _ => { major := 0 }
  | .nodeComplete _ => { major := 0 }
  | .eclipseWindowStart _ => { major := 0 }
  | .eclipseWindowEnd _ => { major := 0 }
  | .tenantRecordWrite _ _ _ => { major := 0 }
  | .writeRefusedClear _ => { major := 0 }
  | .tenantReset _ => { major := 0 }
  | .warmReset => { major := 0 }
  | .coldReset => { major := 0 }
  | .powerOnReset => { major := 0 }
  | .eventOverflowClear => { major := 0 }
  | .eventQueueHeadWrite _ => { major := 0 }
  | .registerWrite _ _ => { major := 0 }
  | .hostMemLoad _ _ => { major := 0 }
  | .hostMemStore _ _ => { major := 0 }
  | .sidebandResetRequest _ _ _ => { major := 0 }
  | .firmwareUpdate _ => { major := 0 }
  | .spdmRequest _ => { major := 0 }
  | .powerCapSet _ => { major := 0 }
  | .clockThrottle _ => { major := 0 }
  | .clockRaise _ => { major := 0 }
  | .thermalTrip _ => { major := 0 }
  | .spuriousWake _ => { major := 0 }
  | .saveLimitPassed _ => { major := 0 }
  | .remoteLoadOrAtomicServe _ => { major := 0 }
  | .flitAuthenticationFailure _ => { major := 0 }
  | .voluntaryWriteBack _ _ => { major := 0 }
  | .capUnreachableEnd => { major := 0 }
  | .uncorrectableErrorOutsideGang _ _ => { major := 0 }
  | .nop => { major := 1 }
  | .sadd d a b => shS 1 d.toNat [a.toNat, b.toNat]
  | .ssub d a b => shS 1 d.toNat [a.toNat, b.toNat]
  | .smul d a b => shS 1 d.toNat [a.toNat, b.toNat]
  | .smulhI64 d a b => shS 1 d.toNat [a.toNat, b.toNat]
  | .smulhN64 d a b => shS 1 d.toNat [a.toNat, b.toNat]
  | .sdivI64 d a b => shS 1 d.toNat [a.toNat, b.toNat]
  | .sdivN64 d a b => shS 1 d.toNat [a.toNat, b.toNat]
  | .sremI64 d a b => shS 1 d.toNat [a.toNat, b.toNat]
  | .sremN64 d a b => shS 1 d.toNat [a.toNat, b.toNat]
  | .sand d a b => shS 1 d.toNat [a.toNat, b.toNat]
  | .sor d a b => shS 1 d.toNat [a.toNat, b.toNat]
  | .sxor d a b => shS 1 d.toNat [a.toNat, b.toNat]
  | .sandn d a b => shS 1 d.toNat [a.toNat, b.toNat]
  | .sshl d a b => shS 1 d.toNat [a.toNat, b.toNat]
  | .sshrN64 d a b => shS 1 d.toNat [a.toNat, b.toNat]
  | .sshrI64 d a b => shS 1 d.toNat [a.toNat, b.toNat]
  | .sminI64 d a b => shS 1 d.toNat [a.toNat, b.toNat]
  | .sminN64 d a b => shS 1 d.toNat [a.toNat, b.toNat]
  | .smaxI64 d a b => shS 1 d.toNat [a.toNat, b.toNat]
  | .smaxN64 d a b => shS 1 d.toNat [a.toNat, b.toNat]
  | .spopc d a => shS 1 d.toNat [a.toNat]
  | .sclz d a => shS 1 d.toNat [a.toNat]
  | .sctz d a => shS 1 d.toNat [a.toNat]
  | .saddi d a _ => shS 2 d.toNat [a.toNat]
  | .sandi d a _ => shS 2 d.toNat [a.toNat]
  | .sori d a _ => shS 2 d.toNat [a.toNat]
  | .sxori d a _ => shS 2 d.toNat [a.toNat]
  | .sshli d a _ => shS 2 d.toNat [a.toNat]
  | .sshriN64 d a _ => shS 2 d.toNat [a.toNat]
  | .sshriI64 d a _ => shS 2 d.toNat [a.toNat]
  | .smuli d a _ => shS 2 d.toNat [a.toNat]
  | .sli d _ => shS 3 d.toNat []
  | .sliu d _ => shS 3 d.toNat []
  | .sinsH0 d _ => shS 3 d.toNat [d.toNat]
  | .sinsH1 d _ => shS 3 d.toNat [d.toNat]
  | .sinsH2 d _ => shS 3 d.toNat [d.toNat]
  | .sinsH3 d _ => shS 3 d.toNat [d.toNat]
  | .vget d _ a => { major := 3, sw := [d.toNat], srcA := [a.toNat] }
  | .pget d p => { major := 3, sw := [d.toNat], pr := [p.toNat] }
  | .psets a p => { major := 3, pw := [p.toNat], sr := [a.toNat] }
  | .seq d a b => shS 4 d.toNat [a.toNat, b.toNat]
  | .sne d a b => shS 4 d.toNat [a.toNat, b.toNat]
  | .sltI64 d a b => shS 4 d.toNat [a.toNat, b.toNat]
  | .sleI64 d a b => shS 4 d.toNat [a.toNat, b.toNat]
  | .sltN64 d a b => shS 4 d.toNat [a.toNat, b.toNat]
  | .sleN64 d a b => shS 4 d.toNat [a.toNat, b.toNat]
  | .pand d a b => { major := 4, pw := [d.toNat], pr := [a.toNat, b.toNat] }
  | .por d a b => { major := 4, pw := [d.toNat], pr := [a.toNat, b.toNat] }
  | .pxor d a b => { major := 4, pw := [d.toNat], pr := [a.toNat, b.toNat] }
  | .pandn d a b => { major := 4, pw := [d.toNat], pr := [a.toNat, b.toNat] }
  | .pnot d a => { major := 4, pw := [d.toNat], pr := [a.toNat] }
  | .ppopc d a => { major := 4, sw := [d.toNat], pr := [a.toNat] }
  | .pffs d a => { major := 4, sw := [d.toNat], pr := [a.toNat] }
  | .pfill d a => { major := 4, pw := [d.toNat], sr := [a.toNat] }
  | .br _ => shB 6 [] []
  | .call _ => { shB 6 [] [] with sw := [31] }
  | .ret => shB 6 [] [31]
  | .callr => { shB 6 [] [30] with sw := [31] }
  | .bany p _ => shB 7 [p.toNat] []
  | .ball p _ => shB 7 [p.toNat] []
  | .bnone p _ => shB 7 [p.toNat] []
  | .bnall p _ => shB 7 [p.toNat] []
  | .split p _ => { shB 8 [p.toNat] [] with sp := [0] }
  | .elseArm _ => { shB 8 [] [] with sp := [0] }
  | .join => { shB 8 [] [] with sp := [0] }
  | .mand p => { shB 8 [p.toNat] [] with sp := [0] }
  | .mandn p => { shB 8 [p.toNat] [] with sp := [0] }
  | .dspop d => { shB 8 [] [] with sw := [d.toNat] }
  | .dspush a => shB 8 [] [a.toNat]
  | .dsdepth d => { shB 8 [] [] with sw := [d.toNat] }
  | .dbnz k _ => { shB 9 [] [16 + k.toNat] with sw := [16 + k.toNat] }
  | .bz k _ => shB 9 [] [16 + k.toNat]
  | .bnz k _ => shB 9 [] [16 + k.toNat]
  | .vaddI32 d a b => shV 10 d.toNat a.toNat b.toNat
  | .vsubI32 d a b => shV 10 d.toNat a.toNat b.toNat
  | .vmulI32 d a b => shV 10 d.toNat a.toNat b.toNat
  | .vmulhI32 d a b => shV 10 d.toNat a.toNat b.toNat
  | .vmulhN32 d a b => shV 10 d.toNat a.toNat b.toNat
  | .vandB32 d a b => shV 10 d.toNat a.toNat b.toNat
  | .vorB32 d a b => shV 10 d.toNat a.toNat b.toNat
  | .vxorB32 d a b => shV 10 d.toNat a.toNat b.toNat
  | .vandnB32 d a b => shV 10 d.toNat a.toNat b.toNat
  | .vshlB32 d a b => shV 10 d.toNat a.toNat b.toNat
  | .vshrN32 d a b => shV 10 d.toNat a.toNat b.toNat
  | .vshrI32 d a b => shV 10 d.toNat a.toNat b.toNat
  | .vminI32 d a b => shV 10 d.toNat a.toNat b.toNat
  | .vmaxI32 d a b => shV 10 d.toNat a.toNat b.toNat
  | .vminN32 d a b => shV 10 d.toNat a.toNat b.toNat
  | .vmaxN32 d a b => shV 10 d.toNat a.toNat b.toNat
  | .vaddsI32 d a b => shV 11 d.toNat a.toNat b.toNat
  | .vaddsN32 d a b => shV 11 d.toNat a.toNat b.toNat
  | .vsubsI32 d a b => shV 11 d.toNat a.toNat b.toNat
  | .vsubsN32 d a b => shV 11 d.toNat a.toNat b.toNat
  | .vabsI32 d a => shV1 11 d.toNat a.toNat
  | .vnegI32 d a => shV1 11 d.toNat a.toNat
  | .vpopcB32 d a => shV1 11 d.toNat a.toNat
  | .vclzB32 d a => shV1 11 d.toNat a.toNat
  | .vbrevB32 d a => shV1 11 d.toNat a.toNat
  | .vmadI32 d a b => shVD 11 d.toNat a.toNat b.toNat
  | .vabsdN32 d a b => shV 11 d.toNat a.toNat b.toNat
  | .vabsdI32 d a b => shV 11 d.toNat a.toNat b.toNat
  | .vavgN32 d a b => shV 11 d.toNat a.toNat b.toNat
  | .vrotB32 d a b => shV 11 d.toNat a.toNat b.toNat
  | .vdot4I8 d a b => shVD 11 d.toNat a.toNat b.toNat
  | .vdot4N8 d a b => shVD 11 d.toNat a.toNat b.toNat
  | .vaddB16 d a b => shV 12 d.toNat a.toNat b.toNat
  | .vsubB16 d a b => shV 12 d.toNat a.toNat b.toNat
  | .vaddsI16 d a b => shV 12 d.toNat a.toNat b.toNat
  | .vaddsN16 d a b => shV 12 d.toNat a.toNat b.toNat
  | .vaddB8 d a b => shV 12 d.toNat a.toNat b.toNat
  | .vsubB8 d a b => shV 12 d.toNat a.toNat b.toNat
  | .vaddsI8 d a b => shV 12 d.toNat a.toNat b.toNat
  | .vaddsN8 d a b => shV 12 d.toNat a.toNat b.toNat
  | .vminI16 d a b => shV 12 d.toNat a.toNat b.toNat
  | .vmaxI16 d a b => shV 12 d.toNat a.toNat b.toNat
  | .vminN8 d a b => shV 12 d.toNat a.toNat b.toNat
  | .vmaxN8 d a b => shV 12 d.toNat a.toNat b.toNat
  | .vpermB8 d a b => shVD 12 d.toNat a.toNat b.toNat
  | .vshlB16 d a b => shV 12 d.toNat a.toNat b.toNat
  | .vshrN16 d a b => shV 12 d.toNat a.toNat b.toNat
  | .vshrI16 d a b => shV 12 d.toNat a.toNat b.toNat
  | .vaddF32 d a b => shV 13 d.toNat a.toNat b.toNat
  | .vsubF32 d a b => shV 13 d.toNat a.toNat b.toNat
  | .vmulF32 d a b => shV 13 d.toNat a.toNat b.toNat
  | .vfmaF32 d a b => shVD 13 d.toNat a.toNat b.toNat
  | .vfmsF32 d a b => shVD 13 d.toNat a.toNat b.toNat
  | .vminF32 d a b => shV 13 d.toNat a.toNat b.toNat
  | .vmaxF32 d a b => shV 13 d.toNat a.toNat b.toNat
  | .vabsF32 d a => shV1 13 d.toNat a.toNat
  | .vnegF32 d a => shV1 13 d.toNat a.toNat
  | .vdivF32 d a b => shV 13 d.toNat a.toNat b.toNat
  | .vsqrtF32 d a => shV1 13 d.toNat a.toNat
  | .vfloorF32 d a => shV1 13 d.toNat a.toNat
  | .vceilF32 d a => shV1 13 d.toNat a.toNat
  | .vtruncF32 d a => shV1 13 d.toNat a.toNat
  | .vrintF32 d a => shV1 13 d.toNat a.toNat
  | .vscaleF32 d a b => shV 13 d.toNat a.toNat b.toNat
  | .vmaxabsF32 d a b => shV 14 d.toNat a.toNat b.toNat
  | .vcopysignF32 d a b => shV 14 d.toNat a.toNat b.toNat
  | .vclassF32 d a => shV1 14 d.toNat a.toNat
  | .vexpoF32 d a => shV1 14 d.toNat a.toNat
  | .vminnanF32 d a b => shV 14 d.toNat a.toNat b.toNat
  | .vmaxnanF32 d a b => shV 14 d.toNat a.toNat b.toNat
  | .vexp2ApxF32 d a l => shVT d.toNat a.toNat l.toNat
  | .vlog2ApxF32 d a l => shVT d.toNat a.toNat l.toNat
  | .vrcpApxF32 d a l => shVT d.toNat a.toNat l.toNat
  | .vrsqrtApxF32 d a l => shVT d.toNat a.toNat l.toNat
  | .vaddBf16 d a b => shV 16 d.toNat a.toNat b.toNat
  | .vmulBf16 d a b => shV 16 d.toNat a.toNat b.toNat
  | .vfmaBf16 d a b => shVD 16 d.toNat a.toNat b.toNat
  | .vminBf16 d a b => shV 16 d.toNat a.toNat b.toNat
  | .vmaxBf16 d a b => shV 16 d.toNat a.toNat b.toNat
  | .vdot2F32Bf16 d a b => shVD 16 d.toNat a.toNat b.toNat
  | .vsubBf16 d a b => shV 16 d.toNat a.toNat b.toNat
  | .vaddF16 d a b => shV 16 d.toNat a.toNat b.toNat
  | .vmulF16 d a b => shV 16 d.toNat a.toNat b.toNat
  | .vfmaF16 d a b => shVD 16 d.toNat a.toNat b.toNat
  | .vminF16 d a b => shV 16 d.toNat a.toNat b.toNat
  | .vmaxF16 d a b => shV 16 d.toNat a.toNat b.toNat
  | .vdot2F32F16 d a b => shVD 16 d.toNat a.toNat b.toNat
  | .vsubF16 d a b => shV 16 d.toNat a.toNat b.toNat
  | .vcvtF32I32 d a m => shCvt d.toNat a.toNat m.toNat false
  | .vcvtF32N32 d a m => shCvt d.toNat a.toNat m.toNat false
  | .vcvtI32F32 d a m => shCvt d.toNat a.toNat m.toNat false
  | .vcvtN32F32 d a m => shCvt d.toNat a.toNat m.toNat false
  | .vcvtBf16F32 d a m => shCvt d.toNat a.toNat m.toNat false
  | .vcvtF16F32 d a m => shCvt d.toNat a.toNat m.toNat false
  | .vcvtF32Bf16 d a m => shCvt d.toNat a.toNat m.toNat false
  | .vcvtF32F16 d a m => shCvt d.toNat a.toNat m.toNat false
  | .vcvtNfF32 d a m t => shCvtSlot d.toNat a.toNat m.toNat t.toNat
  | .vcvtF32Nf d a m t => shCvtSlot d.toNat a.toNat m.toNat t.toNat
  | .vcvtE4m3F32 d a m => shCvt d.toNat a.toNat m.toNat false
  | .vcvtE5m2F32 d a m => shCvt d.toNat a.toNat m.toNat false
  | .vcvtF32E4m3 d a m => shCvt d.toNat a.toNat m.toNat false
  | .vcvtF32E5m2 d a m => shCvt d.toNat a.toNat m.toNat false
  | .vcvthiBf16F32 d a m => shCvt d.toNat a.toNat m.toNat true
  | .vcvthiF16F32 d a m => shCvt d.toNat a.toNat m.toNat true
  | .vcmpEqB32 p a b => shCmp p.toNat a.toNat b.toNat
  | .vcmpNeB32 p a b => shCmp p.toNat a.toNat b.toNat
  | .vcmpLtI32 p a b => shCmp p.toNat a.toNat b.toNat
  | .vcmpLeI32 p a b => shCmp p.toNat a.toNat b.toNat
  | .vcmpLtN32 p a b => shCmp p.toNat a.toNat b.toNat
  | .vcmpLeN32 p a b => shCmp p.toNat a.toNat b.toNat
  | .vcmpEqF32 p a b => shCmp p.toNat a.toNat b.toNat
  | .vcmpNeF32 p a b => shCmp p.toNat a.toNat b.toNat
  | .vcmpLtF32 p a b => shCmp p.toNat a.toNat b.toNat
  | .vcmpLeF32 p a b => shCmp p.toNat a.toNat b.toNat
  | .vcmpUnF32 p a b => shCmp p.toNat a.toNat b.toNat
  | .vtestB32 p a b => shCmp p.toNat a.toNat b.toNat
  | .vshflIdx d a b => { shX d.toNat a.toNat with srcB := [b.toNat] }
  | .vshflUp d a _ => shX d.toNat a.toNat
  | .vshflDown d a _ => shX d.toNat a.toNat
  | .vshflXor d a _ => shX d.toNat a.toNat
  | .vballot d p => { major := 0x13, dst := [d.toNat], pr := [p.toNat] }
  | .vvoteAll d p => { major := 0x13, pw := [d.toNat], pr := [p.toNat] }
  | .vvoteAny d p => { major := 0x13, pw := [d.toNat], pr := [p.toNat] }
  | .vmatchB32 d a => shX d.toNat a.toNat
  | .vredAddI32 d a => shX d.toNat a.toNat
  | .vredMaxI32 d a => shX d.toNat a.toNat
  | .vredMinI32 d a => shX d.toNat a.toNat
  | .vredAddF32 d a => shX d.toNat a.toNat
  | .vredMaxF32 d a => shX d.toNat a.toNat
  | .vscanAddI32 d a => shX d.toNat a.toNat
  | .vscanxAddI32 d a => shX d.toNat a.toNat
  | .vscanAddF32 d a => shX d.toNat a.toNat
  | .vmov d a => shV1 20 d.toNat a.toNat
  | .vli d _ => { major := 0x14, block := true, dst := [d.toNat] }
  | .vbcast d sc => { major := 0x14, block := true, dst := [d.toNat], sr := [sc.toNat] }
  | .vbcasth d sc => { major := 0x14, block := true, dst := [d.toNat], sr := [sc.toNat] }
  | .vpmask d p => { major := 0x14, block := true, dst := [d.toNat], pr := [p.toNat] }
  | .vins d sc _ => { major := 0x14, block := true, dst := [d.toNat], sr := [sc.toNat] }
  | .vsel d a b k => { shV 0x14 d.toNat a.toNat b.toNat with pr := [k.toNat] }

/-- The word feeds the matrix engine's FIFO (03 R74). -/
def isFifoWord (i : Instr) : Bool :=
  match i with
  | .cpFifo .. => true
  | _ => false

end Sys2Proof.Machine
end

