-- ==== Sys2Proof/Machine/VecFloat.lean ====
section
/-! DEFINITION. Meanings: the vector float words of majors 0x0D-0x0F (04 R118-R122). -/

namespace Sys2Proof.Machine

/-- `vadd_f32` (04 R118). -/
def execVaddF32 (d : BitVec 7) (a : BitVec 7) (b : BitVec 7) (s : State) : Out :=
  .next (blockWord (shV 13 d.toNat a.toNat b.toNat) false d.toNat a.toNat b.toNat (lane2f fAdd) s)

/-- `vsub_f32` (04 R118). -/
def execVsubF32 (d : BitVec 7) (a : BitVec 7) (b : BitVec 7) (s : State) : Out :=
  .next (blockWord (shV 13 d.toNat a.toNat b.toNat) false d.toNat a.toNat b.toNat (lane2f fSub) s)

/-- `vmul_f32` (04 R118). -/
def execVmulF32 (d : BitVec 7) (a : BitVec 7) (b : BitVec 7) (s : State) : Out :=
  .next (blockWord (shV 13 d.toNat a.toNat b.toNat) false d.toNat a.toNat b.toNat (lane2f fMul) s)

/-- `vdiv_f32` (04 R118). -/
def execVdivF32 (d : BitVec 7) (a : BitVec 7) (b : BitVec 7) (s : State) : Out :=
  .next (blockWord (shV 13 d.toNat a.toNat b.toNat) false d.toNat a.toNat b.toNat (lane2f fDiv) s)

/-- `vmin_f32` (04 R118, R120). -/
def execVminF32 (d : BitVec 7) (a : BitVec 7) (b : BitVec 7) (s : State) : Out :=
  .next (blockWord (shV 13 d.toNat a.toNat b.toNat) false d.toNat a.toNat b.toNat (lane2f (fMinMax false false)) s)

/-- `vmax_f32` (04 R118, R120). -/
def execVmaxF32 (d : BitVec 7) (a : BitVec 7) (b : BitVec 7) (s : State) : Out :=
  .next (blockWord (shV 13 d.toNat a.toNat b.toNat) false d.toNat a.toNat b.toNat (lane2f (fMinMax true false)) s)

/-- `vscale_f32` (04 R118). -/
def execVscaleF32 (d : BitVec 7) (a : BitVec 7) (b : BitVec 7) (s : State) : Out :=
  .next (blockWord (shV 13 d.toNat a.toNat b.toNat) false d.toNat a.toNat b.toNat (lane2f fScale) s)

/-- `vfma_f32` (04 R118). -/
def execVfmaF32 (d : BitVec 7) (a : BitVec 7) (b : BitVec 7) (s : State) : Out :=
  .next (blockWord (shVD 13 d.toNat a.toNat b.toNat) false d.toNat a.toNat b.toNat (lane3f fFma) s)

/-- `vfms_f32` (04 R118). -/
def execVfmsF32 (d : BitVec 7) (a : BitVec 7) (b : BitVec 7) (s : State) : Out :=
  .next (blockWord (shVD 13 d.toNat a.toNat b.toNat) false d.toNat a.toNat b.toNat (lane3f fFms) s)

/-- `vabs_f32` (04 R109, R118). -/
def execVabsF32 (d : BitVec 7) (a : BitVec 7) (s : State) : Out :=
  .next (blockWord (shV1 13 d.toNat a.toNat) false d.toNat a.toNat 0 (lane1 fun x => x &&& 0x7FFFFFFF) s)

/-- `vneg_f32` (04 R109, R118). -/
def execVnegF32 (d : BitVec 7) (a : BitVec 7) (s : State) : Out :=
  .next (blockWord (shV1 13 d.toNat a.toNat) false d.toNat a.toNat 0 (lane1 fun x => x ^^^ 0x80000000) s)

/-- `vsqrt_f32` (04 R118). -/
def execVsqrtF32 (d : BitVec 7) (a : BitVec 7) (s : State) : Out :=
  .next (blockWord (shV1 13 d.toNat a.toNat) false d.toNat a.toNat 0 (lane1f fSqrt) s)

/-- `vfloor_f32` (04 R118). -/
def execVfloorF32 (d : BitVec 7) (a : BitVec 7) (s : State) : Out :=
  .next (blockWord (shV1 13 d.toNat a.toNat) false d.toNat a.toNat 0 (lane1f (fIntegral .rd)) s)

/-- `vceil_f32` (04 R118). -/
def execVceilF32 (d : BitVec 7) (a : BitVec 7) (s : State) : Out :=
  .next (blockWord (shV1 13 d.toNat a.toNat) false d.toNat a.toNat 0 (lane1f (fIntegral .ru)) s)

/-- `vtrunc_f32` (04 R118). -/
def execVtruncF32 (d : BitVec 7) (a : BitVec 7) (s : State) : Out :=
  .next (blockWord (shV1 13 d.toNat a.toNat) false d.toNat a.toNat 0 (lane1f (fIntegral .rz)) s)

/-- `vrint_f32` (04 R118). -/
def execVrintF32 (d : BitVec 7) (a : BitVec 7) (s : State) : Out :=
  .next (blockWord (shV1 13 d.toNat a.toNat) false d.toNat a.toNat 0 (lane1f (fIntegral .rne)) s)

/-- `vmaxabs_f32` (04 R119). -/
def execVmaxabsF32 (d : BitVec 7) (a : BitVec 7) (b : BitVec 7) (s : State) : Out :=
  .next (blockWord (shV 14 d.toNat a.toNat b.toNat) false d.toNat a.toNat b.toNat (lane2f fMaxAbs) s)

/-- `vcopysign_f32` (04 R109, R119). -/
def execVcopysignF32 (d : BitVec 7) (a : BitVec 7) (b : BitVec 7) (s : State) : Out :=
  .next (blockWord (shV 14 d.toNat a.toNat b.toNat) false d.toNat a.toNat b.toNat (lane2 fun x y => (x &&& 0x7FFFFFFF) ||| (y &&& 0x80000000)) s)

/-- `vclass_f32` (04 R119). -/
def execVclassF32 (d : BitVec 7) (a : BitVec 7) (s : State) : Out :=
  .next (blockWord (shV1 14 d.toNat a.toNat) false d.toNat a.toNat 0 (lane1 fClass) s)

/-- `vexpo_f32` (04 R119). -/
def execVexpoF32 (d : BitVec 7) (a : BitVec 7) (s : State) : Out :=
  .next (blockWord (shV1 14 d.toNat a.toNat) false d.toNat a.toNat 0 (lane1 fExpo) s)

/-- `vminnan_f32` (04 R119, R120). -/
def execVminnanF32 (d : BitVec 7) (a : BitVec 7) (b : BitVec 7) (s : State) : Out :=
  .next (blockWord (shV 14 d.toNat a.toNat b.toNat) false d.toNat a.toNat b.toNat (lane2f (fMinMax false true)) s)

/-- `vmaxnan_f32` (04 R119, R120). -/
def execVmaxnanF32 (d : BitVec 7) (a : BitVec 7) (b : BitVec 7) (s : State) : Out :=
  .next (blockWord (shV 14 d.toNat a.toNat b.toNat) false d.toNat a.toNat b.toNat (lane2f (fMinMax true true)) s)

/-- `vexp2_apx_f32` (04 R121, R122). -/
def execVexp2ApxF32 (d : BitVec 7) (a : BitVec 7) (l : BitVec 4) (s : State) : Out :=
  .next (laneWord (shVT d.toNat a.toNat l.toNat) d.toNat (fun q L => apxExp2 (q.vreg a.toNat)[L]) s)

/-- `vlog2_apx_f32` (04 R121, R122). -/
def execVlog2ApxF32 (d : BitVec 7) (a : BitVec 7) (l : BitVec 4) (s : State) : Out :=
  .next (laneWord (shVT d.toNat a.toNat l.toNat) d.toNat (fun q L => apxLog2 (q.vreg a.toNat)[L]) s)

/-- `vrcp_apx_f32` (04 R121, R122). -/
def execVrcpApxF32 (d : BitVec 7) (a : BitVec 7) (l : BitVec 4) (s : State) : Out :=
  .next (laneWord (shVT d.toNat a.toNat l.toNat) d.toNat (fun q L => apxRcp (q.vreg a.toNat)[L]) s)

/-- `vrsqrt_apx_f32` (04 R121, R122). -/
def execVrsqrtApxF32 (d : BitVec 7) (a : BitVec 7) (l : BitVec 4) (s : State) : Out :=
  .next (laneWord (shVT d.toNat a.toNat l.toNat) d.toNat (fun q L => apxRsqrt (q.vreg a.toNat)[L]) s)

end Sys2Proof.Machine
end

