-- ==== Sys2Proof/Machine/VecInt.lean ====
section
/-! DEFINITION. Meanings: the vector integer words of majors 0x0A-0x0C (04 R115-R117). -/

namespace Sys2Proof.Machine

def byteOf (x : Word) (k : Nat) : Byte := x.extractLsb' (8 * k) 8

def dot4 (a b : Nat → Int) : Int := a 0 * b 0 + a 1 * b 1 + a 2 * b 2 + a 3 * b 3

/-- The fields of a lane, each computed on its own (04 R117). -/
def fields16 (f : Half → Half → Half × Flags) (x y : Word) : Word × Flags :=
  let (p, g) := f (x.extractLsb' 0 16) (y.extractLsb' 0 16)
  let (q, h) := f (x.extractLsb' 16 16) (y.extractLsb' 16 16)
  (q ++ p, g ||| h)

def fields8 (f : Byte → Byte → Byte × Flags) (x y : Word) : Word × Flags :=
  let r := fun k => f (byteOf x k) (byteOf y k)
  ((r 3).1 ++ (r 2).1 ++ (r 1).1 ++ (r 0).1, (r 0).2 ||| (r 1).2 ||| (r 2).2 ||| (r 3).2)

/-- `vperm.b8`: bytes chosen from a (0-3) and b (4-7) by the selectors in d. -/
def permBytes (x y z : Word) : Word :=
  let t := y ++ x
  let r := fun k => if (byteOf z k).getLsbD 7 then 0#8 else t.extractLsb' (8 * ((byteOf z k).toNat % 8)) 8
  r 3 ++ r 2 ++ r 1 ++ r 0

/-- `vadd_i32` (04 R115). -/
def execVaddI32 (d : BitVec 7) (a : BitVec 7) (b : BitVec 7) (s : State) : Out :=
  .next (blockWord (shV 10 d.toNat a.toNat b.toNat) false d.toNat a.toNat b.toNat (lane2 fun x y => x + y) s)

/-- `vsub_i32` (04 R115). -/
def execVsubI32 (d : BitVec 7) (a : BitVec 7) (b : BitVec 7) (s : State) : Out :=
  .next (blockWord (shV 10 d.toNat a.toNat b.toNat) false d.toNat a.toNat b.toNat (lane2 fun x y => x - y) s)

/-- `vmul_i32` (04 R115). -/
def execVmulI32 (d : BitVec 7) (a : BitVec 7) (b : BitVec 7) (s : State) : Out :=
  .next (blockWord (shV 10 d.toNat a.toNat b.toNat) false d.toNat a.toNat b.toNat (lane2 fun x y => x * y) s)

/-- `vmulh_i32` (04 R115). -/
def execVmulhI32 (d : BitVec 7) (a : BitVec 7) (b : BitVec 7) (s : State) : Out :=
  .next (blockWord (shV 10 d.toNat a.toNat b.toNat) false d.toNat a.toNat b.toNat (lane2 fun x y => BitVec.ofInt 32 (x.toInt * y.toInt / 2 ^ 32)) s)

/-- `vmulh_n32` (04 R115). -/
def execVmulhN32 (d : BitVec 7) (a : BitVec 7) (b : BitVec 7) (s : State) : Out :=
  .next (blockWord (shV 10 d.toNat a.toNat b.toNat) false d.toNat a.toNat b.toNat (lane2 fun x y => BitVec.ofNat 32 (x.toNat * y.toNat / 2 ^ 32)) s)

/-- `vand_b32` (04 R115). -/
def execVandB32 (d : BitVec 7) (a : BitVec 7) (b : BitVec 7) (s : State) : Out :=
  .next (blockWord (shV 10 d.toNat a.toNat b.toNat) false d.toNat a.toNat b.toNat (lane2 fun x y => x &&& y) s)

/-- `vor_b32` (04 R115). -/
def execVorB32 (d : BitVec 7) (a : BitVec 7) (b : BitVec 7) (s : State) : Out :=
  .next (blockWord (shV 10 d.toNat a.toNat b.toNat) false d.toNat a.toNat b.toNat (lane2 fun x y => x ||| y) s)

/-- `vxor_b32` (04 R115). -/
def execVxorB32 (d : BitVec 7) (a : BitVec 7) (b : BitVec 7) (s : State) : Out :=
  .next (blockWord (shV 10 d.toNat a.toNat b.toNat) false d.toNat a.toNat b.toNat (lane2 fun x y => x ^^^ y) s)

/-- `vandn_b32` (04 R115). -/
def execVandnB32 (d : BitVec 7) (a : BitVec 7) (b : BitVec 7) (s : State) : Out :=
  .next (blockWord (shV 10 d.toNat a.toNat b.toNat) false d.toNat a.toNat b.toNat (lane2 fun x y => x &&& ~~~y) s)

/-- `vshl_b32` (04 R115). -/
def execVshlB32 (d : BitVec 7) (a : BitVec 7) (b : BitVec 7) (s : State) : Out :=
  .next (blockWord (shV 10 d.toNat a.toNat b.toNat) false d.toNat a.toNat b.toNat (lane2 fun x y => x <<< (y.toNat % 32)) s)

/-- `vshr_n32` (04 R115). -/
def execVshrN32 (d : BitVec 7) (a : BitVec 7) (b : BitVec 7) (s : State) : Out :=
  .next (blockWord (shV 10 d.toNat a.toNat b.toNat) false d.toNat a.toNat b.toNat (lane2 fun x y => x >>> (y.toNat % 32)) s)

/-- `vshr_i32` (04 R115). -/
def execVshrI32 (d : BitVec 7) (a : BitVec 7) (b : BitVec 7) (s : State) : Out :=
  .next (blockWord (shV 10 d.toNat a.toNat b.toNat) false d.toNat a.toNat b.toNat (lane2 fun x y => x.sshiftRight (y.toNat % 32)) s)

/-- `vmin_i32` (04 R115). -/
def execVminI32 (d : BitVec 7) (a : BitVec 7) (b : BitVec 7) (s : State) : Out :=
  .next (blockWord (shV 10 d.toNat a.toNat b.toNat) false d.toNat a.toNat b.toNat (lane2 fun x y => if x.slt y then x else y) s)

/-- `vmax_i32` (04 R115). -/
def execVmaxI32 (d : BitVec 7) (a : BitVec 7) (b : BitVec 7) (s : State) : Out :=
  .next (blockWord (shV 10 d.toNat a.toNat b.toNat) false d.toNat a.toNat b.toNat (lane2 fun x y => if x.slt y then y else x) s)

/-- `vmin_n32` (04 R115). -/
def execVminN32 (d : BitVec 7) (a : BitVec 7) (b : BitVec 7) (s : State) : Out :=
  .next (blockWord (shV 10 d.toNat a.toNat b.toNat) false d.toNat a.toNat b.toNat (lane2 fun x y => if x.ult y then x else y) s)

/-- `vmax_n32` (04 R115). -/
def execVmaxN32 (d : BitVec 7) (a : BitVec 7) (b : BitVec 7) (s : State) : Out :=
  .next (blockWord (shV 10 d.toNat a.toNat b.toNat) false d.toNat a.toNat b.toNat (lane2 fun x y => if x.ult y then y else x) s)

/-- `vadds_i32` (04 R116). -/
def execVaddsI32 (d : BitVec 7) (a : BitVec 7) (b : BitVec 7) (s : State) : Out :=
  .next (blockWord (shV 11 d.toNat a.toNat b.toNat) false d.toNat a.toNat b.toNat (lane2f fun x y => satI 32 (x.toInt + y.toInt)) s)

/-- `vadds_n32` (04 R116). -/
def execVaddsN32 (d : BitVec 7) (a : BitVec 7) (b : BitVec 7) (s : State) : Out :=
  .next (blockWord (shV 11 d.toNat a.toNat b.toNat) false d.toNat a.toNat b.toNat (lane2f fun x y => satN 32 (x.toNat + y.toNat)) s)

/-- `vsubs_i32` (04 R116). -/
def execVsubsI32 (d : BitVec 7) (a : BitVec 7) (b : BitVec 7) (s : State) : Out :=
  .next (blockWord (shV 11 d.toNat a.toNat b.toNat) false d.toNat a.toNat b.toNat (lane2f fun x y => satI 32 (x.toInt - y.toInt)) s)

/-- `vsubs_n32` (04 R116). -/
def execVsubsN32 (d : BitVec 7) (a : BitVec 7) (b : BitVec 7) (s : State) : Out :=
  .next (blockWord (shV 11 d.toNat a.toNat b.toNat) false d.toNat a.toNat b.toNat (lane2f fun x y => satN 32 ((x.toNat : Int) - y.toNat)) s)

/-- `vabs_i32` (04 R116). -/
def execVabsI32 (d : BitVec 7) (a : BitVec 7) (s : State) : Out :=
  .next (blockWord (shV1 11 d.toNat a.toNat) false d.toNat a.toNat 0 (lane1f fun x => satI 32 x.toInt.natAbs) s)

/-- `vneg_i32` (04 R116). -/
def execVnegI32 (d : BitVec 7) (a : BitVec 7) (s : State) : Out :=
  .next (blockWord (shV1 11 d.toNat a.toNat) false d.toNat a.toNat 0 (lane1 fun x => -x) s)

/-- `vpopc_b32` (04 R116). -/
def execVpopcB32 (d : BitVec 7) (a : BitVec 7) (s : State) : Out :=
  .next (blockWord (shV1 11 d.toNat a.toNat) false d.toNat a.toNat 0 (lane1 fun x => BitVec.ofNat 32 (popCount 32 x.toNat)) s)

/-- `vclz_b32` (04 R116). -/
def execVclzB32 (d : BitVec 7) (a : BitVec 7) (s : State) : Out :=
  .next (blockWord (shV1 11 d.toNat a.toNat) false d.toNat a.toNat 0 (lane1 fun x => BitVec.ofNat 32 (leadingZeros 32 x.toNat)) s)

/-- `vbrev_b32` (04 R116). -/
def execVbrevB32 (d : BitVec 7) (a : BitVec 7) (s : State) : Out :=
  .next (blockWord (shV1 11 d.toNat a.toNat) false d.toNat a.toNat 0 (lane1 fun x => x.reverse) s)

/-- `vmad_i32` (04 R116). -/
def execVmadI32 (d : BitVec 7) (a : BitVec 7) (b : BitVec 7) (s : State) : Out :=
  .next (blockWord (shVD 11 d.toNat a.toNat b.toNat) false d.toNat a.toNat b.toNat (lane3 fun x y z => z + x * y) s)

/-- `vabsd_n32` (04 R116). -/
def execVabsdN32 (d : BitVec 7) (a : BitVec 7) (b : BitVec 7) (s : State) : Out :=
  .next (blockWord (shV 11 d.toNat a.toNat b.toNat) false d.toNat a.toNat b.toNat (lane2 fun x y => if x.ult y then y - x else x - y) s)

/-- `vabsd_i32` (04 R116). -/
def execVabsdI32 (d : BitVec 7) (a : BitVec 7) (b : BitVec 7) (s : State) : Out :=
  .next (blockWord (shV 11 d.toNat a.toNat b.toNat) false d.toNat a.toNat b.toNat (lane2 fun x y => if x.slt y then y - x else x - y) s)

/-- `vavg_n32` (04 R116). -/
def execVavgN32 (d : BitVec 7) (a : BitVec 7) (b : BitVec 7) (s : State) : Out :=
  .next (blockWord (shV 11 d.toNat a.toNat b.toNat) false d.toNat a.toNat b.toNat (lane2 fun x y => BitVec.ofNat 32 ((x.toNat + y.toNat + 1) / 2)) s)

/-- `vrot_b32` (04 R116). -/
def execVrotB32 (d : BitVec 7) (a : BitVec 7) (b : BitVec 7) (s : State) : Out :=
  .next (blockWord (shV 11 d.toNat a.toNat b.toNat) false d.toNat a.toNat b.toNat (lane2 fun x y => x.rotateLeft (y.toNat % 32)) s)

/-- `vdot4_i8` (04 R116). -/
def execVdot4I8 (d : BitVec 7) (a : BitVec 7) (b : BitVec 7) (s : State) : Out :=
  .next (blockWord (shVD 11 d.toNat a.toNat b.toNat) false d.toNat a.toNat b.toNat (lane3 fun x y z => z + BitVec.ofInt 32 (dot4 (fun k => (byteOf x k).toInt) (fun k => (byteOf y k).toInt))) s)

/-- `vdot4_n8` (04 R116). -/
def execVdot4N8 (d : BitVec 7) (a : BitVec 7) (b : BitVec 7) (s : State) : Out :=
  .next (blockWord (shVD 11 d.toNat a.toNat b.toNat) false d.toNat a.toNat b.toNat (lane3 fun x y z => z + BitVec.ofInt 32 (dot4 (fun k => (byteOf x k).toNat) (fun k => (byteOf y k).toNat))) s)

/-- `vadd_b16` (04 R117). -/
def execVaddB16 (d : BitVec 7) (a : BitVec 7) (b : BitVec 7) (s : State) : Out :=
  .next (blockWord (shV 12 d.toNat a.toNat b.toNat) false d.toNat a.toNat b.toNat (lane2f (fields16 fun x y => (x + y, 0))) s)

/-- `vsub_b16` (04 R117). -/
def execVsubB16 (d : BitVec 7) (a : BitVec 7) (b : BitVec 7) (s : State) : Out :=
  .next (blockWord (shV 12 d.toNat a.toNat b.toNat) false d.toNat a.toNat b.toNat (lane2f (fields16 fun x y => (x - y, 0))) s)

/-- `vadds_i16` (04 R117). -/
def execVaddsI16 (d : BitVec 7) (a : BitVec 7) (b : BitVec 7) (s : State) : Out :=
  .next (blockWord (shV 12 d.toNat a.toNat b.toNat) false d.toNat a.toNat b.toNat (lane2f (fields16 fun x y => satI 16 (x.toInt + y.toInt))) s)

/-- `vadds_n16` (04 R117). -/
def execVaddsN16 (d : BitVec 7) (a : BitVec 7) (b : BitVec 7) (s : State) : Out :=
  .next (blockWord (shV 12 d.toNat a.toNat b.toNat) false d.toNat a.toNat b.toNat (lane2f (fields16 fun x y => satN 16 (x.toNat + y.toNat))) s)

/-- `vadd_b8` (04 R117). -/
def execVaddB8 (d : BitVec 7) (a : BitVec 7) (b : BitVec 7) (s : State) : Out :=
  .next (blockWord (shV 12 d.toNat a.toNat b.toNat) false d.toNat a.toNat b.toNat (lane2f (fields8 fun x y => (x + y, 0))) s)

/-- `vsub_b8` (04 R117). -/
def execVsubB8 (d : BitVec 7) (a : BitVec 7) (b : BitVec 7) (s : State) : Out :=
  .next (blockWord (shV 12 d.toNat a.toNat b.toNat) false d.toNat a.toNat b.toNat (lane2f (fields8 fun x y => (x - y, 0))) s)

/-- `vadds_i8` (04 R117). -/
def execVaddsI8 (d : BitVec 7) (a : BitVec 7) (b : BitVec 7) (s : State) : Out :=
  .next (blockWord (shV 12 d.toNat a.toNat b.toNat) false d.toNat a.toNat b.toNat (lane2f (fields8 fun x y => satI 8 (x.toInt + y.toInt))) s)

/-- `vadds_n8` (04 R117). -/
def execVaddsN8 (d : BitVec 7) (a : BitVec 7) (b : BitVec 7) (s : State) : Out :=
  .next (blockWord (shV 12 d.toNat a.toNat b.toNat) false d.toNat a.toNat b.toNat (lane2f (fields8 fun x y => satN 8 (x.toNat + y.toNat))) s)

/-- `vmin_i16` (04 R117). -/
def execVminI16 (d : BitVec 7) (a : BitVec 7) (b : BitVec 7) (s : State) : Out :=
  .next (blockWord (shV 12 d.toNat a.toNat b.toNat) false d.toNat a.toNat b.toNat (lane2f (fields16 fun x y => (if x.slt y then x else y, 0))) s)

/-- `vmax_i16` (04 R117). -/
def execVmaxI16 (d : BitVec 7) (a : BitVec 7) (b : BitVec 7) (s : State) : Out :=
  .next (blockWord (shV 12 d.toNat a.toNat b.toNat) false d.toNat a.toNat b.toNat (lane2f (fields16 fun x y => (if x.slt y then y else x, 0))) s)

/-- `vmin_n8` (04 R117). -/
def execVminN8 (d : BitVec 7) (a : BitVec 7) (b : BitVec 7) (s : State) : Out :=
  .next (blockWord (shV 12 d.toNat a.toNat b.toNat) false d.toNat a.toNat b.toNat (lane2f (fields8 fun x y => (if x.ult y then x else y, 0))) s)

/-- `vmax_n8` (04 R117). -/
def execVmaxN8 (d : BitVec 7) (a : BitVec 7) (b : BitVec 7) (s : State) : Out :=
  .next (blockWord (shV 12 d.toNat a.toNat b.toNat) false d.toNat a.toNat b.toNat (lane2f (fields8 fun x y => (if x.ult y then y else x, 0))) s)

/-- `vshl_b16` (04 R117). -/
def execVshlB16 (d : BitVec 7) (a : BitVec 7) (b : BitVec 7) (s : State) : Out :=
  .next (blockWord (shV 12 d.toNat a.toNat b.toNat) false d.toNat a.toNat b.toNat (lane2f (fields16 fun x y => (x <<< (y.toNat % 16), 0))) s)

/-- `vshr_n16` (04 R117). -/
def execVshrN16 (d : BitVec 7) (a : BitVec 7) (b : BitVec 7) (s : State) : Out :=
  .next (blockWord (shV 12 d.toNat a.toNat b.toNat) false d.toNat a.toNat b.toNat (lane2f (fields16 fun x y => (x >>> (y.toNat % 16), 0))) s)

/-- `vshr_i16` (04 R117). -/
def execVshrI16 (d : BitVec 7) (a : BitVec 7) (b : BitVec 7) (s : State) : Out :=
  .next (blockWord (shV 12 d.toNat a.toNat b.toNat) false d.toNat a.toNat b.toNat (lane2f (fields16 fun x y => (x.sshiftRight (y.toNat % 16), 0))) s)

/-- `vperm_b8` (04 R117). -/
def execVpermB8 (d : BitVec 7) (a : BitVec 7) (b : BitVec 7) (s : State) : Out :=
  .next (blockWord (shVD 12 d.toNat a.toNat b.toNat) false d.toNat a.toNat b.toNat (lane3 permBytes) s)

end Sys2Proof.Machine
end

