-- ==== Sys2Proof/Machine/Dispatch.lean ====
section
/-! DEFINITION. The meaning of each instruction, one arm each. -/

namespace Sys2Proof.Machine

def exec (i : Instr) (s : State) : Host.Outcome State Fault Refusal :=
  match i with
  | .nop => Sys2Proof.Machine.execNop s
  | .sadd d a b => Sys2Proof.Machine.execSadd d a b s
  | .ssub d a b => Sys2Proof.Machine.execSsub d a b s
  | .smul d a b => Sys2Proof.Machine.execSmul d a b s
  | .smulhI64 d a b => Sys2Proof.Machine.execSmulhI64 d a b s
  | .smulhN64 d a b => Sys2Proof.Machine.execSmulhN64 d a b s
  | .sdivI64 d a b => Sys2Proof.Machine.execSdivI64 d a b s
  | .sdivN64 d a b => Sys2Proof.Machine.execSdivN64 d a b s
  | .sremI64 d a b => Sys2Proof.Machine.execSremI64 d a b s
  | .sremN64 d a b => Sys2Proof.Machine.execSremN64 d a b s
  | .sand d a b => Sys2Proof.Machine.execSand d a b s
  | .sor d a b => Sys2Proof.Machine.execSor d a b s
  | .sxor d a b => Sys2Proof.Machine.execSxor d a b s
  | .sandn d a b => Sys2Proof.Machine.execSandn d a b s
  | .sshl d a b => Sys2Proof.Machine.execSshl d a b s
  | .sshrN64 d a b => Sys2Proof.Machine.execSshrN64 d a b s
  | .sshrI64 d a b => Sys2Proof.Machine.execSshrI64 d a b s
  | .sminI64 d a b => Sys2Proof.Machine.execSminI64 d a b s
  | .sminN64 d a b => Sys2Proof.Machine.execSminN64 d a b s
  | .smaxI64 d a b => Sys2Proof.Machine.execSmaxI64 d a b s
  | .smaxN64 d a b => Sys2Proof.Machine.execSmaxN64 d a b s
  | .spopc d a => Sys2Proof.Machine.execSpopc d a s
  | .sclz d a => Sys2Proof.Machine.execSclz d a s
  | .sctz d a => Sys2Proof.Machine.execSctz d a s
  | .saddi d a imm => Sys2Proof.Machine.execSaddi d a imm s
  | .sandi d a imm => Sys2Proof.Machine.execSandi d a imm s
  | .sori d a imm => Sys2Proof.Machine.execSori d a imm s
  | .sxori d a imm => Sys2Proof.Machine.execSxori d a imm s
  | .sshli d a imm => Sys2Proof.Machine.execSshli d a imm s
  | .sshriN64 d a imm => Sys2Proof.Machine.execSshriN64 d a imm s
  | .sshriI64 d a imm => Sys2Proof.Machine.execSshriI64 d a imm s
  | .smuli d a imm => Sys2Proof.Machine.execSmuli d a imm s
  | .sli d imm => Sys2Proof.Machine.execSli d imm s
  | .sliu d imm => Sys2Proof.Machine.execSliu d imm s
  | .sinsH0 d imm => Sys2Proof.Machine.execSinsH0 d imm s
  | .sinsH1 d imm => Sys2Proof.Machine.execSinsH1 d imm s
  | .sinsH2 d imm => Sys2Proof.Machine.execSinsH2 d imm s
  | .sinsH3 d imm => Sys2Proof.Machine.execSinsH3 d imm s
  | .vget d n a => Sys2Proof.Machine.execVget d n a s
  | .pget d p => Sys2Proof.Machine.execPget d p s
  | .psets a p => Sys2Proof.Machine.execPsets a p s
  | .seq d a b => Sys2Proof.Machine.execSeq d a b s
  | .sne d a b => Sys2Proof.Machine.execSne d a b s
  | .sltI64 d a b => Sys2Proof.Machine.execSltI64 d a b s
  | .sleI64 d a b => Sys2Proof.Machine.execSleI64 d a b s
  | .sltN64 d a b => Sys2Proof.Machine.execSltN64 d a b s
  | .sleN64 d a b => Sys2Proof.Machine.execSleN64 d a b s
  | .pand d a b => Sys2Proof.Machine.execPand d a b s
  | .por d a b => Sys2Proof.Machine.execPor d a b s
  | .pxor d a b => Sys2Proof.Machine.execPxor d a b s
  | .pandn d a b => Sys2Proof.Machine.execPandn d a b s
  | .pnot d a => Sys2Proof.Machine.execPnot d a s
  | .ppopc d a => Sys2Proof.Machine.execPpopc d a s
  | .pffs d a => Sys2Proof.Machine.execPffs d a s
  | .pfill d a => Sys2Proof.Machine.execPfill d a s
  | .sldB64 d a b l => Sys2Proof.Machine.execSldB64 d a b l s
  | .sldN32 d a b l => Sys2Proof.Machine.execSldN32 d a b l s
  | .sldI32 d a b l => Sys2Proof.Machine.execSldI32 d a b l s
  | .sldNf d a b t l => Sys2Proof.Machine.execSldNf d a b t l s
  | .sstB64 v a b l => Sys2Proof.Machine.execSstB64 v a b l s
  | .sstB32 v a b l => Sys2Proof.Machine.execSstB32 v a b l s
  | .sstNf v a b t l => Sys2Proof.Machine.execSstNf v a b t l s
  | .br o => Sys2Proof.Machine.execBr o s
  | .call o => Sys2Proof.Machine.execCall o s
  | .ret => Sys2Proof.Machine.execRet s
  | .callr => Sys2Proof.Machine.execCallr s
  | .bany p o => Sys2Proof.Machine.execBany p o s
  | .ball p o => Sys2Proof.Machine.execBall p o s
  | .bnone p o => Sys2Proof.Machine.execBnone p o s
  | .bnall p o => Sys2Proof.Machine.execBnall p o s
  | .split p o => Sys2Proof.Machine.execSplit p o s
  | .elseArm o => Sys2Proof.Machine.execElseArm o s
  | .join => Sys2Proof.Machine.execJoin s
  | .mand p => Sys2Proof.Machine.execMand p s
  | .mandn p => Sys2Proof.Machine.execMandn p s
  | .dspop d => Sys2Proof.Machine.execDspop d s
  | .dspush a => Sys2Proof.Machine.execDspush a s
  | .dsdepth d => Sys2Proof.Machine.execDsdepth d s
  | .dbnz k o => Sys2Proof.Machine.execDbnz k o s
  | .bz k o => Sys2Proof.Machine.execBz k o s
  | .bnz k o => Sys2Proof.Machine.execBnz k o s
  | .vaddI32 d a b => Sys2Proof.Machine.execVaddI32 d a b s
  | .vsubI32 d a b => Sys2Proof.Machine.execVsubI32 d a b s
  | .vmulI32 d a b => Sys2Proof.Machine.execVmulI32 d a b s
  | .vmulhI32 d a b => Sys2Proof.Machine.execVmulhI32 d a b s
  | .vmulhN32 d a b => Sys2Proof.Machine.execVmulhN32 d a b s
  | .vandB32 d a b => Sys2Proof.Machine.execVandB32 d a b s
  | .vorB32 d a b => Sys2Proof.Machine.execVorB32 d a b s
  | .vxorB32 d a b => Sys2Proof.Machine.execVxorB32 d a b s
  | .vandnB32 d a b => Sys2Proof.Machine.execVandnB32 d a b s
  | .vshlB32 d a b => Sys2Proof.Machine.execVshlB32 d a b s
  | .vshrN32 d a b => Sys2Proof.Machine.execVshrN32 d a b s
  | .vshrI32 d a b => Sys2Proof.Machine.execVshrI32 d a b s
  | .vminI32 d a b => Sys2Proof.Machine.execVminI32 d a b s
  | .vmaxI32 d a b => Sys2Proof.Machine.execVmaxI32 d a b s
  | .vminN32 d a b => Sys2Proof.Machine.execVminN32 d a b s
  | .vmaxN32 d a b => Sys2Proof.Machine.execVmaxN32 d a b s
  | .vaddsI32 d a b => Sys2Proof.Machine.execVaddsI32 d a b s
  | .vaddsN32 d a b => Sys2Proof.Machine.execVaddsN32 d a b s
  | .vsubsI32 d a b => Sys2Proof.Machine.execVsubsI32 d a b s
  | .vsubsN32 d a b => Sys2Proof.Machine.execVsubsN32 d a b s
  | .vabsI32 d a => Sys2Proof.Machine.execVabsI32 d a s
  | .vnegI32 d a => Sys2Proof.Machine.execVnegI32 d a s
  | .vpopcB32 d a => Sys2Proof.Machine.execVpopcB32 d a s
  | .vclzB32 d a => Sys2Proof.Machine.execVclzB32 d a s
  | .vbrevB32 d a => Sys2Proof.Machine.execVbrevB32 d a s
  | .vmadI32 d a b => Sys2Proof.Machine.execVmadI32 d a b s
  | .vabsdN32 d a b => Sys2Proof.Machine.execVabsdN32 d a b s
  | .vabsdI32 d a b => Sys2Proof.Machine.execVabsdI32 d a b s
  | .vavgN32 d a b => Sys2Proof.Machine.execVavgN32 d a b s
  | .vrotB32 d a b => Sys2Proof.Machine.execVrotB32 d a b s
  | .vdot4I8 d a b => Sys2Proof.Machine.execVdot4I8 d a b s
  | .vdot4N8 d a b => Sys2Proof.Machine.execVdot4N8 d a b s
  | .vaddB16 d a b => Sys2Proof.Machine.execVaddB16 d a b s
  | .vsubB16 d a b => Sys2Proof.Machine.execVsubB16 d a b s
  | .vaddsI16 d a b => Sys2Proof.Machine.execVaddsI16 d a b s
  | .vaddsN16 d a b => Sys2Proof.Machine.execVaddsN16 d a b s
  | .vaddB8 d a b => Sys2Proof.Machine.execVaddB8 d a b s
  | .vsubB8 d a b => Sys2Proof.Machine.execVsubB8 d a b s
  | .vaddsI8 d a b => Sys2Proof.Machine.execVaddsI8 d a b s
  | .vaddsN8 d a b => Sys2Proof.Machine.execVaddsN8 d a b s
  | .vminI16 d a b => Sys2Proof.Machine.execVminI16 d a b s
  | .vmaxI16 d a b => Sys2Proof.Machine.execVmaxI16 d a b s
  | .vminN8 d a b => Sys2Proof.Machine.execVminN8 d a b s
  | .vmaxN8 d a b => Sys2Proof.Machine.execVmaxN8 d a b s
  | .vpermB8 d a b => Sys2Proof.Machine.execVpermB8 d a b s
  | .vshlB16 d a b => Sys2Proof.Machine.execVshlB16 d a b s
  | .vshrN16 d a b => Sys2Proof.Machine.execVshrN16 d a b s
  | .vshrI16 d a b => Sys2Proof.Machine.execVshrI16 d a b s
  | .vaddF32 d a b => Sys2Proof.Machine.execVaddF32 d a b s
  | .vsubF32 d a b => Sys2Proof.Machine.execVsubF32 d a b s
  | .vmulF32 d a b => Sys2Proof.Machine.execVmulF32 d a b s
  | .vfmaF32 d a b => Sys2Proof.Machine.execVfmaF32 d a b s
  | .vfmsF32 d a b => Sys2Proof.Machine.execVfmsF32 d a b s
  | .vminF32 d a b => Sys2Proof.Machine.execVminF32 d a b s
  | .vmaxF32 d a b => Sys2Proof.Machine.execVmaxF32 d a b s
  | .vabsF32 d a => Sys2Proof.Machine.execVabsF32 d a s
  | .vnegF32 d a => Sys2Proof.Machine.execVnegF32 d a s
  | .vdivF32 d a b => Sys2Proof.Machine.execVdivF32 d a b s
  | .vsqrtF32 d a => Sys2Proof.Machine.execVsqrtF32 d a s
  | .vfloorF32 d a => Sys2Proof.Machine.execVfloorF32 d a s
  | .vceilF32 d a => Sys2Proof.Machine.execVceilF32 d a s
  | .vtruncF32 d a => Sys2Proof.Machine.execVtruncF32 d a s
  | .vrintF32 d a => Sys2Proof.Machine.execVrintF32 d a s
  | .vscaleF32 d a b => Sys2Proof.Machine.execVscaleF32 d a b s
  | .vmaxabsF32 d a b => Sys2Proof.Machine.execVmaxabsF32 d a b s
  | .vcopysignF32 d a b => Sys2Proof.Machine.execVcopysignF32 d a b s
  | .vclassF32 d a => Sys2Proof.Machine.execVclassF32 d a s
  | .vexpoF32 d a => Sys2Proof.Machine.execVexpoF32 d a s
  | .vminnanF32 d a b => Sys2Proof.Machine.execVminnanF32 d a b s
  | .vmaxnanF32 d a b => Sys2Proof.Machine.execVmaxnanF32 d a b s
  | .vexp2ApxF32 d a l => Sys2Proof.Machine.execVexp2ApxF32 d a l s
  | .vlog2ApxF32 d a l => Sys2Proof.Machine.execVlog2ApxF32 d a l s
  | .vrcpApxF32 d a l => Sys2Proof.Machine.execVrcpApxF32 d a l s
  | .vrsqrtApxF32 d a l => Sys2Proof.Machine.execVrsqrtApxF32 d a l s
  | .vaddBf16 d a b => Sys2Proof.Machine.execVaddBf16 d a b s
  | .vmulBf16 d a b => Sys2Proof.Machine.execVmulBf16 d a b s
  | .vfmaBf16 d a b => Sys2Proof.Machine.execVfmaBf16 d a b s
  | .vminBf16 d a b => Sys2Proof.Machine.execVminBf16 d a b s
  | .vmaxBf16 d a b => Sys2Proof.Machine.execVmaxBf16 d a b s
  | .vdot2F32Bf16 d a b => Sys2Proof.Machine.execVdot2F32Bf16 d a b s
  | .vsubBf16 d a b => Sys2Proof.Machine.execVsubBf16 d a b s
  | .vaddF16 d a b => Sys2Proof.Machine.execVaddF16 d a b s
  | .vmulF16 d a b => Sys2Proof.Machine.execVmulF16 d a b s
  | .vfmaF16 d a b => Sys2Proof.Machine.execVfmaF16 d a b s
  | .vminF16 d a b => Sys2Proof.Machine.execVminF16 d a b s
  | .vmaxF16 d a b => Sys2Proof.Machine.execVmaxF16 d a b s
  | .vdot2F32F16 d a b => Sys2Proof.Machine.execVdot2F32F16 d a b s
  | .vsubF16 d a b => Sys2Proof.Machine.execVsubF16 d a b s
  | .vcvtF32I32 d a m => Sys2Proof.Machine.execVcvtF32I32 d a m s
  | .vcvtF32N32 d a m => Sys2Proof.Machine.execVcvtF32N32 d a m s
  | .vcvtI32F32 d a m => Sys2Proof.Machine.execVcvtI32F32 d a m s
  | .vcvtN32F32 d a m => Sys2Proof.Machine.execVcvtN32F32 d a m s
  | .vcvtBf16F32 d a m => Sys2Proof.Machine.execVcvtBf16F32 d a m s
  | .vcvtF16F32 d a m => Sys2Proof.Machine.execVcvtF16F32 d a m s
  | .vcvtF32Bf16 d a m => Sys2Proof.Machine.execVcvtF32Bf16 d a m s
  | .vcvtF32F16 d a m => Sys2Proof.Machine.execVcvtF32F16 d a m s
  | .vcvtNfF32 d a m t => Sys2Proof.Machine.execVcvtNfF32 d a m t s
  | .vcvtF32Nf d a m t => Sys2Proof.Machine.execVcvtF32Nf d a m t s
  | .vcvtE4m3F32 d a m => Sys2Proof.Machine.execVcvtE4m3F32 d a m s
  | .vcvtE5m2F32 d a m => Sys2Proof.Machine.execVcvtE5m2F32 d a m s
  | .vcvtF32E4m3 d a m => Sys2Proof.Machine.execVcvtF32E4m3 d a m s
  | .vcvtF32E5m2 d a m => Sys2Proof.Machine.execVcvtF32E5m2 d a m s
  | .vcvthiBf16F32 d a m => Sys2Proof.Machine.execVcvthiBf16F32 d a m s
  | .vcvthiF16F32 d a m => Sys2Proof.Machine.execVcvthiF16F32 d a m s
  | .vcmpEqB32 p a b => Sys2Proof.Machine.execVcmpEqB32 p a b s
  | .vcmpNeB32 p a b => Sys2Proof.Machine.execVcmpNeB32 p a b s
  | .vcmpLtI32 p a b => Sys2Proof.Machine.execVcmpLtI32 p a b s
  | .vcmpLeI32 p a b => Sys2Proof.Machine.execVcmpLeI32 p a b s
  | .vcmpLtN32 p a b => Sys2Proof.Machine.execVcmpLtN32 p a b s
  | .vcmpLeN32 p a b => Sys2Proof.Machine.execVcmpLeN32 p a b s
  | .vcmpEqF32 p a b => Sys2Proof.Machine.execVcmpEqF32 p a b s
  | .vcmpNeF32 p a b => Sys2Proof.Machine.execVcmpNeF32 p a b s
  | .vcmpLtF32 p a b => Sys2Proof.Machine.execVcmpLtF32 p a b s
  | .vcmpLeF32 p a b => Sys2Proof.Machine.execVcmpLeF32 p a b s
  | .vcmpUnF32 p a b => Sys2Proof.Machine.execVcmpUnF32 p a b s
  | .vtestB32 p a b => Sys2Proof.Machine.execVtestB32 p a b s
  | .vshflIdx d a b => Sys2Proof.Machine.execVshflIdx d a b s
  | .vshflUp d a n => Sys2Proof.Machine.execVshflUp d a n s
  | .vshflDown d a n => Sys2Proof.Machine.execVshflDown d a n s
  | .vshflXor d a n => Sys2Proof.Machine.execVshflXor d a n s
  | .vballot d p => Sys2Proof.Machine.execVballot d p s
  | .vvoteAll d p => Sys2Proof.Machine.execVvoteAll d p s
  | .vvoteAny d p => Sys2Proof.Machine.execVvoteAny d p s
  | .vmatchB32 d a => Sys2Proof.Machine.execVmatchB32 d a s
  | .vredAddI32 d a => Sys2Proof.Machine.execVredAddI32 d a s
  | .vredMaxI32 d a => Sys2Proof.Machine.execVredMaxI32 d a s
  | .vredMinI32 d a => Sys2Proof.Machine.execVredMinI32 d a s
  | .vredAddF32 d a => Sys2Proof.Machine.execVredAddF32 d a s
  | .vredMaxF32 d a => Sys2Proof.Machine.execVredMaxF32 d a s
  | .vscanAddI32 d a => Sys2Proof.Machine.execVscanAddI32 d a s
  | .vscanxAddI32 d a => Sys2Proof.Machine.execVscanxAddI32 d a s
  | .vscanAddF32 d a => Sys2Proof.Machine.execVscanAddF32 d a s
  | .vmov d a => Sys2Proof.Machine.execVmov d a s
  | .vli d imm => Sys2Proof.Machine.execVli d imm s
  | .vbcast d sc => Sys2Proof.Machine.execVbcast d sc s
  | .vbcasth d sc => Sys2Proof.Machine.execVbcasth d sc s
  | .vpmask d p => Sys2Proof.Machine.execVpmask d p s
  | .vins d sc n => Sys2Proof.Machine.execVins d sc n s
  | .vsel d a b k => Sys2Proof.Machine.execVsel d a b k s
  | .ldB32 d a b l => Sys2Proof.Machine.execLdB32 d a b l s
  | .ldNf d a b t l => Sys2Proof.Machine.execLdNf d a b t l s
  | .stB32 v a b l => Sys2Proof.Machine.execStB32 v a b l s
  | .stNf v a b t l => Sys2Proof.Machine.execStNf v a b t l s
  | .pldB32 d a l => Sys2Proof.Machine.execPldB32 d a l s
  | .pldNf d a t l => Sys2Proof.Machine.execPldNf d a t l s
  | .pstB32 v a l => Sys2Proof.Machine.execPstB32 v a l s
  | .pstNf v a t l => Sys2Proof.Machine.execPstNf v a t l s
  | .pldB64 d a l => Sys2Proof.Machine.execPldB64 d a l s
  | .pstB64 v a l => Sys2Proof.Machine.execPstB64 v a l s
  | .ldtrB8 d a t l => Sys2Proof.Machine.execLdtrB8 d a t l s
  | .ldtrB16 d a t l => Sys2Proof.Machine.execLdtrB16 d a t l s
  | .ldtrB32 d a t l => Sys2Proof.Machine.execLdtrB32 d a t l s
  | .atomAdd a sc b w l => Sys2Proof.Machine.execAtomAdd a sc b w l s
  | .redAdd a sc b w l => Sys2Proof.Machine.execRedAdd a sc b w l s
  | .atomAnd a sc b w l => Sys2Proof.Machine.execAtomAnd a sc b w l s
  | .redAnd a sc b w l => Sys2Proof.Machine.execRedAnd a sc b w l s
  | .atomOr a sc b w l => Sys2Proof.Machine.execAtomOr a sc b w l s
  | .redOr a sc b w l => Sys2Proof.Machine.execRedOr a sc b w l s
  | .atomXor a sc b w l => Sys2Proof.Machine.execAtomXor a sc b w l s
  | .redXor a sc b w l => Sys2Proof.Machine.execRedXor a sc b w l s
  | .atomMinI a sc b w l => Sys2Proof.Machine.execAtomMinI a sc b w l s
  | .redMinI a sc b w l => Sys2Proof.Machine.execRedMinI a sc b w l s
  | .atomMaxI a sc b w l => Sys2Proof.Machine.execAtomMaxI a sc b w l s
  | .redMaxI a sc b w l => Sys2Proof.Machine.execRedMaxI a sc b w l s
  | .atomMinN a sc b w l => Sys2Proof.Machine.execAtomMinN a sc b w l s
  | .redMinN a sc b w l => Sys2Proof.Machine.execRedMinN a sc b w l s
  | .atomMaxN a sc b w l => Sys2Proof.Machine.execAtomMaxN a sc b w l s
  | .redMaxN a sc b w l => Sys2Proof.Machine.execRedMaxN a sc b w l s
  | .atomExch a sc b w l => Sys2Proof.Machine.execAtomExch a sc b w l s
  | .redExch a sc b w l => Sys2Proof.Machine.execRedExch a sc b w l s
  | .atomCas a sc b w l => Sys2Proof.Machine.execAtomCas a sc b w l s
  | .atomInc a sc b w l => Sys2Proof.Machine.execAtomInc a sc b w l s
  | .redInc a sc b w l => Sys2Proof.Machine.execRedInc a sc b w l s
  | .atomDec a sc b w l => Sys2Proof.Machine.execAtomDec a sc b w l s
  | .redDec a sc b w l => Sys2Proof.Machine.execRedDec a sc b w l s
  | .atomFadd a sc b l => Sys2Proof.Machine.execAtomFadd a sc b l s
  | .redFadd a sc b l => Sys2Proof.Machine.execRedFadd a sc b l s
  | .atomFmax a sc b l => Sys2Proof.Machine.execAtomFmax a sc b l s
  | .redFmax a sc b l => Sys2Proof.Machine.execRedFmax a sc b l s
  | .atomFmin a sc b l => Sys2Proof.Machine.execAtomFmin a sc b l s
  | .redFmin a sc b l => Sys2Proof.Machine.execRedFmin a sc b l s
  | .patomAdd a b w l => Sys2Proof.Machine.execPatomAdd a b w l s
  | .predAdd a b w l => Sys2Proof.Machine.execPredAdd a b w l s
  | .patomAnd a b w l => Sys2Proof.Machine.execPatomAnd a b w l s
  | .predAnd a b w l => Sys2Proof.Machine.execPredAnd a b w l s
  | .patomOr a b w l => Sys2Proof.Machine.execPatomOr a b w l s
  | .predOr a b w l => Sys2Proof.Machine.execPredOr a b w l s
  | .patomXor a b w l => Sys2Proof.Machine.execPatomXor a b w l s
  | .predXor a b w l => Sys2Proof.Machine.execPredXor a b w l s
  | .patomMinI a b w l => Sys2Proof.Machine.execPatomMinI a b w l s
  | .predMinI a b w l => Sys2Proof.Machine.execPredMinI a b w l s
  | .patomMaxI a b w l => Sys2Proof.Machine.execPatomMaxI a b w l s
  | .predMaxI a b w l => Sys2Proof.Machine.execPredMaxI a b w l s
  | .patomMinN a b w l => Sys2Proof.Machine.execPatomMinN a b w l s
  | .predMinN a b w l => Sys2Proof.Machine.execPredMinN a b w l s
  | .patomMaxN a b w l => Sys2Proof.Machine.execPatomMaxN a b w l s
  | .predMaxN a b w l => Sys2Proof.Machine.execPredMaxN a b w l s
  | .patomExch a b w l => Sys2Proof.Machine.execPatomExch a b w l s
  | .predExch a b w l => Sys2Proof.Machine.execPredExch a b w l s
  | .patomCas a b w l => Sys2Proof.Machine.execPatomCas a b w l s
  | .patomInc a b w l => Sys2Proof.Machine.execPatomInc a b w l s
  | .predInc a b w l => Sys2Proof.Machine.execPredInc a b w l s
  | .patomDec a b w l => Sys2Proof.Machine.execPatomDec a b w l s
  | .predDec a b w l => Sys2Proof.Machine.execPredDec a b w l s
  | .patomFadd a b l => Sys2Proof.Machine.execPatomFadd a b l s
  | .predFadd a b l => Sys2Proof.Machine.execPredFadd a b l s
  | .patomFmax a b l => Sys2Proof.Machine.execPatomFmax a b l s
  | .predFmax a b l => Sys2Proof.Machine.execPredFmax a b l s
  | .patomFmin a b l => Sys2Proof.Machine.execPatomFmin a b l s
  | .predFmin a b l => Sys2Proof.Machine.execPredFmin a b l s
  | .barInit a b l => Sys2Proof.Machine.execBarInit a b l s
  | .barArrive a c sc l => Sys2Proof.Machine.execBarArrive a c sc l s
  | .barArrivet d b c sc l => Sys2Proof.Machine.execBarArrivet d b c sc l s
  | .barExpect a b l => Sys2Proof.Machine.execBarExpect a b l s
  | .barWait a b sc => Sys2Proof.Machine.execBarWait a b sc s
  | .barTest d b l => Sys2Proof.Machine.execBarTest d b l s
  | .barDrop a l => Sys2Proof.Machine.execBarDrop a l s
  | .qpush b q => Sys2Proof.Machine.execQpush b q s
  | .qpop d q => Sys2Proof.Machine.execQpop d q s
  | .qtrypush d b q l => Sys2Proof.Machine.execQtrypush d b q l s
  | .qtrypop d q l => Sys2Proof.Machine.execQtrypop d q l s
  | .ownGive a b l => Sys2Proof.Machine.execOwnGive a b l s
  | .ownTake a b => Sys2Proof.Machine.execOwnTake a b s
  | .ownTest d b l => Sys2Proof.Machine.execOwnTest d b l s
  | .mwatch d b l => Sys2Proof.Machine.execMwatch d b l s
  | .mwait d b => Sys2Proof.Machine.execMwait d b s
  | .sleep a => Sys2Proof.Machine.execSleep a s
  | .mclear l => Sys2Proof.Machine.execMclear l s
  | .mwaitTimeout gang => Sys2Proof.Machine.execMwaitTimeout gang s
  | .sleepEnd gang => Sys2Proof.Machine.execSleepEnd gang s
  | .mfs d x => Sys2Proof.Machine.execMfs d x s
  | .mts a x => Sys2Proof.Machine.execMts a x s
  | .mfsv d x => Sys2Proof.Machine.execMfsv d x s
  | .mtsv a x => Sys2Proof.Machine.execMtsv a x s
  | .tret => Sys2Proof.Machine.execTret s
  | .brk imm => Sys2Proof.Machine.execBrk imm s
  | .tlane a e => Sys2Proof.Machine.execTlane a e s
  | .tdone => Sys2Proof.Machine.execTdone s
  | .exit => Sys2Proof.Machine.execExit s
  | .cpLd a b c k l => Sys2Proof.Machine.execCpLd a b c k l s
  | .cpSt a b c k l => Sys2Proof.Machine.execCpSt a b c k l s
  | .cpLdq a b c k l => Sys2Proof.Machine.execCpLdq a b c k l s
  | .cpFifo a c k l => Sys2Proof.Machine.execCpFifo a c k l s
  | .cpMc a b c k l => Sys2Proof.Machine.execCpMc a b c k l s
  | .cpGrant a => Sys2Proof.Machine.execCpGrant a s
  | .cpSlots d l => Sys2Proof.Machine.execCpSlots d l s
  | .cpCount d l => Sys2Proof.Machine.execCpCount d l s
  | .xpRun a k l => Sys2Proof.Machine.execXpRun a k l s
  | .sectorLanded core cmd => Sys2Proof.Machine.execSectorLanded core cmd s
  | .copyCommandComplete core cmd => Sys2Proof.Machine.execCopyCommandComplete core cmd s
  | .copyFaultReport core cmd => Sys2Proof.Machine.execCopyFaultReport core cmd s
  | .mtask a k l => Sys2Proof.Machine.execMtask a k l s
  | .mdrain a k l => Sys2Proof.Machine.execMdrain a k l s
  | .mstat d b l => Sys2Proof.Machine.execMstat d b l s
  | .taskStart core => Sys2Proof.Machine.execTaskStart core s
  | .kgroupCompute core task => Sys2Proof.Machine.execKgroupCompute core task s
  | .taskComplete core task => Sys2Proof.Machine.execTaskComplete core task s
  | .arrivalApply arrival => Sys2Proof.Machine.execArrivalApply arrival s
  | .peerAcknowledge core task => Sys2Proof.Machine.execPeerAcknowledge core task s
  | .matrixFaultReport core task => Sys2Proof.Machine.execMatrixFaultReport core task s
  | .ldAcqB32 d a b sc l => Sys2Proof.Machine.execLdAcqB32 d a b sc l s
  | .stRelB32 v a b sc l => Sys2Proof.Machine.execStRelB32 v a b sc l s
  | .fence sc => Sys2Proof.Machine.execFence sc s
  | .fenceRel sc => Sys2Proof.Machine.execFenceRel sc s
  | .fenceAcq sc => Sys2Proof.Machine.execFenceAcq sc s
  | .cwbRange a b => Sys2Proof.Machine.execCwbRange a b s
  | .cinvRange a b => Sys2Proof.Machine.execCinvRange a b s
  | .icinvRange a b => Sys2Proof.Machine.execIcinvRange a b s
  | .twinStat d l => Sys2Proof.Machine.execTwinStat d l s
  | .mcas d b l => Sys2Proof.Machine.execMcas d b l s
  | .tlbinv a b => Sys2Proof.Machine.execTlbinv a b s
  | .lockGrant line => Sys2Proof.Machine.execLockGrant line s
  | .earlyPublication die => Sys2Proof.Machine.execEarlyPublication die s
  | .evictionPublication die line => Sys2Proof.Machine.execEvictionPublication die line s
  | .recordApply record => Sys2Proof.Machine.execRecordApply record s
  | .releaseComplete release => Sys2Proof.Machine.execReleaseComplete release s
  | .forwardedCopyApply copy => Sys2Proof.Machine.execForwardedCopyApply copy s
  | .fillArrival fill => Sys2Proof.Machine.execFillArrival fill s
  | .writeBackApply writeBack => Sys2Proof.Machine.execWriteBackApply writeBack s
  | .accessComplete gang entry => Sys2Proof.Machine.execAccessComplete gang entry s
  | .takeTrap gang => Sys2Proof.Machine.execTakeTrap gang s
  | .watchdog gang => Sys2Proof.Machine.execWatchdog gang s
  | .uncorrectableError gang structureId address => Sys2Proof.Machine.execUncorrectableError gang structureId address s
  | .swmAlloc d b c l => Sys2Proof.Machine.execSwmAlloc d b c l s
  | .swmMap d b c l => Sys2Proof.Machine.execSwmMap d b c l s
  | .swmUnmap d b l => Sys2Proof.Machine.execSwmUnmap d b l s
  | .swmFree d b l => Sys2Proof.Machine.execSwmFree d b l s
  | .fmc a b c k l => Sys2Proof.Machine.execFmc a b c k l s
  | .fred a b c k l => Sys2Proof.Machine.execFred a b c k l s
  | .fsig a b k l => Sys2Proof.Machine.execFsig a b k l s
  | .fstat d l => Sys2Proof.Machine.execFstat d l s
  | .wcAgeDrain core line => Sys2Proof.Machine.execWcAgeDrain core line s
  | .writePacketApply packet => Sys2Proof.Machine.execWritePacketApply packet s
  | .acknowledgeReceive packet => Sys2Proof.Machine.execAcknowledgeReceive packet s
  | .remoteFaultReport packet code => Sys2Proof.Machine.execRemoteFaultReport packet code s
  | .retransmit packet => Sys2Proof.Machine.execRetransmit packet s
  | .recoveryDiscard packet => Sys2Proof.Machine.execRecoveryDiscard packet s
  | .keyRollover link => Sys2Proof.Machine.execKeyRollover link s
  | .drainedFlit link => Sys2Proof.Machine.execDrainedFlit link s
  | .linkDown link => Sys2Proof.Machine.execLinkDown link s
  | .switchLost sw => Sys2Proof.Machine.execSwitchLost sw s
  | .switchReplaced sw => Sys2Proof.Machine.execSwitchReplaced sw s
  | .multicastDelivery delivery => Sys2Proof.Machine.execMulticastDelivery delivery s
  | .reductionContribution contribution => Sys2Proof.Machine.execReductionContribution contribution s
  | .residueSend sw port entry => Sys2Proof.Machine.execResidueSend sw port entry s
  | .groupInstall group tenant members => Sys2Proof.Machine.execGroupInstall group tenant members s
  | .groupReinstall group plane => Sys2Proof.Machine.execGroupReinstall group plane s
  | .switchTableWrite sw plane state generation => Sys2Proof.Machine.execSwitchTableWrite sw plane state generation s
  | .quotaSet tenant sw granules => Sys2Proof.Machine.execQuotaSet tenant sw granules s
  | .linkStateUpdate pkg plane up => Sys2Proof.Machine.execLinkStateUpdate pkg plane up s
  | .ndLaunch d b l => Sys2Proof.Machine.execNdLaunch d b l s
  | .ndSignal d b c l => Sys2Proof.Machine.execNdSignal d b c l s
  | .ndStat d b l => Sys2Proof.Machine.execNdStat d b l s
  | .hostDoorbell tenant queue tail => Sys2Proof.Machine.execHostDoorbell tenant queue tail s
  | .nodeAdmit admission => Sys2Proof.Machine.execNodeAdmit admission s
  | .predecessorSignal signal => Sys2Proof.Machine.execPredecessorSignal signal s
  | .ensemblePlace node places => Sys2Proof.Machine.execEnsemblePlace node places s
  | .ensembleRestore ensemble places => Sys2Proof.Machine.execEnsembleRestore ensemble places s
  | .nodeComplete node => Sys2Proof.Machine.execNodeComplete node s
  | .sqBind d b => Sys2Proof.Machine.execSqBind d b s
  | .sqUnbind a => Sys2Proof.Machine.execSqUnbind a s
  | .sqQuery d b => Sys2Proof.Machine.execSqQuery d b s
  | .sqImg b c => Sys2Proof.Machine.execSqImg b c s
  | .dwx imm d a b n => Sys2Proof.Machine.execDwx imm d a b n s
  | .eclipseWindowStart die => Sys2Proof.Machine.execEclipseWindowStart die s
  | .eclipseWindowEnd die => Sys2Proof.Machine.execEclipseWindowEnd die s
  | .tenantRecordWrite tenant offset value => Sys2Proof.Machine.execTenantRecordWrite tenant offset value s
  | .writeRefusedClear tenant => Sys2Proof.Machine.execWriteRefusedClear tenant s
  | .tenantReset tenant => Sys2Proof.Machine.execTenantReset tenant s
  | .warmReset => Sys2Proof.Machine.execWarmReset s
  | .coldReset => Sys2Proof.Machine.execColdReset s
  | .powerOnReset => Sys2Proof.Machine.execPowerOnReset s
  | .eventOverflowClear => Sys2Proof.Machine.execEventOverflowClear s
  | .eventQueueHeadWrite head => Sys2Proof.Machine.execEventQueueHeadWrite head s
  | .registerWrite offset value => Sys2Proof.Machine.execRegisterWrite offset value s
  | .hostMemLoad address bytes => Sys2Proof.Machine.execHostMemLoad address bytes s
  | .hostMemStore address data => Sys2Proof.Machine.execHostMemStore address data s
  | .sidebandResetRequest secured command level => Sys2Proof.Machine.execSidebandResetRequest secured command level s
  | .firmwareUpdate image => Sys2Proof.Machine.execFirmwareUpdate image s
  | .spdmRequest index => Sys2Proof.Machine.execSpdmRequest index s
  | .powerCapSet watts => Sys2Proof.Machine.execPowerCapSet watts s
  | .clockThrottle limit => Sys2Proof.Machine.execClockThrottle limit s
  | .clockRaise limit => Sys2Proof.Machine.execClockRaise limit s
  | .thermalTrip die => Sys2Proof.Machine.execThermalTrip die s
  | .spuriousWake gang => Sys2Proof.Machine.execSpuriousWake gang s
  | .saveLimitPassed ensemble => Sys2Proof.Machine.execSaveLimitPassed ensemble s
  | .remoteLoadOrAtomicServe request => Sys2Proof.Machine.execRemoteLoadOrAtomicServe request s
  | .flitAuthenticationFailure link => Sys2Proof.Machine.execFlitAuthenticationFailure link s
  | .voluntaryWriteBack die grain => Sys2Proof.Machine.execVoluntaryWriteBack die grain s
  | .capUnreachableEnd => Sys2Proof.Machine.execCapUnreachableEnd s
  | .uncorrectableErrorOutsideGang origin detail => Sys2Proof.Machine.execUncorrectableErrorOutsideGang origin detail s

end Sys2Proof.Machine
end

