-- ==== Sys2Proof/Machine/Fetch.lean ====
section
/-! DEFINITION. Fetching a packet through the packet cache (03 R68, R70; 06 R179; 12 R286). -/

namespace Sys2Proof.Machine

/-- Where packet n of the code that runs lies: from the node's code base, or from the tenant's handler in handler mode. -/
def packetVa (s : State) (n : Word) : Nat :=
  (if s.g.handler.isSome then (s.tenant s.g.tenant).handler else s.g.codeBase).toNat + 12 * n.toNat

/-- The whole fabric line that a translated address lies in, sector by sector through the die cache. -/
def readSectors (e : TlbEntry) (a : Nat) : Nat → State → Done
  | 0, s => .ok [] s
  | k + 1, s => (readAt s.agent .die e a 32 s).next fun b s => (readSectors e (a + 32) k s).next fun r s => .ok (b ++ r) s

/-- n bytes of one line through the packet cache: what it holds, or the line brought in. -/
def fetchLine (va n : Nat) (s : State) : Done :=
  match translate true false va s with
  | (s1, .bad w) => .bad w s1
  | (s1, .wait) => .wait s1
  | (s1, .ok fpa e) =>
    match lookup (s1.core s1.g.coreIx).packets (lineOf fpa) with
    | some d => .ok (slice d (fpa % 128) n) s1
    | none =>
      (readSectors e (lineOf fpa * 128) 4 s1).next fun d s =>
        .ok (slice d (fpa % 128) n) (s.setCore s.g.coreIx fun k => { k with packets := upsert k.packets (lineOf fpa) d })

/-- The three words that twelve bytes hold. -/
def packetWords (b : List Byte) : List Word := (List.range 3).map fun k => BitVec.ofNat 32 (ofBytes (slice b (4 * k) 4))

inductive Fetched where
  | words (ws : List Word) (s : State)
  | bad (w : Why) (s : State)
  | wait (s : State)

/-- The packet's bytes, in the one or two lines they lie in; a packet fetched already keeps its words. -/
def fetchPacket (n : Word) (s : State) : Fetched :=
  let va := packetVa s n
  let m := min 12 (128 - va % 128)
  let fetch := (fetchLine va m s).next fun a s =>
    if m = 12 then .ok a s else (fetchLine (va + m) (12 - m) s).next fun b s => .ok (a ++ b) s
  match (s.g.fetched.filter fun f => f.1 = n).map Prod.snd, fetch with
  | some ws, _ => .words ws s
  | none, .ok b s1 => .words (packetWords b) (s1.setG fun g => { g with fetched := some (n, packetWords b) })
  | none, .bad w s1 => .bad w s1
  | none, .wait s1 => .wait s1

/-- The issue trap of a fetch that fails: kind 3, at slot 0 of the packet (03 R70; 06 R177). -/
def fetchFault (w : Why) (p : Pc) (s : State) : State :=
  let f := faultRec w (if w.group = 10 then 0 else 3) false 0 0 0
  takeTrap w.group w.code f.det 0 0 ⟨p.packet, 0⟩ s

end Sys2Proof.Machine
end

