-- ==== Sys2Proof/Machine/Group.lean ====
section
/-! DEFINITION. A chain group: the tests over its words, its lookahead windows, its run (03 R73-R83; 06 R171-R173, R187). -/

namespace Sys2Proof.Machine

/-! ## The words of a group -/

/-- A maximal run of chained words (03 R77). -/
def chained : List Word → List Word
  | [] => []
  | w :: r => if chainBit w.toNat then w :: chained r else [w]

/-- A move into a read-only special register (06 R183): the code is 0x0E, and its registers count for the codes below it (03 R75). -/
def readOnlyShape (w : Nat) : Shape :=
  { major := 0x1E, bad := some 0x0E, sp := [fld w 4 12]
    sr := if fld w 16 4 = 1 then [fld w 20 5] else []
    srcD := if fld w 16 4 = 1 then [] else [fld w 20 5] }

/-- A word's shape; one that decodes to nothing has its code of R75. -/
noncomputable def shapeOf (w : Word) : Shape :=
  match decodeNat w.toNat with
  | .ok i => wordShapeOf i
  | .error .readOnly => readOnlyShape w.toNat
  | .error r => { major := fld w.toNat 25 6, bad := some r.code }

/-- A word of major 0x20, op 3 (03 R74). -/
def isFifo (w : Word) : Bool := fld w.toNat 25 6 = 0x20 && fld w.toNat 4 3 = 3

/-- A word in its group: its bits, its shape, its slot. -/
structure Slotted where
  word : Word
  sh : Shape
  slot : Nat
  deriving DecidableEq, Repr

noncomputable def groupAt (ws : List Word) (slot : Nat) : List Slotted :=
  (chained (ws.drop slot)).zipIdx.map fun x => ⟨x.1, shapeOf x.1, slot + x.2⟩

/-! ## The issue traps of a group (03 R75, R79-R83; 06 R182; 17 R380) -/

def meets (a b : List RegName) : Bool := a.any fun x => b.contains x

/-- A word reads or writes one of some registers. -/
def touches (s : State) (sh : Shape) (l : List RegName) : Bool := meets (sh.reads (sh.blk s) ++ sh.writes (sh.blk s)) l

/-- The word at place j of the group stands inside a window whose registers it names (03 R81): one open already, or one that an earlier
word of the group opens. -/
def inWindow (s : State) (G : List Slotted) (j : Nat) (x : Slotted) : Bool :=
  (s.g.wins.any fun w => j < w.left && touches s x.sh w.regs) ||
    (G.take j).zipIdx.any fun y => j - y.2 ≤ y.1.sh.la && touches s x.sh (y.1.sh.writes (y.1.sh.blk s))

/-- The code of group 5 that the word at place j raises in its group. -/
def slotCode (s : State) (G : List Slotted) (j : Nat) (x : Slotted) : Option Nat :=
  let before := G.take j
  match illegalCode s x.sh (isFifo x.word) with
  | some 0x0F => some 0x0F
  | c => lowest [c, codeIf (x.slot = 2 && chainBit x.word.toNat) 0x08,
      codeIf (before.any fun y => pipeOf y.sh.major = pipeOf x.sh.major) 0x09,
      codeIf (before.any fun y => meets (y.sh.writes (y.sh.blk s)) (x.sh.writes (x.sh.blk s))) 0x0A,
      codeIf (pipeOf x.sh.major = .B && j + 1 < G.length) 0x0B,
      codeIf (inWindow s G j x) 0x0C]

/-- 0x0F where a word raises it, else the lowest code any word raises (03 R79). -/
def foremost (l : List (Option Nat)) : Option Nat := if l.contains (some 0x0F) then some 0x0F else lowest l

/-- The first word that answers, with its answer. -/
def firstWord {α : Type} (f : Slotted → Option α) (G : List Slotted) : Option (Slotted × α) := G.findSome? fun x => (f x).map fun a => (x, a)

/-- A word's place as a program counter. -/
def Slotted.at_ (x : Slotted) (p : Word) : Pc := ⟨p, BitVec.ofNat 2 x.slot⟩

/-- The slot of a sequencer word that is not bound (17 R380). -/
def slotUnbound (s : State) (x : Slotted) : Bool := 0x38 ≤ x.sh.major && (bindingOf s (fld x.word.toNat 0 4)).isNone

/-- The issue trap of a group: group, code, detail. Of two words in conflict over a pipe or a register the detail names the later, and of
several words that each raise the code the first in slot order; R79 does not say which: DESIGN CHOICE (log entry 103). -/
def groupTrap (s : State) (packet : Word) (G : List Slotted) : Option (Nat × Nat × BitVec 96) :=
  let codes := G.zipIdx.map fun x => slotCode s G x.2 x.1
  let det (x : Slotted) : BitVec 96 := wordDetail x.word.toNat (x.at_ packet)
  match foremost codes with
  | some c => some (5, c, ((G.zip codes).find? fun x => x.2 = some c).elim 0 fun x => det x.1)
  | none =>
    match firstWord (fun x => privilegeCode s x.sh) G with
    | some (x, c) => some (6, c, det x)
    | none =>
      match firstWord (fun x => codeIf (1 < G.length && 0x38 ≤ x.sh.major) 2) G with
      | some (x, c) => some (14, c, det x)
      | none =>
        match firstWord (fun x => codeIf (slotUnbound s x) 1) G with
        | some (x, c) => some (14, c, det x)
        | none => (firstWord (fun x => convTrap s x.sh) G).map fun x => (2, 6, x.2)

/-! ## Windows and join points (03 R80-R82; 06 R173) -/

/-- A window's entry that is free has written its results. -/
def tidyWindows (s : State) : State :=
  s.setG fun g => g.setWins (g.wins.map fun w => { w with entry := w.entry.filter fun e => (g.entry e).state != .free })

def joinEntry (g : Gang) (e : Nat) : Gang :=
  if (g.entry e).state = .free then g else g.setEntry e { g.entry e with join := true }

/-- Majors before which every access with parked lanes reaches its join point (06 R173, case 2). -/
def joinsAll (m : Nat) : Bool := (0x1A ≤ m && m ≤ 0x1D) || m = 0x1F || (0x20 ≤ m && m ≤ 0x33) || (0x38 ≤ m && m ≤ 0x3B)

/-- A window ends: its word's access has reached its join point, and the phase of its arrival is waited for (03 R82). -/
def joinWindow (g : Gang) (w : Window) : Gang :=
  let g1 := w.entry.elim g (joinEntry g)
  w.arrival.elim g1 fun id => { g1 with arriving := mapIf (fun x => x.id = id) (fun x => { x with joined := true }) g1.arriving }

/-- The join points that a group of n words reaches. -/
def reachJoins (n : Nat) (G : List Slotted) (s : State) : State :=
  s.setG fun g =>
    let g1 := (g.wins.filter fun w => w.left < n).foldl joinWindow g
    if G.any fun x => joinsAll x.sh.major then (List.range 4).foldl joinEntry g1 else g1

/-- A word that issued stands behind one more word of each window opened before it; the windows it ended keep no word. A word past the window
of an earlier word of its own group issues with the group (03 R77), and the wait of R82 stands in front of the next group: DESIGN CHOICE (log
entry 102). -/
def tickWindows (old new : State) : State :=
  if old.g.handler.isSome != new.g.handler.isSome then new
  else
    let before := old.g.wins
    let after := new.g.wins
    let kept := (before.zip after).filterMap fun x => if x.1.left = 0 then none else some { x.2 with left := x.2.left - 1 }
    let past := before.filter fun w => w.left = 0
    new.setG fun g => past.foldl joinWindow (g.setWins (kept ++ after.drop before.length))

/-! ## The run of a group (03 R77, R78) -/

/-- A word alone. -/
noncomputable def runWord (x : Slotted) (s : State) : Out :=
  match decodeNat x.word.toNat with
  | .ok i => exec i (s.setG fun g => { g with slot := BitVec.ofNat 2 x.slot })
  | .error _ => .next s

/-- The word has trapped, or stays to issue again. -/
def held (uid : Nat) (s : State) : Bool := s.g.uid = uid && s.g.src.isNone

/-- `tret`, `tdone`, `exit`: words that end the gang's stay in its mode or on its core. -/
def isEnder (x : Slotted) : Bool := x.sh.major = 0x1F && (fld x.word.toNat 12 3 = 0 || fld x.word.toNat 12 3 = 3 || fld x.word.toNat 12 3 = 4)

/-- The words of a group in the order in which they have their effects: slot order, a word that ends the gang's stay behind the others, for all
of them issue in its mode (03 R77, R78). -/
def issueOrder (G : List Slotted) : List Slotted := G.filter (!isEnder ·) ++ G.filter isEnder

/-- The words in order; the first that traps or stays ends the run and is named. -/
noncomputable def issueWords (uid : Nat) : List Slotted → State → Out × Option Slotted
  | [], s => (.next s, none)
  | x :: r, s =>
    match runWord x s with
    | .next t =>
      if held uid t then (.next t, some x)
      else if t.g.uid = uid ∧ t.g.status = .resident then issueWords uid r (tickWindows s t)
      else (.next t, none)
    | o => (o, none)

/-- What the end of a group leaves: the single step asked for is due, a packet left behind is fetched again. -/
def endGroup (x : Slotted) (p : Pc) (s0 s : State) : State :=
  if s.g.uid != s0.g.uid then s
  else
    s.setG fun g =>
      let g1 := { g with
        src := none, alone := g.alone.filter fun a => a != (s0.g.handler.isSome, p), fetched := if g.pc.slot = 0 then none else g.fetched }
      if s0.g.handler.isSome then g1
      else { g1 with
        parkedWait := none
        stepReq := false
        stepDue := if s0.g.stepReq then some (wordDetail x.word.toNat p) else g1.stepDue }

/-- A word that ends the gang's stay and waits for the words chained to it stands alone: they have issued. DESIGN CHOICE (log entry 110). -/
def standAlone (y : Slotted) (p : Word) (s : State) : State :=
  s.setG fun g => { g with pc := y.at_ p, src := none, alone := (g.handler.isSome, y.at_ p) :: g.alone }

/-- A group issues. A word that traps or stays leaves the group without effect but for what it does itself; one that ends the gang's stay and
waits for the others alone leaves them their effects. -/
noncomputable def runGroup (x : Slotted) (r : List Slotted) (s : State) : Out :=
  let p := s.g.cur
  let s1 := s.setG fun g => { g with pc := p.advance (r.length + 1), src := some g.r, srcLog := g.olog }
  match issueWords s.g.uid (issueOrder (x :: r)) s1 with
  | (.next t, none) => .next (endGroup x p s t)
  | (o, none) => o
  | (.next t, some y) =>
    if r.isEmpty then .next t
    else
      match runWord y s1 with
      | .next u => .next (if held s.g.uid u then u else if isEnder y then standAlone y p.packet t else stall s1)
      | o => o
  | (o, some _) => o

end Sys2Proof.Machine
end

