-- ==== Sys2Proof/Machine/Turns.lean ====
section
/-! DEFINITION. One turn: of a gang, of an event, of the clock; and which turn comes next (01 R9, R14; 03 R70; 05 R130; 06 R171, R181). The
order of turns is the MODEL's own (log entry 4). -/

namespace Sys2Proof.Machine

/-! ## The turn of a gang -/

/-- The gang gets the turn: its word starts at its program counter; a word that was blocked issues again; a cycle passes. -/
def beginTurn (uid : Nat) (inFlight : Bool) (s : State) : State :=
  let s1 := s.focus uid
  tidyWindows ({ s1 with inFlight := inFlight, clk := s1.clk + 1 }.setG fun g =>
    { g with cur := g.pc, src := none, wait := if g.wait = Wait.blocked then Wait.none else g.wait })

/-- A wait that traps from outside do not cut short: it is over already. -/
def Gang.woken (g : Gang) : Bool :=
  match g.wait with
  | .woken _ => true
  | _ => false

/-- The traps due in front of a group, in the order of R181; `trap` is the group's own. -/
def dueTrap (trap : Option State) (s : State) : Option State :=
  if s.g.woken then none else (firstDue s).or (trap.or (lastDue s))

/-- The `brk` of a group, an issue trap behind those of R75 and R182: the group has no effect, and the resume point is the group behind it (06 R171). -/
def breakTrap (G : List Slotted) (s : State) : Option State :=
  (G.find? fun x => x.sh.major = 0x1F && fld x.word.toNat 12 3 = 1).map fun x =>
    takeTrap 18 1 (breakDetail x.word.toNat s.g.cur.packet.toNat x.slot (fld x.word.toNat 0 12)) 0 0 (s.g.cur.advance G.length) s

/-- The issue trap of a group. -/
def issueTrapOf (G : List Slotted) (s : State) : Option State :=
  ((groupTrap s s.g.cur.packet G).map fun t => takeTrap t.1 t.2.1 t.2.2 0 0 s.g.cur s).or (breakTrap G s)

/-- An access in flight has reached its join point, and has results to come (03 R82) or a lane parked already (06 R173); or an arrival's phase is
to come. -/
def mustWait (g : Gang) : Bool :=
  (g.log.toList.any fun x => x.state = .inFlight && x.join && (x.holds || !x.parked.isEmpty)) || g.arriving.any PendingArrival.joined

/-- A group that every earlier access with a parked lane joins at waits for the lanes of those in flight (06 R173, case 2); an acquire load not for
those of a release store (12 R270). -/
def joinWaits (G : List Slotted) (g : Gang) : Bool :=
  let joins := (G.map fun x => x.sh.major).filter joinsAll
  !joins.isEmpty && g.log.toList.any fun x => x.open_ && !(joins.all (· = 0x28) && x.flies fun k => k == .relStore)

/-- A group with its words fetched. -/
noncomputable def groupTurn (G : List Slotted) (s : State) : Out :=
  match G with
  | [] => .next s
  | x :: r =>
    let s1 := reachJoins G.length G s
    match dueTrap (issueTrapOf G s1) s1 with
    | some t => .next t
    | none => if mustWait s1.g || joinWaits G s1.g then .next (stall s1) else runGroup x r s1

/-- A packet whose fetch fails. -/
def fetchTrap (w : Why) (s : State) : State :=
  let s1 := reachJoins 1 [] s
  if s1.g.woken then fetchFault w s1.g.cur s1
  else ((firstDue s1).or (some (fetchFault w s1.g.cur s1))).getD s1

/-- The next group of the gang: fetch, traps, issue. A word whose chained words have issued stands alone. -/
noncomputable def issueTurn (s : State) : Out :=
  match fetchPacket s.g.cur.packet s with
  | .words ws t =>
    let G := groupAt ws t.g.cur.slot.toNat
    groupTurn (if t.g.alone.contains (t.g.handler.isSome, t.g.cur) then G.take 1 else G) t
  | .bad w t => .next (fetchTrap w t)
  | .wait t => .next (stall t)

/-- A gang that waits takes only traps from outside. -/
def waitTurn (s : State) : State := ((firstDue s).or (lastDue s)).getD s

/-- A `sleep` that a trap ends (05 R168). -/
def sleepTurn (s : State) : State :=
  if ((firstDue s).or (lastDue s)).isSome then s.setG fun g => { g with wait := .woken 0 } else s

/-- A word that was blocked blocks again (05 R130). -/
noncomputable def blocksAgain (s : State) (g : Gang) : Bool :=
  match issueTurn (beginTurn g.uid false s) with
  | .next t => t.g.uid = g.uid && t.g.wait = .blocked
  | _ => false

/-- A gang is ready: resident, in no wait that holds it, no result or lane missing in front of its next group (01 R14, 05 R130). -/
noncomputable def State.isReady (s : State) (g : Gang) : Bool :=
  g.status = .resident && !mustWait g && match g.wait with
    | .none => true
    | .blocked => !blocksAgain s g
    | .woken _ => true
    | .mwait _ _ => monitorHit s g
    | _ => false

/-- The issue picker of a core serves its ready gangs in round-robin order (01 R14): a ready gang's turn goes to the one behind the gang
served last. The turn of a gang that is not ready is its own: only a trap can come of it. -/
noncomputable def State.serve (uid : Nat) (s : State) : Nat × State :=
  match s.gang? uid with
  | none => (uid, s)
  | some g =>
    if s.isReady g then
      let c := g.coreIx
      let ready := sortedNats ((s.allGangs.filter fun h => h.coreIx = c && s.isReady h).map Gang.uid)
      let u := (ready.find? fun k => (s.core c).picker < k).getD (ready.headD uid)
      (u, s.setCore c fun K => { K with picker := u })
    else (uid, s)

/-- The turn of a resident gang; that of any other passes. -/
noncomputable def servedTurn (uid : Nat) (inFlight : Bool) (s : State) : Out :=
  match s.gang? uid with
  | none => .next s
  | some g =>
    if g.status != .resident then .next s
    else
      let t := beginTurn uid inFlight s
      match t.g.wait with
      | .none => issueTurn t
      | .blocked => issueTurn t
      | .woken _ => issueTurn t
      | .mwait _ _ => if monitorHit t t.g then issueTurn t else .next (waitTurn t)
      | .sleep _ => .next (sleepTurn t)
      | .barWait _ _ => .next (waitTurn t)
      | .release => .next (waitTurn t)

/-- A turn for a gang, as its core's issue picker gives it. -/
noncomputable def gangTurn (uid : Nat) (inFlight : Bool) (s : State) : Out := servedTurn (s.serve uid).1 inFlight (s.serve uid).2

/-- Any turn. An event row is a step of its own; a word is none. -/
noncomputable def doTurn (t : Turn) (s : State) : Out :=
  match t with
  | .gang uid f => gangTurn uid f s
  | .event i => if i.isWord then .next s else exec i s
  | .cycles n => .next { s with clk := s.clk + n }
  | .dropL1 c line => .next (dropL1 c (fun k => k / 4 = line) s)

/-! ## Which turn comes next where the agenda is empty -/

/-- What a gang may do, its waits and its accesses in flight. -/
def gangTurns (s : State) (g : Gang) : List Turn :=
  if g.status != .resident then []
  else
    .gang g.uid false ::
      (match g.wait with
        | .mwait _ _ => [Turn.event (Instr.mwaitTimeout g.uid)]
        | .sleep _ => [Turn.event (Instr.sleepEnd g.uid)]
        | _ => []) ++
      (if (s.tenant g.tenant).runLimit = 0 then [] else [Turn.event (Instr.watchdog g.uid)]) ++
      ((List.range 4).filter fun e => (g.entry e).state = .inFlight).map fun e => Turn.event (Instr.accessComplete g.uid e)

/-- What the engines of a core may do. -/
def coreTurns (x : Nat × Core) : List Turn :=
  let (c, K) := x
  (K.cmds.flatMap fun k => [Turn.event (Instr.sectorLanded c k.id), Turn.event (Instr.copyCommandComplete c k.id), Turn.event (Instr.copyFaultReport c k.id)]) ++
    (if K.tasks.isEmpty then [] else [Turn.event (Instr.taskStart c)]) ++
    (K.tasks.flatMap fun t => [Turn.event (Instr.kgroupCompute c t.id), Turn.event (Instr.taskComplete c t.id), Turn.event (Instr.peerAcknowledge c t.id),
      Turn.event (Instr.matrixFaultReport c t.id)]) ++
    K.wc.map fun e => Turn.event (Instr.wcAgeDrain c e.line)

/-- What the homes and dies may do. -/
def homeTurns (s : State) : List Turn :=
  (s.records.map fun r => Turn.event (Instr.recordApply r.id)) ++ (s.copies.map fun c => Turn.event (Instr.forwardedCopyApply c.id)) ++
    (s.fills.map fun f => Turn.event (Instr.fillArrival f.id)) ++ (s.writeBacks.map fun w => Turn.event (Instr.writeBackApply w.id)) ++
    (s.releases.map fun r => Turn.event (Instr.releaseComplete r.id)) ++
    (s.allGangs.flatMap fun g => g.arriving.map fun x => Turn.event (Instr.releaseComplete x.id)) ++ (s.locks.map fun l => Turn.event (Instr.lockGrant l.line)) ++
    ((List.range 8).flatMap fun d =>
      if (s.die d).eclipse.next ≤ s.clk then [Turn.event (Instr.eclipseWindowStart d)] else [])

/-- What the fabric may do. -/
def fabricTurns (s : State) : List Turn :=
  (s.packets.flatMap fun p => if p.lost then [Turn.event (Instr.retransmit p.id)]
    else [Turn.event (Instr.writePacketApply p.id), Turn.event (Instr.acknowledgeReceive p.id), Turn.event (Instr.remoteFaultReport p.id 0)]) ++
    (s.contribs.map fun c => Turn.event (Instr.reductionContribution c.id)) ++ (s.deliveries.map fun d => Turn.event (Instr.multicastDelivery d.id)) ++
    (s.residues.map fun r => Turn.event (Instr.residueSend r.sw r.port r.entry)) ++ (s.arrivals.map fun a => Turn.event (Instr.arrivalApply a.id)) ++
    (s.requests.filter fun q => q.reply.isNone).map fun q => Turn.event (Instr.remoteLoadOrAtomicServe q.id)

/-- The reset that has been asked for. -/
def resetTurns (s : State) : List Turn :=
  match s.host.resetAsked with
  | 0 => []
  | 1 => [Turn.event Instr.warmReset]
  | 2 => [Turn.event Instr.coldReset]
  | 3 => [Turn.event Instr.warmReset]
  | 4 => [Turn.event Instr.coldReset]
  | _ => [Turn.event Instr.powerOnReset]

/-- What the dispatch engine and the hub may do. -/
def hubTurns (s : State) : List Turn :=
  (if (List.range 64).any fun t => (List.range 16).any fun q => entryWaits (BitVec.ofNat 6 t) q s then [Turn.event (Instr.nodeAdmit 0)] else []) ++
    (s.admissions.map fun a => Turn.event (Instr.nodeAdmit a.id)) ++ (s.predSignals.map fun p => Turn.event (Instr.predecessorSignal p.id)) ++
    (s.nodes.flatMap fun n => [Turn.event (Instr.ensemblePlace n.id.toNat []), Turn.event (Instr.nodeComplete n.id.toNat)]) ++
    (s.ensembles.flatMap fun e => match e.state with
      | .evicted => [Turn.event (Instr.ensembleRestore e.uid [])]
      | .evicting => [Turn.event (Instr.saveLimitPassed e.uid)]
      | _ => []) ++
    (((List.range 64).filter fun t => (s.tenant (BitVec.ofNat 6 t)).resetting).map fun t => Turn.event (Instr.tenantReset t)) ++ resetTurns s

/-- The turns that may come next; the passing of a cycle always may. -/
def turnsOf (s : State) : List Turn :=
  .cycles 1 :: (s.allGangs.flatMap fun g => gangTurns s g) ++ s.cores.flatMap coreTurns ++ homeTurns s ++ fabricTurns s ++ hubTurns s

/-- The turn that comes next, and the state with it taken: the head of the agenda, else the turns in rotation. -/
def nextTurn (s : State) : Turn × State :=
  match s.agenda with
  | t :: r => (t, { s with agenda := r })
  | [] => ((turnsOf s).getD (s.tick % (turnsOf s).length) (.cycles 1), { s with tick := s.tick + 1 })

end Sys2Proof.Machine
end

