-- ==== Sys2Proof/Machine/Loader.lean ====
section
/-! DEFINITION. A word placed where the next step fetches: what the admission of a node, the placement of an ensemble and a load of its code
would have brought about (log entry 5). No rule of the manual loads a word this way. -/

namespace Sys2Proof.Machine

/-- The code base of the placed node, an address of HBM mapped as itself. -/
def loadBase : Nat := 0x10000

def fieldMajor (w : Nat) : Nat := fld w 25 6

/-- The core kind that has the engine of a word (03 R74). -/
def loadCore (w : Nat) : Nat := if fieldMajor w = 0x22 || fieldMajor w = 0x23 then 30 else 0

/-- A role that may issue it (01 R12). -/
def loadRole (w : Nat) : Role := if 0x24 ≤ fieldMajor w && fieldMajor w ≤ 0x27 then .matrix else .general

/-- A mode that may run it (06 R184): handler mode for `tret`, `tlane` and `tdone`. -/
def loadHandler (w : Nat) : Option (BitVec 13) :=
  if fieldMajor w = 0x1F && (fld w 12 3 = 0 || fld w 12 3 = 2 || fld w 12 3 = 3) then some (causeOf 16 1) else none

/-- One crew of one gang, of tenant 0. -/
def loadDesc : Descriptor :=
  ⟨BitVec.ofNat 64 loadBase, 0, 0, 0, false, false, 0, 0, 128, 1, 1, 0, 1, 1, 1, 0, [1], [], [], [], false⟩

def loadNode (s : State) : Node :=
  ⟨s.nextNode, 0, loadDesc, .running, 0, [], none, false, s.nextId, 1, none, [], [], false, false, false, none, none⟩

def loadCrew (s : State) (core : Nat) : Crew :=
  { uid := s.nextId + 1, node := s.nextNode, tenant := 0, ensemble := s.nextId + 2, number := 0, core := core, far := false, offset := 0
    size := 16384, spad := 0, tiles := [], slots := 0, bindings := [], laps := [], pend := [], gangs := 1, retired := 0, saved := 0
    returned := 0, saveArea := none }

def loadEnsemble (s : State) (core : Nat) : Ensemble :=
  ⟨s.nextId + 2, s.nextNode, 0, [s.nextId + 1], core / 40, false, .resident, false, s.nextId, 0, none⟩

def loadGang (s : State) (w : Nat) : Gang :=
  { newGang (loadNode s) (loadCrew s (loadCore w)) 0 s.nextId 0 (0, loadRole w) s.clk with handler := loadHandler w }

/-- The page of the code, mapped as itself. -/
def loadPage_ (s : State) : TlbEntry := ⟨0, loadBase, 4096, s.fpa loadBase, true, true, true, true, false, true, 0, false, false⟩

/-- The four bytes of a word, lowest first; `nop` twice behind it. -/
def loadBytes (w : Nat) : List Byte := toBytes 4 w ++ toBytes 4 0x02000000 ++ toBytes 4 0x02000000

/-- The gang that runs the word has the next turn. -/
def placeWord (w : Nat) (s : State) : State :=
  let core := loadCore w
  let s1 := (recallSectors (4 * lineOf (s.fpa loadBase)) 4 true s).setCore core fun K => { freshMatrix (s.nextId + 1) K with packets := [], picker := s.nextId - 1 }
  let s2 := s1.setDie 0 fun D => D.dropLine (lineOf (s.fpa loadBase))
  { (s2.setTenant 0 fun T => { T with valid := true, priv := true, handler := BitVec.ofNat 64 loadBase }) with
    g := loadGang s w
    gangs := s.allGangs
    crews := s.crews ++ [loadCrew s core]
    ensembles := s.ensembles ++ [loadEnsemble s core]
    nodes := s.nodes ++ [loadNode s]
    mem := s2.mem.write (s.fpa loadBase) (loadBytes w)
    tlb := loadPage_ s :: s2.tlb
    nextNode := s.nextNode + 1
    nextId := s.nextId + 3
    agenda := [.gang s.nextId false] }

end Sys2Proof.Machine
end

