-- ==== Sys2Proof/Machine/Step.lean ====
section
/-! DEFINITION. The step: the turn that comes next. -/

namespace Sys2Proof.Machine

/-- One step. Without power nothing moves but what the agenda brings from outside (19 R426) and a reset asked for at the side-band port (19
R422). -/
noncomputable def step (s : State) : Host.Outcome State Fault Refusal :=
  if !s.unit.railOn && s.agenda.isEmpty then (if s.host.resetAsked = 0 then .fault .noPower else doTurn ((resetTurns s).headD (.cycles 1)) s)
  else doTurn (nextTurn s).1 (nextTurn s).2

/-- The state with the word w placed where the next step fetches (log entry 5). Every word of the SZ-9 has 32 bits. -/
def State.withFetchWord (s : State) (nbits w : Nat) : State := placeWord (w % 2 ^ min nbits 32) s

end Sys2Proof.Machine
end

