-- ==== Sys2Proof/Safety.lean ====
section
/-! DEFINITION. The terms that statements use: the runs of the machine, the form memory keeps, when a word may issue, and what a
word of each operand form leaves (03, 04, 05). -/

namespace Sys2Proof.Machine

/-! ## Runs -/

/-- One step leads from s to t. -/
def Steps (s t : State) : Prop := step s = .next t

/-- States that runs from s reach. -/
inductive Reaches (s : State) : State → Prop where
  | refl : Reaches s s
  | step (t u : State) : Reaches s t → Steps t u → Reaches s u

/-- Memory and scratchpads in their canonical form. -/
def State.memOk (s : State) : Prop := s.mem.wf = true ∧ s.spad.wf = true

/-! ## Words -/

/-- A word may issue: its engine is present (03 R74), its fields are legal (03 R75), its vector registers exist (04 R95, R105), its gang's
role or handler mode has it (01 R12), its mode and privilege are right (06 R182, R184; 12 R290), its conversion names a
format (04 R126). -/
def MayIssue (i : Instr) (s : State) : Bool :=
  !engineAbsent (wordShapeOf i).major (isFifoWord i) s.g.coreIx && (wordShapeOf i).bad.isNone && !rangeBad s (wordShapeOf i) &&
    (s.g.handler.isSome || roleAllows s.g.role (wordShapeOf i).major) && (privilegeCode s (wordShapeOf i)).isNone &&
    (convTrap s (wordShapeOf i)).isNone

/-- The instruction answers a next state with a property. -/
def Answers (i : Instr) (s : State) (P : State → Prop) : Prop := ∃ t, exec i s = .next t ∧ P t

/-- Nothing but the registers of the gang whose turn it is differs: memory, scratchpads, caches, the program counter, every other gang
and every unit are as before. -/
def OnlyRegs (s t : State) : Prop := t = { s with g := { s.g with r := t.g.r } }

/-- One scalar register written, and flags raised; `s0` stays zero (03 R76; 04 R100). Every other register is as before. -/
def SetsScalar (s t : State) (d : Nat) (x : Dword) (f : Flags) : Prop :=
  OnlyRegs s t ∧ t.g.r = { s.g.r with s := t.g.r.s, xstat := s.g.r.xstat ||| f } ∧
    (∀ k, k ≠ d → t.g.r.sreg k = s.g.r.sreg k) ∧ t.g.r.sreg 0 = 0 ∧ (d ≠ 0 → t.g.r.sreg d = x)

/-- One predicate register written; `p0` stays all ones (04 R94). Every other register is as before. -/
def SetsPred (s t : State) (d : Nat) (x : Word) : Prop :=
  OnlyRegs s t ∧ t.g.r = { s.g.r with p := t.g.r.p } ∧
    (∀ k, k ≠ d → t.g.r.preg k = s.g.r.preg k) ∧ t.g.r.preg 0 = 0xFFFFFFFF ∧ (d ≠ 0 → t.g.r.preg d = x)

/-- The stochastic source of a lane after n steps (02 R45). -/
def rndAfter (x : Half) : Nat → Half
  | 0 => x
  | n + 1 => srndFix (srndStep (rndAfter x n))

/-- What element j of a block word, at register offset k, computes in a lane (04 R105). -/
def blockValue (rs : Bool) (op : LaneOp) (d a b : Nat) (B : Block) (s : State) (j k : Nat) (L : Fin 32) : Word × Flags :=
  op s.src L (s.src.vreg (if B.af then a else a + k))[L] (s.src.vreg (if B.bf then b else b + k))[L] (s.src.vreg (d + k))[L]
    (if rs then rndAfter s.src.srnd[L] (j + 1) else s.g.r.srnd[L])

/-- A block word over its block (04 R98-R100, R105; 02 R45): in the active lanes a register takes the value of the last element that
names it; the flags of every element and active lane are raised; the source, as the group found it, steps once an element in the active
lanes, where the word rounds with it. Every other lane, register and unit is as before. -/
def SetsBlock (rs : Bool) (op : LaneOp) (d a b : Nat) (B : Block) (s t : State) : Prop :=
  OnlyRegs s t ∧ t.g.r = { s.g.r with v := t.g.r.v, srnd := t.g.r.srnd, xstat := t.g.r.xstat } ∧
    (∀ n L, (t.g.r.vreg n)[L] =
      match B.offsets.zipIdx.reverse.find? fun x => d + x.1 = n with
      | some (k, j) => if lane s.src.emask L then (blockValue rs op d a b B s j k L).1 else (s.g.r.vreg n)[L]
      | none => (s.g.r.vreg n)[L]) ∧
    (∀ f, t.g.r.xstat.getLsbD f = true ↔ s.g.r.xstat.getLsbD f = true ∨
      ∃ x ∈ B.offsets.zipIdx, ∃ L, lane s.src.emask L = true ∧ (blockValue rs op d a b B s x.2 x.1 L).2.getLsbD f = true) ∧
    ∀ L, t.g.r.srnd[L] = if rs && lane s.src.emask L then rndAfter s.src.srnd[L] B.offsets.length else s.g.r.srnd[L]

/-- The block a word runs over. -/
def blockFor (i : Instr) (s : State) : Block := (wordShapeOf i).blk s

/-- The word completes over every block as R105 says, with `op` in each lane. -/
def BlockWord (i : Instr) (rs : Bool) (d a b : Nat) (op : LaneOp) (s : State) : Prop :=
  MayIssue i s = true → Answers i s fun t => SetsBlock rs op d a b (blockFor i s) s t

/-- A word behind which a lookahead window opens (03 R80, R81). -/
def Opens (i : Instr) (s : State) : State := openWindow (wordShapeOf i) none s

/-- The active lanes of one vector register written, flags raised, a window opened (04 R99, R100; 03 R80). -/
def SetsLanes (i : Instr) (s t : State) (d : Nat) (x : Fin 32 → Word × Flags) : Prop :=
  ∃ u, t = Opens i u ∧ OnlyRegs s u ∧ u.g.r = { s.g.r with v := u.g.r.v, xstat := u.g.r.xstat } ∧
    (∀ n L, (u.g.r.vreg n)[L] = if n = d ∧ lane s.src.emask L = true then (x L).1 else (s.g.r.vreg n)[L]) ∧
    ∀ f, u.g.r.xstat.getLsbD f = true ↔ s.g.r.xstat.getLsbD f = true ∨
      ∃ L, lane s.src.emask L = true ∧ (x L).2.getLsbD f = true

/-- The active lanes' bits of one predicate written (04 R99); `p0` stays all ones. -/
def SetsPredLanes (s t : State) (d : Nat) (x : Fin 32 → Bool) : Prop :=
  OnlyRegs s t ∧ t.g.r = { s.g.r with p := t.g.r.p } ∧ (∀ k, k ≠ d → t.g.r.preg k = s.g.r.preg k) ∧ t.g.r.preg 0 = 0xFFFFFFFF ∧
    ∀ L : Fin 32, d ≠ 0 → (t.g.r.preg d).getLsbD L = if lane s.src.emask L then x L else (s.g.r.preg d).getLsbD L

/-! ## The operand forms, as statements use them -/

/-- A word that may issue writes one scalar register, and raises nothing. -/
def ScalarWord (i : Instr) (s : State) (d : Nat) (x : Dword) : Prop := MayIssue i s = true → Answers i s fun t => SetsScalar s t d x 0

/-- A word that may issue writes one scalar register, and raises flags. -/
def ScalarFlag (i : Instr) (s : State) (d : Nat) (x : Dword) (f : Flags) : Prop := MayIssue i s = true → Answers i s fun t => SetsScalar s t d x f

/-- A word that may issue writes one predicate register whole. -/
def PredWord (i : Instr) (s : State) (d : Nat) (x : Word) : Prop := MayIssue i s = true → Answers i s fun t => SetsPred s t d x

/-- A word that may issue writes the active lanes of one vector register. -/
def LaneResult (i : Instr) (s : State) (d : Nat) (x : Fin 32 → Word × Flags) : Prop := MayIssue i s = true → Answers i s fun t => SetsLanes i s t d x

/-- A word that may issue writes the active lanes' bits of one predicate. -/
def LanePred (i : Instr) (s : State) (d : Nat) (x : Fin 32 → Bool) : Prop := MayIssue i s = true → Answers i s fun t => SetsPredLanes s t d x

/-! ## Rounding (02 R44, R427) -/

/-- The magnitude codes of G: every number is one, but for the absent subnormals (02 R38, R44); beyond the largest finite value the codes go
on upward. -/
def Fmt.member (F : Fmt) (c : Nat) : Prop := F.E = 0 ∨ F.absent = false ∨ c = 0 ∨ 2 ^ F.M ≤ c

/-- An exponent below those of all members and below e: magnitudes compare as whole numbers of that unit. -/
def Fmt.grid (F : Fmt) (e : Int) : Int := min e (F.emin - F.M)

/-- The magnitude of a code, and how far it lies from m × 2^e, in units of the grid. -/
def Fmt.magAt (F : Fmt) (e : Int) (c : Nat) : Nat := scaleTo (F.mag c).1 (F.mag c).2 (F.grid e)
def Fmt.gapTo (F : Fmt) (m : Nat) (e : Int) (c : Nat) : Nat := ((scaleTo m e (F.grid e) : Int) - F.magAt e c).natAbs

/-- The member nearest to m × 2^e; of two as near, the one with the even code; of two even ones (zero and the smallest normal value of a format
without subnormals), the upper (02 R427). -/
def Fmt.Nearest (F : Fmt) (m : Nat) (e : Int) (c : Nat) : Prop :=
  F.member c ∧ ∀ x, F.member x → x ≠ c → F.gapTo m e c < F.gapTo m e x ∨ (F.gapTo m e c = F.gapTo m e x ∧ c % 2 = 0 ∧ (x % 2 = 0 → x < c))

/-- The largest member not above m × 2^e, the smallest not below it. -/
def Fmt.Below (F : Fmt) (m : Nat) (e : Int) (c : Nat) : Prop :=
  F.member c ∧ F.magAt e c ≤ scaleTo m e (F.grid e) ∧ ∀ x, F.member x → F.magAt e x ≤ scaleTo m e (F.grid e) → x ≤ c
def Fmt.Above (F : Fmt) (m : Nat) (e : Int) (c : Nat) : Prop :=
  F.member c ∧ scaleTo m e (F.grid e) ≤ F.magAt e c ∧ ∀ x, F.member x → scaleTo m e (F.grid e) ≤ F.magAt e x → c ≤ x

/-- The member that a mode other than RS selects. -/
def Fmt.Chosen (F : Fmt) (mode : RMode) (neg : Bool) (m : Nat) (e : Int) (c : Nat) : Prop :=
  match mode, neg with
  | .rne, _ => F.Nearest m e c
  | .rz, _ => F.Below m e c
  | .rd, false => F.Below m e c
  | .rd, true => F.Above m e c
  | .ru, false => F.Above m e c
  | .ru, true => F.Below m e c
  | .rs, _ => F.Below m e c ∨ F.Above m e c

/-- A nonzero number rounds to the member that its mode selects; one above the largest finite value overflows; the flags say so (02 R44). -/
def RoundsTo (F : Fmt) (mode : RMode) (r : Half) (neg : Bool) (m : Nat) (e : Int) : Prop :=
  ∃ c, F.Chosen mode neg m e c ∧ F.round mode r (.fin neg m e) =
    if F.maxCode < c then
      (if mode = .rz ∨ (mode = .rd ∧ neg = false) ∨ (mode = .ru ∧ neg = true) then F.maxCode + F.signBit neg else F.overflowResult neg, fOverflow ||| fInexact)
    else (c + F.signBit neg, flagIf (F.gapTo m e c != 0) fInexact |||
      flagIf (F.gapTo m e c != 0 && scaleTo m e (F.grid e) < scaleTo 1 F.emin (F.grid e)) fUnderflow)

/-- A NaN code of FP32. -/
def isNan32 (x : Word) : Bool := x.extractLsb' 23 8 == 255 && x.extractLsb' 0 23 != 0

/-- The program counter goes to slot 0 of a packet and the open windows end (03 R69, R80); nothing else changes. -/
def Jumps (s : State) (p : Word) (t : State) : Prop :=
  t.g.pc = ⟨p, 0⟩ ∧ t.g.wins = s.g.wins.map (fun w => { w with left := 0 }) ∧
    t = { s with g := { s.g with pc := t.g.pc, windows := t.g.windows, hwindows := t.g.hwindows } } ∧
    (if s.g.handler.isSome then t.g.windows = s.g.windows else t.g.hwindows = s.g.hwindows)

/-! ## Words of the operand log (05 R138-R154) -/

/-- Nothing of the gang's accesses stands in front of an access: a log entry is free, no lane of it names a line of a parked lane or of one in
flight, and no word in flight holds it back (03 R84; 05 R142; 06 R173; 12 R270, R272, R276). -/
def Clear (s : State) (a : Access) (e : Nat) : Prop :=
  s.g.freeEntry = some e ∧ overlapsParked s a = false ∧ overlapsFlight s a = false ∧ s.g.flies MemKind.holdsMemory = false ∧
    (a.op.kind.writes = true → s.g.flies MemKind.fences = false)

/-- A word of the operand log that nothing stands in front of and all of whose lanes succeed: the compressed blocks that its lanes name are
fetched once (02 R64), the lanes of `a` are performed in ascending order, each as `f` says; the log entry is free again and the window of
the word is open (05 R138, R141; 06 R172, R174; 03 R80). The word has no effect where no lane is active. `nextId` numbers accesses (log
entry 4). -/
def LogRun (i : Instr) (a : Access) (f : Blocks → Fin 32 → State → Option State) (s : State) : Prop :=
  ∀ e u k v, MayIssue i s = true → s.inFlight = false → Clear s a e → a.recordFault a.active s = none →
    fetchBlocks (gangRead [] s.agent) (a.tensorBase s) (a.blocksOf a.active s) ⟨[], []⟩ { s with nextId := s.nextId + 1 } = (k, v) →
    (laneList a.active).foldlM (fun s L => f k L s) v = some u →
    exec i s = .next (Opens i (if a.active = 0 then s else (a.land u).setG fun g => g.setEntry e LogEntry.empty))

/-- The same, of lanes that read no compressed block. -/
def LogWord (i : Instr) (a : Access) (f : Fin 32 → State → Option State) (s : State) : Prop := LogRun i a (fun _ => f) s

/-- A lane's load of n bytes at an aligned virtual address (05 R140, R143, R144). -/
def loadLane (va n : Nat) (put : Nat → State → State) (s : State) : Option State :=
  if va % n ≠ 0 then none
  else
    match gangRead [] s.agent va n s with
    | .ok b t => some (put (ofBytes b) t)
    | _ => none

/-- A lane's store of the n low bytes of a value at an aligned virtual address. -/
def storeLane (va n x : Nat) (s : State) : Option State :=
  if va % n ≠ 0 then none
  else
    match updVa s.agent .l1 .store va n (fun _ => toBytes n x) s with
    | .ok _ t => some t
    | _ => none

/-- A lane's load of the element with an index, through a record (02 R53-R62), out of the blocks the word has fetched. -/
def elemLoadLane (R : Rec) (k : Blocks) (j : Nat) (put : Nat → State → State) (s : State) : Option State :=
  match R.readElemBy (R.fetchFrom (gangRead [] s.agent) k) (gangRead [] s.agent) (R.coords j) s with
  | .ok v t => some (put (fp32.round .rne 0 v).1 (t.flag (fp32.round .rne 0 v).2))
  | _ => none

/-- A lane's store of an FP32 value into the element with an index, through a record. -/
def elemStoreLane (R : Rec) (j x : Nat) (s : State) : Option State :=
  match R.writeElem (gangRead [] s.agent) (gangReadForWrite s.agent) (gangWrite s.agent) .rne 0 (R.coords j) (f32 (BitVec.ofNat 32 x)) s with
  | .ok f t => some (t.flag f)
  | _ => none

/-- A lane's atomic at the point its scope selects (05 R153): `new` is the value it leaves, from the value it finds; a form that returns puts
that into registers. `op` and `b` travel with a remote form that does not return. -/
def atomLane (sc : Scope) (ret : Bool) (op b va n : Nat) (new : Nat → Nat) (put : Nat → State → State) (s : State) : Option State :=
  if va % n ≠ 0 then none
  else
    match updVa s.agent (pointOf s.agent.straddle sc) (if ret then .atom else .red op b) va n (fun old => toBytes n (new (ofBytes old))) s with
    | .ok old t => some (if ret then put (ofBytes old) t else t)
    | _ => none

/-- A lane's scratchpad load, store and atomic at an aligned window address that the owner check lets pass (05 R145, R154; 01 R31). -/
def padLoadLane (va n : Nat) (put : Nat → State → State) (s : State) : Option State :=
  if va % n ≠ 0 then none
  else
    match spadKey s va with
    | .ok k => some (put (ofBytes (s.spad.read k n)) s)
    | .error _ => none

def padStoreLane (va n x : Nat) (s : State) : Option State :=
  if va % n ≠ 0 then none
  else
    match spadKey s va with
    | .ok k => some { s with spad := s.spad.write k (toBytes n x) }
    | .error _ => none

def padAtomLane (ret : Bool) (va n : Nat) (new : Nat → Nat) (put : Nat → State → State) (s : State) : Option State :=
  if va % n ≠ 0 then none
  else
    match spadKey s va with
    | .ok k =>
      let old := ofBytes (s.spad.read k n)
      let t := { s with spad := s.spad.write k (toBytes n (new old)) }
      some (if ret then put old t else t)
    | .error _ => none

/-- A scratchpad element's value as FP32, through a record (05 R146). -/
def padElem (R : Rec) (x : Nat) : Nat × Flags := fp32.round .rne 0 (quiet (R.elem.fmt.value (x % 2 ^ R.elem.fmt.width)))

/-- A 32-bit, or 64-bit, result in one lane of registers d (and d + 1), a scalar result. -/
def put32 (d : Nat) (L : Fin 32) (x : Nat) (s : State) : State := putLane d L x s
def put64 (d : Nat) (L : Fin 32) (x : Nat) (s : State) : State := putLane (d + 1) L (x / 2 ^ 32) (putLane d L x s)
def putS (d : Nat) (x : Nat) (s : State) : State := s.setR fun r => r.setS d (BitVec.ofNat 64 x)
def putSx (d : Nat) (x : Nat) (s : State) : State := s.setR fun r => r.setS d ((BitVec.ofNat 32 x).signExtend 64)

/-- The bytes of a width code, and the value of that width in registers from r upward (05 R150). -/
def widthOf (w : Nat) : Nat := if w = 0 then 4 else 8
def runValue (s : State) (w r : Nat) (L : Fin 32) : Nat :=
  if w = 0 then (s.src.vreg r)[L].toNat else (s.src.vreg r)[L].toNat + (s.src.vreg (r + 1))[L].toNat * 2 ^ 32
def putW (w d : Nat) (L : Fin 32) : Nat → State → State := if w = 0 then put32 d L else put64 d L

/-- The address of a lane: a base and the lane's offset, modulo 2^64 (05 R139). -/
def laneAddr (s : State) (a b : Nat) (L : Fin 32) : Nat := (s.src.sreg b + (s.src.vreg a)[L].setWidth 64).toNat

/-- Signed numbers of a width of n bytes. -/
def signedOf (n x : Nat) : Int := (BitVec.ofNat (8 * n) x).toInt

/-- The new value of each operation of R151, from the width in bytes, the old value, the operand b, and `cas`'s new value. -/
def newAdd (n old b : Nat) : Nat := (old + b) % 2 ^ (8 * n)
def newMin (n old b : Nat) : Nat := if signedOf n b < signedOf n old then b else old
def newMax (n old b : Nat) : Nat := if signedOf n old < signedOf n b then b else old
def newInc (old b : Nat) : Nat := if b ≤ old then 0 else old + 1
def newDec (old b : Nat) : Nat := if old = 0 ∨ b < old then b else old - 1
def newF (f : Word → Word → Word × Flags) (old b : Nat) : Nat := (f (BitVec.ofNat 32 old) (BitVec.ofNat 32 b)).1.toNat

/-- What a completed scratchpad store leaves (05 R145): the log entry, the window and the access number apart, only scratchpad bytes
differ, and only those at the places of the active lanes. -/
def StoredPad (s t : State) (a n e : Nat) : Prop :=
  (∃ w1 w2 i, t = { s with spad := t.spad, nextId := i, g := { (s.g.setEntry e LogEntry.empty) with windows := w1, hwindows := w2 } } ∨
    t = { s with spad := t.spad, nextId := i, g := { s.g with windows := w1, hwindows := w2 } }) ∧
  ∀ x, (∀ (L : Fin 32) (k : Nat), lane s.src.emask L = true → spadKey s (s.src.vreg a)[L].toNat = .ok k → x < k ∨ k + n ≤ x) →
    t.spad.get x = s.spad.get x

/-- What a completed scratchpad load leaves: only the active lanes of registers d to d + n − 1 differ. -/
def LoadedPad (s t : State) (d n e : Nat) : Prop :=
  ∃ w1 w2 i r, (t = { s with nextId := i, g := { ({ s.g with r := r }.setEntry e LogEntry.empty) with windows := w1, hwindows := w2 } } ∨
    t = { s with nextId := i, g := { s.g with r := r, windows := w1, hwindows := w2 } }) ∧
    r = { s.g.r with v := r.v } ∧ ∀ k (L : Fin 32), (lane s.src.emask L = false ∨ k < d ∨ d + n ≤ k) → (r.vreg k)[L] = (s.g.r.vreg k)[L]

/-- The rows of a transposed load are readable (05 R147): `R` is the record of the slot, none for slot 0; `key` is where a row lies. -/
def Tr (s : State) (t a z : Nat) (R : Option Rec) (key : Fin 32 → Nat) : Prop :=
  (if t = 0 then R = none else R.isSome = true ∧ recordFields (recordOf s (slotIdent s.src t)) = R ∧ ∀ x ∈ R, x.allows 1 = true ∧ x.enc ≠ 2) ∧
  ∀ L, lane s.src.emask L = true →
    let va := match R with
      | some x => swizzle x.swz (s.src.vreg a)[L].toNat
      | none => (s.src.vreg a)[L].toNat
    va % (4 * z) = 0 ∧ spadKey s va = .ok (key L)

/-- Register j of the group of a transposed load, in a lane (05 R147). -/
def trRegister (m : Memory) (mask : Word) (key : Fin 32 → Nat) (z j : Nat) (L : Fin 32) : Word :=
  let el (r c : Nat) : Nat := if h : 16 * (L.val / 16) + r < 32 then
      (if lane mask ⟨16 * (L.val / 16) + r, h⟩ then ofBytes (m.read (key ⟨16 * (L.val / 16) + r, h⟩ + c * z) z) else 0) else 0
  let k := L.val % 16
  let x (i : Nat) : Nat := el (4 * (k % 4) + i) (k / 4)
  if z = 1 then BitVec.ofNat 32 (x 0 + x 1 * 2 ^ 8 + x 2 * 2 ^ 16 + x 3 * 2 ^ 24)
  else if z = 2 then BitVec.ofNat 32 (x (2 * j) + x (2 * j + 1) * 2 ^ 16)
  else BitVec.ofNat 32 (x j)

/-! ## Releases, acquires and objects (05 R155-R168; 12 R270, R272) -/

/-- The instruction leaves a state, with the window of the word open behind it (03 R80). -/
def Leaves (i : Instr) (s t : State) : Prop := exec i s = .next (Opens i t)

/-- A release with nothing in front of it that is complete as it begins: it leaves u, and no record of it is to be acknowledged (12 R270). -/
def ReleasedFrom (sc : Scope) (fwd : List Nat) (s u : State) : Prop := s.g.opens = false ∧ releaseBegin sc fwd s = ([], u)

/-- The acquire of the word leaves u. -/
def AcquiredFrom (sc : Scope) (keep : List (Nat × Half)) (s u : State) : Prop := acquireAt s.g.coreIx s.straddles sc keep s = some u

/-- An object of the scratchpad that a word may act on, at its key (05 R156; 01 R31): no arrival of the gang on it is to come (05 R142). -/
def ObjectAt (s : State) (addr k : Nat) : Prop := addr % 16 = 0 ∧ spadKey s addr = .ok k ∧ ∀ x ∈ s.g.arriving, x.addr ≠ addr

/-- A ring that a queue word may act on (05 R161, R163). -/
def RingAt (s : State) (q : Nat) (c : Crew) (r : Ring) : Prop :=
  s.myCrew = some c ∧ bits (queueDecl s s.g.node q) 26 20 ≠ 0 ∧
    ((List.range (16 + 4 * bits (queueDecl s s.g.node q) 26 20)).all fun k => !c.engineOwned (bits (queueDecl s s.g.node q) 19 0 + k)) = true ∧
    r = ringAt s (c.key (bits (queueDecl s s.g.node q) 19 0)) ∧ ringOk c q r = true

/-- Tiles of the issuing crew's allocation that an ownership word may name, by their indices (05 R164). -/
def TilesAt (s : State) (addr n : Nat) (c : Crew) (ts : List Nat) : Prop :=
  s.myCrew = some c ∧ addr % 4096 = 0 ∧ 1 ≤ n ∧ n ≤ 256 ∧ addr < 2 ^ 20 ∧ c.offset ≤ addr ∧ addr + 4096 * n ≤ c.offset + c.size ∧
    ts = (List.range n).map fun k => (addr - c.offset) / 4096 + k

/-- The detail of a trap, from `%tdet2`, `%tdet1` and `%tdet0` (06 R176). -/
def Regs.detail (r : Regs) : BitVec 96 := r.tdet2 ++ r.tdet1 ++ r.tdet0

/-- The word traps at issue in front of itself: group, code, detail (06 R171, R180). -/
def TrapsWith (i : Instr) (s : State) (group code : Nat) (det : BitVec 96) : Prop := exec i s = .next (takeTrap group code det 0 0 s.g.cur s)

/-- The word waits: it issues again at the gang's next turn (05 R130), having had no effect but `w` on its gang. -/
def Waits (i : Instr) (s : State) (w : Gang → Gang) : Prop := exec i s = .next (stall (s.setG w))

/-! ## Engine words (06 R175; 08 R201; 10 R238) -/

/-- The leader of a mask: its lowest lane (08 R201). -/
def Leads (m : Word) (L : Nat) : Prop := ∃ h : L < 32, lane m ⟨L, h⟩ = true ∧ ∀ M : Fin 32, lane m M = true → L ≤ M.val

/-- An engine word with a leader and a free log entry, of a gang whose ensemble is not being evicted and whose earlier accesses have been
performed (06 R173; 08 R210). -/
def Offers (i : Instr) (s : State) (m : Word) (e : Nat) : Prop :=
  MayIssue i s = true ∧ m ≠ 0 ∧ s.leaving = false ∧ s.g.opens = false ∧ s.g.freeEntry = some e

/-- The engine rejects the command (06 R175): from the state u in which it has read what it reads, the leader lane is parked with a record,
and no register, byte or unit differs. The detail is `engineDetail` of the leader (08 R222; 10 R249). -/
def Rejected (i : Instr) (m : Word) (e : Nat) (s u : State) (group code addr kind ident extra : Nat) (two : Bool) : Prop :=
  ∃ t L q, exec i s = .next t ∧ Leads m L ∧ (t.g.entry e).state = .faulted ∧ (t.g.entry e).replay = true ∧ (t.g.entry e).parked = [q] ∧
    q.lane.val = L ∧ q.why = ⟨BitVec.ofNat 13 (256 * group + code), engineDetail addr kind two e L ident extra false⟩ ∧
    t.g.r = u.g.r ∧ t = { u with nextId := u.nextId + 1, g := t.g }

/-- The fault of an acceptance in general: the leader lane is parked, with a record that may name the leader (06 R175). -/
def ParksLeader (i : Instr) (m : Word) (e : Nat) (s u : State) (f : Nat → FaultRec) : Prop :=
  ∃ t L q, exec i s = .next t ∧ Leads m L ∧ (t.g.entry e).state = .faulted ∧ (t.g.entry e).replay = true ∧ (t.g.entry e).parked = [q] ∧
    q.lane.val = L ∧ q.why = f L ∧ t.g.r = u.g.r ∧ t = { u with nextId := u.nextId + 1, g := t.g }

/-- A rejection with group 12: the detail is an address or the operand concerned (15 R360; 06 R177). -/
def RejectedFabric (i : Instr) (m : Word) (e : Nat) (s u : State) (code x : Nat) : Prop :=
  ParksLeader i m e s u fun _ => ⟨BitVec.ofNat 13 (0xC00 + code), BitVec.ofNat 96 (x % 2 ^ 64)⟩

/-- The word completes with a number in a scalar register, from the state u that its effect has left. -/
def Returns (i : Instr) (s u : State) (d : BitVec 5) (x : Nat) : Prop := Leaves i s (u.setR fun r => r.setS d.toNat (BitVec.ofNat 64 x))

/-- The word waits at issue, from the state u (08 R201). -/
def WaitsFrom (i : Instr) (s u : State) : Prop := exec i s = .next (stall (u.setG fun g => { g with wait := .blocked }))

/-- What `fmc` and `fred` share (15 R349-R353, R360): no lane, no effect; a wait behind 16 unacknowledged ones; the rejections in the order of
R360; then `ok`, of the group, the payload and the state in which it has been read. `a`, `b`, `c` are the operands. -/
def PayloadWord (i : Instr) (m : Word) (a b c : Nat) (bad : Prop) (s : State) (ok : Group → List Byte → State → Prop) : Prop :=
  (MayIssue i s = true → m = 0 → Leaves i s s) ∧
  ∀ e, Offers i s m e → (16 ≤ collectives s s.g.coreIx → WaitsFrom i s s) ∧
    (collectives s s.g.coreIx < 16 →
      (bad → RejectedFabric i m e s s 0x11 c) ∧
      (¬bad → a % 256 ≠ 0 → RejectedFabric i m e s s 0x12 a) ∧
      (¬bad → a % 256 = 0 → b % 256 ≠ 0 → RejectedFabric i m e s s 0x12 b) ∧
      (¬bad → a % 256 = 0 → b % 256 = 0 → (∀ G ∈ s.groups, ¬(G.id = c % 2 ^ 12 ∧ G.tenant = s.g.tenant.toNat ∧ s.pkg.toNat ∈ G.members)) → RejectedFabric i m e s s 0x09 c) ∧
      ∀ G, ¬bad → a % 256 = 0 → b % 256 = 0 → groupFor s (c % 2 ^ 12) = some G →
        (∀ w u, readLong (gangRead [] s.agent) (linesFor 256) a 256 s = .bad w u → RejectedFabric i m e s u 0x12 a) ∧
        ∀ y u, readLong (gangRead [] s.agent) (linesFor 256) a 256 s = .ok y u → u.g.status ≠ .vacant → ok G y u)

/-- The word waits at issue with no effect (08 R201). -/
def WaitsAtIssue (i : Instr) (s : State) : Prop := Waits i s fun g => { g with wait := .blocked }

/-- What an accepted copy command holds (08 R199, R201, R204, R206): the queue entry, the operands, no sector done. -/
def CopyEntry (s : State) (op a b : Nat) (x : Nat) (m : Word) (w : Crew) (own : Bool) (q : Command) : Prop :=
  q.id = s.nextId ∧ q.op = op ∧ q.gang = s.g.uid ∧ q.crew = w.uid ∧ q.node = s.g.node ∧ q.tenant = s.g.tenant ∧ q.reserved = own ∧ Leads m q.leader ∧
    q.coords = [((s.src.sreg a).extractLsb' 0 32).toInt, ((s.src.sreg a).extractLsb' 32 32).toInt,
      ((s.src.sreg (a + 1)).extractLsb' 0 32).toInt, ((s.src.sreg (a + 1)).extractLsb' 32 32).toInt] ∧
    q.window = (s.src.sreg b).toNat ∧ q.gId.toNat = bits x 7 0 ∧ q.pId.toNat = bits x 15 8 ∧ q.mode.toNat = bits x 40 38 ∧
    q.barrier = (if bits x 37 37 = 1 then some (bits x 36 16) else none) ∧ q.fifoB = decide (bits x 45 45 = 1) ∧ q.done = 0 ∧ q.sent = false ∧
    q.suspended = false ∧ q.fault = none ∧ q.behind = []

/-- A word of major 0x20 (08 R201-R212, R428): no lane, no effect; it waits while something it needs is missing; it is rejected with the first
failure of R428; else it is accepted, and the gang goes on at once with its registers as they were. -/
def CopyWord (i : Instr) (op k a b c : Nat) (s : State) : Prop :=
  let m := s.src.preg k &&& s.src.emask
  let x := (s.src.sreg c).toNat
  let acc := capCopy op k a b c s
  (MayIssue i s = true → m = 0 → Leaves i s s) ∧
  (MayIssue i s = true → m ≠ 0 → s.leaving = false → s.g.opens = true → exec i s = .next (stall s)) ∧
  ∀ w e, Offers i s m e → s.myCrew = some w →
    ((freeSlot s w.core w.uid s.g.stage.toNat = none ∨ copyWaits op acc w s = true) → WaitsAtIssue i s) ∧
    ∀ own, freeSlot s w.core w.uid s.g.stage.toNat = some own → copyWaits op acc w s = false →
      (∀ code addr kind ident, copyFault op acc w s = some (code, addr, kind, ident) → Rejected i m e s s 7 code addr kind ident 0 false) ∧
      (copyFault op acc w s = none → ∃ u q, Leaves i s u ∧ u.g = s.g ∧ u.gangs = s.gangs ∧ u.mem = s.mem ∧ CopyEntry s op a b x m w own q ∧
        (u.core w.core).cmds = (s.core w.core).cmds ++ [q] ∧ (op ≠ 2 → u.spad = s.spad) ∧
        ∀ P, recordFields (recordOf s (BitVec.ofNat 8 (bits x 15 8))) = some P →
          (op = 3 → (u.core w.core).roomA + (if bits x 45 45 = 1 then 0 else payloadBytes P) = (s.core w.core).roomA ∧
            (u.core w.core).roomB + (if bits x 45 45 = 1 then payloadBytes P else 0) = (s.core w.core).roomB) ∧
          (op ≠ 3 → ∀ r ∈ receiversOf s op (bits x 63 48) w, ∀ t ∈ w.tilesOf (s.src.sreg b).toNat P.boxBytes,
            ∃ r1, u.crew? r.uid = some r1 ∧ s.nextId ∈ (lookup r1.tiles t).getD []) ∧
          (op = 2 → let r := ringAt s (w.key (queueOf s w (bits x 44 41)).1)
            q.queue = some (bits x 44 41, r.tail) ∧ (s.spad.wf = true → ringAt u r.key = { r with tail := (r.tail + 1) % r.slots, free := r.free - 1 })))

/-! ## What a copied sector moves (08 R206) -/

/-- Elements one after another: `f x b s c t` takes the element x with b in state s to c in state t. -/
def Each {α β : Type} (f : α → β → State → β → State → Prop) : List α → β → State → β → State → Prop
  | [], b, s, c, t => c = b ∧ t = s
  | x :: xs, b, s, c, t => ∃ b1 s1, f x b s b1 s1 ∧ Each f xs b1 s1 c t

/-- The stochastic source behind an element that a mode rounds (02 R45). -/
def rndBehind (mode : RMode) (r : Half) : Half := if mode = .rs then srndFix (srndStep r) else r

/-- The code that an element of G has in P's format: its own bits where bounds, format and scale allow, else its value (the fill out of bounds)
rounded once. -/
def CodeIn (k : Client) (G P : Rec) (mode : RMode) (g : List Int) (r : Half) (s : State) (code : Nat) (r1 : Half) (t : State) : Prop :=
  if G.inBounds g = true ∧ G.elem = P.elem ∧ G.smode = 0 then
    ∃ b, G.fetch k.read (G.place g).1 G.cbytes s = .ok b t ∧ code = G.code b (G.place g).2 ∧ r1 = r
  else ∃ v, G.readElem k.read g s = .ok v t ∧ r1 = rndBehind mode r ∧ code = (P.elem.fmt.round mode r1 v).1

/-- Box element b moved in: its code stands at P's place for b in every receiver's pad. -/
def ElemIn (c : Command) (core : Nat) (G P : Rec) (me : Crew) (b : List Int) (r : Half) (s : State) (r1 : Half) (t : State) : Prop :=
  ∃ code u, CodeIn (c.client core) G P (modeCode c.mode.toNat) (addCoords c.coords b) r s code r1 u ∧
    t = (c.receivers u).foldl (fun s q => padPut q P (landAt me q c.window) b code s) u

/-- Box element b moved out: dropped out of bounds; not written where a later element of the box names the same element of G. -/
def ElemOut (c : Command) (core : Nat) (G P : Rec) (me : Crew) (b : List Int) (r : Half) (s : State) (r1 : Half) (t : State) : Prop :=
  if G.inBounds (addCoords c.coords b) = false then r1 = r ∧ t = s
  else r1 = rndBehind (modeCode c.mode.toNat) r ∧
    if superseded G P c.coords b = true then t = s
    else ∃ f, G.writeElem (c.client core).read (c.client core).readForWrite ((c.client core).write c.id) (modeCode c.mode.toNat) r1 (addCoords c.coords b)
      (quiet (P.elem.fmt.value (padCode me P c.window b s))) s = .ok f t

/-- Box element b joins a FIFO payload. -/
def ElemFifo (c : Command) (core : Nat) (G P : Rec) (b : List Int) (x : List Nat × Half) (s : State) (y : List Nat × Half) (t : State) : Prop :=
  ∃ code r, CodeIn (c.client core) G P (modeCode c.mode.toNat) (addCoords c.coords b) x.2 s code r t ∧ y = (x.1 ++ [code], r)

/-! ## What a drain writes (10 R241-R243) -/

/-- Tile element (m, n) to the pad: at D's place for box element (n, m), rounded. -/
def DrainPad (t : Task) (D : Rec) (w : Crew) (mn : Nat × Nat) (r : Half) (s : State) (r1 : Half) (u : State) : Prop :=
  r1 = rndBehind (modeCode t.mode) r ∧ u = padPut w D t.window [(mn.2 : Nat), (mn.1 : Nat), 0, 0] (D.elem.fmt.round (modeCode t.mode) r1 (t.value mn)).1 s

/-- Tile element (m, n) to memory: dropped out of bounds, else written into element c + (n, m, 0, 0) of D, rounded. -/
def DrainMem (t : Task) (D : Rec) (core : Nat) (mn : Nat × Nat) (r : Half) (s : State) (r1 : Half) (u : State) : Prop :=
  if D.inBounds (t.place mn) = false then r1 = r ∧ u = s
  else r1 = rndBehind (modeCode t.mode) r ∧ ∃ f, D.writeElem (t.client core).read (t.client core).readForWrite ((t.client core).write t.id)
    (modeCode t.mode) r1 (t.place mn) (t.value mn) s = .ok f u

/-- The code of an element of a scaled block; not written where a later element of the drain names the same element of D. -/
def DrainCode (t : Task) (D : Rec) (core : Nat) (x : (Nat × Nat) × Nat) (r : Half) (s : State) (r1 : Half) (u : State) : Prop :=
  r1 = r ∧ if t.superseded D x.1 = true then u = s
    else ∃ b, D.writeCode (t.client core).readForWrite ((t.client core).write t.id) (t.place x.1) x.2 s = .ok b u

/-- A block of 2^n elements along dimension 0 under scale mode 1: over those in bounds, the scale and the elements of R47; none, nothing. -/
def DrainBlock (t : Task) (D : Rec) (core : Nat) (mn : Nat × Nat) (r : Half) (s : State) (r1 : Half) (u : State) : Prop :=
  let els := ((List.range (2 ^ D.sblk)).map fun j => (mn.1, mn.2 + j)).filter fun x => D.inBounds (t.place x)
  match els with
  | [] => r1 = r ∧ u = s
  | x0 :: _ => ∃ b v, (t.client core).write t.id (D.scaleAddr (t.place x0)) [BitVec.ofNat 8 (mxSelect D.elem.fmt (els.map t.value)).1] s = .ok b v ∧
      Each (DrainCode t D core) (els.zip (mxSelect D.elem.fmt (els.map t.value)).2) r v r1 u

/-- What a unit of a drain to pad or to memory writes. -/
def DrainUnit (t : Task) (D : Rec) (w : Crew) (core : Nat) : Nat × Nat → Half → State → Half → State → Prop :=
  if t.kind = 1 then DrainPad t D w else if D.smode = 1 then DrainBlock t D core else DrainMem t D core

/-- One element of an add-on-store at its home: the old element plus all the values for it, one rounding (10 R243). -/
def AddHome (t : Task) (D : Rec) (x : Nat × TlbEntry × Nat × List XVal) (r : Half) (s : State) (r1 : Half) (u : State) : Prop :=
  let old := s.mem.read x.1 D.cbytes
  let code := (D.elem.fmt.round (modeCode t.mode) r1 (xsum (decide (modeCode t.mode = .rd)) (quiet (D.elem.fmt.value (D.code old x.2.2.1)) :: x.2.2.2)).1).1
  r1 = rndBehind (modeCode t.mode) r ∧
    u = { s with mem := s.mem.write x.1 (if D.elem.cont = 0 then putBits old x.2.2.1 D.elem.fmt.width code else toBytes D.cbytes code) }

/-- The die's copy of the new bytes (12 R277). -/
def AddPatch (t : Task) (D : Rec) (core : Nat) (l : List (Nat × TlbEntry × Nat × List XVal)) (s : State) : State :=
  l.foldl (fun u x => if x.2.1.twin then patchDie ⟨core, t.tenant, t.gang, false⟩ x.1 (s.mem.read x.1 D.cbytes) u else u) s

/-! ## The order of an engine's checks (08 R428; 10 R429) -/

/-- The first failure of a list of checks in their order. -/
def firstFault {α : Type} (l : List (Bool × α)) : Option α := (l.find? Prod.fst).map Prod.snd

/-- A copy's checks in the order of R428: the control word, G, P, the payload size, the bounds, the pad range, the mask and its receivers, the
tiles, the barrier, the stage ring. The addresses and kinds are those of R222. -/
def copyChecks (op : Nat) (a : Access) (c : Crew) (s : State) : List (Bool × (Nat × Nat × Nat × Nat)) :=
  let x := a.ctl.toNat
  let w := a.extra.toNat
  let G := recordFields (recordOf s (BitVec.ofNat 8 (ctlG x)))
  let P := recordFields (recordOf s (BitVec.ofNat 8 (ctlP x)))
  let side := if op = 1 then 1 else 0
  [(ctlBad op x, (0x0A, 0, 0, 0)),
   (G.isNone, (0x01, 0, side, ctlG x)),
   (G.any fun R => !R.usable (if op = 1 then 2 else 1), (0x02, 0, side, ctlG x)),
   (P.isNone, (0x01, 0, 2, ctlP x)),
   (P.any fun R => R.enc != 0 || R.smode != 0 || (op != 3 && (!R.boxDense || !R.allows (if op = 1 then 1 else 2))), (0x02, 0, 2, ctlP x)),
   (op = 3 && P.any (fun R => 65536 < payloadBytes R), (0x0A, 0, 0, 0)),
   (G.any fun R => R.fill = 3 && P.any fun Q => (boxOf Q.ext).any fun b => !R.inBounds (addCoords (coordsOf a) b), (0x03, 0, side, ctlG x)),
   (op != 3 && P.any (fun R => !c.holds w R.boxBytes), (0x05, w, 2, 0)),
   (op = 4 && maskBad s c.ensemble (ctlMask x), (0x06, 0, 7, 0)),
   (op = 4 && (receiversOf s op (ctlMask x) c).any Crew.done, (0x07, 0, 7, 0)),
   (op != 3 && P.any (fun R => (c.tilesOf w R.boxBytes).any fun t => (op != 4 && !c.tileOwned t) || (receiversOf s op (ctlMask x) c).any fun r => !r.tileOwned t),
     (0x04, w, 2, 0)),
   (op != 3 && ctlBe x && !c.barrierOk (ctlBarrier x), (0x08, ctlBarrier x, 6, 0)),
   (op = 2 && !ringUsable s c (ctlQueue x), (0x09, c.offset + (queueOf s c (ctlQueue x)).1, 6, 0))]

/-- A job card's checks, once it stands aligned and read: its fields, S, D or the pad range and its tiles, the barrier, the stage ring. -/
def runChecks (k : Card) (va : Nat) (c : Crew) (s : State) : List (Bool × (Nat × Nat × Nat × Nat)) :=
  let S := recordFields (recordOf s k.source)
  let D := recordFields (recordOf s k.dest)
  [(k.misfit s, (0x0A, va, 3, 0)),
   (S.isNone, (0x01, 0, 0, k.source.toNat)),
   (S.any fun R => !(R.enc = 1 || R.enc = 2) || !R.allows 1, (0x02, 0, 0, k.source.toNat)),
   (k.kind = 1 && D.isNone, (0x01, 0, 1, k.dest.toNat)),
   (k.kind = 1 && D.any (fun R => R.enc != 0 || !R.allows 2 || 2 ≤ R.smode), (0x02, 0, 1, k.dest.toNat)),
   (k.kind != 1 && !c.holds k.window (List.range k.olen), (0x05, k.window, 2, 0)),
   (k.kind != 1 && (c.tilesOf k.window (List.range k.olen)).any (fun t => !c.tileOwned t), (0x04, k.window, 2, 0)),
   (k.be && !c.barrierOk k.barrier, (0x08, k.barrier, 6, 0)),
   (k.push && !ringUsable s c k.queue, (0x09, c.offset + (queueOf s c k.queue).1, 6, 0))]

/-- A compute task's checks, once its record stands: A, B, the shapes, the latches (10 R429). -/
def computeChecks (t : Task) (va : Nat) (s : State) : List (Bool × (Nat × Nat × Nat × Nat)) :=
  let K := s.core s.g.coreIx
  let raw (b : Bool) : BitVec 320 := recordOf s (BitVec.ofNat 8 (t.ident b))
  let A := recordFields (raw false)
  let B := recordFields (raw true)
  [(A.isNone, (0x01, va, 5, t.ident false)),
   (A.any fun R => R.enc != 0 || R.smode != 0, (0x02, va, 5, t.ident false)),
   (B.isNone, (0x01, va, 5, t.ident true)),
   (B.any fun R => R.enc != 0 || R.smode != 0, (0x02, va, 5, t.ident true)),
   (A.any fun R => !operandShape R, (0x0C, va, 5, t.ident false)),
   (B.any fun R => !operandShape R || A.any fun Q => Q.extent 2 != R.extent 2, (0x0C, va, 5, t.ident true)),
   (A.any fun R => latchBad t K false (raw false) R, (0x0D, va, 5, t.ident false)),
   (B.any fun R => latchBad t K true (raw true) R, (0x0D, va, 5, t.ident true))]

/-- A drain's checks, once its record stands: D, the shape, the block, the bounds, the pad range, its tiles, the barrier (10 R429). -/
def drainChecks (t : Task) (va : Nat) (c : Crew) (s : State) : List (Bool × (Nat × Nat × Nat × Nat)) :=
  let D := recordFields (recordOf s (BitVec.ofNat 8 t.dest))
  let peer := t.kind = 3
  [(!peer && D.isNone, (0x01, va, 0, t.dest)),
   (!peer && D.any (fun R => R.enc != 0 || !R.allows (if t.adds then 3 else 2) || 2 ≤ R.smode || (R.smode != 0 && (t.kind = 1 || t.adds)) ||
     (t.kind = 1 && !R.boxDense)), (0x02, va, 0, t.dest)),
   (t.kind = 1 && D.any (fun R => !(R.extent 0 = 64 && R.extent 1 = 64 && R.extent 2 = 1 && R.extent 3 = 1)), (0x0C, va, 0, t.dest)),
   (t.kind = 2 && D.any (fun R => R.smode = 1 && (6 < R.sblk || coordAt t.origin 0 % ((2 ^ R.sblk : Nat) : Int) != 0)), (0x0A, va, 0, t.dest)),
   (t.kind = 2 && D.any (fun R => R.fill = 3 && drainOrder.any fun mn => !R.inBounds (t.place mn)), (0x03, va, 0, t.dest)),
   (t.kind = 1 && D.any (fun R => !c.holds t.window R.boxBytes), (0x05, t.window, 2, 0)),
   (t.kind = 1 && D.any (fun R => (c.tilesOf t.window R.boxBytes).any fun k => !c.tileOwned k), (0x04, t.window, 2, 0)),
   (t.be && !c.barrierOk t.barrier, (0x08, t.barrier, 4, 0))]

/-! ## Commands behind a release (18 R391) -/

/-- A word of the dispatch engine with a free log entry: such a word never waits at issue, and is taken while its ensemble leaves (18 R391). -/
def Takes (i : Instr) (s : State) (e : Nat) : Prop := MayIssue i s = true ∧ s.g.freeEntry = some e

/-- The log entry a command takes, for whose result the words past its window wait. -/
def commandEntry (a : Access) (s : State) : LogEntry := { a.newEntry s with engine := true, holds := true }

/-- The command stands in its log entry, and the gang goes on (18 R391). -/
def Stands (i : Instr) (e : Nat) (x : LogEntry) (u : State) (s : State) : Prop :=
  exec i s = .next (openWindow (wordShapeOf i) (some e) (u.setG fun g => g.setEntry e { x with recs := some (x.recs.getD []) }))

/-- A command behind its release, as its word issues (12 R270; 18 R391, R392): behind older accesses of the gang in flight, and while its
release is not complete, it stands in its log entry; else the rest of it is as `ok` says, from the state in which the release is complete. -/
def GoesBehind (i : Instr) (sc : Scope) (a : Access) (s : State) (ok : Nat → State → Prop) : Prop :=
  ∀ e, Takes i s e → ∀ x v, x = commandEntry a s → v = { s with nextId := s.nextId + 1 } →
    ((∃ y ∈ s.g.log.toList, y.state = .inFlight ∧ y.seq < s.nextId) → Stands i e x v s) ∧
    ((∀ y ∈ s.g.log.toList, ¬(y.state = .inFlight ∧ y.seq < s.nextId)) → ∀ y u, relBegin sc [] x v = (y, u) →
      (relWaits sc { y with todo := 1 } u = true → Stands i e { y with todo := 1 } u s) ∧
      (relWaits sc { y with todo := 1 } u = false → ok e u))

/-- An allocation word whose turn at the package it is (15 R344). -/
def SwmOffers (i : Instr) (s : State) (e : Nat) : Prop := Offers i s 1 e ∧ swmBehind e s = false

/-! ## Words and events of the coherence engine (12) -/

/-- A lane of an acquire load: the read at the scope's point (12 R269, R274). -/
def acqLane (sc : Scope) (va : Nat) (put : Nat → State → State) (s : State) : Option State :=
  if va % 4 ≠ 0 then none
  else
    match readScoped s.agent sc va 4 s with
    | .ok b t => some (put (ofBytes b) t)
    | _ => none

/-- A lane of a release store: the write at the scope's point, with the tag of its own release (12 R271, R274). -/
def relLane (a : Access) (no : Half) (va x : Nat) (s : State) : Option State :=
  if va % 4 ≠ 0 then none
  else
    match updVa s.agent (pointOf s.straddles a.op.scope) .rel va 4 (fun _ => toBytes 4 x) s with
    | .ok _ t => some (setTag a no va t)
    | _ => none

/-- The fabric physical addresses of the active lanes, as their translations stand. -/
def laneFpas (s : State) (m : Word) (addr : Fin 32 → Nat) : List Nat :=
  (laneList m).filterMap fun L => (s.tlbHit s.g.tenant (addr L)).map fun e => e.fpa + (addr L - e.base)

/-- The log entry a fence takes: one that covers fabric scope holds the next group (06 R192). -/
def fenceEntry (rel acq : Bool) (sc : Scope) (s : State) : LogEntry :=
  { (capture ⟨.fence rel acq, false, true, 8, 0, sc, 0⟩ 0 0 0 0 (Lanes.all 0) [] s).newEntry s with join := scopeFabric sc, holds := scopeFabric sc }

/-- A report is due behind a fence that covers fabric scope (06 R192). -/
def ReportsDue (sc : Scope) (s : State) : State :=
  if (sc = .fab ∨ sc = .sys) ∧ s.g.reports ≠ [] then s.setG fun g => { g with reportDue := true } else s

/-- The range of a maintenance word (12 R283). -/
def RangeOk (a n : Nat) : Prop := a % 128 = 0 ∧ n % 128 = 0 ∧ 128 ≤ n ∧ n ≤ 2 ^ 30

/-- The log entry `tlbinv` takes (12 R289). -/
def tlbinvEntry (base n : Dword) (s : State) : LogEntry := (capture ⟨.tlbinv, false, true, 8, 0, .dev, 0⟩ 1 base n 0 (Lanes.all 0) [] s).newEntry s

/-- The observed values stored one after another (12 R282). -/
def observed : List (Nat × Nat) → State → Option State
  | [], s => some s
  | (va, v) :: r, s =>
    match gangWrite s.agent va (toBytes 8 v) s with
    | .ok _ t => observed r (landWrites t.g.die.toNat t)
    | _ => none

/-- The words of an `mcas` as they are found, and the state after its event (12 R282): every word replaced where all are as expected, the versions of
their lines raised and the die's copies patched; S[reg] says which matched. -/
def mcFound (ws : List McWord) (z : State) : List Nat := ws.map fun w => ofBytes (z.mem.read w.fpa w.bytes)

def mcEffect (ws : List McWord) (reg : Nat) (z : State) : State :=
  let hit := decide (ws.map McWord.cmp = mcFound ws z)
  (if hit then ws.foldl (fun s w => patchDie z.agent w.fpa (toBytes w.bytes w.new) s) (bumpLines (mcLines ws)
    { z with mem := ws.foldl (fun m w => m.write w.fpa (toBytes w.bytes w.new)) z.mem }) else z).setR fun r =>
      r.setS reg (BitVec.ofNat 64 (mcResult ws (mcFound ws z) hit))

/-- Behind the event the values found are stored into the block, and t is left. -/
def McEnds (ws : List McWord) (reg : Nat) (base : Dword) (z t : State) : Prop :=
  observed ((mcFound ws z).zipIdx.map fun y => ((base + BitVec.ofNat 64 (40 + 32 * y.2)).toNat, y.1)) (mcEffect ws reg z) = some t

/-- A gang with a report queued: 8 wait, further ones are counted (06 R192). -/
def withReport (w : Why) (g : Gang) : Gang :=
  if g.reports.length < 8 then { g with reports := g.reports ++ [⟨BitVec.ofNat 13 (256 * w.group + w.code), BitVec.ofNat 64 w.addr⟩] }
  else { g with reportsLost := g.reportsLost + 1 }

/-- A posted packet ends without its effect: it leaves the buffer, and its gang counts one less and has a report (15 R333). -/
def EndsPacket (i : Instr) (p : Packet) (w : Why) (s : State) : Prop :=
  ∃ t, exec i s = .next t ∧ (∀ q ∈ t.packets, q.id ≠ p.id) ∧
    ∀ u g, p.cmd = 0 → p.gangs = [u] → s.gang? u = some g → t.gang? u = some (withReport w { g with outstanding := g.outstanding - 1 }) ∧ t.mem = s.mem

/-- A line's bytes at its home. -/
def State.homeLine (s : State) (line : Nat) : List Byte := s.mem.read (128 * line) 128

/-- Bytes of memory outside some lines are as before. -/
def OnlyLines (s t : State) (P : Nat → Prop) : Prop := ∀ a, ¬ P (a / 128) → t.mem.get a = s.mem.get a

/-- An event row at a resident gang acts as `f` with that gang in its turn. -/
def AtGang (i : Instr) (uid : Nat) (s : State) (f : State → State) : Prop :=
  ∀ g, s.gang? uid = some g → g.status = .resident → exec i s = .next (f (s.focus uid))

/-- `mwait` returns a code and disarms the monitor (05 R166). -/
def MwaitEnds (d b : BitVec 5) (s : State) (code : Nat) : Prop :=
  exec (.mwait d b) s = .next ((s.setR fun r => r.setS d.toNat (BitVec.ofNat 64 code)).setG fun g => { g with monitor := none, wait := .none, parkedWait := none })

end Sys2Proof.Machine
end

