-- ==== Sys2Proof/Certificates/Slice0/Obligations.lean ====
section
/-! DEFINITION. The statements for the provers. -/

open Sys2Proof Sys2Proof.Machine

/-- Scalar words write the value of R110 or R111 (immediates: R113) and nothing else (04_gang_arith.md R110; 03_gang_words.md R76;
04_gang_arith.md R100; 04_gang_arith.md R111; 04_gang_arith.md R113). -/
def Obligations.ScalarArithmeticAndImmediates : Prop :=
  (∀ (d a b : BitVec 5) (s : State),
    ScalarWord (.sadd d a b) s d.toNat ((s.src.sreg a.toNat) + (s.src.sreg b.toNat)) ∧
    ScalarWord (.ssub d a b) s d.toNat ((s.src.sreg a.toNat) - (s.src.sreg b.toNat)) ∧
    ScalarWord (.smul d a b) s d.toNat ((s.src.sreg a.toNat) * (s.src.sreg b.toNat)) ∧
    ScalarWord (.smulhI64 d a b) s d.toNat (BitVec.ofInt 64 ((s.src.sreg a.toNat).toInt * (s.src.sreg b.toNat).toInt / 2 ^ 64)) ∧
    ScalarWord (.smulhN64 d a b) s d.toNat (BitVec.ofNat 64 ((s.src.sreg a.toNat).toNat * (s.src.sreg b.toNat).toNat / 2 ^ 64)) ∧
    ScalarWord (.sand d a b) s d.toNat ((s.src.sreg a.toNat) &&& (s.src.sreg b.toNat)) ∧
    ScalarWord (.sor d a b) s d.toNat ((s.src.sreg a.toNat) ||| (s.src.sreg b.toNat)) ∧
    ScalarWord (.sxor d a b) s d.toNat ((s.src.sreg a.toNat) ^^^ (s.src.sreg b.toNat)) ∧
    ScalarWord (.sandn d a b) s d.toNat ((s.src.sreg a.toNat) &&& ~~~(s.src.sreg b.toNat)) ∧
    ScalarWord (.sshl d a b) s d.toNat ((s.src.sreg a.toNat) <<< ((s.src.sreg b.toNat).toNat % 64)) ∧
    ScalarWord (.sshrN64 d a b) s d.toNat ((s.src.sreg a.toNat) >>> ((s.src.sreg b.toNat).toNat % 64)) ∧
    ScalarWord (.sshrI64 d a b) s d.toNat ((s.src.sreg a.toNat).sshiftRight ((s.src.sreg b.toNat).toNat % 64)) ∧
    ScalarWord (.sminI64 d a b) s d.toNat (if (s.src.sreg a.toNat).toInt < (s.src.sreg b.toNat).toInt then (s.src.sreg a.toNat) else (s.src.sreg b.toNat)) ∧
    ScalarWord (.sminN64 d a b) s d.toNat (if (s.src.sreg a.toNat).toNat < (s.src.sreg b.toNat).toNat then (s.src.sreg a.toNat) else (s.src.sreg b.toNat)) ∧
    ScalarWord (.smaxI64 d a b) s d.toNat (if (s.src.sreg a.toNat).toInt < (s.src.sreg b.toNat).toInt then (s.src.sreg b.toNat) else (s.src.sreg a.toNat)) ∧
    ScalarWord (.smaxN64 d a b) s d.toNat (if (s.src.sreg a.toNat).toNat < (s.src.sreg b.toNat).toNat then (s.src.sreg b.toNat) else (s.src.sreg a.toNat)) ∧
    (∀ n : Nat, n = ((List.range 64).filter fun k => (s.src.sreg a.toNat).getLsbD k).length → ScalarWord (.spopc d a) s d.toNat (BitVec.ofNat 64 n)) ∧
    (∀ n : Nat, (n ≤ 64 ∧ (∀ k, 64 - n ≤ k → (s.src.sreg a.toNat).getLsbD k = false) ∧ (n < 64 → (s.src.sreg a.toNat).getLsbD (63 - n) = true)) → ScalarWord (.sclz d a) s d.toNat (BitVec.ofNat 64 n)) ∧
    (∀ n : Nat, (n ≤ 64 ∧ (∀ k < n, (s.src.sreg a.toNat).getLsbD k = false) ∧ (n < 64 → (s.src.sreg a.toNat).getLsbD n = true)) → ScalarWord (.sctz d a) s d.toNat (BitVec.ofNat 64 n)) ∧
    (MayIssue .nop s = true → exec .nop s = .next s)) ∧
  (∀ (d a : BitVec 5) (e : BitVec 12) (f : BitVec 6) (h : BitVec 16) (n : BitVec 5) (v : BitVec 7) (p : BitVec 3) (s : State),
    ScalarWord (.saddi d a e) s d.toNat ((s.src.sreg a.toNat) + e.signExtend 64) ∧
    ScalarWord (.sandi d a e) s d.toNat ((s.src.sreg a.toNat) &&& e.signExtend 64) ∧
    ScalarWord (.sori d a e) s d.toNat ((s.src.sreg a.toNat) ||| e.setWidth 64) ∧
    ScalarWord (.sxori d a e) s d.toNat ((s.src.sreg a.toNat) ^^^ e.setWidth 64) ∧
    ScalarWord (.smuli d a e) s d.toNat ((s.src.sreg a.toNat) * e.signExtend 64) ∧
    ScalarWord (.sshli d a f) s d.toNat ((s.src.sreg a.toNat) <<< f.toNat) ∧
    ScalarWord (.sshriN64 d a f) s d.toNat ((s.src.sreg a.toNat) >>> f.toNat) ∧
    ScalarWord (.sshriI64 d a f) s d.toNat ((s.src.sreg a.toNat).sshiftRight f.toNat) ∧
    ScalarWord (.sli d h) s d.toNat (h.signExtend 64) ∧
    ScalarWord (.sliu d h) s d.toNat (h.setWidth 64) ∧
    (∀ x : Dword, (∀ j < 64, x.getLsbD j = if 0 ≤ j ∧ j < 16 then h.getLsbD (j - 0) else (s.src.sreg d.toNat).getLsbD j) →
      ScalarWord (.sinsH0 d h) s d.toNat x) ∧
    (∀ x : Dword, (∀ j < 64, x.getLsbD j = if 16 ≤ j ∧ j < 32 then h.getLsbD (j - 16) else (s.src.sreg d.toNat).getLsbD j) →
      ScalarWord (.sinsH1 d h) s d.toNat x) ∧
    (∀ x : Dword, (∀ j < 64, x.getLsbD j = if 32 ≤ j ∧ j < 48 then h.getLsbD (j - 32) else (s.src.sreg d.toNat).getLsbD j) →
      ScalarWord (.sinsH2 d h) s d.toNat x) ∧
    (∀ x : Dword, (∀ j < 64, x.getLsbD j = if 48 ≤ j ∧ j < 64 then h.getLsbD (j - 48) else (s.src.sreg d.toNat).getLsbD j) →
      ScalarWord (.sinsH3 d h) s d.toNat x) ∧
    ScalarWord (.vget d n v) s d.toNat ((s.src.vreg v.toNat)[n.toNat].setWidth 64) ∧
    ScalarWord (.pget d p) s d.toNat ((s.src.preg p.toNat).setWidth 64) ∧
    PredWord (.psets a p) s p.toNat ((s.src.sreg a.toNat).setWidth 32))

/-- Scalar division and remainder follow the table of R112; no divide word traps (R112). -/
def Obligations.ScalarDivision : Prop :=
  ∀ (d a b : BitVec 5) (s : State),
    ((s.src.sreg b.toNat) = 0 → ScalarFlag (.sdivI64 d a b) s d.toNat (BitVec.allOnes 64) fZeroDivide) ∧
    ((s.src.sreg b.toNat) ≠ 0 → ((s.src.sreg a.toNat) = BitVec.intMin 64 ∧ (s.src.sreg b.toNat) = BitVec.allOnes 64) → ScalarWord (.sdivI64 d a b) s d.toNat (BitVec.intMin 64)) ∧
    ((s.src.sreg b.toNat) ≠ 0 → ¬((s.src.sreg a.toNat) = BitVec.intMin 64 ∧ (s.src.sreg b.toNat) = BitVec.allOnes 64) → ∃ q : Dword, q.toInt = (s.src.sreg a.toNat).toInt.tdiv (s.src.sreg b.toNat).toInt ∧ ScalarWord (.sdivI64 d a b) s d.toNat q) ∧
    ((s.src.sreg b.toNat) = 0 → ScalarFlag (.sdivN64 d a b) s d.toNat (BitVec.allOnes 64) fZeroDivide) ∧
    ((s.src.sreg b.toNat) ≠ 0 → ∃ q : Dword, q.toNat = (s.src.sreg a.toNat).toNat / (s.src.sreg b.toNat).toNat ∧ ScalarWord (.sdivN64 d a b) s d.toNat q) ∧
    ((s.src.sreg b.toNat) = 0 → ScalarFlag (.sremI64 d a b) s d.toNat (s.src.sreg a.toNat) fZeroDivide) ∧
    ((s.src.sreg b.toNat) ≠ 0 → ∃ r : Dword, r.toInt = (s.src.sreg a.toNat).toInt.tmod (s.src.sreg b.toNat).toInt ∧ ScalarWord (.sremI64 d a b) s d.toNat r) ∧
    ((s.src.sreg b.toNat) = 0 → ScalarFlag (.sremN64 d a b) s d.toNat (s.src.sreg a.toNat) fZeroDivide) ∧
    ((s.src.sreg b.toNat) ≠ 0 → ∃ r : Dword, r.toNat = (s.src.sreg a.toNat).toNat % (s.src.sreg b.toNat).toNat ∧ ScalarWord (.sremN64 d a b) s d.toNat r)

/-- The scalar compares and predicate words of major 0x04 leave the R114 results (04_gang_arith.md R114; 04_gang_arith.md R94). -/
def Obligations.ScalarComparesAndPredicates : Prop :=
  ∀ (d a b : BitVec 5) (x y z : BitVec 3) (s : State),
    ScalarWord (.seq d a b) s d.toNat (if (s.src.sreg a.toNat) = (s.src.sreg b.toNat) then 1 else 0) ∧
    ScalarWord (.sne d a b) s d.toNat (if (s.src.sreg a.toNat) ≠ (s.src.sreg b.toNat) then 1 else 0) ∧
    ScalarWord (.sltI64 d a b) s d.toNat (if (s.src.sreg a.toNat).toInt < (s.src.sreg b.toNat).toInt then 1 else 0) ∧
    ScalarWord (.sleI64 d a b) s d.toNat (if (s.src.sreg a.toNat).toInt ≤ (s.src.sreg b.toNat).toInt then 1 else 0) ∧
    ScalarWord (.sltN64 d a b) s d.toNat (if (s.src.sreg a.toNat).toNat < (s.src.sreg b.toNat).toNat then 1 else 0) ∧
    ScalarWord (.sleN64 d a b) s d.toNat (if (s.src.sreg a.toNat).toNat ≤ (s.src.sreg b.toNat).toNat then 1 else 0) ∧
    PredWord (.pand z x y) s z.toNat ((s.src.preg x.toNat) &&& (s.src.preg y.toNat)) ∧
    PredWord (.por z x y) s z.toNat ((s.src.preg x.toNat) ||| (s.src.preg y.toNat)) ∧
    PredWord (.pxor z x y) s z.toNat ((s.src.preg x.toNat) ^^^ (s.src.preg y.toNat)) ∧
    PredWord (.pandn z x y) s z.toNat ((s.src.preg x.toNat) &&& ~~~(s.src.preg y.toNat)) ∧
    PredWord (.pnot z x) s z.toNat (~~~(s.src.preg x.toNat)) ∧
    (∀ n : Nat, n = ((List.range 32).filter fun k => (s.src.preg x.toNat).getLsbD k).length → ScalarWord (.ppopc d x) s d.toNat (BitVec.ofNat 64 n)) ∧
    (∀ n : Nat, (n ≤ 32 ∧ (∀ k < n, (s.src.preg x.toNat).getLsbD k = false) ∧ (n < 32 → (s.src.preg x.toNat).getLsbD n = true)) → ScalarWord (.pffs d x) s d.toNat (BitVec.ofNat 64 n)) ∧
    PredWord (.pfill z a) s z.toNat (if (s.src.sreg a.toNat) = 0 then 0 else 0xFFFFFFFF)

/-- Vector integer words compute R115 and R116 in every element of their block, saturating where marked (04_gang_arith.md R115;
04_gang_arith.md R98; 04_gang_arith.md R99; 04_gang_arith.md R103; 04_gang_arith.md R104; 04_gang_arith.md R105; 04_gang_arith.md R116;
04_gang_arith.md R107; 04_gang_arith.md R100). -/
def Obligations.VectorIntegerWords : Prop :=
  (∀ (d a b : BitVec 7) (s : State),
    BlockWord (.vaddI32 d a b) false d.toNat a.toNat b.toNat (fun _ _ x y _ _ => (x + y, 0)) s ∧
    BlockWord (.vsubI32 d a b) false d.toNat a.toNat b.toNat (fun _ _ x y _ _ => (x - y, 0)) s ∧
    BlockWord (.vmulI32 d a b) false d.toNat a.toNat b.toNat (fun _ _ x y _ _ => (x * y, 0)) s ∧
    BlockWord (.vmulhI32 d a b) false d.toNat a.toNat b.toNat (fun _ _ x y _ _ => (BitVec.ofInt 32 (x.toInt * y.toInt / 2 ^ 32), 0)) s ∧
    BlockWord (.vmulhN32 d a b) false d.toNat a.toNat b.toNat (fun _ _ x y _ _ => (BitVec.ofNat 32 (x.toNat * y.toNat / 2 ^ 32), 0)) s ∧
    BlockWord (.vandB32 d a b) false d.toNat a.toNat b.toNat (fun _ _ x y _ _ => (x &&& y, 0)) s ∧
    BlockWord (.vorB32 d a b) false d.toNat a.toNat b.toNat (fun _ _ x y _ _ => (x ||| y, 0)) s ∧
    BlockWord (.vxorB32 d a b) false d.toNat a.toNat b.toNat (fun _ _ x y _ _ => (x ^^^ y, 0)) s ∧
    BlockWord (.vandnB32 d a b) false d.toNat a.toNat b.toNat (fun _ _ x y _ _ => (x &&& ~~~y, 0)) s ∧
    BlockWord (.vshlB32 d a b) false d.toNat a.toNat b.toNat (fun _ _ x y _ _ => (x <<< (y.toNat % 32), 0)) s ∧
    BlockWord (.vshrN32 d a b) false d.toNat a.toNat b.toNat (fun _ _ x y _ _ => (x >>> (y.toNat % 32), 0)) s ∧
    BlockWord (.vshrI32 d a b) false d.toNat a.toNat b.toNat (fun _ _ x y _ _ => (x.sshiftRight (y.toNat % 32), 0)) s ∧
    BlockWord (.vminI32 d a b) false d.toNat a.toNat b.toNat (fun _ _ x y _ _ => (if x.slt y then x else y, 0)) s ∧
    BlockWord (.vmaxI32 d a b) false d.toNat a.toNat b.toNat (fun _ _ x y _ _ => (if x.slt y then y else x, 0)) s ∧
    BlockWord (.vminN32 d a b) false d.toNat a.toNat b.toNat (fun _ _ x y _ _ => (if x.ult y then x else y, 0)) s ∧
    BlockWord (.vmaxN32 d a b) false d.toNat a.toNat b.toNat (fun _ _ x y _ _ => (if x.ult y then y else x, 0)) s) ∧
  (∀ (d a b : BitVec 7) (s : State),
    BlockWord (.vaddsI32 d a b) false d.toNat a.toNat b.toNat (fun _ _ x y _ _ => satI 32 (x.toInt + y.toInt)) s ∧
    BlockWord (.vaddsN32 d a b) false d.toNat a.toNat b.toNat (fun _ _ x y _ _ => satN 32 (x.toNat + y.toNat)) s ∧
    BlockWord (.vsubsI32 d a b) false d.toNat a.toNat b.toNat (fun _ _ x y _ _ => satI 32 (x.toInt - y.toInt)) s ∧
    BlockWord (.vsubsN32 d a b) false d.toNat a.toNat b.toNat (fun _ _ x y _ _ => satN 32 ((x.toNat : Int) - y.toNat)) s ∧
    BlockWord (.vabsI32 d a) false d.toNat a.toNat 0 (fun _ _ x _ _ _ => satI 32 x.toInt.natAbs) s ∧
    BlockWord (.vnegI32 d a) false d.toNat a.toNat 0 (fun _ _ x _ _ _ => (-x, 0)) s ∧
    BlockWord (.vpopcB32 d a) false d.toNat a.toNat 0 (fun _ _ x _ _ _ => (BitVec.ofNat 32 ((List.range 32).filter fun k => x.getLsbD k).length, 0)) s ∧
    BlockWord (.vclzB32 d a) false d.toNat a.toNat 0 (fun _ _ x _ _ _ => (BitVec.ofNat 32 (if x = 0 then 32 else 31 - Nat.log2 x.toNat), 0)) s ∧
    BlockWord (.vbrevB32 d a) false d.toNat a.toNat 0 (fun _ _ x _ _ _ => (BitVec.ofFnLE fun k : Fin 32 => x.getLsbD (31 - k.val), 0)) s ∧
    BlockWord (.vmadI32 d a b) false d.toNat a.toNat b.toNat (fun _ _ x y z _ => (z + x * y, 0)) s ∧
    BlockWord (.vabsdN32 d a b) false d.toNat a.toNat b.toNat (fun _ _ x y _ _ => (if x.ult y then y - x else x - y, 0)) s ∧
    BlockWord (.vabsdI32 d a b) false d.toNat a.toNat b.toNat (fun _ _ x y _ _ => (BitVec.ofNat 32 (x.toInt - y.toInt).natAbs, 0)) s ∧
    BlockWord (.vavgN32 d a b) false d.toNat a.toNat b.toNat (fun _ _ x y _ _ => (BitVec.ofNat 32 ((x.toNat + y.toNat + 1) / 2), 0)) s ∧
    BlockWord (.vrotB32 d a b) false d.toNat a.toNat b.toNat (fun _ _ x y _ _ => (x.rotateLeft (y.toNat % 32), 0)) s ∧
    BlockWord (.vdot4I8 d a b) false d.toNat a.toNat b.toNat (fun _ _ x y z _ => (z + BitVec.ofInt 32 (dot4 (fun k => (byteOf x k).toInt) fun k => (byteOf y k).toInt), 0)) s ∧
    BlockWord (.vdot4N8 d a b) false d.toNat a.toNat b.toNat (fun _ _ x y z _ => (z + BitVec.ofNat 32 ((List.range 4).map fun k => (byteOf x k).toNat * (byteOf y k).toNat).sum, 0)) s)

/-- The words of major 0x0C compute R117 field by field, and vperm.b8 picks bytes by its selectors (04_gang_arith.md R117; 04_gang_arith.md
R107; 04_gang_arith.md R100; 04_gang_arith.md R105). -/
def Obligations.VectorPackedInteger : Prop :=
  ∀ (d a b : BitVec 7) (s : State),
    BlockWord (.vaddB16 d a b) false d.toNat a.toNat b.toNat (fun _ _ x y _ _ => fields16 (fun u v => (u + v, 0)) x y) s ∧
    BlockWord (.vsubB16 d a b) false d.toNat a.toNat b.toNat (fun _ _ x y _ _ => fields16 (fun u v => (u - v, 0)) x y) s ∧
    BlockWord (.vaddsI16 d a b) false d.toNat a.toNat b.toNat (fun _ _ x y _ _ => fields16 (fun u v => satI 16 (u.toInt + v.toInt)) x y) s ∧
    BlockWord (.vaddsN16 d a b) false d.toNat a.toNat b.toNat (fun _ _ x y _ _ => fields16 (fun u v => satN 16 (u.toNat + v.toNat)) x y) s ∧
    BlockWord (.vaddB8 d a b) false d.toNat a.toNat b.toNat (fun _ _ x y _ _ => fields8 (fun u v => (u + v, 0)) x y) s ∧
    BlockWord (.vsubB8 d a b) false d.toNat a.toNat b.toNat (fun _ _ x y _ _ => fields8 (fun u v => (u - v, 0)) x y) s ∧
    BlockWord (.vaddsI8 d a b) false d.toNat a.toNat b.toNat (fun _ _ x y _ _ => fields8 (fun u v => satI 8 (u.toInt + v.toInt)) x y) s ∧
    BlockWord (.vaddsN8 d a b) false d.toNat a.toNat b.toNat (fun _ _ x y _ _ => fields8 (fun u v => satN 8 (u.toNat + v.toNat)) x y) s ∧
    BlockWord (.vminI16 d a b) false d.toNat a.toNat b.toNat (fun _ _ x y _ _ => fields16 (fun u v => (if u.slt v then u else v, 0)) x y) s ∧
    BlockWord (.vmaxI16 d a b) false d.toNat a.toNat b.toNat (fun _ _ x y _ _ => fields16 (fun u v => (if u.slt v then v else u, 0)) x y) s ∧
    BlockWord (.vminN8 d a b) false d.toNat a.toNat b.toNat (fun _ _ x y _ _ => fields8 (fun u v => (if u.ult v then u else v, 0)) x y) s ∧
    BlockWord (.vmaxN8 d a b) false d.toNat a.toNat b.toNat (fun _ _ x y _ _ => fields8 (fun u v => (if u.ult v then v else u, 0)) x y) s ∧
    BlockWord (.vshlB16 d a b) false d.toNat a.toNat b.toNat (fun _ _ x y _ _ => fields16 (fun u v => (u <<< (v.toNat % 16), 0)) x y) s ∧
    BlockWord (.vshrN16 d a b) false d.toNat a.toNat b.toNat (fun _ _ x y _ _ => fields16 (fun u v => (u >>> (v.toNat % 16), 0)) x y) s ∧
    BlockWord (.vshrI16 d a b) false d.toNat a.toNat b.toNat (fun _ _ x y _ _ => fields16 (fun u v => (u.sshiftRight (v.toNat % 16), 0)) x y) s ∧
    (∀ op : LaneOp, (∀ q L x y z r, (op q L x y z r).2 = 0 ∧ ∀ k < 4, byteOf (op q L x y z r).1 k =
      if (byteOf z k).getLsbD 7 then 0 else if (byteOf z k).toNat % 8 < 4 then byteOf x ((byteOf z k).toNat % 8) else byteOf y ((byteOf z k).toNat % 8 - 4)) →
      BlockWord (.vpermB8 d a b) false d.toNat a.toNat b.toNat (op) s)

/-- The vector float words of majors 0x0D and 0x0E round the exact result of R118 and R119 once, with their flags (04_gang_arith.md R118;
04_gang_arith.md R119; 04_gang_arith.md R120; 04_gang_arith.md R108; 04_gang_arith.md R105). -/
def Obligations.VectorFloat : Prop :=
  ∀ (d a b : BitVec 7) (s : State),
    BlockWord (.vaddF32 d a b) false d.toNat a.toNat b.toNat (fun _ _ x y _ _ => out32 (xadd (f32 x) (f32 y))) s ∧
    BlockWord (.vsubF32 d a b) false d.toNat a.toNat b.toNat (fun _ _ x y _ _ => out32 (xadd (f32 x) (f32 y).neg)) s ∧
    BlockWord (.vmulF32 d a b) false d.toNat a.toNat b.toNat (fun _ _ x y _ _ => out32 (xmul (f32 x) (f32 y))) s ∧
    BlockWord (.vfmaF32 d a b) false d.toNat a.toNat b.toNat (fun _ _ x y z _ => out32 (xfma (f32 x) (f32 y) (f32 z))) s ∧
    BlockWord (.vfmsF32 d a b) false d.toNat a.toNat b.toNat (fun _ _ x y z _ => out32 (xfma (f32 x).neg (f32 y) (f32 z))) s ∧
    BlockWord (.vminF32 d a b) false d.toNat a.toNat b.toNat (fun _ _ x y _ _ => fMinMax false false x y) s ∧
    BlockWord (.vmaxF32 d a b) false d.toNat a.toNat b.toNat (fun _ _ x y _ _ => fMinMax true false x y) s ∧
    BlockWord (.vabsF32 d a) false d.toNat a.toNat 0 (fun _ _ x _ _ _ => (x &&& 0x7FFFFFFF, 0)) s ∧
    BlockWord (.vnegF32 d a) false d.toNat a.toNat 0 (fun _ _ x _ _ _ => (x ^^^ 0x80000000, 0)) s ∧
    BlockWord (.vdivF32 d a b) false d.toNat a.toNat b.toNat (fun _ _ x y _ _ => out32 (xdiv (f32 x) (f32 y))) s ∧
    BlockWord (.vsqrtF32 d a) false d.toNat a.toNat 0 (fun _ _ x _ _ _ => out32 (xsqrt (f32 x))) s ∧
    BlockWord (.vfloorF32 d a) false d.toNat a.toNat 0 (fun _ _ x _ _ _ => out32 (xintegral .rd (f32 x))) s ∧
    BlockWord (.vceilF32 d a) false d.toNat a.toNat 0 (fun _ _ x _ _ _ => out32 (xintegral .ru (f32 x))) s ∧
    BlockWord (.vtruncF32 d a) false d.toNat a.toNat 0 (fun _ _ x _ _ _ => out32 (xintegral .rz (f32 x))) s ∧
    BlockWord (.vrintF32 d a) false d.toNat a.toNat 0 (fun _ _ x _ _ _ => out32 (xintegral .rne (f32 x))) s ∧
    BlockWord (.vscaleF32 d a b) false d.toNat a.toNat b.toNat (fun _ _ x y _ _ => fScale x y) s ∧
    BlockWord (.vmaxabsF32 d a b) false d.toNat a.toNat b.toNat (fun _ _ x y _ _ => fMinMax true false (x &&& 0x7FFFFFFF) (y &&& 0x7FFFFFFF)) s ∧
    BlockWord (.vcopysignF32 d a b) false d.toNat a.toNat b.toNat (fun _ _ x y _ _ => ((x &&& 0x7FFFFFFF) ||| (y &&& 0x80000000), 0)) s ∧
    BlockWord (.vclassF32 d a) false d.toNat a.toNat 0 (fun _ _ x _ _ _ => (fClass x, 0)) s ∧
    BlockWord (.vexpoF32 d a) false d.toNat a.toNat 0 (fun _ _ x _ _ _ => (fExpo x, 0)) s ∧
    BlockWord (.vminnanF32 d a b) false d.toNat a.toNat b.toNat (fun _ _ x y _ _ => fMinMax false true x y) s ∧
    BlockWord (.vmaxnanF32 d a b) false d.toNat a.toNat b.toNat (fun _ _ x y _ _ => fMinMax true true x y) s

/-- Transcendental words write a value per active lane, the one of R122 on its special inputs (04_gang_arith.md R121; 03_gang_words.md R80;
04_gang_arith.md R122). The bits inside the bound of R47 are free values, log entry 6. -/
def Obligations.TranscendentalWords : Prop :=
  (∀ (d a : BitVec 7) (l : BitVec 4) (s : State),
    LaneResult (.vexp2ApxF32 d a l) s d.toNat (fun L => apxExp2 (s.src.vreg a.toNat)[L]) ∧
    LaneResult (.vlog2ApxF32 d a l) s d.toNat (fun L => apxLog2 (s.src.vreg a.toNat)[L]) ∧
    LaneResult (.vrcpApxF32 d a l) s d.toNat (fun L => apxRcp (s.src.vreg a.toNat)[L]) ∧
    LaneResult (.vrsqrtApxF32 d a l) s d.toNat (fun L => apxRsqrt (s.src.vreg a.toNat)[L])) ∧
  (∀ x : Word,
    (∀ g, isNan32 x = true → (g = apxExp2 ∨ g = apxLog2 ∨ g = apxRcp ∨ g = apxRsqrt) → g x = (0x7FC00000, flagIf (!x.getLsbD 22) fInvalid)) ∧
    (apxExp2 0x7F800000 = (0x7F800000, 0) ∧ apxExp2 0xFF800000 = (0, 0) ∧ apxExp2 0 = (0x3F800000, 0) ∧ apxExp2 0x80000000 = (0x3F800000, 0)) ∧
    (0x43000000 ≤ x.toNat → x.toNat < 0x7F800000 → apxExp2 x = (0x7F800000, 0)) ∧
    (0xC3160000 < x.toNat → x.toNat < 0xFF800000 → apxExp2 x = (0, 0)) ∧
    (apxLog2 0x7F800000 = (0x7F800000, 0) ∧ apxLog2 0 = (0xFF800000, fZeroDivide) ∧ apxLog2 0x80000000 = (0xFF800000, fZeroDivide)) ∧
    (0x80000000 < x.toNat → x.toNat ≤ 0xFF800000 → apxLog2 x = (0x7FC00000, fInvalid) ∧ apxRsqrt x = (0x7FC00000, fInvalid)) ∧
    (apxRcp 0x7F800000 = (0, 0) ∧ apxRcp 0xFF800000 = (0x80000000, 0) ∧ apxRcp 0 = (0x7F800000, fZeroDivide) ∧ apxRcp 0x80000000 = (0xFF800000, fZeroDivide)) ∧
    (apxRsqrt 0x7F800000 = (0, 0) ∧ apxRsqrt 0 = (0x7F800000, fZeroDivide) ∧ apxRsqrt 0x80000000 = (0xFF800000, fZeroDivide)))

/-- The packed BF16 and FP16 words of major 0x10 round each element apart into its own format (04_gang_arith.md R123; 04_gang_arith.md R108;
04_gang_arith.md R109; 04_gang_arith.md R105). -/
def Obligations.VectorPackedFloat : Prop :=
  ∀ (d a b : BitVec 7) (s : State),
    BlockWord (.vaddBf16 d a b) false d.toNat a.toNat b.toNat (fun _ _ x y z _ => packed (fun u v _ => outF bf16 (xadd (bf16.value u) (bf16.value v))) x y z) s ∧
    BlockWord (.vsubBf16 d a b) false d.toNat a.toNat b.toNat (fun _ _ x y z _ => packed (fun u v _ => outF bf16 (xadd (bf16.value u) (bf16.value v).neg)) x y z) s ∧
    BlockWord (.vmulBf16 d a b) false d.toNat a.toNat b.toNat (fun _ _ x y z _ => packed (fun u v _ => outF bf16 (xmul (bf16.value u) (bf16.value v))) x y z) s ∧
    BlockWord (.vfmaBf16 d a b) false d.toNat a.toNat b.toNat (fun _ _ x y z _ => packed (fun u v w => outF bf16 (xfma (bf16.value u) (bf16.value v) (bf16.value w))) x y z) s ∧
    BlockWord (.vminBf16 d a b) false d.toNat a.toNat b.toNat (fun _ _ x y z _ => packed (fun u v _ => pickMinMax bf16 false false u v) x y z) s ∧
    BlockWord (.vmaxBf16 d a b) false d.toNat a.toNat b.toNat (fun _ _ x y z _ => packed (fun u v _ => pickMinMax bf16 true false u v) x y z) s ∧
    BlockWord (.vdot2F32Bf16 d a b) false d.toNat a.toNat b.toNat (fun _ _ x y z _ => fDot2 bf16 x y z) s ∧
    BlockWord (.vaddF16 d a b) false d.toNat a.toNat b.toNat (fun _ _ x y z _ => packed (fun u v _ => outF fp16 (xadd (fp16.value u) (fp16.value v))) x y z) s ∧
    BlockWord (.vsubF16 d a b) false d.toNat a.toNat b.toNat (fun _ _ x y z _ => packed (fun u v _ => outF fp16 (xadd (fp16.value u) (fp16.value v).neg)) x y z) s ∧
    BlockWord (.vmulF16 d a b) false d.toNat a.toNat b.toNat (fun _ _ x y z _ => packed (fun u v _ => outF fp16 (xmul (fp16.value u) (fp16.value v))) x y z) s ∧
    BlockWord (.vfmaF16 d a b) false d.toNat a.toNat b.toNat (fun _ _ x y z _ => packed (fun u v w => outF fp16 (xfma (fp16.value u) (fp16.value v) (fp16.value w))) x y z) s ∧
    BlockWord (.vminF16 d a b) false d.toNat a.toNat b.toNat (fun _ _ x y z _ => packed (fun u v _ => pickMinMax fp16 false false u v) x y z) s ∧
    BlockWord (.vmaxF16 d a b) false d.toNat a.toNat b.toNat (fun _ _ x y z _ => packed (fun u v _ => pickMinMax fp16 true false u v) x y z) s ∧
    BlockWord (.vdot2F32F16 d a b) false d.toNat a.toNat b.toNat (fun _ _ x y z _ => fDot2 fp16 x y z) s

/-- The conversions of major 0x11 round each lane once into their format, as R44 says: the number the mode names, under RNE the nearest
(04_gang_arith.md R124; 04_gang_arith.md R125; 04_gang_arith.md R126; 02_numbers_tensors.md R43; 02_numbers_tensors.md R44;
02_numbers_tensors.md R427; 02_numbers_tensors.md R45; 04_gang_arith.md R105). That E5M2 rounds by R44 where a worked figure of R427 differs
is log entry 26. -/
def Obligations.VectorConversions : Prop :=
  ∀ (d a : BitVec 7) (m : BitVec 3) (k : BitVec 3) (s : State),
    BlockWord (.vcvtF32I32 d a m) (decide (m = 4)) d.toNat a.toNat 0 (fun _ _ x _ _ r => cvtTo fp32 (modeOf m) r (XVal.ofInt x.toInt)) s ∧
    BlockWord (.vcvtF32N32 d a m) (decide (m = 4)) d.toNat a.toNat 0 (fun _ _ x _ _ r => cvtTo fp32 (modeOf m) r (XVal.ofInt x.toNat)) s ∧
    BlockWord (.vcvtI32F32 d a m) (decide (m = 4)) d.toNat a.toNat 0 (fun _ _ x _ _ r => toI32 (modeOf m) r x) s ∧
    BlockWord (.vcvtN32F32 d a m) (decide (m = 4)) d.toNat a.toNat 0 (fun _ _ x _ _ r => toN32 (modeOf m) r x) s ∧
    BlockWord (.vcvtBf16F32 d a m) (decide (m = 4)) d.toNat a.toNat 0 (fun _ _ x _ _ r => cvtTo bf16 (modeOf m) r (f32 x)) s ∧
    BlockWord (.vcvtF16F32 d a m) (decide (m = 4)) d.toNat a.toNat 0 (fun _ _ x _ _ r => cvtTo fp16 (modeOf m) r (f32 x)) s ∧
    BlockWord (.vcvtF32Bf16 d a m) false d.toNat a.toNat 0 (fun _ _ x _ _ _ => out32 (bf16.value (x.toNat % 2 ^ 16), 0)) s ∧
    BlockWord (.vcvtF32F16 d a m) false d.toNat a.toNat 0 (fun _ _ x _ _ _ => out32 (fp16.value (x.toNat % 2 ^ 16), 0)) s ∧
    BlockWord (.vcvtE4m3F32 d a m) (decide (m = 4)) d.toNat a.toNat 0 (fun _ _ x _ _ r => cvtTo e4m3 (modeOf m) r (f32 x)) s ∧
    BlockWord (.vcvtE5m2F32 d a m) (decide (m = 4)) d.toNat a.toNat 0 (fun _ _ x _ _ r => cvtTo e5m2 (modeOf m) r (f32 x)) s ∧
    BlockWord (.vcvtF32E4m3 d a m) false d.toNat a.toNat 0 (fun _ _ x _ _ _ => out32 (e4m3.value (x.toNat % 2 ^ 8), 0)) s ∧
    BlockWord (.vcvtF32E5m2 d a m) false d.toNat a.toNat 0 (fun _ _ x _ _ _ => out32 (e5m2.value (x.toNat % 2 ^ 8), 0)) s ∧
    BlockWord (.vcvthiBf16F32 d a m) (decide (m = 4)) d.toNat a.toNat 0 (fun _ _ x _ z r => ((BitVec.ofNat 16 (cvtTo bf16 (modeOf m) r (f32 x)).1.toNat ++ z.setWidth 16 : Word), (cvtTo bf16 (modeOf m) r (f32 x)).2)) s ∧
    BlockWord (.vcvthiF16F32 d a m) (decide (m = 4)) d.toNat a.toNat 0 (fun _ _ x _ z r => ((BitVec.ofNat 16 (cvtTo fp16 (modeOf m) r (f32 x)).1.toNat ++ z.setWidth 16 : Word), (cvtTo fp16 (modeOf m) r (f32 x)).2)) s ∧
    (∀ e, convFormat (recordOf s (slotIdent s.src k.toNat)) = some e →
      BlockWord (.vcvtNfF32 d a m k) (decide (m = 4)) d.toNat a.toNat 0 (fun _ _ x _ _ r => cvtTo e.fmt (modeOf m) r (f32 x)) s ∧
      BlockWord (.vcvtF32Nf d a m k) false d.toNat a.toNat 0 (fun _ _ x _ _ _ => ((out32 (e.fmt.value (x.toNat % 2 ^ e.fmt.width), 0)).1, 0)) s) ∧
    (∀ (F : Fmt) (mode : RMode) (r : Half) (neg sig : Bool) (n : Nat) (e : Int), F.wf = true →
      (n ≠ 0 → (neg = true → F.s = true) → RoundsTo F mode r neg n e) ∧
      (F.s = false → (n ≠ 0 → F.round mode r (.fin true n e) = (0, fInvalid)) ∧ F.round mode r (.inf true) = (0, fInvalid)) ∧
      F.round mode r (.fin neg 0 e) = (F.signBit neg, 0) ∧ F.round mode r (.nan neg sig) = F.nanResult neg ∧
      ((neg = true → F.s = true) → F.round mode r (.inf neg) = (F.overflowResult neg, 0)))

/-- Conversion from FP32 to an integer saturates by the table of R127, on the value after rounding (04_gang_arith.md R127;
02_numbers_tensors.md R43). -/
def Obligations.FloatToInteger : Prop :=
  ∀ (x : Word) (m : RMode) (r : Half),
    (isNan32 x = true → toI32 m r x = (0, fInvalid) ∧ toN32 m r x = (0, fInvalid)) ∧
    (x = 0x7F800000 → toI32 m r x = (0x7FFFFFFF, fInvalid) ∧ toN32 m r x = (0xFFFFFFFF, fInvalid)) ∧
    (x = 0xFF800000 → toI32 m r x = (0x80000000, fInvalid) ∧ toN32 m r x = (0, fInvalid)) ∧
    (∀ (n : Bool) (k : Nat) (e : Int), f32 x = .fin n k e →
      let v := signed n (intMag m r n k e).1
      let f := flagIf (intMag m r n k e).2 fInexact
      toI32 m r x = (if 2147483647 < v then (0x7FFFFFFF, fInvalid) else if v < -2147483648 then (0x80000000, fInvalid) else (BitVec.ofInt 32 v, f)) ∧
      toN32 m r x = (if 4294967295 < v then (0xFFFFFFFF, fInvalid) else if v < 0 then (0, fInvalid) else (BitVec.ofInt 32 v, f))) ∧
    (∀ (n : Bool) (k q : Nat), intMag m r n (k * 2 ^ q) (-(q : Int)) = (k, false)) ∧
    (∀ (n : Bool) (k q j : Nat), 0 < j → j < 2 ^ q → intMag m r n (k * 2 ^ q + j) (-(q : Int)) =
      (if pickUp m n (k % 2 == 0) ((k + 1) % 2 == 0) j q r then k + 1 else k, true))

/-- The vector compares of major 0x12 write the active bits of a predicate by the relation of R128 (04_gang_arith.md R128; 04_gang_arith.md
R99; 04_gang_arith.md R94). -/
def Obligations.VectorCompares : Prop :=
  ∀ (p : BitVec 3) (a b : BitVec 7) (u v : Word) (s : State),
    LanePred (.vcmpEqB32 p a b) s p.toNat (fun L => (s.src.vreg a.toNat)[L] == (s.src.vreg b.toNat)[L]) ∧
    LanePred (.vcmpNeB32 p a b) s p.toNat (fun L => (s.src.vreg a.toNat)[L] != (s.src.vreg b.toNat)[L]) ∧
    LanePred (.vcmpLtI32 p a b) s p.toNat (fun L => decide ((s.src.vreg a.toNat)[L].toInt < (s.src.vreg b.toNat)[L].toInt)) ∧
    LanePred (.vcmpLeI32 p a b) s p.toNat (fun L => decide ((s.src.vreg a.toNat)[L].toInt ≤ (s.src.vreg b.toNat)[L].toInt)) ∧
    LanePred (.vcmpLtN32 p a b) s p.toNat (fun L => decide ((s.src.vreg a.toNat)[L].toNat < (s.src.vreg b.toNat)[L].toNat)) ∧
    LanePred (.vcmpLeN32 p a b) s p.toNat (fun L => decide ((s.src.vreg a.toNat)[L].toNat ≤ (s.src.vreg b.toNat)[L].toNat)) ∧
    LanePred (.vcmpEqF32 p a b) s p.toNat (fun L => fEq (s.src.vreg a.toNat)[L] (s.src.vreg b.toNat)[L]) ∧
    LanePred (.vcmpNeF32 p a b) s p.toNat (fun L => !fEq (s.src.vreg a.toNat)[L] (s.src.vreg b.toNat)[L]) ∧
    LanePred (.vcmpLtF32 p a b) s p.toNat (fun L => fLt (s.src.vreg a.toNat)[L] (s.src.vreg b.toNat)[L]) ∧
    LanePred (.vcmpLeF32 p a b) s p.toNat (fun L => fLt (s.src.vreg a.toNat)[L] (s.src.vreg b.toNat)[L] || fEq (s.src.vreg a.toNat)[L] (s.src.vreg b.toNat)[L]) ∧
    LanePred (.vcmpUnF32 p a b) s p.toNat (fun L => isNan32 (s.src.vreg a.toNat)[L] || isNan32 (s.src.vreg b.toNat)[L]) ∧
    LanePred (.vtestB32 p a b) s p.toNat (fun L => decide ((s.src.vreg a.toNat)[L] &&& (s.src.vreg b.toNat)[L] ≠ 0)) ∧
    (isNan32 u || isNan32 v → fEq u v = false ∧ fLt u v = false) ∧
    fEq 0 0x80000000 = true ∧ fLt 0x80000000 0 = false ∧
    (isNan32 u = false → isNan32 v = false → (u &&& 0x7FFFFFFF ≠ 0 ∨ v &&& 0x7FFFFFFF ≠ 0) → (fEq u v = true ↔ u = v)) ∧
    (isNan32 u = false → isNan32 v = false → (u &&& 0x7FFFFFFF ≠ 0 ∨ v &&& 0x7FFFFFFF ≠ 0) →
      (fLt u v = true ↔ (if u.getLsbD 31 then (if v.getLsbD 31 then v.toNat < u.toNat else True) else (if v.getLsbD 31 then False else u.toNat < v.toNat))))

/-- Cross-lane words, reductions and scans compute what R148 and R149 say in the active lanes (05_gang_flow_memory.md R148;
05_gang_flow_memory.md R149; 04_gang_arith.md R120). -/
def Obligations.CrossLaneReductionsAndScans : Prop :=
  (∀ (d a b : BitVec 7) (n : BitVec 5) (p q : BitVec 3) (s : State),
    LaneResult (.vshflIdx d a b) s d.toNat (fun L => (laneAt (s.src.vreg a.toNat) ((s.src.vreg b.toNat)[L].toNat % 32), 0)) ∧
    LaneResult (.vshflUp d a n) s d.toNat (fun L => (laneAt (s.src.vreg a.toNat) (if n.toNat ≤ L.val then L.val - n.toNat else L.val), 0)) ∧
    LaneResult (.vshflDown d a n) s d.toNat (fun L => (laneAt (s.src.vreg a.toNat) (if L.val + n.toNat ≤ 31 then L.val + n.toNat else L.val), 0)) ∧
    LaneResult (.vshflXor d a n) s d.toNat (fun L => (laneAt (s.src.vreg a.toNat) (L.val ^^^ n.toNat), 0)) ∧
    LaneResult (.vballot d p) s d.toNat (fun L => (s.src.preg p.toNat &&& s.src.emask, 0)) ∧
    LanePred (.vvoteAll q p) s q.toNat (fun _ => decide (s.src.preg p.toNat &&& s.src.emask = s.src.emask)) ∧
    LanePred (.vvoteAny q p) s q.toNat (fun _ => decide (s.src.preg p.toNat &&& s.src.emask ≠ 0)) ∧
    (∀ f : Fin 32 → Word × Flags, (∀ L, (f L).2 = 0 ∧ ∀ M : Fin 32, (f L).1.getLsbD M = (lane s.src.emask M && decide ((s.src.vreg a.toNat)[M] = (s.src.vreg a.toNat)[L]))) →
      LaneResult (.vmatchB32 d a) s d.toNat f)) ∧
  (∀ (d a : BitVec 7) (s : State),
    LaneResult (.vredAddI32 d a) s d.toNat (fun L => ((activeValues s.src.emask (s.src.vreg a.toNat)).foldl (· + ·) 0, 0)) ∧
    (∀ x, (activeValues s.src.emask (s.src.vreg a.toNat)) ≠ [] → x ∈ (activeValues s.src.emask (s.src.vreg a.toNat)) → (∀ y ∈ (activeValues s.src.emask (s.src.vreg a.toNat)), y.toInt ≤ x.toInt) → LaneResult (.vredMaxI32 d a) s d.toNat (fun L => (x, 0))) ∧
    (∀ x, (activeValues s.src.emask (s.src.vreg a.toNat)) ≠ [] → x ∈ (activeValues s.src.emask (s.src.vreg a.toNat)) → (∀ y ∈ (activeValues s.src.emask (s.src.vreg a.toNat)), x.toInt ≤ y.toInt) → LaneResult (.vredMinI32 d a) s d.toNat (fun L => (x, 0))) ∧
    (s.src.emask = 0 → LaneResult (.vredMaxI32 d a) s d.toNat (fun L => (0, 0)) ∧ LaneResult (.vredMinI32 d a) s d.toNat (fun L => (0, 0))) ∧
    (s.src.emask = 0 → (MayIssue (.vredAddF32 d a) s = true → exec (.vredAddF32 d a) s = .next s) ∧ (MayIssue (.vredMaxF32 d a) s = true → exec (.vredMaxF32 d a) s = .next s)) ∧
    (s.src.emask ≠ 0 → LaneResult (.vredAddF32 d a) s d.toNat (fun _ => out32 (xsum false ((activeValues s.src.emask (s.src.vreg a.toNat)).map f32)))) ∧
    (s.src.emask ≠ 0 → LaneResult (.vredMaxF32 d a) s d.toNat (fun _ => fMaxLanes (activeValues s.src.emask (s.src.vreg a.toNat)))) ∧
    LaneResult (.vscanAddI32 d a) s d.toNat (fun L => ((((lanes32.filter fun M => lane s.src.emask M && decide (M ≤ L)).map fun M => (s.src.vreg a.toNat)[M]).foldl (· + ·) 0), 0)) ∧
    LaneResult (.vscanxAddI32 d a) s d.toNat (fun L => ((((lanes32.filter fun M => lane s.src.emask M && decide (M < L)).map fun M => (s.src.vreg a.toNat)[M]).foldl (· + ·) 0), 0)) ∧
    LaneResult (.vscanAddF32 d a) s d.toNat (fun L => out32 (xsum false ((lanes32.filter fun M => lane s.src.emask M && decide (M ≤ L)).map fun M => f32 (s.src.vreg a.toNat)[M]))))

/-- Move, broadcast, mask, insert and select of major 0x14 leave the R129 results in every element of the block (04_gang_arith.md R129;
04_gang_arith.md R105). -/
def Obligations.SelectBroadcastMove : Prop :=
  ∀ (d a b : BitVec 7) (e : BitVec 14) (k n : BitVec 5) (p : BitVec 3) (s : State),
    BlockWord (.vmov d a) false d.toNat a.toNat 0 (fun _ _ x _ _ _ => (x, 0)) s ∧
    BlockWord (.vli d e) false d.toNat 0 0 (fun _ _ _ _ _ _ => (e.signExtend 32, 0)) s ∧
    BlockWord (.vbcast d k) false d.toNat 0 0 (fun q _ _ _ _ _ => ((q.sreg k.toNat).setWidth 32, 0)) s ∧
    BlockWord (.vbcasth d k) false d.toNat 0 0 (fun q _ _ _ _ _ => ((q.sreg k.toNat >>> 32).setWidth 32, 0)) s ∧
    BlockWord (.vpmask d p) false d.toNat 0 0 (fun q L _ _ _ _ => (if (q.preg p.toNat).getLsbD L then 0xFFFFFFFF else 0, 0)) s ∧
    BlockWord (.vsel d a b p) false d.toNat a.toNat b.toNat (fun q L x y _ _ => (if (q.preg p.toNat).getLsbD L then x else y, 0)) s ∧
    (MayIssue (.vins d k n) s = true → Answers (.vins d k n) s fun t => OnlyRegs s t ∧ t.g.r = { s.g.r with v := t.g.r.v } ∧
      ∀ r (L : Fin 32), (t.g.r.vreg r)[L] = if L.val = n.toNat ∧ ∃ x ∈ (blockFor (.vins d k n) s).offsets, r = d.toNat + x then (s.src.sreg k.toNat).setWidth 32 else (s.g.r.vreg r)[L])

/-- Branches, calls, returns and loop counters move the program counter to slot 0 of their target packet (05_gang_flow_memory.md R132;
05_gang_flow_memory.md R137; 03_gang_words.md R69). -/
def Obligations.BranchesCallsLoops : Prop :=
  ∀ (o : BitVec 20) (k : BitVec 3) (s : State),
    (MayIssue (.br o) s = true → Answers (.br o) s fun t => Jumps s (s.g.cur.packet + o.signExtend 32) t) ∧
    (MayIssue (.call o) s = true → Answers (.call o) s fun t => ∃ u, SetsScalar s u 31 ((s.g.cur.packet + 1).setWidth 64) 0 ∧ Jumps u (s.g.cur.packet + o.signExtend 32) t) ∧
    (MayIssue .ret s = true → Answers .ret s fun t => Jumps s ((s.src.sreg 31).setWidth 32) t) ∧
    (MayIssue .callr s = true → Answers .callr s fun t => ∃ u, SetsScalar s u 31 ((s.g.cur.packet + 1).setWidth 64) 0 ∧ Jumps u ((s.src.sreg 30).setWidth 32) t) ∧
    (MayIssue (.dbnz k o) s = true → Answers (.dbnz k o) s fun t => ∃ u, SetsScalar s u (16 + k.toNat) ((s.src.sreg (16 + k.toNat)) - 1) 0 ∧ if (s.src.sreg (16 + k.toNat)) - 1 ≠ 0 then Jumps u (s.g.cur.packet + o.signExtend 32) t else t = u) ∧
    (MayIssue (.bz k o) s = true → Answers (.bz k o) s fun t => if (s.src.sreg (16 + k.toNat)) = 0 then Jumps s (s.g.cur.packet + o.signExtend 32) t else t = s) ∧
    (MayIssue (.bnz k o) s = true → Answers (.bnz k o) s fun t => if (s.src.sreg (16 + k.toNat)) ≠ 0 then Jumps s (s.g.cur.packet + o.signExtend 32) t else t = s)

/-- The predicated branches are taken by the test of R133 on P[k] and the mask, by the whole gang (R133). -/
def Obligations.PredicatedBranches : Prop :=
  ∀ (p : BitVec 3) (o : BitVec 20) (s : State),
    (MayIssue (.bany p o) s = true → Answers (.bany p o) s fun t => if (s.src.preg p.toNat &&& s.src.emask) ≠ 0 then Jumps s (s.g.cur.packet + o.signExtend 32) t else t = s) ∧
    (MayIssue (.ball p o) s = true → Answers (.ball p o) s fun t => if (s.src.preg p.toNat &&& s.src.emask) = s.src.emask then Jumps s (s.g.cur.packet + o.signExtend 32) t else t = s) ∧
    (MayIssue (.bnone p o) s = true → Answers (.bnone p o) s fun t => if (s.src.preg p.toNat &&& s.src.emask) = 0 then Jumps s (s.g.cur.packet + o.signExtend 32) t else t = s) ∧
    (MayIssue (.bnall p o) s = true → Answers (.bnall p o) s fun t => if (s.src.preg p.toNat &&& s.src.emask) ≠ s.src.emask then Jumps s (s.g.cur.packet + o.signExtend 32) t else t = s)

/-- split, else and join move lanes through the divergence stack as R134 says, and trap on overflow and underflow (R134). -/
def Obligations.DivergenceWords : Prop :=
  ∀ (p : BitVec 3) (o : BitVec 20) (s : State),
    (MayIssue (.split p o) s = true →
      if s.src.dstack.length = 16 then exec (.split p o) s = .next (takeTrap 11 1 (BitVec.ofNat 96 s.src.dstack.length) 0 0 s.g.cur s)
      else Answers (.split p o) s fun t => if (s.src.preg p.toNat &&& s.src.emask) = 0 then Jumps (s.setR (fun r => { r with dstack := (s.src.emask ++ (s.src.preg p.toNat &&& s.src.emask)) :: s.src.dstack, emask := (s.src.preg p.toNat &&& s.src.emask) })) (s.g.cur.packet + o.signExtend 32) t
        else t = s.setR (fun r => { r with dstack := (s.src.emask ++ (s.src.preg p.toNat &&& s.src.emask)) :: s.src.dstack, emask := (s.src.preg p.toNat &&& s.src.emask) })) ∧
    (MayIssue (.elseArm o) s = true →
      (s.src.dstack = [] → exec (.elseArm o) s = .next (takeTrap 11 2 (BitVec.ofNat 96 s.src.dstack.length) 0 0 s.g.cur s)) ∧
      ∀ outer arm rest, s.src.dstack = (outer ++ arm : Dword) :: rest → Answers (.elseArm o) s fun t =>
        if outer &&& ~~~arm = 0 then Jumps (s.setR (fun r => { r with dstack := (outer ++ (outer &&& ~~~arm)) :: rest, emask := outer &&& ~~~arm })) (s.g.cur.packet + o.signExtend 32) t
        else t = s.setR (fun r => { r with dstack := (outer ++ (outer &&& ~~~arm)) :: rest, emask := outer &&& ~~~arm })) ∧
    (MayIssue .join s = true →
      (s.src.dstack = [] → exec .join s = .next (takeTrap 11 2 (BitVec.ofNat 96 s.src.dstack.length) 0 0 s.g.cur s)) ∧
      ∀ (outer arm : Word) rest, s.src.dstack = (outer ++ arm : Dword) :: rest → exec .join s = .next (s.setR (fun r => { r with dstack := rest, emask := outer })))

/-- mand, mandn, dspop, dspush and dsdepth have the effects of R135 on the mask and the divergence stack (05_gang_flow_memory.md R135;
05_gang_flow_memory.md R170). -/
def Obligations.MaskWords : Prop :=
  ∀ (p : BitVec 3) (d a : BitVec 5) (s : State),
    (MayIssue (.mand p) s = true → exec (.mand p) s = .next (s.setR fun r => { r with emask := s.src.emask &&& s.src.preg p.toNat })) ∧
    (MayIssue (.mandn p) s = true → exec (.mandn p) s = .next (s.setR fun r => { r with emask := s.src.emask &&& ~~~(s.src.preg p.toNat) })) ∧
    (MayIssue (.dspop d) s = true → (s.src.dstack = [] → exec (.dspop d) s = .next (takeTrap 11 2 (BitVec.ofNat 96 s.src.dstack.length) 0 0 s.g.cur s)) ∧
      ∀ e rest, s.src.dstack = e :: rest → Answers (.dspop d) s fun t => SetsScalar (s.setR fun r => { r with dstack := rest }) t d.toNat e 0) ∧
    (MayIssue (.dspush a) s = true → if s.src.dstack.length = 16 then exec (.dspush a) s = .next (takeTrap 11 1 (BitVec.ofNat 96 s.src.dstack.length) 0 0 s.g.cur s)
      else exec (.dspush a) s = .next (s.setR fun r => { r with dstack := s.src.sreg a.toNat :: s.src.dstack })) ∧
    ScalarWord (.dsdepth d) s d.toNat (BitVec.ofNat 64 s.src.dstack.length)

/-- mfs and mfsv return every special register; mts and mtsv write every writable one, and nothing else (04_gang_arith.md R97;
04_gang_arith.md R98; 04_gang_arith.md R101; 04_gang_arith.md R102; 06_gang_traps.md R176; 06_gang_traps.md R174; 04_gang_arith.md R100;
02_numbers_tensors.md R45). What a reading of %clk or %ecl stands off is a free value, log entry 7; the zero replaced in the write log entry
76, and bits 7:6 of %xstat log entry 27. -/
def Obligations.SpecialRegisterMoves : Prop :=
  (∀ (d : BitVec 5) (v : BitVec 5) (s : State),
    ScalarWord (.mfs d 0x000) s d.toNat (s.src.emask.setWidth 64) ∧
    ScalarWord (.mfs d 0x001) s d.toNat (s.src.blk.setWidth 64) ∧
    ScalarWord (.mfs d 0x002) s d.toNat (s.src.xstat.setWidth 64) ∧
    (∀ k : Fin 8, ScalarWord (.mfs d (0x010 + BitVec.ofNat 12 k.val)) s d.toNat (s.src.tslot[k].setWidth 64)) ∧
    ScalarWord (.mfs d 0x021) s d.toNat (s.g.gangNo.setWidth 64) ∧
    ScalarWord (.mfs d 0x022) s d.toNat (s.g.crewNo.setWidth 64) ∧
    ScalarWord (.mfs d 0x023) s d.toNat (s.g.ens.setWidth 64) ∧
    ScalarWord (.mfs d 0x024) s d.toNat (s.g.stage.setWidth 64) ∧
    ScalarWord (.mfs d 0x025) s d.toNat (s.g.node.setWidth 64) ∧
    ScalarWord (.mfs d 0x026) s d.toNat (s.g.die.setWidth 64) ∧
    ScalarWord (.mfs d 0x027) s d.toNat (s.g.core.setWidth 64) ∧
    ScalarWord (.mfs d 0x028) s d.toNat (s.pkg.setWidth 64) ∧
    ScalarWord (.mfs d 0x040) s d.toNat (s.src.tcause.setWidth 64) ∧
    ScalarWord (.mfs d 0x041) s d.toNat (s.src.tdet0.setWidth 64) ∧
    ScalarWord (.mfs d 0x042) s d.toNat (s.src.tdet1.setWidth 64) ∧
    ScalarWord (.mfs d 0x043) s d.toNat (s.src.tdet2.setWidth 64) ∧
    ScalarWord (.mfs d 0x044) s d.toNat (s.src.tpc.setWidth 64) ∧
    ScalarWord (.mfs d 0x045) s d.toNat (s.src.tlanes.setWidth 64) ∧
    ScalarWord (.mfs d 0x046) s d.toNat (s.src.tslots.setWidth 64) ∧
    (∀ e : Fin 4, ScalarWord (.mfs d (0x048 + BitVec.ofNat 12 e.val)) s d.toNat (BitVec.ofNat 64 (s.srcOlog[e]).bits)) ∧
    (MayIssue (.mfs d 0x005) s = true → Answers (.mfs d 0x005) s fun t => ∃ v, s.clkFloor ≤ v ∧ s.clk ≤ v ∧ v ≤ max s.clkFloor (s.clk + 63) ∧
      SetsScalar { s with clkFloor := v, tick := s.tick + 1 } t d.toNat (BitVec.ofNat 64 v) 0) ∧
    (MayIssue (.mfs d 0x004) s = true → Answers (.mfs d 0x004) s fun t => ∃ n : Nat,
      (((s.eclipseNow s.g.die.toNat).next - s.clk : Nat) : Int) - 64 ≤ n ∧ n ≤ ((s.eclipseNow s.g.die.toNat).next - s.clk) + 64 ∧
      SetsScalar { s with tick := s.tick + 1 } t d.toNat (BitVec.ofNat 64 ((if (s.eclipseNow s.g.die.toNat).isOpen s then
        (s.eclipseNow s.g.die.toNat).bank.toNat + 16 else ((s.eclipseNow s.g.die.toNat).bank + 1).toNat) + n % 2 ^ 20 * 2 ^ 8)) 0) ∧
    (MayIssue (.mfsv v 0x003) s = true → Answers (.mfsv v 0x003) s fun t => SetsLanes (.mfsv v 0x003) s t v.toNat fun L => (s.src.srnd[L].setWidth 32, 0)) ∧
    (MayIssue (.mfsv v 0x020) s = true → Answers (.mfsv v 0x020) s fun t => SetsLanes (.mfsv v 0x020) s t v.toNat fun L => (BitVec.ofNat 32 L.val, 0))) ∧
  (∀ (a v : BitVec 5) (s : State),
    (MayIssue (.mts a 0x000) s = true → exec (.mts a 0x000) s = .next (s.setR fun r => { r with emask := (s.src.sreg a.toNat).setWidth 32 })) ∧
    (MayIssue (.mts a 0x001) s = true → exec (.mts a 0x001) s = .next (s.setR fun r => { r with blk := (s.src.sreg a.toNat).setWidth 11 })) ∧
    (MayIssue (.mts a 0x002) s = true → exec (.mts a 0x002) s = .next (s.setR fun r => { r with xstat := (s.src.sreg a.toNat).setWidth 9 &&& 0x13F })) ∧
    (∀ k : Fin 8, k ≠ 0 → MayIssue (.mts a (0x010 + BitVec.ofNat 12 k.val)) s = true →
      exec (.mts a (0x010 + BitVec.ofNat 12 k.val)) s = .next (s.setR fun r => { r with tslot := r.tslot.set k ((s.src.sreg a.toNat).setWidth 8) })) ∧
    (MayIssue (.mts a 0x010) s = true → exec (.mts a 0x010) s = .next s) ∧
    (MayIssue (.mts a 0x040) s = true → exec (.mts a 0x040) s = .next (s.setR fun r => { r with tcause := (s.src.sreg a.toNat).setWidth 13 })) ∧
    (MayIssue (.mts a 0x041) s = true → exec (.mts a 0x041) s = .next (s.setR fun r => { r with tdet0 := (s.src.sreg a.toNat).setWidth 32 })) ∧
    (MayIssue (.mts a 0x042) s = true → exec (.mts a 0x042) s = .next (s.setR fun r => { r with tdet1 := (s.src.sreg a.toNat).setWidth 32 })) ∧
    (MayIssue (.mts a 0x043) s = true → exec (.mts a 0x043) s = .next (s.setR fun r => { r with tdet2 := (s.src.sreg a.toNat).setWidth 32 })) ∧
    (MayIssue (.mts a 0x044) s = true → exec (.mts a 0x044) s = .next (s.setR fun r => { r with tpc := (s.src.sreg a.toNat).setWidth 34 })) ∧
    (MayIssue (.mts a 0x045) s = true → exec (.mts a 0x045) s = .next (s.setR fun r => { r with tlanes := (s.src.sreg a.toNat).setWidth 32 })) ∧
    (MayIssue (.mts a 0x046) s = true → exec (.mts a 0x046) s = .next (s.setR fun r => { r with tslots := (s.src.sreg a.toNat).setWidth 39 })) ∧
    (∀ e : Fin 4, MayIssue (.mts a (0x048 + BitVec.ofNat 12 e.val)) s = true → exec (.mts a (0x048 + BitVec.ofNat 12 e.val)) s =
      .next (s.setG fun g => { g with olog := g.olog.set e { g.olog[e] with replay := (s.src.sreg a.toNat).getLsbD 36 } })) ∧
    (MayIssue (.mtsv v 0x003) s = true → Answers (.mtsv v 0x003) s fun t => OnlyRegs s t ∧ t.g.r = { s.g.r with srnd := t.g.r.srnd } ∧
      ∀ L : Fin 32, t.g.r.srnd[L] = if lane s.src.emask L then (if (s.src.vreg v.toNat)[L].setWidth 16 = (0 : Half) then 1 else (s.src.vreg v.toNat)[L].setWidth 16) else s.g.r.srnd[L]))

/-- sld, sst, ld and st read and write memory lane by lane, once or per active lane, through a record where a slot is named
(05_gang_flow_memory.md R144; 05_gang_flow_memory.md R138; 05_gang_flow_memory.md R139; 05_gang_flow_memory.md R140; 02_numbers_tensors.md
R62; 05_gang_flow_memory.md R143; 05_gang_flow_memory.md R141). -/
def Obligations.UniformAndVectorLoadsAndStores : Prop :=
  (∀ (v a b : BitVec 5) (t : BitVec 3) (l : BitVec 4) (R : Rec) (s : State),
    LogWord (.sldB64 v a b l) (capUniform (mopUniform (.load false) 8 0 v.toNat) a.toNat b.toNat 0 s) (fun _ => loadLane (s.src.sreg a.toNat + s.src.sreg b.toNat).toNat 8 (putS v.toNat)) s ∧
    LogWord (.sldN32 v a b l) (capUniform (mopUniform (.load false) 4 0 v.toNat) a.toNat b.toNat 0 s) (fun _ => loadLane (s.src.sreg a.toNat + s.src.sreg b.toNat).toNat 4 (putS v.toNat)) s ∧
    LogWord (.sldI32 v a b l) (capUniform (mopUniform (.load true) 4 0 v.toNat) a.toNat b.toNat 0 s) (fun _ => loadLane (s.src.sreg a.toNat + s.src.sreg b.toNat).toNat 4 (putSx v.toNat)) s ∧
    TrapsWith (.sldNf v a b 0 l) s 5 4 (wordDetail s.curWord s.g.place) ∧
    (t ≠ 0 → recordFields (recordOf s (slotIdent s.src t.toNat)) = some R → LogRun (.sldNf v a b t l) (capUniform (mopUniform (.load false) 4 t.toNat v.toNat) a.toNat b.toNat 0 s) (fun k _ => elemLoadLane R k (s.src.sreg a.toNat + s.src.sreg b.toNat).toNat (putS v.toNat)) s) ∧
    LogWord (.sstB64 v a b l) (capUniform (mopUniform .store 8 0 0) a.toNat b.toNat v.toNat s) (fun _ => storeLane (s.src.sreg a.toNat + s.src.sreg b.toNat).toNat 8 (s.src.sreg v.toNat).toNat) s ∧
    LogWord (.sstB32 v a b l) (capUniform (mopUniform .store 4 0 0) a.toNat b.toNat v.toNat s) (fun _ => storeLane (s.src.sreg a.toNat + s.src.sreg b.toNat).toNat 4 (s.src.sreg v.toNat).toNat) s ∧
    TrapsWith (.sstNf v a b 0 l) s 5 4 (wordDetail s.curWord s.g.place) ∧
    (t ≠ 0 → recordFields (recordOf s (slotIdent s.src t.toNat)) = some R → LogWord (.sstNf v a b t l) (capUniform (mopUniform .store 4 t.toNat 0) a.toNat b.toNat v.toNat s) (fun _ => elemStoreLane R (s.src.sreg a.toNat + s.src.sreg b.toNat).toNat (s.src.sreg v.toNat).toNat) s)) ∧
  (∀ (v a : BitVec 7) (b : BitVec 4) (t : BitVec 3) (l : BitVec 4) (R : Rec) (s : State),
    LogWord (.ldB32 v a b l) (capVector (mop (.load false) 4 0 v.toNat) a.toNat b.toNat [] s) (fun L => loadLane (laneAddr s a.toNat b.toNat L) 4 (put32 v.toNat L)) s ∧
    LogWord (.ldNf v a b 0 l) (capVector (mop (.load false) 4 0 v.toNat) a.toNat b.toNat [] s) (fun L => loadLane (laneAddr s a.toNat b.toNat L) 4 (put32 v.toNat L)) s ∧
    (t ≠ 0 → recordFields (recordOf s (slotIdent s.src t.toNat)) = some R → LogRun (.ldNf v a b t l) (capVector (mop (.load false) 4 t.toNat v.toNat) a.toNat b.toNat [] s) (fun k L => elemLoadLane R k (laneAddr s a.toNat b.toNat L) (put32 v.toNat L)) s) ∧
    LogWord (.stB32 v a b l) (capVector (mop .store 4 0 0) a.toNat b.toNat [v.toNat] s) (fun L => storeLane (laneAddr s a.toNat b.toNat L) 4 (s.src.vreg v.toNat)[L].toNat) s ∧
    LogWord (.stNf v a b 0 l) (capVector (mop .store 4 0 0) a.toNat b.toNat [v.toNat] s) (fun L => storeLane (laneAddr s a.toNat b.toNat L) 4 (s.src.vreg v.toNat)[L].toNat) s ∧
    (t ≠ 0 → recordFields (recordOf s (slotIdent s.src t.toNat)) = some R → LogWord (.stNf v a b t l) (capVector (mop .store 4 t.toNat 0) a.toNat b.toNat [v.toNat] s) (fun L => elemStoreLane R (laneAddr s a.toNat b.toNat L) (s.src.vreg v.toNat)[L].toNat) s))

/-- pld and pst act on the scratchpad lane by lane; ldtr returns the transposed rows (05_gang_flow_memory.md R145; 05_gang_flow_memory.md
R146; 05_gang_flow_memory.md R138; 05_gang_flow_memory.md R141; 01_engines.md R25; 01_engines.md R31; 05_gang_flow_memory.md R147). -/
def Obligations.ScratchpadLoadsStoresAndTransposes : Prop :=
  (∀ (v a : BitVec 7) (t : BitVec 3) (l : BitVec 4) (R : Rec) (s : State),
    LogWord (.pldB32 v a l) (capVector (mopWindow (.load false) 4 0 v.toNat) a.toNat 0 [] s) (fun L => padLoadLane (s.src.vreg a.toNat)[L].toNat 4 (put32 v.toNat L)) s ∧
    LogWord (.pldNf v a 0 l) (capVector (mopWindow (.load false) 4 0 v.toNat) a.toNat 0 [] s) (fun L => padLoadLane (s.src.vreg a.toNat)[L].toNat 4 (put32 v.toNat L)) s ∧
    (t ≠ 0 → recordFields (recordOf s (slotIdent s.src t.toNat)) = some R → LogWord (.pldNf v a t l) (capVector (mopWindow (.load false) 4 t.toNat v.toNat) a.toNat 0 [] s) (fun L => padLoadLane (swizzle R.swz (s.src.vreg a.toNat)[L].toNat) R.cbytes (fun x s => put32 v.toNat L (padElem R x).1 (s.flag (padElem R x).2))) s) ∧
    LogWord (.pldB64 v a l) (capVector (mopWindow (.load false) 8 0 v.toNat) a.toNat 0 [] s) (fun L => padLoadLane (s.src.vreg a.toNat)[L].toNat 8 (put64 v.toNat L)) s ∧
    LogWord (.pstB32 v a l) (capVector (mopWindow .store 4 0 0) a.toNat 0 [v.toNat] s) (fun L => padStoreLane (s.src.vreg a.toNat)[L].toNat 4 (s.src.vreg v.toNat)[L].toNat) s ∧
    LogWord (.pstNf v a 0 l) (capVector (mopWindow .store 4 0 0) a.toNat 0 [v.toNat] s) (fun L => padStoreLane (s.src.vreg a.toNat)[L].toNat 4 (s.src.vreg v.toNat)[L].toNat) s ∧
    (t ≠ 0 → recordFields (recordOf s (slotIdent s.src t.toNat)) = some R → LogWord (.pstNf v a t l) (capVector (mopWindow .store 4 t.toNat 0) a.toNat 0 [v.toNat] s) (fun L s1 => (padStoreLane (swizzle R.swz (s.src.vreg a.toNat)[L].toNat) R.cbytes (R.elem.fmt.round .rne 0 (f32 (s.src.vreg v.toNat)[L])).1 s1).map fun u => u.flag (R.elem.fmt.round .rne 0 (f32 (s.src.vreg v.toNat)[L])).2) s) ∧
    LogWord (.pstB64 v a l) (capVector (mopWindow .store 8 0 0) a.toNat 0 (run v.toNat 2) s) (fun L => padStoreLane (s.src.vreg a.toNat)[L].toNat 8 ((s.src.vreg v.toNat)[L].toNat + (s.src.vreg (v.toNat + 1))[L].toNat * 2 ^ 32)) s) ∧
  (∀ (d a : BitVec 7) (t : BitVec 3) (l : BitVec 4) (R : Option Rec) (key : Fin 32 → Nat) (e : Nat) (s : State),
    (MayIssue (.ldtrB8 d a t l) s = true → Tr s t.toNat a.toNat 1 R key → s.inFlight = false →
      Clear s (capVector (mopWindow (.ldtr 1) 4 t.toNat d.toNat) a.toNat 0 [] s) e → s.src.emask ≠ 0 →
      ∃ u, exec (.ldtrB8 d a t l) s = .next (Opens (.ldtrB8 d a t l) ({ s with nextId := s.nextId + 1, g := { s.g with r := u } }.setG fun g => g.setEntry e LogEntry.empty)) ∧
        u = { s.g.r with v := u.v } ∧ ∀ r (L : Fin 32), (u.vreg r)[L] =
          if lane s.src.emask L = true ∧ d.toNat ≤ r ∧ r < d.toNat + 1 then trRegister s.spad s.src.emask key 1 (r - d.toNat) L else (s.g.r.vreg r)[L]) ∧
    (MayIssue (.ldtrB16 d a t l) s = true → Tr s t.toNat a.toNat 2 R key → s.inFlight = false →
      Clear s (capVector (mopWindow (.ldtr 2) 4 t.toNat d.toNat) a.toNat 0 [] s) e → s.src.emask ≠ 0 →
      ∃ u, exec (.ldtrB16 d a t l) s = .next (Opens (.ldtrB16 d a t l) ({ s with nextId := s.nextId + 1, g := { s.g with r := u } }.setG fun g => g.setEntry e LogEntry.empty)) ∧
        u = { s.g.r with v := u.v } ∧ ∀ r (L : Fin 32), (u.vreg r)[L] =
          if lane s.src.emask L = true ∧ d.toNat ≤ r ∧ r < d.toNat + 2 then trRegister s.spad s.src.emask key 2 (r - d.toNat) L else (s.g.r.vreg r)[L]) ∧
    (MayIssue (.ldtrB32 d a t l) s = true → Tr s t.toNat a.toNat 4 R key → s.inFlight = false →
      Clear s (capVector (mopWindow (.ldtr 4) 4 t.toNat d.toNat) a.toNat 0 [] s) e → s.src.emask ≠ 0 →
      ∃ u, exec (.ldtrB32 d a t l) s = .next (Opens (.ldtrB32 d a t l) ({ s with nextId := s.nextId + 1, g := { s.g with r := u } }.setG fun g => g.setEntry e LogEntry.empty)) ∧
        u = { s.g.r with v := u.v } ∧ ∀ r (L : Fin 32), (u.vreg r)[L] =
          if lane s.src.emask L = true ∧ d.toNat ≤ r ∧ r < d.toNat + 4 then trRegister s.spad s.src.emask key 4 (r - d.toNat) L else (s.g.r.vreg r)[L]))

/-- A completed scratchpad load or store changes its destination lanes or its stored bytes, and no other register or byte
(05_gang_flow_memory.md R145; 05_gang_flow_memory.md R138; 04_gang_arith.md R99). -/
def Obligations.ScratchpadFrame : Prop :=
  ∀ (v a : BitVec 7) (l : BitVec 4) (s t : State) (e n : Nat),
    s.memOk → s.inFlight = false → s.g.freeEntry = some e → (s.g.log.toList.all fun x => x.state = .free) = true →
    (∀ L, lane s.src.emask L = true → (s.src.vreg a.toNat)[L].toNat % n = 0 ∧ (spadKey s (s.src.vreg a.toNat)[L].toNat).isOk = true) →
    ((n = 4 → MayIssue (.pstB32 v a l) s = true → exec (.pstB32 v a l) s = .next t → StoredPad s t a.toNat n e) ∧
     (n = 8 → MayIssue (.pstB64 v a l) s = true → exec (.pstB64 v a l) s = .next t → StoredPad s t a.toNat n e) ∧
     (n = 4 → MayIssue (.pldB32 v a l) s = true → exec (.pldB32 v a l) s = .next t → LoadedPad s t v.toNat 1 e) ∧
     (n = 8 → MayIssue (.pldB64 v a l) s = true → exec (.pldB64 v a l) s = .next t → LoadedPad s t v.toNat 2 e))

/-- Every atomic performs its operation of R151 in ascending lane order at its scope's point or in the scratchpad (05_gang_flow_memory.md
R150; 05_gang_flow_memory.md R151; 05_gang_flow_memory.md R152; 05_gang_flow_memory.md R153; 05_gang_flow_memory.md R154; 01_engines.md
R31). -/
def Obligations.AtomicsAndReductions : Prop :=
  (∀ (a : BitVec 7) (sc : BitVec 3) (b : BitVec 4) (w : BitVec 2) (l : BitVec 4) (s : State),
    LogWord (.atomAdd a sc b w l) (capAtomic false 0 true w.toNat sc.toNat a.toNat b.toNat s) (fun L => atomLane (scopeOf sc.toNat) true 0 (runValue s w.toNat (a.toNat + 1) L) (laneAddr s a.toNat b.toNat L) (widthOf w.toNat) (fun o => newAdd (widthOf w.toNat) o (runValue s w.toNat (a.toNat + 1) L)) (putW w.toNat (a.toNat + 1) L)) s ∧
    LogWord (.redAdd a sc b w l) (capAtomic false 0 false w.toNat sc.toNat a.toNat b.toNat s) (fun L => atomLane (scopeOf sc.toNat) false 0 (runValue s w.toNat (a.toNat + 1) L) (laneAddr s a.toNat b.toNat L) (widthOf w.toNat) (fun o => newAdd (widthOf w.toNat) o (runValue s w.toNat (a.toNat + 1) L)) (putW w.toNat (a.toNat + 1) L)) s ∧
    LogWord (.atomAnd a sc b w l) (capAtomic false 1 true w.toNat sc.toNat a.toNat b.toNat s) (fun L => atomLane (scopeOf sc.toNat) true 1 (runValue s w.toNat (a.toNat + 1) L) (laneAddr s a.toNat b.toNat L) (widthOf w.toNat) (fun o => o &&& (runValue s w.toNat (a.toNat + 1) L)) (putW w.toNat (a.toNat + 1) L)) s ∧
    LogWord (.redAnd a sc b w l) (capAtomic false 1 false w.toNat sc.toNat a.toNat b.toNat s) (fun L => atomLane (scopeOf sc.toNat) false 1 (runValue s w.toNat (a.toNat + 1) L) (laneAddr s a.toNat b.toNat L) (widthOf w.toNat) (fun o => o &&& (runValue s w.toNat (a.toNat + 1) L)) (putW w.toNat (a.toNat + 1) L)) s ∧
    LogWord (.atomOr a sc b w l) (capAtomic false 2 true w.toNat sc.toNat a.toNat b.toNat s) (fun L => atomLane (scopeOf sc.toNat) true 2 (runValue s w.toNat (a.toNat + 1) L) (laneAddr s a.toNat b.toNat L) (widthOf w.toNat) (fun o => o ||| (runValue s w.toNat (a.toNat + 1) L)) (putW w.toNat (a.toNat + 1) L)) s ∧
    LogWord (.redOr a sc b w l) (capAtomic false 2 false w.toNat sc.toNat a.toNat b.toNat s) (fun L => atomLane (scopeOf sc.toNat) false 2 (runValue s w.toNat (a.toNat + 1) L) (laneAddr s a.toNat b.toNat L) (widthOf w.toNat) (fun o => o ||| (runValue s w.toNat (a.toNat + 1) L)) (putW w.toNat (a.toNat + 1) L)) s ∧
    LogWord (.atomXor a sc b w l) (capAtomic false 3 true w.toNat sc.toNat a.toNat b.toNat s) (fun L => atomLane (scopeOf sc.toNat) true 3 (runValue s w.toNat (a.toNat + 1) L) (laneAddr s a.toNat b.toNat L) (widthOf w.toNat) (fun o => o ^^^ (runValue s w.toNat (a.toNat + 1) L)) (putW w.toNat (a.toNat + 1) L)) s ∧
    LogWord (.redXor a sc b w l) (capAtomic false 3 false w.toNat sc.toNat a.toNat b.toNat s) (fun L => atomLane (scopeOf sc.toNat) false 3 (runValue s w.toNat (a.toNat + 1) L) (laneAddr s a.toNat b.toNat L) (widthOf w.toNat) (fun o => o ^^^ (runValue s w.toNat (a.toNat + 1) L)) (putW w.toNat (a.toNat + 1) L)) s ∧
    LogWord (.atomMinI a sc b w l) (capAtomic false 4 true w.toNat sc.toNat a.toNat b.toNat s) (fun L => atomLane (scopeOf sc.toNat) true 4 (runValue s w.toNat (a.toNat + 1) L) (laneAddr s a.toNat b.toNat L) (widthOf w.toNat) (fun o => newMin (widthOf w.toNat) o (runValue s w.toNat (a.toNat + 1) L)) (putW w.toNat (a.toNat + 1) L)) s ∧
    LogWord (.redMinI a sc b w l) (capAtomic false 4 false w.toNat sc.toNat a.toNat b.toNat s) (fun L => atomLane (scopeOf sc.toNat) false 4 (runValue s w.toNat (a.toNat + 1) L) (laneAddr s a.toNat b.toNat L) (widthOf w.toNat) (fun o => newMin (widthOf w.toNat) o (runValue s w.toNat (a.toNat + 1) L)) (putW w.toNat (a.toNat + 1) L)) s ∧
    LogWord (.atomMaxI a sc b w l) (capAtomic false 5 true w.toNat sc.toNat a.toNat b.toNat s) (fun L => atomLane (scopeOf sc.toNat) true 5 (runValue s w.toNat (a.toNat + 1) L) (laneAddr s a.toNat b.toNat L) (widthOf w.toNat) (fun o => newMax (widthOf w.toNat) o (runValue s w.toNat (a.toNat + 1) L)) (putW w.toNat (a.toNat + 1) L)) s ∧
    LogWord (.redMaxI a sc b w l) (capAtomic false 5 false w.toNat sc.toNat a.toNat b.toNat s) (fun L => atomLane (scopeOf sc.toNat) false 5 (runValue s w.toNat (a.toNat + 1) L) (laneAddr s a.toNat b.toNat L) (widthOf w.toNat) (fun o => newMax (widthOf w.toNat) o (runValue s w.toNat (a.toNat + 1) L)) (putW w.toNat (a.toNat + 1) L)) s ∧
    LogWord (.atomMinN a sc b w l) (capAtomic false 6 true w.toNat sc.toNat a.toNat b.toNat s) (fun L => atomLane (scopeOf sc.toNat) true 6 (runValue s w.toNat (a.toNat + 1) L) (laneAddr s a.toNat b.toNat L) (widthOf w.toNat) (fun o => min o (runValue s w.toNat (a.toNat + 1) L)) (putW w.toNat (a.toNat + 1) L)) s ∧
    LogWord (.redMinN a sc b w l) (capAtomic false 6 false w.toNat sc.toNat a.toNat b.toNat s) (fun L => atomLane (scopeOf sc.toNat) false 6 (runValue s w.toNat (a.toNat + 1) L) (laneAddr s a.toNat b.toNat L) (widthOf w.toNat) (fun o => min o (runValue s w.toNat (a.toNat + 1) L)) (putW w.toNat (a.toNat + 1) L)) s ∧
    LogWord (.atomMaxN a sc b w l) (capAtomic false 7 true w.toNat sc.toNat a.toNat b.toNat s) (fun L => atomLane (scopeOf sc.toNat) true 7 (runValue s w.toNat (a.toNat + 1) L) (laneAddr s a.toNat b.toNat L) (widthOf w.toNat) (fun o => max o (runValue s w.toNat (a.toNat + 1) L)) (putW w.toNat (a.toNat + 1) L)) s ∧
    LogWord (.redMaxN a sc b w l) (capAtomic false 7 false w.toNat sc.toNat a.toNat b.toNat s) (fun L => atomLane (scopeOf sc.toNat) false 7 (runValue s w.toNat (a.toNat + 1) L) (laneAddr s a.toNat b.toNat L) (widthOf w.toNat) (fun o => max o (runValue s w.toNat (a.toNat + 1) L)) (putW w.toNat (a.toNat + 1) L)) s ∧
    LogWord (.atomExch a sc b w l) (capAtomic false 8 true w.toNat sc.toNat a.toNat b.toNat s) (fun L => atomLane (scopeOf sc.toNat) true 8 (runValue s w.toNat (a.toNat + 1) L) (laneAddr s a.toNat b.toNat L) (widthOf w.toNat) (fun _ => (runValue s w.toNat (a.toNat + 1) L)) (putW w.toNat (a.toNat + 1) L)) s ∧
    LogWord (.redExch a sc b w l) (capAtomic false 8 false w.toNat sc.toNat a.toNat b.toNat s) (fun L => atomLane (scopeOf sc.toNat) false 8 (runValue s w.toNat (a.toNat + 1) L) (laneAddr s a.toNat b.toNat L) (widthOf w.toNat) (fun _ => (runValue s w.toNat (a.toNat + 1) L)) (putW w.toNat (a.toNat + 1) L)) s ∧
    LogWord (.atomInc a sc b w l) (capAtomic false 10 true w.toNat sc.toNat a.toNat b.toNat s) (fun L => atomLane (scopeOf sc.toNat) true 10 (runValue s w.toNat (a.toNat + 1) L) (laneAddr s a.toNat b.toNat L) (widthOf w.toNat) (fun o => newInc o (runValue s w.toNat (a.toNat + 1) L)) (putW w.toNat (a.toNat + 1) L)) s ∧
    LogWord (.redInc a sc b w l) (capAtomic false 10 false w.toNat sc.toNat a.toNat b.toNat s) (fun L => atomLane (scopeOf sc.toNat) false 10 (runValue s w.toNat (a.toNat + 1) L) (laneAddr s a.toNat b.toNat L) (widthOf w.toNat) (fun o => newInc o (runValue s w.toNat (a.toNat + 1) L)) (putW w.toNat (a.toNat + 1) L)) s ∧
    LogWord (.atomDec a sc b w l) (capAtomic false 11 true w.toNat sc.toNat a.toNat b.toNat s) (fun L => atomLane (scopeOf sc.toNat) true 11 (runValue s w.toNat (a.toNat + 1) L) (laneAddr s a.toNat b.toNat L) (widthOf w.toNat) (fun o => newDec o (runValue s w.toNat (a.toNat + 1) L)) (putW w.toNat (a.toNat + 1) L)) s ∧
    LogWord (.redDec a sc b w l) (capAtomic false 11 false w.toNat sc.toNat a.toNat b.toNat s) (fun L => atomLane (scopeOf sc.toNat) false 11 (runValue s w.toNat (a.toNat + 1) L) (laneAddr s a.toNat b.toNat L) (widthOf w.toNat) (fun o => newDec o (runValue s w.toNat (a.toNat + 1) L)) (putW w.toNat (a.toNat + 1) L)) s ∧
    LogWord (.atomCas a sc b w l) (capAtomic false 9 true w.toNat sc.toNat a.toNat b.toNat s) (fun L => atomLane (scopeOf sc.toNat) true 9 (runValue s w.toNat (a.toNat + 1) L) (laneAddr s a.toNat b.toNat L) (widthOf w.toNat) (fun o => if o = (runValue s w.toNat (a.toNat + 1) L) then (runValue s w.toNat (if w = 0 then a.toNat + 2 else a.toNat + 3) L) else o) (putW w.toNat (a.toNat + 1) L)) s ∧
    LogWord (.atomFadd a sc b l) (capAtomic false 12 true 0 sc.toNat a.toNat b.toNat s) (fun L => atomLane (scopeOf sc.toNat) true 12 (runValue s 0 (a.toNat + 1) L) (laneAddr s a.toNat b.toNat L) 4 (fun o => newF fAdd o (runValue s 0 (a.toNat + 1) L)) (put32 (a.toNat + 1) L)) s ∧
    LogWord (.redFadd a sc b l) (capAtomic false 12 false 0 sc.toNat a.toNat b.toNat s) (fun L => atomLane (scopeOf sc.toNat) false 12 (runValue s 0 (a.toNat + 1) L) (laneAddr s a.toNat b.toNat L) 4 (fun o => newF fAdd o (runValue s 0 (a.toNat + 1) L)) (put32 (a.toNat + 1) L)) s ∧
    LogWord (.atomFmax a sc b l) (capAtomic false 13 true 0 sc.toNat a.toNat b.toNat s) (fun L => atomLane (scopeOf sc.toNat) true 13 (runValue s 0 (a.toNat + 1) L) (laneAddr s a.toNat b.toNat L) 4 (fun o => newF (fMinMax true false) o (runValue s 0 (a.toNat + 1) L)) (put32 (a.toNat + 1) L)) s ∧
    LogWord (.redFmax a sc b l) (capAtomic false 13 false 0 sc.toNat a.toNat b.toNat s) (fun L => atomLane (scopeOf sc.toNat) false 13 (runValue s 0 (a.toNat + 1) L) (laneAddr s a.toNat b.toNat L) 4 (fun o => newF (fMinMax true false) o (runValue s 0 (a.toNat + 1) L)) (put32 (a.toNat + 1) L)) s ∧
    LogWord (.atomFmin a sc b l) (capAtomic false 14 true 0 sc.toNat a.toNat b.toNat s) (fun L => atomLane (scopeOf sc.toNat) true 14 (runValue s 0 (a.toNat + 1) L) (laneAddr s a.toNat b.toNat L) 4 (fun o => newF (fMinMax false false) o (runValue s 0 (a.toNat + 1) L)) (put32 (a.toNat + 1) L)) s ∧
    LogWord (.redFmin a sc b l) (capAtomic false 14 false 0 sc.toNat a.toNat b.toNat s) (fun L => atomLane (scopeOf sc.toNat) false 14 (runValue s 0 (a.toNat + 1) L) (laneAddr s a.toNat b.toNat L) 4 (fun o => newF (fMinMax false false) o (runValue s 0 (a.toNat + 1) L)) (put32 (a.toNat + 1) L)) s) ∧
  (∀ (a : BitVec 7) (b : BitVec 4) (w : BitVec 2) (l : BitVec 4) (s : State),
    LogWord (.patomAdd a b w l) (capAtomic true 0 true w.toNat 0 a.toNat b.toNat s) (fun L => padAtomLane true (laneAddr s a.toNat b.toNat L) (widthOf w.toNat) (fun o => newAdd (widthOf w.toNat) o (runValue s w.toNat (a.toNat + 1) L)) (putW w.toNat (a.toNat + 1) L)) s ∧
    LogWord (.predAdd a b w l) (capAtomic true 0 false w.toNat 0 a.toNat b.toNat s) (fun L => padAtomLane false (laneAddr s a.toNat b.toNat L) (widthOf w.toNat) (fun o => newAdd (widthOf w.toNat) o (runValue s w.toNat (a.toNat + 1) L)) (putW w.toNat (a.toNat + 1) L)) s ∧
    LogWord (.patomAnd a b w l) (capAtomic true 1 true w.toNat 0 a.toNat b.toNat s) (fun L => padAtomLane true (laneAddr s a.toNat b.toNat L) (widthOf w.toNat) (fun o => o &&& (runValue s w.toNat (a.toNat + 1) L)) (putW w.toNat (a.toNat + 1) L)) s ∧
    LogWord (.predAnd a b w l) (capAtomic true 1 false w.toNat 0 a.toNat b.toNat s) (fun L => padAtomLane false (laneAddr s a.toNat b.toNat L) (widthOf w.toNat) (fun o => o &&& (runValue s w.toNat (a.toNat + 1) L)) (putW w.toNat (a.toNat + 1) L)) s ∧
    LogWord (.patomOr a b w l) (capAtomic true 2 true w.toNat 0 a.toNat b.toNat s) (fun L => padAtomLane true (laneAddr s a.toNat b.toNat L) (widthOf w.toNat) (fun o => o ||| (runValue s w.toNat (a.toNat + 1) L)) (putW w.toNat (a.toNat + 1) L)) s ∧
    LogWord (.predOr a b w l) (capAtomic true 2 false w.toNat 0 a.toNat b.toNat s) (fun L => padAtomLane false (laneAddr s a.toNat b.toNat L) (widthOf w.toNat) (fun o => o ||| (runValue s w.toNat (a.toNat + 1) L)) (putW w.toNat (a.toNat + 1) L)) s ∧
    LogWord (.patomXor a b w l) (capAtomic true 3 true w.toNat 0 a.toNat b.toNat s) (fun L => padAtomLane true (laneAddr s a.toNat b.toNat L) (widthOf w.toNat) (fun o => o ^^^ (runValue s w.toNat (a.toNat + 1) L)) (putW w.toNat (a.toNat + 1) L)) s ∧
    LogWord (.predXor a b w l) (capAtomic true 3 false w.toNat 0 a.toNat b.toNat s) (fun L => padAtomLane false (laneAddr s a.toNat b.toNat L) (widthOf w.toNat) (fun o => o ^^^ (runValue s w.toNat (a.toNat + 1) L)) (putW w.toNat (a.toNat + 1) L)) s ∧
    LogWord (.patomMinI a b w l) (capAtomic true 4 true w.toNat 0 a.toNat b.toNat s) (fun L => padAtomLane true (laneAddr s a.toNat b.toNat L) (widthOf w.toNat) (fun o => newMin (widthOf w.toNat) o (runValue s w.toNat (a.toNat + 1) L)) (putW w.toNat (a.toNat + 1) L)) s ∧
    LogWord (.predMinI a b w l) (capAtomic true 4 false w.toNat 0 a.toNat b.toNat s) (fun L => padAtomLane false (laneAddr s a.toNat b.toNat L) (widthOf w.toNat) (fun o => newMin (widthOf w.toNat) o (runValue s w.toNat (a.toNat + 1) L)) (putW w.toNat (a.toNat + 1) L)) s ∧
    LogWord (.patomMaxI a b w l) (capAtomic true 5 true w.toNat 0 a.toNat b.toNat s) (fun L => padAtomLane true (laneAddr s a.toNat b.toNat L) (widthOf w.toNat) (fun o => newMax (widthOf w.toNat) o (runValue s w.toNat (a.toNat + 1) L)) (putW w.toNat (a.toNat + 1) L)) s ∧
    LogWord (.predMaxI a b w l) (capAtomic true 5 false w.toNat 0 a.toNat b.toNat s) (fun L => padAtomLane false (laneAddr s a.toNat b.toNat L) (widthOf w.toNat) (fun o => newMax (widthOf w.toNat) o (runValue s w.toNat (a.toNat + 1) L)) (putW w.toNat (a.toNat + 1) L)) s ∧
    LogWord (.patomMinN a b w l) (capAtomic true 6 true w.toNat 0 a.toNat b.toNat s) (fun L => padAtomLane true (laneAddr s a.toNat b.toNat L) (widthOf w.toNat) (fun o => min o (runValue s w.toNat (a.toNat + 1) L)) (putW w.toNat (a.toNat + 1) L)) s ∧
    LogWord (.predMinN a b w l) (capAtomic true 6 false w.toNat 0 a.toNat b.toNat s) (fun L => padAtomLane false (laneAddr s a.toNat b.toNat L) (widthOf w.toNat) (fun o => min o (runValue s w.toNat (a.toNat + 1) L)) (putW w.toNat (a.toNat + 1) L)) s ∧
    LogWord (.patomMaxN a b w l) (capAtomic true 7 true w.toNat 0 a.toNat b.toNat s) (fun L => padAtomLane true (laneAddr s a.toNat b.toNat L) (widthOf w.toNat) (fun o => max o (runValue s w.toNat (a.toNat + 1) L)) (putW w.toNat (a.toNat + 1) L)) s ∧
    LogWord (.predMaxN a b w l) (capAtomic true 7 false w.toNat 0 a.toNat b.toNat s) (fun L => padAtomLane false (laneAddr s a.toNat b.toNat L) (widthOf w.toNat) (fun o => max o (runValue s w.toNat (a.toNat + 1) L)) (putW w.toNat (a.toNat + 1) L)) s ∧
    LogWord (.patomExch a b w l) (capAtomic true 8 true w.toNat 0 a.toNat b.toNat s) (fun L => padAtomLane true (laneAddr s a.toNat b.toNat L) (widthOf w.toNat) (fun _ => (runValue s w.toNat (a.toNat + 1) L)) (putW w.toNat (a.toNat + 1) L)) s ∧
    LogWord (.predExch a b w l) (capAtomic true 8 false w.toNat 0 a.toNat b.toNat s) (fun L => padAtomLane false (laneAddr s a.toNat b.toNat L) (widthOf w.toNat) (fun _ => (runValue s w.toNat (a.toNat + 1) L)) (putW w.toNat (a.toNat + 1) L)) s ∧
    LogWord (.patomInc a b w l) (capAtomic true 10 true w.toNat 0 a.toNat b.toNat s) (fun L => padAtomLane true (laneAddr s a.toNat b.toNat L) (widthOf w.toNat) (fun o => newInc o (runValue s w.toNat (a.toNat + 1) L)) (putW w.toNat (a.toNat + 1) L)) s ∧
    LogWord (.predInc a b w l) (capAtomic true 10 false w.toNat 0 a.toNat b.toNat s) (fun L => padAtomLane false (laneAddr s a.toNat b.toNat L) (widthOf w.toNat) (fun o => newInc o (runValue s w.toNat (a.toNat + 1) L)) (putW w.toNat (a.toNat + 1) L)) s ∧
    LogWord (.patomDec a b w l) (capAtomic true 11 true w.toNat 0 a.toNat b.toNat s) (fun L => padAtomLane true (laneAddr s a.toNat b.toNat L) (widthOf w.toNat) (fun o => newDec o (runValue s w.toNat (a.toNat + 1) L)) (putW w.toNat (a.toNat + 1) L)) s ∧
    LogWord (.predDec a b w l) (capAtomic true 11 false w.toNat 0 a.toNat b.toNat s) (fun L => padAtomLane false (laneAddr s a.toNat b.toNat L) (widthOf w.toNat) (fun o => newDec o (runValue s w.toNat (a.toNat + 1) L)) (putW w.toNat (a.toNat + 1) L)) s ∧
    LogWord (.patomCas a b w l) (capAtomic true 9 true w.toNat 0 a.toNat b.toNat s) (fun L => padAtomLane true (laneAddr s a.toNat b.toNat L) (widthOf w.toNat) (fun o => if o = (runValue s w.toNat (a.toNat + 1) L) then (runValue s w.toNat (if w = 0 then a.toNat + 2 else a.toNat + 3) L) else o) (putW w.toNat (a.toNat + 1) L)) s ∧
    LogWord (.patomFadd a b l) (capAtomic true 12 true 0 0 a.toNat b.toNat s) (fun L => padAtomLane true (laneAddr s a.toNat b.toNat L) 4 (fun o => newF fAdd o (runValue s 0 (a.toNat + 1) L)) (put32 (a.toNat + 1) L)) s ∧
    LogWord (.predFadd a b l) (capAtomic true 12 false 0 0 a.toNat b.toNat s) (fun L => padAtomLane false (laneAddr s a.toNat b.toNat L) 4 (fun o => newF fAdd o (runValue s 0 (a.toNat + 1) L)) (put32 (a.toNat + 1) L)) s ∧
    LogWord (.patomFmax a b l) (capAtomic true 13 true 0 0 a.toNat b.toNat s) (fun L => padAtomLane true (laneAddr s a.toNat b.toNat L) 4 (fun o => newF (fMinMax true false) o (runValue s 0 (a.toNat + 1) L)) (put32 (a.toNat + 1) L)) s ∧
    LogWord (.predFmax a b l) (capAtomic true 13 false 0 0 a.toNat b.toNat s) (fun L => padAtomLane false (laneAddr s a.toNat b.toNat L) 4 (fun o => newF (fMinMax true false) o (runValue s 0 (a.toNat + 1) L)) (put32 (a.toNat + 1) L)) s ∧
    LogWord (.patomFmin a b l) (capAtomic true 14 true 0 0 a.toNat b.toNat s) (fun L => padAtomLane true (laneAddr s a.toNat b.toNat L) 4 (fun o => newF (fMinMax false false) o (runValue s 0 (a.toNat + 1) L)) (put32 (a.toNat + 1) L)) s ∧
    LogWord (.predFmin a b l) (capAtomic true 14 false 0 0 a.toNat b.toNat s) (fun L => padAtomLane false (laneAddr s a.toNat b.toNat L) 4 (fun o => newF (fMinMax false false) o (runValue s 0 (a.toNat + 1) L)) (put32 (a.toNat + 1) L)) s)

/-- Barrier words set, count, wait on and drop barriers; a barrier with nothing pending goes on to its next phase (05_gang_flow_memory.md
R155; 05_gang_flow_memory.md R156; 05_gang_flow_memory.md R157; 05_gang_flow_memory.md R159; 05_gang_flow_memory.md R160;
12_coherence_engine.md R270). That S[sc] and S[sb] are added as signed numbers is log entry 92; that a fault an arrival meets once its release is
complete is due at the gang's next boundary log entry 80. -/
def Obligations.BarrierWordsAndPhases : Prop :=
  (∀ (a b c d : BitVec 5) (sc : BitVec 3) (l : BitVec 4) (k : Nat) (s u : State),
    (MayIssue (.barInit a b l) s = true → ObjectAt s (s.src.sreg a.toNat).toNat k → 1 ≤ (s.src.sreg b.toNat).toNat → (s.src.sreg b.toNat).toNat ≤ 4095 → bits (barrierAt s k) 79 64 = 0 →
      Leaves (.barInit a b l) s (setBarrier k ((s.src.sreg b.toNat).toNat * 2 ^ 4 + (s.src.sreg b.toNat).toNat * 2 ^ 16) s)) ∧
    (MayIssue (.barArrive a c sc l) s = true → ObjectAt s (s.src.sreg a.toNat).toNat k → bits (barrierAt s k) 27 16 ≠ 0 →
      sectorsFit (sectorsOf (barrierAt s k) + (s.src.sreg c.toNat).toInt) = true → ReleasedFrom (scopeOf sc.toNat) [] s u →
      Leaves (.barArrive a c sc l) s (barComplete k (setBarrier k (putField (putSectors (barrierAt u k) (sectorsOf (barrierAt u k) + (s.src.sreg c.toNat).toInt)) 27 16 (bits (barrierAt u k) 27 16 - 1)) u))) ∧
    (MayIssue (.barArrivet d a c sc l) s = true → ObjectAt s (s.src.sreg a.toNat).toNat k → bits (barrierAt s k) 27 16 ≠ 0 →
      sectorsFit (sectorsOf (barrierAt s k) + (s.src.sreg c.toNat).toInt) = true → ReleasedFrom (scopeOf sc.toNat) [] s u →
      Leaves (.barArrivet d a c sc l) s (barComplete k (setBarrier k (putField (putSectors (barrierAt u k) (sectorsOf (barrierAt u k) + (s.src.sreg c.toNat).toInt)) 27 16 (bits (barrierAt u k) 27 16 - 1)) (u.setR fun r => r.setS d.toNat (BitVec.ofNat 64 (bits (barrierAt u k) 3 0)))))) ∧
    (∀ r ids, s.g.opens = false → releaseBegin (scopeOf sc.toNat) [] s = (r :: ids, u) → ObjectAt s (s.src.sreg a.toNat).toNat k → bits (barrierAt s k) 27 16 ≠ 0 →
      sectorsFit (sectorsOf (barrierAt s k) + (s.src.sreg c.toNat).toInt) = true →
      let stands (reg : Option Nat) : State := { u with nextId := u.nextId + 1 }.setG fun g =>
        { g with arriving := g.arriving ++ [(⟨u.nextId, (s.src.sreg a.toNat).toNat, (s.src.sreg c.toNat).toInt, reg, r :: ids, false⟩ : PendingArrival)] }
      (MayIssue (.barArrive a c sc l) s = true → Leaves (.barArrive a c sc l) s (stands none)) ∧
      (MayIssue (.barArrivet d a c sc l) s = true → exec (.barArrivet d a c sc l) s = .next ((stands (some d.toNat)).setG fun g =>
        g.setWins (g.wins ++ [⟨(wordShapeOf (.barArrivet d a c sc l)).writes Block.single, l.toNat, none, some u.nextId⟩])))) ∧
    (MayIssue (.barExpect a b l) s = true → ObjectAt s (s.src.sreg a.toNat).toNat k → sectorsFit (sectorsOf (barrierAt s k) + (s.src.sreg b.toNat).toInt) = true →
      Leaves (.barExpect a b l) s (barComplete k (setBarrier k (putSectors (barrierAt s k) (sectorsOf (barrierAt s k) + (s.src.sreg b.toNat).toInt)) s))) ∧
    (MayIssue (.barWait a b sc) s = true → ObjectAt s (s.src.sreg a.toNat).toNat k → bits (barrierAt s k) 0 0 ≠ (s.src.sreg b.toNat).toNat % 2 → AcquiredFrom (scopeOf sc.toNat) [] s u →
      exec (.barWait a b sc) s = .next u) ∧
    (MayIssue (.barWait a b sc) s = true → ObjectAt s (s.src.sreg a.toNat).toNat k → bits (barrierAt s k) 0 0 = (s.src.sreg b.toNat).toNat % 2 →
      exec (.barWait a b sc) s = .next (stall ((setBarrier k (putField (barrierAt s k) 79 64 (bits (barrierAt s k) 79 64 + 1)) s).setG fun g =>
        { g with wait := .barWait (k / 2 ^ 20) (k % 2 ^ 20) }))) ∧
    (MayIssue (.barTest d a l) s = true → ObjectAt s (s.src.sreg a.toNat).toNat k →
      Leaves (.barTest d a l) s (s.setR fun r => r.setS d.toNat (BitVec.ofNat 64 (bits (barrierAt s k) 3 0 + bits (barrierAt s k) 95 80 * 2 ^ 16)))) ∧
    (MayIssue (.barDrop a l) s = true → ObjectAt s (s.src.sreg a.toNat).toNat k → 2 ≤ bits (barrierAt s k) 15 4 → bits (barrierAt s k) 27 16 ≠ 0 →
      Leaves (.barDrop a l) s (barComplete k (setBarrier k (putField (putField (barrierAt s k) 15 4 (bits (barrierAt s k) 15 4 - 1)) 27 16 (bits (barrierAt s k) 27 16 - 1)) s)))) ∧
  (∀ (id k : Nat) (g : Gang) (x : PendingArrival) (s t : State), (∀ r ∈ s.releases, r.id ≠ id) → s.allGangs.find? (fun g => g.arriving.any fun x => x.id = id) = some g →
    s.gang? g.uid = some g → g.status = .resident → g.arriving.find? (fun x => x.id = id) = some x → t = s.focus g.uid →
    let v : State := t.setG fun g => { g with arriving := g.arriving.filter fun y => y.id != x.id }
    let y := barrierAt v k
    ((∃ r ∈ s.records, r.id ∈ x.records) → exec (.releaseComplete id) s = .next t) ∧
    ((∀ r ∈ s.records, r.id ∉ x.records) → spadKey v x.addr = .ok k →
      (bits y 27 16 ≠ 0 → sectorsFit (sectorsOf y + x.sectors) = true → exec (.releaseComplete id) s = .next (barComplete k
        (setBarrier k (putField (putSectors y (sectorsOf y + x.sectors)) 27 16 (bits y 27 16 - 1)) (match x.reg with
          | some r => v.setR fun q => q.setS r (BitVec.ofNat 64 (bits y 3 0))
          | none => v)))) ∧
      (bits y 27 16 = 0 → exec (.releaseComplete id) s = .next (v.setG fun g => { g with errorDue := g.errorDue.or (some ⟨0xB04, BitVec.ofNat 96 (x.addr % 2 ^ 64)⟩) })))) ∧
  (∀ (k : Nat) (s : State), s.memOk →
    let x := barrierAt s k
    let t := barComplete k s
    let y := barrierAt t k
    (¬(bits x 27 16 = 0 ∧ bits x 55 28 = 0) → t = s) ∧
    (bits x 27 16 = 0 ∧ bits x 55 28 = 0 →
      bits y 3 0 = (bits x 3 0 + 1) % 16 ∧ bits y 27 16 = bits x 15 4 ∧ bits y 15 4 = bits x 15 4 ∧ bits y 55 28 = 0 ∧ bits y 95 80 = bits x 95 80 ∧
      (∀ n, n = (s.allGangs.filter fun g => match g.wait with
        | .barWait c a => c * 2 ^ 20 + a = k
        | _ => false).length → bits y 79 64 = bits x 79 64 - n) ∧
      (∀ g ∈ t.allGangs, ∀ c a, g.wait = .barWait c a → c * 2 ^ 20 + a ≠ k) ∧
      (∀ j, j < k ∨ k + 16 ≤ j → t.spad.get j = s.spad.get j) ∧ t.mem = s.mem))

/-- The barrier words fault by the table of R158, with no effect on the object and its window address as detail (05_gang_flow_memory.md
R158). The order of two faults of one word, that the counts of an arrival are signed, and that an arrival is tested before its release
begins are the model's: log entries 91, 92 and 80. -/
def Obligations.BarrierTraps : Prop :=
  ∀ (a b c d : BitVec 5) (sc : BitVec 3) (l : BitVec 4) (k : Nat) (s : State),
    (MayIssue (.barInit a b l) s = true → ObjectAt s (s.src.sreg a.toNat).toNat k → ((s.src.sreg b.toNat).toNat = 0 ∨ 4095 < (s.src.sreg b.toNat).toNat) → TrapsWith (.barInit a b l) s 11 3 (BitVec.ofNat 96 ((s.src.sreg a.toNat).toNat % 2 ^ 64))) ∧
    (MayIssue (.barInit a b l) s = true → ObjectAt s (s.src.sreg a.toNat).toNat k → 1 ≤ (s.src.sreg b.toNat).toNat → (s.src.sreg b.toNat).toNat ≤ 4095 → bits (barrierAt s k) 79 64 ≠ 0 → TrapsWith (.barInit a b l) s 11 8 (BitVec.ofNat 96 ((s.src.sreg a.toNat).toNat % 2 ^ 64))) ∧
    (MayIssue (.barDrop a l) s = true → ObjectAt s (s.src.sreg a.toNat).toNat k → bits (barrierAt s k) 15 4 = 1 → TrapsWith (.barDrop a l) s 11 3 (BitVec.ofNat 96 ((s.src.sreg a.toNat).toNat % 2 ^ 64))) ∧
    (MayIssue (.barDrop a l) s = true → ObjectAt s (s.src.sreg a.toNat).toNat k → 2 ≤ bits (barrierAt s k) 15 4 → bits (barrierAt s k) 27 16 = 0 → TrapsWith (.barDrop a l) s 11 4 (BitVec.ofNat 96 ((s.src.sreg a.toNat).toNat % 2 ^ 64))) ∧
    (MayIssue (.barExpect a b l) s = true → ObjectAt s (s.src.sreg a.toNat).toNat k → ¬(-2 ^ 27 ≤ sectorsOf (barrierAt s k) + (s.src.sreg b.toNat).toInt ∧ sectorsOf (barrierAt s k) + (s.src.sreg b.toNat).toInt ≤ 2 ^ 27 - 1) → TrapsWith (.barExpect a b l) s 11 5 (BitVec.ofNat 96 ((s.src.sreg a.toNat).toNat % 2 ^ 64))) ∧
    (MayIssue (.barArrive a c sc l) s = true → ObjectAt s (s.src.sreg a.toNat).toNat k → bits (barrierAt s k) 27 16 = 0 → TrapsWith (.barArrive a c sc l) s 11 4 (BitVec.ofNat 96 ((s.src.sreg a.toNat).toNat % 2 ^ 64))) ∧
    (MayIssue (.barArrive a c sc l) s = true → ObjectAt s (s.src.sreg a.toNat).toNat k → bits (barrierAt s k) 27 16 ≠ 0 → ¬(-2 ^ 27 ≤ sectorsOf (barrierAt s k) + (s.src.sreg c.toNat).toInt ∧ sectorsOf (barrierAt s k) + (s.src.sreg c.toNat).toInt ≤ 2 ^ 27 - 1) →
      TrapsWith (.barArrive a c sc l) s 11 5 (BitVec.ofNat 96 ((s.src.sreg a.toNat).toNat % 2 ^ 64))) ∧
    (MayIssue (.barArrivet d a c sc l) s = true → ObjectAt s (s.src.sreg a.toNat).toNat k → bits (barrierAt s k) 27 16 = 0 → TrapsWith (.barArrivet d a c sc l) s 11 4 (BitVec.ofNat 96 ((s.src.sreg a.toNat).toNat % 2 ^ 64))) ∧
    (MayIssue (.barArrivet d a c sc l) s = true → ObjectAt s (s.src.sreg a.toNat).toNat k → bits (barrierAt s k) 27 16 ≠ 0 → ¬(-2 ^ 27 ≤ sectorsOf (barrierAt s k) + (s.src.sreg c.toNat).toInt ∧ sectorsOf (barrierAt s k) + (s.src.sreg c.toNat).toInt ≤ 2 ^ 27 - 1) →
      TrapsWith (.barArrivet d a c sc l) s 11 5 (BitVec.ofNat 96 ((s.src.sreg a.toNat).toNat % 2 ^ 64)))

/-- Queue words release, wait, push, pop and acquire; a push and the pop behind it hand an entry over (05_gang_flow_memory.md R161;
05_gang_flow_memory.md R162; 05_gang_flow_memory.md R163; 12_coherence_engine.md R270; 12_coherence_engine.md R272). -/
def Obligations.QueueWordsAndRings : Prop :=
  (∀ (b d : BitVec 5) (q : BitVec 4) (l : BitVec 4) (c : Crew) (r : Ring) (s u : State),
    (MayIssue (.qpush b q) s = true → RingAt s q.toNat c r → r.free ≠ 0 → s.g.opens = false → exec (.qpush b q) s = .next (ringPush c.uid q.toNat r (s.src.sreg b.toNat).toNat s)) ∧
    (MayIssue (.qpush b q) s = true → RingAt s q.toNat c r → r.free = 0 → Waits (.qpush b q) s fun g => { g with wait := .blocked }) ∧
    (MayIssue (.qtrypush d b q l) s = true → RingAt s q.toNat c r → r.free ≠ 0 → s.g.opens = false → Leaves (.qtrypush d b q l) s ((ringPush c.uid q.toNat r (s.src.sreg b.toNat).toNat s).setR fun z => z.setS d.toNat 1)) ∧
    (MayIssue (.qtrypush d b q l) s = true → RingAt s q.toNat c r → r.free = 0 → Leaves (.qtrypush d b q l) s (s.setR fun z => z.setS d.toNat 0)) ∧
    (MayIssue (.qpop d q) s = true → RingAt s q.toNat c r → r.filled ≠ 0 → AcquiredFrom .crew [] s u → exec (.qpop d q) s = .next ((ringPop r u).2.setR fun z => z.setS d.toNat (BitVec.ofNat 64 (ringPop r u).1))) ∧
    (MayIssue (.qpop d q) s = true → RingAt s q.toNat c r → r.filled = 0 → Waits (.qpop d q) s fun g => { g with wait := .blocked }) ∧
    (MayIssue (.qtrypop d q l) s = true → RingAt s q.toNat c r → r.filled ≠ 0 → AcquiredFrom .crew [] s u → Leaves (.qtrypop d q l) s ((ringPop r u).2.setR fun z => z.setS d.toNat (BitVec.ofNat 64 (ringPop r u).1))) ∧
    (MayIssue (.qtrypop d q l) s = true → RingAt s q.toNat c r → r.filled = 0 → Leaves (.qtrypop d q l) s (s.setR fun z => z.setS d.toNat 0xFFFFFFFFFFFFFFFF))) ∧
  (∀ (q h : Nat) (c : Crew) (r : Ring) (s : State), r = ringAt s r.key → s.crew? c.uid = some c → ringOk c q r = true → s.memOk →
    (r.free ≠ 0 → c.pending q = [] →
      let t := ringPush c.uid q r h s
      ringAt t r.key = { r with tail := (r.tail + 1) % r.slots, free := r.free - 1, filled := r.filled + 1 } ∧
      ofBytes (t.spad.read (r.key + 16 + 4 * r.tail) 4) = h % 2 ^ 16 + (lookup c.laps q).getD 0 % 2 * 2 ^ 31 ∧
      (∀ j, (j < r.key ∨ r.key + 8 ≤ j) → (j < r.key + 16 + 4 * r.tail ∨ r.key + 20 + 4 * r.tail ≤ j) → t.spad.get j = s.spad.get j) ∧
      t.mem = s.mem ∧ t.g = s.g) ∧
    (r.filled ≠ 0 →
      (ringPop r s).1 = ofBytes (s.spad.read (r.key + 16 + 4 * r.head) 2) ∧
      ringAt (ringPop r s).2 r.key = { r with head := (r.head + 1) % r.slots, free := r.free + 1, filled := r.filled - 1 } ∧
      (∀ j, (j < r.key ∨ r.key + 8 ≤ j) → (ringPop r s).2.spad.get j = s.spad.get j) ∧ (ringPop r s).2.mem = s.mem ∧ (ringPop r s).2.g = s.g))

/-- own.give, own.take and own.test flip and read the owner bits of 4 KiB tiles of the crew as R164 says (05_gang_flow_memory.md R164;
05_gang_flow_memory.md R165; 01_engines.md R30). -/
def Obligations.OwnershipWords : Prop :=
  ∀ (a b d : BitVec 5) (l : BitVec 4) (c : Crew) (ts : List Nat) (s : State),
    (MayIssue (.ownGive a b l) s = true → TilesAt s (s.src.sreg a.toNat).toNat (s.src.sreg b.toNat).toNat c ts → (ts.any c.tileOwned) = false → s.g.opens = false → s.g.arriving = [] →
      Leaves (.ownGive a b l) s (s.setCrew c.uid fun c => { c with tiles := ts.foldl (fun x t => upsert x t []) c.tiles })) ∧
    (MayIssue (.ownGive a b l) s = true → TilesAt s (s.src.sreg a.toNat).toNat (s.src.sreg b.toNat).toNat c ts → (ts.any c.tileOwned) = true → TrapsWith (.ownGive a b l) s 2 9 (accessDetail (s.src.sreg a.toNat).toNat 4 true false 0 0 0)) ∧
    (MayIssue (.ownTake a b) s = true → TilesAt s (s.src.sreg a.toNat).toNat (s.src.sreg b.toNat).toNat c ts → (∀ t ∈ ts, ∀ ids, (t, ids) ∈ c.tiles → ids = []) →
      exec (.ownTake a b) s = .next (s.setCrew c.uid fun _ => { c with tiles := c.tiles.filter fun x => !ts.contains x.1 })) ∧
    (MayIssue (.ownTake a b) s = true → TilesAt s (s.src.sreg a.toNat).toNat (s.src.sreg b.toNat).toNat c ts → (∃ t ∈ ts, ∃ i ids, (t, i :: ids) ∈ c.tiles) →
      exec (.ownTake a b) s = .next (block (s.setCrew c.uid fun _ => { c with tiles := c.tiles.filter fun x => !(ts.contains x.1 && x.2.isEmpty) }))) ∧
    (MayIssue (.ownTest d b l) s = true → TilesAt s (s.src.sreg b.toNat).toNat 1 c ts → Leaves (.ownTest d b l) s (s.setR fun r => r.setS d.toNat (if (ts.any c.tileOwned) then 1 else 0))) ∧
    (MayIssue (.ownTest d b l) s = true → s.myCrew = some c → (s.src.sreg b.toNat).toNat % 4096 ≠ 0 → TrapsWith (.ownTest d b l) s 3 2 (accessDetail (s.src.sreg b.toNat).toNat 4 true false 0 0 0)) ∧
    (MayIssue (.ownGive a b l) s = true → s.myCrew = some c → (s.src.sreg a.toNat).toNat % 4096 ≠ 0 → TrapsWith (.ownGive a b l) s 3 2 (accessDetail (s.src.sreg a.toNat).toNat 4 true false 0 0 0)) ∧
    (MayIssue (.ownTake a b) s = true → s.myCrew = some c → (s.src.sreg a.toNat).toNat % 4096 ≠ 0 → TrapsWith (.ownTake a b) s 3 2 (accessDetail (s.src.sreg a.toNat).toNat 4 true false 0 0 0))

/-- mwatch arms the monitor with the value and version it reads, mwait returns 0, 1 or 2, sleep waits, mclear disarms
(05_gang_flow_memory.md R166; 05_gang_flow_memory.md R167; 05_gang_flow_memory.md R168). That a clean copy of the watched line which the
read has outrun is not kept is log entry 93. -/
def Obligations.MonitorWords : Prop :=
  ∀ (a b d : BitVec 5) (l : BitVec 4) (s : State),
    (∀ (s1 s2 u : State) (e : TlbEntry) (fpa : Nat) (bs : List Byte), MayIssue (.mwatch d b l) s = true → (s.src.sreg b.toNat).toNat % 4 = 0 →
      translate true false (s.src.sreg b.toNat).toNat s = (s1, .ok fpa e) → readAt s1.agent (if s1.isLocal fpa then .home else .far) e fpa 4 s1 = .ok bs s2 →
      AcquiredFrom (if s2.inWindow fpa then .sys else if isSwitch fpa then .fab else if s1.isLocal fpa then .dev else .fab) (keepTags [tagOf s2 fpa])
        (dropOutrun s2.g.die.toNat [fpa] (if (s2.isHbm fpa && e.twin) = true then addWaiter s2.g.die.toNat (lineOf fpa) s2.g.tenant s2 else s2)) u →
      Leaves (.mwatch d b l) s ((u.setR fun r => r.setS d.toNat (BitVec.ofNat 64 (ofBytes bs))).setG fun g =>
        { g with monitor := some ⟨BitVec.ofNat 64 (s.src.sreg b.toNat).toNat, lineOf fpa, u.version (lineOf fpa)⟩ })) ∧
    (MayIssue (.mwatch d b l) s = true → (s.src.sreg b.toNat).toNat % 4 ≠ 0 → TrapsWith (.mwatch d b l) s 3 2 (accessDetail (s.src.sreg b.toNat).toNat 4 false false 0 0 0)) ∧
    (MayIssue (.mwait d b) s = true → s.g.monitor = none → MwaitEnds d b s 2) ∧
    (∀ m, MayIssue (.mwait d b) s = true → s.g.monitor = some m → s.version m.line ≠ m.version → MwaitEnds d b s 0) ∧
    (∀ m n, MayIssue (.mwait d b) s = true → s.g.monitor = some m → s.version m.line = m.version → s.g.wait = .woken n → MwaitEnds d b s n) ∧
    (∀ m, MayIssue (.mwait d b) s = true → s.g.monitor = some m → s.version m.line = m.version → s.g.wait = .none → s.g.parkedWait = none →
      Waits (.mwait d b) s fun g => { g with wait := .mwait d.toNat (if (s.src.sreg b.toNat).toNat = 0 then none else some (s.clk + (s.src.sreg b.toNat).toNat)) }) ∧
    (MayIssue (.sleep a) s = true → (s.g.wait = .none ∨ s.g.wait = .blocked) → (s.src.sreg a.toNat).toNat % 2 ^ 32 ≠ 0 → Waits (.sleep a) s fun g => { g with wait := .sleep (s.clk + (s.src.sreg a.toNat).toNat % 2 ^ 32) }) ∧
    (∀ n, MayIssue (.sleep a) s = true → s.g.wait = .woken n → exec (.sleep a) s = .next (s.setG fun g => { g with wait := .none })) ∧
    (MayIssue (.sleep a) s = true → s.g.wait = .none → (s.src.sreg a.toNat).toNat % 2 ^ 32 = 0 → exec (.sleep a) s = .next s) ∧
    (MayIssue (.mclear l) s = true → Leaves (.mclear l) s (s.setG fun g => { g with monitor := none }))

/-- Waits end, limits pass, and accesses left in flight complete lane by lane (05_gang_flow_memory.md R166; 05_gang_flow_memory.md R167;
06_gang_traps.md R177; 06_gang_traps.md R193; 06_gang_traps.md R174; 06_gang_traps.md R187; 06_gang_traps.md R172; 05_gang_flow_memory.md
R141). Which structure hits what is log entry 65, and the code of group 15 a free value, log entry 8. -/
def Obligations.GangAndAccessEvents : Prop :=
  (∀ (uid sid addr : Nat) (s : State),
    (AtGang (.mwaitTimeout uid) uid s fun t => match t.g.wait with
      | .mwait _ (some n) => if n ≤ t.clk then t.setG fun g => { g with wait := .woken 1 } else t
      | _ => t) ∧
    (AtGang (.sleepEnd uid) uid s fun t => match t.g.wait with
      | .sleep n => if n ≤ t.clk then t.setG fun g => { g with wait := .woken 0 } else t
      | _ => t) ∧
    (AtGang (.spuriousWake uid) uid s fun t => match t.g.wait with
      | .mwait _ _ => t.setG fun g => { g with wait := .woken 2 }
      | _ => t) ∧
    (AtGang (.watchdog uid) uid s fun t =>
      let n := (t.tenant t.g.tenant).runLimit.toNat
      if n ≠ 0 ∧ t.g.runStart + n ≤ t.clk ∧ t.g.watchdogDue = none then t.setG fun g => { g with watchdogDue := some (BitVec.ofNat 64 (t.g.runStart + n)) } else t) ∧
    ((∀ g, s.gang? uid = some g → g.status = .resident → ∃ u f, exec (.uncorrectableError uid sid addr) s = .next u ∧ f.cause.toNat / 256 = 15 ∧ f.det = BitVec.ofNat 96 ((if sid ∈ [0, 1, 2, 6, 7] then 0 else addr % 2 ^ 64) + sid % 256 * 2 ^ 64) ∧
      (holdsData sid = false ∧ sid ≠ 7 → u = { s.focus uid with tick := s.tick + 1, g := { (s.focus uid).g with errorDue := some f } })))) ∧
  (∀ (uid e : Nat) (s : State),
    (∀ g, s.gang? uid = some g → g.status = .resident → (g.entry e).state ≠ .inFlight → exec (.accessComplete uid e) s = .next (s.focus uid)) ∧
    (∀ g a k v t, s.gang? uid = some g → g.status = .resident → e < 4 → (g.entry e).state = .inFlight → (g.entry e).acc = some a →
      ((∃ x, a.op.kind = .load x) ∨ a.op.kind = .store ∨ ∃ op r, a.op.kind = .atomic op r) → behindOlder (g.entry e) a.op.kind (s.focus uid) = false →
      a.recordFault (g.entry e).todo (s.focus uid) = none →
      fetchBlocks (gangRead (g.entry e).got (s.focus uid).agent) (a.tensorBase (s.focus uid)) (a.blocksOf (g.entry e).todo (s.focus uid)) ⟨(g.entry e).blocks, []⟩ (s.focus uid) = (k, v) →
      (laneList (g.entry e).todo).foldlM (fun s L => match accessLane a ⟨(g.entry e).got, k, (g.entry e).relNo⟩ L s with
        | .done u => some u
        | _ => none) v = some t → (g.entry e).parked = [] →
      exec (.accessComplete uid e) s = .next ((a.land t).setG fun g => g.setEntry e LogEntry.empty)) ∧
    (∀ g a, s.gang? uid = some g → g.status = .resident → e < 4 → (g.entry e).state = .inFlight → (g.entry e).acc = some a →
      behindOlder (g.entry e) a.op.kind (s.focus uid) = true → exec (.accessComplete uid e) s = .next (s.focus uid)) ∧
    (∀ g a, s.gang? uid = some g → g.status = .resident → e < 4 → (g.entry e).state = .inFlight → (g.entry e).acc = some a → a.op.kind = .store → a.op.window = true →
      behindOlder (g.entry e) .store (s.focus uid) = false → a.op.slot = 0 → a.op.uniform = false → (∀ L, lane (g.entry e).todo L = true → a.addr L % a.op.bytes ≠ 0) → (g.entry e).todo ≠ 0 → ∃ t, exec (.accessComplete uid e) s = .next t ∧
      t.spad = (s.focus uid).spad ∧ t.mem = s.mem ∧ (t.g.entry e).state = .faulted ∧ (t.g.entry e).replay = true ∧
      ∀ L, lane (g.entry e).todo L = true → ∃ p ∈ (t.g.entry e).parked, p.lane = L ∧ p.why.cause = 0x301))

/-- Taking a trap saves the resume point, mask, cause, detail and lanes, swaps the bank and enters packet 4g of the handler
(06_gang_traps.md R180; 06_gang_traps.md R176; 06_gang_traps.md R179; 06_gang_traps.md R188; 05_gang_flow_memory.md R169). The entry number of a trap that reports none
is log entry 58. -/
def Obligations.TrapEntry : Prop :=
  ∀ (group code entry : Nat) (det : BitVec 96) (lanes : Word) (p : Pc) (s : State), group < 32 → code < 256 → entry < 4 → s.g.handler = none →
    (s.g.busy = true → takeTrap group code det lanes entry p s = s.setG fun g => { g with pc := g.cur, src := none }) ∧
    (s.g.busy = false →
      let t := takeTrap group code det lanes entry p s
      t.g.handler = some (BitVec.ofNat 13 (256 * group + code)) ∧ t.g.r.tcause = BitVec.ofNat 13 (256 * group + code) ∧
      t.g.r.detail = det ∧ t.g.r.tlanes = lanes ∧
      t.g.r.tpc.extractLsb' 0 32 = p.packet ∧ t.g.r.tpc.extractLsb' 32 2 = p.slot ∧
      t.g.r.tslots.extractLsb' 0 32 = s.g.r.emask ∧ t.g.r.tslots.getLsbD 38 = false ∧
      (lanes ≠ 0 → (t.g.r.tslots.extractLsb' 36 2).toNat = entry) ∧
      (lanes = 0 → (∃ e : Fin 4, s.g.olog[e].state ≠ .faulted) → ∃ e : Fin 4, (t.g.r.tslots.extractLsb' 36 2).toNat = e.val ∧ s.g.olog[e].state ≠ .faulted) ∧
      (∀ e : Fin 4, t.g.r.tslots.getLsbD (32 + e.val) = decide (s.g.olog[e].state = .faulted)) ∧ t.g.r.emask = 0xFFFFFFFF ∧
      (∀ k : Fin 8, t.g.r.sreg (24 + k.val) = s.g.bank[k] ∧ t.g.bank[k] = s.g.r.sreg (24 + k.val)) ∧ (∀ k, k < 24 → t.g.r.sreg k = s.g.r.sreg k) ∧
      t.g.r = { s.g.r with s := t.g.r.s, emask := t.g.r.emask, tcause := t.g.r.tcause, tdet0 := t.g.r.tdet0, tdet1 := t.g.r.tdet1
                           tdet2 := t.g.r.tdet2, tlanes := t.g.r.tlanes, tpc := t.g.r.tpc, tslots := t.g.r.tslots } ∧
      t.g.pc = ⟨BitVec.ofNat 32 (4 * group), 0⟩ ∧ (∀ n, packetVa t n = (s.tenant s.g.tenant).handler.toNat + 12 * n.toNat) ∧
      t.g.olog = s.g.olog ∧ t.g.windows = s.g.windows ∧ t.g.monitor = s.g.monitor ∧ t = { s with g := t.g, spad := t.spad } ∧
      ((∀ c a, s.g.wait ≠ .barWait c a) → t.spad = s.spad) ∧
      ∀ c a k, s.g.wait = .barWait c a → k = c * 2 ^ 20 + a → s.memOk →
        ofBytes (t.spad.read (k + 8) 2) = ofBytes (s.spad.read (k + 8) 2) - 1 ∧ ∀ j, (j < k + 8 ∨ k + 10 ≤ j) → t.spad.get j = s.spad.get j)

/-- A trap in handler mode stops the gang and, where its event has room, its node, with the trap registers of that trap reported to the host
(06_gang_traps.md R182; 18_dispatch_engine.md R405; 19_host_management.md R416; 19_host_management.md R417). That the registers are those of
the trap that could not be taken is log entry 13. -/
def Obligations.DoubleFaults : Prop :=
  ∀ (group code entry : Nat) (det : BitVec 96) (lanes : Word) (p : Pc) (s : State) (n : Node), s.g.handler.isSome = true → s.g.busy = false →
    s.g.status = .resident → s.node? s.g.node = some n → n.error = none → n.errorHeld = none → group < 32 → code < 256 →
    let t := takeTrap group code det lanes entry p s
    let ev : HostEvent := ⟨1, s.g.die.toNat, n.desc.tenant, s.g.node, t.g.r.detail ++ t.g.r.tcause.setWidth 32, 0⟩
    t.g.status = .stopped ∧ t.g.r.tcause = BitVec.ofNat 13 (256 * group + code) ∧ t.g.r.detail = det ∧ t.mem = s.mem ∧ t.spad = s.spad ∧
    (s.host.hasRoom s.g.die.toNat = true → t.host.buffer s.g.die.toNat = s.host.buffer s.g.die.toNat ++ [ev] ∧
      (t.node? s.g.node).map Node.error = some (some ⟨3, s.g.die.toNat, t.g.r.detail ++ t.g.r.tcause.setWidth 32⟩) ∧
      (∀ g ∈ t.gangs, g.node = s.g.node → g.status = .stopped) ∧ (∀ c ∈ t.crews, c.node ≠ s.g.node) ∧ (∀ e ∈ t.ensembles, e.node ≠ s.g.node) ∧
      ∀ x ∈ t.cores, (∀ c ∈ x.2.cmds, c.node ≠ s.g.node) ∧ ∀ k ∈ x.2.tasks, k.node ≠ s.g.node) ∧
    (s.host.hasRoom s.g.die.toNat = false → t.host.buffer s.g.die.toNat = s.host.buffer s.g.die.toNat ∧ t.host.held = s.host.held ++ [ev] ∧ t.host.overflow = true ∧
      (t.node? s.g.node).map Node.error = some none ∧ (t.node? s.g.node).map Node.errorHeld = some (some (3, s.g.uid)) ∧
      t.gangs = s.gangs ∧ t.crews = s.crews ∧ t.ensembles = s.ensembles ∧ t.cores = s.cores)

/-- A word that R74, R75, R182, R184 or R126 rejects takes its trap in front of itself, with the word as detail (03_gang_words.md R74;
03_gang_words.md R75; 06_gang_traps.md R177; 06_gang_traps.md R178; 06_gang_traps.md R182; 06_gang_traps.md R184; 01_engines.md R12;
04_gang_arith.md R105; 04_gang_arith.md R126). -/
def Obligations.IssueTraps : Prop :=
  ∀ (i : Instr) (a : BitVec 5) (e : BitVec 2) (s : State),
    (i.isWord = true → ∀ c, illegalCode s (wordShapeOf i) (isFifoWord i) = some c → TrapsWith i s 5 c (wordDetail s.curWord s.g.place)) ∧
    (i.isWord = true → illegalCode s (wordShapeOf i) (isFifoWord i) = none → ∀ c, privilegeCode s (wordShapeOf i) = some c → TrapsWith i s 6 c (wordDetail s.curWord s.g.place)) ∧
    (i.isWord = true → illegalCode s (wordShapeOf i) (isFifoWord i) = none → privilegeCode s (wordShapeOf i) = none → ∀ d, convTrap s (wordShapeOf i) = some d → TrapsWith i s 2 6 d) ∧
    (i.isWord = true → 30 ≤ s.g.core.toNat → s.g.core.toNat < 40 → ((0x24 ≤ (wordShapeOf i).major ∧ (wordShapeOf i).major ≤ 0x27) ∨ isFifoWord i = true) → TrapsWith i s 5 0x0F (wordDetail s.curWord s.g.place)) ∧
    (i.isWord = true → s.g.core.toNat < 30 → ((wordShapeOf i).major = 0x22 ∨ (wordShapeOf i).major = 0x23) → TrapsWith i s 5 0x0F (wordDetail s.curWord s.g.place)) ∧
    (s.g.handler = none → TrapsWith .tret s 6 1 (wordDetail s.curWord s.g.place) ∧ TrapsWith (.tlane a e) s 6 1 (wordDetail s.curWord s.g.place) ∧ TrapsWith .tdone s 6 1 (wordDetail s.curWord s.g.place)) ∧
    (s.g.handler.isSome = true → TrapsWith .exit s 6 2 (wordDetail s.curWord s.g.place) ∧ (s.g.handler ≠ some (causeOf 16 1) → TrapsWith .tdone s 6 2 (wordDetail s.curWord s.g.place))) ∧
    (i.isWord = true → s.g.handler.isSome = true → illegalCode s (wordShapeOf i) (isFifoWord i) = none → (0x1A ≤ (wordShapeOf i).major ∧ (wordShapeOf i).major ≤ 0x1D ∨
      0x20 ≤ (wordShapeOf i).major ∧ (wordShapeOf i).major ≤ 0x33 ∨ 0x38 ≤ (wordShapeOf i).major ∧ (wordShapeOf i).major ≤ 0x3B) → TrapsWith i s 6 2 (wordDetail s.curWord s.g.place))

/-- tret, brk, tlane, tdone and exit act as R184-R187 and R190 say (06_gang_traps.md R184; 06_gang_traps.md R185; 06_gang_traps.md R186;
06_gang_traps.md R187; 06_gang_traps.md R190; 06_gang_traps.md R171; 06_gang_traps.md R175; 12_coherence_engine.md R270; 15_fabric_engine.md
R335). Which lanes the entry that a handler's run names takes is log entry 58. -/
def Obligations.SystemWords : Prop :=
  ∀ (a : BitVec 5) (e : BitVec 2) (i : BitVec 12) (s : State),
    (MayIssue .tret s = true → s.g.busy = false → s.g.anyFaulted = false → s.g.restoring = false → s.g.handlerReport = none → ∃ t, exec .tret s = .next t ∧ t.g.handler = none ∧
      t.g.pc = (if s.src.tpc.extractLsb' 32 2 = 3 then ⟨s.src.tpc.extractLsb' 0 32 + 1, 0⟩ else ⟨s.src.tpc.extractLsb' 0 32, s.src.tpc.extractLsb' 32 2⟩) ∧
      t.g.r.emask = s.src.tslots.extractLsb' 0 32 ∧ (∀ k : Fin 8, t.g.r.sreg (24 + k.val) = s.g.bank[k] ∧ t.g.bank[k] = s.g.r.sreg (24 + k.val)) ∧
      (∀ k, k < 24 → t.g.r.sreg k = s.g.r.sreg k) ∧ t.g.r = { s.g.r with s := t.g.r.s, emask := t.g.r.emask } ∧
      t.g.stepReq = (s.g.stepReq || s.src.tslots.getLsbD 38) ∧ t = { s with g := t.g } ∧
      ∀ e a, e < 4 → ((s.g.olog.toList.getD e LogEntry.empty).state ≠ .faulted → (t.g.olog.toList.getD e LogEntry.empty) = (s.g.olog.toList.getD e LogEntry.empty)) ∧ ((s.g.olog.toList.getD e LogEntry.empty).state = .faulted → (s.g.olog.toList.getD e LogEntry.empty).acc = some a →
        if (s.g.olog.toList.getD e LogEntry.empty).replay = true ∧ (if e = (s.src.tslots.extractLsb' 36 2).toNat ∧ (s.g.reported = true ∨ s.g.quietEntry.isSome = true ∨ s.src.tlanes ≠ 0) then s.src.tlanes &&& (if (s.g.olog.toList.getD e LogEntry.empty).engine then a.lanes else a.active) else parkedMask (s.g.olog.toList.getD e LogEntry.empty)) ≠ 0 then (t.g.olog.toList.getD e LogEntry.empty).state = .inFlight ∧ (t.g.olog.toList.getD e LogEntry.empty).acc = some a ∧ (t.g.olog.toList.getD e LogEntry.empty).seq = (s.g.olog.toList.getD e LogEntry.empty).seq ∧
          (t.g.olog.toList.getD e LogEntry.empty).todo = (match a.op.kind with
            | .ldtr _ => a.lanes
            | .engine _ _ => 0
            | _ => (if e = (s.src.tslots.extractLsb' 36 2).toNat ∧ (s.g.reported = true ∨ s.g.quietEntry.isSome = true ∨ s.src.tlanes ≠ 0) then s.src.tlanes &&& (if (s.g.olog.toList.getD e LogEntry.empty).engine then a.lanes else a.active) else parkedMask (s.g.olog.toList.getD e LogEntry.empty)))
        else (t.g.olog.toList.getD e LogEntry.empty) = LogEntry.empty)) ∧
    (MayIssue (.brk i) s = true → exec (.brk i) s = .next (takeTrap 18 1 (BitVec.ofNat 96 (s.curWord + s.g.cur.packet.toNat * 2 ^ 32 +
      s.g.slot.toNat * 2 ^ 64 + i.toNat * 2 ^ 66)) 0 0 s.g.pc s)) ∧
    (MayIssue (.tlane a e) s = true → ∃ t, exec (.tlane a e) s = .next t ∧ t = { s with g := t.g } ∧ t.g.r.tslots.extractLsb' 36 2 = e ∧
      (∀ k, k < 36 ∨ 37 < k → t.g.r.tslots.getLsbD k = s.g.r.tslots.getLsbD k) ∧
      (let x := s.g.olog.toList.getD e.toNat LogEntry.empty
       (x.state ≠ .faulted → t.g.r.tlanes = 0 ∧ t.g.r.tcause = 0 ∧ t.g.r.detail = 0) ∧
       (x.state = .faulted → (∀ L : Fin 32, t.g.r.tlanes.getLsbD L = x.parked.any fun p => p.lane = L) ∧
         ((∀ p ∈ x.parked, p.lane.val ≠ (s.src.sreg a.toNat).toNat % 32) → t.g.r.tcause = 0 ∧ t.g.r.detail = 0) ∧
         ∀ p ys zs, x.parked = ys ++ p :: zs → (∀ q ∈ ys, q.lane ≠ p.lane) → p.lane.val = (s.src.sreg a.toNat).toNat % 32 →
           t.g.r.tcause = p.why.cause ∧ t.g.r.detail = p.why.det)) ∧
      t.g = { s.g with reported := t.g.reported, r := { s.g.r with tslots := t.g.r.tslots, tlanes := t.g.r.tlanes, tcause := t.g.r.tcause
                                                                   tdet0 := t.g.r.tdet0, tdet1 := t.g.r.tdet1, tdet2 := t.g.r.tdet2 } }) ∧
    (∀ ids u, MayIssue .tdone s = true → s.g.busy = false → s.g.anyFaulted = false → releaseBegin .fab [] s = (ids, u) →
      let r : PendingRelease := ⟨u.nextId, u.g.uid, .fab, ids, none⟩
      (releaseDone u r = true → exec .tdone s = .next (leaveCore .saved u)) ∧
      (releaseDone u r = false → exec .tdone s = .next ({ u with nextId := u.nextId + 1, releases := u.releases ++ [r] }.setG fun g =>
        { g with relPending := some u.nextId, wait := .release }))) ∧
    (∀ (r : PendingRelease) (u : State) g, u.gang? r.gang = some g → r.scope = .fab → (∀ x ∈ u.releases, x.id < r.id) →
      (releaseDone u r = true ↔ (∀ x ∈ u.records, x.id ∉ r.records) ∧ g.outstanding = 0 ∧ ∀ x ∈ u.releases, x.gang = r.gang → x.signal = none)) ∧
    (MayIssue .exit s = true → s.g.busy = false → s.g.anyFaulted = false → s.g.engReports = [] → s.g.reports = [] → s.g.outstanding = 0 → signalsPending s s.g.uid = 0 →
      (∀ x ∈ (s.core s.g.coreIx).wc, x.gangs.contains s.g.uid = false) → (∀ c ∈ (s.core s.g.coreIx).cmds, c.gang ≠ s.g.uid) → (∀ k ∈ (s.core s.g.coreIx).tasks, k.gang ≠ s.g.uid) →
      exec .exit s = .next (leaveCore .retired s)) ∧
    (MayIssue .exit s = true → s.g.busy = false → s.g.anyFaulted = false → s.g.engReports = [] → s.g.reports ≠ [] → s.g.outstanding = 0 → signalsPending s s.g.uid = 0 →
      (∀ x ∈ (s.core s.g.coreIx).wc, x.gangs.contains s.g.uid = false) → exec .exit s = .next (takeReport (s.setG fun g => { g with pc := g.cur }))) ∧
    (MayIssue .exit s = true → s.g.busy = false → s.g.anyFaulted = false → s.g.engReports = [] → s.g.reports = [] → (∀ x ∈ (s.core s.g.coreIx).wc, x.gangs.contains s.g.uid = false) →
      (s.g.outstanding ≠ 0 ∨ (∃ c ∈ (s.core s.g.coreIx).cmds, c.gang = s.g.uid) ∨ ∃ k ∈ (s.core s.g.coreIx).tasks, k.gang = s.g.uid) →
      exec .exit s = .next (stall (s.setG fun g => { g with wait := .blocked }))) ∧
    (∀ st c, s.myCrew = some c → st = .saved ∨ st = .retired → s.g.status ≠ .vacant → (leaveCore st s).g.status = st ∧ (leaveCore st s).g.r = s.g.r ∧
      (∀ g ∈ (leaveCore st s).gangs, g ∈ s.gangs) ∧ (leaveCore st s).mem = s.mem ∧ (leaveCore st s).spad = s.spad)

/-- Of the traps due at a boundary the first of R181 is taken: error, access fault, issue trap, step, watchdog, pre-emption
(06_gang_traps.md R181; 06_gang_traps.md R172; 06_gang_traps.md R180; 06_gang_traps.md R193; 06_gang_traps.md R171). That a due fabric
report stands in front of an issue trap is log entry 101; these clauses take no report as due. -/
def Obligations.TrapOrder : Prop :=
  ∀ (tr : Option State) (s : State), s.g.handler = none → s.g.busy = false → s.g.woken = false →
    (∀ f, s.g.errorDue = some f → ∃ t, dueTrap tr s = some t ∧ t.g.r.tcause = f.cause ∧ t.g.r.detail = f.det ∧ t.g.r.tlanes = 0 ∧ t.g.errorDue = none) ∧
    (∀ e f, s.g.errorDue = none → s.g.joined = true → s.g.oldest = some e → (s.g.entry e).parked ≠ [] → f = lowestParked (s.g.entry e) → ∃ t, dueTrap tr s = some t ∧
      t.g.r.tcause = f.cause ∧ t.g.r.detail = f.det ∧ t.g.r.tlanes = parkedMask (s.g.entry e) ∧ (t.g.r.tslots.extractLsb' 36 2).toNat = e) ∧
    (s.g.errorDue = none → s.g.joined = false → s.g.engReports = [] → s.g.reports = [] →
      (∀ t, tr = some t → dueTrap tr s = some t) ∧
      (tr = none →
        (∀ d, s.g.stepDue = some d → ∃ t, dueTrap tr s = some t ∧ t.g.r.tcause = 0x1202 ∧ t.g.r.detail = d ∧ t.g.stepDue = none) ∧
        (∀ c, s.g.stepDue = none → s.g.watchdogDue = some c → ∃ t, dueTrap tr s = some t ∧ t.g.r.tcause = 0x1101 ∧
          t.g.r.detail = c.setWidth 96 ∧ t.g.watchdogDue = none ∧ t.g.runStart = s.clk) ∧
        (s.g.stepDue = none → s.g.watchdogDue = none → (s.g.evictDue = true → dueTrap tr s = some (evictTrap s)) ∧ (s.g.evictDue = false → dueTrap tr s = none)))) ∧
    (∀ G g c d, groupTrap s s.g.cur.packet G = some (g, c, d) → issueTrapOf G s = some (takeTrap g c d 0 0 s.g.cur s)) ∧
    (∀ G, groupTrap s s.g.cur.packet G = none → let isBrk (x : Slotted) : Prop := x.sh.major = 0x1F ∧ fld x.word.toNat 12 3 = 1
      ((∀ x ∈ G, ¬isBrk x) → issueTrapOf G s = none) ∧
      ∀ pre x post, G = pre ++ x :: post → (∀ y ∈ pre, ¬isBrk y) → isBrk x → issueTrapOf G s = some (takeTrap 18 1
        (BitVec.ofNat 96 (x.word.toNat + s.g.cur.packet.toNat * 2 ^ 32 + x.slot * 2 ^ 64 + fld x.word.toNat 0 12 * 2 ^ 66)) 0 0 (s.g.cur.advance G.length) s)) ∧
    (∀ uid g, s.gang? uid = some g → g.status = .resident → g.wait = .none → g.joined = false → g.engReports = [] → g.reportDue = false → g.handler = none →
      g.busy = false → (∀ f, g.errorDue = some f → ∃ t, exec (.takeTrap uid) s = .next t ∧ t.g.r.tcause = f.cause ∧ t.g.uid = uid) ∧
      (g.errorDue = none → g.stepDue = none → g.watchdogDue = none → g.evictDue = false → exec (.takeTrap uid) s = .next (s.focus uid)))

/-- A lane whose access fails is parked with the first cause found; the other lanes complete and the gang keeps issuing (06_gang_traps.md
R172; 06_gang_traps.md R174; 05_gang_flow_memory.md R141; 05_gang_flow_memory.md R145; 01_engines.md R26; 01_engines.md R31). -/
def Obligations.LanesPark : Prop :=
  ∀ (v a : BitVec 7) (l : BitVec 4) (e : Nat) (addr : Fin 32 → Nat) (s : State), s.inFlight = false → s.g.freeEntry = some e →
    (s.g.log.toList.all fun x => x.state = .free) = true → s.src.emask ≠ 0 → (∀ L, addr L = (s.src.vreg a.toNat)[L].toNat) → s.memOk →
    (MayIssue (.pldB32 v a l) s = true → ∃ t, exec (.pldB32 v a l) s = .next t ∧ (∀ L, lane s.src.emask L = true → (addr L % 4 ≠ 0 ∨ (spadKey s (addr L)).isOk = false) →
        ∃ p ∈ (t.g.entry e).parked, p.lane = L ∧ p.why.cause = (if addr L % 4 ≠ 0 then 0x301 else match spadKey s (addr L) with
          | .error w => BitVec.ofNat 13 (256 * w.group + w.code)
          | .ok _ => 0)) ∧
      (∀ p ∈ (t.g.entry e).parked, lane s.src.emask p.lane = true ∧ (addr p.lane % 4 ≠ 0 ∨ (spadKey s (addr p.lane)).isOk = false)) ∧
      (if (∃ L, lane s.src.emask L = true ∧ (addr L % 4 ≠ 0 ∨ (spadKey s (addr L)).isOk = false)) then (t.g.entry e).state = .faulted ∧ (t.g.entry e).replay = true
       else (t.g.entry e).state = .free) ∧ (∀ L, (addr L % 4 ≠ 0 ∨ (spadKey s (addr L)).isOk = false) → (t.g.r.vreg v.toNat)[L] = (s.g.r.vreg v.toNat)[L]) ∧
      (∀ L k, lane s.src.emask L = true → addr L % 4 = 0 → spadKey s (addr L) = .ok k → (t.g.r.vreg v.toNat)[L] = BitVec.ofNat 32 (ofBytes (s.spad.read k 4))) ∧ t.spad = s.spad) ∧
    (MayIssue (.pstB32 v a l) s = true → ∃ t, exec (.pstB32 v a l) s = .next t ∧ (∀ L, lane s.src.emask L = true → (addr L % 4 ≠ 0 ∨ (spadKey s (addr L)).isOk = false) →
        ∃ p ∈ (t.g.entry e).parked, p.lane = L ∧ p.why.cause = (if addr L % 4 ≠ 0 then 0x301 else match spadKey s (addr L) with
          | .error w => BitVec.ofNat 13 (256 * w.group + w.code)
          | .ok _ => 0)) ∧
      (∀ p ∈ (t.g.entry e).parked, lane s.src.emask p.lane = true ∧ (addr p.lane % 4 ≠ 0 ∨ (spadKey s (addr p.lane)).isOk = false)) ∧
      (if (∃ L, lane s.src.emask L = true ∧ (addr L % 4 ≠ 0 ∨ (spadKey s (addr L)).isOk = false)) then (t.g.entry e).state = .faulted ∧ (t.g.entry e).replay = true
       else (t.g.entry e).state = .free) ∧ (∀ x, (∀ L k, lane s.src.emask L = true → addr L % 4 = 0 → spadKey s (addr L) = .ok k → x < k ∨ k + 4 ≤ x) → t.spad.get x = s.spad.get x) ∧ t.g.r = s.g.r)

/-- A copy word has no effect without a leader, waits, is rejected with the first failure of R428, or is accepted at once (08_copy_engine.md
R199; 08_copy_engine.md R201; 08_copy_engine.md R202; 08_copy_engine.md R204; 08_copy_engine.md R206; 08_copy_engine.md R207;
08_copy_engine.md R208; 08_copy_engine.md R209; 08_copy_engine.md R212; 08_copy_engine.md R428; 06_gang_traps.md R175). The kind and
identifier beside a code where R222 gives none are log entry 33. -/
def Obligations.CopyWords : Prop :=
  ∀ (a b c : BitVec 5) (k : BitVec 3) (l : BitVec 4) (s : State),
    CopyWord (.cpLd a b c k l) 0 k.toNat a.toNat b.toNat c.toNat s ∧
    CopyWord (.cpSt a b c k l) 1 k.toNat a.toNat b.toNat c.toNat s ∧
    CopyWord (.cpLdq a b c k l) 2 k.toNat a.toNat b.toNat c.toNat s ∧
    CopyWord (.cpFifo a c k l) 3 k.toNat a.toNat 0 c.toNat s ∧
    CopyWord (.cpMc a b c k l) 4 k.toNat a.toNat b.toNat c.toNat s ∧
    ∀ op acc w, copyFault op acc w s = firstFault (copyChecks op acc w s)

/-- cp.grant, cp.slots and cp.count act on the slot count and command count; xp.run is accepted, rejected or waits by its card
(08_copy_engine.md R213; 08_copy_engine.md R217; 08_copy_engine.md R218; 08_copy_engine.md R201; 08_copy_engine.md R428; 06_gang_traps.md
R175). The kinds of the details are log entry 33, the lane of a word without lanes log entry 34, and a mapping refused by coherence counts
as a translation failure by log entry 105. -/
def Obligations.ExpansionAndSlotWords : Prop :=
  ∀ (a d : BitVec 5) (k : BitVec 3) (l : BitVec 4) (s : State),
    (∀ e w, Offers (.cpGrant a) s 1 e → s.myCrew = some w → 1 ≤ (s.src.sreg a.toNat).toNat → (s.src.sreg a.toNat).toNat ≤ 15 → w.slots + (s.src.sreg a.toNat).toNat ≤ 15 → Leaves (.cpGrant a) s (s.setCrew w.uid fun r => { r with slots := r.slots + (s.src.sreg a.toNat).toNat })) ∧
    (∀ e w, Offers (.cpGrant a) s 1 e → s.myCrew = some w → ((s.src.sreg a.toNat).toNat = 0 ∨ 15 < (s.src.sreg a.toNat).toNat ∨ 15 < w.slots + (s.src.sreg a.toNat).toNat) → Rejected (.cpGrant a) 1 e s s 7 0x0B 0 7 0 0 false) ∧
    (∀ e, Offers (.cpSlots d l) s 1 e → Leaves (.cpSlots d l) s (s.setR fun r => r.setS d.toNat (BitVec.ofNat 64 (match s.myCrew with
        | some w => w.slots
        | none => 0)))) ∧
    (∀ e, Offers (.cpCount d l) s 1 e → Leaves (.cpCount d l) s (s.setR fun r => r.setS d.toNat (BitVec.ofNat 64 (((s.core s.g.coreIx).cmds.filter fun q => q.gang = s.g.uid).length)))) ∧
    (MayIssue (.xpRun a k l) s = true → (s.src.preg k.toNat &&& s.src.emask) = 0 → Leaves (.xpRun a k l) s s) ∧
    (∀ e w, Offers (.xpRun a k l) s (s.src.preg k.toNat &&& s.src.emask) e → s.myCrew = some w → freeSlot s w.core w.uid s.g.stage.toNat = none → WaitsAtIssue (.xpRun a k l) s) ∧
    (∀ e w own, Offers (.xpRun a k l) s (s.src.preg k.toNat &&& s.src.emask) e → s.myCrew = some w → freeSlot s w.core w.uid s.g.stage.toNat = some own → (s.src.sreg a.toNat).toNat % 64 ≠ 0 →
      Rejected (.xpRun a k l) (s.src.preg k.toNat &&& s.src.emask) e s s 9 0x0A (s.src.sreg a.toNat).toNat 3 0 0 false) ∧
    (∀ e w own x u, Offers (.xpRun a k l) s (s.src.preg k.toNat &&& s.src.emask) e → s.myCrew = some w → freeSlot s w.core w.uid s.g.stage.toNat = some own → (s.src.sreg a.toNat).toNat % 64 = 0 → s.g.card = none →
      readLong s.client.read (linesFor 64) (s.src.sreg a.toNat).toNat 64 s = .bad x u →
      Rejected (.xpRun a k l) (s.src.preg k.toNat &&& s.src.emask) e s u 9 (if engineCode x = 0x10 then 0x10 else 0x11) x.addr 3 0 0 x.stage2) ∧
    (∀ e w own y u, Offers (.xpRun a k l) s (s.src.preg k.toNat &&& s.src.emask) e → s.myCrew = some w → freeSlot s w.core w.uid s.g.stage.toNat = some own → (s.src.sreg a.toNat).toNat % 64 = 0 → s.g.card = none →
      readLong s.client.read (linesFor 64) (s.src.sreg a.toNat).toNat 64 s = .ok y u →
      (parseCard y = none → Rejected (.xpRun a k l) (s.src.preg k.toNat &&& s.src.emask) e s u 9 0x0A (s.src.sreg a.toNat).toNat 3 0 0 false) ∧
      ∀ z, parseCard y = some z → u.g.card = none → (z.push && ringFull u w z.queue) = false →
        (∀ code addr kind ident, runFault z (s.src.sreg a.toNat).toNat w u = some (code, addr, kind, ident) → Rejected (.xpRun a k l) (s.src.preg k.toNat &&& s.src.emask) e s u 9 code addr kind ident 0 false) ∧
        (runFault z (s.src.sreg a.toNat).toNat w u = none → ∃ t q, Leaves (.xpRun a k l) s t ∧ t.g = u.g ∧ t.mem = u.mem ∧ (t.core w.core).cmds = (u.core w.core).cmds ++ [q] ∧ q.op = 5 ∧
          q.id = u.nextId ∧ q.gang = u.g.uid ∧ q.card = some z ∧ q.done = 0 ∧ q.fault = none ∧ q.barrier = (if z.be then some z.barrier else none))) ∧
    ∀ z va w, runFault z va w s = firstFault (runChecks z va w s)

/-- A command lands its sectors one by one, completes with its tiles handed back before its last count, or reports its fault
(08_copy_engine.md R200; 08_copy_engine.md R206; 08_copy_engine.md R208; 08_copy_engine.md R211; 08_copy_engine.md R220; 08_copy_engine.md
R222; 08_copy_engine.md R209; 02_numbers_tensors.md R45). That a mapping refused by coherence (group 10) counts as a translation failure is
log entry 105; that each element is rounded once for all receivers, and in box order for a FIFO, log entry 113; that an element under scale
0xFF steps the source too, log entry 96. -/
def Obligations.CopyEvents : Prop :=
  ∀ (core id : Nat) (s : State),
    (∀ q me G P r t, q.card = none → s.crew? q.crew = some me → q.recordFor core s q.gId = some G → q.recordFor core s q.pId = some P →
      (q.op ≠ 1 → q.op ≠ 3 → Each (ElemIn q core G P me) (q.due P) q.rnd s r t → moveSector q core s = .ok r t) ∧
      (q.op = 1 → Each (ElemOut q core G P me) (q.due P) q.rnd s r t → moveSector q core s = .ok r (landWrites (core / 40) t)) ∧
      (∀ cs, q.op = 3 → Each (ElemFifo q core G P) (((boxOf P.ext).drop (q.done * (256 / P.elem.bits))).take (256 / P.elem.bits)) ([], q.rnd) s (cs, r) t →
        let bs := toBytes 32 (cs.zipIdx.map fun x => x.1 * 2 ^ (P.elem.bits * x.2)).sum
        moveSector q core s = .ok r (t.setCore core fun k => if q.fifoB then { k with fifoB := k.fifoB ++ bs } else { k with fifoA := k.fifoA ++ bs })) ∧
      (∀ b, b ∈ q.due P ↔ b ∈ boxOf P.ext ∧ (q.window + (P.place b).1) / 32 = (windowSectors q.window P.boxBytes).getD q.done 0) ∧
      (q.due P).Pairwise fun x y => P.bitOf x ≤ P.bitOf y) ∧
    (∀ q me k, q.card = some k → s.crew? q.crew = some me →
      let base := k.base s core q.node
      let sec := (k.sectors base).getD q.done 0
      let lo := max base (32 * sec)
      let bs := (q.image.drop (lo - base)).take (min (base + k.olen) (32 * sec + 32) - lo)
      (k.kind ≠ 1 → moveSector q core s = .ok q.rnd (landWrites (core / 40) (padWrite me 0 lo bs s))) ∧
      ∀ x u, k.kind = 1 → (q.client core).write q.id lo bs s = .ok x u → moveSector q core s = .ok q.rnd (landWrites (core / 40) u)) ∧
    (∀ raw P (me : Crew) w b code, recordFields raw = some P → code < 2 ^ P.elem.fmt.width → s.spad.wf = true →
      let t := padPut me P w b code s
      let at_ := me.key (swizzle P.swz (w + (P.place b).1) - me.offset)
      t = { s with spad := t.spad } ∧ padCode me P w b t = code ∧ (∀ x, x < at_ ∨ at_ + P.cbytes ≤ x → t.spad.get x = s.spad.get x) ∧
        (P.elem.cont = 0 → ∀ n < 8, n < (P.place b).2 ∨ (P.place b).2 + P.elem.fmt.width ≤ n → (t.spad.get at_).getLsbD n = (s.spad.get at_).getLsbD n)) ∧
    (findCmd s core id = none → exec (.sectorLanded core id) s = .next s ∧ exec (.copyCommandComplete core id) s = .next s ∧ exec (.copyFaultReport core id) s = .next s) ∧
    (∀ q, findCmd s core id = some q → (q.suspended = true ∨ q.fault.isSome = true ∨ q.units ≤ q.done) → exec (.sectorLanded core id) s = .next s) ∧
    (∀ q r u, findCmd s core id = some q → cmdRuns s core q = true → q.done < q.units → q.sent = false → (q.card = none ∨ q.image ≠ []) → moveSector q core s = .ok r u →
      (∀ p ∈ u.packets, p.cmd ≠ id) → exec (.sectorLanded core id) s = .next ((if q.op ≠ 3 ∧ q.done + 1 < q.units then countAt q 1 else fun t => t)
        (setCmd core id (fun c => { c with done := c.done + 1, sent := false }) (setCmd core id (fun c => { c with rnd := r, sent := true }) u)))) ∧
    (∀ q w u, findCmd s core id = some q → cmdRuns s core q = true → q.done < q.units → q.sent = false → q.card = none → moveSector q core s = .bad w u → w.group ≠ 9 →
      ∃ t f, exec (.sectorLanded core id) s = .next t ∧ t = setCmd core id (fun c => { c with fault := some f, suspended := decide (w.group = 1 ∨ w.group = 10) }) u ∧
        f.cause = BitVec.ofNat 13 (256 * q.group + if w.group = 1 ∨ w.group = 10 then 0x10 else if w.group = 2 then (if w.code = 0x0A then 0x25 else 0x11) else 0x12)) ∧
    (∀ q, findCmd s core id = some q → cmdRuns s core q = true → q.done = q.units → (∀ p ∈ s.packets, p.cmd ≠ id) → ∃ t, exec (.copyCommandComplete core id) s = .next t ∧
      (∀ c ∈ (t.core core).cmds, c.id ≠ id) ∧ (∀ w ∈ t.crews, ∀ x ∈ w.tiles, id ∉ x.2) ∧ t.mem = s.mem ∧
      (q.op ≠ 3 → t = countAt q 1 (fillEntry q false (releaseTiles id (dropCmd core id s))))) ∧
    (∀ q, findCmd s core id = some q → q.done ≠ q.units → exec (.copyCommandComplete core id) s = .next s) ∧
    (∀ q, findCmd s core id = some q → q.fault = none → exec (.copyFaultReport core id) s = .next s) ∧
    (∀ q f, findCmd s core id = some q → q.fault = some f → q.suspended = true → exec (.copyFaultReport core id) s = .next (setCmd core id (fun c => { c with fault := none })
      (s.updGang q.gang fun g => { g with engReports := g.engReports ++ [⟨f, core, id, true⟩] }))) ∧
    (∀ q f w, findCmd s core id = some q → q.fault = some f → q.suspended = false → q.op = 0 → q.card = none → s.crew? q.crew = some w → s.memOk → ∃ t, exec (.copyFaultReport core id) s = .next t ∧
      (∀ c ∈ (t.core core).cmds, c.id ≠ id) ∧ (∀ w ∈ t.crews, ∀ x ∈ w.tiles, id ∉ x.2) ∧ t.mem = s.mem ∧
      (t.gang? q.gang).map Gang.engReports = (s.gang? q.gang).map (fun g => g.engReports ++ [⟨f, core, id, false⟩]) ∧
      ∀ k, q.barrier = some k → bits (barrierAt t (w.key (k - w.offset))) 95 80 = f.cause.toNat)

/-- mtask and mdrain enqueue the record they read, wait while the queue is full, or are rejected with the first failure of R429
(10_matrix_engine.md R233; 10_matrix_engine.md R237; 10_matrix_engine.md R238; 10_matrix_engine.md R239; 10_matrix_engine.md R235;
10_matrix_engine.md R236; 10_matrix_engine.md R429; 06_gang_traps.md R175). The tag and identifier of a fault found before the record is
read are log entry 41, and the kinds log entry 33. -/
def Obligations.MatrixWords : Prop :=
  ∀ (a b d : BitVec 5) (k : BitVec 3) (l : BitVec 4) (s : State),
    let m := s.src.preg k.toNat &&& s.src.emask
    let va := (s.src.sreg a.toNat).toNat
    ((MayIssue (.mtask a k l) s = true → m = 0 → Leaves (.mtask a k l) s s) ∧
      ∀ e w, Offers (.mtask a k l) s m e → s.myCrew = some w → (16 ≤ (s.core w.core).tasks.length → WaitsAtIssue (.mtask a k l) s) ∧
        ((s.core w.core).tasks.length < 16 → (va % 64 ≠ 0 → Rejected (.mtask a k l) m e s s 8 0x0A va 0 0 0 false) ∧
          ∀ y u, va % 64 = 0 → readLong s.client.read (linesFor 64) va 64 s = .ok y u → ∀ t : Task, t.words = (List.range 8).map (fun n => BitVec.ofNat 64 (ofBytes (slice y (8 * n) 8))) →
            t.id = u.nextId → t.gang = u.g.uid → t.crew = w.uid → t.tenant = u.g.tenant → t.node = u.g.node → Leads m t.leader → t.state = .queued → t.group = 0 → t.sectors = 0 → t.total = 0 →
            t.rnd = seedOf t.tag u.g.gangNo.toNat → t.values = [] → t.prevOpen = false → t.scaleA = [] → t.scaleB = [] → t.suspended = false → t.behind = [] → t.fault = none →
            (¬(t.kind = 0 ∧ t.bad = false) → Rejected (.mtask a k l) m e s u 8 0x0A va 0 0 t.tag false) ∧
            (t.kind = 0 → t.bad = false → (∀ code addr kind ident, computeFault t va u = some (code, addr, kind, ident) → Rejected (.mtask a k l) m e s u 8 code addr kind ident t.tag false) ∧
              (computeFault t va u = none → ∃ z, Leaves (.mtask a k l) s z ∧ z.g = u.g ∧ z.mem = u.mem ∧ z.spad = u.spad ∧
                (z.core w.core).tasks = (u.core w.core).tasks ++ [{ t with total := t.sectorCount (recordFields (recordOf u (BitVec.ofNat 8 t.dest))) }] ∧
                (z.core w.core).tiles = (u.core w.core).tiles)))) ∧
    ((MayIssue (.mdrain a k l) s = true → m = 0 → Leaves (.mdrain a k l) s s) ∧
      ∀ e w, Offers (.mdrain a k l) s m e → s.myCrew = some w → (16 ≤ (s.core w.core).tasks.length → WaitsAtIssue (.mdrain a k l) s) ∧
        ((s.core w.core).tasks.length < 16 → (va % 64 ≠ 0 → Rejected (.mdrain a k l) m e s s 8 0x0A va 0 0 0 false) ∧
          ∀ y u, va % 64 = 0 → readLong s.client.read (linesFor 64) va 64 s = .ok y u → ∀ t : Task, t.words = (List.range 8).map (fun n => BitVec.ofNat 64 (ofBytes (slice y (8 * n) 8))) →
            t.id = u.nextId → t.gang = u.g.uid → t.crew = w.uid → t.tenant = u.g.tenant → t.node = u.g.node → Leads m t.leader → t.state = .queued → t.group = 0 → t.sectors = 0 → t.total = 0 →
            t.rnd = seedOf t.tag u.g.gangNo.toNat → t.values = [] → t.prevOpen = false → t.scaleA = [] → t.scaleB = [] → t.suspended = false → t.behind = [] → t.fault = none →
            (¬(t.kind ≠ 0 ∧ t.bad = false) → Rejected (.mdrain a k l) m e s u 8 0x0A va 0 0 t.tag false) ∧
            (t.kind ≠ 0 → t.bad = false → (∀ code addr kind ident, drainFault t va w u = some (code, addr, kind, ident) → Rejected (.mdrain a k l) m e s u 8 code addr kind ident t.tag false) ∧
              (drainFault t va w u = none → ∃ z, Leaves (.mdrain a k l) s z ∧ z.g = u.g ∧ z.mem = u.mem ∧ z.spad = u.spad ∧
                (z.core w.core).tasks = (u.core w.core).tasks ++ [{ t with total := t.sectorCount (recordFields (recordOf u (BitVec.ofNat 8 t.dest))) }] ∧
                (z.core w.core).tiles = (u.core w.core).tiles)))) ∧
    (∀ e T, Offers (.mstat d b l) s 1 e → T = tileOf (s.core s.g.coreIx) ((s.src.sreg b.toNat).toNat % 16) → Leaves (.mstat d b l) s (s.setR fun r => r.setS d.toNat (BitVec.ofNat 64
      ((s.core s.g.coreIx).tasks.length + T.arrivals * 2 ^ 8 + (if T.open_ then 2 ^ 16 else 0) +
        (if ((s.core s.g.coreIx).latchA.map Latch.full).getD false then 2 ^ 17 else 0) + (if ((s.core s.g.coreIx).latchB.map Latch.full).getD false then 2 ^ 18 else 0))))) ∧
    ∀ t va w, computeFault t va s = firstFault (computeChecks t va s) ∧ drainFault t va w s = firstFault (drainChecks t va w s)

/-- A task starts in queue order, accumulates k-groups as R234 says, writes what it drains, completes, applies an arrival whole, or reports its
fault (10_matrix_engine.md R234; 10_matrix_engine.md R240; 10_matrix_engine.md R241; 10_matrix_engine.md R244; 10_matrix_engine.md R245;
10_matrix_engine.md R246; 10_matrix_engine.md R248; 10_matrix_engine.md R231; 10_matrix_engine.md R242; 10_matrix_engine.md R243). -/
def Obligations.MatrixEvents : Prop :=
  ∀ (c id : Nat) (s : State),
    (∀ t pre post, unfinished s c = none → matrixPaused s c = false → (s.core c).tasks = pre ++ t :: post → (∀ x ∈ pre, x.state ≠ .queued) → t.state = .queued → pre.length < 2 →
      pre.any (Task.starved s c) = false → taskReady (s.core c) pre t = true → t.kind ≠ 0 →
      let T := tileOf (s.core c) t.tile
      exec (.taskStart c) s = .next (drainOn c t.id (setTask c t.id (fun x => { x with state := .running, values := T.acc.toList, prevOpen := T.open_ })
        (setTile c t.tile (fun T => ⟨if t.zero then Vector.replicate 4096 0 else T.acc, T.open_ && decide (t.awaits = 0), T.arrivals - t.awaits⟩) s)))) ∧
    (∀ t, unfinished s c = some t → exec (.taskStart c) s = .next (drainOn c t.id s)) ∧
    (∀ t w D, findTask s c id = some t → t.state = .running → t.suspended = false → (∀ x ∈ s.records, x.id ∉ t.behind) → t.fault = none →
      recordFields (recordAt s c t.node t.dest) = some D → s.crew? t.crew = some w → t.group < (t.units D).length → t.kind = 1 ∨ t.kind = 2 →
      let n := (t.units D).length
      (t.adds = false → ∀ r v, Each (DrainUnit t D w c) ((t.units D).drop t.group) t.rnd s r v →
        let u := setTask c id (fun x => { x with group := n, rnd := r }) (landWrites (c / 40) v)
        drainOn c id s = countTo c t (if t.kind = 2 then t.sectorsDone D n u else t.total) u) ∧
      (t.kind = 2 → D.smode = 0 → t.adds = false → ∀ pre x post r v y u, (t.units D).drop t.group = pre ++ x :: post → Each (DrainMem t D c) pre t.rnd s r v → D.inBounds (t.place x) = true →
        D.writeElem (t.client c).read (t.client c).readForWrite ((t.client c).write t.id) (modeCode t.mode) (rndBehind (modeCode t.mode) r) (t.place x) (t.value x) v = .bad y u → y.group ≠ 8 →
        ∃ q f, findTask (drainOn c id s) c id = some q ∧ q.fault = some f ∧ q.group = t.group + pre.length ∧ q.suspended = decide (y.group = 1 ∨ y.group = 10) ∧
          f.cause = BitVec.ofNat 13 (0x800 + if y.group = 1 ∨ y.group = 10 then 0x10 else if y.group = 2 then (if y.code = 0x0A then 0x25 else 0x11) else 0x12)) ∧
      (t.adds = true → ∀ l s0, addPlaces t D c (t.groups D) s = .ok l s0 → ∀ r v, Each (AddHome t D) l t.rnd (l.foldl (fun s x => addReady (c / 40) D.cbytes x s) s0) r v →
        drainOn c id s = countTo c t t.total (setTask c id (fun x => { x with group := n, rnd := r }) (AddPatch t D c l (bumpLines (sortedNats (l.map fun x => lineOf x.1)) v)))) ∧
      (t.adds = true → ∀ y s0, addPlaces t D c (t.groups D) s = .bad y s0 → (drainOn c id s).mem = s0.mem ∧ ∃ q f, findTask (drainOn c id s) c id = some q ∧ q.fault = some f ∧
        (y.group = 8 → f.cause = BitVec.ofNat 13 (0x800 + y.code)))) ∧
    (∀ t, findTask s c id = some t → t.state = .running → t.kind = 3 → t.suspended = false → (∀ x ∈ s.records, x.id ∉ t.behind) → t.fault = none →
      let to_ := bits (t.w 5) 12 0
      let sent := setTask c id fun x => { x with state := .sent }
      (to_ = s.pkg.toNat → drainOn c id s = sent { s with
        nextId := s.nextId + 1
        arrivals := s.arrivals ++ [⟨s.nextId, to_, c, id, 0, t.tenant, BitVec.ofNat 64 (t.w 4), BitVec.ofNat 64 (t.w 5), t.values, false⟩] }) ∧
      (to_ ≠ s.pkg.toNat → s.domain.contains to_ = true → drainOn c id s =
        sent (sendPacket (to_ * 2 ^ 46) 0 (.drain (BitVec.ofNat 64 (t.w 4)) (BitVec.ofNat 64 (t.w 5)) t.values) [] id t.node t.tenant false s)) ∧
      (to_ ≠ s.pkg.toNat → s.domain.contains to_ = false → ∃ q f, findTask (drainOn c id s) c id = some q ∧ q.fault = some f ∧ f.cause = 0x813 ∧ q.suspended = false)) ∧
    (∀ t pre post, unfinished s c = none → matrixPaused s c = false → (s.core c).tasks = pre ++ t :: post → (∀ x ∈ pre, x.state ≠ .queued) → t.state = .queued → pre.length < 2 →
      pre.any (Task.starved s c) = false → taskReady (s.core c) pre t = true → (∀ x ∈ pre ++ post, x.id ≠ t.id) → t.kind = 0 → ∃ u, exec (.taskStart c) s = .next u ∧
        (u.core c).tasks = pre ++ { t with state := .running } :: post ∧ u.mem = s.mem ∧ u.g = s.g ∧
        (t.zero = false → (u.core c).tiles = (s.core c).tiles) ∧
        (t.zero = true → ∀ (v : Vector Tile 16) (h : t.tile < 16), (s.core c).tiles = some v →
          (u.core c).tiles = some (v.set t.tile ⟨Vector.replicate 4096 0, v[t.tile].open_, v[t.tile].arrivals⟩))) ∧
    (∀ t pre post, unfinished s c = none → (s.core c).tasks = pre ++ t :: post → (∀ x ∈ pre, x.state ≠ .queued) → t.state = .queued →
      (matrixPaused s c = true ∨ 2 ≤ pre.length ∨ pre.any (Task.starved s c) = true ∨ taskReady (s.core c) pre t = false) → exec (.taskStart c) s = .next s) ∧
    (∀ t A B sa sb xa xb (v : Vector Tile 16) (h : t.tile < 16), findTask s c id = some t → matrixPaused s c = false → t.kind = 0 → t.state = .running →
      recordFields (recordAt s c t.node (t.ident false)) = some A → recordFields (recordAt s c t.node (t.ident true)) = some B → t.group < A.extent 2 →
      operandBytes (s.core c) t false A = some (sa, xa) → operandBytes (s.core c) t true B = some (sb, xb) → (s.core c).tiles = some v → ∃ u, exec (.kgroupCompute c id) s = .next u ∧
      u.mem = s.mem ∧ u.g = s.g ∧ ∃ w : Vector Tile 16, (u.core c).tiles = some w ∧ (∀ (k : Nat) (hk : k < 16), k ≠ t.tile → w[k] = v[k]) ∧
        w[t.tile].open_ = v[t.tile].open_ ∧ w[t.tile].arrivals = v[t.tile].arrivals ∧ ∀ m n : Fin 64, w[t.tile].acc[64 * m.val + n.val] =
          (out32 (xadd (f32 v[t.tile].acc[64 * m.val + n.val]) (toX32 (xsum false ((List.range 32).map fun j =>
            (xmul ((sliceRow A.elem xa m.val (scaleAt t false sa m.val)).getD j (.fin false 0 0)) ((sliceRow B.elem xb n.val (scaleAt t true sb n.val)).getD j (.fin false 0 0))).1)).1))).1) ∧
    (∀ t, findTask s c id = some t → taskDone s c t = true → (∀ x ∈ (s.core c).tasks, x.id = id → x = t) → ∃ u, exec (.taskComplete c id) s = .next u ∧
      (∀ x ∈ (u.core c).tasks, x.id ≠ id) ∧ (∀ w ∈ u.crews, ∀ x ∈ w.tiles, id ∉ x.2) ∧ u.mem = s.mem ∧
      (t.opens = true → ∀ (v : Vector Tile 16) (h : t.tile < 16), (s.core c).tiles = some v → ∃ w : Vector Tile 16, (u.core c).tiles = some w ∧ w[t.tile].open_ = true ∧ w[t.tile].acc = v[t.tile].acc)) ∧
    (∀ t, findTask s c id = some t → taskDone s c t = false → exec (.taskComplete c id) s = .next s) ∧
    (∀ x w (v : Vector Tile 16) (h : x.tile < 16), s.arrivals.find? (fun y => y.id = id && !y.applied) = some x → (x.src = s.pkg.toNat → (x.sender s).isSome = true) →
      targetOf s x.tenant x.w4.toNat x.w5.toNat = .here w → (s.core w.core).tiles = some v → v[x.tile].open_ = true → v[x.tile].arrivals < 255 → (∀ y ∈ (s.core w.core).tasks, y.tile = x.tile → y.state = .queued) →
      ∃ u z, exec (.arrivalApply id) s = .next u ∧ (u.core w.core).tiles = some z ∧ z[x.tile].arrivals = v[x.tile].arrivals + 1 ∧ z[x.tile].open_ = true ∧ u.mem = s.mem ∧
        (∀ k : Fin 4096, z[x.tile].acc[k] = (fAdd v[x.tile].acc[k] (x.values.getD k.val 0)).1) ∧ (∀ (k : Nat) (hk : k < 16), k ≠ x.tile → z[k] = v[k]) ∧
        (∀ y ∈ u.arrivals, y.id = id → x.src = s.pkg.toNat ∧ y.applied = true) ∧
        ∀ p ∈ u.packets, p.id = x.packet → x.src ≠ s.pkg.toNat → p.applied = true) ∧
    (∀ x, s.arrivals.find? (fun y => y.id = id && !y.applied) = some x → (x.src = s.pkg.toNat → (x.sender s).isSome = true) →
      (targetOf s x.tenant x.w4.toNat x.w5.toNat = .away → exec (.arrivalApply id) s = .next s) ∧
      (targetOf s x.tenant x.w4.toNat x.w5.toNat = .absent → ∃ u, exec (.arrivalApply id) s = .next u ∧ (∀ y ∈ u.arrivals, y.id ≠ id) ∧ u.mem = s.mem ∧
        (∀ k, (u.core k).tiles = (s.core k).tiles) ∧ (x.src ≠ s.pkg.toNat → ∀ p ∈ u.packets, p.id ≠ x.packet) ∧
        (x.src = s.pkg.toNat → ∃ q f, findTask u x.core x.task = some q ∧ q.fault = some f ∧ f.cause = 0x813 ∧ q.suspended = false))) ∧
    (∀ t, findTask s c id = some t → t.state = .sent → t.fault = none → (∀ p ∈ s.packets, p.cmd ≠ id) → (s.arrivalsOf c id).all Arrival.applied = true →
      ∃ u, exec (.peerAcknowledge c id) s = .next u ∧ (∀ y ∈ (u.core c).tasks, y.id ≠ id) ∧ u.arrivalsOf c id = [] ∧ u.mem = s.mem) ∧
    (∀ t f, findTask s c id = some t → t.fault = some f → t.suspended = true → exec (.matrixFaultReport c id) s = .next (setTask c id (fun x => { x with fault := none })
      (s.updGang t.gang fun g => { g with engReports := g.engReports ++ [⟨f, c, id, true⟩] }))) ∧
    (∀ t f, findTask s c id = some t → t.fault = some f → t.suspended = false → t.kind ≠ 2 → ∃ u, exec (.matrixFaultReport c id) s = .next u ∧ (∀ y ∈ (u.core c).tasks, y.id ≠ id) ∧
      (∀ w ∈ u.crews, ∀ x ∈ w.tiles, id ∉ x.2) ∧ u.mem = s.mem)

/-- ld.acq reads at its scope and then acquires; st.rel releases and then stores; the fences release, acquire or do both
(12_coherence_engine.md R270; 12_coherence_engine.md R271; 12_coherence_engine.md R272; 12_coherence_engine.md R274; 12_coherence_engine.md
R275; 12_coherence_engine.md R269; 06_gang_traps.md R192; 01_engines.md R24). The forms in the log are log entry 31, and the copy not kept
log entry 93. -/
def Obligations.AcquiresReleasesFences : Prop :=
  ∀ (v a : BitVec 7) (b : BitVec 4) (sc : BitVec 3) (l : BitVec 4) (s : State),
    (MayIssue (.ldAcqB32 v a b sc l) s = true → s.src.emask = 0 → Leaves (.ldAcqB32 v a b sc l) s s) ∧ (MayIssue (.stRelB32 v a b sc l) s = true → s.src.emask = 0 → Leaves (.stRelB32 v a b sc l) s s) ∧
    (let x := capVector (mopAt .acqLoad sc.toNat v.toNat) a.toNat b.toNat [] s
     ∀ e u z, MayIssue (.ldAcqB32 v a b sc l) s = true → s.src.emask ≠ 0 → s.g.freeEntry = some e → s.g.busyBeyondReleases = false → overlapsFlight s x = false →
      (laneList s.src.emask).foldlM (fun s1 L => acqLane (scopeOf sc.toNat) (laneAddr s a.toNat b.toNat L) (put32 v.toNat L) s1) { s with nextId := s.nextId + 1 } = some u →
      (let t := x.land u
       let fpas := laneFpas t s.src.emask fun L => laneAddr s a.toNat b.toNat L
       let scp := raisedScope t fpas (scopeOf sc.toNat)
       AcquiredFrom scp (if scp = .dev then keepTags (fpas.map fun y => tagOf t y) else []) (if scp = .dev then dropOutrun s.g.die.toNat fpas t else t) z) →
      Leaves (.ldAcqB32 v a b sc l) s (z.setG fun g => g.setEntry e LogEntry.empty)) ∧
    (let x := capVector (mopAt .relStore sc.toNat 0) a.toNat b.toNat [v.toNat] s
     ∀ e ls s1 scp y u, MayIssue (.stRelB32 v a b sc l) s = true → s.src.emask ≠ 0 → s.g.freeEntry = some e → s.g.opens = false → x.early e s = { todo := s.src.emask, parked := [] } →
      flagLines x { s with nextId := s.nextId + 1 } = (ls, s1) → scp = storeScope x s1 →
      relBegin scp (if scp = .dev then sortedNats ((s1.waiters.filter fun w => ls.contains w.line).map Waiter.die) else []) { x.newEntry s with todo := s.src.emask } s1 = (y, u) →
      (relWaits scp y u = true ∨ (∃ z ∈ s.g.log.toList, z.flies MemKind.fences = true ∧ z.seq < s.nextId) → exec (.stRelB32 v a b sc l) s = .next (openWindow (wordShapeOf (.stRelB32 v a b sc l)) (some e) (u.setG fun g => g.setEntry e y))) ∧
      ∀ w, relWaits scp y u = false → s.g.flies MemKind.fences = false → (laneList s.src.emask).foldlM (fun s2 L => relLane x y.relNo (laneAddr s a.toNat b.toNat L) (s.src.vreg v.toNat)[L].toNat s2) u = some w →
        Leaves (.stRelB32 v a b sc l) s ((if scp = .dev then { x.land w with waiters := (x.land w).waiters.filter fun k => !ls.contains k.line } else x.land w).setG fun g =>
          g.setEntry e LogEntry.empty)) ∧
    (∀ e y u, MayIssue (.fenceRel sc) s = true → s.g.freeEntry = some e → s.g.opens = false → relBegin (scopeOf sc.toNat) [] (fenceEntry true false (scopeOf sc.toNat) s) { s with nextId := s.nextId + 1 } = (y, u) →
      (relWaits (scopeOf sc.toNat) y u = true → exec (.fenceRel sc) s = .next (u.setG fun g => g.setEntry e y)) ∧
      (relWaits (scopeOf sc.toNat) y u = false → exec (.fenceRel sc) s = .next ((ReportsDue (scopeOf sc.toNat) u).setG fun g => g.setEntry e LogEntry.empty))) ∧
    (∀ e u, MayIssue (.fenceAcq sc) s = true → s.g.freeEntry = some e → s.g.opens = false → AcquiredFrom (scopeOf sc.toNat) [] { s with nextId := s.nextId + 1 } u →
      exec (.fenceAcq sc) s = .next (u.setG fun g => g.setEntry e LogEntry.empty)) ∧
    (∀ e y u w, MayIssue (.fence sc) s = true → s.g.freeEntry = some e → s.g.opens = false → relBegin (scopeOf sc.toNat) [] (fenceEntry true true (scopeOf sc.toNat) s) { s with nextId := s.nextId + 1 } = (y, u) →
      relWaits (scopeOf sc.toNat) y u = false → AcquiredFrom (scopeOf sc.toNat) [] u w → exec (.fence sc) s = .next ((ReportsDue (scopeOf sc.toNat) w).setG fun g => g.setEntry e LogEntry.empty)) ∧
    (∀ ids u, releaseBegin .die [] s = (ids, u) → (∀ n x, (u.die s.g.die.toNat).line? n = some x → x.twin = none) ∧ (∀ r ∈ u.records, r.die = s.g.die.toNat → r.id ∈ ids)) ∧
    (∀ u, AcquiredFrom .die [] s u → (u.core s.g.coreIx).l1 = [] ∧ u.mem = s.mem ∧ u.g = s.g) ∧
    (∀ u, AcquiredFrom .dev [] s u → s.g.core.toNat < 40 → (u.core s.g.coreIx).l1 = [] ∧ (∀ x ∈ (u.die s.g.die.toNat).lines, x.twin ≠ none) ∧
      (u.die s.g.die.toNat).epoch = (s.die s.g.die.toNat).epoch + 1 ∧ u.mem = s.mem)

/-- cwb.range, cinv.range, icinv.range, twin.stat and tlbinv act on their range as R283-R290 say (12_coherence_engine.md R283;
12_coherence_engine.md R284; 12_coherence_engine.md R285; 12_coherence_engine.md R286; 12_coherence_engine.md R287; 12_coherence_engine.md
R289; 12_coherence_engine.md R290; 12_coherence_engine.md R276; 12_coherence_engine.md R257; 12_coherence_engine.md R292). That one step
does the work of a range is log entry 46; which pages' mode a `tlbinv` finds changed is log entry 49. -/
def Obligations.MaintenanceWords : Prop :=
  ∀ (a b q : BitVec 5) (l : BitVec 4) (s : State),
    let A := s.src.sreg a.toNat
    let B := s.src.sreg b.toNat
    let d := s.g.die.toNat
    (∀ i ∈ [Instr.cwbRange a b, .cinvRange a b, .icinvRange a b], MayIssue i s = true → ¬RangeOk A.toNat B.toNat → TrapsWith i s 10 4 (accessDetail A.toNat 4 false false 0 0 0)) ∧
    (∀ e ps u, MayIssue (.cwbRange a b) s = true → s.g.freeEntry = some e → s.g.opens = false → RangeOk A.toNat B.toNat → rangeParts 3 (B.toNat / 4096 + 2) A.toNat B.toNat s = .ok ps u →
      let t := cleanRange d ps u
      exec (.cwbRange a b) s = .next (awaitRecords e ((capRange 3 A B s).newEntry t) (rangeRecords d ps t) { t with nextId := t.nextId + 1 }) ∧
      (∀ x ∈ (t.die d).lines, x.twin ≠ none → ∀ p ∈ ps, ¬(p.first ≤ x.line ∧ x.line < p.first + p.lines)) ∧ t.g = u.g) ∧
    (∀ e ps u, MayIssue (.cinvRange a b) s = true → s.g.freeEntry = some e → s.g.opens = false → RangeOk A.toNat B.toNat → rangeParts 4 (B.toNat / 4096 + 2) A.toNat B.toNat s = .ok ps u →
      let r := dropRange d ps u
      let t := if r.2 then r.1.flag 0x100 else r.1
      exec (.cinvRange a b) s = .next (awaitRecords e ((capRange 4 A B s).newEntry t) (rangeRecords d ps r.1) { t with nextId := t.nextId + 1 }) ∧
      (∀ x ∈ (t.die d).lines, ∀ p ∈ ps, ¬(p.first ≤ x.line ∧ x.line < p.first + p.lines)) ∧
      (∀ k ∈ t.cores, k.1 / 40 = d → ∀ x ∈ k.2.l1, ∀ p ∈ ps, ¬(p.first ≤ x.1 / 4 ∧ x.1 / 4 < p.first + p.lines)) ∧
      ((∀ p ∈ ps, p.discard = true) → t.g.r.xstat = u.g.r.xstat ∧ t.records = u.records)) ∧
    (∀ e ps u, MayIssue (.icinvRange a b) s = true → s.g.freeEntry = some e → s.g.opens = false → RangeOk A.toNat B.toNat → rangeParts 5 (B.toNat / 4096 + 2) A.toNat B.toNat s = .ok ps u →
      exec (.icinvRange a b) s = .next ({ (u.setCore u.g.coreIx fun k => { k with packets := k.packets.filter fun x => (ps.any fun p => p.first ≤ x.1 && x.1 < p.first + p.lines) = false }) with
        nextId := u.nextId + 1 }.setG fun g => g.setEntry e LogEntry.empty)) ∧
    (∀ i ∈ [(Instr.cwbRange a b, 3), (.cinvRange a b, 4), (.icinvRange a b, 5)], ∀ e w u, MayIssue i.1 s = true → s.g.freeEntry = some e → s.g.opens = false → RangeOk A.toNat B.toNat →
      rangeParts i.2 (B.toNat / 4096 + 2) A.toNat B.toNat s = .bad w u →
      ∃ t, exec i.1 s = .next t ∧ (t.g.entry e).state = .faulted ∧ (t.g.entry e).parked = [⟨0, rangeFault e w⟩] ∧ t.mem = u.mem ∧ t.dies = u.dies ∧ t.g.r = u.g.r) ∧
    (MayIssue (.twinStat q l) s = true → Leaves (.twinStat q l) s (s.setR fun r => r.setS q.toNat (BitVec.ofNat 64 ((s.die d).twinsUsed % 2 ^ 18 +
      (s.die d).pool * 8192 % 2 ^ 18 * 2 ^ 18 + (s.die d).early.toNat * 2 ^ 36)))) ∧
    (MayIssue (.tlbinv a b) s = true → (A.toNat % 4096 ≠ 0 ∨ B.toNat % 4096 ≠ 0 ∨ B.toNat < 4096 ∨ 2 ^ 30 < B.toNat ∨ 2 ^ 57 < A.toNat + B.toNat) → TrapsWith (.tlbinv a b) s 10 4 (accessDetail A.toNat 4 false false 0 0 0)) ∧
    (∀ e y u, MayIssue (.tlbinv a b) s = true → A.toNat % 4096 = 0 → B.toNat % 4096 = 0 → 4096 ≤ B.toNat → B.toNat ≤ 2 ^ 30 → A.toNat + B.toNat ≤ 2 ^ 57 → s.g.freeEntry = some e → s.g.opens = false →
      relBegin .dev [] (tlbinvEntry A B s) { s with nextId := s.nextId + 1 } = (y, u) →
      (u.awaits (y.recs.getD []) = true → exec (.tlbinv a b) s = .next (u.setG fun g => g.setEntry e y)) ∧
      let v := { u with tlb := u.tlb.filter fun x => !(x.tenant = s.g.tenant && x.base < A.toNat + B.toNat && A.toNat < x.base + x.size) }
      let pages := changedPages s.g.tenant A.toNat B.toNat u
      u.awaits (y.recs.getD []) = false → (∀ k ∈ u.cores, ∀ w ∈ k.2.wc, w.tenant ≠ s.g.tenant) → (u.pendingIds s.g.tenant (fun _ => true) fun _ => true).filter (· != y.seq) = [] → (∀ p ∈ pages, pageWaits p v = false) →
      ∃ t, exec (.tlbinv a b) s = .next t ∧ t = (pages.foldl (fun s p => recallPage p s) v).setG (fun g => g.setEntry e LogEntry.empty) ∧
        (pages = [] → t = v.setG fun g => g.setEntry e LogEntry.empty) ∧
        ∀ p ∈ pages, p.2 = 1 → ∀ D ∈ t.dies.toList, ∀ x ∈ D.lines, ¬(lineOf p.1.toNat ≤ x.line ∧ x.line < lineOf p.1.toNat + 32)) ∧
    (s.g.handler = none → s.privileged = false → illegalCode s (wordShapeOf (.tlbinv a b)) false = none → TrapsWith (.tlbinv a b) s 6 3 (wordDetail s.curWord s.g.place))

/-- mcas compares its words under their locks, updates all of them or none, and returns which matched (12_coherence_engine.md R279;
12_coherence_engine.md R280; 12_coherence_engine.md R281; 12_coherence_engine.md R282; 12_coherence_engine.md R292; 06_gang_traps.md R172).
The kind and lane of its faults are log entry 42, one version a line log entry 43. -/
def Obligations.McasAndLocks : Prop :=
  ∀ (b d : BitVec 5) (l : BitVec 4) (s : State),
    (∀ e, MayIssue (.mcas d b l) s = true → s.g.opens = false → s.g.flies MemKind.fences = false → s.g.freeEntry = some e → (s.src.sreg b.toNat).toNat % 16 ≠ 0 → ∃ t q, exec (.mcas d b l) s = .next t ∧ (t.g.entry e).state = .faulted ∧ (t.g.entry e).parked = [q] ∧
      q.lane = 0 ∧ q.why.cause = 0x301 ∧ t.g.r = s.g.r ∧ t.mem = s.mem) ∧
    (∀ e w k n u, MayIssue (.mcas d b l) s = true → s.g.opens = false → s.g.flies MemKind.fences = false → s.g.freeEntry = some e → mcCheck (s.src.sreg b.toNat).toNat s = .bad w k n u → ∃ t, exec (.mcas d b l) s = .next t ∧ (t.g.entry e).state = .faulted ∧
      (t.g.entry e).parked = [⟨0, mcFault e w k n⟩] ∧ t.g.r = u.g.r ∧ t.mem = u.mem ∧ t.locks = u.locks) ∧
    (∀ e ws u z t, MayIssue (.mcas d b l) s = true → s.g.opens = false → s.g.flies MemKind.fences = false → s.g.freeEntry = some e → mcCheck (s.src.sreg b.toNat).toNat s = .ok ws u → u.inFlight = false →
      (∀ x ∈ mcLines ws, u.locked x = false ∧ lockWaits x u = false) →
      z = (mcLines ws).foldl (fun s x => lockReady u.g.die.toNat ws x s) (mcPublish u.g.die.toNat ws { u with nextId := u.nextId + 1 }) →
      McEnds ws d.toNat (s.src.sreg b.toNat) z t →
      Leaves (.mcas d b l) s (t.setG fun g => g.setEntry e LogEntry.empty)) ∧
    (∀ e ws u x r, MayIssue (.mcas d b l) s = true → s.g.opens = false → s.g.flies MemKind.fences = false → s.g.freeEntry = some e → mcCheck (s.src.sreg b.toNat).toNat s = .ok ws u →
      (u.inFlight = true ∨ ∃ x ∈ mcLines ws, u.locked x = true ∨ lockWaits x u = true) → mcLines ws = x :: r → ∃ t, exec (.mcas d b l) s = .next t ∧
      t.locks = (askLock x u.g.uid u).locks ∧ (t.g.entry e).state = .inFlight ∧ t.mem = u.mem ∧ t.g.r = u.g.r) ∧
    (∀ ws old hit, ws.length ≤ 8 → old.length = ws.length → (∀ i, i < ws.length → ((BitVec.ofNat 64 (mcResult ws old hit)).getLsbD i = decide ((ws.map McWord.cmp).getD i 0 = old.getD i 0))) ∧
      (BitVec.ofNat 64 (mcResult ws old hit)).getLsbD 63 = hit) ∧
    (∀ line, s.locks.find? (fun x => x.line = line && x.holder = 0) = none → exec (.lockGrant line) s = .next s) ∧
    (∀ line, lockWaits line s = true → exec (.lockGrant line) s = .next s) ∧
    (∀ line x u r, s.locks.find? (fun x => x.line = line && x.holder = 0) = some x → x.queue = u :: r → lockWaits line s = false → (s.focus u).g.mcasEntry = none →
      exec (.lockGrant line) s = .next { s.focus u with locks := mapIf (fun y => y.line = line) (fun y => { y with holder := u, queue := r }) s.locks }) ∧
    ∀ line x u r e, s.locks.find? (fun x => x.line = line && x.holder = 0) = some x → x.queue = u :: r → lockWaits line s = false → (s.focus u).g.mcasEntry = some e →
      let f := s.focus u
      let ws := (f.g.entry e).got.map McWord.unpack
      let z := lockReady f.g.die.toNat ws line f
      let t : State := { z with locks := mapIf (fun y => y.line = line) (fun y => { y with holder := u, queue := r }) z.locks }
      (∀ n, (mcLines ws).find? (line < ·) = some n → exec (.lockGrant line) s = .next (askLock n t.g.uid t)) ∧
      ∀ a w, (mcLines ws).find? (line < ·) = none → (t.g.entry e).acc = some a → McEnds ws a.op.reg a.base t w →
        let unlocked := (w.locks.map fun (y : Lock) => if y.holder = t.g.uid then { y with holder := 0 } else y).filter fun y => !(y.holder = 0 && y.queue.isEmpty)
        exec (.lockGrant line) s = .next ({ w with locks := unlocked }.setG fun g => g.setEntry e LogEntry.empty)

/-- Records apply whole and in order at the home; evictions publish; copies, fills and releases take effect only as R264-R273 say
(12_coherence_engine.md R262; 12_coherence_engine.md R263; 12_coherence_engine.md R264; 12_coherence_engine.md R265; 12_coherence_engine.md
R267; 12_coherence_engine.md R268; 12_coherence_engine.md R270; 12_coherence_engine.md R271; 12_coherence_engine.md R273). That one early
publication is one step is log entry 64. -/
def Obligations.PublicationEvents : Prop :=
  ∀ (id d ln : Nat) (s : State),
    (∀ r, s.records.find? (fun x => x.id = id) = some r → s.locked r.line = false → (∀ x ∈ s.records.takeWhile (fun x => x.id != id), x.die ≠ r.die ∨ x.line ≠ r.line) →
      s.memOk → ∃ t, exec (.recordApply id) s = .next t ∧ t.homeLine r.line = (applyRuns r.runs 0 (s.homeLine r.line)).take 128 ∧ t.version r.line = s.version r.line + 1 ∧
        OnlyLines s t (· = r.line) ∧ t.records = s.records.filter (fun x => x.id != id) ∧ t.dies = s.dies ∧ t.copies.length = s.copies.length + r.forwardTo.length) ∧
    (∀ r, s.records.find? (fun x => x.id = id) = some r → (s.locked r.line = true ∨ ∃ x ∈ s.records.takeWhile (fun x => x.id != id), x.die = r.die ∧ x.line = r.line) → exec (.recordApply id) s = .next s) ∧
    (∀ x t, d < 8 → (s.die d).line? ln = some x → x.twin = some t → ∃ u, exec (.evictionPublication d ln) s = .next u ∧ (u.die d).line? ln = none ∧ u.mem = s.mem ∧
      u.records = s.records ++ (if runsOf x.data t.data = [] then [] else [⟨s.nextId, ln, d, runsOf x.data t.data, t.version, 0, .eviction, t.tenant, []⟩])) ∧
    (∀ x, d < 8 → (s.die d).line? ln = some x → x.twin = none → ∃ u, exec (.evictionPublication d ln) s = .next u ∧ (u.die d).line? ln = none ∧ u.mem = s.mem ∧ u.records = s.records) ∧
    (max 16 ((s.die d).pool * 8192 / 64) ≤ (s.die d).pool * 8192 - (s.die d).twinsUsed → exec (.earlyPublication d) s = .next s) ∧
    (let C := (s.die d).pool * 8192
     let free := C - (s.die d).twinsUsed
     let old := (s.die d).byAge.take (max 32 (C / 32) - free)
     d < 8 → free < max 16 (C / 64) → ∃ u, exec (.earlyPublication d) s = .next u ∧ u.mem = s.mem ∧ u.g = s.g ∧ (∀ r ∈ s.records, r ∈ u.records) ∧
      (∀ k ∈ old, ∀ y t, (s.die d).line? k = some y → y.twin = some t → (u.die d).line? k = some { y with twin := none } ∧
        (runsOf y.data t.data ≠ [] → ∃ i, ⟨i, k, d, runsOf y.data t.data, t.version, 0, .early, t.tenant, []⟩ ∈ u.records)) ∧
      ∀ k, k ∉ old → (u.die d).line? k = (s.die d).line? k) ∧
    (∀ y c, s.copies.find? (fun x => x.id = id) = some c → c.target < 8 → (s.die c.target).line? c.record.line = some y → ∃ u, exec (.forwardedCopyApply id) s = .next u ∧
      (∀ x ∈ u.copies, x.id ≠ id) ∧ u.mem = s.mem ∧ u.records = s.records ∧
      (if y.twin = none ∧ y.version = c.version - 1 then (u.die c.target).line? c.record.line =
          some { y with data := applyRuns c.record.runs 0 y.data, version := c.version, tag := some (c.record.die, c.record.relNo) } else u.dies = s.dies)) ∧
    (∀ f, s.fills.find? (fun x => x.id = id) = some f → f.die < 8 → ∃ u, exec (.fillArrival id) s = .next u ∧ (∀ x ∈ u.fills, x.id ≠ id) ∧ u.mem = s.mem ∧
      (∀ y, (s.die f.die).line? f.line = some y → newer f.version y.version = false → u = { s with fills := s.fills.filter fun x => x.id != id }) ∧
      ((s.die f.die).line? f.line = none → f.epoch = (s.die f.die).epoch → f.install = true → (u.die f.die).line? f.line = some ⟨f.line, f.data, none, f.version, none⟩) ∧
      (f.epoch ≠ (s.die f.die).epoch ∨ f.install = false → u.dies = s.dies)) ∧
    (∀ v w : Half, newer v w = decide (1 ≤ (v - w).toNat ∧ (v - w).toNat ≤ 2 ^ 15 - 1)) ∧
    (∀ r, s.releases.find? (fun x => x.id = id) = some r → releaseDone s r = false → exec (.releaseComplete id) s = .next s) ∧
    (∀ r, s.releases.find? (fun x => x.id = id) = some r → releaseDone s r = true → r.signal = none → exec (.releaseComplete id) s =
      .next (leaveReleased id r.gang { s with releases := s.releases.filter fun x => x.id != id })) ∧
    (∀ u g, s.gang? u = some g → g.status = .resident → leaveReleased id u s = if g.relPending = some id then leaveCore .saved ((s.focus u).setG fun g => { g with relPending := none }) else s.focus u) ∧
    ∀ u, (∀ g, s.gang? u = some g → g.status ≠ .resident) → leaveReleased id u s = s

/-- Write-backs, eclipse windows, peers' requests and the host's accesses act on the home as their rules say (12_coherence_engine.md R258;
12_coherence_engine.md R259; 01_engines.md R23; 15_fabric_engine.md R331; 19_host_management.md R415). The clock in which a cadence is
counted is log entry 66, its phase log entry 3, and that a snoop of the host ends in the step of the write log entry 94. -/
def Obligations.HomeEvents : Prop :=
  ∀ (id d n a k : Nat) (bs : List Byte) (s : State),
    (∀ w, s.writeBacks.find? (fun x => x.id = id) = some w → ∃ u, exec (.writeBackApply id) s = .next u ∧ u.writeBacks = s.writeBacks.filter (fun x => x.id != id) ∧
      (let e := s.dirEntry w.base (w.data.length / 32)
       if e.owner = some w.die ∧ e.version = w.version then u.mem = s.mem.write (32 * w.base) w.data ∧
         u.dirEntry w.base (w.data.length / 32) = { e with owner := none, sharers := [], version := e.version + 1 }
       else u.mem = s.mem ∧ u.directory = s.directory)) ∧
    (∀ g, (s.die d).grains.find? (fun x => x.base = n) = some g → d < 8 → ∃ u, exec (.voluntaryWriteBack d n) s = .next u ∧ u.mem = s.mem ∧
      (u.die d).grain n (g.data.length / 32) = none ∧
      (let e := s.dirEntry n (g.data.length / 32)
       if e.owner = some d then u.writeBacks = s.writeBacks ++ [⟨s.nextId, d, n, g.data, e.version⟩] ∧ u.directory = s.directory else
         u.writeBacks = s.writeBacks ∧ u.dirEntry n (g.data.length / 32) = { e with sharers := e.sharers.filter (· != d) })) ∧
    ((s.die d).grains.find? (fun x => x.base = n) = none → exec (.voluntaryWriteBack d n) s = .next s) ∧
    (let E := (s.die d).eclipse
     let per := 4 * s.unit.clockMhz
     0 < per → d < 8 →
      (∀ i ∈ [Instr.eclipseWindowStart d, .eclipseWindowEnd d], (s.clk < E.next → exec i s = .next s) ∧
        (E.next ≤ s.clk → exec i s = .next (s.setDie d fun D => { D with eclipse := s.eclipseNow d }))) ∧
      (s.clk < E.next → s.eclipseNow d = E) ∧
      (∀ k, E.next + k * per ≤ s.clk → s.clk < E.next + (k + 1) * per → s.eclipseNow d = ⟨E.bank + BitVec.ofNat 4 (k + 1), E.next + (k + 1) * per⟩ ∧
        ((s.eclipseNow d).isOpen s = decide (5 * (s.clk - (E.next + k * per)) < 4 * per)))) ∧
    (∀ q, s.requests.find? (fun x => x.id = id && x.reply.isNone) = some q → s.isLocal q.addr = true → homeWaits (128 * lineOf q.addr) 128 s = false → regionOf (ppaOf q.addr) = .hbm → q.op = none →
      (∀ e ∈ s.directory, ¬(e.base < 4 * lineOf q.addr + 4 ∧ 4 * lineOf q.addr < e.base + e.sectors)) → exec (.remoteLoadOrAtomicServe id) s =
      .next { s with requests := mapIf (fun r => r.id = id) (fun r => { r with reply := some (ofBytes (s.homeLine (lineOf q.addr))) }) s.requests }) ∧
    (∀ q op k x y, s.requests.find? (fun x => x.id = id && x.reply.isNone) = some q → s.isLocal q.addr = true → homeWaits (128 * lineOf q.addr) 128 s = false → regionOf (ppaOf q.addr) = .hbm →
      q.op = some (op, k, x, y) → (∀ e ∈ s.directory, ¬(e.base < sectorOf q.addr + 1 ∧ sectorOf q.addr < e.base + e.sectors)) → ∃ u, exec (.remoteLoadOrAtomicServe id) s = .next u ∧
      u.mem = s.mem.write q.addr (toBytes k (atomicNew op (8 * k) (ofBytes (s.mem.read q.addr k)) x x y)) ∧ u.version (lineOf q.addr) = s.version (lineOf q.addr) + 1 ∧
      (∀ r ∈ u.requests, r.id = id → r.reply = some (ofBytes (s.mem.read q.addr k)))) ∧
    (hostFits a k = true → regionOf a = .hbm → homeWaits (s.fpa a) k s = false → (∀ e ∈ s.directory, ¬(e.base < sectorOf (s.fpa a) + (a % 32 + k + 31) / 32 ∧ sectorOf (s.fpa a) < e.base + e.sectors)) →
      exec (.hostMemLoad a k) s = .next { s with hostLines := insertNat (lineOf (s.fpa a)) s.hostLines, host := { s.host with readData := s.mem.read (s.fpa a) k } }) ∧
    (hostFits a bs.length = true → homeWaits (s.fpa a) bs.length s = false → (regionOf a = .host ∨ (regionOf a = .hbm ∧
        ∀ e ∈ s.directory, ¬(e.base < sectorOf (s.fpa a) + (s.fpa a % 32 + bs.length + 31) / 32 ∧ sectorOf (s.fpa a) < e.base + e.sectors))) →
      ∃ u, exec (.hostMemStore a bs) s = .next u ∧ u.mem = s.mem.write (s.fpa a) bs ∧ u.version (lineOf (s.fpa a)) = s.version (lineOf (s.fpa a)) + 1 ∧ lineOf (s.fpa a) ∉ u.hostLines ∧ u.g = s.g ∧ u.dies = s.dies)

/-- swm.alloc, swm.map, swm.unmap and swm.free answer the statuses of R345 in its order, or act on switch, table and translations
(15_fabric_engine.md R343; 15_fabric_engine.md R344; 15_fabric_engine.md R345; 15_fabric_engine.md R346; 15_fabric_engine.md R342;
15_fabric_engine.md R339; 15_fabric_engine.md R360). The unreachable switch is log entry 48, what an unmap waits for log entries 49 and 97.
-/
def Obligations.SwitchMemoryWords : Prop :=
  ∀ (b c d : BitVec 5) (l : BitVec 4) (s : State),
    (∀ va x, apertureIndex va = some x ↔ va % 2 ^ 25 = 0 ∧ 0x1FFFC0000000000 ≤ va ∧ va < 2 ^ 57 ∧ x = bits va 41 25) ∧
    (∀ i ∈ [Instr.swmAlloc d b c l, .swmMap d b c l, .swmUnmap d b l, .swmFree d b l], ∀ e, (Offers i s 1 e → swmBehind e s = true → ∃ t, exec i s = .next t ∧ (t.g.entry e).state = .inFlight ∧ (t.g.entry e).recs = some [] ∧ t.g.r = s.g.r ∧ t.mem = s.mem ∧ t.swAllocs = s.swAllocs) ∧
      (SwmOffers i s e → apertureIndex (s.src.sreg b.toNat).toNat = none → RejectedFabric i 1 e s s 0x10 (s.src.sreg b.toNat).toNat)) ∧
    (∀ ix e n id, SwmOffers (.swmAlloc d b c l) s e → apertureIndex (s.src.sreg b.toNat).toNat = some ix → n = bits (s.src.sreg c.toNat).toNat 29 16 → id = bits (s.src.sreg c.toNat).toNat 11 0 →
      ((n = 0 ∨ 12288 < n ∨ bits (s.src.sreg c.toNat).toNat 15 12 ≠ 0 ∨ bits (s.src.sreg c.toNat).toNat 63 30 ≠ 0) → RejectedFabric (.swmAlloc d b c l) 1 e s s 0x10 (s.src.sreg c.toNat).toNat) ∧
      (1 ≤ n → n ≤ 12288 → bits (s.src.sreg c.toNat).toNat 15 12 = 0 → bits (s.src.sreg c.toNat).toNat 63 30 = 0 →
        (131072 < ix + n → Returns (.swmAlloc d b c l) s s d 5) ∧
        (ix + n ≤ 131072 → (∃ j, j < n ∧ readAperture s.g.tenant (ix + j) s % 2 = 1) → Returns (.swmAlloc d b c l) s s d 3) ∧
        (mapStatus s.g.tenant ix n s = none → switchPresent s id = false → Returns (.swmAlloc d b c l) s s d 4) ∧
        ∀ w, mapStatus s.g.tenant ix n s = none → s.switch? id = some w → w.state = .present → w.generation < 4096 →
          (s.linkUp w.plane = false → RejectedFabric (.swmAlloc d b c l) 1 e s s 1 (switchBase id w.generation 0)) ∧
          (s.linkUp w.plane = true → quotaOf s s.g.tenant id < granulesHeld s s.g.tenant id + n → Returns (.swmAlloc d b c l) s (takeSeq (8192 + id) s) d 1) ∧
          (s.linkUp w.plane = true → granulesHeld s s.g.tenant id + n ≤ quotaOf s s.g.tenant id → (∀ k, runFree s id k n = false) → Returns (.swmAlloc d b c l) s (takeSeq (8192 + id) s) d 2) ∧
          (s.linkUp w.plane = true → granulesHeld s s.g.tenant id + n ≤ quotaOf s s.g.tenant id → (∃ k, runFree s id k n = true) → apertureWaits s.g.tenant ix n (takeSeq (8192 + id) s) = false → ∃ k, runFree s id k n = true ∧
            Returns (.swmAlloc d b c l) s ((List.range n).foldl (fun v j => writeAperture s.g.tenant (ix + j)
              (1 + (if j = 0 then 2 + n * 2 ^ 40 else 0) + id * 2 ^ 2 + (w.generation * 2 ^ 14 + k + j) * 2 ^ 14) v)
              (zeroRange (switchBase id w.generation k) (n * 2 ^ 25) { takeSeq (8192 + id) s with tick := s.tick + 1, swAllocs := s.swAllocs ++ [⟨id, w.generation, k, n, s.g.tenant⟩] }))
              d (2 ^ 63 + id * 2 ^ 51 + w.generation * 2 ^ 39 + k * 2 ^ 25)))) ∧
    (∀ ix e, SwmOffers (.swmMap d b c l) s e → apertureIndex (s.src.sreg b.toNat).toNat = some ix → ((s.src.sreg c.toNat).toNat < 2 ^ 63 ∨ (s.src.sreg c.toNat).toNat % 2 ^ 25 ≠ 0) → RejectedFabric (.swmMap d b c l) 1 e s s 0x10 (s.src.sreg c.toNat).toNat) ∧
    (∀ ix e, SwmOffers (.swmMap d b c l) s e → apertureIndex (s.src.sreg b.toNat).toNat = some ix → 2 ^ 63 ≤ (s.src.sreg c.toNat).toNat → (s.src.sreg c.toNat).toNat % 2 ^ 25 = 0 →
      let v := takeSeq (8192 + switchOf (s.src.sreg c.toNat).toNat) s
      (switchPresent s (switchOf (s.src.sreg c.toNat).toNat) = false → Returns (.swmMap d b c l) s s d 4) ∧
      ∀ w, s.switch? (switchOf (s.src.sreg c.toNat).toNat) = some w → w.state = .present →
        (s.linkUp w.plane = false → RejectedFabric (.swmMap d b c l) 1 e s s 1 (s.src.sreg c.toNat).toNat) ∧
        (s.linkUp w.plane = true → (w.generation ≠ generationOf (s.src.sreg c.toNat).toNat ∨ ∀ x ∈ s.swAllocs, ¬(x.sw = switchOf (s.src.sreg c.toNat).toNat ∧ x.generation = generationOf (s.src.sreg c.toNat).toNat ∧ x.first = granuleOf (s.src.sreg c.toNat).toNat ∧ x.tenant = s.g.tenant)) →
          Returns (.swmMap d b c l) s v d 6) ∧
        ∀ x, s.linkUp w.plane = true → w.generation = generationOf (s.src.sreg c.toNat).toNat → (∃! y, y ∈ s.swAllocs ∧ y.sw = switchOf (s.src.sreg c.toNat).toNat ∧ y.generation = generationOf (s.src.sreg c.toNat).toNat ∧ y.first = granuleOf (s.src.sreg c.toNat).toNat ∧ y.tenant = s.g.tenant) →
          x ∈ s.swAllocs → x.sw = switchOf (s.src.sreg c.toNat).toNat → x.generation = generationOf (s.src.sreg c.toNat).toNat → x.first = granuleOf (s.src.sreg c.toNat).toNat → x.tenant = s.g.tenant →
          (∀ y, mapStatus s.g.tenant ix x.count s = some y → Returns (.swmMap d b c l) s v d y) ∧
          (mapStatus s.g.tenant ix x.count s = none → apertureWaits s.g.tenant ix x.count v = false → Returns (.swmMap d b c l) s (mapGranules s.g.tenant ix (s.src.sreg c.toNat).toNat x.count v) d (2 ^ 63 + x.count))) ∧
    (∀ free : Bool, let i := if free then Instr.swmFree d b l else Instr.swmUnmap d b l
     ∀ ix e, SwmOffers i s e → apertureIndex (s.src.sreg b.toNat).toNat = some ix →
      let x := readAperture s.g.tenant ix s
      let n := bits x 53 40
      let at_ := switchBase (bits x 13 2) (bits x 39 28) (bits x 27 14)
      let s0 := if free && mappingLive x s then takeSeq (destOf at_) s else s
      let v := (List.range n).foldl (fun w j => writeAperture s.g.tenant (ix + j) 0 w) s0
      let u := drainSwitch s.g.tenant { v with tlb := v.tlb.filter fun y => !(y.tenant = s.g.tenant && (s.src.sreg b.toNat).toNat ≤ y.base && y.base < (s.src.sreg b.toNat).toNat + n * 2 ^ 25) }
      let ids := u.pendingIds s.g.tenant (fun p => 8192 ≤ p.dest) fun x => isSwitch x
      (bits x 1 0 ≠ 3 → Returns i s s d 7) ∧
      (bits x 1 0 = 3 → free = true → mappingLive x s = true → (planeOf s at_).isNone = true → RejectedFabric i 1 e s s 1 at_) ∧
      (bits x 1 0 = 3 → apertureWaits s.g.tenant ix n s0 = false → (free = false ∨ mappingLive x s = false ∨ (planeOf s at_).isSome = true) →
        (ids ≠ [] → ∃ t, exec i s = .next t ∧ (t.g.entry e).state = .inFlight ∧ (t.g.entry e).recs = some ids ∧ t.mem = u.mem ∧ t.tlb = u.tlb ∧ t.swAllocs = s.swAllocs ∧ t.g.r = u.g.r) ∧
        (ids = [] → (free = false → Returns i s u d (2 ^ 63)) ∧ (free = true → mappingLive x s = false → Returns i s u d 4) ∧
          (free = true → mappingLive x s = true →
            Returns i s { u with swAllocs := u.swAllocs.filter fun y => !(y.sw = bits x 13 2 && y.generation = bits x 39 28 && y.first = bits x 27 14 && y.tenant = s.g.tenant) } d (2 ^ 63)))))

/-- fmc and fred read their payload and send it, or are rejected in the order of R360; fsig releases and adds; fstat reports
(15_fabric_engine.md R349; 15_fabric_engine.md R350; 15_fabric_engine.md R351; 15_fabric_engine.md R352; 15_fabric_engine.md R353;
15_fabric_engine.md R358; 15_fabric_engine.md R360; 15_fabric_engine.md R332; 06_gang_traps.md R175). The address 0 in the report of a link
that is down is log entry 20, and that fsig waits for earlier accesses log entry 44. -/
def Obligations.CollectiveAndSignalWords : Prop :=
  ∀ (a b c d : BitVec 5) (k : BitVec 3) (l : BitVec 4) (s : State),
    PayloadWord (.fmc a b c k l) (s.src.preg k.toNat &&& s.src.emask) (s.src.sreg a.toNat).toNat (s.src.sreg b.toNat).toNat (s.src.sreg c.toNat).toNat (bits (s.src.sreg c.toNat).toNat 63 13 ≠ 0) s (fun G y u =>
      (u.linkUp G.plane = false → Leaves (.fmc a b c k l) s (postReport u.g.uid ⟨12, 1, 0, false⟩ u)) ∧
      (u.linkUp G.plane = true → (∀ p ∈ G.members, p = u.pkg.toNat ∧ bits (s.src.sreg c.toNat).toNat 12 12 = 0) → Leaves (.fmc a b c k l) s u) ∧
      (u.linkUp G.plane = true → (∃ p ∈ G.members, p ≠ u.pkg.toNat ∨ bits (s.src.sreg c.toNat).toNat 12 12 = 1) → (∀ x ∈ u.branches, x.op ≠ u.nextId) → ∃ z, Leaves (.fmc a b c k l) s z ∧ z.mem = u.mem ∧ z.g.r = u.g.r ∧
        z.g.outstanding = u.g.outstanding + 1 ∧ ((z.branches.filter fun x => x.op = u.nextId).map Delivery.pkg).Perm (G.members.filter fun p => p != u.pkg.toNat || bits (s.src.sreg c.toNat).toNat 12 12 = 1) ∧
        ∀ x ∈ z.branches, x.op = u.nextId → x.sender = u.pkg.toNat ∧ x.gang = u.g.uid ∧ x.tenant = u.g.tenant ∧ x.dest = s.src.sreg b.toNat ∧ x.payload = y ∧ x.counted = true ∧ x.group = G.id ∧ x.seq = u.seqOf x.pkg ∧ x.sent = 1)) ∧
    PayloadWord (.fred a b c k l) (s.src.preg k.toNat &&& s.src.emask) (s.src.sreg a.toNat).toNat (s.src.sreg b.toNat).toNat (s.src.sreg c.toNat).toNat (3 < bits (s.src.sreg c.toNat).toNat 14 12 ∨ 2 < bits (s.src.sreg c.toNat).toNat 17 15 ∨ (bits (s.src.sreg c.toNat).toNat 14 12 = 3 ∧ bits (s.src.sreg c.toNat).toNat 17 15 ≠ 1) ∨ bits (s.src.sreg c.toNat).toNat 63 46 ≠ 0 ∨ ∃ G, groupFor s (bits (s.src.sreg c.toNat).toNat 11 0) = some G ∧ bits (s.src.sreg c.toNat).toNat 44 32 ∉ G.members) s (fun G y u =>
      (u.linkUp G.plane = false → Leaves (.fred a b c k l) s (postReport u.g.uid ⟨12, 1, 0, false⟩ u)) ∧
      (u.linkUp G.plane = true → Leaves (.fred a b c k l) s { u with nextId := u.nextId + 1, contribs := u.contribs ++ [⟨u.nextId, u.pkg.toNat, u.g.uid, u.g.tenant, s.src.sreg c.toNat, s.src.sreg b.toNat, y, 0⟩], g := { u.g with outstanding := u.g.outstanding + 1 } })) ∧
    (MayIssue (.fsig a b k l) s = true → (s.src.preg k.toNat &&& s.src.emask) = 0 → Leaves (.fsig a b k l) s s) ∧
    (∀ e, Offers (.fsig a b k l) s (s.src.preg k.toNat &&& s.src.emask) e → (∃ n < 4, n ≠ e ∧ (s.g.entry n).state = .inFlight) → WaitsFrom (.fsig a b k l) s s) ∧
    (∀ e, Offers (.fsig a b k l) s (s.src.preg k.toNat &&& s.src.emask) e → (∀ n < 4, n ≠ e → (s.g.entry n).state ≠ .inFlight) → (s.src.sreg a.toNat).toNat % 8 ≠ 0 → ParksLeader (.fsig a b k l) (s.src.preg k.toNat &&& s.src.emask) e s s fun L => ⟨0x301, accessDetail (s.src.sreg a.toNat).toNat 5 false false e L 0⟩) ∧
    (∀ e u w, Offers (.fsig a b k l) s (s.src.preg k.toNat &&& s.src.emask) e → (∀ n < 4, n ≠ e → (s.g.entry n).state ≠ .inFlight) → (s.src.sreg a.toNat).toNat % 8 = 0 → translate true true (s.src.sreg a.toNat).toNat s = (u, .bad w) → ParksLeader (.fsig a b k l) (s.src.preg k.toNat &&& s.src.emask) e s u fun L => faultRec w 5 false e L 0) ∧
    (∀ e u x y v, Offers (.fsig a b k l) s (s.src.preg k.toNat &&& s.src.emask) e → (∀ n < 4, n ≠ e → (s.g.entry n).state ≠ .inFlight) → (s.src.sreg a.toNat).toNat % 8 = 0 → translate true true (s.src.sreg a.toNat).toNat s = (u, .ok x y) → switchGone u x = none → (u.isLocal x = true → regionOf (ppaOf x) ≠ .weight) →
      v = drainGang u.g.coreIx u.g.uid (publishDie u.g.die.toNat [] u) → Leaves (.fsig a b k l) s { v with nextId := v.nextId + 1, releases := v.releases ++
        [⟨v.nextId, v.g.uid, .fab, (v.records.filter fun r => r.die = u.g.die.toNat).map fun r => r.id, some (x, s.src.sreg b.toNat)⟩] }) ∧
    (∀ id r x v g, s.releases.find? (fun y => y.id = id) = some r → r.signal = some (x, v) → releaseDone s r = true → s.gang? r.gang = some g →
      (∀ t, s.isLocal x = true → homeAdd ⟨g.coreIx, g.tenant, g.uid, false⟩ x v s = some t → exec (.releaseComplete id) s = .next { t with releases := t.releases.filter fun y => y.id != id }) ∧
      (s.isLocal x = false → switchGone s x = none → (∀ y ∈ (s.core g.coreIx).wc, y.line ≠ lineOf x) → entryUnacked s x = false → ∃ t q, exec (.releaseComplete id) s = .next t ∧
        t.packets = s.packets ++ [q] ∧ q.kind = .signalAdd x v ∧ q.gangs = [r.gang] ∧ q.critical = true ∧ q.vc = 4 ∧ t.releases = s.releases.filter (fun y => y.id != id) ∧ t.mem = s.mem ∧
        t.gang? r.gang = some { g with outstanding := g.outstanding + 1 })) ∧
    (∀ e, Offers (.fstat d l) s 1 e → Returns (.fstat d l) s s d (min 65535 (s.g.outstanding + signalsPending s s.g.uid) + (s.core s.g.coreIx).wc.length * 2 ^ 16 +
      s.g.reports.length * 2 ^ 23 + (s.tenant s.g.tenant).age.toNat * 2 ^ 32))

/-- Packets, links and switches act as R325-R348 say: drained, applied, acknowledged, refused, resent; lost and replaced
(15_fabric_engine.md R327; 15_fabric_engine.md R330; 15_fabric_engine.md R331; 15_fabric_engine.md R332; 15_fabric_engine.md R333;
15_fabric_engine.md R337; 15_fabric_engine.md R338; 15_fabric_engine.md R339; 15_fabric_engine.md R340; 15_fabric_engine.md R341;
15_fabric_engine.md R347; 15_fabric_engine.md R348). The codes a peer may answer and the address of a signal's refusal are log entries 95
and 107, the conversion of ages log entry 66, rollover in two events and lost copies log entry 67, key numbers log entry 100, the layout of
the event's detail log entry 19, and address 0 of reports of collectives log entry 20. -/
def Obligations.FabricEvents : Prop :=
  (∀ (core line id code : Nat) (s : State),
    (∀ e, (s.core core).wc.find? (fun x => x.line = line) = some e → (s.tenant e.tenant).age.toNat * s.unit.clockMhz ≤ 100 * (e.lived + (s.clk - e.born)) → ∃ t q, exec (.wcAgeDrain core line) s = .next t ∧
      (t.core core).wc = (s.core core).wc.filter (fun x => x.line != line) ∧ t.packets = s.packets ++ [q] ∧ q.kind = .write line e.bytes ∧ q.gangs = e.gangs ∧ q.tenant = e.tenant ∧
      q.src = s.pkg.toNat ∧ q.dest = destOf (128 * line) ∧ q.seq = s.seqOf q.dest ∧ q.vc = 0 ∧ q.sent = 1 ∧ q.applied = false ∧ t.mem = s.mem ∧ t.g = s.g) ∧
    (∀ e, (s.core core).wc.find? (fun x => x.line = line) = some e → 100 * (e.lived + (s.clk - e.born)) < (s.tenant e.tenant).age.toNat * s.unit.clockMhz → exec (.wcAgeDrain core line) s = .next s) ∧
    (∀ p, s.packets.find? (fun x => x.id = id) = some p → (p.applied = true ∨ p.lost = true ∨ packetTurn s p = false ∨ (packetFault s p).isSome = true ∨ p.waits s = true) → exec (.writePacketApply id) s = .next s) ∧
    (∀ p, packetTurn s p = true ↔ (∀ q ∈ s.packets.takeWhile (fun x => x.id != p.id), q.src = p.src → q.dest = p.dest → q.applied = true ∨ ∃ w4 w5 vs, q.kind = .drain w4 w5 vs) ∧
      ∀ d ∈ s.branches, d.counted = true → d.sender = p.src → d.pkg = p.dest → p.id ≤ d.id) ∧
    (∀ p ln bs, s.packets.find? (fun x => x.id = id) = some p → p.applied = false → p.lost = false → packetTurn s p = true → packetFault s p = none → p.waits s = false → p.kind = .write ln bs → bs.length = 128 → s.memOk → (∀ e ∈ s.directory, ¬(e.base < 4 * ln + 4 ∧ 4 * ln < e.base + e.sectors)) → ∃ t, exec (.writePacketApply id) s = .next t ∧ OnlyLines s t (· = ln) ∧
      (∀ k, k < 128 → (t.homeLine ln)[k]? = some ((bs.getD k none).getD (s.mem.get (128 * ln + k)))) ∧ t.version ln = s.version ln + 1 ∧ (∀ q ∈ t.packets, q.id = id → q.applied = true) ∧ t.g = s.g ∧ t.dies = s.dies) ∧
    (∀ p a op n x, s.packets.find? (fun x => x.id = id) = some p → p.applied = false → p.lost = false → packetTurn s p = true → packetFault s p = none → p.waits s = false → p.kind = .atomic a op n x → (∀ e ∈ s.directory, ¬(e.base < sectorOf a + (a % 32 + n + 31) / 32 ∧ sectorOf a < e.base + e.sectors)) → (∀ e ∈ s.directory, ¬(e.base < sectorOf a + 1 ∧ sectorOf a < e.base + e.sectors)) → ∃ t, exec (.writePacketApply id) s = .next t ∧
      t.mem = s.mem.write a (toBytes n (atomicNew op (8 * n) (ofBytes (s.mem.read a n)) x x 0)) ∧ t.version (lineOf a) = s.version (lineOf a) + 1 ∧ (∀ q ∈ t.packets, q.id = id → q.applied = true) ∧ t.g = s.g) ∧
    (∀ p a x, s.packets.find? (fun x => x.id = id) = some p → p.applied = false → p.lost = false → packetTurn s p = true → packetFault s p = none → p.waits s = false → p.kind = .signalAdd a x → (∀ e ∈ s.directory, ¬(e.base < sectorOf a + (a % 32 + 39) / 32 ∧ sectorOf a < e.base + e.sectors)) → (∀ e ∈ s.directory, ¬(e.base < sectorOf a + 1 ∧ sectorOf a < e.base + e.sectors)) → ∃ t, exec (.writePacketApply id) s = .next t ∧
      t.mem = s.mem.write a (toBytes 8 (ofBytes (s.mem.read a 8) + x.toNat)) ∧ (∀ q ∈ t.packets, q.id = id → q.applied = true) ∧ t.g = s.g) ∧
    (∀ p q a err, s.packets.find? (fun x => x.id = id) = some p → p.applied = false → p.lost = false → packetTurn s p = true → packetFault s p = none → p.waits s = false → p.kind = .predSignal q a err → p.dest = s.pkg.toNat → ∃ t, exec (.writePacketApply id) s = .next t ∧ t.mem = s.mem ∧ (∀ q ∈ t.packets, q.id = id → q.applied = true) ∧
      t.predSignals = s.predSignals ++ [⟨s.nextId, q, a.toNat, [], true, err, none⟩]) ∧
    (∀ p w4 w5 vs, s.packets.find? (fun x => x.id = id) = some p → p.applied = false → p.lost = false → packetTurn s p = true → packetFault s p = none → p.kind = .drain w4 w5 vs → p.dest = s.pkg.toNat →
      ((∀ a ∈ s.arrivals, a.packet ≠ id) → exec (.writePacketApply id) s = .next { s with nextId := s.nextId + 1, arrivals := s.arrivals ++ [⟨s.nextId, p.src, 0, 0, id, p.tenant, w4, w5, vs, false⟩] }) ∧
      ((∃ a ∈ s.arrivals, a.packet = id) → exec (.writePacketApply id) s = .next s)) ∧
    (∀ p, s.packets.find? (fun x => x.id = id) = some p → (p.applied = false ∨ p.lost = true) → exec (.acknowledgeReceive id) s = .next s) ∧
    (∀ p, s.packets.find? (fun x => x.id = id) = some p → p.applied = true → p.lost = false → ∃ t, exec (.acknowledgeReceive id) s = .next t ∧ (∀ q ∈ t.packets, q.id ≠ id) ∧ t.mem = s.mem ∧ (∀ h : p.plane < 18, t.links[p.plane].failures = 0) ∧
      ∀ u g, p.gangs = [u] → s.gang? u = some g → t.gang? u = some { g with outstanding := g.outstanding - 1 }) ∧
    (∀ p w, s.packets.find? (fun x => x.id = id) = some p → p.applied = false → p.lost = false → packetTurn s p = true → packetFault s p = some w → EndsPacket (.remoteFaultReport id code) p w s) ∧
    (∀ p w, s.packets.find? (fun x => x.id = id) = some p → p.applied = false → p.lost = false → packetTurn s p = true → packetFault s p = none → peerRefusal s p code = some w → EndsPacket (.remoteFaultReport id code) p w s) ∧
    (∀ p, s.packets.find? (fun x => x.id = id) = some p → (p.applied = true ∨ p.lost = true ∨ packetTurn s p = false ∨ (packetFault s p = none ∧ peerRefusal s p code = none)) → exec (.remoteFaultReport id code) s = .next s) ∧
    (∀ p, s.packets.find? (fun x => x.id = id) = some p → p.patient = true → exec (.retransmit id) s = .next s) ∧
    (∀ p, s.packets.find? (fun x => x.id = id) = some p → p.patient = false → p.src = s.pkg.toNat → 16 ≤ p.sent → EndsPacket (.retransmit id) p ⟨12, 1, p.addr, false⟩ s) ∧
    (∀ p ways, s.packets.find? (fun x => x.id = id) = some p → p.patient = false → p.sent < 16 → ways = planesFor s (p.critical || p.applied) p.addr → exec (.retransmit id) s = .next
      { s with packets := mapIf (fun q => q.id = id) (fun q => { q with sent := q.sent + 1, plane := ways.headD q.plane, second := ways.tail.head?, lost := ways.isEmpty }) s.packets }) ∧
    (∀ n x, isSwitch x = false → (bits x 23 7 + packageOf x) % 18 = n → s.linkUp n = true → s.linkUp ((n + 9) % 18) = true → (packageOf x, n) ∉ s.downLinks → (packageOf x, (n + 9) % 18) ∉ s.downLinks →
      planesFor s true x = [n, (n + 9) % 18] ∧ planesFor s false x = [n]) ∧
    ((∃ p ∈ s.packets, p.id = id) → exec (.recoveryDiscard id) s = .next { s with packets := mapIf (fun q => q.id = id) (fun q => q.loseCopy q.plane) s.packets }) ∧
    ((∀ p ∈ s.packets, p.id ≠ id) → ∀ i ∈ [Instr.retransmit id, .recoveryDiscard id],
      (∀ c, s.contribs.find? (fun c => c.id = id) = some c → c.sent < 15 → exec i s = .next { s with contribs := mapIf (fun x => x.id = id) (fun x => { x with sent := x.sent + 1 }) s.contribs }) ∧
      (∀ c g, s.contribs.find? (fun c => c.id = id) = some c → 15 ≤ c.sent → c.pkg = s.pkg.toNat → s.gang? c.gang = some g → ∃ t, exec i s = .next t ∧ t.contribs = s.contribs.filter (fun x => x.id != id) ∧ t.mem = s.mem ∧
        t.gang? c.gang = some (withReport ⟨12, 1, 0, false⟩ { g with outstanding := g.outstanding - 1 })) ∧
      (∀ d, s.contribs.find? (fun c => c.id = id) = none → s.deliveries.find? (fun d => d.id = id) = some d →
        (d.sent < 16 → exec i s = .next { s with deliveries := mapIf (fun x => x.id = id) (fun x => { x with sent := x.sent + 1 }) s.deliveries }) ∧
        (16 ≤ d.sent → d.counted = true → d.sender = s.pkg.toNat → exec i s = .next (endBranch d (postReport d.gang ⟨12, 1, 0, false⟩ s)))))) ∧
  (∀ (p q : Nat) (s : State),
    ((∀ h : p < 18, exec (.keyRollover p) s = .next { s with links := s.links.set p (let k := s.links[p]
      if k.up = true ∧ k.rollover = .steady then { k with rollover := .rolling, phase := !k.phase, key0 := if k.phase then some (k.rolled + 1) else k.key0, key1 := if k.phase then k.key1 else some (k.rolled + 1) } else k) }) ∧
      (18 ≤ p → exec (.keyRollover p) s = .next s)) ∧
    ((∀ h : p < 18, exec (.drainedFlit p) s = .next { s with links := s.links.set p (let k := s.links[p]
      if k.rollover = .rolling then { k with rollover := .steady, failures := 0, rolled := k.rolled + 1, key0 := if k.phase then none else k.key0, key1 := if k.phase then k.key1 else none } else k) }) ∧
      (18 ≤ p → exec (.drainedFlit p) s = .next s)) ∧
    ((∀ h : p < 18, exec (.flitAuthenticationFailure p) s = .next { s with links := s.links.set p (if s.links[p].up = true ∧ s.links[p].failures < 64 then { s.links[p] with failures := s.links[p].failures + 1 } else s.links[p]) }) ∧ (18 ≤ p → exec (.flitAuthenticationFailure p) s = .next s)) ∧
    (∀ h : p < 18,
      let k := s.links[p]
      let down := postEvent ⟨4, linkDie p, 0xFF, 0, BitVec.ofNat 128 p, 0⟩ { s with
        links := s.links.set p { k with up := false, rollover := .steady, key0 := if k.phase then none else k.key0, key1 := if k.phase then k.key1 else none }
        packets := s.packets.map fun q => q.loseCopy p }
      (k.up = true → 64 ≤ k.failures → exec (.linkDown p) s = .next down) ∧ ((k.up = false ∨ k.failures < 64) → exec (.linkDown p) s = .next s) ∧
      (k.up = true → exec (.linkStateUpdate s.pkg.toNat p false) s = .next down)) ∧
    (∀ x : Packet, (x.plane ≠ p → x.second ≠ some p → x.loseCopy p = x) ∧ (x.plane = p → x.second = none → x.loseCopy p = { x with lost := true }) ∧
      (x.plane = p → ∀ n, x.second = some n → n ≠ p → x.loseCopy p = { x with plane := n, second := none }) ∧ (x.second = some p → x.loseCopy p = { x with second := none })) ∧
    (∀ h : p < 18,
      (s.links[p].up = false → exec (.linkStateUpdate s.pkg.toNat p true) s = .next (postEvent ⟨4, linkDie p, 0xFF, 0, BitVec.ofNat 128 (p + 2 ^ 64), 0⟩
        { s with links := s.links.set p { s.links[p] with up := true, failures := 0 } })) ∧
      (∀ up, s.links[p].up = up → exec (.linkStateUpdate s.pkg.toNat p up) s = .next s)) ∧
    (p < 18 → q ≠ s.pkg.toNat → ∀ up, ∃ t, exec (.linkStateUpdate q p up) s = .next t ∧ t = { s with downLinks := t.downLinks } ∧ ((q, p) ∈ t.downLinks ↔ up = false) ∧
      ∀ x, x ≠ (q, p) → (x ∈ t.downLinks ↔ x ∈ s.downLinks)) ∧
    (linkDie 0 = 0 ∧ linkDie 4 = 1 ∧ linkDie 6 = 2 ∧ linkDie 8 = 3 ∧ linkDie 11 = 4 ∧ linkDie 13 = 5 ∧ linkDie 15 = 6 ∧ linkDie 17 = 7) ∧
    (∀ w, s.switch? q = some w → w.state = .present → s.packets.all (fun x => x.dest != 8192 + q) = true → ∃ t, exec (.switchLost q) s = .next t ∧ t.switch? q = some { w with state := .lost } ∧
      t.swAllocs = s.swAllocs.filter (fun a => a.sw != q) ∧ t.mem = s.mem ∧ t.g = s.g ∧ (∀ j, j ≠ q → t.switch? j = s.switch? j)) ∧
    (∀ w x u g, s.switch? q = some w → w.state = .present → s.packets = [x] → x.dest = 8192 + q → x.gangs = [u] → x.cmd = 0 → s.gang? u = some g → ∃ t, exec (.switchLost q) s = .next t ∧ t.packets = [] ∧
      t.gang? u = some (withReport ⟨13, 1, x.addr, false⟩ { g with outstanding := g.outstanding - 1 })) ∧
    (∀ w, s.switch? q = some w → w.state ≠ .present → exec (.switchLost q) s = .next s) ∧
    (∀ w, s.switch? q = some w → w.state = .lost → ∃ t, exec (.switchReplaced q) s = .next t ∧ t = { s with switches := t.switches, swAllocs := s.swAllocs.filter fun a => a.sw != q } ∧ (∀ j, j ≠ q → t.switch? j = s.switch? j) ∧
      t.switch? q = some (if w.generation < 4095 then { w with state := .present, generation := w.generation + 1 } else { w with state := .absent })) ∧
    (∀ w, s.switch? q = some w → w.state ≠ .lost → exec (.switchReplaced q) s = .next s) ∧
    (∀ k n st, q < 4096 → p < 18 → n < 4096 → (k, st) ∈ [(0, SwitchState.absent), (1, .present), (2, .lost)] → (st = .present ∨ ∀ x ∈ s.packets, x.dest ≠ 8192 + q) → ∃ t, exec (.switchTableWrite q p k n) s = .next t ∧
      t = { s with switches := t.switches, swAllocs := if st = .present ∧ switchPresent s q = true ∧ s.generation q = n then s.swAllocs else s.swAllocs.filter fun a => a.sw != q } ∧
      t.switch? q = some ⟨q, p, st, n⟩ ∧ ∀ j, j ≠ q → t.switch? j = s.switch? j) ∧
    (∀ k n, (4096 ≤ q ∨ 18 ≤ p ∨ 4096 ≤ n ∨ 2 < k) → exec (.switchTableWrite q p k n) s = .next s) ∧
    (∀ (t : BitVec 6) n, q < 4096 → ∃ u, exec (.quotaSet t.toNat q n) s = .next u ∧ u = { s with quotas := u.quotas } ∧ quotaOf u t q = n ∧
      ∀ (t1 : BitVec 6) q1, (t1 ≠ t ∨ q1 ≠ q) → quotaOf u t1 q1 = quotaOf s t1 q1) ∧
    (∀ t n, (64 ≤ t ∨ 4096 ≤ q) → exec (.quotaSet t q n) s = .next s))

/-- Contributions enter rounds that fail or complete; deliveries write whole lines and add their signal; groups are (re)installed
(15_fabric_engine.md R349; 15_fabric_engine.md R350; 15_fabric_engine.md R352; 15_fabric_engine.md R353; 15_fabric_engine.md R354;
15_fabric_engine.md R357; 15_fabric_engine.md R360; 06_gang_traps.md R192). Address 0 of these reports is log entry 20, a peer's places and
answers are free values by log entry 69, and the reports of failed rounds log entry 70. -/
def Obligations.CollectiveEvents : Prop :=
  ∀ (id sw port : Nat) (s : State),
    (∀ c G, s.contribs.find? (fun c => c.id = id) = some c → s.groups.find? (fun g => g.id = bits c.control.toNat 11 0) = some G → c.pkg = s.pkg.toNat →
      (s.linkUp G.plane = true → s.rounds.find? (fun r => r.group = bits c.control.toNat 11 0 && r.number = bits c.control.toNat 31 18) = none → 16 ≤ (s.rounds.filter fun r => r.group = bits c.control.toNat 11 0).length → exec (.reductionContribution id) s = .next s) ∧
      (s.linkUp G.plane = false → c.sent < 15 → exec (.reductionContribution id) s = .next { s with contribs := mapIf (fun x => x.id = id) (fun x => { x with sent := x.sent + 1 }) s.contribs }) ∧
      (∀ g, s.linkUp G.plane = false → 15 ≤ c.sent → s.gang? c.gang = some g → ∃ t, exec (.reductionContribution id) s = .next t ∧ t.contribs = s.contribs.filter (fun x => x.id != id) ∧ t.mem = s.mem ∧
        t.gang? c.gang = some (withReport ⟨12, 1, 0, false⟩ { g with outstanding := g.outstanding - 1 }))) ∧
    (∀ c G g, s.contribs.find? (fun c => c.id = id) = some c → s.groups.find? (fun g => g.id = bits c.control.toNat 11 0) = some G → c.pkg = s.pkg.toNat → s.linkUp G.plane = true → s.rounds.find? (fun r => r.group = bits c.control.toNat 11 0 && r.number = bits c.control.toNat 31 18) = none → (s.rounds.filter fun r => r.group = bits c.control.toNat 11 0).length < 16 → (∃ m ∈ G.members, m ≠ c.pkg) → s.gang? c.gang = some g → ∃ t, exec (.reductionContribution id) s = .next t ∧
      t.rounds = s.rounds ++ [⟨bits c.control.toNat 11 0, bits c.control.toNat 31 18, [c], none⟩] ∧ t.contribs = s.contribs.filter (fun x => x.id != id) ∧ t.gang? c.gang = some { g with outstanding := g.outstanding - 1 } ∧ t.mem = s.mem) ∧
    (∀ c G r, s.contribs.find? (fun c => c.id = id) = some c → s.groups.find? (fun g => g.id = bits c.control.toNat 11 0) = some G → c.pkg = s.pkg.toNat → s.linkUp G.plane = true → s.rounds.find? (fun r => r.group = bits c.control.toNat 11 0 && r.number = bits c.control.toNat 31 18) = some r → r.failed = none → (∃ x ∈ r.taken, x.pkg = c.pkg) → (∃ m ∈ G.members, m ≠ c.pkg ∧ ∀ x ∈ r.taken, x.pkg ≠ m) → ∃ t, exec (.reductionContribution id) s = .next t ∧
      t.rounds = mapIf (fun x => x.group = r.group && x.number = r.number) (fun _ => { r with taken := r.taken ++ [c], failed := some 0x0B }) s.rounds ∧ t.mem = s.mem ∧ t.deliveries = s.deliveries) ∧
    (∀ c G r, s.contribs.find? (fun c => c.id = id) = some c → s.groups.find? (fun g => g.id = bits c.control.toNat 11 0) = some G → c.pkg = s.pkg.toNat → s.linkUp G.plane = true → s.rounds.find? (fun r => r.group = bits c.control.toNat 11 0 && r.number = bits c.control.toNat 31 18) = some r → r.failed = none → (∀ x ∈ r.taken, x.pkg ≠ c.pkg) → (∃ x ∈ r.taken, roundFields x ≠ roundFields c) → (∃ m ∈ G.members, m ≠ c.pkg ∧ ∀ x ∈ r.taken, x.pkg ≠ m) →
      ∃ t, exec (.reductionContribution id) s = .next t ∧
      t.rounds = mapIf (fun x => x.group = r.group && x.number = r.number) (fun _ => { r with taken := r.taken ++ [c], failed := some 0x0A }) s.rounds ∧ t.mem = s.mem ∧ t.deliveries = s.deliveries) ∧
    (∀ c G r, s.contribs.find? (fun c => c.id = id) = some c → s.groups.find? (fun g => g.id = bits c.control.toNat 11 0) = some G → c.pkg = s.pkg.toNat → s.linkUp G.plane = true → s.rounds.find? (fun r => r.group = bits c.control.toNat 11 0 && r.number = bits c.control.toNat 31 18) = some r → r.failed = none → (∀ x ∈ r.taken, x.pkg ≠ c.pkg ∧ roundFields x = roundFields c) → (∀ m ∈ G.members, m = c.pkg ∨ ∃ x ∈ r.taken, x.pkg = m) →
      r.taken.length = 1 → (∀ x ∈ s.branches, x.id < s.nextId) → ∃ t, exec (.reductionContribution id) s = .next t ∧ t.rounds = s.rounds.filter (fun x => !(x.group = r.group && x.number = r.number)) ∧ t.mem = s.mem ∧
      ((t.branches.filter fun x => s.nextId ≤ x.id).map fun x => (x.pkg, x.gang, x.dest)).Perm (((r.taken ++ [c]).filter fun x => bits c.control.toNat 45 45 = 1 || x.pkg = bits c.control.toNat 44 32).map
        fun x => (x.pkg, x.gang, x.dest)) ∧
      ∀ x ∈ t.branches, s.nextId ≤ x.id → x.counted = false ∧ ∀ y, r.taken = [y] → ∃ u v, (u, v) ∈ [(y, c), (c, y)] ∧ x.payload = bytesOf (bits c.control.toNat 17 15)
        (combinePair (bits c.control.toNat 14 12) (bits c.control.toNat 17 15) (elemsOf (bits c.control.toNat 17 15) u.payload) (elemsOf (bits c.control.toNat 17 15) v.payload))) ∧
    (∀ c G, s.contribs.find? (fun c => c.id = id) = some c → s.groups.find? (fun g => g.id = bits c.control.toNat 11 0) = some G → c.pkg = s.pkg.toNat → s.linkUp G.plane = true → s.rounds.find? (fun r => r.group = bits c.control.toNat 11 0 && r.number = bits c.control.toNat 31 18) = none →
      (s.rounds.filter fun r => r.group = bits c.control.toNat 11 0).length < 16 → (∀ m ∈ G.members, m = c.pkg) → (∀ x ∈ s.branches, x.id < s.nextId) → ∃ t, exec (.reductionContribution id) s = .next t ∧ t.mem = s.mem ∧
      ∀ x ∈ t.branches, s.nextId ≤ x.id → x.payload = bytesOf (bits c.control.toNat 17 15) (let e := elemsOf (bits c.control.toNat 17 15) c.payload
        if bits c.control.toNat 14 12 = 3 then e.take 34 ++ List.replicate 30 0 else e)) ∧
    (∀ d, branchBehind d s = true ↔ if d.counted = true then (∃ x ∈ s.branches, x.counted = true ∧ x.id < d.id ∧ x.sender = d.sender ∧ x.pkg = d.pkg) ∨
        ∃ q ∈ s.packets, q.id < d.id ∧ q.src = d.sender ∧ q.dest = d.pkg ∧ q.applied = false ∧ q.kind.apart = false
      else ∃ x ∈ s.branches, x.counted = false ∧ x.id < d.id ∧ x.sender = d.sender ∧ x.pkg = d.pkg ∧ x.group = d.group) ∧
    (∀ k q t va x, s.peerPages.find? (fun x => x.pkg = q && x.tenant = t && x.page = va / 4096) = some x → peerPlace k q t va s = .ok (x.fpa + va % 4096)) ∧
    (∀ d, s.deliveries.find? (fun d => d.id = id) = some d → branchBehind d s = true → exec (.multicastDelivery id) s = .next s) ∧
    (∀ d, s.deliveries.find? (fun d => d.id = id) = some d → branchBehind d s = false → d.pkg ≠ s.pkg.toNat → (d.pkg, ((s.groups.find? fun g => g.id = d.group).map Group.plane).getD 0) ∉ s.downLinks →
      ∃ t, exec (.multicastDelivery id) s = .next t ∧ (∀ x ∈ t.deliveries, x.id ≠ id) ∧
        t.mem = match peerPlace 0 d.pkg d.tenant d.dest.toNat s, peerPlace (if (d.dest.toNat + 256) / 4096 = d.dest.toNat / 4096 then 0 else 1) d.pkg d.tenant (d.dest.toNat + 256) s with
          | .ok a, .ok c =>
            let m := (s.mem.write a (d.payload.take 128)).write (a + 128) (d.payload.drop 128)
            m.write c (toBytes 8 (ofBytes (m.read c 8) + 1))
          | _, _ => s.mem) ∧
    (∀ d u a b w t, s.deliveries.find? (fun d => d.id = id) = some d → branchBehind d s = false → d.pkg = s.pkg.toNat → s.linkUp (((s.groups.find? fun g => g.id = d.group).map Group.plane).getD 0) = true →
      translateBranch d.tenant [d.dest.toNat, d.dest.toNat + 128, d.dest.toNat + 256] s = .ok [a, b, w] u → u.isLocal a = true → u.isLocal b = true → u.isLocal w = true →
      homeWaits a 128 u = false → homeWaits b 128 u = false → homeAdd ⟨320, d.tenant, 0, false⟩ w 1 (writeWhole b (d.payload.drop 128) (writeWhole a (d.payload.take 128) u)) = some t →
      exec (.multicastDelivery id) s = .next (endBranch d t)) ∧
    (∀ d u w g, s.deliveries.find? (fun d => d.id = id) = some d → branchBehind d s = false → d.pkg = s.pkg.toNat → d.sender = s.pkg.toNat → s.linkUp (((s.groups.find? fun g => g.id = d.group).map Group.plane).getD 0) = true →
      translateBranch d.tenant [d.dest.toNat, d.dest.toNat + 128, d.dest.toNat + 256] s = .bad w u → u.pkg = s.pkg → u.gang? d.gang = some g → (∀ x ∈ u.branches, x.id ≠ d.id → x.op ≠ d.op) → u.residues = [] → ∃ t, exec (.multicastDelivery id) s = .next t ∧
      t.mem = u.mem ∧ (∀ x ∈ t.deliveries, x.id ≠ id) ∧ t.gang? d.gang = some (let r := withReport ⟨12, if w.group = 1 then 4 else 5, w.addr, false⟩ g
        if d.counted then { r with outstanding := r.outstanding - 1 } else r)) ∧
    (∀ r d ds, s.residues.find? (fun r => r.sw = sw && r.port = port && r.entry = id) = some r → r.branches = d :: ds → ∃ t, exec (.residueSend sw port id) s = .next t ∧ t.deliveries = s.deliveries ++ [d] ∧
      t = { s with deliveries := t.deliveries, residues := t.residues } ∧ (∀ x ∈ t.residues, x.sw = sw → x.port = port → x.entry = id → ds ≠ [] ∧ x.branches = ds)) ∧
    (∀ t members, id < 4096 → t < 64 → (∀ g ∈ s.groups, g.id ≠ id) → exec (.groupInstall id t members) s = .next { s with groups := s.groups ++ [⟨id, t, members, id % 18⟩] }) ∧
    (∀ t members, (4096 ≤ id ∨ 64 ≤ t ∨ ∃ g ∈ s.groups, g.id = id) → exec (.groupInstall id t members) s = .next s) ∧
    (18 ≤ port → exec (.groupReinstall id port) s = .next s) ∧
    (port < 18 → ∃ t, exec (.groupReinstall id port) s = .next t ∧ (∀ r ∈ t.rounds, r.group ≠ id) ∧ t.groups = mapIf (fun g => g.id = id) (fun g => { g with plane := port }) s.groups ∧ t.mem = s.mem ∧
      t.deliveries = s.deliveries ∧ ∀ r c g, s.rounds = [r] → r.group = id → r.taken = [c] → c.pkg = s.pkg.toNat → s.gang? c.gang = some g → t.gang? c.gang = some (withReport ⟨12, 0x0C, 0, false⟩ g)) ∧
    (∀ a b, combineElem 0 0 a b = a + b ∧ combineElem 1 0 a b = (if b.toInt ≤ a.toInt then a else b) ∧ combineElem 2 0 a b = (if a.toInt ≤ b.toInt then a else b) ∧ combineElem 0 1 a b = (fAdd a b).1)

/-- nd.launch and nd.signal never wait at issue: they act behind their release and answer the statuses of R391 and R392; nd.stat answers a
node's state (18_dispatch_engine.md R391; 18_dispatch_engine.md R392; 18_dispatch_engine.md R394; 18_dispatch_engine.md R395;
18_dispatch_engine.md R388; 18_dispatch_engine.md R389; 12_coherence_engine.md R270). That a command stands in its log entry and what it waits
for is log entry 56, status 2 for a misaligned address log entry 50, and the number 320 of a token of no core log entry 55. -/
def Obligations.NodeWords : Prop :=
  ∀ (b c d : BitVec 5) (l : BitVec 4) (s : State),
    let addr := (s.src.sreg b.toNat).toNat
    let pkg := (s.src.sreg c.toNat).toNat
    (GoesBehind (.ndLaunch d b l) .dev (capOnce 0x30 0 d.toNat b.toNat 0 0 s) s fun e u =>
      (∀ w v, readLong (gangRead [] u.agent) (linesFor 256) addr 256 u = .bad w v → ParksLeader (.ndLaunch d b l) 1 e s v fun _ => faultRec w 0 false e 0 0) ∧
      ∀ y v D, readLong (gangRead [] u.agent) (linesFor 256) addr 256 u = .ok y v → D = parseDescriptor y →
        ((addr % 64 ≠ 0 ∨ D.valid = false) → Returns (.ndLaunch d b l) s v d 2) ∧
        (addr % 64 = 0 → D.valid = true → D.owner ≠ v.g.tenant → Returns (.ndLaunch d b l) s v d 3) ∧
        (addr % 64 = 0 → D.valid = true → D.owner = v.g.tenant → 4096 ≤ v.nodes.length → Returns (.ndLaunch d b l) s v d 1) ∧
        ∀ k z, addr % 64 = 0 → D.valid = true → D.owner = v.g.tenant → v.nodes.length < 4096 → takeEarly D.owner addr v = some (k, z) → z.tokens = [] → (∀ n ∈ z.nodes, n.id ≠ nextId z) →
          ∃ w n, Returns (.ndLaunch d b l) s w d (2 ^ 63 + (nextId z).toNat) ∧ w.nodes = z.nodes ++ [n] ∧ n.id = nextId z ∧ n.desc = D ∧ n.addr = addr ∧ n.queue = none ∧ n.remaining = D.preds - k ∧
            n.state = (if D.preds ≤ k then .ready else .waiting) ∧ w.mem = z.mem) ∧
    (∀ e, Takes (.ndSignal d b c l) s e → (addr % 64 ≠ 0 ∨ 2 ^ 57 ≤ addr ∨ 8191 < pkg) → Returns (.ndSignal d b c l) s s d 1) ∧
    (∀ e, Takes (.ndSignal d b c l) s e → addr % 64 = 0 → addr < 2 ^ 57 → pkg ≤ 8191 → pkg ∉ s.domain → Returns (.ndSignal d b c l) s s d 2) ∧
    (addr % 64 = 0 → addr < 2 ^ 57 → pkg ≤ 8191 → pkg ∈ s.domain → pkg = s.pkg.toNat → GoesBehind (.ndSignal d b c l) .dev (capOnce 0x30 1 d.toNat b.toNat c.toNat 0 s) s fun _ u =>
      u.pkg = s.pkg → u.g.status ≠ .vacant → ∃ z, Returns (.ndSignal d b c l) s z d (2 ^ 63) ∧
        z = { u with nextId := u.nextId + 1, predSignals := u.predSignals ++ [⟨u.nextId, u.g.tenant, addr, [hubCore], false, false, some u.g.uid⟩], g := { u.g with outstanding := u.g.outstanding + 1 } }) ∧
    (addr % 64 = 0 → addr < 2 ^ 57 → pkg ≤ 8191 → pkg ∈ s.domain → pkg ≠ s.pkg.toNat → GoesBehind (.ndSignal d b c l) .fab (capOnce 0x30 1 d.toNat b.toNat c.toNat 0 s) s fun _ u =>
      u.pkg = s.pkg → u.g.status ≠ .vacant → ∃ z q, Returns (.ndSignal d b c l) s z d (2 ^ 63) ∧ z.packets = u.packets ++ [q] ∧ q.dest = pkg ∧ q.vc = 4 ∧
        q.kind = .predSignal u.g.tenant (BitVec.ofNat 64 addr) false ∧ q.gangs = [u.g.uid] ∧ q.critical = true ∧ z.g = { u.g with outstanding := u.g.outstanding + 1 } ∧ z.mem = u.mem) ∧
    (∀ e, Takes (.ndStat d b l) s e → (s.node? ((s.src.sreg b.toNat).setWidth 32) = none → Returns (.ndStat d b l) s s d 0) ∧ ∀ n, s.node? ((s.src.sreg b.toNat).setWidth 32) = some n →
      (n.state = .waiting → Returns (.ndStat d b l) s s d 1) ∧ (n.state = .ready → Returns (.ndStat d b l) s s d 2) ∧ (n.state = .running → (∃ x ∈ s.ensembles, x.node = n.id ∧ x.state = .evicted) → Returns (.ndStat d b l) s s d 4) ∧
      (n.state = .running → (∀ x ∈ s.ensembles, x.node = n.id → x.state ≠ .evicted) → Returns (.ndStat d b l) s s d 3))

/-- sq.bind, sq.unbind, sq.query and sq.img act on the crew's bindings, the core's pages and the tenant's image (17_sequencer_engine.md
R364; 17_sequencer_engine.md R365; 17_sequencer_engine.md R375; 17_sequencer_engine.md R376; 17_sequencer_engine.md R377;
17_sequencer_engine.md R378; 17_sequencer_engine.md R379; 17_sequencer_engine.md R387). A failed read that is no translation failure takes
0x11 by log entry 53, and a mapping refused by coherence counts as a translation failure by log entry 105. -/
def Obligations.SequencerWords : Prop :=
  ∀ (b c d : BitVec 5) (s : State),
    (∀ e k, Offers (.sqBind d b) s 1 e → s.myCrew = some k → (s.tenant s.g.tenant).image = 0 → Returns (.sqBind d b) s s d 5) ∧
    (∀ e k, Offers (.sqBind d b) s 1 e → s.myCrew = some k → (s.tenant s.g.tenant).image ≠ 0 → (s.tenant s.g.tenant).imageCount ≤ (s.src.sreg b.toNat).toNat → Returns (.sqBind d b) s s d 1) ∧
    (∀ e k w u, Offers (.sqBind d b) s 1 e → s.myCrew = some k → (s.tenant s.g.tenant).image ≠ 0 → (s.src.sreg b.toNat).toNat < (s.tenant s.g.tenant).imageCount → readLong (gangRead [] s.agent) (linesFor 8) ((s.tenant s.g.tenant).image.toNat + 8 * (s.src.sreg b.toNat).toNat) 8 s = .bad w u →
      ParksLeader (.sqBind d b) 1 e s u fun _ => ⟨BitVec.ofNat 13 (0xE00 + (if w.group = 1 ∨ w.group = 10 then 0x10 else 0x11)), sequenceDetail w.addr 2 false w.stage2 e 0 0 w.group w.code⟩) ∧
    (∀ e k y x u, Offers (.sqBind d b) s 1 e → s.myCrew = some k → (s.tenant s.g.tenant).image ≠ 0 → (s.src.sreg b.toNat).toNat < (s.tenant s.g.tenant).imageCount → readLong (gangRead [] s.agent) (linesFor 8) ((s.tenant s.g.tenant).image.toNat + 8 * (s.src.sreg b.toNat).toNat) 8 s = .ok y u → x = ofBytes y →
      ((bits x 63 63 = 0 ∨ bits x 19 0 % 8 ≠ 0) → Returns (.sqBind d b) s u d 1) ∧
      (bits x 63 63 = 1 → bits x 19 0 % 8 = 0 →
        (∀ w v, readSequence (gangRead [] u.agent) ((s.tenant s.g.tenant).image.toNat + bits x 19 0) u = .bad w v → ParksLeader (.sqBind d b) 1 e s v fun _ => ⟨BitVec.ofNat 13 (0xE00 + (if w.group = 1 ∨ w.group = 10 then 0x10 else 0x11)), sequenceDetail w.addr 3 false w.stage2 e 0 0 w.group w.code⟩) ∧
        (∀ n v, readSequence (gangRead [] u.agent) ((s.tenant s.g.tenant).image.toNat + bits x 19 0) u = .ok (.status n) v → Returns (.sqBind d b) s v d n) ∧
        (∀ q ws g v, readSequence (gangRead [] u.agent) ((s.tenant s.g.tenant).image.toNat + bits x 19 0) u = .ok (.good q ws g) v → pageFor v k.core v.g.tenant g = none → Returns (.sqBind d b) s v d 4) ∧
        (∀ q ws g v p, readSequence (gangRead [] u.agent) ((s.tenant s.g.tenant).image.toNat + bits x 19 0) u = .ok (.good q ws g) v → pageFor v k.core v.g.tenant g = some p →
          Returns (.sqBind d b) s (freePages k.core ((loadPage k.core p v.g.tenant g q ws v).setCrew k.uid fun r =>
            { r with bindings := ⟨q, (s.src.sreg b.toNat).toNat, (s.tenant s.g.tenant).image.toNat + bits x 19 0, g, p⟩ :: r.bindings.filter fun y => y.slot != q })) d (2 ^ 63 + q)))) ∧
    (∀ core (t : BitVec 6) g, (∀ p, pageFor s core t g = some p → (∃ q, (p, q) ∈ (s.core core).pages ∧ p ∈ namedPages s core ∧ q.tenant = t ∧ q.digest = g) ∨
        (p < 64 ∧ ∀ q, (p, q) ∈ (s.core core).pages → p ∉ namedPages s core)) ∧
      (pageFor s core t g = none → ∀ p < 64, ∃ q, (p, q) ∈ (s.core core).pages ∧ p ∈ namedPages s core)) ∧
    (∀ core p, p ∈ namedPages s core ↔ ∃ c ∈ s.crews, c.core = core ∧ (∃ e, s.ensemble? c.ensemble = some e ∧ (e.state = .resident ∨ e.state = .evicting)) ∧ ∃ y ∈ c.bindings, y.page = p) ∧
    (∀ e k, Offers (.sqUnbind b) s 1 e → s.myCrew = some k → Leaves (.sqUnbind b) s (freePages k.core (s.setCrew k.uid fun r => { r with bindings := r.bindings.filter fun y => y.slot != (s.src.sreg b.toNat).toNat % 16 }))) ∧
    (∀ e, Offers (.sqQuery d b) s 1 e → (bindingOf s ((s.src.sreg b.toNat).toNat % 16) = none → Returns (.sqQuery d b) s s d 0) ∧ ∀ y p, bindingOf s ((s.src.sreg b.toNat).toNat % 16) = some (y, p) →
      Returns (.sqQuery d b) s s d (y.index % 256 + (p.words.length - 1) * 2 ^ 8 + y.page * 2 ^ 14 + 2 ^ 63)) ∧
    (∀ e, Offers (.sqImg b c) s 1 e → (s.src.sreg b.toNat).toNat = 0 → Leaves (.sqImg b c) s (s.setTenant s.g.tenant fun r => { r with image := 0, imageCount := 0 })) ∧
    (∀ e, Offers (.sqImg b c) s 1 e → (s.src.sreg b.toNat).toNat ≠ 0 → ((s.src.sreg b.toNat).toNat % 4096 ≠ 0 ∨ 2 ^ 57 ≤ (s.src.sreg b.toNat).toNat) → ParksLeader (.sqImg b c) 1 e s s fun _ => ⟨0xE0A, sequenceDetail (s.src.sreg b.toNat).toNat 0 false false e 0 0 0 0⟩) ∧
    (∀ e, Offers (.sqImg b c) s 1 e → (s.src.sreg b.toNat).toNat ≠ 0 → (s.src.sreg b.toNat).toNat % 4096 = 0 → (s.src.sreg b.toNat).toNat < 2 ^ 57 → ((s.src.sreg c.toNat).toNat = 0 ∨ 256 < (s.src.sreg c.toNat).toNat) → ParksLeader (.sqImg b c) 1 e s s fun _ => ⟨0xE0A, sequenceDetail (s.src.sreg c.toNat).toNat 0 false false e 0 0 0 0⟩) ∧
    (∀ e, Offers (.sqImg b c) s 1 e → (s.src.sreg b.toNat).toNat ≠ 0 → (s.src.sreg b.toNat).toNat % 4096 = 0 → (s.src.sreg b.toNat).toNat < 2 ^ 57 → 1 ≤ (s.src.sreg c.toNat).toNat → (s.src.sreg c.toNat).toNat ≤ 256 → Leaves (.sqImg b c) s (s.setTenant s.g.tenant fun r => { r with image := s.src.sreg b.toNat, imageCount := (s.src.sreg c.toNat).toNat }))

/-- dwx runs its bound sequence micro-op by micro-op: it writes its register, traps with its cause, or starts again (17_sequencer_engine.md
R369; 17_sequencer_engine.md R370; 17_sequencer_engine.md R373; 17_sequencer_engine.md R380; 17_sequencer_engine.md R381;
17_sequencer_engine.md R382; 17_sequencer_engine.md R386; 17_sequencer_engine.md R387). That a run is one step, dropped and begun again
where a load waits, is log entry 32. -/
def Obligations.SequenceRuns : Prop :=
  ∀ (i : BitVec 2) (a b d : BitVec 7) (n : BitVec 4) (s : State),
    (MayIssue (.dwx i d a b n) s = true → bindingOf s n.toNat = none → TrapsWith (.dwx i d a b n) s 14 1 (wordDetail s.curWord s.g.place)) ∧
    (∀ y p, MayIssue (.dwx i d a b n) s = true → bindingOf s n.toNat = some (y, p) → s.src.emask = 0 → exec (.dwx i d a b n) s = .next s) ∧
    (∀ y p x f u, MayIssue (.dwx i d a b n) s = true → bindingOf s n.toNat = some (y, p) → s.src.emask ≠ 0 → runFrom (⟨i.toNat, s.src.vreg a.toNat, s.src.vreg b.toNat, s.src.vreg d.toNat, s.src.emask⟩ : RunIn) s.curWord p.words 0 (List.replicate 8 (Lanes.all 0)) 0 s = .done x f u → ∃ t, exec (.dwx i d a b n) s = .next t ∧
      t = { u with g := { u.g with r := t.g.r } } ∧ t.g.r = { u.g.r with v := t.g.r.v, xstat := u.g.r.xstat ||| f } ∧
      ∀ k (L : Fin 32), (t.g.r.vreg k)[L] = if k = d.toNat ∧ lane s.src.emask L = true then x[L] else (u.g.r.vreg k)[L]) ∧
    (∀ y p g c q m u, MayIssue (.dwx i d a b n) s = true → bindingOf s n.toNat = some (y, p) → s.src.emask ≠ 0 → runFrom (⟨i.toNat, s.src.vreg a.toNat, s.src.vreg b.toNat, s.src.vreg d.toNat, s.src.emask⟩ : RunIn) s.curWord p.words 0 (List.replicate 8 (Lanes.all 0)) 0 s = .trap g c q m u → exec (.dwx i d a b n) s = .next (takeTrap g c q m 0 s.g.cur { u with g := s.g })) ∧
    (∀ y p u, MayIssue (.dwx i d a b n) s = true → bindingOf s n.toNat = some (y, p) → s.src.emask ≠ 0 → runFrom (⟨i.toNat, s.src.vreg a.toNat, s.src.vreg b.toNat, s.src.vreg d.toNat, s.src.emask⟩ : RunIn) s.curWord p.words 0 (List.replicate 8 (Lanes.all 0)) 0 s = .wait u → exec (.dwx i d a b n) s = .next (stall { u with g := s.g })) ∧
    (∀ (r : RunIn) word w ws k t f, uOp w.toNat = 0x3F → runFrom r word (w :: ws) k t f s = .done (r.sel t w.toNat (uX w.toNat)) f s) ∧
    (∀ (r : RunIn) word w ws k t f, uOp w.toNat = 0x3C → (∀ L : Fin 32, lane r.mask L = true → (r.sel t w.toNat (uX w.toNat))[L] = 0) → runFrom r word (w :: ws) k t f s = runFrom r word ws (k + 1) t f s) ∧
    (∀ (r : RunIn) word w ws k t f, uOp w.toNat = 0x3C → (∃ L : Fin 32, lane r.mask L = true ∧ (r.sel t w.toNat (uX w.toNat))[L] ≠ 0) → ∃ m q, runFrom r word (w :: ws) k t f s = .trap 4 (uImm w.toNat % 256) q m s ∧
      (∀ L : Fin 32, lane m L = (lane r.mask L && decide ((r.sel t w.toNat (uX w.toNat))[L] ≠ 0))) ∧ q.extractLsb' 0 32 = m) ∧
    (∀ (r : RunIn) word w ws k t f, uOp w.toNat ∉ [0x30, 0x31, 0x3C, 0x3F] → ∃ h, runFrom r word (w :: ws) k t f s = runFrom r word ws (k + 1)
      (t.set (uDst w.toNat) (Lanes.of fun L => (uLane w.toNat (r.sel t w.toNat (uX w.toNat))[L] (r.sel t w.toNat (uY w.toNat))[L] (r.sel t w.toNat (uZ w.toNat))[L] (r.sel t w.toNat (uX w.toNat))).1)) (f ||| h) s ∧
      ∀ j, h.getLsbD j = true ↔ j < 4 ∧ ∃ L : Fin 32, lane r.mask L = true ∧
        (uLane w.toNat (r.sel t w.toNat (uX w.toNat))[L] (r.sel t w.toNat (uY w.toNat))[L] (r.sel t w.toNat (uZ w.toNat))[L] (r.sel t w.toNat (uX w.toNat))).2.getLsbD j = true) ∧
    (∀ (r : RunIn) t w (L : Fin 32), (r.sel t w 8)[L] = r.a[L] ∧ (r.sel t w 9)[L] = r.b[L] ∧ (r.sel t w 10)[L] = r.d[L] ∧ (r.sel t w 11)[L] = BitVec.ofNat 32 L.val ∧ (r.sel t w 12)[L] = BitVec.ofNat 32 r.k ∧
      (r.sel t w 13)[L] = 0 ∧ (r.sel t w 14)[L] = (BitVec.ofNat 11 (uImm w)).signExtend 32) ∧
    (∀ w x y z (l : Lanes Word), (uOp w = 0x00 → (uLane w x y z l).1 = (x + y)) ∧
      (uOp w = 0x01 → (uLane w x y z l).1 = (x - y)) ∧
      (uOp w = 0x02 → (uLane w x y z l).1 = (x * y)) ∧
      (uOp w = 0x03 → (uLane w x y z l).1 = (x &&& y)) ∧
      (uOp w = 0x04 → (uLane w x y z l).1 = (x ||| y)) ∧
      (uOp w = 0x05 → (uLane w x y z l).1 = (x ^^^ y)) ∧
      (uOp w = 0x06 → (uLane w x y z l).1 = (x <<< (y.toNat % 32))) ∧
      (uOp w = 0x07 → (uLane w x y z l).1 = (x >>> (y.toNat % 32))) ∧
      (uOp w = 0x08 → (uLane w x y z l).1 = (x.sshiftRight (y.toNat % 32))) ∧
      (uOp w = 0x09 → (uLane w x y z l).1 = (if x.toInt < y.toInt then x else y)) ∧
      (uOp w = 0x0A → (uLane w x y z l).1 = (if x.toInt < y.toInt then y else x)) ∧
      (uOp w = 0x0B → (uLane w x y z l).1 = (if x.toNat < y.toNat then x else y)) ∧
      (uOp w = 0x0C → (uLane w x y z l).1 = (if x.toNat < y.toNat then y else x)) ∧
      (uOp w = 0x11 → (uLane w x y z l).1 = (if x = y then 0xFFFFFFFF else 0)) ∧
      (uOp w = 0x12 → (uLane w x y z l).1 = (if x.toInt < y.toInt then 0xFFFFFFFF else 0)) ∧
      (uOp w = 0x13 → (uLane w x y z l).1 = (if x.toNat < y.toNat then 0xFFFFFFFF else 0)) ∧
      (uOp w = 0x14 → (uLane w x y z l).1 = (if z ≠ 0 then x else y)) ∧
      (uOp w = 0x15 → (uLane w x y z l).1 = (l[y.toNat % 32])) ∧
      (uOp w ≤ 0x15 → (uLane w x y z l).2 = 0) ∧ (uOp w = 0x20 → uLane w x y z l = fAdd x y) ∧ (uOp w = 0x21 → uLane w x y z l = fSub x y) ∧ (uOp w = 0x22 → uLane w x y z l = fMul x y) ∧
      (uOp w = 0x23 → uLane w x y z l = fFma x y z) ∧ (uOp w = 0x24 → uLane w x y z l = fMinMax false false x y) ∧ (uOp w = 0x25 → uLane w x y z l = fMinMax true false x y))

/-- Doorbells, admissions, predecessor signals and completions move nodes as R390-R405 say (18_dispatch_engine.md R390; 18_dispatch_engine.md
R393; 18_dispatch_engine.md R394; 18_dispatch_engine.md R395; 18_dispatch_engine.md R401; 18_dispatch_engine.md R403;
18_dispatch_engine.md R405; 18_dispatch_engine.md R388). -/
def Obligations.NodeEvents : Prop :=
  ∀ (t : BitVec 6) (q x k : Nat) (s : State),
    (16 ≤ q → exec (.hostDoorbell t.toNat q x) s = .next s) ∧
    (q < 16 → s.host.ready = false → exec (.hostDoorbell t.toNat q x) s = .next s) ∧
    (∀ u, q < 16 → s.host.ready = true → u = s.setTenant t (fun T => { T with queues := T.queues.setIfInBounds q { queueAt T q with tail := BitVec.ofNat 12 x } }) → entryWaits t q u = false → exec (.hostDoorbell t.toNat q x) s = .next u) ∧
    (∀ u v, q < 16 → s.host.ready = true → u = s.setTenant t (fun T => { T with queues := T.queues.setIfInBounds q { queueAt T q with tail := BitVec.ofNat 12 x } }) → entryWaits t q u = true → takeEntry t q u = some v →
      entryWaits t q v = false → exec (.hostDoorbell t.toNat q x) s = .next v) ∧
    (entryWaits t q s = true ↔ s.host.ready = true ∧ (s.tenant t).valid = true ∧ (s.tenant t).resetting = false ∧ (queueAt (s.tenant t) q).enabled = true ∧
      (queueAt (s.tenant t) q).head.toNat % 2 ^ ((queueAt (s.tenant t) q).log.toNat + 4) ≠ (queueAt (s.tenant t) q).tail.toNat % 2 ^ ((queueAt (s.tenant t) q).log.toNat + 4) ∧ s.nodes.length + s.admissions.length < 4096) ∧
    (∀ y u z v va Y, q < 16 → hubRead t ((queueAt (s.tenant t) q).base.toNat + 16 * ((queueAt (s.tenant t) q).head.toNat % 2 ^ ((queueAt (s.tenant t) q).log.toNat + 4))) 16 s = .ok y u → va = bits (ofBytes y) 56 0 → readLong (hubRead t) (linesFor 256) va 256 u = .ok z v →
      Y = parseDescriptor z → v.tenant t = s.tenant t → bits (ofBytes y) 63 57 = 0 → bits (ofBytes y) 127 66 = 0 → va % 64 = 0 → Y.valid = true → Y.owner = t → ∃ w, takeEntry t q s = some w ∧
        w.admissions = v.admissions ++ [⟨v.nextId, t, q, va, Y, decide (bits (ofBytes y) 64 64 = 1), decide (bits (ofBytes y) 65 65 = 1)⟩] ∧ w.nodes = v.nodes ∧
        (queueAt (w.tenant t) q).head = BitVec.ofNat 12 (((queueAt (s.tenant t) q).head.toNat + 1) % 2 ^ ((queueAt (s.tenant t) q).log.toNat + 4))) ∧
    (s.admissions.find? (fun a => a.id = k) = none → exec (.nodeAdmit k) s = .next (takeAll s)) ∧
    (∀ a, s.admissions.find? (fun a => a.id = k) = some a → (4096 ≤ s.nodes.length ∨ ∃ b ∈ s.admissions.takeWhile (fun b => b.id != k), b.tenant = a.tenant ∧ b.queue = a.queue) → exec (.nodeAdmit k) s = .next s) ∧
    (∀ a m z, s.admissions.find? (fun a => a.id = k) = some a → s.nodes.length < 4096 → (∀ b ∈ s.admissions.takeWhile (fun b => b.id != k), ¬(b.tenant = a.tenant ∧ b.queue = a.queue)) → takeEarly a.desc.owner a.addr s = some (m, z) → z.tokens = [] →
      (∀ n ∈ z.nodes, n.id ≠ nextId z) → ∃ w n, exec (.nodeAdmit k) s = .next w ∧ w.nodes = z.nodes ++ [n] ∧ n.id = nextId z ∧ n.desc = a.desc ∧ n.addr = a.addr ∧ n.queue = some a.queue ∧ n.irq = a.irq ∧
        n.remaining = a.desc.preds - m ∧ n.fenceOn = (if a.fence = true then (z.nodes.filter fun n => n.queue = some a.queue && n.desc.owner = a.desc.owner).map Node.id else []) ∧
        n.state = (if a.desc.preds ≤ m ∧ n.fenceOn = [] then .ready else .waiting) ∧ (∀ b ∈ w.admissions, b.id ≠ k) ∧ w.nextNode = nextId z + 1) ∧
    (∀ p, s.predSignals.find? (fun p => p.id = k) = some p → (s.tenant p.tenant).resetting = true → p.gang = none → exec (.predecessorSignal k) s = .next { s with predSignals := s.predSignals.filter fun x => x.id != k }) ∧
    (∀ p n, s.predSignals.find? (fun p => p.id = k) = some p → (s.tenant p.tenant).resetting = false → p.gang = none → s.nodes = [n] → n.desc.owner = p.tenant → n.addr = p.addr → n.error = none → n.state = .waiting → 1 ≤ n.remaining → n.fenceOn = [] →
      n.predError = false → p.error = false → ∃ t m, exec (.predecessorSignal k) s = .next t ∧ t.nodes = [m] ∧ m.id = n.id ∧ m.remaining = n.remaining - 1 ∧ m.state = (if n.remaining = 1 then .ready else .waiting) ∧
        (∀ c ∈ p.cores, c ∈ m.predCores) ∧ m.remotePred = (n.remotePred || p.remote) ∧ (∀ x ∈ t.predSignals, x.id ≠ k) ∧ t.mem = s.mem) ∧
    (∀ p y u v, s.predSignals.find? (fun p => p.id = k) = some p → (s.tenant p.tenant).resetting = false → p.gang = none → (∀ n ∈ s.nodes, ¬(n.desc.owner = p.tenant ∧ n.addr = p.addr ∧ n.error = none)) → hubRead p.tenant (p.addr + 0x30) 4 s = .ok y u →
      hubWrite p.tenant (p.addr + 0x30) (toBytes 4 (ofBytes y + 1)) u = .ok [] v → v.tokens = [] → exec (.predecessorSignal k) s =
        .next { v with tokens := [⟨p.tenant, p.addr, p.cores, p.remote, p.error⟩], predSignals := v.predSignals.filter fun x => x.id != k }) ∧
    (∀ n, s.nodes = [n] → n.state = .running → n.error = none → n.fenceOn = [] → n.nextEns = n.desc.total → s.ensembles = [] → s.allGangs = [] → s.cores = [] → n.release = some [] → n.queue = none → n.desc.signal = 0 → n.desc.succCount = 0 →
      n.ranOn = [] → (∀ p ∈ s.packets, p.postedFor n.id = false) → exec (.nodeComplete n.id.toNat) s = .next (drainEvents { s with nodes := [], crews := s.crews.filter fun g => g.node != n.id })) ∧
    (∀ n u, s.nodes.find? (fun n => n.id.toNat = k) = some n → nodeDone s n = true → n.release = some [] → n.error = none → n.queue = none → writeSignal n.desc.owner n.desc.signal.toNat (2 ^ 63 + n.id.toNat) s = some u →
      exec (.nodeComplete k) s = .next (drainEvents (dropNode n (signalSuccessors n u)))) ∧
    (∀ n u e, s.nodes.find? (fun n => n.id.toNat = k) = some n → nodeDone s n = true → n.release = some [] → n.error = some e → e.code ≠ 0 → writeSignal n.desc.owner n.desc.signal.toNat (2 ^ 63 + 2 ^ 62 + e.code.toNat * 2 ^ 48 + n.id.toNat) s = some u →
      let v := match n.queue with
        | some q => if n.irq = true then raiseVector ((u.tenant n.desc.owner).msix.toNat + q) u else u
        | none => u
      exec (.nodeComplete k) s = .next (drainEvents (raiseTenantError n.desc.owner (dropNode n (signalSuccessors n v))))) ∧
    (∀ n u, signalSuccessors n u = (n.desc.succs.take n.desc.succCount).foldl (fun s x => sendSignal n.desc.owner (bits x.toNat 63 51) (bits x.toNat 50 0 * 64) n.ranOn n.error.isSome none s) u) ∧
    (∀ addr pkg, pkg ≠ s.pkg.toNat → pkg < 8192 → ∀ cs er g, ∃ p, (sendSignal t pkg addr cs er g s).packets = s.packets ++ [p] ∧ p.dest = pkg ∧ p.kind = .predSignal t (BitVec.ofNat 64 addr) er ∧ p.critical = true) ∧
    (∀ n, s.nodes.find? (fun n => n.id.toNat = k) = some n → nodeDone s n = false → exec (.nodeComplete k) s = .next s) ∧
    (∀ n, nodeDone s n = true → (∀ g ∈ s.allGangs, g.node = n.id → (g.status = .retired ∨ g.status = .stopped) ∧ g.outstanding = 0) ∧ (∀ c ∈ s.cores, (∀ q ∈ c.2.cmds, q.node ≠ n.id) ∧ ∀ q ∈ c.2.tasks, q.node ≠ n.id) ∧
      ∀ p ∈ s.packets, p.gangs = [] → p.node = n.id → ∃ u a e, p.kind = .predSignal u a e) ∧
    (∀ e y, s.ensemble? k = some e → e.state = .evicting → e.deadline = some y → y ≤ s.clk → exec (.saveLimitPassed k) s = .next (nodeError e.node 6 none s)) ∧
    (∀ e, s.ensemble? k = some e → (e.state ≠ .evicting ∨ e.deadline = none) → exec (.saveLimitPassed k) s = .next s)

/-- The next ensemble by priority is placed or restored within what its cores hold, or others are evicted for it (18_dispatch_engine.md
R396; 18_dispatch_engine.md R397; 18_dispatch_engine.md R398; 18_dispatch_engine.md R399; 18_dispatch_engine.md R400; 18_dispatch_engine.md
R402; 18_dispatch_engine.md R404; 04_gang_arith.md R96; 06_gang_traps.md R191). What R398 says of two live fill nodes is log entry 51, and
which placement and which victims are taken log entry 81. -/
def Obligations.PlacementEvents : Prop :=
  ∀ (k : Nat) (ps : List Nat) (s : State),
    ((nextEnsemble s = none ∨ ∃ n e, nextEnsemble s = some ⟨n, some e⟩) → exec (.ensemblePlace k ps) s = .next s) ∧ ((nextEnsemble s = none ∨ ∃ n, nextEnsemble s = some ⟨n, none⟩) → exec (.ensembleRestore k ps) s = .next s) ∧
    (∀ n, nextEnsemble s = some ⟨n, none⟩ → n.id.toNat ≠ k → exec (.ensemblePlace k ps) s = .next s) ∧
    (∀ n p b t, nextEnsemble s = some ⟨n, none⟩ → n.id.toNat = k → placesAt s n.desc.owner n.desc.stream (List.replicate n.desc.crews (needOf n.desc)) ps = some (p, b) → startEnsemble n p b s = some t →
      exec (.ensemblePlace k ps) s = .next t) ∧
    (∀ n, nextEnsemble s = some ⟨n, none⟩ → n.id.toNat = k → placesAt s n.desc.owner n.desc.stream (List.replicate n.desc.crews (needOf n.desc)) ps = none →
      exec (.ensemblePlace k ps) s = .next (if Turnout.fits s ⟨n, none⟩ [] then s else preempt ⟨n, none⟩ s)) ∧
    (∀ n e p b t, nextEnsemble s = some ⟨n, some e⟩ → e.uid = k → placesAt s n.desc.owner n.desc.stream ((crewsOf s e.uid).map fun c => needRestore s n.desc c) ps = some (p, b) → restoreEnsemble n e p b s = some t →
      exec (.ensembleRestore k ps) s = .next t) ∧
    (∀ x, nextEnsemble s = some x → s.hold = none → x ∈ waitingEnsembles s ∧ (∀ y ∈ waitingEnsembles s, effPriority s y.node ≤ effPriority s x.node) ∧
      (x.ens = none → ∀ y ∈ waitingEnsembles s, effPriority s y.node = effPriority s x.node → y.ens = none)) ∧
    (∀ x ∈ waitingEnsembles s, x.node ∈ s.nodes ∧ x.node.state ≠ .waiting ∧ x.node.error = none ∧ x.node.errorHeld = none ∧
      (∀ n ∈ s.nodes, n.desc.kind = 1 → n.id ≠ x.node.id → x.node.state = .running) ∧
      (x.ens = none → x.node.desc.kind = 1 → ∀ m ∈ s.nodes, m.id ≠ x.node.id → m.state ≠ .running) ∧ (∀ e, x.ens = some e → e ∈ s.ensembles ∧ e.node = x.node.id ∧ e.state = .evicted) ∧
      (x.ens = none → x.node.nextEns < x.node.desc.total)) ∧
    (∀ t st l p b, placesAt s t st l ps = some (p, b) → p.length = l.length ∧ b.length = l.length ∧ ∀ c ∈ p, c < 320 ∧ isStreamCore c = st) ∧
    (∀ core t occ n b, fitOn core t occ n = some b → pagesFit t occ n.pages = true ∧ n.kept + sumBy Held.kept occ ≤ 32 - (sumBy Held.rsv occ + n.rsv) ∧ sumBy Held.gangs occ + n.gangs ≤ 64 ∧ sumBy Held.regs occ + n.regs ≤ 8192 ∧ sumBy Held.rsv occ + n.rsv ≤ 32 ∧ (n.matrix = true → ∀ h ∈ occ, h.matrix = false) ∧
      b + n.size ≤ (if isStreamCore core then 2 ^ 20 else 2 ^ 19) ∧ ∀ h ∈ occ, h.size ≠ 0 → n.size ≠ 0 → b + n.size ≤ h.base ∨ h.base + h.size ≤ b) ∧
    (∀ n c ix uid no st clk, let g := newGang n c ix uid no st clk
      (∀ r (L : Fin 32), (g.r.vreg r)[L] = 0#32) ∧ (∀ r, g.r.sreg r = 0) ∧ (∀ r, r ≠ 0 → g.r.preg r = 0) ∧ g.r.emask = 0xFFFFFFFF ∧ g.r.blk = 0 ∧ g.r.xstat = 0 ∧ g.r.dstack = [] ∧ g.handler = none ∧ g.pc = ⟨0, 0⟩ ∧
      g.codeBase = n.desc.code ∧ g.role = st.2 ∧ g.status = .resident ∧ (∀ L : Fin 32, g.r.srnd[L] = srndFix (BitVec.ofNat 16 (0x1D87 ^^^ (L.val * 0x0101) ^^^ (no * 0x2469 % 2 ^ 16) ^^^ ix % 2 ^ 16)))) ∧
    (∀ c g, let r := restoredGang c s g
      r.handler = some 0x1002 ∧ r.r.tcause = 0x1002 ∧ r.pc = ⟨64, 0⟩ ∧ r.status = .resident ∧ r.core.toNat = c.core % 40 ∧ r.die.toNat = c.core / 40 % 8 ∧ r.evictDue = false ∧ r.r.emask = 0xFFFFFFFF ∧
      (∀ k (L : Fin 32), (r.r.vreg k)[L] = 0#32) ∧ r.uid = g.uid ∧ r.olog = g.olog)

/-- The host's writes change the records and registers they may change; events enter the ring; SPDM answers (18_dispatch_engine.md R406;
19_host_management.md R411; 19_host_management.md R413; 19_host_management.md R414; 19_host_management.md R416; 19_host_management.md R417;
19_host_management.md R419; 19_host_management.md R424; 18_dispatch_engine.md R409). What each SPDM index answers is log entry 74, and that
in a word of several fields a field is written where its value changes log entry 98. -/
def Obligations.HostEvents : Prop :=
  ∀ (t : BitVec 6) (o : Nat) (v : Dword) (s : State),
    ((1024 ≤ o ∨ o % 8 ≠ 0 ∨ (s.tenant t).resetting = true) → exec (.tenantRecordWrite t.toNat o v) s = .next s) ∧
    ((s.tenant t).resetting = false → s.tenantLive t = false → ∃ u, exec (.tenantRecordWrite t.toNat 0x18 v) s = .next u ∧ u = s.setTenant t (fun T => { T with handler := v })) ∧
    ((s.tenant t).resetting = false → s.tenantLive t = true → exec (.tenantRecordWrite t.toNat 0x18 v) s = .next (s.setTenant t fun T => { T with refused := true })) ∧
    ((s.tenant t).resetting = false → exec (.tenantRecordWrite t.toNat 0x30 v) s = .next (s.setTenant t fun T => { T with runLimit := v }) ∧ exec (.tenantRecordWrite t.toNat 0x38 v) s = .next (s.setTenant t fun T => { T with saveLimit := v })) ∧
    ((s.tenant t).resetting = false → s.tenantLive t = false → ∃ u, exec (.tenantRecordWrite t.toNat 0 v) s = .next u ∧ (u.tenant t).valid = v.getLsbD 0 ∧ (u.tenant t).priv = v.getLsbD 1 ∧ (u.tenant t).ceiling = v.extractLsb' 2 8 ∧
      ((s.tenant t).valid = false → v.getLsbD 0 = true → (u.tenant t).age = 100) ∧ (u.tenant t).root1 = (s.tenant t).root1) ∧
    ((s.tenant t).resetting = false → s.tenantLive t = true → ∃ u, exec (.tenantRecordWrite t.toNat 0 v) s = .next u ∧ (u.tenant t).valid = (s.tenant t).valid ∧ (u.tenant t).priv = (s.tenant t).priv ∧ (u.tenant t).ceiling = v.extractLsb' 2 8 ∧
      ((u.tenant t).refused = true ↔ ((s.tenant t).refused = true ∧ v.getLsbD 10 = false) ∨ v.getLsbD 0 ≠ (s.tenant t).valid ∨ v.getLsbD 1 ≠ (s.tenant t).priv)) ∧
    (∀ x, 0x40 ≤ x → x < 0x60 → x % 8 = 0 → x ≠ 0x50 → (s.tenant t).resetting = false → s.tenantLive t = true → exec (.tenantRecordWrite t.toNat x v) s = .next (s.setTenant t fun T => { T with refused := true })) ∧
    (∀ x, ((0x60 < x ∧ x < 0x80) ∨ (0x1C0 ≤ x ∧ x < 1024)) → (s.tenant t).resetting = false → exec (.tenantRecordWrite t.toNat x v) s = .next s) ∧
    (∀ T : Tenant, T.imageCount < 2 ^ 16 → bits (tenantWord T 0x50) 47 32 = (if T.hbmWeight = 0 then 1 else T.hbmWeight.toNat) ∧ bits (tenantWord T 0x50) 63 48 = (if T.fabricWeight = 0 then 1 else T.fabricWeight.toNat)) ∧
    ((s.tenant t).resetting = false → exec (.tenantRecordWrite t.toNat 0x60 v) s = .next (if v.getLsbD 0 = true then s.setTenant t fun T => { T with resetting := true } else s)) ∧
    (exec (.writeRefusedClear t.toNat) s = .next (if (s.tenant t).resetting = true then s else s.setTenant t fun T => { T with refused := false })) ∧
    (∀ (x : BitVec 6), x ≠ t → ∀ u, exec (.tenantRecordWrite t.toNat o v) s = .next u → u.tenant x = s.tenant x ∧ u.mem = s.mem ∧ u.host = s.host) ∧
    (exec .eventOverflowClear s = .next { s with host := { s.host with overflow := false } }) ∧
    (exec (.eventQueueHeadWrite o) s = .next (drainEvents { s with host := { s.host with evHead := BitVec.ofNat 16 (o % 65536) } })) ∧
    (o % 8 ≠ 0 → exec (.registerWrite o v) s = .next s) ∧
    (exec (.registerWrite 0x8 v) s = .next (if s.host.resetAsked = 0 then (if v.getLsbD 1 = true then { s with host := { s.host with resetAsked := 2 } }
      else if v.getLsbD 0 = true then { s with host := { s.host with resetAsked := 1 } } else s) else s)) ∧
    (exec (.registerWrite 0x0 v) s = .next s) ∧ (exec (.registerWrite 0x18 v) s = .next s) ∧
    (∀ d, d < 8 → exec (.registerWrite (0x60000 + 8 * d) v) s = .next (if v.toNat % 32 ≤ 24 then { s with host := { s.host with poolRegs := s.host.poolRegs.setIfInBounds d (BitVec.ofNat 5 (v.toNat % 32)) } } else s)) ∧
    (exec (.registerWrite 0x30008 v) s = .next (if v.toNat % 16 ≤ 10 then { s with host := { s.host with evLog := BitVec.ofNat 4 (v.toNat % 16) } } else s)) ∧
    (∀ x, o ≤ 12 → s.host.buffers = [] → s.host.held = [] → (∀ n ∈ s.nodes, n.errorHeld = none) → s.host.evEnabled = true → s.host.ringFull = false → exec (.uncorrectableErrorOutsideGang o x) s =
      .next (writeEvent ⟨3, o, 0xFF, 0, x, 0⟩ { s with host := { s.host with buffers := [(o, [])] } })) ∧
    (∀ x, 12 < o → exec (.uncorrectableErrorOutsideGang o x) s = .next s) ∧
    (s.host.ringFull = true ↔ (s.host.evTail.toNat + 1) % 2 ^ (s.host.evLog.toNat + 6) = s.host.evHead.toNat % 2 ^ (s.host.evLog.toNat + 6)) ∧
    (∀ x, o ≤ 12 → s.host.buffers = [] → s.host.held = [] → s.host.evEnabled = false → ∃ u, exec (.uncorrectableErrorOutsideGang o x) s = .next u ∧ u.mem = s.mem ∧ u.host.buffer o = [⟨3, o, 0xFF, 0, x, 0⟩] ∧
      u.host.evStalls = s.host.evStalls + 1) ∧
    (∀ e, let n := 2 ^ (s.host.evLog.toNat + 6)
      (writeEvent e s).host.evTail = BitVec.ofNat 16 ((s.host.evTail.toNat + 1) % n) ∧ (writeEvent e s).host.evPhase = (if (s.host.evTail.toNat + 1) % n = 0 then !s.host.evPhase else s.host.evPhase) ∧
      (writeEvent e s).mem = s.mem.write (s.fpa (0x200000000000 + s.host.evBase.toNat + 32 * s.host.evTail.toNat)) (toBytes 2 e.kind ++ toBytes 1 e.origin ++ [e.tenant] ++ toBytes 4 e.node.toNat ++
        toBytes 16 e.detail.toNat ++ toBytes 7 e.merged ++ [if s.host.evPhase then 0x80 else 0])) ∧
    (∃ y, exec (.spdmRequest 0) s = .next { s with host := { s.host with spdm := y } } ∧ y = Config.certificate) ∧
    (exec (.spdmRequest 1) s = .next { s with host := { s.host with spdm := toBytes 64 (Config.shake256 s.unit.firmware).toNat ++ Config.ed448Sign (Config.shake256 s.unit.firmware) } })

/-- Resets clear what R410 and R419 list, with their causes; the side-band port, firmware, power cap, clock and thermal trip act
(18_dispatch_engine.md R410; 12_coherence_engine.md R293; 19_host_management.md R411; 19_host_management.md R414; 19_host_management.md
R419; 19_host_management.md R420; 19_host_management.md R421; 19_host_management.md R422; 19_host_management.md R423; 19_host_management.md
R426). The layout of a power event's detail is log entry 19, the order of a side-band request's checks log entry 71, the two stages of a
warm reset log entry 73, a firmware image's use at the next reset log entry 74, the rounding of an eclipse's rest log entry 3, that of a
combining age log entry 66, and a reset without the rail log entry 104. -/
def Obligations.ResetsPowerAndFirmware : Prop :=
  ∀ (s : State),
    (∀ (sec : Bool) (cmd lvl : Byte), ∃ u y, exec (.sidebandResetRequest sec cmd lvl) s = .next u ∧ u = { s with host := { s.host with sideBand := y, resetAsked := u.host.resetAsked } } ∧
      (sec = false → y = 2 ∧ u.host.resetAsked = s.host.resetAsked) ∧ (sec = true → (cmd ≠ 1 ∨ lvl = 0 ∨ 3 < lvl.toNat) → y = 1 ∧ u.host.resetAsked = s.host.resetAsked) ∧
      (sec = true → cmd = 1 → 1 ≤ lvl.toNat → lvl.toNat ≤ 3 → s.host.resetAsked ≠ 0 → y = 3 ∧ u.host.resetAsked = s.host.resetAsked) ∧
      (sec = true → cmd = 1 → 1 ≤ lvl.toNat → lvl.toNat ≤ 3 → s.host.resetAsked = 0 → y = 0 ∧ u.host.resetAsked = lvl.toNat + 2)) ∧
    (s.host.resetAsked ≠ 1 → s.host.resetAsked ≠ 3 → exec .warmReset s = .next s) ∧ (s.host.resetAsked ≠ 2 → s.host.resetAsked ≠ 4 → exec .coldReset s = .next s) ∧
    (∀ i n, (i, n) ∈ [(Instr.warmReset, 1), (.warmReset, 3), (.coldReset, 2), (.coldReset, 4)] → s.host.resetAsked = n → allAcknowledged (quietDown s) = false → exec i s = .next (quietDown s)) ∧
    (∀ q, q = quietDown s → q.nodes = [] ∧ q.crews = [] ∧ q.gangs = [] ∧ q.g.status = .vacant ∧ q.ensembles = [] ∧ q.admissions = [] ∧ q.predSignals = [] ∧ q.host.ready = false ∧ (∀ k ∈ q.cores, k.2.cmds = [] ∧ k.2.tasks = [])) ∧
    (∀ n, n = 1 ∨ n = 3 → s.host.resetAsked = n → allAcknowledged (quietDown s) = true → ∃ t, exec .warmReset s = .next t ∧ t.host.resetCause = (if n = 3 then 5 else 2) ∧
      t.host.ready = (s.unit.railOn && !s.host.sideBandOnly) ∧ t.host.sideBandOnly = s.host.sideBandOnly ∧ (∀ x : BitVec 6, (t.tenant x).resetting = (s.tenant x).resetting) ∧ t.host.resetAsked = 0 ∧ t.tlb = [] ∧ t.fills = [] ∧ t.nodes = [] ∧ t.g.status = .vacant ∧ t.spad = s.spad ∧ (∀ (x : BitVec 6), (t.tenant x).valid = (s.tenant x).valid ∧ (t.tenant x).ctxUsed = [] ∧
        (t.tenant x).root1 = (s.tenant x).root1 ∧ ∀ q, q < 16 → (queueAt (t.tenant x) q).enabled = false ∧ (queueAt (t.tenant x) q).head = (queueAt (s.tenant x) q).tail) ∧
      (∀ d : Fin 8, (t.die d).pool = s.host.poolRegs[d].toNat ∧ (t.die d).early = 0)) ∧
    (∀ n, n = 2 ∨ n = 4 → s.host.resetAsked = n → allAcknowledged (quietDown s) = true → ∃ t, exec .coldReset s = .next t ∧ t.host.resetCause = (if n = 4 then 5 else 3) ∧ t.host.resetAsked = 0 ∧
      t.host.ready = (Config.ed448Ok s.unit.firmware && s.unit.railOn) ∧ t.host.sideBandOnly = !Config.ed448Ok s.unit.firmware ∧ t.tenants = Vector.replicate 64 .reset ∧ (∀ k : Fin 18, t.links[k].up = true) ∧ t.clk = 0 ∧ t.directory = [] ∧
      (∀ x ∈ t.cores, x.2.l1 = [] ∧ x.2.packets = []) ∧ (∀ d : Fin 8, (t.die d).lines = [] ∧ (t.die d).grains = []) ∧ t.nodes = []) ∧
    (∃ t, exec .powerOnReset s = .next t ∧ t.host.resetCause = (if s.host.resetAsked = 5 then 5 else if s.unit.railOn = true then 1 else 4) ∧ t.host.ready = Config.ed448Ok s.unit.firmware ∧ t.unit.railOn = true ∧ t.nodes = [] ∧
      t.g.status = .vacant ∧ t.gangs = [] ∧ t.cores = [] ∧ t.tenants = Vector.replicate 64 .reset ∧ t.dies = Vector.replicate 8 .reset ∧ t.tlb = [] ∧ t.clk = 0 ∧ t.unit.clockMhz = 3300 ∧ t.packets = []) ∧
    (∀ t : BitVec 6, (s.tenant t).resetting = false → exec (.tenantReset t.toNat) s = .next s) ∧
    (∀ t : BitVec 6, (s.tenant t).resetting = true → (∀ n ∈ s.nodes, n.errorHeld = none) → ∃ u, exec (.tenantReset t.toNat) s = .next u ∧ (u.tenant t).resetting = false ∧ (u.tenant t).ctxUsed = [] ∧ (∀ q, q < 16 → (queueAt (u.tenant t) q).enabled = false ∧
        (queueAt (u.tenant t) q).head = (queueAt (s.tenant t) q).tail) ∧ (∀ n ∈ u.nodes, n.desc.owner ≠ t) ∧ (∀ a ∈ u.admissions, a.tenant ≠ t) ∧ (∀ p ∈ u.predSignals, p.tenant ≠ t) ∧ (∀ w ∈ u.waiters, w.tenant ≠ t) ∧
      (∀ x ∈ u.cores, (∀ e ∈ x.2.wc, e.tenant ≠ t) ∧ ∀ p ∈ x.2.pages, p.2.tenant ≠ t) ∧ (∀ d : Fin 8, ∀ l ∈ (u.die d).lines, ∀ w, l.twin = some w → w.tenant ≠ t) ∧ ∀ x, x ≠ t → u.tenant x = s.tenant x) ∧
    (∀ im, exec (.firmwareUpdate im) s = .next { s with unit := { s.unit with firmware := im } }) ∧
    (∀ w, exec (.powerCapSet w) s = .next (if 2000 ≤ w ∧ w ≤ 4600 then { s with unit := { s.unit with capWatts := w } } else s)) ∧
    (∀ n, n ≤ 1 → 1200 < s.unit.clockMhz → ∃ t, exec (.clockThrottle n) s = .next t ∧ t.unit = { s.unit with clockMhz := s.unit.clockMhz - 100 } ∧ ((∀ m ∈ s.nodes, m.errorHeld = none) → t.g = s.g) ∧
      t = postEvent ⟨5, 12, 0xFF, 0, BitVec.ofNat 128 (n + (s.unit.clockMhz - 100) * 2 ^ 64), 0⟩ (rescaleEclipse (s.unit.clockMhz - 100) s)) ∧
    (∀ n (d : Fin 8), ((rescaleEclipse n s).die d).eclipse = ⟨(s.eclipseNow d).bank, s.clk + ((s.eclipseNow d).next - s.clk) * n / s.unit.clockMhz⟩ ∧ (rescaleEclipse n s).clk = s.clk ∧ (rescaleEclipse n s).unit = { s.unit with clockMhz := n }) ∧
    (∀ n core, (s.core core).wc ≠ [] → ((rescaleEclipse n s).core core).wc = (s.core core).wc.map fun e => { e with born := s.clk, lived := (e.lived + (s.clk - e.born)) * n / s.unit.clockMhz }) ∧
    (s.unit.clockMhz ≤ 1200 → s.unit.unreachable = false → ∃ t, exec (.clockThrottle 0) s = .next t ∧ t.unit = { s.unit with unreachable := true }) ∧
    (∀ n, (1 < n ∨ (s.unit.clockMhz ≤ 1200 ∧ (n = 1 ∨ s.unit.unreachable = true))) → exec (.clockThrottle n) s = .next s) ∧
    (∀ n, n ≤ 1 → s.unit.clockMhz < 3300 → ∃ t, exec (.clockRaise n) s = .next t ∧ t.unit = { s.unit with clockMhz := s.unit.clockMhz + 100 }) ∧ (∀ n, (1 < n ∨ 3300 ≤ s.unit.clockMhz) → exec (.clockRaise n) s = .next s) ∧
    (∃ t, exec .capUnreachableEnd s = .next t ∧ t.unit = { s.unit with unreachable := false } ∧ (s.unit.unreachable = false → t = s)) ∧
    (∀ d, d < 13 → s.unit.railOn = true → ∃ t, exec (.thermalTrip d) s = .next t ∧ t.unit.railOn = false ∧ t.host.ready = false ∧ t.nodes = [] ∧ t.gangs = [] ∧ t.cores = [] ∧ t.records = []) ∧
    (∀ d, (13 ≤ d ∨ s.unit.railOn = false) → exec (.thermalTrip d) s = .next s)

/-- A step runs the decoded word: exec of it on the registers as captured, between the tests before it and the end of its group; ready gangs
of a core go round (03_gang_words.md R68; 03_gang_words.md R69; 03_gang_words.md R70; 03_gang_words.md R77; 03_gang_words.md R78;
06_gang_traps.md R171; 06_gang_traps.md R173; 06_gang_traps.md R181; 01_engines.md R14; 19_host_management.md R426). The agenda is the
model's own, log entry 4, a word that waits behind those chained to it log entry 110, and a reset without the rail log entry 104. -/
def Obligations.StepRunsDecoded : Prop :=
  ∀ (s : State),
    (∀ n uid f r s1 g ws u w i slot, s.agenda = .gang n f :: r → State.serve n { s with agenda := r } = (uid, s1) → s1.gang? uid = some g → g.status = .resident →
      let b := beginTurn uid f s1
      b.g.wait ∈ [Wait.none, Wait.blocked] → fetchPacket b.g.cur.packet b = .words ws u → slot = u.g.cur.slot.toNat → decodeNat w.toNat = .ok i →
      (chained (ws.drop slot) = [w] ∨ ∃ rest, chained (ws.drop slot) = w :: rest ∧ (u.g.handler.isSome, u.g.cur) ∈ u.g.alone) →
      let x : Slotted := ⟨w, wordShapeOf i, slot⟩
      let v := reachJoins 1 [x] u
      dueTrap (issueTrapOf [x] v) v = none → mustWait v.g = false → joinWaits [x] v.g = false →
      let v1 := v.setG fun g => { g with pc := g.cur.advance 1, src := some g.r, srcLog := g.olog }
      step s = match exec i (v1.setG fun g => { g with slot := BitVec.ofNat 2 slot }) with
        | .next t => .next (if held v.g.uid t then t else endGroup x v.g.cur v (if t.g.uid = v.g.uid ∧ t.g.status = .resident then tickWindows v1 t else t))
        | o => o) ∧
    (∀ n uid f r s1 g ws u x y, s.agenda = .gang n f :: r → State.serve n { s with agenda := r } = (uid, s1) → s1.gang? uid = some g → g.status = .resident →
      let b := beginTurn uid f s1
      b.g.wait ∈ [Wait.none, Wait.blocked] → fetchPacket b.g.cur.packet b = .words ws u → (if u.g.alone.contains (u.g.handler.isSome, u.g.cur) then (groupAt ws u.g.cur.slot.toNat).take 1 else groupAt ws u.g.cur.slot.toNat) = x :: y →
      let v := reachJoins (y.length + 1) (x :: y) u
      (∀ t, dueTrap (issueTrapOf (x :: y) v) v = some t → step s = .next t) ∧
      (dueTrap (issueTrapOf (x :: y) v) v = none → (mustWait v.g = true ∨ joinWaits (x :: y) v.g = true) → step s = .next (stall v)) ∧
      (dueTrap (issueTrapOf (x :: y) v) v = none → mustWait v.g = false → joinWaits (x :: y) v.g = false → step s = runGroup x y v)) ∧
    (∀ (x : Slotted) y t, let v := s.setG fun g => { g with pc := g.cur.advance (y.length + 1), src := some g.r, srcLog := g.olog }
      (issueWords s.g.uid (issueOrder (x :: y)) v = (.next t, none) → runGroup x y s = .next (endGroup x s.g.cur s t)) ∧
      ∀ z u, y ≠ [] → issueWords s.g.uid (issueOrder (x :: y)) v = (.next t, some z) → runWord z v = .next u → runGroup x y s = .next (if held s.g.uid u = true then u else
        if isEnder z = true then t.setG fun g => { g with pc := ⟨s.g.cur.packet, BitVec.ofNat 2 z.slot⟩, src := none, alone := (g.handler.isSome, ⟨s.g.cur.packet, BitVec.ofNat 2 z.slot⟩) :: g.alone }
        else stall v)) ∧
    (∀ uid g, s.gang? uid = some g → s.isReady g = false → State.serve uid s = (uid, s)) ∧
    (∀ uid g, s.gang? uid = some g → s.isReady g = true → ∃ n h, State.serve uid s = (n, s.setCore g.coreIx fun K => { K with picker := n }) ∧ h ∈ s.allGangs ∧ h.uid = n ∧ h.coreIx = g.coreIx ∧ s.isReady h = true ∧
      ∀ k ∈ s.allGangs, k.coreIx = g.coreIx → s.isReady k = true → if (s.core g.coreIx).picker < n then k.uid ≤ (s.core g.coreIx).picker ∨ n ≤ k.uid else n ≤ k.uid ∧ k.uid ≤ (s.core g.coreIx).picker) ∧
    (∀ uid (x : Slotted) y t, runWord x s = .next t → held uid t = false → t.g.uid = uid → t.g.status = .resident → issueWords uid (x :: y) s = issueWords uid y (tickWindows s t)) ∧
    (∀ uid f r g, s.agenda = .gang uid f :: r → s.gang? uid = some g → g.status ≠ .resident → step s = .next { s with agenda := r }) ∧
    (∀ i r, s.agenda = .event i :: r → i.isWord = false → step s = exec i { s with agenda := r }) ∧
    (∀ i r, s.agenda = .event i :: r → i.isWord = true → step s = .next { s with agenda := r }) ∧
    (∀ n r, s.agenda = .cycles n :: r → step s = .next { s with agenda := r, clk := s.clk + n }) ∧
    (s.unit.railOn = false → s.agenda = [] → s.host.resetAsked = 0 → step s = .fault .noPower) ∧
    (∀ i n, (i, n) ∈ [(Instr.warmReset, 1), (.coldReset, 2), (.warmReset, 3), (.coldReset, 4), (.powerOnReset, 5)] → s.unit.railOn = false → s.agenda = [] → s.host.resetAsked = n → step s = exec i s) ∧
    (∀ n u fpa e d, s.g.fetched = none → s.g.handler = none → translate true false (s.g.codeBase.toNat + 12 * n.toNat) s = (u, .ok fpa e) → lookup (u.core u.g.coreIx).packets (lineOf fpa) = some d →
      (s.g.codeBase.toNat + 12 * n.toNat) % 128 ≤ 116 → fetchPacket n s = .words [BitVec.ofNat 32 (ofBytes (slice (slice d (fpa % 128) 12) 0 4)), BitVec.ofNat 32 (ofBytes (slice (slice d (fpa % 128) 12) 4 4)),
        BitVec.ofNat 32 (ofBytes (slice (slice d (fpa % 128) 12) 8 4))] (u.setG fun g => { g with fetched := some (n, [BitVec.ofNat 32 (ofBytes (slice (slice d (fpa % 128) 12) 0 4)),
        BitVec.ofNat 32 (ofBytes (slice (slice d (fpa % 128) 12) 4 4)), BitVec.ofNat 32 (ofBytes (slice (slice d (fpa % 128) 12) 8 4))]) }))

/-- Words that the spec writes out decode to the instructions they stand for; patterns that are no instruction have their code of R75
(00_scope.md R1; 03_gang_words.md R71; 03_gang_words.md R75; 03_gang_words.md R76; 04_gang_arith.md R111; 05_gang_flow_memory.md R134;
05_gang_flow_memory.md R143; 06_gang_traps.md R183; 12_coherence_engine.md R274; 15_fabric_engine.md R344; 15_fabric_engine.md R351;
17_sequencer_engine.md R376). -/
def Obligations.DecodeWords : Prop :=
  decodeNat 0x02000000 = .ok (.nop) ∧
    decodeNat 0x02321400 = .ok (.sadd 3 4 5) ∧
    decodeNat 0x04528FF0 = .ok (.saddi 5 5 0xFF0) ∧
    decodeNat 0x0670FFFE = .ok (.sli 7 0xFFFE) ∧
    decodeNat 0x0E4FFFFE = .ok (.bany 1 0xFFFFE) ∧
    decodeNat 0x10800001 = .ok (.split 2 1) ∧
    decodeNat 0x1A502053 = .ok (.vfmaF32 20 4 5) ∧
    decodeNat 0x1E244002 = .ok (.vexp2ApxF32 9 8 2) ∧
    decodeNat 0x22183C28 = .ok (.vcvtNfF32 6 7 4 2) ∧
    decodeNat 0x24082058 = .ok (.vcmpLtF32 2 4 5) ∧
    decodeNat 0x260C1007 = .ok (.vmatchB32 3 2) ∧
    decodeNat 0x2804103C = .ok (.vsel 1 2 3 4) ∧
    decodeNat 0x2A143183 = .ok (.ldB32 5 6 3 3) ∧
    decodeNat 0x2E501400 = .ok (.ldtrB8 20 2 0 0) ∧
    decodeNat 0x3C300400 = .ok (.mfs 3 0x040) ∧
    decodeNat 0x3C710000 = .ok (.mts 7 0) ∧
    decodeNat 0x3C220030 = .ok (.mfsv 2 3) ∧
    decodeNat 0x40432000 = .ok (.cpLd 4 6 8 0 0) ∧
    decodeNat 0x48500092 = .ok (.mdrain 5 1 2) ∧
    decodeNat 0x501431C0 = .ok (.ldAcqB32 5 6 3 4 0) ∧
    decodeNat 0x58921400 = .ok (.swmAlloc 9 4 5 0) ∧
    decodeNat 0x5AA5B010 = .ok (.fred 10 11 12 0 0) ∧
    decodeNat 0x5C638000 = .ok (.fsig 6 7 0 0) ∧
    decodeNat 0x60960000 = .ok (.ndLaunch 9 12 0) ∧
    decodeNat 0x64960000 = .ok (.sqBind 9 12) ∧
    decodeNat 0x70502053 = .ok (.dwx 0 20 4 5 3) ∧
    decodeNat (2 ^ 31 + 0x14204840 % 2 ^ 31) = decodeNat 0x14204840 ∧
    (∀ w, fld w 25 6 ∈ [0x34, 0x35, 0x36, 0x37, 0x3C, 0x3D, 0x3E, 0x3F] → ∃ r, decodeNat w = .error r ∧ r.code = 0x02) ∧
    (∃ r, decodeNat 0 = .error r ∧ r.code = 0x01) ∧ (∃ r, decodeNat 1 = .error r ∧ r.code = 0x02) ∧ (∃ r, decodeNat 0x020003F0 = .error r ∧ r.code = 0x03) ∧ (∃ r, decodeNat 0x02000001 = .error r ∧ r.code = 0x04)

/-- Decoding the encoding of any well-formed instruction word gives that word back, with and without the chain bit (03_gang_words.md R71;
03_gang_words.md R75; 04_gang_arith.md R111; 05_gang_flow_memory.md R143; 05_gang_flow_memory.md R150; 06_gang_traps.md R183;
12_coherence_engine.md R274; 15_fabric_engine.md R344). -/
def Obligations.EncodeDecode : Prop :=
  ∀ i : Instr, i.isWord = true → i.WellFormed → decodeNat (encode i).toNat = .ok i ∧ chainBit (encode i).toNat = false ∧
    decodeNat (encodeWith true i) = .ok i ∧ chainBit (encodeWith true i) = true ∧ encodeWith true i < 2 ^ 32

/-- Every step keeps memory and scratchpads in their canonical form (00_scope.md R1; 01_engines.md R19; 01_engines.md R25). -/
def Obligations.MemoryCanonical : Prop :=
  ∀ s t : State, s.memOk → step s = .next t → t.memOk

/-- After a power-on start nothing is resident, tables are clear, links trained, the cause is 1, and memory is canonical
(19_host_management.md R419; 19_host_management.md R414; 19_host_management.md R426; 01_engines.md R23; 00_scope.md R1; 01_engines.md R19).
The side-band answer, tables and registers that R419 does not give are log entries 21, 22 and 24 and not stated here, but that the firmware
counts as verified (ready set, no side-band-only mode) is log entry 22. -/
def Obligations.AfterReset : Prop :=
  (∀ s : State, s = State.reset →
    s.g.status = .vacant ∧ s.gangs = [] ∧ s.crews = [] ∧ s.ensembles = [] ∧ s.nodes = [] ∧ s.cores = [] ∧ s.tlb = [] ∧ s.packets = [] ∧ s.directory = [] ∧
    (∀ d : Fin 8, (s.die d).lines = [] ∧ (s.die d).grains = [] ∧ (s.die d).pool = 0) ∧
    (∀ k : Fin 18, s.links[k].up = true) ∧
    (∀ t : BitVec 6, (s.tenant t).valid = false ∧ (s.tenant t).priv = false ∧ (s.tenant t).root1 = 0 ∧ (s.tenant t).root2 = 0 ∧ (s.tenant t).handler = 0 ∧ (s.tenant t).refused = false ∧
      (s.tenant t).resetting = false ∧ ∀ q, q < 16 → (queueAt (s.tenant t) q).enabled = false) ∧
    s.host.resetCause = 1 ∧ s.host.ready = true ∧ s.host.evEnabled = false ∧ s.host.sideBandOnly = false ∧ s.unit.railOn = true ∧ s.clk = 0 ∧ s.unit.clockMhz = 3300) ∧
  (State.reset.memOk)
end

