-- ==== Sys2Proof/Laws/Words.lean ====
section
/-! SUPPORT. What the shared operand forms do when a word may issue: one lemma each. -/

namespace Sys2Proof.Machine

/-! ## Registers -/

@[simp] theorem Lanes.getElem_of {α : Type} (f : Fin 32 → α) (L : Fin 32) : (Lanes.of f)[L] = f L := by
  simp [Lanes.of]

@[simp] theorem Regs.sreg_zero (r : Regs) : r.sreg 0 = 0 := rfl
@[simp] theorem Regs.preg_zero (r : Regs) : r.preg 0 = 0xFFFFFFFF := rfl

theorem Regs.setS_sreg (r : Regs) (d k : Nat) (x : Dword) (hd : d < 32) :
    (r.setS d x).sreg k = if k = d ∧ d ≠ 0 then x else r.sreg k := by
  unfold Regs.setS Regs.sreg
  by_cases h0 : d = 0
  · simp [h0]
  · by_cases hk : k = 0
    · subst hk; simp [Ne.symm h0]
    · by_cases h32 : k < 32
      · simp only [h0, if_false, hk, h32, dif_pos, ne_eq, not_false_eq_true, and_true]
        rw [Vector.getElem_setIfInBounds h32]
        by_cases e : d = k
        · simp [e]
        · simp [e, Ne.symm e]
      · have : k ≠ d := by omega
        simp [h0, hk, h32, this]

theorem Regs.setP_preg (r : Regs) (d k : Nat) (x : Word) (hd : d < 8) :
    (r.setP d x).preg k = if k = d ∧ d ≠ 0 then x else r.preg k := by
  unfold Regs.setP Regs.preg
  by_cases h0 : d = 0
  · simp [h0]
  · by_cases hk : k = 0
    · subst hk; simp [Ne.symm h0]
    · by_cases h8 : k < 8
      · simp only [h0, if_false, hk, h8, dif_pos, ne_eq, not_false_eq_true, and_true]
        rw [Vector.getElem_setIfInBounds h8]
        by_cases e : d = k
        · simp [e]
        · simp [e, Ne.symm e]
      · have : k ≠ d := by omega
        simp [h0, hk, h8, this]

theorem Regs.setV_vreg (r : Regs) (d k : Nat) (x : Lanes Word) (hd : d < 128) :
    (r.setV d x).vreg k = if k = d then x else r.vreg k := by
  unfold Regs.setV Regs.vreg
  by_cases h : k < 128
  · simp only [h, dif_pos]
    rw [Vector.getElem_setIfInBounds h]
    by_cases e : d = k
    · simp [e]
    · simp [e, Ne.symm e]
  · have : k ≠ d := by omega
    simp [h, this]

theorem Regs.setS_eq (r : Regs) (d : Nat) (x : Dword) : r.setS d x = { r with s := (r.setS d x).s } := by
  unfold Regs.setS; split <;> rfl

theorem Regs.setP_eq (r : Regs) (d : Nat) (x : Word) : r.setP d x = { r with p := (r.setP d x).p } := by
  unfold Regs.setP; split <;> rfl

theorem State.setR_onlyRegs (s : State) (f : Regs → Regs) : OnlyRegs s (s.setR f) := rfl

/-! ## Issue -/

/-- A word that may issue takes no issue trap. -/
theorem mayIssue_issueCode (i : Instr) (s : State) (h : MayIssue i s = true) (w : Nat) (p : Pc) :
    issueCode s (wordShapeOf i) (isFifoWord i) w p = none := by
  simp only [MayIssue, Bool.and_eq_true, Bool.not_eq_true', Option.isNone_iff_eq_none] at h
  obtain ⟨⟨⟨⟨⟨h1, h2⟩, h3⟩, h4⟩, h5⟩, h6⟩ := h
  have h7 : (s.g.handler.isNone && !roleAllows s.g.role (wordShapeOf i).major) = false := by
    cases hh : s.g.handler <;> simp_all
  simp only [issueCode, illegalCode, h1, h2, h3, h7, h5, h6, codeIf, lowest, Option.map_none]
  rfl

theorem mayIssue_issue (i : Instr) (s : State) (h : MayIssue i s = true) (body : State → State) :
    issue (wordShapeOf i) body s (isFifoWord i) = body s := by
  simp only [issue, mayIssue_issueCode i s h]

/-! ## Words of one scalar or predicate result -/

theorem setS_setsScalar (s : State) (d : Nat) (x : Dword) (hd : d < 32) :
    SetsScalar s (s.setR fun r => r.setS d x) d x 0 := by
  refine ⟨rfl, ?_, fun k hk => ?_, rfl, fun h => ?_⟩
  · have h0 : s.g.r.xstat ||| 0 = s.g.r.xstat := BitVec.or_zero
    simp only [State.setR, h0]
    exact Regs.setS_eq s.g.r d x
  · simp [State.setR, Regs.setS_sreg _ _ _ _ hd, hk]
  · simp [State.setR, Regs.setS_sreg _ _ _ _ hd, h]

theorem setP_setsPred (s : State) (d : Nat) (x : Word) (hd : d < 8) :
    SetsPred s (s.setR fun r => r.setP d x) d x := by
  refine ⟨rfl, ?_, fun k hk => ?_, rfl, fun h => ?_⟩
  · exact Regs.setP_eq s.g.r d x
  · simp [State.setR, Regs.setP_preg _ _ _ _ hd, hk]
  · simp [State.setR, Regs.setP_preg _ _ _ _ hd, h]

/-- A scalar word that may issue writes its register and nothing else. -/
theorem scalarWord_sets (i : Instr) (s : State) (h : MayIssue i s = true) (d : Nat) (hd : d < 32) (f : Regs → Dword)
    (hi : exec i s = .next (scalarWord (wordShapeOf i) d f s)) (hf : isFifoWord i = false) :
    Answers i s fun t => SetsScalar s t d (f s.src) 0 := by
  refine ⟨_, hi, ?_⟩
  have e := mayIssue_issue i s h fun s => s.setR fun r => r.setS d (f s.src)
  rw [hf] at e
  rw [scalarWord, e]
  exact setS_setsScalar s d _ hd

/-- A predicate word that may issue writes its register and nothing else. -/
theorem predWord_sets (i : Instr) (s : State) (h : MayIssue i s = true) (d : Nat) (hd : d < 8) (f : Regs → Word)
    (hi : exec i s = .next (predWord (wordShapeOf i) d f s)) (hf : isFifoWord i = false) :
    Answers i s fun t => SetsPred s t d (f s.src) := by
  refine ⟨_, hi, ?_⟩
  have e := mayIssue_issue i s h fun s => s.setR fun r => r.setP d (f s.src)
  rw [hf] at e
  rw [predWord, e]
  exact setP_setsPred s d _ hd

/-- A division word that may issue writes its register and raises zero-divide where the divisor is zero (04 R112). -/
theorem scalarDiv_sets (i : Instr) (s : State) (h : MayIssue i s = true) (d a b : Nat) (hd : d < 32) (f : Dword → Dword → Dword)
    (hi : exec i s = .next (scalarDiv (wordShapeOf i) d a b f s)) (hf : isFifoWord i = false) :
    Answers i s fun t => SetsScalar s t d (f (s.src.sreg a) (s.src.sreg b)) (flagIf (s.src.sreg b == 0) fZeroDivide) := by
  refine ⟨_, hi, ?_⟩
  have e := mayIssue_issue i s h fun s =>
    (s.setR fun r => r.setS d (f (s.src.sreg a) (s.src.sreg b))).flag (flagIf (s.src.sreg b == 0) fZeroDivide)
  rw [hf] at e
  rw [scalarDiv, e]
  refine ⟨rfl, ?_, fun k hk => ?_, rfl, fun h => ?_⟩
  · simp only [State.setR, State.flag]
    rw [Regs.setS_eq s.g.r d]
  · have := Regs.setS_sreg s.g.r d k (f (s.src.sreg a) (s.src.sreg b)) hd
    simp only [hk, false_and, if_false] at this
    exact this
  · have := Regs.setS_sreg s.g.r d d (f (s.src.sreg a) (s.src.sreg b)) hd
    simp only [h, ne_eq, not_false_eq_true, and_self, if_true] at this
    exact this

/-! ## Lane words -/

/-- Bit f of the flags of the active lanes. -/
theorem laneFlags_bit (m : Word) (x : Lanes (Word × Flags)) (f : Nat) :
    (laneFlags m x).getLsbD f = true ↔ ∃ L, lane m L = true ∧ x[L].2.getLsbD f = true := by
  have go : ∀ (l : List (Fin 32)) (a : Flags),
      (l.foldl (fun a L => if lane m L then a ||| x[L].2 else a) a).getLsbD f = true ↔
        a.getLsbD f = true ∨ ∃ L ∈ l, lane m L = true ∧ x[L].2.getLsbD f = true := by
    intro l
    induction l with
    | nil => simp
    | cons L r ih =>
      intro a
      rw [List.foldl_cons, ih]
      by_cases h : lane m L = true
      · simp only [h, if_true, BitVec.getLsbD_or, Bool.or_eq_true, List.mem_cons, exists_eq_or_imp, true_and]
        tauto
      · simp [h]
  have hall : ∀ L : Fin 32, L ∈ lanes32 := by decide
  rw [laneFlags, go]
  simp [hall]

/-- The lanes of a mask, bit by bit. -/
theorem laneMask_bit (f : Fin 32 → Bool) (L : Fin 32) : (laneMask f).getLsbD L = f L := by
  have go : ∀ (l : List (Fin 32)) (a : Word),
      (l.foldl (fun m L => if f L then m ||| (1#32 <<< L.val) else m) a).getLsbD L =
        (a.getLsbD L || (decide (L ∈ l) && f L)) := by
    intro l
    induction l with
    | nil => simp
    | cons M r ih =>
      intro a
      rw [List.foldl_cons, ih]
      by_cases e : L = M
      · subst e
        by_cases h : f L = true
        · simp [h, L.isLt]
        · simp [h]
      · have hne : L.val ≠ M.val := fun h => e (Fin.ext h)
        by_cases h : f M = true
        · have : (1#32 <<< M.val).getLsbD L.val = false := by
            simp only [BitVec.getLsbD_shiftLeft, L.isLt, decide_true, Bool.true_and]
            by_cases hl : L.val < M.val
            · simp [hl]
            · have : L.val - M.val ≠ 0 := by omega
              simp [hl, BitVec.getLsbD_one, this]
          rw [if_pos h, BitVec.getLsbD_or, this]
          simp [e]
        · simp [h, e]
  have hall : L ∈ lanes32 := (by decide : ∀ L : Fin 32, L ∈ lanes32) L
  rw [laneMask, go]
  simp [hall]

theorem merge_lane (m : Word) (old new : Lanes Word) (L : Fin 32) : (merge m old new)[L] = if lane m L then new[L] else old[L] := by
  rw [merge, Lanes.getElem_of]

theorem mergeP_bit (m old new : Word) (L : Fin 32) :
    (mergeP m old new).getLsbD L = if lane m L then new.getLsbD L else old.getLsbD L := by
  by_cases h : lane m L = true
  · have e : m.getLsbD L.val = true := h
    rw [if_pos h, mergeP, BitVec.getLsbD_or, BitVec.getLsbD_and, BitVec.getLsbD_and, BitVec.getLsbD_not, e]
    simp
  · have e : m.getLsbD L.val = false := by simpa [lane] using h
    rw [if_neg h, mergeP, BitVec.getLsbD_or, BitVec.getLsbD_and, BitVec.getLsbD_and, BitVec.getLsbD_not, e]
    simp [L.isLt]

/-- A lane word that may issue writes the active lanes of its register, raises their flags and opens its window. -/
theorem laneWord_sets (i : Instr) (s : State) (h : MayIssue i s = true) (d : Nat) (hd : d < 128) (f : Regs → Fin 32 → Word × Flags)
    (hi : exec i s = .next (laneWord (wordShapeOf i) d f s)) (hf : isFifoWord i = false) :
    Answers i s fun t => SetsLanes i s t d (f s.src) := by
  refine ⟨_, hi, ?_⟩
  have e := mayIssue_issue i s h fun s =>
    let q := s.src
    let m := q.emask
    let res : Lanes (Word × Flags) := Lanes.of fun L => if lane m L then f q L else (0, 0)
    openWindow (wordShapeOf i) none
      (s.setR fun r => { r.setV d (merge m (r.vreg d) (Lanes.of fun L => res[L].1)) with xstat := r.xstat ||| laneFlags m res })
  rw [hf] at e
  rw [laneWord, e]
  refine ⟨_, rfl, rfl, ?_, fun n L => ?_, fun b => ?_⟩
  · simp [State.setR, Regs.setV]
  · have := Regs.setV_vreg s.g.r d n
    simp only [State.setR]
    show (Regs.vreg { (s.g.r.setV d _) with xstat := _ } n)[L] = _
    have hv : ∀ (r : Regs) (y : Flags), Regs.vreg { r with xstat := y } n = r.vreg n := fun _ _ => rfl
    rw [hv, this _ hd]
    by_cases hn : n = d
    · subst hn
      simp only [if_true, merge_lane, Lanes.getElem_of, true_and]
      by_cases hl : lane s.src.emask L = true <;> simp [hl]
    · simp [hn]
  · simp only [State.setR, BitVec.getLsbD_or, Bool.or_eq_true, laneFlags_bit, Lanes.getElem_of]
    constructor
    · rintro (h | ⟨L, hl, hb⟩)
      · exact .inl h
      · rw [if_pos hl] at hb; exact .inr ⟨L, hl, hb⟩
    · rintro (h | ⟨L, hl, hb⟩)
      · exact .inl h
      · exact .inr ⟨L, hl, by rw [if_pos hl]; exact hb⟩

/-- A word with a predicate result by lane, when it may issue. -/
theorem lanePredWord_sets (i : Instr) (s : State) (h : MayIssue i s = true) (d : Nat) (hd : d < 8) (f : Regs → Fin 32 → Bool)
    (hi : exec i s = .next (lanePredWord (wordShapeOf i) d f s)) (hf : isFifoWord i = false) :
    Answers i s fun t => SetsPredLanes s t d (f s.src) := by
  refine ⟨_, hi, ?_⟩
  have e := mayIssue_issue i s h fun s =>
    let q := s.src
    s.setR fun r => r.setP d (mergeP q.emask (r.preg d) (laneMask (f q)))
  rw [hf] at e
  rw [lanePredWord, e]
  refine ⟨rfl, Regs.setP_eq s.g.r d _, fun k hk => ?_, rfl, fun L h0 => ?_⟩
  · have := Regs.setP_preg s.g.r d k (mergeP s.src.emask (s.g.r.preg d) (laneMask (f s.src))) hd
    simp only [hk, false_and, if_false] at this
    exact this
  · have := Regs.setP_preg s.g.r d d (mergeP s.src.emask (s.g.r.preg d) (laneMask (f s.src))) hd
    simp only [h0, ne_eq, not_false_eq_true, and_self, if_true] at this
    simp only [State.setR, this, mergeP_bit, laneMask_bit]

/-! ## Block words (04 R105) -/

theorem stepSrnd_lane (m : Word) (x : Lanes Half) (L : Fin 32) :
    (stepSrnd m x)[L] = if lane m L then srndFix (srndStep x[L]) else x[L] := by rw [stepSrnd, Lanes.getElem_of]

theorem blockElem_rest (rs : Bool) (op : LaneOp) (q : Regs) (D A B : Nat) (r : Regs) :
    blockElem rs op q D A B r =
      { r with v := (blockElem rs op q D A B r).v, srnd := (blockElem rs op q D A B r).srnd, xstat := (blockElem rs op q D A B r).xstat } := rfl

theorem blockRun_rest (rs : Bool) (op : LaneOp) (q : Regs) (B : Block) (d a b : Nat) : ∀ (ks : List Nat) (r : Regs),
    blockRun rs op q B d a b ks r =
      { r with v := (blockRun rs op q B d a b ks r).v, srnd := (blockRun rs op q B d a b ks r).srnd
               xstat := (blockRun rs op q B d a b ks r).xstat }
  | [], _ => rfl
  | k :: ks, r => by
    have e := blockRun_rest rs op q B d a b ks
      (blockElem rs op q (d + k) (if B.af then a else a + k) (if B.bf then b else b + k) r)
    rw [blockElem_rest] at e
    simpa only [blockRun, ← blockElem_rest] using e

/-- The source in a lane after the elements of a block. -/
theorem blockRun_srnd (rs : Bool) (op : LaneOp) (q : Regs) (B : Block) (d a b : Nat) (L : Fin 32) :
    ∀ (ks : List Nat) (r : Regs) (x : Half) (n : Nat),
      r.srnd[L] = (if rs && lane q.emask L then rndAfter x n else x) →
      (blockRun rs op q B d a b ks r).srnd[L] = if rs && lane q.emask L then rndAfter x (n + ks.length) else x
  | [], _, _, _, h => h
  | k :: ks, r, x, n, h => by
    rw [blockRun, blockRun_srnd rs op q B d a b L ks _ x (n + 1)]
    · simp only [List.length_cons, Nat.add_right_comm n, Nat.add_assoc]
    · cases rs with
      | false => simpa [blockElem] using h
      | true =>
        show (stepSrnd q.emask r.srnd)[L] = _
        rw [stepSrnd_lane, h]
        by_cases hl : lane q.emask L = true <;> simp [hl, rndAfter]

/-- The value of element j at offset k, from captured registers and the source's first state. -/
def elemValue (rs : Bool) (op : LaneOp) (q : Regs) (B : Block) (d a b : Nat) (x : Half) (j k : Nat) (L : Fin 32) : Word × Flags :=
  op q L (q.vreg (if B.af then a else a + k))[L] (q.vreg (if B.bf then b else b + k))[L] (q.vreg (d + k))[L]
    (rndAfter x (if rs then j + 1 else 0))

theorem blockElem_lane (rs : Bool) (op : LaneOp) (q : Regs) (B : Block) (d a b : Nat) (r : Regs) (x : Lanes Half) (n k m : Nat) (L : Fin 32)
    (hk : d + k < 128) (hx : r.srnd[L] = if rs && lane q.emask L then rndAfter x[L] n else x[L]) :
    ((blockElem rs op q (d + k) (if B.af then a else a + k) (if B.bf then b else b + k) r).vreg m)[L] =
      if m = d + k ∧ lane q.emask L = true then (elemValue rs op q B d a b x[L] n k L).1 else (r.vreg m)[L] := by
  have hv : ∀ (r : Regs) (y : Lanes Half) (z : Flags), Regs.vreg { r with srnd := y, xstat := z } m = r.vreg m := fun _ _ _ => rfl
  rw [blockElem, hv, Regs.setV_vreg _ _ _ _ hk]
  by_cases hm : m = d + k
  · rw [if_pos hm, merge_lane]
    by_cases hl : lane q.emask L = true
    · rw [if_pos hl, if_pos (show m = d + k ∧ lane q.emask L = true from ⟨hm, hl⟩), Lanes.getElem_of, Lanes.getElem_of, if_pos hl, elemValue]
      cases rs with
      | false => simp at hx; simp [hx, rndAfter]
      | true =>
        have e : (stepSrnd q.emask r.srnd)[L] = rndAfter x[L] (n + 1) := by
          rw [stepSrnd_lane, hx]; simp [hl, rndAfter]
        simp only [if_true, e]
    · rw [if_neg hl, if_neg (fun h => hl h.2), hm]
  · rw [if_neg hm, if_neg (fun h => hm h.1)]

/-- A register's lane after the elements of a block: the value of the last element that names it. -/
theorem blockRun_lane (rs : Bool) (op : LaneOp) (q : Regs) (B : Block) (d a b : Nat) (x : Lanes Half) (m : Nat) (L : Fin 32) :
    ∀ (ks : List Nat) (r : Regs) (n : Nat), (∀ k ∈ ks, d + k < 128) →
      (r.srnd[L] = if rs && lane q.emask L then rndAfter x[L] n else x[L]) →
      ((blockRun rs op q B d a b ks r).vreg m)[L] =
        match (ks.zipIdx n).reverse.find? fun y => d + y.1 = m with
        | some (k, j) => if lane q.emask L then (elemValue rs op q B d a b x[L] j k L).1 else (r.vreg m)[L]
        | none => (r.vreg m)[L]
  | [], _, _, _, _ => rfl
  | k :: ks, r, n, hk, hx => by
    have hk0 := hk k (List.mem_cons_self ..)
    have hx' : (blockElem rs op q (d + k) (if B.af then a else a + k) (if B.bf then b else b + k) r).srnd[L] =
        if rs && lane q.emask L then rndAfter x[L] (n + 1) else x[L] := by
      have e := blockRun_srnd rs op q B d a b L [k] r x[L] n hx
      exact e
    rw [blockRun, blockRun_lane rs op q B d a b x m L ks _ (n + 1) (fun k h => hk k (List.mem_cons_of_mem _ h)) hx']
    rw [blockElem_lane rs op q B d a b r x n k m L hk0 hx, List.zipIdx_cons, List.reverse_cons, List.find?_append]
    cases hf : ((ks.zipIdx (n + 1)).reverse.find? fun y => d + y.1 = m) with
    | some p =>
      obtain ⟨k', j'⟩ := p
      by_cases hl : lane q.emask L = true <;> simp [hl]
    | none =>
      by_cases hm : d + k = m
      · by_cases hl : lane q.emask L = true <;> simp [hm, hl]
      · simp [hm, Ne.symm hm]

/-- The flags after the elements of a block. -/
theorem blockRun_flags (rs : Bool) (op : LaneOp) (q : Regs) (B : Block) (d a b : Nat) (x : Lanes Half) (f : Nat) :
    ∀ (ks : List Nat) (r : Regs) (n : Nat),
      (∀ L : Fin 32, r.srnd[L] = if rs && lane q.emask L then rndAfter x[L] n else x[L]) →
      ((blockRun rs op q B d a b ks r).xstat.getLsbD f = true ↔ r.xstat.getLsbD f = true ∨
        ∃ y ∈ ks.zipIdx n, ∃ L, lane q.emask L = true ∧ (elemValue rs op q B d a b x[L] y.2 y.1 L).2.getLsbD f = true)
  | [], _, _, _ => by simp [blockRun]
  | k :: ks, r, n, hx => by
    have hx' : ∀ L : Fin 32, (blockElem rs op q (d + k) (if B.af then a else a + k) (if B.bf then b else b + k) r).srnd[L] =
        if rs && lane q.emask L then rndAfter x[L] (n + 1) else x[L] := fun L =>
      blockRun_srnd rs op q B d a b L [k] r x[L] n (hx L)
    rw [blockRun, blockRun_flags rs op q B d a b x f ks _ (n + 1) hx']
    have e : (blockElem rs op q (d + k) (if B.af then a else a + k) (if B.bf then b else b + k) r).xstat.getLsbD f = true ↔
        r.xstat.getLsbD f = true ∨ ∃ L, lane q.emask L = true ∧ (elemValue rs op q B d a b x[L] n k L).2.getLsbD f = true := by
      simp only [blockElem, BitVec.getLsbD_or, Bool.or_eq_true, laneFlags_bit]
      refine or_congr_right (exists_congr fun L => and_congr_right fun hl => ?_)
      rw [Lanes.getElem_of, if_pos hl, elemValue]
      cases rs with
      | false => have := hx L; simp at this; simp [this, rndAfter]
      | true =>
        have h : (stepSrnd q.emask r.srnd)[L] = rndAfter x[L] (n + 1) := by
          rw [stepSrnd_lane, hx L]; simp [hl, rndAfter]
        simp only [if_true, h]
    rw [e, List.zipIdx_cons]
    simp only [List.mem_cons, exists_eq_or_imp]
    exact or_assoc

theorem srndFrom_lane (rs : Bool) (q r : Regs) (L : Fin 32) :
    (srndFrom rs q r).srnd[L] = if rs && lane q.emask L then q.srnd[L] else r.srnd[L] := by
  cases rs with
  | false => rfl
  | true => simp only [srndFrom, if_true, Bool.true_and, Lanes.getElem_of]

theorem srndFrom_rest (rs : Bool) (q r : Regs) : srndFrom rs q r = { r with srnd := (srndFrom rs q r).srnd } := by cases rs <;> rfl

theorem srndFrom_with (rs : Bool) (q r : Regs) (v : Vector (Lanes Word) 128) (y : Lanes Half) (x : BitVec 9) :
    { srndFrom rs q r with v := v, srnd := y, xstat := x } = { r with v := v, srnd := y, xstat := x } := by
  have h := srndFrom_rest rs q r
  generalize srndFrom rs q r = z at h ⊢
  rw [h]

/-- In an active lane an element's value follows from the source that the group found. -/
theorem elemValue_from (rs : Bool) (op : LaneOp) (d a b : Nat) (B : Block) (s : State) (j k : Nat) (L : Fin 32) (hl : lane s.src.emask L = true) :
    elemValue rs op s.src B d a b (srndFrom rs s.src s.g.r).srnd[L] j k L = blockValue rs op d a b B s j k L := by
  rw [elemValue, blockValue, srndFrom_lane]
  cases rs <;> simp [hl, rndAfter]

/-- A block word that may issue: R105 over its block. -/
theorem blockWord_sets (i : Instr) (s : State) (h : MayIssue i s = true) (rs : Bool) (d a b : Nat) (op : LaneOp)
    (hd : ∀ k ∈ (blockFor i s).offsets, d + k < 128)
    (hi : exec i s = .next (blockWord (wordShapeOf i) rs d a b op s)) (hf : isFifoWord i = false) :
    Answers i s fun t => SetsBlock rs op d a b (blockFor i s) s t := by
  refine ⟨_, hi, ?_⟩
  have e := mayIssue_issue i s h fun s => s.setR fun r =>
    blockRun rs op s.src ((wordShapeOf i).blk s) d a b ((wordShapeOf i).blk s).offsets (srndFrom rs s.src r)
  rw [hf] at e
  rw [blockWord, e]
  let r0 := srndFrom rs s.src s.g.r
  have h0 : ∀ L : Fin 32, r0.srnd[L] = if rs && lane s.src.emask L then rndAfter r0.srnd[L] 0 else r0.srnd[L] := by
    intro L; simp [rndAfter]
  have hv : r0 = { s.g.r with srnd := r0.srnd } := srndFrom_rest rs s.src s.g.r
  refine ⟨rfl, ?_, fun n L => ?_, fun f => ?_, fun L => ?_⟩
  · exact (blockRun_rest rs op s.src ((wordShapeOf i).blk s) d a b ((wordShapeOf i).blk s).offsets r0).trans (srndFrom_with rs s.src s.g.r _ _ _)
  · have e := blockRun_lane rs op s.src ((wordShapeOf i).blk s) d a b r0.srnd n L ((wordShapeOf i).blk s).offsets r0 0 hd (h0 L)
    have hr : r0.vreg n = s.g.r.vreg n := by rw [hv]; rfl
    rw [hr] at e
    refine e.trans ?_
    by_cases hl : lane s.src.emask L = true
    · simp only [hl, if_true, elemValue_from rs op d a b _ s _ _ L hl, r0, blockFor] <;> rfl
    · simp only [hl, if_false, Bool.false_eq_true, blockFor] <;> rfl
  · have e := blockRun_flags rs op s.src ((wordShapeOf i).blk s) d a b r0.srnd f ((wordShapeOf i).blk s).offsets r0 0 h0
    have hr : r0.xstat = s.g.r.xstat := by rw [hv]
    rw [hr] at e
    refine e.trans (or_congr_right (exists_congr fun y => and_congr_right fun _ => exists_congr fun L => and_congr_right fun hl => ?_))
    rw [elemValue_from rs op d a b _ s _ _ L hl]; rfl
  · have e := blockRun_srnd rs op s.src ((wordShapeOf i).blk s) d a b L ((wordShapeOf i).blk s).offsets r0 r0.srnd[L] 0 (h0 L)
    rw [Nat.zero_add] at e
    refine e.trans ?_
    simp only [r0, srndFrom_lane, blockFor]
    by_cases hl : (rs && lane s.src.emask L) = true <;> simp [hl]

/-- The registers a word's block writes exist, where the word may issue. -/
theorem mayIssue_dst (i : Instr) (s : State) (h : MayIssue i s = true) (d : Nat) (hd : d ∈ (wordShapeOf i).dst) :
    ∀ k ∈ (blockFor i s).offsets, d + k < 128 := by
  intro k hk
  simp only [MayIssue, Bool.and_eq_true, Bool.not_eq_true'] at h
  have h3 := h.1.1.1.2
  simp only [rangeBad, List.any_eq_false, List.mem_append] at h3
  have := h3 (d + k) (.inl (by
    simp only [Shape.vWrites, List.mem_flatMap]
    exact ⟨d, hd, List.mem_map.2 ⟨k, hk, rfl⟩⟩))
  simp only [Bool.or_eq_true, decide_eq_true_eq, not_or] at this
  omega

end Sys2Proof.Machine
end

