-- ==== Sys2Proof/Laws/Engine.lean ====
section
/-! SUPPORT. What a word does once it may issue, and what an engine command word makes of its engine's answer: one lemma for each answer. -/

namespace Sys2Proof.Machine

/-- A word that may issue has its body's effect. -/
theorem exec_word (i : Instr) (s : State) (h : MayIssue i s = true) (body : State → State)
    (hi : exec i s = .next (issue (wordShapeOf i) body s)) (hf : isFifoWord i = false) : exec i s = .next (body s) := by
  have := mayIssue_issue i s h body
  rw [hf] at this; rw [hi, this]

/-- A branch taken jumps. -/
theorem takeBranch_jumps (s : State) (p : Word) : Jumps s p (takeBranch p s) := by
  unfold Jumps takeBranch endWindows State.setG Gang.setWins Gang.wins
  by_cases hh : s.g.handler.isSome = true <;> simp [hh]

theorem mem_lanes32 (M : Fin 32) : M ∈ lanes32 := by revert M; decide

/-- Elements of a filter's head come before every other that passes. -/
theorem finRange_head_le (p : Fin 32 → Bool) (M : Fin 32) (hM : p M = true) :
    ((lanes32.filter p).headD 0).val ≤ M.val ∧ p ((lanes32.filter p).headD 0) = true := by
  have hs : lanes32.Pairwise (fun a b => a.val < b.val) := by decide
  have hm : M ∈ lanes32.filter p := List.mem_filter.mpr ⟨mem_lanes32 M, hM⟩
  have hs2 := hs.filter p
  cases hl : lanes32.filter p with
  | nil => rw [hl] at hm; exact absurd hm (List.not_mem_nil)
  | cons a r =>
    rw [hl] at hm hs2
    have ha : a ∈ lanes32.filter p := by rw [hl]; exact List.mem_cons_self
    refine ⟨?_, (List.mem_filter.mp ha).2⟩
    rcases List.mem_cons.mp hm with rfl | hr
    · exact Nat.le_refl _
    · exact Nat.le_of_lt ((List.pairwise_cons.mp hs2).1 M hr)

/-- A mask that is not empty has a lane. -/
theorem lane_of_ne_zero (m : Word) (h : m ≠ 0) : ∃ L : Fin 32, lane m L = true := by
  by_contra hc
  apply h
  ext i hi
  have := fun hl => hc ⟨⟨i, hi⟩, hl⟩
  simpa [lane, BitVec.getLsbD_eq_getElem hi] using this

/-- The leader of a mask with a lane is its lowest lane (08 R201). -/
theorem leaderOf_leads (m : Word) (h : m ≠ 0) : Leads m (leaderOf m).val := by
  obtain ⟨L, hL⟩ := lane_of_ne_zero m h
  exact ⟨(leaderOf m).isLt, (finRange_head_le (lane m) L hL).2, fun M hM => (finRange_head_le (lane m) M hM).1⟩

/-! ## The answers of an engine (06 R175; 08 R201) -/

theorem setEntry_entry (g : Gang) (e : Nat) (x : LogEntry) (he : e < 4) : (g.setEntry e x).entry e = x := by
  unfold Gang.entry Gang.setEntry Gang.setLog Gang.log
  by_cases hh : g.handler.isSome = true <;> simp [hh, he]

theorem freeEntry_lt (g : Gang) (e : Nat) (h : g.freeEntry = some e) : e < 4 := by
  unfold Gang.freeEntry at h
  have := List.mem_of_find?_eq_some h
  simpa using this

theorem openWindow_g (sh : Shape) (e : Option Nat) (s : State) :
    openWindow sh e s = { s with g := (openWindow sh e s).g } := by
  unfold openWindow; split <;> rfl

theorem setWins_regs (g : Gang) (l : List Window) : (g.setWins l).r = g.r := by
  unfold Gang.setWins; split <;> rfl

theorem setWins_entry (g : Gang) (l : List Window) (e : Nat) : (g.setWins l).entry e = g.entry e := by
  unfold Gang.setWins Gang.entry Gang.log; by_cases h : g.handler.isSome = true <;> simp [h]

theorem openWindow_r (sh : Shape) (e : Option Nat) (s : State) : (openWindow sh e s).g.r = s.g.r := by
  unfold openWindow; split
  · rfl
  · exact setWins_regs _ _

theorem openWindow_entry (sh : Shape) (o : Option Nat) (s : State) (e : Nat) : (openWindow sh o s).g.entry e = s.g.entry e := by
  unfold openWindow; split
  · rfl
  · exact setWins_entry _ _ _

/-- Without a lane an engine word has no effect. -/
theorem engine_noLane (i : Instr) (s : State) (mk : State → Access) (acc : Access → Nat → State → Accept) (h : MayIssue i s = true)
    (hi : exec i s = .next (issue (wordShapeOf i) (fun s => engineWord (wordShapeOf i) mk acc s) s)) (hf : isFifoWord i = false)
    (hm : (mk s).lanes = 0) : Leaves i s s := by
  have e := exec_word i s h _ hi hf
  rw [Leaves, e, engineWord, hm]; rfl

/-- What an engine word does once its engine takes it: as the acceptance answers. -/
theorem engine_taken (i : Instr) (s : State) (m : Word) (e : Nat) (mk : State → Access) (acc : Access → Nat → State → Accept) (h1 : MayIssue i s = true)
    (h2 : m ≠ 0) (h3 : (s.leaving && (wordShapeOf i).major != 0x30) = false)
    (ho : (s.g.opens && (wordShapeOf i).major != 0x30) = false) (h4 : s.g.freeEntry = some e)
    (hi : exec i s = .next (issue (wordShapeOf i) (fun s => engineWord (wordShapeOf i) mk acc s) s)) (hf : isFifoWord i = false)
    (hm : (mk s).lanes = m) :
    exec i s = .next (match acc (mk s) e s with
      | .done u => openWindow (wordShapeOf i) none u
      | .wait u => block u
      | .pending u => openWindow (wordShapeOf i) (some e) u
      | .bad f u => openWindow (wordShapeOf i) (some e)
          ({ u with nextId := u.nextId + 1 }.setG fun g => g.setEntry e (rejectedEntry (mk s) f u.nextId))) := by
  rw [exec_word i s h1 _ hi hf]
  simp only [engineWord, hm, h2, h3, ho, h4, if_false, Bool.false_eq_true] <;> cases acc (mk s) e s <;> rfl

/-- No command is kept from its engine while no ensemble leaves. -/
theorem offers_stays (i : Instr) (s : State) (m : Word) (e : Nat) (h : Offers i s m e) : (s.leaving && (wordShapeOf i).major != 0x30) = false := by
  rw [h.2.2.1, Bool.false_and]

/-- No command is kept from its engine while every access of its gang has been performed (08 R210). -/
theorem offers_performed (i : Instr) (s : State) (m : Word) (e : Nat) (h : Offers i s m e) : (s.g.opens && (wordShapeOf i).major != 0x30) = false := by
  rw [h.2.2.2.1, Bool.false_and]

/-- An engine that has done its work leaves the state it answers. -/
theorem engine_done (i : Instr) (s u : State) (m : Word) (e : Nat) (mk : State → Access) (acc : Access → Nat → State → Accept) (h : Offers i s m e)
    (hi : exec i s = .next (issue (wordShapeOf i) (fun s => engineWord (wordShapeOf i) mk acc s) s)) (hf : isFifoWord i = false)
    (hm : (mk s).lanes = m) (ha : acc (mk s) e s = .done u) : Leaves i s u := by
  rw [Leaves, engine_taken i s m e mk acc h.1 h.2.1 (offers_stays i s m e h) (offers_performed i s m e h) h.2.2.2.2 hi hf hm, ha]; rfl

/-- An engine that cannot take its command makes the word wait. -/
theorem engine_wait (i : Instr) (s u : State) (m : Word) (e : Nat) (mk : State → Access) (acc : Access → Nat → State → Accept) (h : Offers i s m e)
    (hi : exec i s = .next (issue (wordShapeOf i) (fun s => engineWord (wordShapeOf i) mk acc s) s)) (hf : isFifoWord i = false)
    (hm : (mk s).lanes = m) (ha : acc (mk s) e s = .wait u) : WaitsFrom i s u := by
  rw [WaitsFrom, engine_taken i s m e mk acc h.1 h.2.1 (offers_stays i s m e h) (offers_performed i s m e h) h.2.2.2.2 hi hf hm, ha]; rfl

/-- A command that goes on later stands in its entry. -/
theorem engine_pending (i : Instr) (s u : State) (x : LogEntry) (e : Nat) (mk : State → Access) (acc : Access → Nat → State → Accept) (h : Takes i s e)
    (h3 : (s.leaving && (wordShapeOf i).major != 0x30) = false) (ho : (s.g.opens && (wordShapeOf i).major != 0x30) = false) (h2 : (mk s).lanes ≠ 0)
    (hi : exec i s = .next (issue (wordShapeOf i) (fun s => engineWord (wordShapeOf i) mk acc s) s)) (hf : isFifoWord i = false)
    (ha : acc (mk s) e s = standIn e x u) : Stands i e x u s := by
  rw [Stands, engine_taken i s _ e mk acc h.1 h2 h3 ho h.2 hi hf rfl, ha]; rfl

/-- An engine that rejects its command parks the leader. -/
theorem engine_bad (i : Instr) (s u : State) (m : Word) (e : Nat) (mk : State → Access) (acc : Access → Nat → State → Accept) (f : Nat → FaultRec)
    (h : Offers i s m e)
    (hi : exec i s = .next (issue (wordShapeOf i) (fun s => engineWord (wordShapeOf i) mk acc s) s)) (hf : isFifoWord i = false)
    (hm : (mk s).lanes = m) (ha : acc (mk s) e s = .bad (f (leaderOf m).val) u) : ParksLeader i m e s u f := by
  have hx := engine_taken i s m e mk acc h.1 h.2.1 (offers_stays i s m e h) (offers_performed i s m e h) h.2.2.2.2 hi hf hm
  have h5 := freeEntry_lt _ _ h.2.2.2.2
  simp only [ha] at hx
  refine ⟨_, (leaderOf m).val, ⟨leaderOf m, f (leaderOf m).val⟩, hx, leaderOf_leads m h.2.1, ?_, ?_, ?_, rfl, rfl, ?_, ?_⟩
  · rw [openWindow_entry]; simp only [State.setG, setEntry_entry _ _ _ h5]; rfl
  · rw [openWindow_entry]; simp only [State.setG, setEntry_entry _ _ _ h5]; rfl
  · rw [openWindow_entry]; simp only [State.setG, setEntry_entry _ _ _ h5]; simp only [rejectedEntry, hm]
  · rw [openWindow_r]; simp only [State.setG, Gang.setEntry, Gang.setLog]; split <;> rfl
  · exact openWindow_g _ _ _

end Sys2Proof.Machine
end

