-- ==== Sys2Proof/Laws/Memory.lean ====
section
/-! SUPPORT. The laws of memory: its canonical form is kept, a read finds the last write, other bytes stay. -/

namespace Sys2Proof.Machine

/-! ## The canonical form -/

theorem Memory.wfFrom_mono : ∀ (m : Memory) {lo hi : Nat}, lo ≤ hi → Memory.wfFrom hi m = true → Memory.wfFrom lo m = true
  | [], _, _, _, _ => rfl
  | (k, b) :: r, lo, hi, h, hm => by
    simp only [Memory.wfFrom, Bool.and_eq_true, decide_eq_true_eq] at hm ⊢
    exact ⟨⟨by omega, hm.1.2⟩, hm.2⟩

theorem Memory.set_wfFrom : ∀ (m : Memory) (lo a : Nat) (b : Byte), lo ≤ a → Memory.wfFrom lo m = true →
    Memory.wfFrom lo (m.set a b) = true
  | [], lo, a, b, h, _ => by
    unfold Memory.set
    split
    · rfl
    · simp [Memory.wfFrom, *]
  | (k, c) :: r, lo, a, b, h, hm => by
    have hm0 := hm
    simp only [Memory.wfFrom, Bool.and_eq_true, decide_eq_true_eq] at hm
    unfold Memory.set
    split
    · split
      · exact hm0
      · simp only [Memory.wfFrom, Bool.and_eq_true, decide_eq_true_eq]
        exact ⟨⟨h, by simpa using ‹¬b = Memory.unlisted›⟩, ⟨⟨by omega, hm.1.2⟩, hm.2⟩⟩
    · split
      · split
        · exact Memory.wfFrom_mono r (by omega) hm.2
        · simp only [Memory.wfFrom, Bool.and_eq_true, decide_eq_true_eq]
          exact ⟨⟨h, by simpa using ‹¬b = Memory.unlisted›⟩, by subst_vars; exact hm.2⟩
      · simp only [Memory.wfFrom, Bool.and_eq_true, decide_eq_true_eq]
        exact ⟨hm.1, Memory.set_wfFrom r (k + 1) a b (by omega) hm.2⟩

theorem Memory.set_wf (m : Memory) (a : Nat) (b : Byte) (h : m.wf = true) : (m.set a b).wf = true :=
  Memory.set_wfFrom m 0 a b (Nat.zero_le a) h

/-- A write keeps the canonical form. -/
theorem Memory.write_wf : ∀ (bs : List Byte) (m : Memory) (a : Nat), m.wf = true → (m.write a bs).wf = true
  | [], _, _, h => h
  | b :: r, m, a, h => Memory.write_wf r (m.set a b) (a + 1) (Memory.set_wf m a b h)

/-- Taking entries away keeps the canonical form. -/
theorem Memory.filter_wfFrom (p : Host.Cell → Bool) : ∀ (m : Memory) (lo : Nat), Memory.wfFrom lo m = true →
    Memory.wfFrom lo (List.filter p m) = true
  | [], _, _ => rfl
  | (k, b) :: r, lo, h => by
    simp only [Memory.wfFrom, Bool.and_eq_true, decide_eq_true_eq] at h
    by_cases hp : p (k, b) = true
    · rw [List.filter_cons_of_pos hp]
      simp only [Memory.wfFrom, Bool.and_eq_true, decide_eq_true_eq]
      exact ⟨h.1, Memory.filter_wfFrom p r (k + 1) h.2⟩
    · rw [List.filter_cons_of_neg hp]
      exact Memory.wfFrom_mono _ (by omega) (Memory.filter_wfFrom p r (k + 1) h.2)

theorem Memory.filter_wf (p : Host.Cell → Bool) (m : Memory) (h : m.wf = true) : Memory.wf (List.filter p m) = true :=
  Memory.filter_wfFrom p m 0 h

theorem Memory.empty_wf : Memory.wf [] = true := rfl

/-! ## Reads -/

theorem Memory.get_below : ∀ (m : Memory) (lo a : Nat), a < lo → Memory.wfFrom lo m = true → m.get a = Memory.unlisted
  | [], _, _, _, _ => rfl
  | (k, b) :: r, lo, a, h, hm => by
    simp only [Memory.wfFrom, Bool.and_eq_true, decide_eq_true_eq] at hm
    have h1 : ¬k = a := by omega
    have h2 : a < k := by omega
    simp [Memory.get, h1, h2]

theorem Memory.get_set_from : ∀ (m : Memory) (lo a x : Nat) (b : Byte), Memory.wfFrom lo m = true →
    (m.set a b).get x = if x = a then b else m.get x
  | [], _, a, x, b, _ => by
    unfold Memory.set
    split
    · next h => subst h; simp [Memory.get]
    · by_cases hx : x = a
      · simp [Memory.get, hx]
      · simp [Memory.get, hx, Ne.symm hx]
  | (k, c) :: r, lo, a, x, b, hm => by
    have hm0 := hm
    simp only [Memory.wfFrom, Bool.and_eq_true, decide_eq_true_eq] at hm
    have low := Memory.get_below r (k + 1)
    unfold Memory.set
    by_cases h1 : a < k
    · rw [if_pos h1]
      by_cases hb : b = Memory.unlisted
      · rw [if_pos hb]
        by_cases hx : x = a
        · subst hx hb
          have : ¬k = x := by omega
          simp [Memory.get, this, h1]
        · simp [hx]
      · rw [if_neg hb]
        by_cases hx : x = a
        · subst hx; simp [Memory.get]
        · by_cases hlt : x < a
          · have h2 : ¬k = x := by omega
            have h3 : x < k := by omega
            simp [Memory.get, hx, Ne.symm hx, hlt, h2, h3]
          · simp [Memory.get, hx, Ne.symm hx, hlt]
    · rw [if_neg h1]
      by_cases h2 : a = k
      · subst h2
        rw [if_pos rfl]
        by_cases hb : b = Memory.unlisted
        · rw [if_pos hb]
          by_cases hx : x = a
          · subst hx hb; rw [if_pos rfl]; exact low x (by omega) hm.2
          · by_cases hlt : x < a
            · rw [if_neg hx, low x (by omega) hm.2]
              simp [Memory.get, Ne.symm hx, hlt]
            · simp [Memory.get, hx, Ne.symm hx, hlt]
        · rw [if_neg hb]
          by_cases hx : x = a
          · subst hx; simp [Memory.get]
          · simp [Memory.get, hx, Ne.symm hx]
      · rw [if_neg h2]
        have ih := Memory.get_set_from r (k + 1) a x b hm.2
        by_cases hk : k = x
        · subst hk
          have : ¬k = a := fun e => h2 e.symm
          simp [Memory.get, this]
        · by_cases hlt : x < k
          · have : ¬x = a := by omega
            simp [Memory.get, hk, hlt, this]
          · simp only [Memory.get, hk, if_false, hlt]
            exact ih

/-- A read of a byte just set finds it; every other byte is as before. -/
theorem Memory.get_set (m : Memory) (h : m.wf = true) (a x : Nat) (b : Byte) :
    (m.set a b).get x = if x = a then b else m.get x := Memory.get_set_from m 0 a x b h

/-- A byte after a write: the byte written there, or what stood there. -/
theorem Memory.get_write : ∀ (bs : List Byte) (m : Memory) (a x : Nat), m.wf = true →
    (m.write a bs).get x = if h : a ≤ x ∧ x < a + bs.length then bs[x - a]'(by omega) else m.get x
  | [], m, a, x, _ => by
    simp [Memory.write]
  | b :: r, m, a, x, h => by
    rw [Memory.write, Memory.get_write r _ (a + 1) x (Memory.set_wf m a b h), Memory.get_set m h]
    by_cases hx : x = a
    · subst hx
      simp
    · by_cases hin : a + 1 ≤ x ∧ x < a + 1 + r.length
      · have h2 : a ≤ x ∧ x < a + (b :: r).length := by simp only [List.length_cons]; omega
        rw [dif_pos hin, dif_pos h2]
        have e : x - a = (x - (a + 1)) + 1 := by omega
        simp only [e, List.getElem_cons_succ]
      · have h2 : ¬(a ≤ x ∧ x < a + (b :: r).length) := by simp only [List.length_cons]; omega
        rw [dif_neg hin, dif_neg h2, if_neg hx]

theorem Memory.read_length (m : Memory) (a : Nat) : ∀ n, (m.read a n).length = n
  | 0 => rfl
  | n + 1 => by simp [Memory.read, Memory.read_length m (a + 1) n]

theorem Memory.read_getElem (m : Memory) : ∀ (n a k : Nat) (h : k < (m.read a n).length), (m.read a n)[k] = m.get (a + k)
  | 0, a, k, h => absurd h (by simp [Memory.read])
  | n + 1, a, k, h => by
    cases k with
    | zero => simp [Memory.read]
    | succ k =>
      have := Memory.read_getElem m n (a + 1) k (by simpa [Memory.read] using h)
      simp only [Memory.read, List.getElem_cons_succ, this]
      congr 1; omega

/-- A read of bytes just written finds them. -/
theorem Memory.read_write (m : Memory) (h : m.wf = true) (a : Nat) (bs : List Byte) : (m.write a bs).read a bs.length = bs := by
  apply List.ext_getElem (Memory.read_length ..)
  intro k h1 h2
  rw [Memory.read_getElem, Memory.get_write _ _ _ _ h, dif_pos ⟨by omega, by omega⟩]
  congr 1; omega

/-! ## Numbers as bytes (00 R1) -/

theorem toBytes_length : ∀ n x, (toBytes n x).length = n
  | 0, _ => rfl
  | n + 1, x => by simp [toBytes, toBytes_length n]

theorem ofBytes_toBytes : ∀ n x, ofBytes (toBytes n x) = x % 256 ^ n
  | 0, x => by simp [toBytes, ofBytes, Nat.mod_one]
  | n + 1, x => by
    have e : x % 256 ^ (n + 1) = x % 256 + 256 * (x / 256 % 256 ^ n) := by rw [Nat.pow_succ', Nat.mod_mul]
    rw [e, toBytes, ofBytes, ofBytes_toBytes n]
    rfl

end Sys2Proof.Machine
end

