-- ==== Sys2Proof/Laws/PerInstr.lean ====
section
/-! SUPPORT. Decoding the encoding of a well-formed word, one lemma per constructor (03_gang_words.md R71). -/

-- One proof at a time: the proofs of this file and of those after it, checked side by side, fill the memory.
set_option Elab.async false

namespace Sys2Proof.Laws

/-- A field of a word read as the bit vector that was put there. -/
theorem bv_eq {w lo n : Nat} {x : BitVec n} (h : w / 2 ^ lo % 2 ^ n = x.toNat) : bv w lo n = x :=
  BitVec.eq_of_toNat_eq (by simpa [bv] using h)

/-- Decoding the encoding of a well-formed word gives that word back. -/
def RoundTrip.Statement (i : Instr) : Prop := i.isWord = true → i.WellFormed → decodeNat (encodeNat i) = .ok i

/-- The fields of a pattern m with fields put at 20 (5 bits), 15 (5 bits), 10 (5 bits), where m is clear. -/
theorem fields_20w5_15w5_10w5 {m : Nat} (x : BitVec 5) (y : BitVec 5) (z : BitVec 5) (h : fld m 20 5 = 0 ∧ fld m 15 5 = 0 ∧ fld m 10 5 = 0) :
    fld (put3 m x 20 y 15 z 10) 25 6 = fld m 25 6 ∧
    fld (put3 m x 20 y 15 z 10) 20 5 = x.toNat ∧
    fld (put3 m x 20 y 15 z 10) 15 5 = y.toNat ∧
    fld (put3 m x 20 y 15 z 10) 10 5 = z.toNat ∧
    fld (put3 m x 20 y 15 z 10) 4 6 = fld m 4 6 ∧
    fld (put3 m x 20 y 15 z 10) 0 4 = fld m 0 4 ∧
    bv (put3 m x 20 y 15 z 10) 20 5 = x ∧
    bv (put3 m x 20 y 15 z 10) 15 5 = y ∧
    bv (put3 m x 20 y 15 z 10) 10 5 = z := by
  have hx := x.isLt
  have hy := y.isLt
  have hz := z.isLt
  simp only [fld] at h
  generalize hw : put3 m x 20 y 15 z 10 = wd
  replace hw : m + x.toNat * 2 ^ 20 + y.toNat * 2 ^ 15 + z.toNat * 2 ^ 10 = wd := hw
  simp only [fld]
  refine ⟨by omega, by omega, by omega, by omega, by omega, by omega, bv_eq (by omega), bv_eq (by omega), bv_eq (by omega)⟩

/-- The fields of a pattern m with fields put at 20 (5 bits), 15 (5 bits), where m is clear. -/
theorem fields_20w5_15w5 {m : Nat} (x : BitVec 5) (y : BitVec 5) (h : fld m 20 5 = 0 ∧ fld m 15 5 = 0) :
    fld (put2 m x 20 y 15) 25 6 = fld m 25 6 ∧
    fld (put2 m x 20 y 15) 10 5 = fld m 10 5 ∧
    fld (put2 m x 20 y 15) 7 3 = fld m 7 3 ∧
    fld (put2 m x 20 y 15) 7 8 = fld m 7 8 ∧
    fld (put2 m x 20 y 15) 4 3 = fld m 4 3 ∧
    fld (put2 m x 20 y 15) 4 6 = fld m 4 6 ∧
    fld (put2 m x 20 y 15) 0 4 = fld m 0 4 ∧
    bv (put2 m x 20 y 15) 20 5 = x ∧
    bv (put2 m x 20 y 15) 15 5 = y := by
  have hx := x.isLt
  have hy := y.isLt
  simp only [fld] at h
  generalize hw : put2 m x 20 y 15 = wd
  replace hw : m + x.toNat * 2 ^ 20 + y.toNat * 2 ^ 15 = wd := hw
  simp only [fld]
  refine ⟨by omega, by omega, by omega, by omega, by omega, by omega, by omega, bv_eq (by omega), bv_eq (by omega)⟩

/-- The fields of a pattern m with fields put at 20 (5 bits), 15 (5 bits), 0 (12 bits), where m is clear. -/
theorem fields_20w5_15w5_0w12 {m : Nat} (x : BitVec 5) (y : BitVec 5) (z : BitVec 12) (h : fld m 20 5 = 0 ∧ fld m 15 5 = 0 ∧ fld m 0 12 = 0) :
    fld (put3 m x 20 y 15 z 0) 25 6 = fld m 25 6 ∧
    fld (put3 m x 20 y 15 z 0) 12 3 = fld m 12 3 ∧
    bv (put3 m x 20 y 15 z 0) 20 5 = x ∧
    bv (put3 m x 20 y 15 z 0) 15 5 = y ∧
    bv (put3 m x 20 y 15 z 0) 0 12 = z := by
  have hx := x.isLt
  have hy := y.isLt
  have hz := z.isLt
  simp only [fld] at h
  generalize hw : put3 m x 20 y 15 z 0 = wd
  replace hw : m + x.toNat * 2 ^ 20 + y.toNat * 2 ^ 15 + z.toNat * 2 ^ 0 = wd := hw
  simp only [fld]
  refine ⟨by omega, by omega, bv_eq (by omega), bv_eq (by omega), bv_eq (by omega)⟩

/-- The fields of a pattern m with fields put at 20 (5 bits), 15 (5 bits), 0 (6 bits), where m is clear. -/
theorem fields_20w5_15w5_0w6 {m : Nat} (x : BitVec 5) (y : BitVec 5) (z : BitVec 6) (h : fld m 20 5 = 0 ∧ fld m 15 5 = 0 ∧ fld m 0 6 = 0) :
    fld (put3 m x 20 y 15 z 0) 25 6 = fld m 25 6 ∧
    fld (put3 m x 20 y 15 z 0) 12 3 = fld m 12 3 ∧
    fld (put3 m x 20 y 15 z 0) 6 6 = fld m 6 6 ∧
    bv (put3 m x 20 y 15 z 0) 20 5 = x ∧
    bv (put3 m x 20 y 15 z 0) 15 5 = y ∧
    bv (put3 m x 20 y 15 z 0) 0 6 = z := by
  have hx := x.isLt
  have hy := y.isLt
  have hz := z.isLt
  simp only [fld] at h
  generalize hw : put3 m x 20 y 15 z 0 = wd
  replace hw : m + x.toNat * 2 ^ 20 + y.toNat * 2 ^ 15 + z.toNat * 2 ^ 0 = wd := hw
  simp only [fld]
  refine ⟨by omega, by omega, by omega, bv_eq (by omega), bv_eq (by omega), bv_eq (by omega)⟩

/-- The fields of a pattern m with fields put at 20 (5 bits), 0 (16 bits), where m is clear. -/
theorem fields_20w5_0w16 {m : Nat} (x : BitVec 5) (y : BitVec 16) (h : fld m 20 5 = 0 ∧ fld m 0 16 = 0) :
    fld (put2 m x 20 y 0) 25 6 = fld m 25 6 ∧
    fld (put2 m x 20 y 0) 16 4 = fld m 16 4 ∧
    bv (put2 m x 20 y 0) 20 5 = x ∧
    bv (put2 m x 20 y 0) 0 16 = y := by
  have hx := x.isLt
  have hy := y.isLt
  simp only [fld] at h
  generalize hw : put2 m x 20 y 0 = wd
  replace hw : m + x.toNat * 2 ^ 20 + y.toNat * 2 ^ 0 = wd := hw
  simp only [fld]
  refine ⟨by omega, by omega, bv_eq (by omega), bv_eq (by omega)⟩

/-- The fields of a pattern m with fields put at 20 (3 bits), 15 (3 bits), 10 (3 bits), where m is clear. -/
theorem fields_20w3_15w3_10w3 {m : Nat} (x : BitVec 3) (y : BitVec 3) (z : BitVec 3) (h : fld m 20 3 = 0 ∧ fld m 15 3 = 0 ∧ fld m 10 3 = 0) :
    fld (put3 m x 20 y 15 z 10) 25 6 = fld m 25 6 ∧
    fld (put3 m x 20 y 15 z 10) 23 2 = fld m 23 2 ∧
    fld (put3 m x 20 y 15 z 10) 18 2 = fld m 18 2 ∧
    fld (put3 m x 20 y 15 z 10) 13 2 = fld m 13 2 ∧
    fld (put3 m x 20 y 15 z 10) 4 6 = fld m 4 6 ∧
    fld (put3 m x 20 y 15 z 10) 0 4 = fld m 0 4 ∧
    bv (put3 m x 20 y 15 z 10) 20 3 = x ∧
    bv (put3 m x 20 y 15 z 10) 15 3 = y ∧
    bv (put3 m x 20 y 15 z 10) 10 3 = z := by
  have hx := x.isLt
  have hy := y.isLt
  have hz := z.isLt
  simp only [fld] at h
  generalize hw : put3 m x 20 y 15 z 10 = wd
  replace hw : m + x.toNat * 2 ^ 20 + y.toNat * 2 ^ 15 + z.toNat * 2 ^ 10 = wd := hw
  simp only [fld]
  refine ⟨by omega, by omega, by omega, by omega, by omega, by omega, bv_eq (by omega), bv_eq (by omega), bv_eq (by omega)⟩

/-- The fields of a pattern m with fields put at 20 (5 bits), 15 (5 bits), 10 (5 bits), 0 (4 bits), where m is clear. -/
theorem fields_20w5_15w5_10w5_0w4 {m : Nat} (x : BitVec 5) (y : BitVec 5) (z : BitVec 5) (u : BitVec 4) (h : fld m 20 5 = 0 ∧ fld m 15 5 = 0 ∧ fld m 10 5 = 0 ∧ fld m 0 4 = 0) :
    fld (put4 m x 20 y 15 z 10 u 0) 25 6 = fld m 25 6 ∧
    fld (put4 m x 20 y 15 z 10 u 0) 7 3 = fld m 7 3 ∧
    fld (put4 m x 20 y 15 z 10 u 0) 4 3 = fld m 4 3 ∧
    bv (put4 m x 20 y 15 z 10 u 0) 20 5 = x ∧
    bv (put4 m x 20 y 15 z 10 u 0) 15 5 = y ∧
    bv (put4 m x 20 y 15 z 10 u 0) 10 5 = z ∧
    bv (put4 m x 20 y 15 z 10 u 0) 0 4 = u := by
  have hx := x.isLt
  have hy := y.isLt
  have hz := z.isLt
  have hu := u.isLt
  simp only [fld] at h
  generalize hw : put4 m x 20 y 15 z 10 u 0 = wd
  replace hw : m + x.toNat * 2 ^ 20 + y.toNat * 2 ^ 15 + z.toNat * 2 ^ 10 + u.toNat * 2 ^ 0 = wd := hw
  simp only [fld]
  refine ⟨by omega, by omega, by omega, bv_eq (by omega), bv_eq (by omega), bv_eq (by omega), bv_eq (by omega)⟩

/-- The fields of a pattern m with fields put at 0 (20 bits), where m is clear. -/
theorem fields_0w20 {m : Nat} (x : BitVec 20) (h : fld m 0 20 = 0) :
    fld (put1 m x 0) 25 6 = fld m 25 6 ∧
    fld (put1 m x 0) 22 3 = fld m 22 3 ∧
    fld (put1 m x 0) 20 2 = fld m 20 2 ∧
    bv (put1 m x 0) 0 20 = x := by
  have hx := x.isLt
  simp only [fld] at h
  generalize hw : put1 m x 0 = wd
  replace hw : m + x.toNat * 2 ^ 0 = wd := hw
  simp only [fld]
  refine ⟨by omega, by omega, by omega, bv_eq (by omega)⟩

/-- The fields of a pattern m with fields put at 22 (3 bits), 0 (20 bits), where m is clear. -/
theorem fields_22w3_0w20 {m : Nat} (x : BitVec 3) (y : BitVec 20) (h : fld m 22 3 = 0 ∧ fld m 0 20 = 0) :
    fld (put2 m x 22 y 0) 25 6 = fld m 25 6 ∧
    fld (put2 m x 22 y 0) 20 2 = fld m 20 2 ∧
    bv (put2 m x 22 y 0) 22 3 = x ∧
    bv (put2 m x 22 y 0) 0 20 = y := by
  have hx := x.isLt
  have hy := y.isLt
  simp only [fld] at h
  generalize hw : put2 m x 22 y 0 = wd
  replace hw : m + x.toNat * 2 ^ 22 + y.toNat * 2 ^ 0 = wd := hw
  simp only [fld]
  refine ⟨by omega, by omega, bv_eq (by omega), bv_eq (by omega)⟩

/-- The fields of a pattern m with fields put at 0 (5 bits), where m is clear. -/
theorem fields_0w5 {m : Nat} (x : BitVec 5) (h : fld m 0 5 = 0) :
    fld (put1 m x 0) 25 6 = fld m 25 6 ∧
    fld (put1 m x 0) 22 3 = fld m 22 3 ∧
    fld (put1 m x 0) 20 2 = fld m 20 2 ∧
    fld (put1 m x 0) 16 4 = fld m 16 4 ∧
    fld (put1 m x 0) 5 11 = fld m 5 11 ∧
    bv (put1 m x 0) 0 5 = x := by
  have hx := x.isLt
  simp only [fld] at h
  generalize hw : put1 m x 0 = wd
  replace hw : m + x.toNat * 2 ^ 0 = wd := hw
  simp only [fld]
  refine ⟨by omega, by omega, by omega, by omega, by omega, bv_eq (by omega)⟩

/-- The fields of a pattern m with fields put at 18 (7 bits), 11 (7 bits), 4 (7 bits), where m is clear. -/
theorem fields_18w7_11w7_4w7 {m : Nat} (x : BitVec 7) (y : BitVec 7) (z : BitVec 7) (h : fld m 18 7 = 0 ∧ fld m 11 7 = 0 ∧ fld m 4 7 = 0) :
    fld (put3 m x 18 y 11 z 4) 25 6 = fld m 25 6 ∧
    fld (put3 m x 18 y 11 z 4) 0 4 = fld m 0 4 ∧
    bv (put3 m x 18 y 11 z 4) 18 7 = x ∧
    bv (put3 m x 18 y 11 z 4) 11 7 = y ∧
    bv (put3 m x 18 y 11 z 4) 4 7 = z := by
  have hx := x.isLt
  have hy := y.isLt
  have hz := z.isLt
  simp only [fld] at h
  generalize hw : put3 m x 18 y 11 z 4 = wd
  replace hw : m + x.toNat * 2 ^ 18 + y.toNat * 2 ^ 11 + z.toNat * 2 ^ 4 = wd := hw
  simp only [fld]
  refine ⟨by omega, by omega, bv_eq (by omega), bv_eq (by omega), bv_eq (by omega)⟩

/-- The fields of a pattern m with fields put at 18 (7 bits), 11 (7 bits), where m is clear. -/
theorem fields_18w7_11w7 {m : Nat} (x : BitVec 7) (y : BitVec 7) (h : fld m 18 7 = 0 ∧ fld m 11 7 = 0) :
    fld (put2 m x 18 y 11) 25 6 = fld m 25 6 ∧
    fld (put2 m x 18 y 11) 4 7 = fld m 4 7 ∧
    fld (put2 m x 18 y 11) 0 4 = fld m 0 4 ∧
    bv (put2 m x 18 y 11) 18 7 = x ∧
    bv (put2 m x 18 y 11) 11 7 = y := by
  have hx := x.isLt
  have hy := y.isLt
  simp only [fld] at h
  generalize hw : put2 m x 18 y 11 = wd
  replace hw : m + x.toNat * 2 ^ 18 + y.toNat * 2 ^ 11 = wd := hw
  simp only [fld]
  refine ⟨by omega, by omega, by omega, bv_eq (by omega), bv_eq (by omega)⟩

/-- The fields of a pattern m with fields put at 18 (7 bits), 11 (7 bits), 0 (4 bits), where m is clear. -/
theorem fields_18w7_11w7_0w4 {m : Nat} (x : BitVec 7) (y : BitVec 7) (z : BitVec 4) (h : fld m 18 7 = 0 ∧ fld m 11 7 = 0 ∧ fld m 0 4 = 0) :
    fld (put3 m x 18 y 11 z 0) 25 6 = fld m 25 6 ∧
    fld (put3 m x 18 y 11 z 0) 18 7 = x.toNat ∧
    fld (put3 m x 18 y 11 z 0) 8 3 = fld m 8 3 ∧
    fld (put3 m x 18 y 11 z 0) 7 1 = fld m 7 1 ∧
    fld (put3 m x 18 y 11 z 0) 7 4 = fld m 7 4 ∧
    fld (put3 m x 18 y 11 z 0) 4 3 = fld m 4 3 ∧
    fld (put3 m x 18 y 11 z 0) 4 4 = fld m 4 4 ∧
    bv (put3 m x 18 y 11 z 0) 18 7 = x ∧
    bv (put3 m x 18 y 11 z 0) 11 7 = y ∧
    bv (put3 m x 18 y 11 z 0) 0 4 = z := by
  have hx := x.isLt
  have hy := y.isLt
  have hz := z.isLt
  simp only [fld] at h
  generalize hw : put3 m x 18 y 11 z 0 = wd
  replace hw : m + x.toNat * 2 ^ 18 + y.toNat * 2 ^ 11 + z.toNat * 2 ^ 0 = wd := hw
  simp only [fld]
  refine ⟨by omega, by omega, by omega, by omega, by omega, by omega, by omega, bv_eq (by omega), bv_eq (by omega), bv_eq (by omega)⟩

/-- The fields of a pattern m with fields put at 18 (7 bits), 11 (7 bits), 8 (3 bits), where m is clear. -/
theorem fields_18w7_11w7_8w3 {m : Nat} (x : BitVec 7) (y : BitVec 7) (z : BitVec 3) (h : fld m 18 7 = 0 ∧ fld m 11 7 = 0 ∧ fld m 8 3 = 0) :
    fld (put3 m x 18 y 11 z 8) 25 6 = fld m 25 6 ∧
    fld (put3 m x 18 y 11 z 8) 8 3 = z.toNat ∧
    fld (put3 m x 18 y 11 z 8) 4 4 = fld m 4 4 ∧
    fld (put3 m x 18 y 11 z 8) 0 4 = fld m 0 4 ∧
    bv (put3 m x 18 y 11 z 8) 18 7 = x ∧
    bv (put3 m x 18 y 11 z 8) 11 7 = y ∧
    bv (put3 m x 18 y 11 z 8) 8 3 = z := by
  have hx := x.isLt
  have hy := y.isLt
  have hz := z.isLt
  simp only [fld] at h
  generalize hw : put3 m x 18 y 11 z 8 = wd
  replace hw : m + x.toNat * 2 ^ 18 + y.toNat * 2 ^ 11 + z.toNat * 2 ^ 8 = wd := hw
  simp only [fld]
  refine ⟨by omega, by omega, by omega, by omega, bv_eq (by omega), bv_eq (by omega), bv_eq (by omega)⟩

/-- The fields of a pattern m with fields put at 18 (3 bits), 11 (7 bits), 4 (7 bits), where m is clear. -/
theorem fields_18w3_11w7_4w7 {m : Nat} (x : BitVec 3) (y : BitVec 7) (z : BitVec 7) (h : fld m 18 3 = 0 ∧ fld m 11 7 = 0 ∧ fld m 4 7 = 0) :
    fld (put3 m x 18 y 11 z 4) 25 6 = fld m 25 6 ∧
    fld (put3 m x 18 y 11 z 4) 21 4 = fld m 21 4 ∧
    fld (put3 m x 18 y 11 z 4) 0 4 = fld m 0 4 ∧
    bv (put3 m x 18 y 11 z 4) 18 3 = x ∧
    bv (put3 m x 18 y 11 z 4) 11 7 = y ∧
    bv (put3 m x 18 y 11 z 4) 4 7 = z := by
  have hx := x.isLt
  have hy := y.isLt
  have hz := z.isLt
  simp only [fld] at h
  generalize hw : put3 m x 18 y 11 z 4 = wd
  replace hw : m + x.toNat * 2 ^ 18 + y.toNat * 2 ^ 11 + z.toNat * 2 ^ 4 = wd := hw
  simp only [fld]
  refine ⟨by omega, by omega, by omega, bv_eq (by omega), bv_eq (by omega), bv_eq (by omega)⟩

/-- The fields of a pattern m with fields put at 18 (7 bits), 11 (7 bits), 4 (5 bits), where m is clear. -/
theorem fields_18w7_11w7_4w5 {m : Nat} (x : BitVec 7) (y : BitVec 7) (z : BitVec 5) (h : fld m 18 7 = 0 ∧ fld m 11 7 = 0 ∧ fld m 4 5 = 0) :
    fld (put3 m x 18 y 11 z 4) 25 6 = fld m 25 6 ∧
    fld (put3 m x 18 y 11 z 4) 9 2 = fld m 9 2 ∧
    fld (put3 m x 18 y 11 z 4) 0 4 = fld m 0 4 ∧
    bv (put3 m x 18 y 11 z 4) 18 7 = x ∧
    bv (put3 m x 18 y 11 z 4) 11 7 = y ∧
    bv (put3 m x 18 y 11 z 4) 4 5 = z := by
  have hx := x.isLt
  have hy := y.isLt
  have hz := z.isLt
  simp only [fld] at h
  generalize hw : put3 m x 18 y 11 z 4 = wd
  replace hw : m + x.toNat * 2 ^ 18 + y.toNat * 2 ^ 11 + z.toNat * 2 ^ 4 = wd := hw
  simp only [fld]
  refine ⟨by omega, by omega, by omega, bv_eq (by omega), bv_eq (by omega), bv_eq (by omega)⟩

/-- The fields of a pattern m with fields put at 18 (7 bits), 11 (7 bits), 7 (4 bits), 4 (3 bits), 0 (4 bits), where m is clear. -/
theorem fields_18w7_11w7_7w4_4w3_0w4 {m : Nat} (x : BitVec 7) (y : BitVec 7) (z : BitVec 4) (u : BitVec 3) (v : BitVec 4) (h : fld m 18 7 = 0 ∧ fld m 11 7 = 0 ∧ fld m 7 4 = 0 ∧ fld m 4 3 = 0 ∧ fld m 0 4 = 0) :
    fld (put5 m x 18 y 11 z 7 u 4 v 0) 25 6 = fld m 25 6 ∧
    fld (put5 m x 18 y 11 z 7 u 4 v 0) 4 3 = u.toNat ∧
    bv (put5 m x 18 y 11 z 7 u 4 v 0) 18 7 = x ∧
    bv (put5 m x 18 y 11 z 7 u 4 v 0) 11 7 = y ∧
    bv (put5 m x 18 y 11 z 7 u 4 v 0) 7 4 = z ∧
    bv (put5 m x 18 y 11 z 7 u 4 v 0) 4 3 = u ∧
    bv (put5 m x 18 y 11 z 7 u 4 v 0) 0 4 = v := by
  have hx := x.isLt
  have hy := y.isLt
  have hz := z.isLt
  have hu := u.isLt
  have hv := v.isLt
  simp only [fld] at h
  generalize hw : put5 m x 18 y 11 z 7 u 4 v 0 = wd
  replace hw : m + x.toNat * 2 ^ 18 + y.toNat * 2 ^ 11 + z.toNat * 2 ^ 7 + u.toNat * 2 ^ 4 + v.toNat * 2 ^ 0 = wd := hw
  replace h : m % 2 ^ 25 = 0 := by omega
  have h4 : wd / 2 ^ 4 % 2 ^ 3 = u.toNat := by omega
  simp only [fld]
  refine ⟨by omega, h4, bv_eq (by omega), bv_eq (by omega), bv_eq (by omega), bv_eq h4, bv_eq (by omega)⟩

/-- The fields of a pattern m with fields put at 18 (7 bits), 11 (7 bits), 4 (3 bits), 0 (4 bits), where m is clear. -/
theorem fields_18w7_11w7_4w3_0w4 {m : Nat} (x : BitVec 7) (y : BitVec 7) (z : BitVec 3) (u : BitVec 4) (h : fld m 18 7 = 0 ∧ fld m 11 7 = 0 ∧ fld m 4 3 = 0 ∧ fld m 0 4 = 0) :
    fld (put4 m x 18 y 11 z 4 u 0) 25 6 = fld m 25 6 ∧
    fld (put4 m x 18 y 11 z 4 u 0) 18 7 = x.toNat ∧
    fld (put4 m x 18 y 11 z 4 u 0) 8 3 = fld m 8 3 ∧
    fld (put4 m x 18 y 11 z 4 u 0) 7 1 = fld m 7 1 ∧
    fld (put4 m x 18 y 11 z 4 u 0) 4 3 = z.toNat ∧
    bv (put4 m x 18 y 11 z 4 u 0) 18 7 = x ∧
    bv (put4 m x 18 y 11 z 4 u 0) 11 7 = y ∧
    bv (put4 m x 18 y 11 z 4 u 0) 4 3 = z ∧
    bv (put4 m x 18 y 11 z 4 u 0) 0 4 = u := by
  have hx := x.isLt
  have hy := y.isLt
  have hz := z.isLt
  have hu := u.isLt
  simp only [fld] at h
  generalize hw : put4 m x 18 y 11 z 4 u 0 = wd
  replace hw : m + x.toNat * 2 ^ 18 + y.toNat * 2 ^ 11 + z.toNat * 2 ^ 4 + u.toNat * 2 ^ 0 = wd := hw
  simp only [fld]
  refine ⟨by omega, by omega, by omega, by omega, by omega, bv_eq (by omega), bv_eq (by omega), bv_eq (by omega), bv_eq (by omega)⟩

/-- The fields of a pattern m with fields put at 18 (7 bits), 11 (3 bits), 7 (4 bits), 4 (2 bits), 0 (4 bits), where m is clear. -/
theorem fields_18w7_11w3_7w4_4w2_0w4 {m : Nat} (x : BitVec 7) (y : BitVec 3) (z : BitVec 4) (u : BitVec 2) (v : BitVec 4) (h : fld m 18 7 = 0 ∧ fld m 11 3 = 0 ∧ fld m 7 4 = 0 ∧ fld m 4 2 = 0 ∧ fld m 0 4 = 0) :
    fld (put5 m x 18 y 11 z 7 u 4 v 0) 25 6 = fld m 25 6 ∧
    fld (put5 m x 18 y 11 z 7 u 4 v 0) 18 7 = x.toNat ∧
    fld (put5 m x 18 y 11 z 7 u 4 v 0) 14 4 = fld m 14 4 ∧
    fld (put5 m x 18 y 11 z 7 u 4 v 0) 11 3 = y.toNat ∧
    fld (put5 m x 18 y 11 z 7 u 4 v 0) 6 1 = fld m 6 1 ∧
    fld (put5 m x 18 y 11 z 7 u 4 v 0) 4 2 = u.toNat ∧
    bv (put5 m x 18 y 11 z 7 u 4 v 0) 18 7 = x ∧
    bv (put5 m x 18 y 11 z 7 u 4 v 0) 11 3 = y ∧
    bv (put5 m x 18 y 11 z 7 u 4 v 0) 7 4 = z ∧
    bv (put5 m x 18 y 11 z 7 u 4 v 0) 4 2 = u ∧
    bv (put5 m x 18 y 11 z 7 u 4 v 0) 0 4 = v := by
  have hx := x.isLt
  have hy := y.isLt
  have hz := z.isLt
  have hu := u.isLt
  have hv := v.isLt
  simp only [fld] at h
  generalize hw : put5 m x 18 y 11 z 7 u 4 v 0 = wd
  replace hw : m + x.toNat * 2 ^ 18 + y.toNat * 2 ^ 11 + z.toNat * 2 ^ 7 + u.toNat * 2 ^ 4 + v.toNat * 2 ^ 0 = wd := hw
  simp only [fld]
  refine ⟨by omega, by omega, by omega, by omega, by omega, by omega, bv_eq (by omega), bv_eq (by omega), bv_eq (by omega), bv_eq (by omega), bv_eq (by omega)⟩

/-- The fields of a pattern m with fields put at 18 (7 bits), 11 (3 bits), 7 (4 bits), 0 (4 bits), where m is clear. -/
theorem fields_18w7_11w3_7w4_0w4 {m : Nat} (x : BitVec 7) (y : BitVec 3) (z : BitVec 4) (u : BitVec 4) (h : fld m 18 7 = 0 ∧ fld m 11 3 = 0 ∧ fld m 7 4 = 0 ∧ fld m 0 4 = 0) :
    fld (put4 m x 18 y 11 z 7 u 0) 25 6 = fld m 25 6 ∧
    fld (put4 m x 18 y 11 z 7 u 0) 18 7 = x.toNat ∧
    fld (put4 m x 18 y 11 z 7 u 0) 14 4 = fld m 14 4 ∧
    fld (put4 m x 18 y 11 z 7 u 0) 11 3 = y.toNat ∧
    fld (put4 m x 18 y 11 z 7 u 0) 6 1 = fld m 6 1 ∧
    fld (put4 m x 18 y 11 z 7 u 0) 4 2 = fld m 4 2 ∧
    bv (put4 m x 18 y 11 z 7 u 0) 18 7 = x ∧
    bv (put4 m x 18 y 11 z 7 u 0) 11 3 = y ∧
    bv (put4 m x 18 y 11 z 7 u 0) 7 4 = z ∧
    bv (put4 m x 18 y 11 z 7 u 0) 0 4 = u := by
  have hx := x.isLt
  have hy := y.isLt
  have hz := z.isLt
  have hu := u.isLt
  simp only [fld] at h
  generalize hw : put4 m x 18 y 11 z 7 u 0 = wd
  replace hw : m + x.toNat * 2 ^ 18 + y.toNat * 2 ^ 11 + z.toNat * 2 ^ 7 + u.toNat * 2 ^ 0 = wd := hw
  simp only [fld]
  refine ⟨by omega, by omega, by omega, by omega, by omega, by omega, bv_eq (by omega), bv_eq (by omega), bv_eq (by omega), bv_eq (by omega)⟩

/-- The fields of a pattern m with fields put at 18 (7 bits), 7 (4 bits), 4 (2 bits), 0 (4 bits), where m is clear. -/
theorem fields_18w7_7w4_4w2_0w4 {m : Nat} (x : BitVec 7) (y : BitVec 4) (z : BitVec 2) (u : BitVec 4) (h : fld m 18 7 = 0 ∧ fld m 7 4 = 0 ∧ fld m 4 2 = 0 ∧ fld m 0 4 = 0) :
    fld (put4 m x 18 y 7 z 4 u 0) 25 6 = fld m 25 6 ∧
    fld (put4 m x 18 y 7 z 4 u 0) 18 7 = x.toNat ∧
    fld (put4 m x 18 y 7 z 4 u 0) 14 4 = fld m 14 4 ∧
    fld (put4 m x 18 y 7 z 4 u 0) 11 3 = fld m 11 3 ∧
    fld (put4 m x 18 y 7 z 4 u 0) 6 1 = fld m 6 1 ∧
    fld (put4 m x 18 y 7 z 4 u 0) 4 2 = z.toNat ∧
    bv (put4 m x 18 y 7 z 4 u 0) 18 7 = x ∧
    bv (put4 m x 18 y 7 z 4 u 0) 7 4 = y ∧
    bv (put4 m x 18 y 7 z 4 u 0) 4 2 = z ∧
    bv (put4 m x 18 y 7 z 4 u 0) 0 4 = u := by
  have hx := x.isLt
  have hy := y.isLt
  have hz := z.isLt
  have hu := u.isLt
  simp only [fld] at h
  generalize hw : put4 m x 18 y 7 z 4 u 0 = wd
  replace hw : m + x.toNat * 2 ^ 18 + y.toNat * 2 ^ 7 + z.toNat * 2 ^ 4 + u.toNat * 2 ^ 0 = wd := hw
  simp only [fld]
  refine ⟨by omega, by omega, by omega, by omega, by omega, by omega, bv_eq (by omega), bv_eq (by omega), bv_eq (by omega), bv_eq (by omega)⟩

/-- The fields of a pattern m with fields put at 18 (7 bits), 7 (4 bits), 0 (4 bits), where m is clear. -/
theorem fields_18w7_7w4_0w4 {m : Nat} (x : BitVec 7) (y : BitVec 4) (z : BitVec 4) (h : fld m 18 7 = 0 ∧ fld m 7 4 = 0 ∧ fld m 0 4 = 0) :
    fld (put3 m x 18 y 7 z 0) 25 6 = fld m 25 6 ∧
    fld (put3 m x 18 y 7 z 0) 18 7 = x.toNat ∧
    fld (put3 m x 18 y 7 z 0) 14 4 = fld m 14 4 ∧
    fld (put3 m x 18 y 7 z 0) 11 3 = fld m 11 3 ∧
    fld (put3 m x 18 y 7 z 0) 6 1 = fld m 6 1 ∧
    fld (put3 m x 18 y 7 z 0) 4 2 = fld m 4 2 ∧
    bv (put3 m x 18 y 7 z 0) 18 7 = x ∧
    bv (put3 m x 18 y 7 z 0) 7 4 = y ∧
    bv (put3 m x 18 y 7 z 0) 0 4 = z := by
  have hx := x.isLt
  have hy := y.isLt
  have hz := z.isLt
  simp only [fld] at h
  generalize hw : put3 m x 18 y 7 z 0 = wd
  replace hw : m + x.toNat * 2 ^ 18 + y.toNat * 2 ^ 7 + z.toNat * 2 ^ 0 = wd := hw
  simp only [fld]
  refine ⟨by omega, by omega, by omega, by omega, by omega, by omega, bv_eq (by omega), bv_eq (by omega), bv_eq (by omega)⟩

/-- The fields of a pattern m with fields put at 20 (5 bits), 15 (5 bits), 0 (4 bits), where m is clear. -/
theorem fields_20w5_15w5_0w4 {m : Nat} (x : BitVec 5) (y : BitVec 5) (z : BitVec 4) (h : fld m 20 5 = 0 ∧ fld m 15 5 = 0 ∧ fld m 0 4 = 0) :
    fld (put3 m x 20 y 15 z 0) 25 6 = fld m 25 6 ∧
    fld (put3 m x 20 y 15 z 0) 10 5 = fld m 10 5 ∧
    fld (put3 m x 20 y 15 z 0) 7 3 = fld m 7 3 ∧
    fld (put3 m x 20 y 15 z 0) 7 8 = fld m 7 8 ∧
    fld (put3 m x 20 y 15 z 0) 4 3 = fld m 4 3 ∧
    fld (put3 m x 20 y 15 z 0) 4 6 = fld m 4 6 ∧
    bv (put3 m x 20 y 15 z 0) 20 5 = x ∧
    bv (put3 m x 20 y 15 z 0) 15 5 = y ∧
    bv (put3 m x 20 y 15 z 0) 0 4 = z := by
  have hx := x.isLt
  have hy := y.isLt
  have hz := z.isLt
  simp only [fld] at h
  generalize hw : put3 m x 20 y 15 z 0 = wd
  replace hw : m + x.toNat * 2 ^ 20 + y.toNat * 2 ^ 15 + z.toNat * 2 ^ 0 = wd := hw
  simp only [fld]
  refine ⟨by omega, by omega, by omega, by omega, by omega, by omega, bv_eq (by omega), bv_eq (by omega), bv_eq (by omega)⟩

/-- The fields of a pattern m with fields put at 20 (5 bits), 15 (5 bits), 10 (5 bits), 7 (3 bits), 0 (4 bits), where m is clear. -/
theorem fields_20w5_15w5_10w5_7w3_0w4 {m : Nat} (x : BitVec 5) (y : BitVec 5) (z : BitVec 5) (u : BitVec 3) (v : BitVec 4) (h : fld m 20 5 = 0 ∧ fld m 15 5 = 0 ∧ fld m 10 5 = 0 ∧ fld m 7 3 = 0 ∧ fld m 0 4 = 0) :
    fld (put5 m x 20 y 15 z 10 u 7 v 0) 25 6 = fld m 25 6 ∧
    fld (put5 m x 20 y 15 z 10 u 7 v 0) 20 5 = x.toNat ∧
    fld (put5 m x 20 y 15 z 10 u 7 v 0) 7 3 = u.toNat ∧
    fld (put5 m x 20 y 15 z 10 u 7 v 0) 4 3 = fld m 4 3 ∧
    bv (put5 m x 20 y 15 z 10 u 7 v 0) 20 5 = x ∧
    bv (put5 m x 20 y 15 z 10 u 7 v 0) 15 5 = y ∧
    bv (put5 m x 20 y 15 z 10 u 7 v 0) 10 5 = z ∧
    bv (put5 m x 20 y 15 z 10 u 7 v 0) 7 3 = u ∧
    bv (put5 m x 20 y 15 z 10 u 7 v 0) 0 4 = v := by
  have hx := x.isLt
  have hy := y.isLt
  have hz := z.isLt
  have hu := u.isLt
  have hv := v.isLt
  simp only [fld] at h
  generalize hw : put5 m x 20 y 15 z 10 u 7 v 0 = wd
  replace hw : m + x.toNat * 2 ^ 20 + y.toNat * 2 ^ 15 + z.toNat * 2 ^ 10 + u.toNat * 2 ^ 7 + v.toNat * 2 ^ 0 = wd := hw
  simp only [fld]
  refine ⟨by omega, by omega, by omega, by omega, bv_eq (by omega), bv_eq (by omega), bv_eq (by omega), bv_eq (by omega), bv_eq (by omega)⟩

/-- The fields of a pattern m with fields put at 20 (5 bits), 0 (4 bits), where m is clear. -/
theorem fields_20w5_0w4 {m : Nat} (x : BitVec 5) (y : BitVec 4) (h : fld m 20 5 = 0 ∧ fld m 0 4 = 0) :
    fld (put2 m x 20 y 0) 25 6 = fld m 25 6 ∧
    fld (put2 m x 20 y 0) 10 10 = fld m 10 10 ∧
    fld (put2 m x 20 y 0) 7 3 = fld m 7 3 ∧
    fld (put2 m x 20 y 0) 7 13 = fld m 7 13 ∧
    fld (put2 m x 20 y 0) 4 3 = fld m 4 3 ∧
    fld (put2 m x 20 y 0) 4 6 = fld m 4 6 ∧
    bv (put2 m x 20 y 0) 20 5 = x ∧
    bv (put2 m x 20 y 0) 0 4 = y := by
  have hx := x.isLt
  have hy := y.isLt
  simp only [fld] at h
  generalize hw : put2 m x 20 y 0 = wd
  replace hw : m + x.toNat * 2 ^ 20 + y.toNat * 2 ^ 0 = wd := hw
  simp only [fld]
  refine ⟨by omega, by omega, by omega, by omega, by omega, by omega, bv_eq (by omega), bv_eq (by omega)⟩

/-- The fields of a pattern m with fields put at 20 (5 bits), where m is clear. -/
theorem fields_20w5 {m : Nat} (x : BitVec 5) (h : fld m 20 5 = 0) :
    fld (put1 m x 20) 25 6 = fld m 25 6 ∧
    fld (put1 m x 20) 10 10 = fld m 10 10 ∧
    fld (put1 m x 20) 7 13 = fld m 7 13 ∧
    fld (put1 m x 20) 4 3 = fld m 4 3 ∧
    fld (put1 m x 20) 4 6 = fld m 4 6 ∧
    fld (put1 m x 20) 0 4 = fld m 0 4 ∧
    bv (put1 m x 20) 20 5 = x := by
  have hx := x.isLt
  simp only [fld] at h
  generalize hw : put1 m x 20 = wd
  replace hw : m + x.toNat * 2 ^ 20 = wd := hw
  simp only [fld]
  refine ⟨by omega, by omega, by omega, by omega, by omega, by omega, bv_eq (by omega)⟩

/-- The fields of a pattern m with fields put at 20 (5 bits), 4 (12 bits), where m is clear. -/
theorem fields_20w5_4w12 {m : Nat} (x : BitVec 5) (y : BitVec 12) (h : fld m 20 5 = 0 ∧ fld m 4 12 = 0) :
    fld (put2 m x 20 y 4) 25 6 = fld m 25 6 ∧
    fld (put2 m x 20 y 4) 16 4 = fld m 16 4 ∧
    fld (put2 m x 20 y 4) 4 12 = y.toNat ∧
    fld (put2 m x 20 y 4) 0 4 = fld m 0 4 ∧
    bv (put2 m x 20 y 4) 20 5 = x ∧
    bv (put2 m x 20 y 4) 4 12 = y := by
  have hx := x.isLt
  have hy := y.isLt
  simp only [fld] at h
  generalize hw : put2 m x 20 y 4 = wd
  replace hw : m + x.toNat * 2 ^ 20 + y.toNat * 2 ^ 4 = wd := hw
  simp only [fld]
  refine ⟨by omega, by omega, by omega, by omega, bv_eq (by omega), bv_eq (by omega)⟩

/-- The fields of a pattern m with fields put at 20 (5 bits), 7 (3 bits), 0 (4 bits), where m is clear. -/
theorem fields_20w5_7w3_0w4 {m : Nat} (x : BitVec 5) (y : BitVec 3) (z : BitVec 4) (h : fld m 20 5 = 0 ∧ fld m 7 3 = 0 ∧ fld m 0 4 = 0) :
    fld (put3 m x 20 y 7 z 0) 25 6 = fld m 25 6 ∧
    fld (put3 m x 20 y 7 z 0) 10 10 = fld m 10 10 ∧
    fld (put3 m x 20 y 7 z 0) 4 3 = fld m 4 3 ∧
    bv (put3 m x 20 y 7 z 0) 20 5 = x ∧
    bv (put3 m x 20 y 7 z 0) 7 3 = y ∧
    bv (put3 m x 20 y 7 z 0) 0 4 = z := by
  have hx := x.isLt
  have hy := y.isLt
  have hz := z.isLt
  simp only [fld] at h
  generalize hw : put3 m x 20 y 7 z 0 = wd
  replace hw : m + x.toNat * 2 ^ 20 + y.toNat * 2 ^ 7 + z.toNat * 2 ^ 0 = wd := hw
  simp only [fld]
  refine ⟨by omega, by omega, by omega, bv_eq (by omega), bv_eq (by omega), bv_eq (by omega)⟩

/-- The fields of a pattern m with fields put at 7 (3 bits), where m is clear. -/
theorem fields_7w3 {m : Nat} (x : BitVec 3) (h : fld m 7 3 = 0) :
    fld (put1 m x 7) 25 6 = fld m 25 6 ∧
    fld (put1 m x 7) 10 15 = fld m 10 15 ∧
    fld (put1 m x 7) 7 3 = x.toNat ∧
    fld (put1 m x 7) 4 3 = fld m 4 3 ∧
    fld (put1 m x 7) 0 4 = fld m 0 4 ∧
    bv (put1 m x 7) 7 3 = x := by
  have hx := x.isLt
  simp only [fld] at h
  generalize hw : put1 m x 7 = wd
  replace hw : m + x.toNat * 2 ^ 7 = wd := hw
  simp only [fld]
  refine ⟨by omega, by omega, by omega, by omega, by omega, bv_eq (by omega)⟩

theorem RoundTrip.nop : RoundTrip.Statement .nop := by
  intro _ _
  generalize hw : encodeNat .nop = wd
  replace hw : 33554432 = wd := hw
  have e0 : fld wd 25 6 = 1 := by unfold fld; omega
  have e1 : fld wd 20 5 = 0 := by unfold fld; omega
  have e2 : fld wd 15 5 = 0 := by unfold fld; omega
  have e3 : fld wd 10 5 = 0 := by unfold fld; omega
  have e4 : fld wd 4 6 = 0 := by unfold fld; omega
  have e5 : fld wd 0 4 = 0 := by unfold fld; omega
  simp [decodeNat, dec01, e0, e1, e2, e3, e4, e5]

theorem RoundTrip.sadd (d : BitVec 5) (a : BitVec 5) (b : BitVec 5) : RoundTrip.Statement (.sadd d a b) := by
  intro _ hwf
  replace hwf : ¬(d.toNat = 0 ∧ a.toNat = 0 ∧ b.toNat = 0) := hwf
  have hf := fields_20w5_15w5_10w5 (m := 33554432) d a b (by decide)
  change decodeNat (put3 33554432 d 20 a 15 b 10) = _
  generalize put3 33554432 d 20 a 15 b 10 = wd at hf ⊢
  obtain ⟨e0, e1, e2, e3, e4, e5, fd, fa, fb⟩ : fld wd 25 6 = 1 ∧ fld wd 20 5 = d.toNat ∧ fld wd 15 5 = a.toNat ∧ fld wd 10 5 = b.toNat ∧ fld wd 4 6 = 0 ∧ fld wd 0 4 = 0 ∧ bv wd 20 5 = d ∧ bv wd 15 5 = a ∧ bv wd 10 5 = b := hf
  simp [decodeNat, dec01, e0, e1, e2, e3, e4, e5, fd, fa, fb, hwf]

theorem RoundTrip.ssub (d : BitVec 5) (a : BitVec 5) (b : BitVec 5) : RoundTrip.Statement (.ssub d a b) := by
  intro _ _
  have hf := fields_20w5_15w5_10w5 (m := 33554448) d a b (by decide)
  change decodeNat (put3 33554448 d 20 a 15 b 10) = _
  generalize put3 33554448 d 20 a 15 b 10 = wd at hf ⊢
  obtain ⟨e0, -, -, -, e4, e5, fd, fa, fb⟩ : fld wd 25 6 = 1 ∧ fld wd 20 5 = d.toNat ∧ fld wd 15 5 = a.toNat ∧ fld wd 10 5 = b.toNat ∧ fld wd 4 6 = 1 ∧ fld wd 0 4 = 0 ∧ bv wd 20 5 = d ∧ bv wd 15 5 = a ∧ bv wd 10 5 = b := hf
  simp [decodeNat, dec01, e0, e4, e5, fd, fa, fb]

theorem RoundTrip.smul (d : BitVec 5) (a : BitVec 5) (b : BitVec 5) : RoundTrip.Statement (.smul d a b) := by
  intro _ _
  have hf := fields_20w5_15w5_10w5 (m := 33554464) d a b (by decide)
  change decodeNat (put3 33554464 d 20 a 15 b 10) = _
  generalize put3 33554464 d 20 a 15 b 10 = wd at hf ⊢
  obtain ⟨e0, -, -, -, e4, e5, fd, fa, fb⟩ : fld wd 25 6 = 1 ∧ fld wd 20 5 = d.toNat ∧ fld wd 15 5 = a.toNat ∧ fld wd 10 5 = b.toNat ∧ fld wd 4 6 = 2 ∧ fld wd 0 4 = 0 ∧ bv wd 20 5 = d ∧ bv wd 15 5 = a ∧ bv wd 10 5 = b := hf
  simp [decodeNat, dec01, e0, e4, e5, fd, fa, fb]

theorem RoundTrip.smulhI64 (d : BitVec 5) (a : BitVec 5) (b : BitVec 5) : RoundTrip.Statement (.smulhI64 d a b) := by
  intro _ _
  have hf := fields_20w5_15w5_10w5 (m := 33554480) d a b (by decide)
  change decodeNat (put3 33554480 d 20 a 15 b 10) = _
  generalize put3 33554480 d 20 a 15 b 10 = wd at hf ⊢
  obtain ⟨e0, -, -, -, e4, e5, fd, fa, fb⟩ : fld wd 25 6 = 1 ∧ fld wd 20 5 = d.toNat ∧ fld wd 15 5 = a.toNat ∧ fld wd 10 5 = b.toNat ∧ fld wd 4 6 = 3 ∧ fld wd 0 4 = 0 ∧ bv wd 20 5 = d ∧ bv wd 15 5 = a ∧ bv wd 10 5 = b := hf
  simp [decodeNat, dec01, e0, e4, e5, fd, fa, fb]

theorem RoundTrip.smulhN64 (d : BitVec 5) (a : BitVec 5) (b : BitVec 5) : RoundTrip.Statement (.smulhN64 d a b) := by
  intro _ _
  have hf := fields_20w5_15w5_10w5 (m := 33554496) d a b (by decide)
  change decodeNat (put3 33554496 d 20 a 15 b 10) = _
  generalize put3 33554496 d 20 a 15 b 10 = wd at hf ⊢
  obtain ⟨e0, -, -, -, e4, e5, fd, fa, fb⟩ : fld wd 25 6 = 1 ∧ fld wd 20 5 = d.toNat ∧ fld wd 15 5 = a.toNat ∧ fld wd 10 5 = b.toNat ∧ fld wd 4 6 = 4 ∧ fld wd 0 4 = 0 ∧ bv wd 20 5 = d ∧ bv wd 15 5 = a ∧ bv wd 10 5 = b := hf
  simp [decodeNat, dec01, e0, e4, e5, fd, fa, fb]

theorem RoundTrip.sdivI64 (d : BitVec 5) (a : BitVec 5) (b : BitVec 5) : RoundTrip.Statement (.sdivI64 d a b) := by
  intro _ _
  have hf := fields_20w5_15w5_10w5 (m := 33554512) d a b (by decide)
  change decodeNat (put3 33554512 d 20 a 15 b 10) = _
  generalize put3 33554512 d 20 a 15 b 10 = wd at hf ⊢
  obtain ⟨e0, -, -, -, e4, e5, fd, fa, fb⟩ : fld wd 25 6 = 1 ∧ fld wd 20 5 = d.toNat ∧ fld wd 15 5 = a.toNat ∧ fld wd 10 5 = b.toNat ∧ fld wd 4 6 = 5 ∧ fld wd 0 4 = 0 ∧ bv wd 20 5 = d ∧ bv wd 15 5 = a ∧ bv wd 10 5 = b := hf
  simp [decodeNat, dec01, e0, e4, e5, fd, fa, fb]

theorem RoundTrip.sdivN64 (d : BitVec 5) (a : BitVec 5) (b : BitVec 5) : RoundTrip.Statement (.sdivN64 d a b) := by
  intro _ _
  have hf := fields_20w5_15w5_10w5 (m := 33554528) d a b (by decide)
  change decodeNat (put3 33554528 d 20 a 15 b 10) = _
  generalize put3 33554528 d 20 a 15 b 10 = wd at hf ⊢
  obtain ⟨e0, -, -, -, e4, e5, fd, fa, fb⟩ : fld wd 25 6 = 1 ∧ fld wd 20 5 = d.toNat ∧ fld wd 15 5 = a.toNat ∧ fld wd 10 5 = b.toNat ∧ fld wd 4 6 = 6 ∧ fld wd 0 4 = 0 ∧ bv wd 20 5 = d ∧ bv wd 15 5 = a ∧ bv wd 10 5 = b := hf
  simp [decodeNat, dec01, e0, e4, e5, fd, fa, fb]

theorem RoundTrip.sremI64 (d : BitVec 5) (a : BitVec 5) (b : BitVec 5) : RoundTrip.Statement (.sremI64 d a b) := by
  intro _ _
  have hf := fields_20w5_15w5_10w5 (m := 33554544) d a b (by decide)
  change decodeNat (put3 33554544 d 20 a 15 b 10) = _
  generalize put3 33554544 d 20 a 15 b 10 = wd at hf ⊢
  obtain ⟨e0, -, -, -, e4, e5, fd, fa, fb⟩ : fld wd 25 6 = 1 ∧ fld wd 20 5 = d.toNat ∧ fld wd 15 5 = a.toNat ∧ fld wd 10 5 = b.toNat ∧ fld wd 4 6 = 7 ∧ fld wd 0 4 = 0 ∧ bv wd 20 5 = d ∧ bv wd 15 5 = a ∧ bv wd 10 5 = b := hf
  simp [decodeNat, dec01, e0, e4, e5, fd, fa, fb]

theorem RoundTrip.sremN64 (d : BitVec 5) (a : BitVec 5) (b : BitVec 5) : RoundTrip.Statement (.sremN64 d a b) := by
  intro _ _
  have hf := fields_20w5_15w5_10w5 (m := 33554560) d a b (by decide)
  change decodeNat (put3 33554560 d 20 a 15 b 10) = _
  generalize put3 33554560 d 20 a 15 b 10 = wd at hf ⊢
  obtain ⟨e0, -, -, -, e4, e5, fd, fa, fb⟩ : fld wd 25 6 = 1 ∧ fld wd 20 5 = d.toNat ∧ fld wd 15 5 = a.toNat ∧ fld wd 10 5 = b.toNat ∧ fld wd 4 6 = 8 ∧ fld wd 0 4 = 0 ∧ bv wd 20 5 = d ∧ bv wd 15 5 = a ∧ bv wd 10 5 = b := hf
  simp [decodeNat, dec01, e0, e4, e5, fd, fa, fb]

theorem RoundTrip.sand (d : BitVec 5) (a : BitVec 5) (b : BitVec 5) : RoundTrip.Statement (.sand d a b) := by
  intro _ _
  have hf := fields_20w5_15w5_10w5 (m := 33554576) d a b (by decide)
  change decodeNat (put3 33554576 d 20 a 15 b 10) = _
  generalize put3 33554576 d 20 a 15 b 10 = wd at hf ⊢
  obtain ⟨e0, -, -, -, e4, e5, fd, fa, fb⟩ : fld wd 25 6 = 1 ∧ fld wd 20 5 = d.toNat ∧ fld wd 15 5 = a.toNat ∧ fld wd 10 5 = b.toNat ∧ fld wd 4 6 = 9 ∧ fld wd 0 4 = 0 ∧ bv wd 20 5 = d ∧ bv wd 15 5 = a ∧ bv wd 10 5 = b := hf
  simp [decodeNat, dec01, e0, e4, e5, fd, fa, fb]

theorem RoundTrip.sor (d : BitVec 5) (a : BitVec 5) (b : BitVec 5) : RoundTrip.Statement (.sor d a b) := by
  intro _ _
  have hf := fields_20w5_15w5_10w5 (m := 33554592) d a b (by decide)
  change decodeNat (put3 33554592 d 20 a 15 b 10) = _
  generalize put3 33554592 d 20 a 15 b 10 = wd at hf ⊢
  obtain ⟨e0, -, -, -, e4, e5, fd, fa, fb⟩ : fld wd 25 6 = 1 ∧ fld wd 20 5 = d.toNat ∧ fld wd 15 5 = a.toNat ∧ fld wd 10 5 = b.toNat ∧ fld wd 4 6 = 10 ∧ fld wd 0 4 = 0 ∧ bv wd 20 5 = d ∧ bv wd 15 5 = a ∧ bv wd 10 5 = b := hf
  simp [decodeNat, dec01, e0, e4, e5, fd, fa, fb]

theorem RoundTrip.sxor (d : BitVec 5) (a : BitVec 5) (b : BitVec 5) : RoundTrip.Statement (.sxor d a b) := by
  intro _ _
  have hf := fields_20w5_15w5_10w5 (m := 33554608) d a b (by decide)
  change decodeNat (put3 33554608 d 20 a 15 b 10) = _
  generalize put3 33554608 d 20 a 15 b 10 = wd at hf ⊢
  obtain ⟨e0, -, -, -, e4, e5, fd, fa, fb⟩ : fld wd 25 6 = 1 ∧ fld wd 20 5 = d.toNat ∧ fld wd 15 5 = a.toNat ∧ fld wd 10 5 = b.toNat ∧ fld wd 4 6 = 11 ∧ fld wd 0 4 = 0 ∧ bv wd 20 5 = d ∧ bv wd 15 5 = a ∧ bv wd 10 5 = b := hf
  simp [decodeNat, dec01, e0, e4, e5, fd, fa, fb]

theorem RoundTrip.sandn (d : BitVec 5) (a : BitVec 5) (b : BitVec 5) : RoundTrip.Statement (.sandn d a b) := by
  intro _ _
  have hf := fields_20w5_15w5_10w5 (m := 33554624) d a b (by decide)
  change decodeNat (put3 33554624 d 20 a 15 b 10) = _
  generalize put3 33554624 d 20 a 15 b 10 = wd at hf ⊢
  obtain ⟨e0, -, -, -, e4, e5, fd, fa, fb⟩ : fld wd 25 6 = 1 ∧ fld wd 20 5 = d.toNat ∧ fld wd 15 5 = a.toNat ∧ fld wd 10 5 = b.toNat ∧ fld wd 4 6 = 12 ∧ fld wd 0 4 = 0 ∧ bv wd 20 5 = d ∧ bv wd 15 5 = a ∧ bv wd 10 5 = b := hf
  simp [decodeNat, dec01, e0, e4, e5, fd, fa, fb]

theorem RoundTrip.sshl (d : BitVec 5) (a : BitVec 5) (b : BitVec 5) : RoundTrip.Statement (.sshl d a b) := by
  intro _ _
  have hf := fields_20w5_15w5_10w5 (m := 33554640) d a b (by decide)
  change decodeNat (put3 33554640 d 20 a 15 b 10) = _
  generalize put3 33554640 d 20 a 15 b 10 = wd at hf ⊢
  obtain ⟨e0, -, -, -, e4, e5, fd, fa, fb⟩ : fld wd 25 6 = 1 ∧ fld wd 20 5 = d.toNat ∧ fld wd 15 5 = a.toNat ∧ fld wd 10 5 = b.toNat ∧ fld wd 4 6 = 13 ∧ fld wd 0 4 = 0 ∧ bv wd 20 5 = d ∧ bv wd 15 5 = a ∧ bv wd 10 5 = b := hf
  simp [decodeNat, dec01, e0, e4, e5, fd, fa, fb]

theorem RoundTrip.sshrN64 (d : BitVec 5) (a : BitVec 5) (b : BitVec 5) : RoundTrip.Statement (.sshrN64 d a b) := by
  intro _ _
  have hf := fields_20w5_15w5_10w5 (m := 33554656) d a b (by decide)
  change decodeNat (put3 33554656 d 20 a 15 b 10) = _
  generalize put3 33554656 d 20 a 15 b 10 = wd at hf ⊢
  obtain ⟨e0, -, -, -, e4, e5, fd, fa, fb⟩ : fld wd 25 6 = 1 ∧ fld wd 20 5 = d.toNat ∧ fld wd 15 5 = a.toNat ∧ fld wd 10 5 = b.toNat ∧ fld wd 4 6 = 14 ∧ fld wd 0 4 = 0 ∧ bv wd 20 5 = d ∧ bv wd 15 5 = a ∧ bv wd 10 5 = b := hf
  simp [decodeNat, dec01, e0, e4, e5, fd, fa, fb]

theorem RoundTrip.sshrI64 (d : BitVec 5) (a : BitVec 5) (b : BitVec 5) : RoundTrip.Statement (.sshrI64 d a b) := by
  intro _ _
  have hf := fields_20w5_15w5_10w5 (m := 33554672) d a b (by decide)
  change decodeNat (put3 33554672 d 20 a 15 b 10) = _
  generalize put3 33554672 d 20 a 15 b 10 = wd at hf ⊢
  obtain ⟨e0, -, -, -, e4, e5, fd, fa, fb⟩ : fld wd 25 6 = 1 ∧ fld wd 20 5 = d.toNat ∧ fld wd 15 5 = a.toNat ∧ fld wd 10 5 = b.toNat ∧ fld wd 4 6 = 15 ∧ fld wd 0 4 = 0 ∧ bv wd 20 5 = d ∧ bv wd 15 5 = a ∧ bv wd 10 5 = b := hf
  simp [decodeNat, dec01, e0, e4, e5, fd, fa, fb]

theorem RoundTrip.sminI64 (d : BitVec 5) (a : BitVec 5) (b : BitVec 5) : RoundTrip.Statement (.sminI64 d a b) := by
  intro _ _
  have hf := fields_20w5_15w5_10w5 (m := 33554688) d a b (by decide)
  change decodeNat (put3 33554688 d 20 a 15 b 10) = _
  generalize put3 33554688 d 20 a 15 b 10 = wd at hf ⊢
  obtain ⟨e0, -, -, -, e4, e5, fd, fa, fb⟩ : fld wd 25 6 = 1 ∧ fld wd 20 5 = d.toNat ∧ fld wd 15 5 = a.toNat ∧ fld wd 10 5 = b.toNat ∧ fld wd 4 6 = 16 ∧ fld wd 0 4 = 0 ∧ bv wd 20 5 = d ∧ bv wd 15 5 = a ∧ bv wd 10 5 = b := hf
  simp [decodeNat, dec01, e0, e4, e5, fd, fa, fb]

theorem RoundTrip.sminN64 (d : BitVec 5) (a : BitVec 5) (b : BitVec 5) : RoundTrip.Statement (.sminN64 d a b) := by
  intro _ _
  have hf := fields_20w5_15w5_10w5 (m := 33554704) d a b (by decide)
  change decodeNat (put3 33554704 d 20 a 15 b 10) = _
  generalize put3 33554704 d 20 a 15 b 10 = wd at hf ⊢
  obtain ⟨e0, -, -, -, e4, e5, fd, fa, fb⟩ : fld wd 25 6 = 1 ∧ fld wd 20 5 = d.toNat ∧ fld wd 15 5 = a.toNat ∧ fld wd 10 5 = b.toNat ∧ fld wd 4 6 = 17 ∧ fld wd 0 4 = 0 ∧ bv wd 20 5 = d ∧ bv wd 15 5 = a ∧ bv wd 10 5 = b := hf
  simp [decodeNat, dec01, e0, e4, e5, fd, fa, fb]

theorem RoundTrip.smaxI64 (d : BitVec 5) (a : BitVec 5) (b : BitVec 5) : RoundTrip.Statement (.smaxI64 d a b) := by
  intro _ _
  have hf := fields_20w5_15w5_10w5 (m := 33554720) d a b (by decide)
  change decodeNat (put3 33554720 d 20 a 15 b 10) = _
  generalize put3 33554720 d 20 a 15 b 10 = wd at hf ⊢
  obtain ⟨e0, -, -, -, e4, e5, fd, fa, fb⟩ : fld wd 25 6 = 1 ∧ fld wd 20 5 = d.toNat ∧ fld wd 15 5 = a.toNat ∧ fld wd 10 5 = b.toNat ∧ fld wd 4 6 = 18 ∧ fld wd 0 4 = 0 ∧ bv wd 20 5 = d ∧ bv wd 15 5 = a ∧ bv wd 10 5 = b := hf
  simp [decodeNat, dec01, e0, e4, e5, fd, fa, fb]

theorem RoundTrip.smaxN64 (d : BitVec 5) (a : BitVec 5) (b : BitVec 5) : RoundTrip.Statement (.smaxN64 d a b) := by
  intro _ _
  have hf := fields_20w5_15w5_10w5 (m := 33554736) d a b (by decide)
  change decodeNat (put3 33554736 d 20 a 15 b 10) = _
  generalize put3 33554736 d 20 a 15 b 10 = wd at hf ⊢
  obtain ⟨e0, -, -, -, e4, e5, fd, fa, fb⟩ : fld wd 25 6 = 1 ∧ fld wd 20 5 = d.toNat ∧ fld wd 15 5 = a.toNat ∧ fld wd 10 5 = b.toNat ∧ fld wd 4 6 = 19 ∧ fld wd 0 4 = 0 ∧ bv wd 20 5 = d ∧ bv wd 15 5 = a ∧ bv wd 10 5 = b := hf
  simp [decodeNat, dec01, e0, e4, e5, fd, fa, fb]

theorem RoundTrip.spopc (d : BitVec 5) (a : BitVec 5) : RoundTrip.Statement (.spopc d a) := by
  intro _ _
  have hf := fields_20w5_15w5 (m := 33554752) d a (by decide)
  change decodeNat (put2 33554752 d 20 a 15) = _
  generalize put2 33554752 d 20 a 15 = wd at hf ⊢
  obtain ⟨e0, e1, -, -, -, e5, e6, fd, fa⟩ : fld wd 25 6 = 1 ∧ fld wd 10 5 = 0 ∧ fld wd 7 3 = 2 ∧ fld wd 7 8 = 2 ∧ fld wd 4 3 = 4 ∧ fld wd 4 6 = 20 ∧ fld wd 0 4 = 0 ∧ bv wd 20 5 = d ∧ bv wd 15 5 = a := hf
  simp [decodeNat, dec01, e0, e1, e5, e6, fd, fa]

theorem RoundTrip.sclz (d : BitVec 5) (a : BitVec 5) : RoundTrip.Statement (.sclz d a) := by
  intro _ _
  have hf := fields_20w5_15w5 (m := 33554768) d a (by decide)
  change decodeNat (put2 33554768 d 20 a 15) = _
  generalize put2 33554768 d 20 a 15 = wd at hf ⊢
  obtain ⟨e0, e1, -, -, -, e5, e6, fd, fa⟩ : fld wd 25 6 = 1 ∧ fld wd 10 5 = 0 ∧ fld wd 7 3 = 2 ∧ fld wd 7 8 = 2 ∧ fld wd 4 3 = 5 ∧ fld wd 4 6 = 21 ∧ fld wd 0 4 = 0 ∧ bv wd 20 5 = d ∧ bv wd 15 5 = a := hf
  simp [decodeNat, dec01, e0, e1, e5, e6, fd, fa]

theorem RoundTrip.sctz (d : BitVec 5) (a : BitVec 5) : RoundTrip.Statement (.sctz d a) := by
  intro _ _
  have hf := fields_20w5_15w5 (m := 33554784) d a (by decide)
  change decodeNat (put2 33554784 d 20 a 15) = _
  generalize put2 33554784 d 20 a 15 = wd at hf ⊢
  obtain ⟨e0, e1, -, -, -, e5, e6, fd, fa⟩ : fld wd 25 6 = 1 ∧ fld wd 10 5 = 0 ∧ fld wd 7 3 = 2 ∧ fld wd 7 8 = 2 ∧ fld wd 4 3 = 6 ∧ fld wd 4 6 = 22 ∧ fld wd 0 4 = 0 ∧ bv wd 20 5 = d ∧ bv wd 15 5 = a := hf
  simp [decodeNat, dec01, e0, e1, e5, e6, fd, fa]

theorem RoundTrip.saddi (d : BitVec 5) (a : BitVec 5) (i : BitVec 12) : RoundTrip.Statement (.saddi d a i) := by
  intro _ _
  have hf := fields_20w5_15w5_0w12 (m := 67108864) d a i (by decide)
  change decodeNat (put3 67108864 d 20 a 15 i 0) = _
  generalize put3 67108864 d 20 a 15 i 0 = wd at hf ⊢
  obtain ⟨e0, e1, fd, fa, fi⟩ : fld wd 25 6 = 2 ∧ fld wd 12 3 = 0 ∧ bv wd 20 5 = d ∧ bv wd 15 5 = a ∧ bv wd 0 12 = i := hf
  simp [decodeNat, dec02, e0, e1, fd, fa, fi]

theorem RoundTrip.sandi (d : BitVec 5) (a : BitVec 5) (i : BitVec 12) : RoundTrip.Statement (.sandi d a i) := by
  intro _ _
  have hf := fields_20w5_15w5_0w12 (m := 67112960) d a i (by decide)
  change decodeNat (put3 67112960 d 20 a 15 i 0) = _
  generalize put3 67112960 d 20 a 15 i 0 = wd at hf ⊢
  obtain ⟨e0, e1, fd, fa, fi⟩ : fld wd 25 6 = 2 ∧ fld wd 12 3 = 1 ∧ bv wd 20 5 = d ∧ bv wd 15 5 = a ∧ bv wd 0 12 = i := hf
  simp [decodeNat, dec02, e0, e1, fd, fa, fi]

theorem RoundTrip.sori (d : BitVec 5) (a : BitVec 5) (i : BitVec 12) : RoundTrip.Statement (.sori d a i) := by
  intro _ _
  have hf := fields_20w5_15w5_0w12 (m := 67117056) d a i (by decide)
  change decodeNat (put3 67117056 d 20 a 15 i 0) = _
  generalize put3 67117056 d 20 a 15 i 0 = wd at hf ⊢
  obtain ⟨e0, e1, fd, fa, fi⟩ : fld wd 25 6 = 2 ∧ fld wd 12 3 = 2 ∧ bv wd 20 5 = d ∧ bv wd 15 5 = a ∧ bv wd 0 12 = i := hf
  simp [decodeNat, dec02, e0, e1, fd, fa, fi]

theorem RoundTrip.sxori (d : BitVec 5) (a : BitVec 5) (i : BitVec 12) : RoundTrip.Statement (.sxori d a i) := by
  intro _ _
  have hf := fields_20w5_15w5_0w12 (m := 67121152) d a i (by decide)
  change decodeNat (put3 67121152 d 20 a 15 i 0) = _
  generalize put3 67121152 d 20 a 15 i 0 = wd at hf ⊢
  obtain ⟨e0, e1, fd, fa, fi⟩ : fld wd 25 6 = 2 ∧ fld wd 12 3 = 3 ∧ bv wd 20 5 = d ∧ bv wd 15 5 = a ∧ bv wd 0 12 = i := hf
  simp [decodeNat, dec02, e0, e1, fd, fa, fi]

theorem RoundTrip.sshli (d : BitVec 5) (a : BitVec 5) (i : BitVec 6) : RoundTrip.Statement (.sshli d a i) := by
  intro _ _
  have hf := fields_20w5_15w5_0w6 (m := 67125248) d a i (by decide)
  change decodeNat (put3 67125248 d 20 a 15 i 0) = _
  generalize put3 67125248 d 20 a 15 i 0 = wd at hf ⊢
  obtain ⟨e0, e1, e2, fd, fa, fi⟩ : fld wd 25 6 = 2 ∧ fld wd 12 3 = 4 ∧ fld wd 6 6 = 0 ∧ bv wd 20 5 = d ∧ bv wd 15 5 = a ∧ bv wd 0 6 = i := hf
  simp [decodeNat, dec02, e0, e1, e2, fd, fa, fi]

theorem RoundTrip.sshriN64 (d : BitVec 5) (a : BitVec 5) (i : BitVec 6) : RoundTrip.Statement (.sshriN64 d a i) := by
  intro _ _
  have hf := fields_20w5_15w5_0w6 (m := 67129344) d a i (by decide)
  change decodeNat (put3 67129344 d 20 a 15 i 0) = _
  generalize put3 67129344 d 20 a 15 i 0 = wd at hf ⊢
  obtain ⟨e0, e1, e2, fd, fa, fi⟩ : fld wd 25 6 = 2 ∧ fld wd 12 3 = 5 ∧ fld wd 6 6 = 0 ∧ bv wd 20 5 = d ∧ bv wd 15 5 = a ∧ bv wd 0 6 = i := hf
  simp [decodeNat, dec02, e0, e1, e2, fd, fa, fi]

theorem RoundTrip.sshriI64 (d : BitVec 5) (a : BitVec 5) (i : BitVec 6) : RoundTrip.Statement (.sshriI64 d a i) := by
  intro _ _
  have hf := fields_20w5_15w5_0w6 (m := 67133440) d a i (by decide)
  change decodeNat (put3 67133440 d 20 a 15 i 0) = _
  generalize put3 67133440 d 20 a 15 i 0 = wd at hf ⊢
  obtain ⟨e0, e1, e2, fd, fa, fi⟩ : fld wd 25 6 = 2 ∧ fld wd 12 3 = 6 ∧ fld wd 6 6 = 0 ∧ bv wd 20 5 = d ∧ bv wd 15 5 = a ∧ bv wd 0 6 = i := hf
  simp [decodeNat, dec02, e0, e1, e2, fd, fa, fi]

theorem RoundTrip.smuli (d : BitVec 5) (a : BitVec 5) (i : BitVec 12) : RoundTrip.Statement (.smuli d a i) := by
  intro _ _
  have hf := fields_20w5_15w5_0w12 (m := 67137536) d a i (by decide)
  change decodeNat (put3 67137536 d 20 a 15 i 0) = _
  generalize put3 67137536 d 20 a 15 i 0 = wd at hf ⊢
  obtain ⟨e0, e1, fd, fa, fi⟩ : fld wd 25 6 = 2 ∧ fld wd 12 3 = 7 ∧ bv wd 20 5 = d ∧ bv wd 15 5 = a ∧ bv wd 0 12 = i := hf
  simp [decodeNat, dec02, e0, e1, fd, fa, fi]

theorem RoundTrip.sli (d : BitVec 5) (i : BitVec 16) : RoundTrip.Statement (.sli d i) := by
  intro _ _
  have hf := fields_20w5_0w16 (m := 100663296) d i (by decide)
  change decodeNat (put2 100663296 d 20 i 0) = _
  generalize put2 100663296 d 20 i 0 = wd at hf ⊢
  obtain ⟨e0, e1, fd, fi⟩ : fld wd 25 6 = 3 ∧ fld wd 16 4 = 0 ∧ bv wd 20 5 = d ∧ bv wd 0 16 = i := hf
  simp [decodeNat, dec03, e0, e1, fd, fi]

theorem RoundTrip.sliu (d : BitVec 5) (i : BitVec 16) : RoundTrip.Statement (.sliu d i) := by
  intro _ _
  have hf := fields_20w5_0w16 (m := 100728832) d i (by decide)
  change decodeNat (put2 100728832 d 20 i 0) = _
  generalize put2 100728832 d 20 i 0 = wd at hf ⊢
  obtain ⟨e0, e1, fd, fi⟩ : fld wd 25 6 = 3 ∧ fld wd 16 4 = 1 ∧ bv wd 20 5 = d ∧ bv wd 0 16 = i := hf
  simp [decodeNat, dec03, e0, e1, fd, fi]

theorem RoundTrip.sinsH0 (d : BitVec 5) (i : BitVec 16) : RoundTrip.Statement (.sinsH0 d i) := by
  intro _ _
  have hf := fields_20w5_0w16 (m := 100794368) d i (by decide)
  change decodeNat (put2 100794368 d 20 i 0) = _
  generalize put2 100794368 d 20 i 0 = wd at hf ⊢
  obtain ⟨e0, e1, fd, fi⟩ : fld wd 25 6 = 3 ∧ fld wd 16 4 = 2 ∧ bv wd 20 5 = d ∧ bv wd 0 16 = i := hf
  simp [decodeNat, dec03, e0, e1, fd, fi]

theorem RoundTrip.sinsH1 (d : BitVec 5) (i : BitVec 16) : RoundTrip.Statement (.sinsH1 d i) := by
  intro _ _
  have hf := fields_20w5_0w16 (m := 100859904) d i (by decide)
  change decodeNat (put2 100859904 d 20 i 0) = _
  generalize put2 100859904 d 20 i 0 = wd at hf ⊢
  obtain ⟨e0, e1, fd, fi⟩ : fld wd 25 6 = 3 ∧ fld wd 16 4 = 3 ∧ bv wd 20 5 = d ∧ bv wd 0 16 = i := hf
  simp [decodeNat, dec03, e0, e1, fd, fi]

theorem RoundTrip.sinsH2 (d : BitVec 5) (i : BitVec 16) : RoundTrip.Statement (.sinsH2 d i) := by
  intro _ _
  have hf := fields_20w5_0w16 (m := 100925440) d i (by decide)
  change decodeNat (put2 100925440 d 20 i 0) = _
  generalize put2 100925440 d 20 i 0 = wd at hf ⊢
  obtain ⟨e0, e1, fd, fi⟩ : fld wd 25 6 = 3 ∧ fld wd 16 4 = 4 ∧ bv wd 20 5 = d ∧ bv wd 0 16 = i := hf
  simp [decodeNat, dec03, e0, e1, fd, fi]

theorem RoundTrip.sinsH3 (d : BitVec 5) (i : BitVec 16) : RoundTrip.Statement (.sinsH3 d i) := by
  intro _ _
  have hf := fields_20w5_0w16 (m := 100990976) d i (by decide)
  change decodeNat (put2 100990976 d 20 i 0) = _
  generalize put2 100990976 d 20 i 0 = wd at hf ⊢
  obtain ⟨e0, e1, fd, fi⟩ : fld wd 25 6 = 3 ∧ fld wd 16 4 = 5 ∧ bv wd 20 5 = d ∧ bv wd 0 16 = i := hf
  simp [decodeNat, dec03, e0, e1, fd, fi]

theorem RoundTrip.vget (d : BitVec 5) (n : BitVec 5) (a : BitVec 7) : RoundTrip.Statement (.vget d n a) := by
  intro _ _
  have hd := d.isLt
  have hn := n.isLt
  have ha := a.isLt
  generalize hw : encodeNat (.vget d n a) = wd
  replace hw : 101056512 + d.toNat * 2 ^ 20 + n.toNat * 2 ^ 7 + a.toNat * 2 ^ 0 = wd := hw
  have e0 : fld wd 25 6 = 3 := by unfold fld; omega
  have e1 : fld wd 16 4 = 6 := by unfold fld; omega
  have e2 : fld wd 12 4 = 0 := by unfold fld; omega
  have fd : bv wd 20 5 = d := bv_eq (by omega)
  have fn : bv wd 7 5 = n := bv_eq (by omega)
  have fa : bv wd 0 7 = a := bv_eq (by omega)
  simp [decodeNat, dec03, e0, e1, e2, fd, fn, fa]

theorem RoundTrip.pget (d : BitVec 5) (p : BitVec 3) : RoundTrip.Statement (.pget d p) := by
  intro _ _
  have hd := d.isLt
  have hp := p.isLt
  generalize hw : encodeNat (.pget d p) = wd
  replace hw : 101122048 + d.toNat * 2 ^ 20 + p.toNat * 2 ^ 0 = wd := hw
  have e0 : fld wd 25 6 = 3 := by unfold fld; omega
  have e1 : fld wd 16 4 = 7 := by unfold fld; omega
  have e2 : fld wd 3 13 = 0 := by unfold fld; omega
  have fd : bv wd 20 5 = d := bv_eq (by omega)
  have fp : bv wd 0 3 = p := bv_eq (by omega)
  simp [decodeNat, dec03, e0, e1, e2, fd, fp]

theorem RoundTrip.psets (a : BitVec 5) (p : BitVec 3) : RoundTrip.Statement (.psets a p) := by
  intro _ _
  have ha := a.isLt
  have hp := p.isLt
  generalize hw : encodeNat (.psets a p) = wd
  replace hw : 101187584 + a.toNat * 2 ^ 20 + p.toNat * 2 ^ 0 = wd := hw
  have e0 : fld wd 25 6 = 3 := by unfold fld; omega
  have e1 : fld wd 16 4 = 8 := by unfold fld; omega
  have e2 : fld wd 3 13 = 0 := by unfold fld; omega
  have fa : bv wd 20 5 = a := bv_eq (by omega)
  have fp : bv wd 0 3 = p := bv_eq (by omega)
  simp [decodeNat, dec03, e0, e1, e2, fa, fp]

theorem RoundTrip.seq (d : BitVec 5) (a : BitVec 5) (b : BitVec 5) : RoundTrip.Statement (.seq d a b) := by
  intro _ _
  have hf := fields_20w5_15w5_10w5 (m := 134217728) d a b (by decide)
  change decodeNat (put3 134217728 d 20 a 15 b 10) = _
  generalize put3 134217728 d 20 a 15 b 10 = wd at hf ⊢
  obtain ⟨e0, -, -, -, e4, e5, fd, fa, fb⟩ : fld wd 25 6 = 4 ∧ fld wd 20 5 = d.toNat ∧ fld wd 15 5 = a.toNat ∧ fld wd 10 5 = b.toNat ∧ fld wd 4 6 = 0 ∧ fld wd 0 4 = 0 ∧ bv wd 20 5 = d ∧ bv wd 15 5 = a ∧ bv wd 10 5 = b := hf
  simp [decodeNat, dec04, e0, e4, e5, fd, fa, fb]

theorem RoundTrip.sne (d : BitVec 5) (a : BitVec 5) (b : BitVec 5) : RoundTrip.Statement (.sne d a b) := by
  intro _ _
  have hf := fields_20w5_15w5_10w5 (m := 134217744) d a b (by decide)
  change decodeNat (put3 134217744 d 20 a 15 b 10) = _
  generalize put3 134217744 d 20 a 15 b 10 = wd at hf ⊢
  obtain ⟨e0, -, -, -, e4, e5, fd, fa, fb⟩ : fld wd 25 6 = 4 ∧ fld wd 20 5 = d.toNat ∧ fld wd 15 5 = a.toNat ∧ fld wd 10 5 = b.toNat ∧ fld wd 4 6 = 1 ∧ fld wd 0 4 = 0 ∧ bv wd 20 5 = d ∧ bv wd 15 5 = a ∧ bv wd 10 5 = b := hf
  simp [decodeNat, dec04, e0, e4, e5, fd, fa, fb]

theorem RoundTrip.sltI64 (d : BitVec 5) (a : BitVec 5) (b : BitVec 5) : RoundTrip.Statement (.sltI64 d a b) := by
  intro _ _
  have hf := fields_20w5_15w5_10w5 (m := 134217760) d a b (by decide)
  change decodeNat (put3 134217760 d 20 a 15 b 10) = _
  generalize put3 134217760 d 20 a 15 b 10 = wd at hf ⊢
  obtain ⟨e0, -, -, -, e4, e5, fd, fa, fb⟩ : fld wd 25 6 = 4 ∧ fld wd 20 5 = d.toNat ∧ fld wd 15 5 = a.toNat ∧ fld wd 10 5 = b.toNat ∧ fld wd 4 6 = 2 ∧ fld wd 0 4 = 0 ∧ bv wd 20 5 = d ∧ bv wd 15 5 = a ∧ bv wd 10 5 = b := hf
  simp [decodeNat, dec04, e0, e4, e5, fd, fa, fb]

theorem RoundTrip.sleI64 (d : BitVec 5) (a : BitVec 5) (b : BitVec 5) : RoundTrip.Statement (.sleI64 d a b) := by
  intro _ _
  have hf := fields_20w5_15w5_10w5 (m := 134217776) d a b (by decide)
  change decodeNat (put3 134217776 d 20 a 15 b 10) = _
  generalize put3 134217776 d 20 a 15 b 10 = wd at hf ⊢
  obtain ⟨e0, -, -, -, e4, e5, fd, fa, fb⟩ : fld wd 25 6 = 4 ∧ fld wd 20 5 = d.toNat ∧ fld wd 15 5 = a.toNat ∧ fld wd 10 5 = b.toNat ∧ fld wd 4 6 = 3 ∧ fld wd 0 4 = 0 ∧ bv wd 20 5 = d ∧ bv wd 15 5 = a ∧ bv wd 10 5 = b := hf
  simp [decodeNat, dec04, e0, e4, e5, fd, fa, fb]

theorem RoundTrip.sltN64 (d : BitVec 5) (a : BitVec 5) (b : BitVec 5) : RoundTrip.Statement (.sltN64 d a b) := by
  intro _ _
  have hf := fields_20w5_15w5_10w5 (m := 134217792) d a b (by decide)
  change decodeNat (put3 134217792 d 20 a 15 b 10) = _
  generalize put3 134217792 d 20 a 15 b 10 = wd at hf ⊢
  obtain ⟨e0, -, -, -, e4, e5, fd, fa, fb⟩ : fld wd 25 6 = 4 ∧ fld wd 20 5 = d.toNat ∧ fld wd 15 5 = a.toNat ∧ fld wd 10 5 = b.toNat ∧ fld wd 4 6 = 4 ∧ fld wd 0 4 = 0 ∧ bv wd 20 5 = d ∧ bv wd 15 5 = a ∧ bv wd 10 5 = b := hf
  simp [decodeNat, dec04, e0, e4, e5, fd, fa, fb]

theorem RoundTrip.sleN64 (d : BitVec 5) (a : BitVec 5) (b : BitVec 5) : RoundTrip.Statement (.sleN64 d a b) := by
  intro _ _
  have hf := fields_20w5_15w5_10w5 (m := 134217808) d a b (by decide)
  change decodeNat (put3 134217808 d 20 a 15 b 10) = _
  generalize put3 134217808 d 20 a 15 b 10 = wd at hf ⊢
  obtain ⟨e0, -, -, -, e4, e5, fd, fa, fb⟩ : fld wd 25 6 = 4 ∧ fld wd 20 5 = d.toNat ∧ fld wd 15 5 = a.toNat ∧ fld wd 10 5 = b.toNat ∧ fld wd 4 6 = 5 ∧ fld wd 0 4 = 0 ∧ bv wd 20 5 = d ∧ bv wd 15 5 = a ∧ bv wd 10 5 = b := hf
  simp [decodeNat, dec04, e0, e4, e5, fd, fa, fb]

theorem RoundTrip.pand (d : BitVec 3) (a : BitVec 3) (b : BitVec 3) : RoundTrip.Statement (.pand d a b) := by
  intro _ _
  have hf := fields_20w3_15w3_10w3 (m := 134217856) d a b (by decide)
  change decodeNat (put3 134217856 d 20 a 15 b 10) = _
  generalize put3 134217856 d 20 a 15 b 10 = wd at hf ⊢
  obtain ⟨e0, e1, e2, e3, e4, e5, fd, fa, fb⟩ : fld wd 25 6 = 4 ∧ fld wd 23 2 = 0 ∧ fld wd 18 2 = 0 ∧ fld wd 13 2 = 0 ∧ fld wd 4 6 = 8 ∧ fld wd 0 4 = 0 ∧ bv wd 20 3 = d ∧ bv wd 15 3 = a ∧ bv wd 10 3 = b := hf
  simp [decodeNat, dec04, e0, e1, e2, e3, e4, e5, fd, fa, fb]

theorem RoundTrip.por (d : BitVec 3) (a : BitVec 3) (b : BitVec 3) : RoundTrip.Statement (.por d a b) := by
  intro _ _
  have hf := fields_20w3_15w3_10w3 (m := 134217872) d a b (by decide)
  change decodeNat (put3 134217872 d 20 a 15 b 10) = _
  generalize put3 134217872 d 20 a 15 b 10 = wd at hf ⊢
  obtain ⟨e0, e1, e2, e3, e4, e5, fd, fa, fb⟩ : fld wd 25 6 = 4 ∧ fld wd 23 2 = 0 ∧ fld wd 18 2 = 0 ∧ fld wd 13 2 = 0 ∧ fld wd 4 6 = 9 ∧ fld wd 0 4 = 0 ∧ bv wd 20 3 = d ∧ bv wd 15 3 = a ∧ bv wd 10 3 = b := hf
  simp [decodeNat, dec04, e0, e1, e2, e3, e4, e5, fd, fa, fb]

theorem RoundTrip.pxor (d : BitVec 3) (a : BitVec 3) (b : BitVec 3) : RoundTrip.Statement (.pxor d a b) := by
  intro _ _
  have hf := fields_20w3_15w3_10w3 (m := 134217888) d a b (by decide)
  change decodeNat (put3 134217888 d 20 a 15 b 10) = _
  generalize put3 134217888 d 20 a 15 b 10 = wd at hf ⊢
  obtain ⟨e0, e1, e2, e3, e4, e5, fd, fa, fb⟩ : fld wd 25 6 = 4 ∧ fld wd 23 2 = 0 ∧ fld wd 18 2 = 0 ∧ fld wd 13 2 = 0 ∧ fld wd 4 6 = 10 ∧ fld wd 0 4 = 0 ∧ bv wd 20 3 = d ∧ bv wd 15 3 = a ∧ bv wd 10 3 = b := hf
  simp [decodeNat, dec04, e0, e1, e2, e3, e4, e5, fd, fa, fb]

theorem RoundTrip.pandn (d : BitVec 3) (a : BitVec 3) (b : BitVec 3) : RoundTrip.Statement (.pandn d a b) := by
  intro _ _
  have hf := fields_20w3_15w3_10w3 (m := 134217904) d a b (by decide)
  change decodeNat (put3 134217904 d 20 a 15 b 10) = _
  generalize put3 134217904 d 20 a 15 b 10 = wd at hf ⊢
  obtain ⟨e0, e1, e2, e3, e4, e5, fd, fa, fb⟩ : fld wd 25 6 = 4 ∧ fld wd 23 2 = 0 ∧ fld wd 18 2 = 0 ∧ fld wd 13 2 = 0 ∧ fld wd 4 6 = 11 ∧ fld wd 0 4 = 0 ∧ bv wd 20 3 = d ∧ bv wd 15 3 = a ∧ bv wd 10 3 = b := hf
  simp [decodeNat, dec04, e0, e1, e2, e3, e4, e5, fd, fa, fb]

theorem RoundTrip.pnot (d : BitVec 3) (a : BitVec 3) : RoundTrip.Statement (.pnot d a) := by
  intro _ _
  have hd := d.isLt
  have ha := a.isLt
  generalize hw : encodeNat (.pnot d a) = wd
  replace hw : 134217920 + d.toNat * 2 ^ 20 + a.toNat * 2 ^ 15 = wd := hw
  have e0 : fld wd 25 6 = 4 := by unfold fld; omega
  have e1 : fld wd 23 2 = 0 := by unfold fld; omega
  have e2 : fld wd 18 2 = 0 := by unfold fld; omega
  have e3 : fld wd 10 5 = 0 := by unfold fld; omega
  have e4 : fld wd 4 6 = 12 := by unfold fld; omega
  have e5 : fld wd 0 4 = 0 := by unfold fld; omega
  have fd : bv wd 20 3 = d := bv_eq (by omega)
  have fa : bv wd 15 3 = a := bv_eq (by omega)
  simp [decodeNat, dec04, e0, e1, e2, e3, e4, e5, fd, fa]

theorem RoundTrip.ppopc (d : BitVec 5) (a : BitVec 3) : RoundTrip.Statement (.ppopc d a) := by
  intro _ _
  have hd := d.isLt
  have ha := a.isLt
  generalize hw : encodeNat (.ppopc d a) = wd
  replace hw : 134217936 + d.toNat * 2 ^ 20 + a.toNat * 2 ^ 15 = wd := hw
  have e0 : fld wd 25 6 = 4 := by unfold fld; omega
  have e1 : fld wd 18 2 = 0 := by unfold fld; omega
  have e2 : fld wd 10 5 = 0 := by unfold fld; omega
  have e3 : fld wd 4 6 = 13 := by unfold fld; omega
  have e4 : fld wd 0 4 = 0 := by unfold fld; omega
  have fd : bv wd 20 5 = d := bv_eq (by omega)
  have fa : bv wd 15 3 = a := bv_eq (by omega)
  simp [decodeNat, dec04, e0, e1, e2, e3, e4, fd, fa]

theorem RoundTrip.pffs (d : BitVec 5) (a : BitVec 3) : RoundTrip.Statement (.pffs d a) := by
  intro _ _
  have hd := d.isLt
  have ha := a.isLt
  generalize hw : encodeNat (.pffs d a) = wd
  replace hw : 134217952 + d.toNat * 2 ^ 20 + a.toNat * 2 ^ 15 = wd := hw
  have e0 : fld wd 25 6 = 4 := by unfold fld; omega
  have e1 : fld wd 18 2 = 0 := by unfold fld; omega
  have e2 : fld wd 10 5 = 0 := by unfold fld; omega
  have e3 : fld wd 4 6 = 14 := by unfold fld; omega
  have e4 : fld wd 0 4 = 0 := by unfold fld; omega
  have fd : bv wd 20 5 = d := bv_eq (by omega)
  have fa : bv wd 15 3 = a := bv_eq (by omega)
  simp [decodeNat, dec04, e0, e1, e2, e3, e4, fd, fa]

theorem RoundTrip.pfill (d : BitVec 3) (a : BitVec 5) : RoundTrip.Statement (.pfill d a) := by
  intro _ _
  have hd := d.isLt
  have ha := a.isLt
  generalize hw : encodeNat (.pfill d a) = wd
  replace hw : 134217968 + d.toNat * 2 ^ 20 + a.toNat * 2 ^ 15 = wd := hw
  have e0 : fld wd 25 6 = 4 := by unfold fld; omega
  have e1 : fld wd 23 2 = 0 := by unfold fld; omega
  have e2 : fld wd 10 5 = 0 := by unfold fld; omega
  have e3 : fld wd 4 6 = 15 := by unfold fld; omega
  have e4 : fld wd 0 4 = 0 := by unfold fld; omega
  have fd : bv wd 20 3 = d := bv_eq (by omega)
  have fa : bv wd 15 5 = a := bv_eq (by omega)
  simp [decodeNat, dec04, e0, e1, e2, e3, e4, fd, fa]

theorem RoundTrip.sldB64 (d : BitVec 5) (a : BitVec 5) (b : BitVec 5) (l : BitVec 4) : RoundTrip.Statement (.sldB64 d a b l) := by
  intro _ _
  have hf := fields_20w5_15w5_10w5_0w4 (m := 167772160) d a b l (by decide)
  change decodeNat (put4 167772160 d 20 a 15 b 10 l 0) = _
  generalize put4 167772160 d 20 a 15 b 10 l 0 = wd at hf ⊢
  obtain ⟨e0, e1, e2, fd, fa, fb, fl⟩ : fld wd 25 6 = 5 ∧ fld wd 7 3 = 0 ∧ fld wd 4 3 = 0 ∧ bv wd 20 5 = d ∧ bv wd 15 5 = a ∧ bv wd 10 5 = b ∧ bv wd 0 4 = l := hf
  simp [decodeNat, dec05, e0, e1, e2, fd, fa, fb, fl]

theorem RoundTrip.sldN32 (d : BitVec 5) (a : BitVec 5) (b : BitVec 5) (l : BitVec 4) : RoundTrip.Statement (.sldN32 d a b l) := by
  intro _ _
  have hf := fields_20w5_15w5_10w5_0w4 (m := 167772288) d a b l (by decide)
  change decodeNat (put4 167772288 d 20 a 15 b 10 l 0) = _
  generalize put4 167772288 d 20 a 15 b 10 l 0 = wd at hf ⊢
  obtain ⟨e0, e1, e2, fd, fa, fb, fl⟩ : fld wd 25 6 = 5 ∧ fld wd 7 3 = 1 ∧ fld wd 4 3 = 0 ∧ bv wd 20 5 = d ∧ bv wd 15 5 = a ∧ bv wd 10 5 = b ∧ bv wd 0 4 = l := hf
  simp [decodeNat, dec05, e0, e1, e2, fd, fa, fb, fl]

theorem RoundTrip.sldI32 (d : BitVec 5) (a : BitVec 5) (b : BitVec 5) (l : BitVec 4) : RoundTrip.Statement (.sldI32 d a b l) := by
  intro _ _
  have hf := fields_20w5_15w5_10w5_0w4 (m := 167772416) d a b l (by decide)
  change decodeNat (put4 167772416 d 20 a 15 b 10 l 0) = _
  generalize put4 167772416 d 20 a 15 b 10 l 0 = wd at hf ⊢
  obtain ⟨e0, e1, e2, fd, fa, fb, fl⟩ : fld wd 25 6 = 5 ∧ fld wd 7 3 = 2 ∧ fld wd 4 3 = 0 ∧ bv wd 20 5 = d ∧ bv wd 15 5 = a ∧ bv wd 10 5 = b ∧ bv wd 0 4 = l := hf
  simp [decodeNat, dec05, e0, e1, e2, fd, fa, fb, fl]

theorem RoundTrip.sldNf (d : BitVec 5) (a : BitVec 5) (b : BitVec 5) (t : BitVec 3) (l : BitVec 4) : RoundTrip.Statement (.sldNf d a b t l) := by
  intro _ hwf
  replace hwf : t.toNat ≠ 0 := hwf
  have hd := d.isLt
  have ha := a.isLt
  have hb := b.isLt
  have ht := t.isLt
  have hl := l.isLt
  generalize hw : encodeNat (.sldNf d a b t l) = wd
  replace hw : 167772544 + d.toNat * 2 ^ 20 + a.toNat * 2 ^ 15 + b.toNat * 2 ^ 10 + t.toNat * 2 ^ 4 + l.toNat * 2 ^ 0 = wd := hw
  have e0 : fld wd 25 6 = 5 := by unfold fld; omega
  have e1 : fld wd 7 3 = 3 := by unfold fld; omega
  have e2 : fld wd 4 3 = t.toNat := by unfold fld; omega
  have fd : bv wd 20 5 = d := bv_eq (by omega)
  have fa : bv wd 15 5 = a := bv_eq (by omega)
  have fb : bv wd 10 5 = b := bv_eq (by omega)
  have ft : bv wd 4 3 = t := bv_eq (by omega)
  have fl : bv wd 0 4 = l := bv_eq (by omega)
  simp [decodeNat, dec05, e0, e1, e2, fd, fa, fb, ft, fl, hwf]

theorem RoundTrip.sstB64 (v : BitVec 5) (a : BitVec 5) (b : BitVec 5) (l : BitVec 4) : RoundTrip.Statement (.sstB64 v a b l) := by
  intro _ _
  have hf := fields_20w5_15w5_10w5_0w4 (m := 167772672) v a b l (by decide)
  change decodeNat (put4 167772672 v 20 a 15 b 10 l 0) = _
  generalize put4 167772672 v 20 a 15 b 10 l 0 = wd at hf ⊢
  obtain ⟨e0, e1, e2, fv, fa, fb, fl⟩ : fld wd 25 6 = 5 ∧ fld wd 7 3 = 4 ∧ fld wd 4 3 = 0 ∧ bv wd 20 5 = v ∧ bv wd 15 5 = a ∧ bv wd 10 5 = b ∧ bv wd 0 4 = l := hf
  simp [decodeNat, dec05, e0, e1, e2, fv, fa, fb, fl]

theorem RoundTrip.sstB32 (v : BitVec 5) (a : BitVec 5) (b : BitVec 5) (l : BitVec 4) : RoundTrip.Statement (.sstB32 v a b l) := by
  intro _ _
  have hf := fields_20w5_15w5_10w5_0w4 (m := 167772800) v a b l (by decide)
  change decodeNat (put4 167772800 v 20 a 15 b 10 l 0) = _
  generalize put4 167772800 v 20 a 15 b 10 l 0 = wd at hf ⊢
  obtain ⟨e0, e1, e2, fv, fa, fb, fl⟩ : fld wd 25 6 = 5 ∧ fld wd 7 3 = 5 ∧ fld wd 4 3 = 0 ∧ bv wd 20 5 = v ∧ bv wd 15 5 = a ∧ bv wd 10 5 = b ∧ bv wd 0 4 = l := hf
  simp [decodeNat, dec05, e0, e1, e2, fv, fa, fb, fl]

theorem RoundTrip.sstNf (v : BitVec 5) (a : BitVec 5) (b : BitVec 5) (t : BitVec 3) (l : BitVec 4) : RoundTrip.Statement (.sstNf v a b t l) := by
  intro _ hwf
  replace hwf : t.toNat ≠ 0 := hwf
  have hv := v.isLt
  have ha := a.isLt
  have hb := b.isLt
  have ht := t.isLt
  have hl := l.isLt
  generalize hw : encodeNat (.sstNf v a b t l) = wd
  replace hw : 167772928 + v.toNat * 2 ^ 20 + a.toNat * 2 ^ 15 + b.toNat * 2 ^ 10 + t.toNat * 2 ^ 4 + l.toNat * 2 ^ 0 = wd := hw
  have e0 : fld wd 25 6 = 5 := by unfold fld; omega
  have e1 : fld wd 7 3 = 6 := by unfold fld; omega
  have e2 : fld wd 4 3 = t.toNat := by unfold fld; omega
  have fv : bv wd 20 5 = v := bv_eq (by omega)
  have fa : bv wd 15 5 = a := bv_eq (by omega)
  have fb : bv wd 10 5 = b := bv_eq (by omega)
  have ft : bv wd 4 3 = t := bv_eq (by omega)
  have fl : bv wd 0 4 = l := bv_eq (by omega)
  simp [decodeNat, dec05, e0, e1, e2, fv, fa, fb, ft, fl, hwf]

theorem RoundTrip.br (o : BitVec 20) : RoundTrip.Statement (.br o) := by
  intro _ _
  have hf := fields_0w20 (m := 201326592) o (by decide)
  change decodeNat (put1 201326592 o 0) = _
  generalize put1 201326592 o 0 = wd at hf ⊢
  obtain ⟨e0, e1, e2, fo⟩ : fld wd 25 6 = 6 ∧ fld wd 22 3 = 0 ∧ fld wd 20 2 = 0 ∧ bv wd 0 20 = o := hf
  simp [decodeNat, dec06, e0, e1, e2, fo]

theorem RoundTrip.call (o : BitVec 20) : RoundTrip.Statement (.call o) := by
  intro _ _
  have hf := fields_0w20 (m := 202375168) o (by decide)
  change decodeNat (put1 202375168 o 0) = _
  generalize put1 202375168 o 0 = wd at hf ⊢
  obtain ⟨e0, e1, e2, fo⟩ : fld wd 25 6 = 6 ∧ fld wd 22 3 = 0 ∧ fld wd 20 2 = 1 ∧ bv wd 0 20 = o := hf
  simp [decodeNat, dec06, e0, e1, e2, fo]

theorem RoundTrip.ret : RoundTrip.Statement .ret := by
  intro _ _
  generalize hw : encodeNat .ret = wd
  replace hw : 203423744 = wd := hw
  have e0 : fld wd 25 6 = 6 := by unfold fld; omega
  have e1 : fld wd 22 3 = 0 := by unfold fld; omega
  have e2 : fld wd 20 2 = 2 := by unfold fld; omega
  have e3 : fld wd 0 20 = 0 := by unfold fld; omega
  simp [decodeNat, dec06, e0, e1, e2, e3]

theorem RoundTrip.callr : RoundTrip.Statement .callr := by
  intro _ _
  generalize hw : encodeNat .callr = wd
  replace hw : 204472320 = wd := hw
  have e0 : fld wd 25 6 = 6 := by unfold fld; omega
  have e1 : fld wd 22 3 = 0 := by unfold fld; omega
  have e2 : fld wd 20 2 = 3 := by unfold fld; omega
  have e3 : fld wd 0 20 = 0 := by unfold fld; omega
  simp [decodeNat, dec06, e0, e1, e2, e3]

theorem RoundTrip.bany (p : BitVec 3) (o : BitVec 20) : RoundTrip.Statement (.bany p o) := by
  intro _ _
  have hf := fields_22w3_0w20 (m := 234881024) p o (by decide)
  change decodeNat (put2 234881024 p 22 o 0) = _
  generalize put2 234881024 p 22 o 0 = wd at hf ⊢
  obtain ⟨e0, e1, fp, fo⟩ : fld wd 25 6 = 7 ∧ fld wd 20 2 = 0 ∧ bv wd 22 3 = p ∧ bv wd 0 20 = o := hf
  simp [decodeNat, dec07, e0, e1, fp, fo]

theorem RoundTrip.ball (p : BitVec 3) (o : BitVec 20) : RoundTrip.Statement (.ball p o) := by
  intro _ _
  have hf := fields_22w3_0w20 (m := 235929600) p o (by decide)
  change decodeNat (put2 235929600 p 22 o 0) = _
  generalize put2 235929600 p 22 o 0 = wd at hf ⊢
  obtain ⟨e0, e1, fp, fo⟩ : fld wd 25 6 = 7 ∧ fld wd 20 2 = 1 ∧ bv wd 22 3 = p ∧ bv wd 0 20 = o := hf
  simp [decodeNat, dec07, e0, e1, fp, fo]

theorem RoundTrip.bnone (p : BitVec 3) (o : BitVec 20) : RoundTrip.Statement (.bnone p o) := by
  intro _ _
  have hf := fields_22w3_0w20 (m := 236978176) p o (by decide)
  change decodeNat (put2 236978176 p 22 o 0) = _
  generalize put2 236978176 p 22 o 0 = wd at hf ⊢
  obtain ⟨e0, e1, fp, fo⟩ : fld wd 25 6 = 7 ∧ fld wd 20 2 = 2 ∧ bv wd 22 3 = p ∧ bv wd 0 20 = o := hf
  simp [decodeNat, dec07, e0, e1, fp, fo]

theorem RoundTrip.bnall (p : BitVec 3) (o : BitVec 20) : RoundTrip.Statement (.bnall p o) := by
  intro _ _
  have hf := fields_22w3_0w20 (m := 238026752) p o (by decide)
  change decodeNat (put2 238026752 p 22 o 0) = _
  generalize put2 238026752 p 22 o 0 = wd at hf ⊢
  obtain ⟨e0, e1, fp, fo⟩ : fld wd 25 6 = 7 ∧ fld wd 20 2 = 3 ∧ bv wd 22 3 = p ∧ bv wd 0 20 = o := hf
  simp [decodeNat, dec07, e0, e1, fp, fo]

theorem RoundTrip.split (p : BitVec 3) (o : BitVec 20) : RoundTrip.Statement (.split p o) := by
  intro _ _
  have hf := fields_22w3_0w20 (m := 268435456) p o (by decide)
  change decodeNat (put2 268435456 p 22 o 0) = _
  generalize put2 268435456 p 22 o 0 = wd at hf ⊢
  obtain ⟨e0, e1, fp, fo⟩ : fld wd 25 6 = 8 ∧ fld wd 20 2 = 0 ∧ bv wd 22 3 = p ∧ bv wd 0 20 = o := hf
  simp [decodeNat, dec08, e0, e1, fp, fo]

theorem RoundTrip.elseArm (o : BitVec 20) : RoundTrip.Statement (.elseArm o) := by
  intro _ _
  have hf := fields_0w20 (m := 269484032) o (by decide)
  change decodeNat (put1 269484032 o 0) = _
  generalize put1 269484032 o 0 = wd at hf ⊢
  obtain ⟨e0, e1, e2, fo⟩ : fld wd 25 6 = 8 ∧ fld wd 22 3 = 0 ∧ fld wd 20 2 = 1 ∧ bv wd 0 20 = o := hf
  simp [decodeNat, dec08, e0, e1, e2, fo]

theorem RoundTrip.join : RoundTrip.Statement .join := by
  intro _ _
  generalize hw : encodeNat .join = wd
  replace hw : 270532608 = wd := hw
  have e0 : fld wd 25 6 = 8 := by unfold fld; omega
  have e1 : fld wd 22 3 = 0 := by unfold fld; omega
  have e2 : fld wd 20 2 = 2 := by unfold fld; omega
  have e3 : fld wd 0 20 = 0 := by unfold fld; omega
  simp [decodeNat, dec08, e0, e1, e2, e3]

theorem RoundTrip.mand (p : BitVec 3) : RoundTrip.Statement (.mand p) := by
  intro _ _
  have hp := p.isLt
  generalize hw : encodeNat (.mand p) = wd
  replace hw : 271581184 + p.toNat * 2 ^ 22 = wd := hw
  have e0 : fld wd 25 6 = 8 := by unfold fld; omega
  have e1 : fld wd 20 2 = 3 := by unfold fld; omega
  have e2 : fld wd 16 4 = 0 := by unfold fld; omega
  have e3 : fld wd 0 16 = 0 := by unfold fld; omega
  have fp : bv wd 22 3 = p := bv_eq (by omega)
  simp [decodeNat, dec08, dec08m, e0, e1, e2, e3, fp]

theorem RoundTrip.mandn (p : BitVec 3) : RoundTrip.Statement (.mandn p) := by
  intro _ _
  have hp := p.isLt
  generalize hw : encodeNat (.mandn p) = wd
  replace hw : 271646720 + p.toNat * 2 ^ 22 = wd := hw
  have e0 : fld wd 25 6 = 8 := by unfold fld; omega
  have e1 : fld wd 20 2 = 3 := by unfold fld; omega
  have e2 : fld wd 16 4 = 1 := by unfold fld; omega
  have e3 : fld wd 0 16 = 0 := by unfold fld; omega
  have fp : bv wd 22 3 = p := bv_eq (by omega)
  simp [decodeNat, dec08, dec08m, e0, e1, e2, e3, fp]

theorem RoundTrip.dspop (d : BitVec 5) : RoundTrip.Statement (.dspop d) := by
  intro _ _
  have hf := fields_0w5 (m := 271712256) d (by decide)
  change decodeNat (put1 271712256 d 0) = _
  generalize put1 271712256 d 0 = wd at hf ⊢
  obtain ⟨e0, e1, e2, e3, e4, fd⟩ : fld wd 25 6 = 8 ∧ fld wd 22 3 = 0 ∧ fld wd 20 2 = 3 ∧ fld wd 16 4 = 2 ∧ fld wd 5 11 = 0 ∧ bv wd 0 5 = d := hf
  simp [decodeNat, dec08, dec08m, e0, e1, e2, e3, e4, fd]

theorem RoundTrip.dspush (a : BitVec 5) : RoundTrip.Statement (.dspush a) := by
  intro _ _
  have hf := fields_0w5 (m := 271777792) a (by decide)
  change decodeNat (put1 271777792 a 0) = _
  generalize put1 271777792 a 0 = wd at hf ⊢
  obtain ⟨e0, e1, e2, e3, e4, fa⟩ : fld wd 25 6 = 8 ∧ fld wd 22 3 = 0 ∧ fld wd 20 2 = 3 ∧ fld wd 16 4 = 3 ∧ fld wd 5 11 = 0 ∧ bv wd 0 5 = a := hf
  simp [decodeNat, dec08, dec08m, e0, e1, e2, e3, e4, fa]

theorem RoundTrip.dsdepth (d : BitVec 5) : RoundTrip.Statement (.dsdepth d) := by
  intro _ _
  have hf := fields_0w5 (m := 271843328) d (by decide)
  change decodeNat (put1 271843328 d 0) = _
  generalize put1 271843328 d 0 = wd at hf ⊢
  obtain ⟨e0, e1, e2, e3, e4, fd⟩ : fld wd 25 6 = 8 ∧ fld wd 22 3 = 0 ∧ fld wd 20 2 = 3 ∧ fld wd 16 4 = 4 ∧ fld wd 5 11 = 0 ∧ bv wd 0 5 = d := hf
  simp [decodeNat, dec08, dec08m, e0, e1, e2, e3, e4, fd]

theorem RoundTrip.dbnz (k : BitVec 3) (o : BitVec 20) : RoundTrip.Statement (.dbnz k o) := by
  intro _ _
  have hf := fields_22w3_0w20 (m := 301989888) k o (by decide)
  change decodeNat (put2 301989888 k 22 o 0) = _
  generalize put2 301989888 k 22 o 0 = wd at hf ⊢
  obtain ⟨e0, e1, fk, fo⟩ : fld wd 25 6 = 9 ∧ fld wd 20 2 = 0 ∧ bv wd 22 3 = k ∧ bv wd 0 20 = o := hf
  simp [decodeNat, dec09, e0, e1, fk, fo]

theorem RoundTrip.bz (k : BitVec 3) (o : BitVec 20) : RoundTrip.Statement (.bz k o) := by
  intro _ _
  have hf := fields_22w3_0w20 (m := 303038464) k o (by decide)
  change decodeNat (put2 303038464 k 22 o 0) = _
  generalize put2 303038464 k 22 o 0 = wd at hf ⊢
  obtain ⟨e0, e1, fk, fo⟩ : fld wd 25 6 = 9 ∧ fld wd 20 2 = 1 ∧ bv wd 22 3 = k ∧ bv wd 0 20 = o := hf
  simp [decodeNat, dec09, e0, e1, fk, fo]

theorem RoundTrip.bnz (k : BitVec 3) (o : BitVec 20) : RoundTrip.Statement (.bnz k o) := by
  intro _ _
  have hf := fields_22w3_0w20 (m := 304087040) k o (by decide)
  change decodeNat (put2 304087040 k 22 o 0) = _
  generalize put2 304087040 k 22 o 0 = wd at hf ⊢
  obtain ⟨e0, e1, fk, fo⟩ : fld wd 25 6 = 9 ∧ fld wd 20 2 = 2 ∧ bv wd 22 3 = k ∧ bv wd 0 20 = o := hf
  simp [decodeNat, dec09, e0, e1, fk, fo]

theorem RoundTrip.vaddI32 (d : BitVec 7) (a : BitVec 7) (b : BitVec 7) : RoundTrip.Statement (.vaddI32 d a b) := by
  intro _ _
  have hf := fields_18w7_11w7_4w7 (m := 335544320) d a b (by decide)
  change decodeNat (put3 335544320 d 18 a 11 b 4) = _
  generalize put3 335544320 d 18 a 11 b 4 = wd at hf ⊢
  obtain ⟨e0, e1, fd, fa, fb⟩ : fld wd 25 6 = 10 ∧ fld wd 0 4 = 0 ∧ bv wd 18 7 = d ∧ bv wd 11 7 = a ∧ bv wd 4 7 = b := hf
  simp [decodeNat, dec0A, e0, e1, fd, fa, fb]

theorem RoundTrip.vsubI32 (d : BitVec 7) (a : BitVec 7) (b : BitVec 7) : RoundTrip.Statement (.vsubI32 d a b) := by
  intro _ _
  have hf := fields_18w7_11w7_4w7 (m := 335544321) d a b (by decide)
  change decodeNat (put3 335544321 d 18 a 11 b 4) = _
  generalize put3 335544321 d 18 a 11 b 4 = wd at hf ⊢
  obtain ⟨e0, e1, fd, fa, fb⟩ : fld wd 25 6 = 10 ∧ fld wd 0 4 = 1 ∧ bv wd 18 7 = d ∧ bv wd 11 7 = a ∧ bv wd 4 7 = b := hf
  simp [decodeNat, dec0A, e0, e1, fd, fa, fb]

theorem RoundTrip.vmulI32 (d : BitVec 7) (a : BitVec 7) (b : BitVec 7) : RoundTrip.Statement (.vmulI32 d a b) := by
  intro _ _
  have hf := fields_18w7_11w7_4w7 (m := 335544322) d a b (by decide)
  change decodeNat (put3 335544322 d 18 a 11 b 4) = _
  generalize put3 335544322 d 18 a 11 b 4 = wd at hf ⊢
  obtain ⟨e0, e1, fd, fa, fb⟩ : fld wd 25 6 = 10 ∧ fld wd 0 4 = 2 ∧ bv wd 18 7 = d ∧ bv wd 11 7 = a ∧ bv wd 4 7 = b := hf
  simp [decodeNat, dec0A, e0, e1, fd, fa, fb]

theorem RoundTrip.vmulhI32 (d : BitVec 7) (a : BitVec 7) (b : BitVec 7) : RoundTrip.Statement (.vmulhI32 d a b) := by
  intro _ _
  have hf := fields_18w7_11w7_4w7 (m := 335544323) d a b (by decide)
  change decodeNat (put3 335544323 d 18 a 11 b 4) = _
  generalize put3 335544323 d 18 a 11 b 4 = wd at hf ⊢
  obtain ⟨e0, e1, fd, fa, fb⟩ : fld wd 25 6 = 10 ∧ fld wd 0 4 = 3 ∧ bv wd 18 7 = d ∧ bv wd 11 7 = a ∧ bv wd 4 7 = b := hf
  simp [decodeNat, dec0A, e0, e1, fd, fa, fb]

theorem RoundTrip.vmulhN32 (d : BitVec 7) (a : BitVec 7) (b : BitVec 7) : RoundTrip.Statement (.vmulhN32 d a b) := by
  intro _ _
  have hf := fields_18w7_11w7_4w7 (m := 335544324) d a b (by decide)
  change decodeNat (put3 335544324 d 18 a 11 b 4) = _
  generalize put3 335544324 d 18 a 11 b 4 = wd at hf ⊢
  obtain ⟨e0, e1, fd, fa, fb⟩ : fld wd 25 6 = 10 ∧ fld wd 0 4 = 4 ∧ bv wd 18 7 = d ∧ bv wd 11 7 = a ∧ bv wd 4 7 = b := hf
  simp [decodeNat, dec0A, e0, e1, fd, fa, fb]

theorem RoundTrip.vandB32 (d : BitVec 7) (a : BitVec 7) (b : BitVec 7) : RoundTrip.Statement (.vandB32 d a b) := by
  intro _ _
  have hf := fields_18w7_11w7_4w7 (m := 335544325) d a b (by decide)
  change decodeNat (put3 335544325 d 18 a 11 b 4) = _
  generalize put3 335544325 d 18 a 11 b 4 = wd at hf ⊢
  obtain ⟨e0, e1, fd, fa, fb⟩ : fld wd 25 6 = 10 ∧ fld wd 0 4 = 5 ∧ bv wd 18 7 = d ∧ bv wd 11 7 = a ∧ bv wd 4 7 = b := hf
  simp [decodeNat, dec0A, e0, e1, fd, fa, fb]

theorem RoundTrip.vorB32 (d : BitVec 7) (a : BitVec 7) (b : BitVec 7) : RoundTrip.Statement (.vorB32 d a b) := by
  intro _ _
  have hf := fields_18w7_11w7_4w7 (m := 335544326) d a b (by decide)
  change decodeNat (put3 335544326 d 18 a 11 b 4) = _
  generalize put3 335544326 d 18 a 11 b 4 = wd at hf ⊢
  obtain ⟨e0, e1, fd, fa, fb⟩ : fld wd 25 6 = 10 ∧ fld wd 0 4 = 6 ∧ bv wd 18 7 = d ∧ bv wd 11 7 = a ∧ bv wd 4 7 = b := hf
  simp [decodeNat, dec0A, e0, e1, fd, fa, fb]

theorem RoundTrip.vxorB32 (d : BitVec 7) (a : BitVec 7) (b : BitVec 7) : RoundTrip.Statement (.vxorB32 d a b) := by
  intro _ _
  have hf := fields_18w7_11w7_4w7 (m := 335544327) d a b (by decide)
  change decodeNat (put3 335544327 d 18 a 11 b 4) = _
  generalize put3 335544327 d 18 a 11 b 4 = wd at hf ⊢
  obtain ⟨e0, e1, fd, fa, fb⟩ : fld wd 25 6 = 10 ∧ fld wd 0 4 = 7 ∧ bv wd 18 7 = d ∧ bv wd 11 7 = a ∧ bv wd 4 7 = b := hf
  simp [decodeNat, dec0A, e0, e1, fd, fa, fb]

theorem RoundTrip.vandnB32 (d : BitVec 7) (a : BitVec 7) (b : BitVec 7) : RoundTrip.Statement (.vandnB32 d a b) := by
  intro _ _
  have hf := fields_18w7_11w7_4w7 (m := 335544328) d a b (by decide)
  change decodeNat (put3 335544328 d 18 a 11 b 4) = _
  generalize put3 335544328 d 18 a 11 b 4 = wd at hf ⊢
  obtain ⟨e0, e1, fd, fa, fb⟩ : fld wd 25 6 = 10 ∧ fld wd 0 4 = 8 ∧ bv wd 18 7 = d ∧ bv wd 11 7 = a ∧ bv wd 4 7 = b := hf
  simp [decodeNat, dec0A, e0, e1, fd, fa, fb]

theorem RoundTrip.vshlB32 (d : BitVec 7) (a : BitVec 7) (b : BitVec 7) : RoundTrip.Statement (.vshlB32 d a b) := by
  intro _ _
  have hf := fields_18w7_11w7_4w7 (m := 335544329) d a b (by decide)
  change decodeNat (put3 335544329 d 18 a 11 b 4) = _
  generalize put3 335544329 d 18 a 11 b 4 = wd at hf ⊢
  obtain ⟨e0, e1, fd, fa, fb⟩ : fld wd 25 6 = 10 ∧ fld wd 0 4 = 9 ∧ bv wd 18 7 = d ∧ bv wd 11 7 = a ∧ bv wd 4 7 = b := hf
  simp [decodeNat, dec0A, e0, e1, fd, fa, fb]

theorem RoundTrip.vshrN32 (d : BitVec 7) (a : BitVec 7) (b : BitVec 7) : RoundTrip.Statement (.vshrN32 d a b) := by
  intro _ _
  have hf := fields_18w7_11w7_4w7 (m := 335544330) d a b (by decide)
  change decodeNat (put3 335544330 d 18 a 11 b 4) = _
  generalize put3 335544330 d 18 a 11 b 4 = wd at hf ⊢
  obtain ⟨e0, e1, fd, fa, fb⟩ : fld wd 25 6 = 10 ∧ fld wd 0 4 = 10 ∧ bv wd 18 7 = d ∧ bv wd 11 7 = a ∧ bv wd 4 7 = b := hf
  simp [decodeNat, dec0A, e0, e1, fd, fa, fb]

theorem RoundTrip.vshrI32 (d : BitVec 7) (a : BitVec 7) (b : BitVec 7) : RoundTrip.Statement (.vshrI32 d a b) := by
  intro _ _
  have hf := fields_18w7_11w7_4w7 (m := 335544331) d a b (by decide)
  change decodeNat (put3 335544331 d 18 a 11 b 4) = _
  generalize put3 335544331 d 18 a 11 b 4 = wd at hf ⊢
  obtain ⟨e0, e1, fd, fa, fb⟩ : fld wd 25 6 = 10 ∧ fld wd 0 4 = 11 ∧ bv wd 18 7 = d ∧ bv wd 11 7 = a ∧ bv wd 4 7 = b := hf
  simp [decodeNat, dec0A, e0, e1, fd, fa, fb]

theorem RoundTrip.vminI32 (d : BitVec 7) (a : BitVec 7) (b : BitVec 7) : RoundTrip.Statement (.vminI32 d a b) := by
  intro _ _
  have hf := fields_18w7_11w7_4w7 (m := 335544332) d a b (by decide)
  change decodeNat (put3 335544332 d 18 a 11 b 4) = _
  generalize put3 335544332 d 18 a 11 b 4 = wd at hf ⊢
  obtain ⟨e0, e1, fd, fa, fb⟩ : fld wd 25 6 = 10 ∧ fld wd 0 4 = 12 ∧ bv wd 18 7 = d ∧ bv wd 11 7 = a ∧ bv wd 4 7 = b := hf
  simp [decodeNat, dec0A, e0, e1, fd, fa, fb]

theorem RoundTrip.vmaxI32 (d : BitVec 7) (a : BitVec 7) (b : BitVec 7) : RoundTrip.Statement (.vmaxI32 d a b) := by
  intro _ _
  have hf := fields_18w7_11w7_4w7 (m := 335544333) d a b (by decide)
  change decodeNat (put3 335544333 d 18 a 11 b 4) = _
  generalize put3 335544333 d 18 a 11 b 4 = wd at hf ⊢
  obtain ⟨e0, e1, fd, fa, fb⟩ : fld wd 25 6 = 10 ∧ fld wd 0 4 = 13 ∧ bv wd 18 7 = d ∧ bv wd 11 7 = a ∧ bv wd 4 7 = b := hf
  simp [decodeNat, dec0A, e0, e1, fd, fa, fb]

theorem RoundTrip.vminN32 (d : BitVec 7) (a : BitVec 7) (b : BitVec 7) : RoundTrip.Statement (.vminN32 d a b) := by
  intro _ _
  have hf := fields_18w7_11w7_4w7 (m := 335544334) d a b (by decide)
  change decodeNat (put3 335544334 d 18 a 11 b 4) = _
  generalize put3 335544334 d 18 a 11 b 4 = wd at hf ⊢
  obtain ⟨e0, e1, fd, fa, fb⟩ : fld wd 25 6 = 10 ∧ fld wd 0 4 = 14 ∧ bv wd 18 7 = d ∧ bv wd 11 7 = a ∧ bv wd 4 7 = b := hf
  simp [decodeNat, dec0A, e0, e1, fd, fa, fb]

theorem RoundTrip.vmaxN32 (d : BitVec 7) (a : BitVec 7) (b : BitVec 7) : RoundTrip.Statement (.vmaxN32 d a b) := by
  intro _ _
  have hf := fields_18w7_11w7_4w7 (m := 335544335) d a b (by decide)
  change decodeNat (put3 335544335 d 18 a 11 b 4) = _
  generalize put3 335544335 d 18 a 11 b 4 = wd at hf ⊢
  obtain ⟨e0, e1, fd, fa, fb⟩ : fld wd 25 6 = 10 ∧ fld wd 0 4 = 15 ∧ bv wd 18 7 = d ∧ bv wd 11 7 = a ∧ bv wd 4 7 = b := hf
  simp [decodeNat, dec0A, e0, e1, fd, fa, fb]

theorem RoundTrip.vaddsI32 (d : BitVec 7) (a : BitVec 7) (b : BitVec 7) : RoundTrip.Statement (.vaddsI32 d a b) := by
  intro _ _
  have hf := fields_18w7_11w7_4w7 (m := 369098752) d a b (by decide)
  change decodeNat (put3 369098752 d 18 a 11 b 4) = _
  generalize put3 369098752 d 18 a 11 b 4 = wd at hf ⊢
  obtain ⟨e0, e1, fd, fa, fb⟩ : fld wd 25 6 = 11 ∧ fld wd 0 4 = 0 ∧ bv wd 18 7 = d ∧ bv wd 11 7 = a ∧ bv wd 4 7 = b := hf
  simp [decodeNat, dec0B, e0, e1, fd, fa, fb]

theorem RoundTrip.vaddsN32 (d : BitVec 7) (a : BitVec 7) (b : BitVec 7) : RoundTrip.Statement (.vaddsN32 d a b) := by
  intro _ _
  have hf := fields_18w7_11w7_4w7 (m := 369098753) d a b (by decide)
  change decodeNat (put3 369098753 d 18 a 11 b 4) = _
  generalize put3 369098753 d 18 a 11 b 4 = wd at hf ⊢
  obtain ⟨e0, e1, fd, fa, fb⟩ : fld wd 25 6 = 11 ∧ fld wd 0 4 = 1 ∧ bv wd 18 7 = d ∧ bv wd 11 7 = a ∧ bv wd 4 7 = b := hf
  simp [decodeNat, dec0B, e0, e1, fd, fa, fb]

theorem RoundTrip.vsubsI32 (d : BitVec 7) (a : BitVec 7) (b : BitVec 7) : RoundTrip.Statement (.vsubsI32 d a b) := by
  intro _ _
  have hf := fields_18w7_11w7_4w7 (m := 369098754) d a b (by decide)
  change decodeNat (put3 369098754 d 18 a 11 b 4) = _
  generalize put3 369098754 d 18 a 11 b 4 = wd at hf ⊢
  obtain ⟨e0, e1, fd, fa, fb⟩ : fld wd 25 6 = 11 ∧ fld wd 0 4 = 2 ∧ bv wd 18 7 = d ∧ bv wd 11 7 = a ∧ bv wd 4 7 = b := hf
  simp [decodeNat, dec0B, e0, e1, fd, fa, fb]

theorem RoundTrip.vsubsN32 (d : BitVec 7) (a : BitVec 7) (b : BitVec 7) : RoundTrip.Statement (.vsubsN32 d a b) := by
  intro _ _
  have hf := fields_18w7_11w7_4w7 (m := 369098755) d a b (by decide)
  change decodeNat (put3 369098755 d 18 a 11 b 4) = _
  generalize put3 369098755 d 18 a 11 b 4 = wd at hf ⊢
  obtain ⟨e0, e1, fd, fa, fb⟩ : fld wd 25 6 = 11 ∧ fld wd 0 4 = 3 ∧ bv wd 18 7 = d ∧ bv wd 11 7 = a ∧ bv wd 4 7 = b := hf
  simp [decodeNat, dec0B, e0, e1, fd, fa, fb]

theorem RoundTrip.vabsI32 (d : BitVec 7) (a : BitVec 7) : RoundTrip.Statement (.vabsI32 d a) := by
  intro _ _
  have hf := fields_18w7_11w7 (m := 369098756) d a (by decide)
  change decodeNat (put2 369098756 d 18 a 11) = _
  generalize put2 369098756 d 18 a 11 = wd at hf ⊢
  obtain ⟨e0, e1, e2, fd, fa⟩ : fld wd 25 6 = 11 ∧ fld wd 4 7 = 0 ∧ fld wd 0 4 = 4 ∧ bv wd 18 7 = d ∧ bv wd 11 7 = a := hf
  simp [decodeNat, dec0B, e0, e1, e2, fd, fa]

theorem RoundTrip.vnegI32 (d : BitVec 7) (a : BitVec 7) : RoundTrip.Statement (.vnegI32 d a) := by
  intro _ _
  have hf := fields_18w7_11w7 (m := 369098757) d a (by decide)
  change decodeNat (put2 369098757 d 18 a 11) = _
  generalize put2 369098757 d 18 a 11 = wd at hf ⊢
  obtain ⟨e0, e1, e2, fd, fa⟩ : fld wd 25 6 = 11 ∧ fld wd 4 7 = 0 ∧ fld wd 0 4 = 5 ∧ bv wd 18 7 = d ∧ bv wd 11 7 = a := hf
  simp [decodeNat, dec0B, e0, e1, e2, fd, fa]

theorem RoundTrip.vpopcB32 (d : BitVec 7) (a : BitVec 7) : RoundTrip.Statement (.vpopcB32 d a) := by
  intro _ _
  have hf := fields_18w7_11w7 (m := 369098758) d a (by decide)
  change decodeNat (put2 369098758 d 18 a 11) = _
  generalize put2 369098758 d 18 a 11 = wd at hf ⊢
  obtain ⟨e0, e1, e2, fd, fa⟩ : fld wd 25 6 = 11 ∧ fld wd 4 7 = 0 ∧ fld wd 0 4 = 6 ∧ bv wd 18 7 = d ∧ bv wd 11 7 = a := hf
  simp [decodeNat, dec0B, e0, e1, e2, fd, fa]

theorem RoundTrip.vclzB32 (d : BitVec 7) (a : BitVec 7) : RoundTrip.Statement (.vclzB32 d a) := by
  intro _ _
  have hf := fields_18w7_11w7 (m := 369098759) d a (by decide)
  change decodeNat (put2 369098759 d 18 a 11) = _
  generalize put2 369098759 d 18 a 11 = wd at hf ⊢
  obtain ⟨e0, e1, e2, fd, fa⟩ : fld wd 25 6 = 11 ∧ fld wd 4 7 = 0 ∧ fld wd 0 4 = 7 ∧ bv wd 18 7 = d ∧ bv wd 11 7 = a := hf
  simp [decodeNat, dec0B, e0, e1, e2, fd, fa]

theorem RoundTrip.vbrevB32 (d : BitVec 7) (a : BitVec 7) : RoundTrip.Statement (.vbrevB32 d a) := by
  intro _ _
  have hf := fields_18w7_11w7 (m := 369098760) d a (by decide)
  change decodeNat (put2 369098760 d 18 a 11) = _
  generalize put2 369098760 d 18 a 11 = wd at hf ⊢
  obtain ⟨e0, e1, e2, fd, fa⟩ : fld wd 25 6 = 11 ∧ fld wd 4 7 = 0 ∧ fld wd 0 4 = 8 ∧ bv wd 18 7 = d ∧ bv wd 11 7 = a := hf
  simp [decodeNat, dec0B, e0, e1, e2, fd, fa]

theorem RoundTrip.vmadI32 (d : BitVec 7) (a : BitVec 7) (b : BitVec 7) : RoundTrip.Statement (.vmadI32 d a b) := by
  intro _ _
  have hf := fields_18w7_11w7_4w7 (m := 369098761) d a b (by decide)
  change decodeNat (put3 369098761 d 18 a 11 b 4) = _
  generalize put3 369098761 d 18 a 11 b 4 = wd at hf ⊢
  obtain ⟨e0, e1, fd, fa, fb⟩ : fld wd 25 6 = 11 ∧ fld wd 0 4 = 9 ∧ bv wd 18 7 = d ∧ bv wd 11 7 = a ∧ bv wd 4 7 = b := hf
  simp [decodeNat, dec0B, e0, e1, fd, fa, fb]

theorem RoundTrip.vabsdN32 (d : BitVec 7) (a : BitVec 7) (b : BitVec 7) : RoundTrip.Statement (.vabsdN32 d a b) := by
  intro _ _
  have hf := fields_18w7_11w7_4w7 (m := 369098762) d a b (by decide)
  change decodeNat (put3 369098762 d 18 a 11 b 4) = _
  generalize put3 369098762 d 18 a 11 b 4 = wd at hf ⊢
  obtain ⟨e0, e1, fd, fa, fb⟩ : fld wd 25 6 = 11 ∧ fld wd 0 4 = 10 ∧ bv wd 18 7 = d ∧ bv wd 11 7 = a ∧ bv wd 4 7 = b := hf
  simp [decodeNat, dec0B, e0, e1, fd, fa, fb]

theorem RoundTrip.vabsdI32 (d : BitVec 7) (a : BitVec 7) (b : BitVec 7) : RoundTrip.Statement (.vabsdI32 d a b) := by
  intro _ _
  have hf := fields_18w7_11w7_4w7 (m := 369098763) d a b (by decide)
  change decodeNat (put3 369098763 d 18 a 11 b 4) = _
  generalize put3 369098763 d 18 a 11 b 4 = wd at hf ⊢
  obtain ⟨e0, e1, fd, fa, fb⟩ : fld wd 25 6 = 11 ∧ fld wd 0 4 = 11 ∧ bv wd 18 7 = d ∧ bv wd 11 7 = a ∧ bv wd 4 7 = b := hf
  simp [decodeNat, dec0B, e0, e1, fd, fa, fb]

theorem RoundTrip.vavgN32 (d : BitVec 7) (a : BitVec 7) (b : BitVec 7) : RoundTrip.Statement (.vavgN32 d a b) := by
  intro _ _
  have hf := fields_18w7_11w7_4w7 (m := 369098764) d a b (by decide)
  change decodeNat (put3 369098764 d 18 a 11 b 4) = _
  generalize put3 369098764 d 18 a 11 b 4 = wd at hf ⊢
  obtain ⟨e0, e1, fd, fa, fb⟩ : fld wd 25 6 = 11 ∧ fld wd 0 4 = 12 ∧ bv wd 18 7 = d ∧ bv wd 11 7 = a ∧ bv wd 4 7 = b := hf
  simp [decodeNat, dec0B, e0, e1, fd, fa, fb]

theorem RoundTrip.vrotB32 (d : BitVec 7) (a : BitVec 7) (b : BitVec 7) : RoundTrip.Statement (.vrotB32 d a b) := by
  intro _ _
  have hf := fields_18w7_11w7_4w7 (m := 369098765) d a b (by decide)
  change decodeNat (put3 369098765 d 18 a 11 b 4) = _
  generalize put3 369098765 d 18 a 11 b 4 = wd at hf ⊢
  obtain ⟨e0, e1, fd, fa, fb⟩ : fld wd 25 6 = 11 ∧ fld wd 0 4 = 13 ∧ bv wd 18 7 = d ∧ bv wd 11 7 = a ∧ bv wd 4 7 = b := hf
  simp [decodeNat, dec0B, e0, e1, fd, fa, fb]

theorem RoundTrip.vdot4I8 (d : BitVec 7) (a : BitVec 7) (b : BitVec 7) : RoundTrip.Statement (.vdot4I8 d a b) := by
  intro _ _
  have hf := fields_18w7_11w7_4w7 (m := 369098766) d a b (by decide)
  change decodeNat (put3 369098766 d 18 a 11 b 4) = _
  generalize put3 369098766 d 18 a 11 b 4 = wd at hf ⊢
  obtain ⟨e0, e1, fd, fa, fb⟩ : fld wd 25 6 = 11 ∧ fld wd 0 4 = 14 ∧ bv wd 18 7 = d ∧ bv wd 11 7 = a ∧ bv wd 4 7 = b := hf
  simp [decodeNat, dec0B, e0, e1, fd, fa, fb]

theorem RoundTrip.vdot4N8 (d : BitVec 7) (a : BitVec 7) (b : BitVec 7) : RoundTrip.Statement (.vdot4N8 d a b) := by
  intro _ _
  have hf := fields_18w7_11w7_4w7 (m := 369098767) d a b (by decide)
  change decodeNat (put3 369098767 d 18 a 11 b 4) = _
  generalize put3 369098767 d 18 a 11 b 4 = wd at hf ⊢
  obtain ⟨e0, e1, fd, fa, fb⟩ : fld wd 25 6 = 11 ∧ fld wd 0 4 = 15 ∧ bv wd 18 7 = d ∧ bv wd 11 7 = a ∧ bv wd 4 7 = b := hf
  simp [decodeNat, dec0B, e0, e1, fd, fa, fb]

theorem RoundTrip.vaddB16 (d : BitVec 7) (a : BitVec 7) (b : BitVec 7) : RoundTrip.Statement (.vaddB16 d a b) := by
  intro _ _
  have hf := fields_18w7_11w7_4w7 (m := 402653184) d a b (by decide)
  change decodeNat (put3 402653184 d 18 a 11 b 4) = _
  generalize put3 402653184 d 18 a 11 b 4 = wd at hf ⊢
  obtain ⟨e0, e1, fd, fa, fb⟩ : fld wd 25 6 = 12 ∧ fld wd 0 4 = 0 ∧ bv wd 18 7 = d ∧ bv wd 11 7 = a ∧ bv wd 4 7 = b := hf
  simp [decodeNat, dec0C, e0, e1, fd, fa, fb]

theorem RoundTrip.vsubB16 (d : BitVec 7) (a : BitVec 7) (b : BitVec 7) : RoundTrip.Statement (.vsubB16 d a b) := by
  intro _ _
  have hf := fields_18w7_11w7_4w7 (m := 402653185) d a b (by decide)
  change decodeNat (put3 402653185 d 18 a 11 b 4) = _
  generalize put3 402653185 d 18 a 11 b 4 = wd at hf ⊢
  obtain ⟨e0, e1, fd, fa, fb⟩ : fld wd 25 6 = 12 ∧ fld wd 0 4 = 1 ∧ bv wd 18 7 = d ∧ bv wd 11 7 = a ∧ bv wd 4 7 = b := hf
  simp [decodeNat, dec0C, e0, e1, fd, fa, fb]

theorem RoundTrip.vaddsI16 (d : BitVec 7) (a : BitVec 7) (b : BitVec 7) : RoundTrip.Statement (.vaddsI16 d a b) := by
  intro _ _
  have hf := fields_18w7_11w7_4w7 (m := 402653186) d a b (by decide)
  change decodeNat (put3 402653186 d 18 a 11 b 4) = _
  generalize put3 402653186 d 18 a 11 b 4 = wd at hf ⊢
  obtain ⟨e0, e1, fd, fa, fb⟩ : fld wd 25 6 = 12 ∧ fld wd 0 4 = 2 ∧ bv wd 18 7 = d ∧ bv wd 11 7 = a ∧ bv wd 4 7 = b := hf
  simp [decodeNat, dec0C, e0, e1, fd, fa, fb]

theorem RoundTrip.vaddsN16 (d : BitVec 7) (a : BitVec 7) (b : BitVec 7) : RoundTrip.Statement (.vaddsN16 d a b) := by
  intro _ _
  have hf := fields_18w7_11w7_4w7 (m := 402653187) d a b (by decide)
  change decodeNat (put3 402653187 d 18 a 11 b 4) = _
  generalize put3 402653187 d 18 a 11 b 4 = wd at hf ⊢
  obtain ⟨e0, e1, fd, fa, fb⟩ : fld wd 25 6 = 12 ∧ fld wd 0 4 = 3 ∧ bv wd 18 7 = d ∧ bv wd 11 7 = a ∧ bv wd 4 7 = b := hf
  simp [decodeNat, dec0C, e0, e1, fd, fa, fb]

theorem RoundTrip.vaddB8 (d : BitVec 7) (a : BitVec 7) (b : BitVec 7) : RoundTrip.Statement (.vaddB8 d a b) := by
  intro _ _
  have hf := fields_18w7_11w7_4w7 (m := 402653188) d a b (by decide)
  change decodeNat (put3 402653188 d 18 a 11 b 4) = _
  generalize put3 402653188 d 18 a 11 b 4 = wd at hf ⊢
  obtain ⟨e0, e1, fd, fa, fb⟩ : fld wd 25 6 = 12 ∧ fld wd 0 4 = 4 ∧ bv wd 18 7 = d ∧ bv wd 11 7 = a ∧ bv wd 4 7 = b := hf
  simp [decodeNat, dec0C, e0, e1, fd, fa, fb]

theorem RoundTrip.vsubB8 (d : BitVec 7) (a : BitVec 7) (b : BitVec 7) : RoundTrip.Statement (.vsubB8 d a b) := by
  intro _ _
  have hf := fields_18w7_11w7_4w7 (m := 402653189) d a b (by decide)
  change decodeNat (put3 402653189 d 18 a 11 b 4) = _
  generalize put3 402653189 d 18 a 11 b 4 = wd at hf ⊢
  obtain ⟨e0, e1, fd, fa, fb⟩ : fld wd 25 6 = 12 ∧ fld wd 0 4 = 5 ∧ bv wd 18 7 = d ∧ bv wd 11 7 = a ∧ bv wd 4 7 = b := hf
  simp [decodeNat, dec0C, e0, e1, fd, fa, fb]

theorem RoundTrip.vaddsI8 (d : BitVec 7) (a : BitVec 7) (b : BitVec 7) : RoundTrip.Statement (.vaddsI8 d a b) := by
  intro _ _
  have hf := fields_18w7_11w7_4w7 (m := 402653190) d a b (by decide)
  change decodeNat (put3 402653190 d 18 a 11 b 4) = _
  generalize put3 402653190 d 18 a 11 b 4 = wd at hf ⊢
  obtain ⟨e0, e1, fd, fa, fb⟩ : fld wd 25 6 = 12 ∧ fld wd 0 4 = 6 ∧ bv wd 18 7 = d ∧ bv wd 11 7 = a ∧ bv wd 4 7 = b := hf
  simp [decodeNat, dec0C, e0, e1, fd, fa, fb]

theorem RoundTrip.vaddsN8 (d : BitVec 7) (a : BitVec 7) (b : BitVec 7) : RoundTrip.Statement (.vaddsN8 d a b) := by
  intro _ _
  have hf := fields_18w7_11w7_4w7 (m := 402653191) d a b (by decide)
  change decodeNat (put3 402653191 d 18 a 11 b 4) = _
  generalize put3 402653191 d 18 a 11 b 4 = wd at hf ⊢
  obtain ⟨e0, e1, fd, fa, fb⟩ : fld wd 25 6 = 12 ∧ fld wd 0 4 = 7 ∧ bv wd 18 7 = d ∧ bv wd 11 7 = a ∧ bv wd 4 7 = b := hf
  simp [decodeNat, dec0C, e0, e1, fd, fa, fb]

theorem RoundTrip.vminI16 (d : BitVec 7) (a : BitVec 7) (b : BitVec 7) : RoundTrip.Statement (.vminI16 d a b) := by
  intro _ _
  have hf := fields_18w7_11w7_4w7 (m := 402653192) d a b (by decide)
  change decodeNat (put3 402653192 d 18 a 11 b 4) = _
  generalize put3 402653192 d 18 a 11 b 4 = wd at hf ⊢
  obtain ⟨e0, e1, fd, fa, fb⟩ : fld wd 25 6 = 12 ∧ fld wd 0 4 = 8 ∧ bv wd 18 7 = d ∧ bv wd 11 7 = a ∧ bv wd 4 7 = b := hf
  simp [decodeNat, dec0C, e0, e1, fd, fa, fb]

theorem RoundTrip.vmaxI16 (d : BitVec 7) (a : BitVec 7) (b : BitVec 7) : RoundTrip.Statement (.vmaxI16 d a b) := by
  intro _ _
  have hf := fields_18w7_11w7_4w7 (m := 402653193) d a b (by decide)
  change decodeNat (put3 402653193 d 18 a 11 b 4) = _
  generalize put3 402653193 d 18 a 11 b 4 = wd at hf ⊢
  obtain ⟨e0, e1, fd, fa, fb⟩ : fld wd 25 6 = 12 ∧ fld wd 0 4 = 9 ∧ bv wd 18 7 = d ∧ bv wd 11 7 = a ∧ bv wd 4 7 = b := hf
  simp [decodeNat, dec0C, e0, e1, fd, fa, fb]

theorem RoundTrip.vminN8 (d : BitVec 7) (a : BitVec 7) (b : BitVec 7) : RoundTrip.Statement (.vminN8 d a b) := by
  intro _ _
  have hf := fields_18w7_11w7_4w7 (m := 402653194) d a b (by decide)
  change decodeNat (put3 402653194 d 18 a 11 b 4) = _
  generalize put3 402653194 d 18 a 11 b 4 = wd at hf ⊢
  obtain ⟨e0, e1, fd, fa, fb⟩ : fld wd 25 6 = 12 ∧ fld wd 0 4 = 10 ∧ bv wd 18 7 = d ∧ bv wd 11 7 = a ∧ bv wd 4 7 = b := hf
  simp [decodeNat, dec0C, e0, e1, fd, fa, fb]

theorem RoundTrip.vmaxN8 (d : BitVec 7) (a : BitVec 7) (b : BitVec 7) : RoundTrip.Statement (.vmaxN8 d a b) := by
  intro _ _
  have hf := fields_18w7_11w7_4w7 (m := 402653195) d a b (by decide)
  change decodeNat (put3 402653195 d 18 a 11 b 4) = _
  generalize put3 402653195 d 18 a 11 b 4 = wd at hf ⊢
  obtain ⟨e0, e1, fd, fa, fb⟩ : fld wd 25 6 = 12 ∧ fld wd 0 4 = 11 ∧ bv wd 18 7 = d ∧ bv wd 11 7 = a ∧ bv wd 4 7 = b := hf
  simp [decodeNat, dec0C, e0, e1, fd, fa, fb]

theorem RoundTrip.vpermB8 (d : BitVec 7) (a : BitVec 7) (b : BitVec 7) : RoundTrip.Statement (.vpermB8 d a b) := by
  intro _ _
  have hf := fields_18w7_11w7_4w7 (m := 402653196) d a b (by decide)
  change decodeNat (put3 402653196 d 18 a 11 b 4) = _
  generalize put3 402653196 d 18 a 11 b 4 = wd at hf ⊢
  obtain ⟨e0, e1, fd, fa, fb⟩ : fld wd 25 6 = 12 ∧ fld wd 0 4 = 12 ∧ bv wd 18 7 = d ∧ bv wd 11 7 = a ∧ bv wd 4 7 = b := hf
  simp [decodeNat, dec0C, e0, e1, fd, fa, fb]

theorem RoundTrip.vshlB16 (d : BitVec 7) (a : BitVec 7) (b : BitVec 7) : RoundTrip.Statement (.vshlB16 d a b) := by
  intro _ _
  have hf := fields_18w7_11w7_4w7 (m := 402653197) d a b (by decide)
  change decodeNat (put3 402653197 d 18 a 11 b 4) = _
  generalize put3 402653197 d 18 a 11 b 4 = wd at hf ⊢
  obtain ⟨e0, e1, fd, fa, fb⟩ : fld wd 25 6 = 12 ∧ fld wd 0 4 = 13 ∧ bv wd 18 7 = d ∧ bv wd 11 7 = a ∧ bv wd 4 7 = b := hf
  simp [decodeNat, dec0C, e0, e1, fd, fa, fb]

theorem RoundTrip.vshrN16 (d : BitVec 7) (a : BitVec 7) (b : BitVec 7) : RoundTrip.Statement (.vshrN16 d a b) := by
  intro _ _
  have hf := fields_18w7_11w7_4w7 (m := 402653198) d a b (by decide)
  change decodeNat (put3 402653198 d 18 a 11 b 4) = _
  generalize put3 402653198 d 18 a 11 b 4 = wd at hf ⊢
  obtain ⟨e0, e1, fd, fa, fb⟩ : fld wd 25 6 = 12 ∧ fld wd 0 4 = 14 ∧ bv wd 18 7 = d ∧ bv wd 11 7 = a ∧ bv wd 4 7 = b := hf
  simp [decodeNat, dec0C, e0, e1, fd, fa, fb]

theorem RoundTrip.vshrI16 (d : BitVec 7) (a : BitVec 7) (b : BitVec 7) : RoundTrip.Statement (.vshrI16 d a b) := by
  intro _ _
  have hf := fields_18w7_11w7_4w7 (m := 402653199) d a b (by decide)
  change decodeNat (put3 402653199 d 18 a 11 b 4) = _
  generalize put3 402653199 d 18 a 11 b 4 = wd at hf ⊢
  obtain ⟨e0, e1, fd, fa, fb⟩ : fld wd 25 6 = 12 ∧ fld wd 0 4 = 15 ∧ bv wd 18 7 = d ∧ bv wd 11 7 = a ∧ bv wd 4 7 = b := hf
  simp [decodeNat, dec0C, e0, e1, fd, fa, fb]

theorem RoundTrip.vaddF32 (d : BitVec 7) (a : BitVec 7) (b : BitVec 7) : RoundTrip.Statement (.vaddF32 d a b) := by
  intro _ _
  have hf := fields_18w7_11w7_4w7 (m := 436207616) d a b (by decide)
  change decodeNat (put3 436207616 d 18 a 11 b 4) = _
  generalize put3 436207616 d 18 a 11 b 4 = wd at hf ⊢
  obtain ⟨e0, e1, fd, fa, fb⟩ : fld wd 25 6 = 13 ∧ fld wd 0 4 = 0 ∧ bv wd 18 7 = d ∧ bv wd 11 7 = a ∧ bv wd 4 7 = b := hf
  simp [decodeNat, dec0D, e0, e1, fd, fa, fb]

theorem RoundTrip.vsubF32 (d : BitVec 7) (a : BitVec 7) (b : BitVec 7) : RoundTrip.Statement (.vsubF32 d a b) := by
  intro _ _
  have hf := fields_18w7_11w7_4w7 (m := 436207617) d a b (by decide)
  change decodeNat (put3 436207617 d 18 a 11 b 4) = _
  generalize put3 436207617 d 18 a 11 b 4 = wd at hf ⊢
  obtain ⟨e0, e1, fd, fa, fb⟩ : fld wd 25 6 = 13 ∧ fld wd 0 4 = 1 ∧ bv wd 18 7 = d ∧ bv wd 11 7 = a ∧ bv wd 4 7 = b := hf
  simp [decodeNat, dec0D, e0, e1, fd, fa, fb]

theorem RoundTrip.vmulF32 (d : BitVec 7) (a : BitVec 7) (b : BitVec 7) : RoundTrip.Statement (.vmulF32 d a b) := by
  intro _ _
  have hf := fields_18w7_11w7_4w7 (m := 436207618) d a b (by decide)
  change decodeNat (put3 436207618 d 18 a 11 b 4) = _
  generalize put3 436207618 d 18 a 11 b 4 = wd at hf ⊢
  obtain ⟨e0, e1, fd, fa, fb⟩ : fld wd 25 6 = 13 ∧ fld wd 0 4 = 2 ∧ bv wd 18 7 = d ∧ bv wd 11 7 = a ∧ bv wd 4 7 = b := hf
  simp [decodeNat, dec0D, e0, e1, fd, fa, fb]

theorem RoundTrip.vfmaF32 (d : BitVec 7) (a : BitVec 7) (b : BitVec 7) : RoundTrip.Statement (.vfmaF32 d a b) := by
  intro _ _
  have hf := fields_18w7_11w7_4w7 (m := 436207619) d a b (by decide)
  change decodeNat (put3 436207619 d 18 a 11 b 4) = _
  generalize put3 436207619 d 18 a 11 b 4 = wd at hf ⊢
  obtain ⟨e0, e1, fd, fa, fb⟩ : fld wd 25 6 = 13 ∧ fld wd 0 4 = 3 ∧ bv wd 18 7 = d ∧ bv wd 11 7 = a ∧ bv wd 4 7 = b := hf
  simp [decodeNat, dec0D, e0, e1, fd, fa, fb]

theorem RoundTrip.vfmsF32 (d : BitVec 7) (a : BitVec 7) (b : BitVec 7) : RoundTrip.Statement (.vfmsF32 d a b) := by
  intro _ _
  have hf := fields_18w7_11w7_4w7 (m := 436207620) d a b (by decide)
  change decodeNat (put3 436207620 d 18 a 11 b 4) = _
  generalize put3 436207620 d 18 a 11 b 4 = wd at hf ⊢
  obtain ⟨e0, e1, fd, fa, fb⟩ : fld wd 25 6 = 13 ∧ fld wd 0 4 = 4 ∧ bv wd 18 7 = d ∧ bv wd 11 7 = a ∧ bv wd 4 7 = b := hf
  simp [decodeNat, dec0D, e0, e1, fd, fa, fb]

theorem RoundTrip.vminF32 (d : BitVec 7) (a : BitVec 7) (b : BitVec 7) : RoundTrip.Statement (.vminF32 d a b) := by
  intro _ _
  have hf := fields_18w7_11w7_4w7 (m := 436207621) d a b (by decide)
  change decodeNat (put3 436207621 d 18 a 11 b 4) = _
  generalize put3 436207621 d 18 a 11 b 4 = wd at hf ⊢
  obtain ⟨e0, e1, fd, fa, fb⟩ : fld wd 25 6 = 13 ∧ fld wd 0 4 = 5 ∧ bv wd 18 7 = d ∧ bv wd 11 7 = a ∧ bv wd 4 7 = b := hf
  simp [decodeNat, dec0D, e0, e1, fd, fa, fb]

theorem RoundTrip.vmaxF32 (d : BitVec 7) (a : BitVec 7) (b : BitVec 7) : RoundTrip.Statement (.vmaxF32 d a b) := by
  intro _ _
  have hf := fields_18w7_11w7_4w7 (m := 436207622) d a b (by decide)
  change decodeNat (put3 436207622 d 18 a 11 b 4) = _
  generalize put3 436207622 d 18 a 11 b 4 = wd at hf ⊢
  obtain ⟨e0, e1, fd, fa, fb⟩ : fld wd 25 6 = 13 ∧ fld wd 0 4 = 6 ∧ bv wd 18 7 = d ∧ bv wd 11 7 = a ∧ bv wd 4 7 = b := hf
  simp [decodeNat, dec0D, e0, e1, fd, fa, fb]

theorem RoundTrip.vabsF32 (d : BitVec 7) (a : BitVec 7) : RoundTrip.Statement (.vabsF32 d a) := by
  intro _ _
  have hf := fields_18w7_11w7 (m := 436207623) d a (by decide)
  change decodeNat (put2 436207623 d 18 a 11) = _
  generalize put2 436207623 d 18 a 11 = wd at hf ⊢
  obtain ⟨e0, e1, e2, fd, fa⟩ : fld wd 25 6 = 13 ∧ fld wd 4 7 = 0 ∧ fld wd 0 4 = 7 ∧ bv wd 18 7 = d ∧ bv wd 11 7 = a := hf
  simp [decodeNat, dec0D, e0, e1, e2, fd, fa]

theorem RoundTrip.vnegF32 (d : BitVec 7) (a : BitVec 7) : RoundTrip.Statement (.vnegF32 d a) := by
  intro _ _
  have hf := fields_18w7_11w7 (m := 436207624) d a (by decide)
  change decodeNat (put2 436207624 d 18 a 11) = _
  generalize put2 436207624 d 18 a 11 = wd at hf ⊢
  obtain ⟨e0, e1, e2, fd, fa⟩ : fld wd 25 6 = 13 ∧ fld wd 4 7 = 0 ∧ fld wd 0 4 = 8 ∧ bv wd 18 7 = d ∧ bv wd 11 7 = a := hf
  simp [decodeNat, dec0D, e0, e1, e2, fd, fa]

theorem RoundTrip.vdivF32 (d : BitVec 7) (a : BitVec 7) (b : BitVec 7) : RoundTrip.Statement (.vdivF32 d a b) := by
  intro _ _
  have hf := fields_18w7_11w7_4w7 (m := 436207625) d a b (by decide)
  change decodeNat (put3 436207625 d 18 a 11 b 4) = _
  generalize put3 436207625 d 18 a 11 b 4 = wd at hf ⊢
  obtain ⟨e0, e1, fd, fa, fb⟩ : fld wd 25 6 = 13 ∧ fld wd 0 4 = 9 ∧ bv wd 18 7 = d ∧ bv wd 11 7 = a ∧ bv wd 4 7 = b := hf
  simp [decodeNat, dec0D, e0, e1, fd, fa, fb]

theorem RoundTrip.vsqrtF32 (d : BitVec 7) (a : BitVec 7) : RoundTrip.Statement (.vsqrtF32 d a) := by
  intro _ _
  have hf := fields_18w7_11w7 (m := 436207626) d a (by decide)
  change decodeNat (put2 436207626 d 18 a 11) = _
  generalize put2 436207626 d 18 a 11 = wd at hf ⊢
  obtain ⟨e0, e1, e2, fd, fa⟩ : fld wd 25 6 = 13 ∧ fld wd 4 7 = 0 ∧ fld wd 0 4 = 10 ∧ bv wd 18 7 = d ∧ bv wd 11 7 = a := hf
  simp [decodeNat, dec0D, e0, e1, e2, fd, fa]

theorem RoundTrip.vfloorF32 (d : BitVec 7) (a : BitVec 7) : RoundTrip.Statement (.vfloorF32 d a) := by
  intro _ _
  have hf := fields_18w7_11w7 (m := 436207627) d a (by decide)
  change decodeNat (put2 436207627 d 18 a 11) = _
  generalize put2 436207627 d 18 a 11 = wd at hf ⊢
  obtain ⟨e0, e1, e2, fd, fa⟩ : fld wd 25 6 = 13 ∧ fld wd 4 7 = 0 ∧ fld wd 0 4 = 11 ∧ bv wd 18 7 = d ∧ bv wd 11 7 = a := hf
  simp [decodeNat, dec0D, e0, e1, e2, fd, fa]

theorem RoundTrip.vceilF32 (d : BitVec 7) (a : BitVec 7) : RoundTrip.Statement (.vceilF32 d a) := by
  intro _ _
  have hf := fields_18w7_11w7 (m := 436207628) d a (by decide)
  change decodeNat (put2 436207628 d 18 a 11) = _
  generalize put2 436207628 d 18 a 11 = wd at hf ⊢
  obtain ⟨e0, e1, e2, fd, fa⟩ : fld wd 25 6 = 13 ∧ fld wd 4 7 = 0 ∧ fld wd 0 4 = 12 ∧ bv wd 18 7 = d ∧ bv wd 11 7 = a := hf
  simp [decodeNat, dec0D, e0, e1, e2, fd, fa]

theorem RoundTrip.vtruncF32 (d : BitVec 7) (a : BitVec 7) : RoundTrip.Statement (.vtruncF32 d a) := by
  intro _ _
  have hf := fields_18w7_11w7 (m := 436207629) d a (by decide)
  change decodeNat (put2 436207629 d 18 a 11) = _
  generalize put2 436207629 d 18 a 11 = wd at hf ⊢
  obtain ⟨e0, e1, e2, fd, fa⟩ : fld wd 25 6 = 13 ∧ fld wd 4 7 = 0 ∧ fld wd 0 4 = 13 ∧ bv wd 18 7 = d ∧ bv wd 11 7 = a := hf
  simp [decodeNat, dec0D, e0, e1, e2, fd, fa]

theorem RoundTrip.vrintF32 (d : BitVec 7) (a : BitVec 7) : RoundTrip.Statement (.vrintF32 d a) := by
  intro _ _
  have hf := fields_18w7_11w7 (m := 436207630) d a (by decide)
  change decodeNat (put2 436207630 d 18 a 11) = _
  generalize put2 436207630 d 18 a 11 = wd at hf ⊢
  obtain ⟨e0, e1, e2, fd, fa⟩ : fld wd 25 6 = 13 ∧ fld wd 4 7 = 0 ∧ fld wd 0 4 = 14 ∧ bv wd 18 7 = d ∧ bv wd 11 7 = a := hf
  simp [decodeNat, dec0D, e0, e1, e2, fd, fa]

theorem RoundTrip.vscaleF32 (d : BitVec 7) (a : BitVec 7) (b : BitVec 7) : RoundTrip.Statement (.vscaleF32 d a b) := by
  intro _ _
  have hf := fields_18w7_11w7_4w7 (m := 436207631) d a b (by decide)
  change decodeNat (put3 436207631 d 18 a 11 b 4) = _
  generalize put3 436207631 d 18 a 11 b 4 = wd at hf ⊢
  obtain ⟨e0, e1, fd, fa, fb⟩ : fld wd 25 6 = 13 ∧ fld wd 0 4 = 15 ∧ bv wd 18 7 = d ∧ bv wd 11 7 = a ∧ bv wd 4 7 = b := hf
  simp [decodeNat, dec0D, e0, e1, fd, fa, fb]

theorem RoundTrip.vmaxabsF32 (d : BitVec 7) (a : BitVec 7) (b : BitVec 7) : RoundTrip.Statement (.vmaxabsF32 d a b) := by
  intro _ _
  have hf := fields_18w7_11w7_4w7 (m := 469762048) d a b (by decide)
  change decodeNat (put3 469762048 d 18 a 11 b 4) = _
  generalize put3 469762048 d 18 a 11 b 4 = wd at hf ⊢
  obtain ⟨e0, e1, fd, fa, fb⟩ : fld wd 25 6 = 14 ∧ fld wd 0 4 = 0 ∧ bv wd 18 7 = d ∧ bv wd 11 7 = a ∧ bv wd 4 7 = b := hf
  simp [decodeNat, dec0E, e0, e1, fd, fa, fb]

theorem RoundTrip.vcopysignF32 (d : BitVec 7) (a : BitVec 7) (b : BitVec 7) : RoundTrip.Statement (.vcopysignF32 d a b) := by
  intro _ _
  have hf := fields_18w7_11w7_4w7 (m := 469762049) d a b (by decide)
  change decodeNat (put3 469762049 d 18 a 11 b 4) = _
  generalize put3 469762049 d 18 a 11 b 4 = wd at hf ⊢
  obtain ⟨e0, e1, fd, fa, fb⟩ : fld wd 25 6 = 14 ∧ fld wd 0 4 = 1 ∧ bv wd 18 7 = d ∧ bv wd 11 7 = a ∧ bv wd 4 7 = b := hf
  simp [decodeNat, dec0E, e0, e1, fd, fa, fb]

theorem RoundTrip.vclassF32 (d : BitVec 7) (a : BitVec 7) : RoundTrip.Statement (.vclassF32 d a) := by
  intro _ _
  have hf := fields_18w7_11w7 (m := 469762050) d a (by decide)
  change decodeNat (put2 469762050 d 18 a 11) = _
  generalize put2 469762050 d 18 a 11 = wd at hf ⊢
  obtain ⟨e0, e1, e2, fd, fa⟩ : fld wd 25 6 = 14 ∧ fld wd 4 7 = 0 ∧ fld wd 0 4 = 2 ∧ bv wd 18 7 = d ∧ bv wd 11 7 = a := hf
  simp [decodeNat, dec0E, e0, e1, e2, fd, fa]

theorem RoundTrip.vexpoF32 (d : BitVec 7) (a : BitVec 7) : RoundTrip.Statement (.vexpoF32 d a) := by
  intro _ _
  have hf := fields_18w7_11w7 (m := 469762051) d a (by decide)
  change decodeNat (put2 469762051 d 18 a 11) = _
  generalize put2 469762051 d 18 a 11 = wd at hf ⊢
  obtain ⟨e0, e1, e2, fd, fa⟩ : fld wd 25 6 = 14 ∧ fld wd 4 7 = 0 ∧ fld wd 0 4 = 3 ∧ bv wd 18 7 = d ∧ bv wd 11 7 = a := hf
  simp [decodeNat, dec0E, e0, e1, e2, fd, fa]

theorem RoundTrip.vminnanF32 (d : BitVec 7) (a : BitVec 7) (b : BitVec 7) : RoundTrip.Statement (.vminnanF32 d a b) := by
  intro _ _
  have hf := fields_18w7_11w7_4w7 (m := 469762052) d a b (by decide)
  change decodeNat (put3 469762052 d 18 a 11 b 4) = _
  generalize put3 469762052 d 18 a 11 b 4 = wd at hf ⊢
  obtain ⟨e0, e1, fd, fa, fb⟩ : fld wd 25 6 = 14 ∧ fld wd 0 4 = 4 ∧ bv wd 18 7 = d ∧ bv wd 11 7 = a ∧ bv wd 4 7 = b := hf
  simp [decodeNat, dec0E, e0, e1, fd, fa, fb]

theorem RoundTrip.vmaxnanF32 (d : BitVec 7) (a : BitVec 7) (b : BitVec 7) : RoundTrip.Statement (.vmaxnanF32 d a b) := by
  intro _ _
  have hf := fields_18w7_11w7_4w7 (m := 469762053) d a b (by decide)
  change decodeNat (put3 469762053 d 18 a 11 b 4) = _
  generalize put3 469762053 d 18 a 11 b 4 = wd at hf ⊢
  obtain ⟨e0, e1, fd, fa, fb⟩ : fld wd 25 6 = 14 ∧ fld wd 0 4 = 5 ∧ bv wd 18 7 = d ∧ bv wd 11 7 = a ∧ bv wd 4 7 = b := hf
  simp [decodeNat, dec0E, e0, e1, fd, fa, fb]

theorem RoundTrip.vexp2ApxF32 (d : BitVec 7) (a : BitVec 7) (l : BitVec 4) : RoundTrip.Statement (.vexp2ApxF32 d a l) := by
  intro _ _
  have hf := fields_18w7_11w7_0w4 (m := 503316480) d a l (by decide)
  change decodeNat (put3 503316480 d 18 a 11 l 0) = _
  generalize put3 503316480 d 18 a 11 l 0 = wd at hf ⊢
  obtain ⟨e0, -, -, -, e4, e5, -, fd, fa, fl⟩ : fld wd 25 6 = 15 ∧ fld wd 18 7 = d.toNat ∧ fld wd 8 3 = 0 ∧ fld wd 7 1 = 0 ∧ fld wd 7 4 = 0 ∧ fld wd 4 3 = 0 ∧ fld wd 4 4 = 0 ∧ bv wd 18 7 = d ∧ bv wd 11 7 = a ∧ bv wd 0 4 = l := hf
  simp [decodeNat, dec0F, e0, e4, e5, fd, fa, fl]

theorem RoundTrip.vlog2ApxF32 (d : BitVec 7) (a : BitVec 7) (l : BitVec 4) : RoundTrip.Statement (.vlog2ApxF32 d a l) := by
  intro _ _
  have hf := fields_18w7_11w7_0w4 (m := 503316608) d a l (by decide)
  change decodeNat (put3 503316608 d 18 a 11 l 0) = _
  generalize put3 503316608 d 18 a 11 l 0 = wd at hf ⊢
  obtain ⟨e0, -, -, -, e4, e5, -, fd, fa, fl⟩ : fld wd 25 6 = 15 ∧ fld wd 18 7 = d.toNat ∧ fld wd 8 3 = 0 ∧ fld wd 7 1 = 1 ∧ fld wd 7 4 = 1 ∧ fld wd 4 3 = 0 ∧ fld wd 4 4 = 8 ∧ bv wd 18 7 = d ∧ bv wd 11 7 = a ∧ bv wd 0 4 = l := hf
  simp [decodeNat, dec0F, e0, e4, e5, fd, fa, fl]

theorem RoundTrip.vrcpApxF32 (d : BitVec 7) (a : BitVec 7) (l : BitVec 4) : RoundTrip.Statement (.vrcpApxF32 d a l) := by
  intro _ _
  have hf := fields_18w7_11w7_0w4 (m := 503316736) d a l (by decide)
  change decodeNat (put3 503316736 d 18 a 11 l 0) = _
  generalize put3 503316736 d 18 a 11 l 0 = wd at hf ⊢
  obtain ⟨e0, -, -, -, e4, e5, -, fd, fa, fl⟩ : fld wd 25 6 = 15 ∧ fld wd 18 7 = d.toNat ∧ fld wd 8 3 = 1 ∧ fld wd 7 1 = 0 ∧ fld wd 7 4 = 2 ∧ fld wd 4 3 = 0 ∧ fld wd 4 4 = 0 ∧ bv wd 18 7 = d ∧ bv wd 11 7 = a ∧ bv wd 0 4 = l := hf
  simp [decodeNat, dec0F, e0, e4, e5, fd, fa, fl]

theorem RoundTrip.vrsqrtApxF32 (d : BitVec 7) (a : BitVec 7) (l : BitVec 4) : RoundTrip.Statement (.vrsqrtApxF32 d a l) := by
  intro _ _
  have hf := fields_18w7_11w7_0w4 (m := 503316864) d a l (by decide)
  change decodeNat (put3 503316864 d 18 a 11 l 0) = _
  generalize put3 503316864 d 18 a 11 l 0 = wd at hf ⊢
  obtain ⟨e0, -, -, -, e4, e5, -, fd, fa, fl⟩ : fld wd 25 6 = 15 ∧ fld wd 18 7 = d.toNat ∧ fld wd 8 3 = 1 ∧ fld wd 7 1 = 1 ∧ fld wd 7 4 = 3 ∧ fld wd 4 3 = 0 ∧ fld wd 4 4 = 8 ∧ bv wd 18 7 = d ∧ bv wd 11 7 = a ∧ bv wd 0 4 = l := hf
  simp [decodeNat, dec0F, e0, e4, e5, fd, fa, fl]

theorem RoundTrip.vaddBf16 (d : BitVec 7) (a : BitVec 7) (b : BitVec 7) : RoundTrip.Statement (.vaddBf16 d a b) := by
  intro _ _
  have hf := fields_18w7_11w7_4w7 (m := 536870912) d a b (by decide)
  change decodeNat (put3 536870912 d 18 a 11 b 4) = _
  generalize put3 536870912 d 18 a 11 b 4 = wd at hf ⊢
  obtain ⟨e0, e1, fd, fa, fb⟩ : fld wd 25 6 = 16 ∧ fld wd 0 4 = 0 ∧ bv wd 18 7 = d ∧ bv wd 11 7 = a ∧ bv wd 4 7 = b := hf
  simp [decodeNat, dec10, e0, e1, fd, fa, fb]

theorem RoundTrip.vmulBf16 (d : BitVec 7) (a : BitVec 7) (b : BitVec 7) : RoundTrip.Statement (.vmulBf16 d a b) := by
  intro _ _
  have hf := fields_18w7_11w7_4w7 (m := 536870913) d a b (by decide)
  change decodeNat (put3 536870913 d 18 a 11 b 4) = _
  generalize put3 536870913 d 18 a 11 b 4 = wd at hf ⊢
  obtain ⟨e0, e1, fd, fa, fb⟩ : fld wd 25 6 = 16 ∧ fld wd 0 4 = 1 ∧ bv wd 18 7 = d ∧ bv wd 11 7 = a ∧ bv wd 4 7 = b := hf
  simp [decodeNat, dec10, e0, e1, fd, fa, fb]

theorem RoundTrip.vfmaBf16 (d : BitVec 7) (a : BitVec 7) (b : BitVec 7) : RoundTrip.Statement (.vfmaBf16 d a b) := by
  intro _ _
  have hf := fields_18w7_11w7_4w7 (m := 536870914) d a b (by decide)
  change decodeNat (put3 536870914 d 18 a 11 b 4) = _
  generalize put3 536870914 d 18 a 11 b 4 = wd at hf ⊢
  obtain ⟨e0, e1, fd, fa, fb⟩ : fld wd 25 6 = 16 ∧ fld wd 0 4 = 2 ∧ bv wd 18 7 = d ∧ bv wd 11 7 = a ∧ bv wd 4 7 = b := hf
  simp [decodeNat, dec10, e0, e1, fd, fa, fb]

theorem RoundTrip.vminBf16 (d : BitVec 7) (a : BitVec 7) (b : BitVec 7) : RoundTrip.Statement (.vminBf16 d a b) := by
  intro _ _
  have hf := fields_18w7_11w7_4w7 (m := 536870915) d a b (by decide)
  change decodeNat (put3 536870915 d 18 a 11 b 4) = _
  generalize put3 536870915 d 18 a 11 b 4 = wd at hf ⊢
  obtain ⟨e0, e1, fd, fa, fb⟩ : fld wd 25 6 = 16 ∧ fld wd 0 4 = 3 ∧ bv wd 18 7 = d ∧ bv wd 11 7 = a ∧ bv wd 4 7 = b := hf
  simp [decodeNat, dec10, e0, e1, fd, fa, fb]

theorem RoundTrip.vmaxBf16 (d : BitVec 7) (a : BitVec 7) (b : BitVec 7) : RoundTrip.Statement (.vmaxBf16 d a b) := by
  intro _ _
  have hf := fields_18w7_11w7_4w7 (m := 536870916) d a b (by decide)
  change decodeNat (put3 536870916 d 18 a 11 b 4) = _
  generalize put3 536870916 d 18 a 11 b 4 = wd at hf ⊢
  obtain ⟨e0, e1, fd, fa, fb⟩ : fld wd 25 6 = 16 ∧ fld wd 0 4 = 4 ∧ bv wd 18 7 = d ∧ bv wd 11 7 = a ∧ bv wd 4 7 = b := hf
  simp [decodeNat, dec10, e0, e1, fd, fa, fb]

theorem RoundTrip.vdot2F32Bf16 (d : BitVec 7) (a : BitVec 7) (b : BitVec 7) : RoundTrip.Statement (.vdot2F32Bf16 d a b) := by
  intro _ _
  have hf := fields_18w7_11w7_4w7 (m := 536870917) d a b (by decide)
  change decodeNat (put3 536870917 d 18 a 11 b 4) = _
  generalize put3 536870917 d 18 a 11 b 4 = wd at hf ⊢
  obtain ⟨e0, e1, fd, fa, fb⟩ : fld wd 25 6 = 16 ∧ fld wd 0 4 = 5 ∧ bv wd 18 7 = d ∧ bv wd 11 7 = a ∧ bv wd 4 7 = b := hf
  simp [decodeNat, dec10, e0, e1, fd, fa, fb]

theorem RoundTrip.vsubBf16 (d : BitVec 7) (a : BitVec 7) (b : BitVec 7) : RoundTrip.Statement (.vsubBf16 d a b) := by
  intro _ _
  have hf := fields_18w7_11w7_4w7 (m := 536870918) d a b (by decide)
  change decodeNat (put3 536870918 d 18 a 11 b 4) = _
  generalize put3 536870918 d 18 a 11 b 4 = wd at hf ⊢
  obtain ⟨e0, e1, fd, fa, fb⟩ : fld wd 25 6 = 16 ∧ fld wd 0 4 = 6 ∧ bv wd 18 7 = d ∧ bv wd 11 7 = a ∧ bv wd 4 7 = b := hf
  simp [decodeNat, dec10, e0, e1, fd, fa, fb]

theorem RoundTrip.vaddF16 (d : BitVec 7) (a : BitVec 7) (b : BitVec 7) : RoundTrip.Statement (.vaddF16 d a b) := by
  intro _ _
  have hf := fields_18w7_11w7_4w7 (m := 536870920) d a b (by decide)
  change decodeNat (put3 536870920 d 18 a 11 b 4) = _
  generalize put3 536870920 d 18 a 11 b 4 = wd at hf ⊢
  obtain ⟨e0, e1, fd, fa, fb⟩ : fld wd 25 6 = 16 ∧ fld wd 0 4 = 8 ∧ bv wd 18 7 = d ∧ bv wd 11 7 = a ∧ bv wd 4 7 = b := hf
  simp [decodeNat, dec10, e0, e1, fd, fa, fb]

theorem RoundTrip.vmulF16 (d : BitVec 7) (a : BitVec 7) (b : BitVec 7) : RoundTrip.Statement (.vmulF16 d a b) := by
  intro _ _
  have hf := fields_18w7_11w7_4w7 (m := 536870921) d a b (by decide)
  change decodeNat (put3 536870921 d 18 a 11 b 4) = _
  generalize put3 536870921 d 18 a 11 b 4 = wd at hf ⊢
  obtain ⟨e0, e1, fd, fa, fb⟩ : fld wd 25 6 = 16 ∧ fld wd 0 4 = 9 ∧ bv wd 18 7 = d ∧ bv wd 11 7 = a ∧ bv wd 4 7 = b := hf
  simp [decodeNat, dec10, e0, e1, fd, fa, fb]

theorem RoundTrip.vfmaF16 (d : BitVec 7) (a : BitVec 7) (b : BitVec 7) : RoundTrip.Statement (.vfmaF16 d a b) := by
  intro _ _
  have hf := fields_18w7_11w7_4w7 (m := 536870922) d a b (by decide)
  change decodeNat (put3 536870922 d 18 a 11 b 4) = _
  generalize put3 536870922 d 18 a 11 b 4 = wd at hf ⊢
  obtain ⟨e0, e1, fd, fa, fb⟩ : fld wd 25 6 = 16 ∧ fld wd 0 4 = 10 ∧ bv wd 18 7 = d ∧ bv wd 11 7 = a ∧ bv wd 4 7 = b := hf
  simp [decodeNat, dec10, e0, e1, fd, fa, fb]

theorem RoundTrip.vminF16 (d : BitVec 7) (a : BitVec 7) (b : BitVec 7) : RoundTrip.Statement (.vminF16 d a b) := by
  intro _ _
  have hf := fields_18w7_11w7_4w7 (m := 536870923) d a b (by decide)
  change decodeNat (put3 536870923 d 18 a 11 b 4) = _
  generalize put3 536870923 d 18 a 11 b 4 = wd at hf ⊢
  obtain ⟨e0, e1, fd, fa, fb⟩ : fld wd 25 6 = 16 ∧ fld wd 0 4 = 11 ∧ bv wd 18 7 = d ∧ bv wd 11 7 = a ∧ bv wd 4 7 = b := hf
  simp [decodeNat, dec10, e0, e1, fd, fa, fb]

theorem RoundTrip.vmaxF16 (d : BitVec 7) (a : BitVec 7) (b : BitVec 7) : RoundTrip.Statement (.vmaxF16 d a b) := by
  intro _ _
  have hf := fields_18w7_11w7_4w7 (m := 536870924) d a b (by decide)
  change decodeNat (put3 536870924 d 18 a 11 b 4) = _
  generalize put3 536870924 d 18 a 11 b 4 = wd at hf ⊢
  obtain ⟨e0, e1, fd, fa, fb⟩ : fld wd 25 6 = 16 ∧ fld wd 0 4 = 12 ∧ bv wd 18 7 = d ∧ bv wd 11 7 = a ∧ bv wd 4 7 = b := hf
  simp [decodeNat, dec10, e0, e1, fd, fa, fb]

theorem RoundTrip.vdot2F32F16 (d : BitVec 7) (a : BitVec 7) (b : BitVec 7) : RoundTrip.Statement (.vdot2F32F16 d a b) := by
  intro _ _
  have hf := fields_18w7_11w7_4w7 (m := 536870925) d a b (by decide)
  change decodeNat (put3 536870925 d 18 a 11 b 4) = _
  generalize put3 536870925 d 18 a 11 b 4 = wd at hf ⊢
  obtain ⟨e0, e1, fd, fa, fb⟩ : fld wd 25 6 = 16 ∧ fld wd 0 4 = 13 ∧ bv wd 18 7 = d ∧ bv wd 11 7 = a ∧ bv wd 4 7 = b := hf
  simp [decodeNat, dec10, e0, e1, fd, fa, fb]

theorem RoundTrip.vsubF16 (d : BitVec 7) (a : BitVec 7) (b : BitVec 7) : RoundTrip.Statement (.vsubF16 d a b) := by
  intro _ _
  have hf := fields_18w7_11w7_4w7 (m := 536870926) d a b (by decide)
  change decodeNat (put3 536870926 d 18 a 11 b 4) = _
  generalize put3 536870926 d 18 a 11 b 4 = wd at hf ⊢
  obtain ⟨e0, e1, fd, fa, fb⟩ : fld wd 25 6 = 16 ∧ fld wd 0 4 = 14 ∧ bv wd 18 7 = d ∧ bv wd 11 7 = a ∧ bv wd 4 7 = b := hf
  simp [decodeNat, dec10, e0, e1, fd, fa, fb]

theorem RoundTrip.vcvtF32I32 (d : BitVec 7) (a : BitVec 7) (m : BitVec 3) : RoundTrip.Statement (.vcvtF32I32 d a m) := by
  intro _ hwf
  replace hwf : m.toNat ≤ 4 := hwf
  have hf := fields_18w7_11w7_8w3 (m := 570425344) d a m (by decide)
  change decodeNat (put3 570425344 d 18 a 11 m 8) = _
  generalize put3 570425344 d 18 a 11 m 8 = wd at hf ⊢
  obtain ⟨e0, e1, e2, e3, fd, fa, fm⟩ : fld wd 25 6 = 17 ∧ fld wd 8 3 = m.toNat ∧ fld wd 4 4 = 0 ∧ fld wd 0 4 = 0 ∧ bv wd 18 7 = d ∧ bv wd 11 7 = a ∧ bv wd 8 3 = m := hf
  simp [decodeNat, dec11, e0, e1, e2, e3, fd, fa, fm, hwf]

theorem RoundTrip.vcvtF32N32 (d : BitVec 7) (a : BitVec 7) (m : BitVec 3) : RoundTrip.Statement (.vcvtF32N32 d a m) := by
  intro _ hwf
  replace hwf : m.toNat ≤ 4 := hwf
  have hf := fields_18w7_11w7_8w3 (m := 570425345) d a m (by decide)
  change decodeNat (put3 570425345 d 18 a 11 m 8) = _
  generalize put3 570425345 d 18 a 11 m 8 = wd at hf ⊢
  obtain ⟨e0, e1, e2, e3, fd, fa, fm⟩ : fld wd 25 6 = 17 ∧ fld wd 8 3 = m.toNat ∧ fld wd 4 4 = 0 ∧ fld wd 0 4 = 1 ∧ bv wd 18 7 = d ∧ bv wd 11 7 = a ∧ bv wd 8 3 = m := hf
  simp [decodeNat, dec11, e0, e1, e2, e3, fd, fa, fm, hwf]

theorem RoundTrip.vcvtI32F32 (d : BitVec 7) (a : BitVec 7) (m : BitVec 3) : RoundTrip.Statement (.vcvtI32F32 d a m) := by
  intro _ hwf
  replace hwf : m.toNat ≤ 4 := hwf
  have hf := fields_18w7_11w7_8w3 (m := 570425346) d a m (by decide)
  change decodeNat (put3 570425346 d 18 a 11 m 8) = _
  generalize put3 570425346 d 18 a 11 m 8 = wd at hf ⊢
  obtain ⟨e0, e1, e2, e3, fd, fa, fm⟩ : fld wd 25 6 = 17 ∧ fld wd 8 3 = m.toNat ∧ fld wd 4 4 = 0 ∧ fld wd 0 4 = 2 ∧ bv wd 18 7 = d ∧ bv wd 11 7 = a ∧ bv wd 8 3 = m := hf
  simp [decodeNat, dec11, e0, e1, e2, e3, fd, fa, fm, hwf]

theorem RoundTrip.vcvtN32F32 (d : BitVec 7) (a : BitVec 7) (m : BitVec 3) : RoundTrip.Statement (.vcvtN32F32 d a m) := by
  intro _ hwf
  replace hwf : m.toNat ≤ 4 := hwf
  have hf := fields_18w7_11w7_8w3 (m := 570425347) d a m (by decide)
  change decodeNat (put3 570425347 d 18 a 11 m 8) = _
  generalize put3 570425347 d 18 a 11 m 8 = wd at hf ⊢
  obtain ⟨e0, e1, e2, e3, fd, fa, fm⟩ : fld wd 25 6 = 17 ∧ fld wd 8 3 = m.toNat ∧ fld wd 4 4 = 0 ∧ fld wd 0 4 = 3 ∧ bv wd 18 7 = d ∧ bv wd 11 7 = a ∧ bv wd 8 3 = m := hf
  simp [decodeNat, dec11, e0, e1, e2, e3, fd, fa, fm, hwf]

theorem RoundTrip.vcvtBf16F32 (d : BitVec 7) (a : BitVec 7) (m : BitVec 3) : RoundTrip.Statement (.vcvtBf16F32 d a m) := by
  intro _ hwf
  replace hwf : m.toNat ≤ 4 := hwf
  have hf := fields_18w7_11w7_8w3 (m := 570425348) d a m (by decide)
  change decodeNat (put3 570425348 d 18 a 11 m 8) = _
  generalize put3 570425348 d 18 a 11 m 8 = wd at hf ⊢
  obtain ⟨e0, e1, e2, e3, fd, fa, fm⟩ : fld wd 25 6 = 17 ∧ fld wd 8 3 = m.toNat ∧ fld wd 4 4 = 0 ∧ fld wd 0 4 = 4 ∧ bv wd 18 7 = d ∧ bv wd 11 7 = a ∧ bv wd 8 3 = m := hf
  simp [decodeNat, dec11, e0, e1, e2, e3, fd, fa, fm, hwf]

theorem RoundTrip.vcvtF16F32 (d : BitVec 7) (a : BitVec 7) (m : BitVec 3) : RoundTrip.Statement (.vcvtF16F32 d a m) := by
  intro _ hwf
  replace hwf : m.toNat ≤ 4 := hwf
  have hf := fields_18w7_11w7_8w3 (m := 570425349) d a m (by decide)
  change decodeNat (put3 570425349 d 18 a 11 m 8) = _
  generalize put3 570425349 d 18 a 11 m 8 = wd at hf ⊢
  obtain ⟨e0, e1, e2, e3, fd, fa, fm⟩ : fld wd 25 6 = 17 ∧ fld wd 8 3 = m.toNat ∧ fld wd 4 4 = 0 ∧ fld wd 0 4 = 5 ∧ bv wd 18 7 = d ∧ bv wd 11 7 = a ∧ bv wd 8 3 = m := hf
  simp [decodeNat, dec11, e0, e1, e2, e3, fd, fa, fm, hwf]

theorem RoundTrip.vcvtF32Bf16 (d : BitVec 7) (a : BitVec 7) (m : BitVec 3) : RoundTrip.Statement (.vcvtF32Bf16 d a m) := by
  intro _ hwf
  replace hwf : m.toNat ≤ 4 := hwf
  have hf := fields_18w7_11w7_8w3 (m := 570425350) d a m (by decide)
  change decodeNat (put3 570425350 d 18 a 11 m 8) = _
  generalize put3 570425350 d 18 a 11 m 8 = wd at hf ⊢
  obtain ⟨e0, e1, e2, e3, fd, fa, fm⟩ : fld wd 25 6 = 17 ∧ fld wd 8 3 = m.toNat ∧ fld wd 4 4 = 0 ∧ fld wd 0 4 = 6 ∧ bv wd 18 7 = d ∧ bv wd 11 7 = a ∧ bv wd 8 3 = m := hf
  simp [decodeNat, dec11, e0, e1, e2, e3, fd, fa, fm, hwf]

theorem RoundTrip.vcvtF32F16 (d : BitVec 7) (a : BitVec 7) (m : BitVec 3) : RoundTrip.Statement (.vcvtF32F16 d a m) := by
  intro _ hwf
  replace hwf : m.toNat ≤ 4 := hwf
  have hf := fields_18w7_11w7_8w3 (m := 570425351) d a m (by decide)
  change decodeNat (put3 570425351 d 18 a 11 m 8) = _
  generalize put3 570425351 d 18 a 11 m 8 = wd at hf ⊢
  obtain ⟨e0, e1, e2, e3, fd, fa, fm⟩ : fld wd 25 6 = 17 ∧ fld wd 8 3 = m.toNat ∧ fld wd 4 4 = 0 ∧ fld wd 0 4 = 7 ∧ bv wd 18 7 = d ∧ bv wd 11 7 = a ∧ bv wd 8 3 = m := hf
  simp [decodeNat, dec11, e0, e1, e2, e3, fd, fa, fm, hwf]

theorem RoundTrip.vcvtNfF32 (d : BitVec 7) (a : BitVec 7) (m : BitVec 3) (t : BitVec 3) : RoundTrip.Statement (.vcvtNfF32 d a m t) := by
  intro _ hwf
  replace hwf : t.toNat ≠ 0 ∧ m.toNat ≤ 4 := hwf
  have hd := d.isLt
  have ha := a.isLt
  have hm := m.isLt
  have ht := t.isLt
  generalize hw : encodeNat (.vcvtNfF32 d a m t) = wd
  replace hw : 570425352 + d.toNat * 2 ^ 18 + a.toNat * 2 ^ 11 + m.toNat * 2 ^ 8 + t.toNat * 2 ^ 4 = wd := hw
  have e0 : fld wd 25 6 = 17 := by unfold fld; omega
  have e1 : fld wd 8 3 = m.toNat := by unfold fld; omega
  have e2 : fld wd 7 1 = 0 := by unfold fld; omega
  have e3 : fld wd 4 3 = t.toNat := by unfold fld; omega
  have e4 : fld wd 0 4 = 8 := by unfold fld; omega
  have fd : bv wd 18 7 = d := bv_eq (by omega)
  have fa : bv wd 11 7 = a := bv_eq (by omega)
  have fm : bv wd 8 3 = m := bv_eq (by omega)
  have ft : bv wd 4 3 = t := bv_eq (by omega)
  simp [decodeNat, dec11, e0, e1, e2, e3, e4, fd, fa, fm, ft, hwf]

theorem RoundTrip.vcvtF32Nf (d : BitVec 7) (a : BitVec 7) (m : BitVec 3) (t : BitVec 3) : RoundTrip.Statement (.vcvtF32Nf d a m t) := by
  intro _ hwf
  replace hwf : t.toNat ≠ 0 ∧ m.toNat ≤ 4 := hwf
  have hd := d.isLt
  have ha := a.isLt
  have hm := m.isLt
  have ht := t.isLt
  generalize hw : encodeNat (.vcvtF32Nf d a m t) = wd
  replace hw : 570425353 + d.toNat * 2 ^ 18 + a.toNat * 2 ^ 11 + m.toNat * 2 ^ 8 + t.toNat * 2 ^ 4 = wd := hw
  have e0 : fld wd 25 6 = 17 := by unfold fld; omega
  have e1 : fld wd 8 3 = m.toNat := by unfold fld; omega
  have e2 : fld wd 7 1 = 0 := by unfold fld; omega
  have e3 : fld wd 4 3 = t.toNat := by unfold fld; omega
  have e4 : fld wd 0 4 = 9 := by unfold fld; omega
  have fd : bv wd 18 7 = d := bv_eq (by omega)
  have fa : bv wd 11 7 = a := bv_eq (by omega)
  have fm : bv wd 8 3 = m := bv_eq (by omega)
  have ft : bv wd 4 3 = t := bv_eq (by omega)
  simp [decodeNat, dec11, e0, e1, e2, e3, e4, fd, fa, fm, ft, hwf]

theorem RoundTrip.vcvtE4m3F32 (d : BitVec 7) (a : BitVec 7) (m : BitVec 3) : RoundTrip.Statement (.vcvtE4m3F32 d a m) := by
  intro _ hwf
  replace hwf : m.toNat ≤ 4 := hwf
  have hf := fields_18w7_11w7_8w3 (m := 570425354) d a m (by decide)
  change decodeNat (put3 570425354 d 18 a 11 m 8) = _
  generalize put3 570425354 d 18 a 11 m 8 = wd at hf ⊢
  obtain ⟨e0, e1, e2, e3, fd, fa, fm⟩ : fld wd 25 6 = 17 ∧ fld wd 8 3 = m.toNat ∧ fld wd 4 4 = 0 ∧ fld wd 0 4 = 10 ∧ bv wd 18 7 = d ∧ bv wd 11 7 = a ∧ bv wd 8 3 = m := hf
  simp [decodeNat, dec11, e0, e1, e2, e3, fd, fa, fm, hwf]

theorem RoundTrip.vcvtE5m2F32 (d : BitVec 7) (a : BitVec 7) (m : BitVec 3) : RoundTrip.Statement (.vcvtE5m2F32 d a m) := by
  intro _ hwf
  replace hwf : m.toNat ≤ 4 := hwf
  have hf := fields_18w7_11w7_8w3 (m := 570425355) d a m (by decide)
  change decodeNat (put3 570425355 d 18 a 11 m 8) = _
  generalize put3 570425355 d 18 a 11 m 8 = wd at hf ⊢
  obtain ⟨e0, e1, e2, e3, fd, fa, fm⟩ : fld wd 25 6 = 17 ∧ fld wd 8 3 = m.toNat ∧ fld wd 4 4 = 0 ∧ fld wd 0 4 = 11 ∧ bv wd 18 7 = d ∧ bv wd 11 7 = a ∧ bv wd 8 3 = m := hf
  simp [decodeNat, dec11, e0, e1, e2, e3, fd, fa, fm, hwf]

theorem RoundTrip.vcvtF32E4m3 (d : BitVec 7) (a : BitVec 7) (m : BitVec 3) : RoundTrip.Statement (.vcvtF32E4m3 d a m) := by
  intro _ hwf
  replace hwf : m.toNat ≤ 4 := hwf
  have hf := fields_18w7_11w7_8w3 (m := 570425356) d a m (by decide)
  change decodeNat (put3 570425356 d 18 a 11 m 8) = _
  generalize put3 570425356 d 18 a 11 m 8 = wd at hf ⊢
  obtain ⟨e0, e1, e2, e3, fd, fa, fm⟩ : fld wd 25 6 = 17 ∧ fld wd 8 3 = m.toNat ∧ fld wd 4 4 = 0 ∧ fld wd 0 4 = 12 ∧ bv wd 18 7 = d ∧ bv wd 11 7 = a ∧ bv wd 8 3 = m := hf
  simp [decodeNat, dec11, e0, e1, e2, e3, fd, fa, fm, hwf]

theorem RoundTrip.vcvtF32E5m2 (d : BitVec 7) (a : BitVec 7) (m : BitVec 3) : RoundTrip.Statement (.vcvtF32E5m2 d a m) := by
  intro _ hwf
  replace hwf : m.toNat ≤ 4 := hwf
  have hf := fields_18w7_11w7_8w3 (m := 570425357) d a m (by decide)
  change decodeNat (put3 570425357 d 18 a 11 m 8) = _
  generalize put3 570425357 d 18 a 11 m 8 = wd at hf ⊢
  obtain ⟨e0, e1, e2, e3, fd, fa, fm⟩ : fld wd 25 6 = 17 ∧ fld wd 8 3 = m.toNat ∧ fld wd 4 4 = 0 ∧ fld wd 0 4 = 13 ∧ bv wd 18 7 = d ∧ bv wd 11 7 = a ∧ bv wd 8 3 = m := hf
  simp [decodeNat, dec11, e0, e1, e2, e3, fd, fa, fm, hwf]

theorem RoundTrip.vcvthiBf16F32 (d : BitVec 7) (a : BitVec 7) (m : BitVec 3) : RoundTrip.Statement (.vcvthiBf16F32 d a m) := by
  intro _ hwf
  replace hwf : m.toNat ≤ 4 := hwf
  have hf := fields_18w7_11w7_8w3 (m := 570425358) d a m (by decide)
  change decodeNat (put3 570425358 d 18 a 11 m 8) = _
  generalize put3 570425358 d 18 a 11 m 8 = wd at hf ⊢
  obtain ⟨e0, e1, e2, e3, fd, fa, fm⟩ : fld wd 25 6 = 17 ∧ fld wd 8 3 = m.toNat ∧ fld wd 4 4 = 0 ∧ fld wd 0 4 = 14 ∧ bv wd 18 7 = d ∧ bv wd 11 7 = a ∧ bv wd 8 3 = m := hf
  simp [decodeNat, dec11, e0, e1, e2, e3, fd, fa, fm, hwf]

theorem RoundTrip.vcvthiF16F32 (d : BitVec 7) (a : BitVec 7) (m : BitVec 3) : RoundTrip.Statement (.vcvthiF16F32 d a m) := by
  intro _ hwf
  replace hwf : m.toNat ≤ 4 := hwf
  have hf := fields_18w7_11w7_8w3 (m := 570425359) d a m (by decide)
  change decodeNat (put3 570425359 d 18 a 11 m 8) = _
  generalize put3 570425359 d 18 a 11 m 8 = wd at hf ⊢
  obtain ⟨e0, e1, e2, e3, fd, fa, fm⟩ : fld wd 25 6 = 17 ∧ fld wd 8 3 = m.toNat ∧ fld wd 4 4 = 0 ∧ fld wd 0 4 = 15 ∧ bv wd 18 7 = d ∧ bv wd 11 7 = a ∧ bv wd 8 3 = m := hf
  simp [decodeNat, dec11, e0, e1, e2, e3, fd, fa, fm, hwf]

theorem RoundTrip.vcmpEqB32 (p : BitVec 3) (a : BitVec 7) (b : BitVec 7) : RoundTrip.Statement (.vcmpEqB32 p a b) := by
  intro _ _
  have hf := fields_18w3_11w7_4w7 (m := 603979776) p a b (by decide)
  change decodeNat (put3 603979776 p 18 a 11 b 4) = _
  generalize put3 603979776 p 18 a 11 b 4 = wd at hf ⊢
  obtain ⟨e0, e1, e2, fp, fa, fb⟩ : fld wd 25 6 = 18 ∧ fld wd 21 4 = 0 ∧ fld wd 0 4 = 0 ∧ bv wd 18 3 = p ∧ bv wd 11 7 = a ∧ bv wd 4 7 = b := hf
  simp [decodeNat, dec12, e0, e1, e2, fp, fa, fb]

theorem RoundTrip.vcmpNeB32 (p : BitVec 3) (a : BitVec 7) (b : BitVec 7) : RoundTrip.Statement (.vcmpNeB32 p a b) := by
  intro _ _
  have hf := fields_18w3_11w7_4w7 (m := 603979777) p a b (by decide)
  change decodeNat (put3 603979777 p 18 a 11 b 4) = _
  generalize put3 603979777 p 18 a 11 b 4 = wd at hf ⊢
  obtain ⟨e0, e1, e2, fp, fa, fb⟩ : fld wd 25 6 = 18 ∧ fld wd 21 4 = 0 ∧ fld wd 0 4 = 1 ∧ bv wd 18 3 = p ∧ bv wd 11 7 = a ∧ bv wd 4 7 = b := hf
  simp [decodeNat, dec12, e0, e1, e2, fp, fa, fb]

theorem RoundTrip.vcmpLtI32 (p : BitVec 3) (a : BitVec 7) (b : BitVec 7) : RoundTrip.Statement (.vcmpLtI32 p a b) := by
  intro _ _
  have hf := fields_18w3_11w7_4w7 (m := 603979778) p a b (by decide)
  change decodeNat (put3 603979778 p 18 a 11 b 4) = _
  generalize put3 603979778 p 18 a 11 b 4 = wd at hf ⊢
  obtain ⟨e0, e1, e2, fp, fa, fb⟩ : fld wd 25 6 = 18 ∧ fld wd 21 4 = 0 ∧ fld wd 0 4 = 2 ∧ bv wd 18 3 = p ∧ bv wd 11 7 = a ∧ bv wd 4 7 = b := hf
  simp [decodeNat, dec12, e0, e1, e2, fp, fa, fb]

theorem RoundTrip.vcmpLeI32 (p : BitVec 3) (a : BitVec 7) (b : BitVec 7) : RoundTrip.Statement (.vcmpLeI32 p a b) := by
  intro _ _
  have hf := fields_18w3_11w7_4w7 (m := 603979779) p a b (by decide)
  change decodeNat (put3 603979779 p 18 a 11 b 4) = _
  generalize put3 603979779 p 18 a 11 b 4 = wd at hf ⊢
  obtain ⟨e0, e1, e2, fp, fa, fb⟩ : fld wd 25 6 = 18 ∧ fld wd 21 4 = 0 ∧ fld wd 0 4 = 3 ∧ bv wd 18 3 = p ∧ bv wd 11 7 = a ∧ bv wd 4 7 = b := hf
  simp [decodeNat, dec12, e0, e1, e2, fp, fa, fb]

theorem RoundTrip.vcmpLtN32 (p : BitVec 3) (a : BitVec 7) (b : BitVec 7) : RoundTrip.Statement (.vcmpLtN32 p a b) := by
  intro _ _
  have hf := fields_18w3_11w7_4w7 (m := 603979780) p a b (by decide)
  change decodeNat (put3 603979780 p 18 a 11 b 4) = _
  generalize put3 603979780 p 18 a 11 b 4 = wd at hf ⊢
  obtain ⟨e0, e1, e2, fp, fa, fb⟩ : fld wd 25 6 = 18 ∧ fld wd 21 4 = 0 ∧ fld wd 0 4 = 4 ∧ bv wd 18 3 = p ∧ bv wd 11 7 = a ∧ bv wd 4 7 = b := hf
  simp [decodeNat, dec12, e0, e1, e2, fp, fa, fb]

theorem RoundTrip.vcmpLeN32 (p : BitVec 3) (a : BitVec 7) (b : BitVec 7) : RoundTrip.Statement (.vcmpLeN32 p a b) := by
  intro _ _
  have hf := fields_18w3_11w7_4w7 (m := 603979781) p a b (by decide)
  change decodeNat (put3 603979781 p 18 a 11 b 4) = _
  generalize put3 603979781 p 18 a 11 b 4 = wd at hf ⊢
  obtain ⟨e0, e1, e2, fp, fa, fb⟩ : fld wd 25 6 = 18 ∧ fld wd 21 4 = 0 ∧ fld wd 0 4 = 5 ∧ bv wd 18 3 = p ∧ bv wd 11 7 = a ∧ bv wd 4 7 = b := hf
  simp [decodeNat, dec12, e0, e1, e2, fp, fa, fb]

theorem RoundTrip.vcmpEqF32 (p : BitVec 3) (a : BitVec 7) (b : BitVec 7) : RoundTrip.Statement (.vcmpEqF32 p a b) := by
  intro _ _
  have hf := fields_18w3_11w7_4w7 (m := 603979782) p a b (by decide)
  change decodeNat (put3 603979782 p 18 a 11 b 4) = _
  generalize put3 603979782 p 18 a 11 b 4 = wd at hf ⊢
  obtain ⟨e0, e1, e2, fp, fa, fb⟩ : fld wd 25 6 = 18 ∧ fld wd 21 4 = 0 ∧ fld wd 0 4 = 6 ∧ bv wd 18 3 = p ∧ bv wd 11 7 = a ∧ bv wd 4 7 = b := hf
  simp [decodeNat, dec12, e0, e1, e2, fp, fa, fb]

theorem RoundTrip.vcmpNeF32 (p : BitVec 3) (a : BitVec 7) (b : BitVec 7) : RoundTrip.Statement (.vcmpNeF32 p a b) := by
  intro _ _
  have hf := fields_18w3_11w7_4w7 (m := 603979783) p a b (by decide)
  change decodeNat (put3 603979783 p 18 a 11 b 4) = _
  generalize put3 603979783 p 18 a 11 b 4 = wd at hf ⊢
  obtain ⟨e0, e1, e2, fp, fa, fb⟩ : fld wd 25 6 = 18 ∧ fld wd 21 4 = 0 ∧ fld wd 0 4 = 7 ∧ bv wd 18 3 = p ∧ bv wd 11 7 = a ∧ bv wd 4 7 = b := hf
  simp [decodeNat, dec12, e0, e1, e2, fp, fa, fb]

theorem RoundTrip.vcmpLtF32 (p : BitVec 3) (a : BitVec 7) (b : BitVec 7) : RoundTrip.Statement (.vcmpLtF32 p a b) := by
  intro _ _
  have hf := fields_18w3_11w7_4w7 (m := 603979784) p a b (by decide)
  change decodeNat (put3 603979784 p 18 a 11 b 4) = _
  generalize put3 603979784 p 18 a 11 b 4 = wd at hf ⊢
  obtain ⟨e0, e1, e2, fp, fa, fb⟩ : fld wd 25 6 = 18 ∧ fld wd 21 4 = 0 ∧ fld wd 0 4 = 8 ∧ bv wd 18 3 = p ∧ bv wd 11 7 = a ∧ bv wd 4 7 = b := hf
  simp [decodeNat, dec12, e0, e1, e2, fp, fa, fb]

theorem RoundTrip.vcmpLeF32 (p : BitVec 3) (a : BitVec 7) (b : BitVec 7) : RoundTrip.Statement (.vcmpLeF32 p a b) := by
  intro _ _
  have hf := fields_18w3_11w7_4w7 (m := 603979785) p a b (by decide)
  change decodeNat (put3 603979785 p 18 a 11 b 4) = _
  generalize put3 603979785 p 18 a 11 b 4 = wd at hf ⊢
  obtain ⟨e0, e1, e2, fp, fa, fb⟩ : fld wd 25 6 = 18 ∧ fld wd 21 4 = 0 ∧ fld wd 0 4 = 9 ∧ bv wd 18 3 = p ∧ bv wd 11 7 = a ∧ bv wd 4 7 = b := hf
  simp [decodeNat, dec12, e0, e1, e2, fp, fa, fb]

theorem RoundTrip.vcmpUnF32 (p : BitVec 3) (a : BitVec 7) (b : BitVec 7) : RoundTrip.Statement (.vcmpUnF32 p a b) := by
  intro _ _
  have hf := fields_18w3_11w7_4w7 (m := 603979786) p a b (by decide)
  change decodeNat (put3 603979786 p 18 a 11 b 4) = _
  generalize put3 603979786 p 18 a 11 b 4 = wd at hf ⊢
  obtain ⟨e0, e1, e2, fp, fa, fb⟩ : fld wd 25 6 = 18 ∧ fld wd 21 4 = 0 ∧ fld wd 0 4 = 10 ∧ bv wd 18 3 = p ∧ bv wd 11 7 = a ∧ bv wd 4 7 = b := hf
  simp [decodeNat, dec12, e0, e1, e2, fp, fa, fb]

theorem RoundTrip.vtestB32 (p : BitVec 3) (a : BitVec 7) (b : BitVec 7) : RoundTrip.Statement (.vtestB32 p a b) := by
  intro _ _
  have hf := fields_18w3_11w7_4w7 (m := 603979787) p a b (by decide)
  change decodeNat (put3 603979787 p 18 a 11 b 4) = _
  generalize put3 603979787 p 18 a 11 b 4 = wd at hf ⊢
  obtain ⟨e0, e1, e2, fp, fa, fb⟩ : fld wd 25 6 = 18 ∧ fld wd 21 4 = 0 ∧ fld wd 0 4 = 11 ∧ bv wd 18 3 = p ∧ bv wd 11 7 = a ∧ bv wd 4 7 = b := hf
  simp [decodeNat, dec12, e0, e1, e2, fp, fa, fb]

theorem RoundTrip.vshflIdx (d : BitVec 7) (a : BitVec 7) (b : BitVec 7) : RoundTrip.Statement (.vshflIdx d a b) := by
  intro _ _
  have hf := fields_18w7_11w7_4w7 (m := 637534208) d a b (by decide)
  change decodeNat (put3 637534208 d 18 a 11 b 4) = _
  generalize put3 637534208 d 18 a 11 b 4 = wd at hf ⊢
  obtain ⟨e0, e1, fd, fa, fb⟩ : fld wd 25 6 = 19 ∧ fld wd 0 4 = 0 ∧ bv wd 18 7 = d ∧ bv wd 11 7 = a ∧ bv wd 4 7 = b := hf
  simp [decodeNat, dec13, e0, e1, fd, fa, fb]

theorem RoundTrip.vshflUp (d : BitVec 7) (a : BitVec 7) (n : BitVec 5) : RoundTrip.Statement (.vshflUp d a n) := by
  intro _ _
  have hf := fields_18w7_11w7_4w5 (m := 637534209) d a n (by decide)
  change decodeNat (put3 637534209 d 18 a 11 n 4) = _
  generalize put3 637534209 d 18 a 11 n 4 = wd at hf ⊢
  obtain ⟨e0, e1, e2, fd, fa, fn⟩ : fld wd 25 6 = 19 ∧ fld wd 9 2 = 0 ∧ fld wd 0 4 = 1 ∧ bv wd 18 7 = d ∧ bv wd 11 7 = a ∧ bv wd 4 5 = n := hf
  simp [decodeNat, dec13, e0, e1, e2, fd, fa, fn]

theorem RoundTrip.vshflDown (d : BitVec 7) (a : BitVec 7) (n : BitVec 5) : RoundTrip.Statement (.vshflDown d a n) := by
  intro _ _
  have hf := fields_18w7_11w7_4w5 (m := 637534210) d a n (by decide)
  change decodeNat (put3 637534210 d 18 a 11 n 4) = _
  generalize put3 637534210 d 18 a 11 n 4 = wd at hf ⊢
  obtain ⟨e0, e1, e2, fd, fa, fn⟩ : fld wd 25 6 = 19 ∧ fld wd 9 2 = 0 ∧ fld wd 0 4 = 2 ∧ bv wd 18 7 = d ∧ bv wd 11 7 = a ∧ bv wd 4 5 = n := hf
  simp [decodeNat, dec13, e0, e1, e2, fd, fa, fn]

theorem RoundTrip.vshflXor (d : BitVec 7) (a : BitVec 7) (n : BitVec 5) : RoundTrip.Statement (.vshflXor d a n) := by
  intro _ _
  have hf := fields_18w7_11w7_4w5 (m := 637534211) d a n (by decide)
  change decodeNat (put3 637534211 d 18 a 11 n 4) = _
  generalize put3 637534211 d 18 a 11 n 4 = wd at hf ⊢
  obtain ⟨e0, e1, e2, fd, fa, fn⟩ : fld wd 25 6 = 19 ∧ fld wd 9 2 = 0 ∧ fld wd 0 4 = 3 ∧ bv wd 18 7 = d ∧ bv wd 11 7 = a ∧ bv wd 4 5 = n := hf
  simp [decodeNat, dec13, e0, e1, e2, fd, fa, fn]

theorem RoundTrip.vballot (d : BitVec 7) (p : BitVec 3) : RoundTrip.Statement (.vballot d p) := by
  intro _ _
  have hd := d.isLt
  have hp := p.isLt
  generalize hw : encodeNat (.vballot d p) = wd
  replace hw : 637534212 + d.toNat * 2 ^ 18 + p.toNat * 2 ^ 11 = wd := hw
  have e0 : fld wd 25 6 = 19 := by unfold fld; omega
  have e1 : fld wd 14 4 = 0 := by unfold fld; omega
  have e2 : fld wd 4 7 = 0 := by unfold fld; omega
  have e3 : fld wd 0 4 = 4 := by unfold fld; omega
  have fd : bv wd 18 7 = d := bv_eq (by omega)
  have fp : bv wd 11 3 = p := bv_eq (by omega)
  simp [decodeNat, dec13, e0, e1, e2, e3, fd, fp]

theorem RoundTrip.vvoteAll (d : BitVec 3) (p : BitVec 3) : RoundTrip.Statement (.vvoteAll d p) := by
  intro _ _
  have hd := d.isLt
  have hp := p.isLt
  generalize hw : encodeNat (.vvoteAll d p) = wd
  replace hw : 637534213 + d.toNat * 2 ^ 18 + p.toNat * 2 ^ 11 = wd := hw
  have e0 : fld wd 25 6 = 19 := by unfold fld; omega
  have e1 : fld wd 21 4 = 0 := by unfold fld; omega
  have e2 : fld wd 14 4 = 0 := by unfold fld; omega
  have e3 : fld wd 4 7 = 0 := by unfold fld; omega
  have e4 : fld wd 0 4 = 5 := by unfold fld; omega
  have fd : bv wd 18 3 = d := bv_eq (by omega)
  have fp : bv wd 11 3 = p := bv_eq (by omega)
  simp [decodeNat, dec13, e0, e1, e2, e3, e4, fd, fp]

theorem RoundTrip.vvoteAny (d : BitVec 3) (p : BitVec 3) : RoundTrip.Statement (.vvoteAny d p) := by
  intro _ _
  have hd := d.isLt
  have hp := p.isLt
  generalize hw : encodeNat (.vvoteAny d p) = wd
  replace hw : 637534214 + d.toNat * 2 ^ 18 + p.toNat * 2 ^ 11 = wd := hw
  have e0 : fld wd 25 6 = 19 := by unfold fld; omega
  have e1 : fld wd 21 4 = 0 := by unfold fld; omega
  have e2 : fld wd 14 4 = 0 := by unfold fld; omega
  have e3 : fld wd 4 7 = 0 := by unfold fld; omega
  have e4 : fld wd 0 4 = 6 := by unfold fld; omega
  have fd : bv wd 18 3 = d := bv_eq (by omega)
  have fp : bv wd 11 3 = p := bv_eq (by omega)
  simp [decodeNat, dec13, e0, e1, e2, e3, e4, fd, fp]

theorem RoundTrip.vmatchB32 (d : BitVec 7) (a : BitVec 7) : RoundTrip.Statement (.vmatchB32 d a) := by
  intro _ _
  have hf := fields_18w7_11w7 (m := 637534215) d a (by decide)
  change decodeNat (put2 637534215 d 18 a 11) = _
  generalize put2 637534215 d 18 a 11 = wd at hf ⊢
  obtain ⟨e0, e1, e2, fd, fa⟩ : fld wd 25 6 = 19 ∧ fld wd 4 7 = 0 ∧ fld wd 0 4 = 7 ∧ bv wd 18 7 = d ∧ bv wd 11 7 = a := hf
  simp [decodeNat, dec13, e0, e1, e2, fd, fa]

theorem RoundTrip.vredAddI32 (d : BitVec 7) (a : BitVec 7) : RoundTrip.Statement (.vredAddI32 d a) := by
  intro _ _
  have hf := fields_18w7_11w7 (m := 637534216) d a (by decide)
  change decodeNat (put2 637534216 d 18 a 11) = _
  generalize put2 637534216 d 18 a 11 = wd at hf ⊢
  obtain ⟨e0, e1, e2, fd, fa⟩ : fld wd 25 6 = 19 ∧ fld wd 4 7 = 0 ∧ fld wd 0 4 = 8 ∧ bv wd 18 7 = d ∧ bv wd 11 7 = a := hf
  simp [decodeNat, dec13, e0, e1, e2, fd, fa]

theorem RoundTrip.vredMaxI32 (d : BitVec 7) (a : BitVec 7) : RoundTrip.Statement (.vredMaxI32 d a) := by
  intro _ _
  have hf := fields_18w7_11w7 (m := 637534217) d a (by decide)
  change decodeNat (put2 637534217 d 18 a 11) = _
  generalize put2 637534217 d 18 a 11 = wd at hf ⊢
  obtain ⟨e0, e1, e2, fd, fa⟩ : fld wd 25 6 = 19 ∧ fld wd 4 7 = 0 ∧ fld wd 0 4 = 9 ∧ bv wd 18 7 = d ∧ bv wd 11 7 = a := hf
  simp [decodeNat, dec13, e0, e1, e2, fd, fa]

theorem RoundTrip.vredMinI32 (d : BitVec 7) (a : BitVec 7) : RoundTrip.Statement (.vredMinI32 d a) := by
  intro _ _
  have hf := fields_18w7_11w7 (m := 637534218) d a (by decide)
  change decodeNat (put2 637534218 d 18 a 11) = _
  generalize put2 637534218 d 18 a 11 = wd at hf ⊢
  obtain ⟨e0, e1, e2, fd, fa⟩ : fld wd 25 6 = 19 ∧ fld wd 4 7 = 0 ∧ fld wd 0 4 = 10 ∧ bv wd 18 7 = d ∧ bv wd 11 7 = a := hf
  simp [decodeNat, dec13, e0, e1, e2, fd, fa]

theorem RoundTrip.vredAddF32 (d : BitVec 7) (a : BitVec 7) : RoundTrip.Statement (.vredAddF32 d a) := by
  intro _ _
  have hf := fields_18w7_11w7 (m := 637534219) d a (by decide)
  change decodeNat (put2 637534219 d 18 a 11) = _
  generalize put2 637534219 d 18 a 11 = wd at hf ⊢
  obtain ⟨e0, e1, e2, fd, fa⟩ : fld wd 25 6 = 19 ∧ fld wd 4 7 = 0 ∧ fld wd 0 4 = 11 ∧ bv wd 18 7 = d ∧ bv wd 11 7 = a := hf
  simp [decodeNat, dec13, e0, e1, e2, fd, fa]

theorem RoundTrip.vredMaxF32 (d : BitVec 7) (a : BitVec 7) : RoundTrip.Statement (.vredMaxF32 d a) := by
  intro _ _
  have hf := fields_18w7_11w7 (m := 637534220) d a (by decide)
  change decodeNat (put2 637534220 d 18 a 11) = _
  generalize put2 637534220 d 18 a 11 = wd at hf ⊢
  obtain ⟨e0, e1, e2, fd, fa⟩ : fld wd 25 6 = 19 ∧ fld wd 4 7 = 0 ∧ fld wd 0 4 = 12 ∧ bv wd 18 7 = d ∧ bv wd 11 7 = a := hf
  simp [decodeNat, dec13, e0, e1, e2, fd, fa]

theorem RoundTrip.vscanAddI32 (d : BitVec 7) (a : BitVec 7) : RoundTrip.Statement (.vscanAddI32 d a) := by
  intro _ _
  have hf := fields_18w7_11w7 (m := 637534221) d a (by decide)
  change decodeNat (put2 637534221 d 18 a 11) = _
  generalize put2 637534221 d 18 a 11 = wd at hf ⊢
  obtain ⟨e0, e1, e2, fd, fa⟩ : fld wd 25 6 = 19 ∧ fld wd 4 7 = 0 ∧ fld wd 0 4 = 13 ∧ bv wd 18 7 = d ∧ bv wd 11 7 = a := hf
  simp [decodeNat, dec13, e0, e1, e2, fd, fa]

theorem RoundTrip.vscanxAddI32 (d : BitVec 7) (a : BitVec 7) : RoundTrip.Statement (.vscanxAddI32 d a) := by
  intro _ _
  have hf := fields_18w7_11w7 (m := 637534222) d a (by decide)
  change decodeNat (put2 637534222 d 18 a 11) = _
  generalize put2 637534222 d 18 a 11 = wd at hf ⊢
  obtain ⟨e0, e1, e2, fd, fa⟩ : fld wd 25 6 = 19 ∧ fld wd 4 7 = 0 ∧ fld wd 0 4 = 14 ∧ bv wd 18 7 = d ∧ bv wd 11 7 = a := hf
  simp [decodeNat, dec13, e0, e1, e2, fd, fa]

theorem RoundTrip.vscanAddF32 (d : BitVec 7) (a : BitVec 7) : RoundTrip.Statement (.vscanAddF32 d a) := by
  intro _ _
  have hf := fields_18w7_11w7 (m := 637534223) d a (by decide)
  change decodeNat (put2 637534223 d 18 a 11) = _
  generalize put2 637534223 d 18 a 11 = wd at hf ⊢
  obtain ⟨e0, e1, e2, fd, fa⟩ : fld wd 25 6 = 19 ∧ fld wd 4 7 = 0 ∧ fld wd 0 4 = 15 ∧ bv wd 18 7 = d ∧ bv wd 11 7 = a := hf
  simp [decodeNat, dec13, e0, e1, e2, fd, fa]

theorem RoundTrip.vmov (d : BitVec 7) (a : BitVec 7) : RoundTrip.Statement (.vmov d a) := by
  intro _ _
  have hf := fields_18w7_11w7 (m := 671088640) d a (by decide)
  change decodeNat (put2 671088640 d 18 a 11) = _
  generalize put2 671088640 d 18 a 11 = wd at hf ⊢
  obtain ⟨e0, e1, e2, fd, fa⟩ : fld wd 25 6 = 20 ∧ fld wd 4 7 = 0 ∧ fld wd 0 4 = 0 ∧ bv wd 18 7 = d ∧ bv wd 11 7 = a := hf
  simp [decodeNat, dec14, e0, e1, e2, fd, fa]

theorem RoundTrip.vli (d : BitVec 7) (i : BitVec 14) : RoundTrip.Statement (.vli d i) := by
  intro _ _
  have hd := d.isLt
  have hi := i.isLt
  generalize hw : encodeNat (.vli d i) = wd
  replace hw : 671088641 + d.toNat * 2 ^ 18 + i.toNat * 2 ^ 4 = wd := hw
  have e0 : fld wd 25 6 = 20 := by unfold fld; omega
  have e1 : fld wd 0 4 = 1 := by unfold fld; omega
  have fd : bv wd 18 7 = d := bv_eq (by omega)
  have fi : bv wd 4 14 = i := bv_eq (by omega)
  simp [decodeNat, dec14, e0, e1, fd, fi]

theorem RoundTrip.vbcast (d : BitVec 7) (s : BitVec 5) : RoundTrip.Statement (.vbcast d s) := by
  intro _ _
  have hd := d.isLt
  have hs := s.isLt
  generalize hw : encodeNat (.vbcast d s) = wd
  replace hw : 671088642 + d.toNat * 2 ^ 18 + s.toNat * 2 ^ 11 = wd := hw
  have e0 : fld wd 25 6 = 20 := by unfold fld; omega
  have e1 : fld wd 16 2 = 0 := by unfold fld; omega
  have e2 : fld wd 4 7 = 0 := by unfold fld; omega
  have e3 : fld wd 0 4 = 2 := by unfold fld; omega
  have fd : bv wd 18 7 = d := bv_eq (by omega)
  have fs : bv wd 11 5 = s := bv_eq (by omega)
  simp [decodeNat, dec14, e0, e1, e2, e3, fd, fs]

theorem RoundTrip.vbcasth (d : BitVec 7) (s : BitVec 5) : RoundTrip.Statement (.vbcasth d s) := by
  intro _ _
  have hd := d.isLt
  have hs := s.isLt
  generalize hw : encodeNat (.vbcasth d s) = wd
  replace hw : 671088643 + d.toNat * 2 ^ 18 + s.toNat * 2 ^ 11 = wd := hw
  have e0 : fld wd 25 6 = 20 := by unfold fld; omega
  have e1 : fld wd 16 2 = 0 := by unfold fld; omega
  have e2 : fld wd 4 7 = 0 := by unfold fld; omega
  have e3 : fld wd 0 4 = 3 := by unfold fld; omega
  have fd : bv wd 18 7 = d := bv_eq (by omega)
  have fs : bv wd 11 5 = s := bv_eq (by omega)
  simp [decodeNat, dec14, e0, e1, e2, e3, fd, fs]

theorem RoundTrip.vpmask (d : BitVec 7) (p : BitVec 3) : RoundTrip.Statement (.vpmask d p) := by
  intro _ _
  have hd := d.isLt
  have hp := p.isLt
  generalize hw : encodeNat (.vpmask d p) = wd
  replace hw : 671088644 + d.toNat * 2 ^ 18 + p.toNat * 2 ^ 11 = wd := hw
  have e0 : fld wd 25 6 = 20 := by unfold fld; omega
  have e1 : fld wd 14 4 = 0 := by unfold fld; omega
  have e2 : fld wd 4 7 = 0 := by unfold fld; omega
  have e3 : fld wd 0 4 = 4 := by unfold fld; omega
  have fd : bv wd 18 7 = d := bv_eq (by omega)
  have fp : bv wd 11 3 = p := bv_eq (by omega)
  simp [decodeNat, dec14, e0, e1, e2, e3, fd, fp]

theorem RoundTrip.vins (d : BitVec 7) (s : BitVec 5) (n : BitVec 5) : RoundTrip.Statement (.vins d s n) := by
  intro _ _
  have hd := d.isLt
  have hs := s.isLt
  have hn := n.isLt
  generalize hw : encodeNat (.vins d s n) = wd
  replace hw : 671088645 + d.toNat * 2 ^ 18 + s.toNat * 2 ^ 11 + n.toNat * 2 ^ 4 = wd := hw
  have e0 : fld wd 25 6 = 20 := by unfold fld; omega
  have e1 : fld wd 16 2 = 0 := by unfold fld; omega
  have e2 : fld wd 9 2 = 0 := by unfold fld; omega
  have e3 : fld wd 0 4 = 5 := by unfold fld; omega
  have fd : bv wd 18 7 = d := bv_eq (by omega)
  have fs : bv wd 11 5 = s := bv_eq (by omega)
  have fn : bv wd 4 5 = n := bv_eq (by omega)
  simp [decodeNat, dec14, e0, e1, e2, e3, fd, fs, fn]

theorem RoundTrip.vsel (d : BitVec 7) (a : BitVec 7) (b : BitVec 7) (k : BitVec 3) : RoundTrip.Statement (.vsel d a b k) := by
  intro _ _
  have hd := d.isLt
  have ha := a.isLt
  have hb := b.isLt
  have hk := k.isLt
  generalize hw : encodeNat (.vsel d a b k) = wd
  replace hw : 671088648 + d.toNat * 2 ^ 18 + a.toNat * 2 ^ 11 + b.toNat * 2 ^ 4 + k.toNat * 2 ^ 0 = wd := hw
  have e0 : fld wd 25 6 = 20 := by unfold fld; omega
  have e1 : fld wd 0 4 = 8 + k.toNat := by unfold fld; omega
  have fd : bv wd 18 7 = d := bv_eq (by omega)
  have fa : bv wd 11 7 = a := bv_eq (by omega)
  have fb : bv wd 4 7 = b := bv_eq (by omega)
  have fk : bv wd 0 3 = k := bv_eq (by omega)
  have hk8 : k.toNat = 0 ∨ k.toNat = 1 ∨ k.toNat = 2 ∨ k.toNat = 3 ∨ k.toNat = 4 ∨ k.toNat = 5 ∨ k.toNat = 6 ∨ k.toNat = 7 := by omega
  rcases hk8 with h | h | h | h | h | h | h | h <;> simp [decodeNat, dec14, e0, e1, fd, fa, fb, fk, h]

theorem RoundTrip.ldB32 (d : BitVec 7) (a : BitVec 7) (b : BitVec 4) (l : BitVec 4) : RoundTrip.Statement (.ldB32 d a b l) := by
  intro _ _
  have hd := d.isLt
  have ha := a.isLt
  have hb := b.isLt
  have hl := l.isLt
  generalize hw : encodeNat (.ldB32 d a b l) = wd
  replace hw : 704643072 + d.toNat * 2 ^ 18 + a.toNat * 2 ^ 11 + b.toNat * 2 ^ 7 + l.toNat * 2 ^ 0 = wd := hw
  have e0 : fld wd 25 6 = 21 := by unfold fld; omega
  have e1 : fld wd 4 3 = 0 := by unfold fld; omega
  have fd : bv wd 18 7 = d := bv_eq (by omega)
  have fa : bv wd 11 7 = a := bv_eq (by omega)
  have fb : bv wd 7 4 = b := bv_eq (by omega)
  have fl : bv wd 0 4 = l := bv_eq (by omega)
  simp [decodeNat, dec15, e0, e1, fd, fa, fb, fl]

theorem RoundTrip.ldNf (d : BitVec 7) (a : BitVec 7) (b : BitVec 4) (t : BitVec 3) (l : BitVec 4) : RoundTrip.Statement (.ldNf d a b t l) := by
  intro _ hwf
  replace hwf : t.toNat ≠ 0 := hwf
  have hf := fields_18w7_11w7_7w4_4w3_0w4 (m := 704643072) d a b t l (by decide)
  change decodeNat (put5 704643072 d 18 a 11 b 7 t 4 l 0) = _
  generalize put5 704643072 d 18 a 11 b 7 t 4 l 0 = wd at hf ⊢
  obtain ⟨e0, e1, fd, fa, fb, ft, fl⟩ : fld wd 25 6 = 21 ∧ fld wd 4 3 = t.toNat ∧ bv wd 18 7 = d ∧ bv wd 11 7 = a ∧ bv wd 7 4 = b ∧ bv wd 4 3 = t ∧ bv wd 0 4 = l := hf
  simp [decodeNat, dec15, e0, e1, fd, fa, fb, ft, fl, hwf]

theorem RoundTrip.stB32 (v : BitVec 7) (a : BitVec 7) (b : BitVec 4) (l : BitVec 4) : RoundTrip.Statement (.stB32 v a b l) := by
  intro _ _
  have hv := v.isLt
  have ha := a.isLt
  have hb := b.isLt
  have hl := l.isLt
  generalize hw : encodeNat (.stB32 v a b l) = wd
  replace hw : 738197504 + v.toNat * 2 ^ 18 + a.toNat * 2 ^ 11 + b.toNat * 2 ^ 7 + l.toNat * 2 ^ 0 = wd := hw
  have e0 : fld wd 25 6 = 22 := by unfold fld; omega
  have e1 : fld wd 4 3 = 0 := by unfold fld; omega
  have fv : bv wd 18 7 = v := bv_eq (by omega)
  have fa : bv wd 11 7 = a := bv_eq (by omega)
  have fb : bv wd 7 4 = b := bv_eq (by omega)
  have fl : bv wd 0 4 = l := bv_eq (by omega)
  simp [decodeNat, dec16, e0, e1, fv, fa, fb, fl]

theorem RoundTrip.stNf (v : BitVec 7) (a : BitVec 7) (b : BitVec 4) (t : BitVec 3) (l : BitVec 4) : RoundTrip.Statement (.stNf v a b t l) := by
  intro _ hwf
  replace hwf : t.toNat ≠ 0 := hwf
  have hf := fields_18w7_11w7_7w4_4w3_0w4 (m := 738197504) v a b t l (by decide)
  change decodeNat (put5 738197504 v 18 a 11 b 7 t 4 l 0) = _
  generalize put5 738197504 v 18 a 11 b 7 t 4 l 0 = wd at hf ⊢
  obtain ⟨e0, e1, fv, fa, fb, ft, fl⟩ : fld wd 25 6 = 22 ∧ fld wd 4 3 = t.toNat ∧ bv wd 18 7 = v ∧ bv wd 11 7 = a ∧ bv wd 7 4 = b ∧ bv wd 4 3 = t ∧ bv wd 0 4 = l := hf
  simp [decodeNat, dec16, e0, e1, fv, fa, fb, ft, fl, hwf]

theorem RoundTrip.pldB32 (d : BitVec 7) (a : BitVec 7) (l : BitVec 4) : RoundTrip.Statement (.pldB32 d a l) := by
  intro _ _
  have hf := fields_18w7_11w7_0w4 (m := 771751936) d a l (by decide)
  change decodeNat (put3 771751936 d 18 a 11 l 0) = _
  generalize put3 771751936 d 18 a 11 l 0 = wd at hf ⊢
  obtain ⟨e0, -, e2, e3, -, e5, -, fd, fa, fl⟩ : fld wd 25 6 = 23 ∧ fld wd 18 7 = d.toNat ∧ fld wd 8 3 = 0 ∧ fld wd 7 1 = 0 ∧ fld wd 7 4 = 0 ∧ fld wd 4 3 = 0 ∧ fld wd 4 4 = 0 ∧ bv wd 18 7 = d ∧ bv wd 11 7 = a ∧ bv wd 0 4 = l := hf
  simp [decodeNat, dec17, e0, e2, e3, e5, fd, fa, fl]

theorem RoundTrip.pldNf (d : BitVec 7) (a : BitVec 7) (t : BitVec 3) (l : BitVec 4) : RoundTrip.Statement (.pldNf d a t l) := by
  intro _ hwf
  replace hwf : t.toNat ≠ 0 := hwf
  have hf := fields_18w7_11w7_4w3_0w4 (m := 771751936) d a t l (by decide)
  change decodeNat (put4 771751936 d 18 a 11 t 4 l 0) = _
  generalize put4 771751936 d 18 a 11 t 4 l 0 = wd at hf ⊢
  obtain ⟨e0, -, e2, e3, e4, fd, fa, ft, fl⟩ : fld wd 25 6 = 23 ∧ fld wd 18 7 = d.toNat ∧ fld wd 8 3 = 0 ∧ fld wd 7 1 = 0 ∧ fld wd 4 3 = t.toNat ∧ bv wd 18 7 = d ∧ bv wd 11 7 = a ∧ bv wd 4 3 = t ∧ bv wd 0 4 = l := hf
  simp [decodeNat, dec17, e0, e2, e3, e4, fd, fa, ft, fl, hwf]

theorem RoundTrip.pstB32 (v : BitVec 7) (a : BitVec 7) (l : BitVec 4) : RoundTrip.Statement (.pstB32 v a l) := by
  intro _ _
  have hf := fields_18w7_11w7_0w4 (m := 771752192) v a l (by decide)
  change decodeNat (put3 771752192 v 18 a 11 l 0) = _
  generalize put3 771752192 v 18 a 11 l 0 = wd at hf ⊢
  obtain ⟨e0, -, e2, e3, -, e5, -, fv, fa, fl⟩ : fld wd 25 6 = 23 ∧ fld wd 18 7 = v.toNat ∧ fld wd 8 3 = 1 ∧ fld wd 7 1 = 0 ∧ fld wd 7 4 = 2 ∧ fld wd 4 3 = 0 ∧ fld wd 4 4 = 0 ∧ bv wd 18 7 = v ∧ bv wd 11 7 = a ∧ bv wd 0 4 = l := hf
  simp [decodeNat, dec17, e0, e2, e3, e5, fv, fa, fl]

theorem RoundTrip.pstNf (v : BitVec 7) (a : BitVec 7) (t : BitVec 3) (l : BitVec 4) : RoundTrip.Statement (.pstNf v a t l) := by
  intro _ hwf
  replace hwf : t.toNat ≠ 0 := hwf
  have hf := fields_18w7_11w7_4w3_0w4 (m := 771752192) v a t l (by decide)
  change decodeNat (put4 771752192 v 18 a 11 t 4 l 0) = _
  generalize put4 771752192 v 18 a 11 t 4 l 0 = wd at hf ⊢
  obtain ⟨e0, -, e2, e3, e4, fv, fa, ft, fl⟩ : fld wd 25 6 = 23 ∧ fld wd 18 7 = v.toNat ∧ fld wd 8 3 = 1 ∧ fld wd 7 1 = 0 ∧ fld wd 4 3 = t.toNat ∧ bv wd 18 7 = v ∧ bv wd 11 7 = a ∧ bv wd 4 3 = t ∧ bv wd 0 4 = l := hf
  simp [decodeNat, dec17, e0, e2, e3, e4, fv, fa, ft, fl, hwf]

theorem RoundTrip.pldB64 (d : BitVec 7) (a : BitVec 7) (l : BitVec 4) : RoundTrip.Statement (.pldB64 d a l) := by
  intro _ hwf
  replace hwf : d.toNat ≤ 126 := hwf
  have hf := fields_18w7_11w7_0w4 (m := 771752448) d a l (by decide)
  change decodeNat (put3 771752448 d 18 a 11 l 0) = _
  generalize put3 771752448 d 18 a 11 l 0 = wd at hf ⊢
  obtain ⟨e0, e1, e2, -, -, -, e6, fd, fa, fl⟩ : fld wd 25 6 = 23 ∧ fld wd 18 7 = d.toNat ∧ fld wd 8 3 = 2 ∧ fld wd 7 1 = 0 ∧ fld wd 7 4 = 4 ∧ fld wd 4 3 = 0 ∧ fld wd 4 4 = 0 ∧ bv wd 18 7 = d ∧ bv wd 11 7 = a ∧ bv wd 0 4 = l := hf
  simp [decodeNat, dec17, e0, e1, e2, e6, fd, fa, fl, hwf]

theorem RoundTrip.pstB64 (v : BitVec 7) (a : BitVec 7) (l : BitVec 4) : RoundTrip.Statement (.pstB64 v a l) := by
  intro _ hwf
  replace hwf : v.toNat ≤ 126 := hwf
  have hf := fields_18w7_11w7_0w4 (m := 771752704) v a l (by decide)
  change decodeNat (put3 771752704 v 18 a 11 l 0) = _
  generalize put3 771752704 v 18 a 11 l 0 = wd at hf ⊢
  obtain ⟨e0, e1, e2, -, -, -, e6, fv, fa, fl⟩ : fld wd 25 6 = 23 ∧ fld wd 18 7 = v.toNat ∧ fld wd 8 3 = 3 ∧ fld wd 7 1 = 0 ∧ fld wd 7 4 = 6 ∧ fld wd 4 3 = 0 ∧ fld wd 4 4 = 0 ∧ bv wd 18 7 = v ∧ bv wd 11 7 = a ∧ bv wd 0 4 = l := hf
  simp [decodeNat, dec17, e0, e1, e2, e6, fv, fa, fl, hwf]

theorem RoundTrip.ldtrB8 (d : BitVec 7) (a : BitVec 7) (t : BitVec 3) (l : BitVec 4) : RoundTrip.Statement (.ldtrB8 d a t l) := by
  intro _ _
  have hf := fields_18w7_11w7_4w3_0w4 (m := 771752960) d a t l (by decide)
  change decodeNat (put4 771752960 d 18 a 11 t 4 l 0) = _
  generalize put4 771752960 d 18 a 11 t 4 l 0 = wd at hf ⊢
  obtain ⟨e0, -, e2, e3, -, fd, fa, ft, fl⟩ : fld wd 25 6 = 23 ∧ fld wd 18 7 = d.toNat ∧ fld wd 8 3 = 4 ∧ fld wd 7 1 = 0 ∧ fld wd 4 3 = t.toNat ∧ bv wd 18 7 = d ∧ bv wd 11 7 = a ∧ bv wd 4 3 = t ∧ bv wd 0 4 = l := hf
  simp [decodeNat, dec17, e0, e2, e3, fd, fa, ft, fl]

theorem RoundTrip.ldtrB16 (d : BitVec 7) (a : BitVec 7) (t : BitVec 3) (l : BitVec 4) : RoundTrip.Statement (.ldtrB16 d a t l) := by
  intro _ hwf
  replace hwf : d.toNat ≤ 126 := hwf
  have hf := fields_18w7_11w7_4w3_0w4 (m := 771753216) d a t l (by decide)
  change decodeNat (put4 771753216 d 18 a 11 t 4 l 0) = _
  generalize put4 771753216 d 18 a 11 t 4 l 0 = wd at hf ⊢
  obtain ⟨e0, e1, e2, e3, -, fd, fa, ft, fl⟩ : fld wd 25 6 = 23 ∧ fld wd 18 7 = d.toNat ∧ fld wd 8 3 = 5 ∧ fld wd 7 1 = 0 ∧ fld wd 4 3 = t.toNat ∧ bv wd 18 7 = d ∧ bv wd 11 7 = a ∧ bv wd 4 3 = t ∧ bv wd 0 4 = l := hf
  simp [decodeNat, dec17, e0, e1, e2, e3, fd, fa, ft, fl, hwf]

theorem RoundTrip.ldtrB32 (d : BitVec 7) (a : BitVec 7) (t : BitVec 3) (l : BitVec 4) : RoundTrip.Statement (.ldtrB32 d a t l) := by
  intro _ hwf
  replace hwf : d.toNat ≤ 124 := hwf
  have hf := fields_18w7_11w7_4w3_0w4 (m := 771753472) d a t l (by decide)
  change decodeNat (put4 771753472 d 18 a 11 t 4 l 0) = _
  generalize put4 771753472 d 18 a 11 t 4 l 0 = wd at hf ⊢
  obtain ⟨e0, e1, e2, e3, -, fd, fa, ft, fl⟩ : fld wd 25 6 = 23 ∧ fld wd 18 7 = d.toNat ∧ fld wd 8 3 = 6 ∧ fld wd 7 1 = 0 ∧ fld wd 4 3 = t.toNat ∧ bv wd 18 7 = d ∧ bv wd 11 7 = a ∧ bv wd 4 3 = t ∧ bv wd 0 4 = l := hf
  simp [decodeNat, dec17, e0, e1, e2, e3, fd, fa, ft, fl, hwf]

theorem RoundTrip.atomAdd (a : BitVec 7) (s : BitVec 3) (b : BitVec 4) (w : BitVec 2) (l : BitVec 4) : RoundTrip.Statement (.atomAdd a s b w l) := by
  intro _ hwf
  replace hwf : w.toNat ≤ 1 ∧ s.toNat ≤ 6 ∧ a.toNat + (w.toNat + 1) ≤ 127 := hwf
  have hf := fields_18w7_11w3_7w4_4w2_0w4 (m := 805306432) a s b w l (by decide)
  change decodeNat (put5 805306432 a 18 s 11 b 7 w 4 l 0) = _
  generalize put5 805306432 a 18 s 11 b 7 w 4 l 0 = wd at hf ⊢
  obtain ⟨e0, e1, e2, e3, e4, e5, fa, fs, fb, fw, fl⟩ : fld wd 25 6 = 24 ∧ fld wd 18 7 = a.toNat ∧ fld wd 14 4 = 0 ∧ fld wd 11 3 = s.toNat ∧ fld wd 6 1 = 1 ∧ fld wd 4 2 = w.toNat ∧ bv wd 18 7 = a ∧ bv wd 11 3 = s ∧ bv wd 7 4 = b ∧ bv wd 4 2 = w ∧ bv wd 0 4 = l := hf
  simp [decodeNat, dec18, e0, e1, e2, e3, e4, e5, fa, fs, fb, fw, fl, hwf]

theorem RoundTrip.redAdd (a : BitVec 7) (s : BitVec 3) (b : BitVec 4) (w : BitVec 2) (l : BitVec 4) : RoundTrip.Statement (.redAdd a s b w l) := by
  intro _ hwf
  replace hwf : w.toNat ≤ 1 ∧ s.toNat ≤ 6 ∧ a.toNat + (w.toNat + 1) ≤ 127 := hwf
  have hf := fields_18w7_11w3_7w4_4w2_0w4 (m := 805306368) a s b w l (by decide)
  change decodeNat (put5 805306368 a 18 s 11 b 7 w 4 l 0) = _
  generalize put5 805306368 a 18 s 11 b 7 w 4 l 0 = wd at hf ⊢
  obtain ⟨e0, e1, e2, e3, e4, e5, fa, fs, fb, fw, fl⟩ : fld wd 25 6 = 24 ∧ fld wd 18 7 = a.toNat ∧ fld wd 14 4 = 0 ∧ fld wd 11 3 = s.toNat ∧ fld wd 6 1 = 0 ∧ fld wd 4 2 = w.toNat ∧ bv wd 18 7 = a ∧ bv wd 11 3 = s ∧ bv wd 7 4 = b ∧ bv wd 4 2 = w ∧ bv wd 0 4 = l := hf
  simp [decodeNat, dec18, e0, e1, e2, e3, e4, e5, fa, fs, fb, fw, fl, hwf]

theorem RoundTrip.atomAnd (a : BitVec 7) (s : BitVec 3) (b : BitVec 4) (w : BitVec 2) (l : BitVec 4) : RoundTrip.Statement (.atomAnd a s b w l) := by
  intro _ hwf
  replace hwf : w.toNat ≤ 1 ∧ s.toNat ≤ 6 ∧ a.toNat + (w.toNat + 1) ≤ 127 := hwf
  have hf := fields_18w7_11w3_7w4_4w2_0w4 (m := 805322816) a s b w l (by decide)
  change decodeNat (put5 805322816 a 18 s 11 b 7 w 4 l 0) = _
  generalize put5 805322816 a 18 s 11 b 7 w 4 l 0 = wd at hf ⊢
  obtain ⟨e0, e1, e2, e3, e4, e5, fa, fs, fb, fw, fl⟩ : fld wd 25 6 = 24 ∧ fld wd 18 7 = a.toNat ∧ fld wd 14 4 = 1 ∧ fld wd 11 3 = s.toNat ∧ fld wd 6 1 = 1 ∧ fld wd 4 2 = w.toNat ∧ bv wd 18 7 = a ∧ bv wd 11 3 = s ∧ bv wd 7 4 = b ∧ bv wd 4 2 = w ∧ bv wd 0 4 = l := hf
  simp [decodeNat, dec18, e0, e1, e2, e3, e4, e5, fa, fs, fb, fw, fl, hwf]

theorem RoundTrip.redAnd (a : BitVec 7) (s : BitVec 3) (b : BitVec 4) (w : BitVec 2) (l : BitVec 4) : RoundTrip.Statement (.redAnd a s b w l) := by
  intro _ hwf
  replace hwf : w.toNat ≤ 1 ∧ s.toNat ≤ 6 ∧ a.toNat + (w.toNat + 1) ≤ 127 := hwf
  have hf := fields_18w7_11w3_7w4_4w2_0w4 (m := 805322752) a s b w l (by decide)
  change decodeNat (put5 805322752 a 18 s 11 b 7 w 4 l 0) = _
  generalize put5 805322752 a 18 s 11 b 7 w 4 l 0 = wd at hf ⊢
  obtain ⟨e0, e1, e2, e3, e4, e5, fa, fs, fb, fw, fl⟩ : fld wd 25 6 = 24 ∧ fld wd 18 7 = a.toNat ∧ fld wd 14 4 = 1 ∧ fld wd 11 3 = s.toNat ∧ fld wd 6 1 = 0 ∧ fld wd 4 2 = w.toNat ∧ bv wd 18 7 = a ∧ bv wd 11 3 = s ∧ bv wd 7 4 = b ∧ bv wd 4 2 = w ∧ bv wd 0 4 = l := hf
  simp [decodeNat, dec18, e0, e1, e2, e3, e4, e5, fa, fs, fb, fw, fl, hwf]

theorem RoundTrip.atomOr (a : BitVec 7) (s : BitVec 3) (b : BitVec 4) (w : BitVec 2) (l : BitVec 4) : RoundTrip.Statement (.atomOr a s b w l) := by
  intro _ hwf
  replace hwf : w.toNat ≤ 1 ∧ s.toNat ≤ 6 ∧ a.toNat + (w.toNat + 1) ≤ 127 := hwf
  have hf := fields_18w7_11w3_7w4_4w2_0w4 (m := 805339200) a s b w l (by decide)
  change decodeNat (put5 805339200 a 18 s 11 b 7 w 4 l 0) = _
  generalize put5 805339200 a 18 s 11 b 7 w 4 l 0 = wd at hf ⊢
  obtain ⟨e0, e1, e2, e3, e4, e5, fa, fs, fb, fw, fl⟩ : fld wd 25 6 = 24 ∧ fld wd 18 7 = a.toNat ∧ fld wd 14 4 = 2 ∧ fld wd 11 3 = s.toNat ∧ fld wd 6 1 = 1 ∧ fld wd 4 2 = w.toNat ∧ bv wd 18 7 = a ∧ bv wd 11 3 = s ∧ bv wd 7 4 = b ∧ bv wd 4 2 = w ∧ bv wd 0 4 = l := hf
  simp [decodeNat, dec18, e0, e1, e2, e3, e4, e5, fa, fs, fb, fw, fl, hwf]

theorem RoundTrip.redOr (a : BitVec 7) (s : BitVec 3) (b : BitVec 4) (w : BitVec 2) (l : BitVec 4) : RoundTrip.Statement (.redOr a s b w l) := by
  intro _ hwf
  replace hwf : w.toNat ≤ 1 ∧ s.toNat ≤ 6 ∧ a.toNat + (w.toNat + 1) ≤ 127 := hwf
  have hf := fields_18w7_11w3_7w4_4w2_0w4 (m := 805339136) a s b w l (by decide)
  change decodeNat (put5 805339136 a 18 s 11 b 7 w 4 l 0) = _
  generalize put5 805339136 a 18 s 11 b 7 w 4 l 0 = wd at hf ⊢
  obtain ⟨e0, e1, e2, e3, e4, e5, fa, fs, fb, fw, fl⟩ : fld wd 25 6 = 24 ∧ fld wd 18 7 = a.toNat ∧ fld wd 14 4 = 2 ∧ fld wd 11 3 = s.toNat ∧ fld wd 6 1 = 0 ∧ fld wd 4 2 = w.toNat ∧ bv wd 18 7 = a ∧ bv wd 11 3 = s ∧ bv wd 7 4 = b ∧ bv wd 4 2 = w ∧ bv wd 0 4 = l := hf
  simp [decodeNat, dec18, e0, e1, e2, e3, e4, e5, fa, fs, fb, fw, fl, hwf]

theorem RoundTrip.atomXor (a : BitVec 7) (s : BitVec 3) (b : BitVec 4) (w : BitVec 2) (l : BitVec 4) : RoundTrip.Statement (.atomXor a s b w l) := by
  intro _ hwf
  replace hwf : w.toNat ≤ 1 ∧ s.toNat ≤ 6 ∧ a.toNat + (w.toNat + 1) ≤ 127 := hwf
  have hf := fields_18w7_11w3_7w4_4w2_0w4 (m := 805355584) a s b w l (by decide)
  change decodeNat (put5 805355584 a 18 s 11 b 7 w 4 l 0) = _
  generalize put5 805355584 a 18 s 11 b 7 w 4 l 0 = wd at hf ⊢
  obtain ⟨e0, e1, e2, e3, e4, e5, fa, fs, fb, fw, fl⟩ : fld wd 25 6 = 24 ∧ fld wd 18 7 = a.toNat ∧ fld wd 14 4 = 3 ∧ fld wd 11 3 = s.toNat ∧ fld wd 6 1 = 1 ∧ fld wd 4 2 = w.toNat ∧ bv wd 18 7 = a ∧ bv wd 11 3 = s ∧ bv wd 7 4 = b ∧ bv wd 4 2 = w ∧ bv wd 0 4 = l := hf
  simp [decodeNat, dec18, e0, e1, e2, e3, e4, e5, fa, fs, fb, fw, fl, hwf]

theorem RoundTrip.redXor (a : BitVec 7) (s : BitVec 3) (b : BitVec 4) (w : BitVec 2) (l : BitVec 4) : RoundTrip.Statement (.redXor a s b w l) := by
  intro _ hwf
  replace hwf : w.toNat ≤ 1 ∧ s.toNat ≤ 6 ∧ a.toNat + (w.toNat + 1) ≤ 127 := hwf
  have hf := fields_18w7_11w3_7w4_4w2_0w4 (m := 805355520) a s b w l (by decide)
  change decodeNat (put5 805355520 a 18 s 11 b 7 w 4 l 0) = _
  generalize put5 805355520 a 18 s 11 b 7 w 4 l 0 = wd at hf ⊢
  obtain ⟨e0, e1, e2, e3, e4, e5, fa, fs, fb, fw, fl⟩ : fld wd 25 6 = 24 ∧ fld wd 18 7 = a.toNat ∧ fld wd 14 4 = 3 ∧ fld wd 11 3 = s.toNat ∧ fld wd 6 1 = 0 ∧ fld wd 4 2 = w.toNat ∧ bv wd 18 7 = a ∧ bv wd 11 3 = s ∧ bv wd 7 4 = b ∧ bv wd 4 2 = w ∧ bv wd 0 4 = l := hf
  simp [decodeNat, dec18, e0, e1, e2, e3, e4, e5, fa, fs, fb, fw, fl, hwf]

theorem RoundTrip.atomMinI (a : BitVec 7) (s : BitVec 3) (b : BitVec 4) (w : BitVec 2) (l : BitVec 4) : RoundTrip.Statement (.atomMinI a s b w l) := by
  intro _ hwf
  replace hwf : w.toNat ≤ 1 ∧ s.toNat ≤ 6 ∧ a.toNat + (w.toNat + 1) ≤ 127 := hwf
  have hf := fields_18w7_11w3_7w4_4w2_0w4 (m := 805371968) a s b w l (by decide)
  change decodeNat (put5 805371968 a 18 s 11 b 7 w 4 l 0) = _
  generalize put5 805371968 a 18 s 11 b 7 w 4 l 0 = wd at hf ⊢
  obtain ⟨e0, e1, e2, e3, e4, e5, fa, fs, fb, fw, fl⟩ : fld wd 25 6 = 24 ∧ fld wd 18 7 = a.toNat ∧ fld wd 14 4 = 4 ∧ fld wd 11 3 = s.toNat ∧ fld wd 6 1 = 1 ∧ fld wd 4 2 = w.toNat ∧ bv wd 18 7 = a ∧ bv wd 11 3 = s ∧ bv wd 7 4 = b ∧ bv wd 4 2 = w ∧ bv wd 0 4 = l := hf
  simp [decodeNat, dec18, e0, e1, e2, e3, e4, e5, fa, fs, fb, fw, fl, hwf]

theorem RoundTrip.redMinI (a : BitVec 7) (s : BitVec 3) (b : BitVec 4) (w : BitVec 2) (l : BitVec 4) : RoundTrip.Statement (.redMinI a s b w l) := by
  intro _ hwf
  replace hwf : w.toNat ≤ 1 ∧ s.toNat ≤ 6 ∧ a.toNat + (w.toNat + 1) ≤ 127 := hwf
  have hf := fields_18w7_11w3_7w4_4w2_0w4 (m := 805371904) a s b w l (by decide)
  change decodeNat (put5 805371904 a 18 s 11 b 7 w 4 l 0) = _
  generalize put5 805371904 a 18 s 11 b 7 w 4 l 0 = wd at hf ⊢
  obtain ⟨e0, e1, e2, e3, e4, e5, fa, fs, fb, fw, fl⟩ : fld wd 25 6 = 24 ∧ fld wd 18 7 = a.toNat ∧ fld wd 14 4 = 4 ∧ fld wd 11 3 = s.toNat ∧ fld wd 6 1 = 0 ∧ fld wd 4 2 = w.toNat ∧ bv wd 18 7 = a ∧ bv wd 11 3 = s ∧ bv wd 7 4 = b ∧ bv wd 4 2 = w ∧ bv wd 0 4 = l := hf
  simp [decodeNat, dec18, e0, e1, e2, e3, e4, e5, fa, fs, fb, fw, fl, hwf]

theorem RoundTrip.atomMaxI (a : BitVec 7) (s : BitVec 3) (b : BitVec 4) (w : BitVec 2) (l : BitVec 4) : RoundTrip.Statement (.atomMaxI a s b w l) := by
  intro _ hwf
  replace hwf : w.toNat ≤ 1 ∧ s.toNat ≤ 6 ∧ a.toNat + (w.toNat + 1) ≤ 127 := hwf
  have hf := fields_18w7_11w3_7w4_4w2_0w4 (m := 805388352) a s b w l (by decide)
  change decodeNat (put5 805388352 a 18 s 11 b 7 w 4 l 0) = _
  generalize put5 805388352 a 18 s 11 b 7 w 4 l 0 = wd at hf ⊢
  obtain ⟨e0, e1, e2, e3, e4, e5, fa, fs, fb, fw, fl⟩ : fld wd 25 6 = 24 ∧ fld wd 18 7 = a.toNat ∧ fld wd 14 4 = 5 ∧ fld wd 11 3 = s.toNat ∧ fld wd 6 1 = 1 ∧ fld wd 4 2 = w.toNat ∧ bv wd 18 7 = a ∧ bv wd 11 3 = s ∧ bv wd 7 4 = b ∧ bv wd 4 2 = w ∧ bv wd 0 4 = l := hf
  simp [decodeNat, dec18, e0, e1, e2, e3, e4, e5, fa, fs, fb, fw, fl, hwf]

theorem RoundTrip.redMaxI (a : BitVec 7) (s : BitVec 3) (b : BitVec 4) (w : BitVec 2) (l : BitVec 4) : RoundTrip.Statement (.redMaxI a s b w l) := by
  intro _ hwf
  replace hwf : w.toNat ≤ 1 ∧ s.toNat ≤ 6 ∧ a.toNat + (w.toNat + 1) ≤ 127 := hwf
  have hf := fields_18w7_11w3_7w4_4w2_0w4 (m := 805388288) a s b w l (by decide)
  change decodeNat (put5 805388288 a 18 s 11 b 7 w 4 l 0) = _
  generalize put5 805388288 a 18 s 11 b 7 w 4 l 0 = wd at hf ⊢
  obtain ⟨e0, e1, e2, e3, e4, e5, fa, fs, fb, fw, fl⟩ : fld wd 25 6 = 24 ∧ fld wd 18 7 = a.toNat ∧ fld wd 14 4 = 5 ∧ fld wd 11 3 = s.toNat ∧ fld wd 6 1 = 0 ∧ fld wd 4 2 = w.toNat ∧ bv wd 18 7 = a ∧ bv wd 11 3 = s ∧ bv wd 7 4 = b ∧ bv wd 4 2 = w ∧ bv wd 0 4 = l := hf
  simp [decodeNat, dec18, e0, e1, e2, e3, e4, e5, fa, fs, fb, fw, fl, hwf]

theorem RoundTrip.atomMinN (a : BitVec 7) (s : BitVec 3) (b : BitVec 4) (w : BitVec 2) (l : BitVec 4) : RoundTrip.Statement (.atomMinN a s b w l) := by
  intro _ hwf
  replace hwf : w.toNat ≤ 1 ∧ s.toNat ≤ 6 ∧ a.toNat + (w.toNat + 1) ≤ 127 := hwf
  have hf := fields_18w7_11w3_7w4_4w2_0w4 (m := 805404736) a s b w l (by decide)
  change decodeNat (put5 805404736 a 18 s 11 b 7 w 4 l 0) = _
  generalize put5 805404736 a 18 s 11 b 7 w 4 l 0 = wd at hf ⊢
  obtain ⟨e0, e1, e2, e3, e4, e5, fa, fs, fb, fw, fl⟩ : fld wd 25 6 = 24 ∧ fld wd 18 7 = a.toNat ∧ fld wd 14 4 = 6 ∧ fld wd 11 3 = s.toNat ∧ fld wd 6 1 = 1 ∧ fld wd 4 2 = w.toNat ∧ bv wd 18 7 = a ∧ bv wd 11 3 = s ∧ bv wd 7 4 = b ∧ bv wd 4 2 = w ∧ bv wd 0 4 = l := hf
  simp [decodeNat, dec18, e0, e1, e2, e3, e4, e5, fa, fs, fb, fw, fl, hwf]

theorem RoundTrip.redMinN (a : BitVec 7) (s : BitVec 3) (b : BitVec 4) (w : BitVec 2) (l : BitVec 4) : RoundTrip.Statement (.redMinN a s b w l) := by
  intro _ hwf
  replace hwf : w.toNat ≤ 1 ∧ s.toNat ≤ 6 ∧ a.toNat + (w.toNat + 1) ≤ 127 := hwf
  have hf := fields_18w7_11w3_7w4_4w2_0w4 (m := 805404672) a s b w l (by decide)
  change decodeNat (put5 805404672 a 18 s 11 b 7 w 4 l 0) = _
  generalize put5 805404672 a 18 s 11 b 7 w 4 l 0 = wd at hf ⊢
  obtain ⟨e0, e1, e2, e3, e4, e5, fa, fs, fb, fw, fl⟩ : fld wd 25 6 = 24 ∧ fld wd 18 7 = a.toNat ∧ fld wd 14 4 = 6 ∧ fld wd 11 3 = s.toNat ∧ fld wd 6 1 = 0 ∧ fld wd 4 2 = w.toNat ∧ bv wd 18 7 = a ∧ bv wd 11 3 = s ∧ bv wd 7 4 = b ∧ bv wd 4 2 = w ∧ bv wd 0 4 = l := hf
  simp [decodeNat, dec18, e0, e1, e2, e3, e4, e5, fa, fs, fb, fw, fl, hwf]

theorem RoundTrip.atomMaxN (a : BitVec 7) (s : BitVec 3) (b : BitVec 4) (w : BitVec 2) (l : BitVec 4) : RoundTrip.Statement (.atomMaxN a s b w l) := by
  intro _ hwf
  replace hwf : w.toNat ≤ 1 ∧ s.toNat ≤ 6 ∧ a.toNat + (w.toNat + 1) ≤ 127 := hwf
  have hf := fields_18w7_11w3_7w4_4w2_0w4 (m := 805421120) a s b w l (by decide)
  change decodeNat (put5 805421120 a 18 s 11 b 7 w 4 l 0) = _
  generalize put5 805421120 a 18 s 11 b 7 w 4 l 0 = wd at hf ⊢
  obtain ⟨e0, e1, e2, e3, e4, e5, fa, fs, fb, fw, fl⟩ : fld wd 25 6 = 24 ∧ fld wd 18 7 = a.toNat ∧ fld wd 14 4 = 7 ∧ fld wd 11 3 = s.toNat ∧ fld wd 6 1 = 1 ∧ fld wd 4 2 = w.toNat ∧ bv wd 18 7 = a ∧ bv wd 11 3 = s ∧ bv wd 7 4 = b ∧ bv wd 4 2 = w ∧ bv wd 0 4 = l := hf
  simp [decodeNat, dec18, e0, e1, e2, e3, e4, e5, fa, fs, fb, fw, fl, hwf]

theorem RoundTrip.redMaxN (a : BitVec 7) (s : BitVec 3) (b : BitVec 4) (w : BitVec 2) (l : BitVec 4) : RoundTrip.Statement (.redMaxN a s b w l) := by
  intro _ hwf
  replace hwf : w.toNat ≤ 1 ∧ s.toNat ≤ 6 ∧ a.toNat + (w.toNat + 1) ≤ 127 := hwf
  have hf := fields_18w7_11w3_7w4_4w2_0w4 (m := 805421056) a s b w l (by decide)
  change decodeNat (put5 805421056 a 18 s 11 b 7 w 4 l 0) = _
  generalize put5 805421056 a 18 s 11 b 7 w 4 l 0 = wd at hf ⊢
  obtain ⟨e0, e1, e2, e3, e4, e5, fa, fs, fb, fw, fl⟩ : fld wd 25 6 = 24 ∧ fld wd 18 7 = a.toNat ∧ fld wd 14 4 = 7 ∧ fld wd 11 3 = s.toNat ∧ fld wd 6 1 = 0 ∧ fld wd 4 2 = w.toNat ∧ bv wd 18 7 = a ∧ bv wd 11 3 = s ∧ bv wd 7 4 = b ∧ bv wd 4 2 = w ∧ bv wd 0 4 = l := hf
  simp [decodeNat, dec18, e0, e1, e2, e3, e4, e5, fa, fs, fb, fw, fl, hwf]

theorem RoundTrip.atomExch (a : BitVec 7) (s : BitVec 3) (b : BitVec 4) (w : BitVec 2) (l : BitVec 4) : RoundTrip.Statement (.atomExch a s b w l) := by
  intro _ hwf
  replace hwf : w.toNat ≤ 1 ∧ s.toNat ≤ 6 ∧ a.toNat + (w.toNat + 1) ≤ 127 := hwf
  have hf := fields_18w7_11w3_7w4_4w2_0w4 (m := 805437504) a s b w l (by decide)
  change decodeNat (put5 805437504 a 18 s 11 b 7 w 4 l 0) = _
  generalize put5 805437504 a 18 s 11 b 7 w 4 l 0 = wd at hf ⊢
  obtain ⟨e0, e1, e2, e3, e4, e5, fa, fs, fb, fw, fl⟩ : fld wd 25 6 = 24 ∧ fld wd 18 7 = a.toNat ∧ fld wd 14 4 = 8 ∧ fld wd 11 3 = s.toNat ∧ fld wd 6 1 = 1 ∧ fld wd 4 2 = w.toNat ∧ bv wd 18 7 = a ∧ bv wd 11 3 = s ∧ bv wd 7 4 = b ∧ bv wd 4 2 = w ∧ bv wd 0 4 = l := hf
  simp [decodeNat, dec18, e0, e1, e2, e3, e4, e5, fa, fs, fb, fw, fl, hwf]

theorem RoundTrip.redExch (a : BitVec 7) (s : BitVec 3) (b : BitVec 4) (w : BitVec 2) (l : BitVec 4) : RoundTrip.Statement (.redExch a s b w l) := by
  intro _ hwf
  replace hwf : w.toNat ≤ 1 ∧ s.toNat ≤ 6 ∧ a.toNat + (w.toNat + 1) ≤ 127 := hwf
  have hf := fields_18w7_11w3_7w4_4w2_0w4 (m := 805437440) a s b w l (by decide)
  change decodeNat (put5 805437440 a 18 s 11 b 7 w 4 l 0) = _
  generalize put5 805437440 a 18 s 11 b 7 w 4 l 0 = wd at hf ⊢
  obtain ⟨e0, e1, e2, e3, e4, e5, fa, fs, fb, fw, fl⟩ : fld wd 25 6 = 24 ∧ fld wd 18 7 = a.toNat ∧ fld wd 14 4 = 8 ∧ fld wd 11 3 = s.toNat ∧ fld wd 6 1 = 0 ∧ fld wd 4 2 = w.toNat ∧ bv wd 18 7 = a ∧ bv wd 11 3 = s ∧ bv wd 7 4 = b ∧ bv wd 4 2 = w ∧ bv wd 0 4 = l := hf
  simp [decodeNat, dec18, e0, e1, e2, e3, e4, e5, fa, fs, fb, fw, fl, hwf]

theorem RoundTrip.atomCas (a : BitVec 7) (s : BitVec 3) (b : BitVec 4) (w : BitVec 2) (l : BitVec 4) : RoundTrip.Statement (.atomCas a s b w l) := by
  intro _ hwf
  replace hwf : w.toNat ≤ 1 ∧ s.toNat ≤ 6 ∧ a.toNat + 2 * (w.toNat + 1) ≤ 127 := hwf
  have hf := fields_18w7_11w3_7w4_4w2_0w4 (m := 805453888) a s b w l (by decide)
  change decodeNat (put5 805453888 a 18 s 11 b 7 w 4 l 0) = _
  generalize put5 805453888 a 18 s 11 b 7 w 4 l 0 = wd at hf ⊢
  obtain ⟨e0, e1, e2, e3, e4, e5, fa, fs, fb, fw, fl⟩ : fld wd 25 6 = 24 ∧ fld wd 18 7 = a.toNat ∧ fld wd 14 4 = 9 ∧ fld wd 11 3 = s.toNat ∧ fld wd 6 1 = 1 ∧ fld wd 4 2 = w.toNat ∧ bv wd 18 7 = a ∧ bv wd 11 3 = s ∧ bv wd 7 4 = b ∧ bv wd 4 2 = w ∧ bv wd 0 4 = l := hf
  simp [decodeNat, dec18, e0, e1, e2, e3, e4, e5, fa, fs, fb, fw, fl, hwf]

theorem RoundTrip.atomInc (a : BitVec 7) (s : BitVec 3) (b : BitVec 4) (w : BitVec 2) (l : BitVec 4) : RoundTrip.Statement (.atomInc a s b w l) := by
  intro _ hwf
  replace hwf : w.toNat ≤ 1 ∧ s.toNat ≤ 6 ∧ a.toNat + (w.toNat + 1) ≤ 127 := hwf
  have hf := fields_18w7_11w3_7w4_4w2_0w4 (m := 805470272) a s b w l (by decide)
  change decodeNat (put5 805470272 a 18 s 11 b 7 w 4 l 0) = _
  generalize put5 805470272 a 18 s 11 b 7 w 4 l 0 = wd at hf ⊢
  obtain ⟨e0, e1, e2, e3, e4, e5, fa, fs, fb, fw, fl⟩ : fld wd 25 6 = 24 ∧ fld wd 18 7 = a.toNat ∧ fld wd 14 4 = 10 ∧ fld wd 11 3 = s.toNat ∧ fld wd 6 1 = 1 ∧ fld wd 4 2 = w.toNat ∧ bv wd 18 7 = a ∧ bv wd 11 3 = s ∧ bv wd 7 4 = b ∧ bv wd 4 2 = w ∧ bv wd 0 4 = l := hf
  simp [decodeNat, dec18, e0, e1, e2, e3, e4, e5, fa, fs, fb, fw, fl, hwf]

theorem RoundTrip.redInc (a : BitVec 7) (s : BitVec 3) (b : BitVec 4) (w : BitVec 2) (l : BitVec 4) : RoundTrip.Statement (.redInc a s b w l) := by
  intro _ hwf
  replace hwf : w.toNat ≤ 1 ∧ s.toNat ≤ 6 ∧ a.toNat + (w.toNat + 1) ≤ 127 := hwf
  have hf := fields_18w7_11w3_7w4_4w2_0w4 (m := 805470208) a s b w l (by decide)
  change decodeNat (put5 805470208 a 18 s 11 b 7 w 4 l 0) = _
  generalize put5 805470208 a 18 s 11 b 7 w 4 l 0 = wd at hf ⊢
  obtain ⟨e0, e1, e2, e3, e4, e5, fa, fs, fb, fw, fl⟩ : fld wd 25 6 = 24 ∧ fld wd 18 7 = a.toNat ∧ fld wd 14 4 = 10 ∧ fld wd 11 3 = s.toNat ∧ fld wd 6 1 = 0 ∧ fld wd 4 2 = w.toNat ∧ bv wd 18 7 = a ∧ bv wd 11 3 = s ∧ bv wd 7 4 = b ∧ bv wd 4 2 = w ∧ bv wd 0 4 = l := hf
  simp [decodeNat, dec18, e0, e1, e2, e3, e4, e5, fa, fs, fb, fw, fl, hwf]

theorem RoundTrip.atomDec (a : BitVec 7) (s : BitVec 3) (b : BitVec 4) (w : BitVec 2) (l : BitVec 4) : RoundTrip.Statement (.atomDec a s b w l) := by
  intro _ hwf
  replace hwf : w.toNat ≤ 1 ∧ s.toNat ≤ 6 ∧ a.toNat + (w.toNat + 1) ≤ 127 := hwf
  have hf := fields_18w7_11w3_7w4_4w2_0w4 (m := 805486656) a s b w l (by decide)
  change decodeNat (put5 805486656 a 18 s 11 b 7 w 4 l 0) = _
  generalize put5 805486656 a 18 s 11 b 7 w 4 l 0 = wd at hf ⊢
  obtain ⟨e0, e1, e2, e3, e4, e5, fa, fs, fb, fw, fl⟩ : fld wd 25 6 = 24 ∧ fld wd 18 7 = a.toNat ∧ fld wd 14 4 = 11 ∧ fld wd 11 3 = s.toNat ∧ fld wd 6 1 = 1 ∧ fld wd 4 2 = w.toNat ∧ bv wd 18 7 = a ∧ bv wd 11 3 = s ∧ bv wd 7 4 = b ∧ bv wd 4 2 = w ∧ bv wd 0 4 = l := hf
  simp [decodeNat, dec18, e0, e1, e2, e3, e4, e5, fa, fs, fb, fw, fl, hwf]

theorem RoundTrip.redDec (a : BitVec 7) (s : BitVec 3) (b : BitVec 4) (w : BitVec 2) (l : BitVec 4) : RoundTrip.Statement (.redDec a s b w l) := by
  intro _ hwf
  replace hwf : w.toNat ≤ 1 ∧ s.toNat ≤ 6 ∧ a.toNat + (w.toNat + 1) ≤ 127 := hwf
  have hf := fields_18w7_11w3_7w4_4w2_0w4 (m := 805486592) a s b w l (by decide)
  change decodeNat (put5 805486592 a 18 s 11 b 7 w 4 l 0) = _
  generalize put5 805486592 a 18 s 11 b 7 w 4 l 0 = wd at hf ⊢
  obtain ⟨e0, e1, e2, e3, e4, e5, fa, fs, fb, fw, fl⟩ : fld wd 25 6 = 24 ∧ fld wd 18 7 = a.toNat ∧ fld wd 14 4 = 11 ∧ fld wd 11 3 = s.toNat ∧ fld wd 6 1 = 0 ∧ fld wd 4 2 = w.toNat ∧ bv wd 18 7 = a ∧ bv wd 11 3 = s ∧ bv wd 7 4 = b ∧ bv wd 4 2 = w ∧ bv wd 0 4 = l := hf
  simp [decodeNat, dec18, e0, e1, e2, e3, e4, e5, fa, fs, fb, fw, fl, hwf]

theorem RoundTrip.atomFadd (a : BitVec 7) (s : BitVec 3) (b : BitVec 4) (l : BitVec 4) : RoundTrip.Statement (.atomFadd a s b l) := by
  intro _ hwf
  replace hwf : s.toNat ≤ 6 ∧ a.toNat + 1 ≤ 127 := hwf
  have hf := fields_18w7_11w3_7w4_0w4 (m := 805503040) a s b l (by decide)
  change decodeNat (put4 805503040 a 18 s 11 b 7 l 0) = _
  generalize put4 805503040 a 18 s 11 b 7 l 0 = wd at hf ⊢
  obtain ⟨e0, e1, e2, e3, e4, e5, fa, fs, fb, fl⟩ : fld wd 25 6 = 24 ∧ fld wd 18 7 = a.toNat ∧ fld wd 14 4 = 12 ∧ fld wd 11 3 = s.toNat ∧ fld wd 6 1 = 1 ∧ fld wd 4 2 = 0 ∧ bv wd 18 7 = a ∧ bv wd 11 3 = s ∧ bv wd 7 4 = b ∧ bv wd 0 4 = l := hf
  simp [decodeNat, dec18, e0, e1, e2, e3, e4, e5, fa, fs, fb, fl, hwf]

theorem RoundTrip.redFadd (a : BitVec 7) (s : BitVec 3) (b : BitVec 4) (l : BitVec 4) : RoundTrip.Statement (.redFadd a s b l) := by
  intro _ hwf
  replace hwf : s.toNat ≤ 6 ∧ a.toNat + 1 ≤ 127 := hwf
  have hf := fields_18w7_11w3_7w4_0w4 (m := 805502976) a s b l (by decide)
  change decodeNat (put4 805502976 a 18 s 11 b 7 l 0) = _
  generalize put4 805502976 a 18 s 11 b 7 l 0 = wd at hf ⊢
  obtain ⟨e0, e1, e2, e3, e4, e5, fa, fs, fb, fl⟩ : fld wd 25 6 = 24 ∧ fld wd 18 7 = a.toNat ∧ fld wd 14 4 = 12 ∧ fld wd 11 3 = s.toNat ∧ fld wd 6 1 = 0 ∧ fld wd 4 2 = 0 ∧ bv wd 18 7 = a ∧ bv wd 11 3 = s ∧ bv wd 7 4 = b ∧ bv wd 0 4 = l := hf
  simp [decodeNat, dec18, e0, e1, e2, e3, e4, e5, fa, fs, fb, fl, hwf]

theorem RoundTrip.atomFmax (a : BitVec 7) (s : BitVec 3) (b : BitVec 4) (l : BitVec 4) : RoundTrip.Statement (.atomFmax a s b l) := by
  intro _ hwf
  replace hwf : s.toNat ≤ 6 ∧ a.toNat + 1 ≤ 127 := hwf
  have hf := fields_18w7_11w3_7w4_0w4 (m := 805519424) a s b l (by decide)
  change decodeNat (put4 805519424 a 18 s 11 b 7 l 0) = _
  generalize put4 805519424 a 18 s 11 b 7 l 0 = wd at hf ⊢
  obtain ⟨e0, e1, e2, e3, e4, e5, fa, fs, fb, fl⟩ : fld wd 25 6 = 24 ∧ fld wd 18 7 = a.toNat ∧ fld wd 14 4 = 13 ∧ fld wd 11 3 = s.toNat ∧ fld wd 6 1 = 1 ∧ fld wd 4 2 = 0 ∧ bv wd 18 7 = a ∧ bv wd 11 3 = s ∧ bv wd 7 4 = b ∧ bv wd 0 4 = l := hf
  simp [decodeNat, dec18, e0, e1, e2, e3, e4, e5, fa, fs, fb, fl, hwf]

theorem RoundTrip.redFmax (a : BitVec 7) (s : BitVec 3) (b : BitVec 4) (l : BitVec 4) : RoundTrip.Statement (.redFmax a s b l) := by
  intro _ hwf
  replace hwf : s.toNat ≤ 6 ∧ a.toNat + 1 ≤ 127 := hwf
  have hf := fields_18w7_11w3_7w4_0w4 (m := 805519360) a s b l (by decide)
  change decodeNat (put4 805519360 a 18 s 11 b 7 l 0) = _
  generalize put4 805519360 a 18 s 11 b 7 l 0 = wd at hf ⊢
  obtain ⟨e0, e1, e2, e3, e4, e5, fa, fs, fb, fl⟩ : fld wd 25 6 = 24 ∧ fld wd 18 7 = a.toNat ∧ fld wd 14 4 = 13 ∧ fld wd 11 3 = s.toNat ∧ fld wd 6 1 = 0 ∧ fld wd 4 2 = 0 ∧ bv wd 18 7 = a ∧ bv wd 11 3 = s ∧ bv wd 7 4 = b ∧ bv wd 0 4 = l := hf
  simp [decodeNat, dec18, e0, e1, e2, e3, e4, e5, fa, fs, fb, fl, hwf]

theorem RoundTrip.atomFmin (a : BitVec 7) (s : BitVec 3) (b : BitVec 4) (l : BitVec 4) : RoundTrip.Statement (.atomFmin a s b l) := by
  intro _ hwf
  replace hwf : s.toNat ≤ 6 ∧ a.toNat + 1 ≤ 127 := hwf
  have hf := fields_18w7_11w3_7w4_0w4 (m := 805535808) a s b l (by decide)
  change decodeNat (put4 805535808 a 18 s 11 b 7 l 0) = _
  generalize put4 805535808 a 18 s 11 b 7 l 0 = wd at hf ⊢
  obtain ⟨e0, e1, e2, e3, e4, e5, fa, fs, fb, fl⟩ : fld wd 25 6 = 24 ∧ fld wd 18 7 = a.toNat ∧ fld wd 14 4 = 14 ∧ fld wd 11 3 = s.toNat ∧ fld wd 6 1 = 1 ∧ fld wd 4 2 = 0 ∧ bv wd 18 7 = a ∧ bv wd 11 3 = s ∧ bv wd 7 4 = b ∧ bv wd 0 4 = l := hf
  simp [decodeNat, dec18, e0, e1, e2, e3, e4, e5, fa, fs, fb, fl, hwf]

theorem RoundTrip.redFmin (a : BitVec 7) (s : BitVec 3) (b : BitVec 4) (l : BitVec 4) : RoundTrip.Statement (.redFmin a s b l) := by
  intro _ hwf
  replace hwf : s.toNat ≤ 6 ∧ a.toNat + 1 ≤ 127 := hwf
  have hf := fields_18w7_11w3_7w4_0w4 (m := 805535744) a s b l (by decide)
  change decodeNat (put4 805535744 a 18 s 11 b 7 l 0) = _
  generalize put4 805535744 a 18 s 11 b 7 l 0 = wd at hf ⊢
  obtain ⟨e0, e1, e2, e3, e4, e5, fa, fs, fb, fl⟩ : fld wd 25 6 = 24 ∧ fld wd 18 7 = a.toNat ∧ fld wd 14 4 = 14 ∧ fld wd 11 3 = s.toNat ∧ fld wd 6 1 = 0 ∧ fld wd 4 2 = 0 ∧ bv wd 18 7 = a ∧ bv wd 11 3 = s ∧ bv wd 7 4 = b ∧ bv wd 0 4 = l := hf
  simp [decodeNat, dec18, e0, e1, e2, e3, e4, e5, fa, fs, fb, fl, hwf]

theorem RoundTrip.patomAdd (a : BitVec 7) (b : BitVec 4) (w : BitVec 2) (l : BitVec 4) : RoundTrip.Statement (.patomAdd a b w l) := by
  intro _ hwf
  replace hwf : w.toNat ≤ 1 ∧ a.toNat + (w.toNat + 1) ≤ 127 := hwf
  have hf := fields_18w7_7w4_4w2_0w4 (m := 838860864) a b w l (by decide)
  change decodeNat (put4 838860864 a 18 b 7 w 4 l 0) = _
  generalize put4 838860864 a 18 b 7 w 4 l 0 = wd at hf ⊢
  obtain ⟨e0, e1, e2, e3, e4, e5, fa, fb, fw, fl⟩ : fld wd 25 6 = 25 ∧ fld wd 18 7 = a.toNat ∧ fld wd 14 4 = 0 ∧ fld wd 11 3 = 0 ∧ fld wd 6 1 = 1 ∧ fld wd 4 2 = w.toNat ∧ bv wd 18 7 = a ∧ bv wd 7 4 = b ∧ bv wd 4 2 = w ∧ bv wd 0 4 = l := hf
  simp [decodeNat, dec19, e0, e1, e2, e3, e4, e5, fa, fb, fw, fl, hwf]

theorem RoundTrip.predAdd (a : BitVec 7) (b : BitVec 4) (w : BitVec 2) (l : BitVec 4) : RoundTrip.Statement (.predAdd a b w l) := by
  intro _ hwf
  replace hwf : w.toNat ≤ 1 ∧ a.toNat + (w.toNat + 1) ≤ 127 := hwf
  have hf := fields_18w7_7w4_4w2_0w4 (m := 838860800) a b w l (by decide)
  change decodeNat (put4 838860800 a 18 b 7 w 4 l 0) = _
  generalize put4 838860800 a 18 b 7 w 4 l 0 = wd at hf ⊢
  obtain ⟨e0, e1, e2, e3, e4, e5, fa, fb, fw, fl⟩ : fld wd 25 6 = 25 ∧ fld wd 18 7 = a.toNat ∧ fld wd 14 4 = 0 ∧ fld wd 11 3 = 0 ∧ fld wd 6 1 = 0 ∧ fld wd 4 2 = w.toNat ∧ bv wd 18 7 = a ∧ bv wd 7 4 = b ∧ bv wd 4 2 = w ∧ bv wd 0 4 = l := hf
  simp [decodeNat, dec19, e0, e1, e2, e3, e4, e5, fa, fb, fw, fl, hwf]

theorem RoundTrip.patomAnd (a : BitVec 7) (b : BitVec 4) (w : BitVec 2) (l : BitVec 4) : RoundTrip.Statement (.patomAnd a b w l) := by
  intro _ hwf
  replace hwf : w.toNat ≤ 1 ∧ a.toNat + (w.toNat + 1) ≤ 127 := hwf
  have hf := fields_18w7_7w4_4w2_0w4 (m := 838877248) a b w l (by decide)
  change decodeNat (put4 838877248 a 18 b 7 w 4 l 0) = _
  generalize put4 838877248 a 18 b 7 w 4 l 0 = wd at hf ⊢
  obtain ⟨e0, e1, e2, e3, e4, e5, fa, fb, fw, fl⟩ : fld wd 25 6 = 25 ∧ fld wd 18 7 = a.toNat ∧ fld wd 14 4 = 1 ∧ fld wd 11 3 = 0 ∧ fld wd 6 1 = 1 ∧ fld wd 4 2 = w.toNat ∧ bv wd 18 7 = a ∧ bv wd 7 4 = b ∧ bv wd 4 2 = w ∧ bv wd 0 4 = l := hf
  simp [decodeNat, dec19, e0, e1, e2, e3, e4, e5, fa, fb, fw, fl, hwf]

theorem RoundTrip.predAnd (a : BitVec 7) (b : BitVec 4) (w : BitVec 2) (l : BitVec 4) : RoundTrip.Statement (.predAnd a b w l) := by
  intro _ hwf
  replace hwf : w.toNat ≤ 1 ∧ a.toNat + (w.toNat + 1) ≤ 127 := hwf
  have hf := fields_18w7_7w4_4w2_0w4 (m := 838877184) a b w l (by decide)
  change decodeNat (put4 838877184 a 18 b 7 w 4 l 0) = _
  generalize put4 838877184 a 18 b 7 w 4 l 0 = wd at hf ⊢
  obtain ⟨e0, e1, e2, e3, e4, e5, fa, fb, fw, fl⟩ : fld wd 25 6 = 25 ∧ fld wd 18 7 = a.toNat ∧ fld wd 14 4 = 1 ∧ fld wd 11 3 = 0 ∧ fld wd 6 1 = 0 ∧ fld wd 4 2 = w.toNat ∧ bv wd 18 7 = a ∧ bv wd 7 4 = b ∧ bv wd 4 2 = w ∧ bv wd 0 4 = l := hf
  simp [decodeNat, dec19, e0, e1, e2, e3, e4, e5, fa, fb, fw, fl, hwf]

theorem RoundTrip.patomOr (a : BitVec 7) (b : BitVec 4) (w : BitVec 2) (l : BitVec 4) : RoundTrip.Statement (.patomOr a b w l) := by
  intro _ hwf
  replace hwf : w.toNat ≤ 1 ∧ a.toNat + (w.toNat + 1) ≤ 127 := hwf
  have hf := fields_18w7_7w4_4w2_0w4 (m := 838893632) a b w l (by decide)
  change decodeNat (put4 838893632 a 18 b 7 w 4 l 0) = _
  generalize put4 838893632 a 18 b 7 w 4 l 0 = wd at hf ⊢
  obtain ⟨e0, e1, e2, e3, e4, e5, fa, fb, fw, fl⟩ : fld wd 25 6 = 25 ∧ fld wd 18 7 = a.toNat ∧ fld wd 14 4 = 2 ∧ fld wd 11 3 = 0 ∧ fld wd 6 1 = 1 ∧ fld wd 4 2 = w.toNat ∧ bv wd 18 7 = a ∧ bv wd 7 4 = b ∧ bv wd 4 2 = w ∧ bv wd 0 4 = l := hf
  simp [decodeNat, dec19, e0, e1, e2, e3, e4, e5, fa, fb, fw, fl, hwf]

theorem RoundTrip.predOr (a : BitVec 7) (b : BitVec 4) (w : BitVec 2) (l : BitVec 4) : RoundTrip.Statement (.predOr a b w l) := by
  intro _ hwf
  replace hwf : w.toNat ≤ 1 ∧ a.toNat + (w.toNat + 1) ≤ 127 := hwf
  have hf := fields_18w7_7w4_4w2_0w4 (m := 838893568) a b w l (by decide)
  change decodeNat (put4 838893568 a 18 b 7 w 4 l 0) = _
  generalize put4 838893568 a 18 b 7 w 4 l 0 = wd at hf ⊢
  obtain ⟨e0, e1, e2, e3, e4, e5, fa, fb, fw, fl⟩ : fld wd 25 6 = 25 ∧ fld wd 18 7 = a.toNat ∧ fld wd 14 4 = 2 ∧ fld wd 11 3 = 0 ∧ fld wd 6 1 = 0 ∧ fld wd 4 2 = w.toNat ∧ bv wd 18 7 = a ∧ bv wd 7 4 = b ∧ bv wd 4 2 = w ∧ bv wd 0 4 = l := hf
  simp [decodeNat, dec19, e0, e1, e2, e3, e4, e5, fa, fb, fw, fl, hwf]

theorem RoundTrip.patomXor (a : BitVec 7) (b : BitVec 4) (w : BitVec 2) (l : BitVec 4) : RoundTrip.Statement (.patomXor a b w l) := by
  intro _ hwf
  replace hwf : w.toNat ≤ 1 ∧ a.toNat + (w.toNat + 1) ≤ 127 := hwf
  have hf := fields_18w7_7w4_4w2_0w4 (m := 838910016) a b w l (by decide)
  change decodeNat (put4 838910016 a 18 b 7 w 4 l 0) = _
  generalize put4 838910016 a 18 b 7 w 4 l 0 = wd at hf ⊢
  obtain ⟨e0, e1, e2, e3, e4, e5, fa, fb, fw, fl⟩ : fld wd 25 6 = 25 ∧ fld wd 18 7 = a.toNat ∧ fld wd 14 4 = 3 ∧ fld wd 11 3 = 0 ∧ fld wd 6 1 = 1 ∧ fld wd 4 2 = w.toNat ∧ bv wd 18 7 = a ∧ bv wd 7 4 = b ∧ bv wd 4 2 = w ∧ bv wd 0 4 = l := hf
  simp [decodeNat, dec19, e0, e1, e2, e3, e4, e5, fa, fb, fw, fl, hwf]

theorem RoundTrip.predXor (a : BitVec 7) (b : BitVec 4) (w : BitVec 2) (l : BitVec 4) : RoundTrip.Statement (.predXor a b w l) := by
  intro _ hwf
  replace hwf : w.toNat ≤ 1 ∧ a.toNat + (w.toNat + 1) ≤ 127 := hwf
  have hf := fields_18w7_7w4_4w2_0w4 (m := 838909952) a b w l (by decide)
  change decodeNat (put4 838909952 a 18 b 7 w 4 l 0) = _
  generalize put4 838909952 a 18 b 7 w 4 l 0 = wd at hf ⊢
  obtain ⟨e0, e1, e2, e3, e4, e5, fa, fb, fw, fl⟩ : fld wd 25 6 = 25 ∧ fld wd 18 7 = a.toNat ∧ fld wd 14 4 = 3 ∧ fld wd 11 3 = 0 ∧ fld wd 6 1 = 0 ∧ fld wd 4 2 = w.toNat ∧ bv wd 18 7 = a ∧ bv wd 7 4 = b ∧ bv wd 4 2 = w ∧ bv wd 0 4 = l := hf
  simp [decodeNat, dec19, e0, e1, e2, e3, e4, e5, fa, fb, fw, fl, hwf]

theorem RoundTrip.patomMinI (a : BitVec 7) (b : BitVec 4) (w : BitVec 2) (l : BitVec 4) : RoundTrip.Statement (.patomMinI a b w l) := by
  intro _ hwf
  replace hwf : w.toNat ≤ 1 ∧ a.toNat + (w.toNat + 1) ≤ 127 := hwf
  have hf := fields_18w7_7w4_4w2_0w4 (m := 838926400) a b w l (by decide)
  change decodeNat (put4 838926400 a 18 b 7 w 4 l 0) = _
  generalize put4 838926400 a 18 b 7 w 4 l 0 = wd at hf ⊢
  obtain ⟨e0, e1, e2, e3, e4, e5, fa, fb, fw, fl⟩ : fld wd 25 6 = 25 ∧ fld wd 18 7 = a.toNat ∧ fld wd 14 4 = 4 ∧ fld wd 11 3 = 0 ∧ fld wd 6 1 = 1 ∧ fld wd 4 2 = w.toNat ∧ bv wd 18 7 = a ∧ bv wd 7 4 = b ∧ bv wd 4 2 = w ∧ bv wd 0 4 = l := hf
  simp [decodeNat, dec19, e0, e1, e2, e3, e4, e5, fa, fb, fw, fl, hwf]

theorem RoundTrip.predMinI (a : BitVec 7) (b : BitVec 4) (w : BitVec 2) (l : BitVec 4) : RoundTrip.Statement (.predMinI a b w l) := by
  intro _ hwf
  replace hwf : w.toNat ≤ 1 ∧ a.toNat + (w.toNat + 1) ≤ 127 := hwf
  have hf := fields_18w7_7w4_4w2_0w4 (m := 838926336) a b w l (by decide)
  change decodeNat (put4 838926336 a 18 b 7 w 4 l 0) = _
  generalize put4 838926336 a 18 b 7 w 4 l 0 = wd at hf ⊢
  obtain ⟨e0, e1, e2, e3, e4, e5, fa, fb, fw, fl⟩ : fld wd 25 6 = 25 ∧ fld wd 18 7 = a.toNat ∧ fld wd 14 4 = 4 ∧ fld wd 11 3 = 0 ∧ fld wd 6 1 = 0 ∧ fld wd 4 2 = w.toNat ∧ bv wd 18 7 = a ∧ bv wd 7 4 = b ∧ bv wd 4 2 = w ∧ bv wd 0 4 = l := hf
  simp [decodeNat, dec19, e0, e1, e2, e3, e4, e5, fa, fb, fw, fl, hwf]

theorem RoundTrip.patomMaxI (a : BitVec 7) (b : BitVec 4) (w : BitVec 2) (l : BitVec 4) : RoundTrip.Statement (.patomMaxI a b w l) := by
  intro _ hwf
  replace hwf : w.toNat ≤ 1 ∧ a.toNat + (w.toNat + 1) ≤ 127 := hwf
  have hf := fields_18w7_7w4_4w2_0w4 (m := 838942784) a b w l (by decide)
  change decodeNat (put4 838942784 a 18 b 7 w 4 l 0) = _
  generalize put4 838942784 a 18 b 7 w 4 l 0 = wd at hf ⊢
  obtain ⟨e0, e1, e2, e3, e4, e5, fa, fb, fw, fl⟩ : fld wd 25 6 = 25 ∧ fld wd 18 7 = a.toNat ∧ fld wd 14 4 = 5 ∧ fld wd 11 3 = 0 ∧ fld wd 6 1 = 1 ∧ fld wd 4 2 = w.toNat ∧ bv wd 18 7 = a ∧ bv wd 7 4 = b ∧ bv wd 4 2 = w ∧ bv wd 0 4 = l := hf
  simp [decodeNat, dec19, e0, e1, e2, e3, e4, e5, fa, fb, fw, fl, hwf]

theorem RoundTrip.predMaxI (a : BitVec 7) (b : BitVec 4) (w : BitVec 2) (l : BitVec 4) : RoundTrip.Statement (.predMaxI a b w l) := by
  intro _ hwf
  replace hwf : w.toNat ≤ 1 ∧ a.toNat + (w.toNat + 1) ≤ 127 := hwf
  have hf := fields_18w7_7w4_4w2_0w4 (m := 838942720) a b w l (by decide)
  change decodeNat (put4 838942720 a 18 b 7 w 4 l 0) = _
  generalize put4 838942720 a 18 b 7 w 4 l 0 = wd at hf ⊢
  obtain ⟨e0, e1, e2, e3, e4, e5, fa, fb, fw, fl⟩ : fld wd 25 6 = 25 ∧ fld wd 18 7 = a.toNat ∧ fld wd 14 4 = 5 ∧ fld wd 11 3 = 0 ∧ fld wd 6 1 = 0 ∧ fld wd 4 2 = w.toNat ∧ bv wd 18 7 = a ∧ bv wd 7 4 = b ∧ bv wd 4 2 = w ∧ bv wd 0 4 = l := hf
  simp [decodeNat, dec19, e0, e1, e2, e3, e4, e5, fa, fb, fw, fl, hwf]

theorem RoundTrip.patomMinN (a : BitVec 7) (b : BitVec 4) (w : BitVec 2) (l : BitVec 4) : RoundTrip.Statement (.patomMinN a b w l) := by
  intro _ hwf
  replace hwf : w.toNat ≤ 1 ∧ a.toNat + (w.toNat + 1) ≤ 127 := hwf
  have hf := fields_18w7_7w4_4w2_0w4 (m := 838959168) a b w l (by decide)
  change decodeNat (put4 838959168 a 18 b 7 w 4 l 0) = _
  generalize put4 838959168 a 18 b 7 w 4 l 0 = wd at hf ⊢
  obtain ⟨e0, e1, e2, e3, e4, e5, fa, fb, fw, fl⟩ : fld wd 25 6 = 25 ∧ fld wd 18 7 = a.toNat ∧ fld wd 14 4 = 6 ∧ fld wd 11 3 = 0 ∧ fld wd 6 1 = 1 ∧ fld wd 4 2 = w.toNat ∧ bv wd 18 7 = a ∧ bv wd 7 4 = b ∧ bv wd 4 2 = w ∧ bv wd 0 4 = l := hf
  simp [decodeNat, dec19, e0, e1, e2, e3, e4, e5, fa, fb, fw, fl, hwf]

theorem RoundTrip.predMinN (a : BitVec 7) (b : BitVec 4) (w : BitVec 2) (l : BitVec 4) : RoundTrip.Statement (.predMinN a b w l) := by
  intro _ hwf
  replace hwf : w.toNat ≤ 1 ∧ a.toNat + (w.toNat + 1) ≤ 127 := hwf
  have hf := fields_18w7_7w4_4w2_0w4 (m := 838959104) a b w l (by decide)
  change decodeNat (put4 838959104 a 18 b 7 w 4 l 0) = _
  generalize put4 838959104 a 18 b 7 w 4 l 0 = wd at hf ⊢
  obtain ⟨e0, e1, e2, e3, e4, e5, fa, fb, fw, fl⟩ : fld wd 25 6 = 25 ∧ fld wd 18 7 = a.toNat ∧ fld wd 14 4 = 6 ∧ fld wd 11 3 = 0 ∧ fld wd 6 1 = 0 ∧ fld wd 4 2 = w.toNat ∧ bv wd 18 7 = a ∧ bv wd 7 4 = b ∧ bv wd 4 2 = w ∧ bv wd 0 4 = l := hf
  simp [decodeNat, dec19, e0, e1, e2, e3, e4, e5, fa, fb, fw, fl, hwf]

theorem RoundTrip.patomMaxN (a : BitVec 7) (b : BitVec 4) (w : BitVec 2) (l : BitVec 4) : RoundTrip.Statement (.patomMaxN a b w l) := by
  intro _ hwf
  replace hwf : w.toNat ≤ 1 ∧ a.toNat + (w.toNat + 1) ≤ 127 := hwf
  have hf := fields_18w7_7w4_4w2_0w4 (m := 838975552) a b w l (by decide)
  change decodeNat (put4 838975552 a 18 b 7 w 4 l 0) = _
  generalize put4 838975552 a 18 b 7 w 4 l 0 = wd at hf ⊢
  obtain ⟨e0, e1, e2, e3, e4, e5, fa, fb, fw, fl⟩ : fld wd 25 6 = 25 ∧ fld wd 18 7 = a.toNat ∧ fld wd 14 4 = 7 ∧ fld wd 11 3 = 0 ∧ fld wd 6 1 = 1 ∧ fld wd 4 2 = w.toNat ∧ bv wd 18 7 = a ∧ bv wd 7 4 = b ∧ bv wd 4 2 = w ∧ bv wd 0 4 = l := hf
  simp [decodeNat, dec19, e0, e1, e2, e3, e4, e5, fa, fb, fw, fl, hwf]

theorem RoundTrip.predMaxN (a : BitVec 7) (b : BitVec 4) (w : BitVec 2) (l : BitVec 4) : RoundTrip.Statement (.predMaxN a b w l) := by
  intro _ hwf
  replace hwf : w.toNat ≤ 1 ∧ a.toNat + (w.toNat + 1) ≤ 127 := hwf
  have hf := fields_18w7_7w4_4w2_0w4 (m := 838975488) a b w l (by decide)
  change decodeNat (put4 838975488 a 18 b 7 w 4 l 0) = _
  generalize put4 838975488 a 18 b 7 w 4 l 0 = wd at hf ⊢
  obtain ⟨e0, e1, e2, e3, e4, e5, fa, fb, fw, fl⟩ : fld wd 25 6 = 25 ∧ fld wd 18 7 = a.toNat ∧ fld wd 14 4 = 7 ∧ fld wd 11 3 = 0 ∧ fld wd 6 1 = 0 ∧ fld wd 4 2 = w.toNat ∧ bv wd 18 7 = a ∧ bv wd 7 4 = b ∧ bv wd 4 2 = w ∧ bv wd 0 4 = l := hf
  simp [decodeNat, dec19, e0, e1, e2, e3, e4, e5, fa, fb, fw, fl, hwf]

theorem RoundTrip.patomExch (a : BitVec 7) (b : BitVec 4) (w : BitVec 2) (l : BitVec 4) : RoundTrip.Statement (.patomExch a b w l) := by
  intro _ hwf
  replace hwf : w.toNat ≤ 1 ∧ a.toNat + (w.toNat + 1) ≤ 127 := hwf
  have hf := fields_18w7_7w4_4w2_0w4 (m := 838991936) a b w l (by decide)
  change decodeNat (put4 838991936 a 18 b 7 w 4 l 0) = _
  generalize put4 838991936 a 18 b 7 w 4 l 0 = wd at hf ⊢
  obtain ⟨e0, e1, e2, e3, e4, e5, fa, fb, fw, fl⟩ : fld wd 25 6 = 25 ∧ fld wd 18 7 = a.toNat ∧ fld wd 14 4 = 8 ∧ fld wd 11 3 = 0 ∧ fld wd 6 1 = 1 ∧ fld wd 4 2 = w.toNat ∧ bv wd 18 7 = a ∧ bv wd 7 4 = b ∧ bv wd 4 2 = w ∧ bv wd 0 4 = l := hf
  simp [decodeNat, dec19, e0, e1, e2, e3, e4, e5, fa, fb, fw, fl, hwf]

theorem RoundTrip.predExch (a : BitVec 7) (b : BitVec 4) (w : BitVec 2) (l : BitVec 4) : RoundTrip.Statement (.predExch a b w l) := by
  intro _ hwf
  replace hwf : w.toNat ≤ 1 ∧ a.toNat + (w.toNat + 1) ≤ 127 := hwf
  have hf := fields_18w7_7w4_4w2_0w4 (m := 838991872) a b w l (by decide)
  change decodeNat (put4 838991872 a 18 b 7 w 4 l 0) = _
  generalize put4 838991872 a 18 b 7 w 4 l 0 = wd at hf ⊢
  obtain ⟨e0, e1, e2, e3, e4, e5, fa, fb, fw, fl⟩ : fld wd 25 6 = 25 ∧ fld wd 18 7 = a.toNat ∧ fld wd 14 4 = 8 ∧ fld wd 11 3 = 0 ∧ fld wd 6 1 = 0 ∧ fld wd 4 2 = w.toNat ∧ bv wd 18 7 = a ∧ bv wd 7 4 = b ∧ bv wd 4 2 = w ∧ bv wd 0 4 = l := hf
  simp [decodeNat, dec19, e0, e1, e2, e3, e4, e5, fa, fb, fw, fl, hwf]

theorem RoundTrip.patomCas (a : BitVec 7) (b : BitVec 4) (w : BitVec 2) (l : BitVec 4) : RoundTrip.Statement (.patomCas a b w l) := by
  intro _ hwf
  replace hwf : w.toNat ≤ 1 ∧ a.toNat + 2 * (w.toNat + 1) ≤ 127 := hwf
  have hf := fields_18w7_7w4_4w2_0w4 (m := 839008320) a b w l (by decide)
  change decodeNat (put4 839008320 a 18 b 7 w 4 l 0) = _
  generalize put4 839008320 a 18 b 7 w 4 l 0 = wd at hf ⊢
  obtain ⟨e0, e1, e2, e3, e4, e5, fa, fb, fw, fl⟩ : fld wd 25 6 = 25 ∧ fld wd 18 7 = a.toNat ∧ fld wd 14 4 = 9 ∧ fld wd 11 3 = 0 ∧ fld wd 6 1 = 1 ∧ fld wd 4 2 = w.toNat ∧ bv wd 18 7 = a ∧ bv wd 7 4 = b ∧ bv wd 4 2 = w ∧ bv wd 0 4 = l := hf
  simp [decodeNat, dec19, e0, e1, e2, e3, e4, e5, fa, fb, fw, fl, hwf]

theorem RoundTrip.patomInc (a : BitVec 7) (b : BitVec 4) (w : BitVec 2) (l : BitVec 4) : RoundTrip.Statement (.patomInc a b w l) := by
  intro _ hwf
  replace hwf : w.toNat ≤ 1 ∧ a.toNat + (w.toNat + 1) ≤ 127 := hwf
  have hf := fields_18w7_7w4_4w2_0w4 (m := 839024704) a b w l (by decide)
  change decodeNat (put4 839024704 a 18 b 7 w 4 l 0) = _
  generalize put4 839024704 a 18 b 7 w 4 l 0 = wd at hf ⊢
  obtain ⟨e0, e1, e2, e3, e4, e5, fa, fb, fw, fl⟩ : fld wd 25 6 = 25 ∧ fld wd 18 7 = a.toNat ∧ fld wd 14 4 = 10 ∧ fld wd 11 3 = 0 ∧ fld wd 6 1 = 1 ∧ fld wd 4 2 = w.toNat ∧ bv wd 18 7 = a ∧ bv wd 7 4 = b ∧ bv wd 4 2 = w ∧ bv wd 0 4 = l := hf
  simp [decodeNat, dec19, e0, e1, e2, e3, e4, e5, fa, fb, fw, fl, hwf]

theorem RoundTrip.predInc (a : BitVec 7) (b : BitVec 4) (w : BitVec 2) (l : BitVec 4) : RoundTrip.Statement (.predInc a b w l) := by
  intro _ hwf
  replace hwf : w.toNat ≤ 1 ∧ a.toNat + (w.toNat + 1) ≤ 127 := hwf
  have hf := fields_18w7_7w4_4w2_0w4 (m := 839024640) a b w l (by decide)
  change decodeNat (put4 839024640 a 18 b 7 w 4 l 0) = _
  generalize put4 839024640 a 18 b 7 w 4 l 0 = wd at hf ⊢
  obtain ⟨e0, e1, e2, e3, e4, e5, fa, fb, fw, fl⟩ : fld wd 25 6 = 25 ∧ fld wd 18 7 = a.toNat ∧ fld wd 14 4 = 10 ∧ fld wd 11 3 = 0 ∧ fld wd 6 1 = 0 ∧ fld wd 4 2 = w.toNat ∧ bv wd 18 7 = a ∧ bv wd 7 4 = b ∧ bv wd 4 2 = w ∧ bv wd 0 4 = l := hf
  simp [decodeNat, dec19, e0, e1, e2, e3, e4, e5, fa, fb, fw, fl, hwf]

theorem RoundTrip.patomDec (a : BitVec 7) (b : BitVec 4) (w : BitVec 2) (l : BitVec 4) : RoundTrip.Statement (.patomDec a b w l) := by
  intro _ hwf
  replace hwf : w.toNat ≤ 1 ∧ a.toNat + (w.toNat + 1) ≤ 127 := hwf
  have hf := fields_18w7_7w4_4w2_0w4 (m := 839041088) a b w l (by decide)
  change decodeNat (put4 839041088 a 18 b 7 w 4 l 0) = _
  generalize put4 839041088 a 18 b 7 w 4 l 0 = wd at hf ⊢
  obtain ⟨e0, e1, e2, e3, e4, e5, fa, fb, fw, fl⟩ : fld wd 25 6 = 25 ∧ fld wd 18 7 = a.toNat ∧ fld wd 14 4 = 11 ∧ fld wd 11 3 = 0 ∧ fld wd 6 1 = 1 ∧ fld wd 4 2 = w.toNat ∧ bv wd 18 7 = a ∧ bv wd 7 4 = b ∧ bv wd 4 2 = w ∧ bv wd 0 4 = l := hf
  simp [decodeNat, dec19, e0, e1, e2, e3, e4, e5, fa, fb, fw, fl, hwf]

theorem RoundTrip.predDec (a : BitVec 7) (b : BitVec 4) (w : BitVec 2) (l : BitVec 4) : RoundTrip.Statement (.predDec a b w l) := by
  intro _ hwf
  replace hwf : w.toNat ≤ 1 ∧ a.toNat + (w.toNat + 1) ≤ 127 := hwf
  have hf := fields_18w7_7w4_4w2_0w4 (m := 839041024) a b w l (by decide)
  change decodeNat (put4 839041024 a 18 b 7 w 4 l 0) = _
  generalize put4 839041024 a 18 b 7 w 4 l 0 = wd at hf ⊢
  obtain ⟨e0, e1, e2, e3, e4, e5, fa, fb, fw, fl⟩ : fld wd 25 6 = 25 ∧ fld wd 18 7 = a.toNat ∧ fld wd 14 4 = 11 ∧ fld wd 11 3 = 0 ∧ fld wd 6 1 = 0 ∧ fld wd 4 2 = w.toNat ∧ bv wd 18 7 = a ∧ bv wd 7 4 = b ∧ bv wd 4 2 = w ∧ bv wd 0 4 = l := hf
  simp [decodeNat, dec19, e0, e1, e2, e3, e4, e5, fa, fb, fw, fl, hwf]

theorem RoundTrip.patomFadd (a : BitVec 7) (b : BitVec 4) (l : BitVec 4) : RoundTrip.Statement (.patomFadd a b l) := by
  intro _ hwf
  replace hwf : a.toNat + 1 ≤ 127 := hwf
  have hf := fields_18w7_7w4_0w4 (m := 839057472) a b l (by decide)
  change decodeNat (put3 839057472 a 18 b 7 l 0) = _
  generalize put3 839057472 a 18 b 7 l 0 = wd at hf ⊢
  obtain ⟨e0, e1, e2, e3, e4, e5, fa, fb, fl⟩ : fld wd 25 6 = 25 ∧ fld wd 18 7 = a.toNat ∧ fld wd 14 4 = 12 ∧ fld wd 11 3 = 0 ∧ fld wd 6 1 = 1 ∧ fld wd 4 2 = 0 ∧ bv wd 18 7 = a ∧ bv wd 7 4 = b ∧ bv wd 0 4 = l := hf
  simp [decodeNat, dec19, e0, e1, e2, e3, e4, e5, fa, fb, fl, hwf]

theorem RoundTrip.predFadd (a : BitVec 7) (b : BitVec 4) (l : BitVec 4) : RoundTrip.Statement (.predFadd a b l) := by
  intro _ hwf
  replace hwf : a.toNat + 1 ≤ 127 := hwf
  have hf := fields_18w7_7w4_0w4 (m := 839057408) a b l (by decide)
  change decodeNat (put3 839057408 a 18 b 7 l 0) = _
  generalize put3 839057408 a 18 b 7 l 0 = wd at hf ⊢
  obtain ⟨e0, e1, e2, e3, e4, e5, fa, fb, fl⟩ : fld wd 25 6 = 25 ∧ fld wd 18 7 = a.toNat ∧ fld wd 14 4 = 12 ∧ fld wd 11 3 = 0 ∧ fld wd 6 1 = 0 ∧ fld wd 4 2 = 0 ∧ bv wd 18 7 = a ∧ bv wd 7 4 = b ∧ bv wd 0 4 = l := hf
  simp [decodeNat, dec19, e0, e1, e2, e3, e4, e5, fa, fb, fl, hwf]

theorem RoundTrip.patomFmax (a : BitVec 7) (b : BitVec 4) (l : BitVec 4) : RoundTrip.Statement (.patomFmax a b l) := by
  intro _ hwf
  replace hwf : a.toNat + 1 ≤ 127 := hwf
  have hf := fields_18w7_7w4_0w4 (m := 839073856) a b l (by decide)
  change decodeNat (put3 839073856 a 18 b 7 l 0) = _
  generalize put3 839073856 a 18 b 7 l 0 = wd at hf ⊢
  obtain ⟨e0, e1, e2, e3, e4, e5, fa, fb, fl⟩ : fld wd 25 6 = 25 ∧ fld wd 18 7 = a.toNat ∧ fld wd 14 4 = 13 ∧ fld wd 11 3 = 0 ∧ fld wd 6 1 = 1 ∧ fld wd 4 2 = 0 ∧ bv wd 18 7 = a ∧ bv wd 7 4 = b ∧ bv wd 0 4 = l := hf
  simp [decodeNat, dec19, e0, e1, e2, e3, e4, e5, fa, fb, fl, hwf]

theorem RoundTrip.predFmax (a : BitVec 7) (b : BitVec 4) (l : BitVec 4) : RoundTrip.Statement (.predFmax a b l) := by
  intro _ hwf
  replace hwf : a.toNat + 1 ≤ 127 := hwf
  have hf := fields_18w7_7w4_0w4 (m := 839073792) a b l (by decide)
  change decodeNat (put3 839073792 a 18 b 7 l 0) = _
  generalize put3 839073792 a 18 b 7 l 0 = wd at hf ⊢
  obtain ⟨e0, e1, e2, e3, e4, e5, fa, fb, fl⟩ : fld wd 25 6 = 25 ∧ fld wd 18 7 = a.toNat ∧ fld wd 14 4 = 13 ∧ fld wd 11 3 = 0 ∧ fld wd 6 1 = 0 ∧ fld wd 4 2 = 0 ∧ bv wd 18 7 = a ∧ bv wd 7 4 = b ∧ bv wd 0 4 = l := hf
  simp [decodeNat, dec19, e0, e1, e2, e3, e4, e5, fa, fb, fl, hwf]

theorem RoundTrip.patomFmin (a : BitVec 7) (b : BitVec 4) (l : BitVec 4) : RoundTrip.Statement (.patomFmin a b l) := by
  intro _ hwf
  replace hwf : a.toNat + 1 ≤ 127 := hwf
  have hf := fields_18w7_7w4_0w4 (m := 839090240) a b l (by decide)
  change decodeNat (put3 839090240 a 18 b 7 l 0) = _
  generalize put3 839090240 a 18 b 7 l 0 = wd at hf ⊢
  obtain ⟨e0, e1, e2, e3, e4, e5, fa, fb, fl⟩ : fld wd 25 6 = 25 ∧ fld wd 18 7 = a.toNat ∧ fld wd 14 4 = 14 ∧ fld wd 11 3 = 0 ∧ fld wd 6 1 = 1 ∧ fld wd 4 2 = 0 ∧ bv wd 18 7 = a ∧ bv wd 7 4 = b ∧ bv wd 0 4 = l := hf
  simp [decodeNat, dec19, e0, e1, e2, e3, e4, e5, fa, fb, fl, hwf]

theorem RoundTrip.predFmin (a : BitVec 7) (b : BitVec 4) (l : BitVec 4) : RoundTrip.Statement (.predFmin a b l) := by
  intro _ hwf
  replace hwf : a.toNat + 1 ≤ 127 := hwf
  have hf := fields_18w7_7w4_0w4 (m := 839090176) a b l (by decide)
  change decodeNat (put3 839090176 a 18 b 7 l 0) = _
  generalize put3 839090176 a 18 b 7 l 0 = wd at hf ⊢
  obtain ⟨e0, e1, e2, e3, e4, e5, fa, fb, fl⟩ : fld wd 25 6 = 25 ∧ fld wd 18 7 = a.toNat ∧ fld wd 14 4 = 14 ∧ fld wd 11 3 = 0 ∧ fld wd 6 1 = 0 ∧ fld wd 4 2 = 0 ∧ bv wd 18 7 = a ∧ bv wd 7 4 = b ∧ bv wd 0 4 = l := hf
  simp [decodeNat, dec19, e0, e1, e2, e3, e4, e5, fa, fb, fl, hwf]

theorem RoundTrip.barInit (a : BitVec 5) (b : BitVec 5) (l : BitVec 4) : RoundTrip.Statement (.barInit a b l) := by
  intro _ _
  have hf := fields_20w5_15w5_0w4 (m := 872415232) a b l (by decide)
  change decodeNat (put3 872415232 a 20 b 15 l 0) = _
  generalize put3 872415232 a 20 b 15 l 0 = wd at hf ⊢
  obtain ⟨e0, -, e2, e3, e4, -, fa, fb, fl⟩ : fld wd 25 6 = 26 ∧ fld wd 10 5 = 0 ∧ fld wd 7 3 = 0 ∧ fld wd 7 8 = 0 ∧ fld wd 4 3 = 0 ∧ fld wd 4 6 = 0 ∧ bv wd 20 5 = a ∧ bv wd 15 5 = b ∧ bv wd 0 4 = l := hf
  simp [decodeNat, dec1A, e0, e2, e3, e4, fa, fb, fl]

theorem RoundTrip.barArrive (a : BitVec 5) (c : BitVec 5) (s : BitVec 3) (l : BitVec 4) : RoundTrip.Statement (.barArrive a c s l) := by
  intro _ hwf
  replace hwf : 1 ≤ s.toNat ∧ s.toNat ≤ 4 := hwf
  have ha := a.isLt
  have hc := c.isLt
  have hs := s.isLt
  have hl := l.isLt
  generalize hw : encodeNat (.barArrive a c s l) = wd
  replace hw : 872415248 + a.toNat * 2 ^ 20 + c.toNat * 2 ^ 10 + s.toNat * 2 ^ 7 + l.toNat * 2 ^ 0 = wd := hw
  have e0 : fld wd 25 6 = 26 := by unfold fld; omega
  have e1 : fld wd 15 5 = 0 := by unfold fld; omega
  have e2 : fld wd 7 3 = s.toNat := by unfold fld; omega
  have e3 : fld wd 4 3 = 1 := by unfold fld; omega
  have fa : bv wd 20 5 = a := bv_eq (by omega)
  have fc : bv wd 10 5 = c := bv_eq (by omega)
  have fs : bv wd 7 3 = s := bv_eq (by omega)
  have fl : bv wd 0 4 = l := bv_eq (by omega)
  simp [decodeNat, dec1A, e0, e1, e2, e3, fa, fc, fs, fl, hwf]

theorem RoundTrip.barArrivet (d : BitVec 5) (b : BitVec 5) (c : BitVec 5) (s : BitVec 3) (l : BitVec 4) : RoundTrip.Statement (.barArrivet d b c s l) := by
  intro _ hwf
  replace hwf : 1 ≤ s.toNat ∧ s.toNat ≤ 4 := hwf
  have hf := fields_20w5_15w5_10w5_7w3_0w4 (m := 872415264) d b c s l (by decide)
  change decodeNat (put5 872415264 d 20 b 15 c 10 s 7 l 0) = _
  generalize put5 872415264 d 20 b 15 c 10 s 7 l 0 = wd at hf ⊢
  obtain ⟨e0, -, e2, e3, fd, fb, fc, fs, fl⟩ : fld wd 25 6 = 26 ∧ fld wd 20 5 = d.toNat ∧ fld wd 7 3 = s.toNat ∧ fld wd 4 3 = 2 ∧ bv wd 20 5 = d ∧ bv wd 15 5 = b ∧ bv wd 10 5 = c ∧ bv wd 7 3 = s ∧ bv wd 0 4 = l := hf
  simp [decodeNat, dec1A, e0, e2, e3, fd, fb, fc, fs, fl, hwf]

theorem RoundTrip.barExpect (a : BitVec 5) (b : BitVec 5) (l : BitVec 4) : RoundTrip.Statement (.barExpect a b l) := by
  intro _ _
  have hf := fields_20w5_15w5_0w4 (m := 872415280) a b l (by decide)
  change decodeNat (put3 872415280 a 20 b 15 l 0) = _
  generalize put3 872415280 a 20 b 15 l 0 = wd at hf ⊢
  obtain ⟨e0, -, e2, e3, e4, -, fa, fb, fl⟩ : fld wd 25 6 = 26 ∧ fld wd 10 5 = 0 ∧ fld wd 7 3 = 0 ∧ fld wd 7 8 = 0 ∧ fld wd 4 3 = 3 ∧ fld wd 4 6 = 3 ∧ bv wd 20 5 = a ∧ bv wd 15 5 = b ∧ bv wd 0 4 = l := hf
  simp [decodeNat, dec1A, e0, e2, e3, e4, fa, fb, fl]

theorem RoundTrip.barWait (a : BitVec 5) (b : BitVec 5) (s : BitVec 3) : RoundTrip.Statement (.barWait a b s) := by
  intro _ hwf
  replace hwf : 1 ≤ s.toNat ∧ s.toNat ≤ 4 := hwf
  have ha := a.isLt
  have hb := b.isLt
  have hs := s.isLt
  generalize hw : encodeNat (.barWait a b s) = wd
  replace hw : 872415296 + a.toNat * 2 ^ 20 + b.toNat * 2 ^ 15 + s.toNat * 2 ^ 7 = wd := hw
  have e0 : fld wd 25 6 = 26 := by unfold fld; omega
  have e1 : fld wd 10 5 = 0 := by unfold fld; omega
  have e2 : fld wd 7 3 = s.toNat := by unfold fld; omega
  have e3 : fld wd 4 3 = 4 := by unfold fld; omega
  have e4 : fld wd 0 4 = 0 := by unfold fld; omega
  have fa : bv wd 20 5 = a := bv_eq (by omega)
  have fb : bv wd 15 5 = b := bv_eq (by omega)
  have fs : bv wd 7 3 = s := bv_eq (by omega)
  simp [decodeNat, dec1A, e0, e1, e2, e3, e4, fa, fb, fs, hwf]

theorem RoundTrip.barTest (d : BitVec 5) (b : BitVec 5) (l : BitVec 4) : RoundTrip.Statement (.barTest d b l) := by
  intro _ _
  have hf := fields_20w5_15w5_0w4 (m := 872415312) d b l (by decide)
  change decodeNat (put3 872415312 d 20 b 15 l 0) = _
  generalize put3 872415312 d 20 b 15 l 0 = wd at hf ⊢
  obtain ⟨e0, -, e2, e3, e4, -, fd, fb, fl⟩ : fld wd 25 6 = 26 ∧ fld wd 10 5 = 0 ∧ fld wd 7 3 = 0 ∧ fld wd 7 8 = 0 ∧ fld wd 4 3 = 5 ∧ fld wd 4 6 = 5 ∧ bv wd 20 5 = d ∧ bv wd 15 5 = b ∧ bv wd 0 4 = l := hf
  simp [decodeNat, dec1A, e0, e2, e3, e4, fd, fb, fl]

theorem RoundTrip.barDrop (a : BitVec 5) (l : BitVec 4) : RoundTrip.Statement (.barDrop a l) := by
  intro _ _
  have hf := fields_20w5_0w4 (m := 872415328) a l (by decide)
  change decodeNat (put2 872415328 a 20 l 0) = _
  generalize put2 872415328 a 20 l 0 = wd at hf ⊢
  obtain ⟨e0, -, e2, e3, e4, -, fa, fl⟩ : fld wd 25 6 = 26 ∧ fld wd 10 10 = 0 ∧ fld wd 7 3 = 0 ∧ fld wd 7 13 = 0 ∧ fld wd 4 3 = 6 ∧ fld wd 4 6 = 6 ∧ bv wd 20 5 = a ∧ bv wd 0 4 = l := hf
  simp [decodeNat, dec1A, e0, e2, e3, e4, fa, fl]

theorem RoundTrip.qpush (b : BitVec 5) (q : BitVec 4) : RoundTrip.Statement (.qpush b q) := by
  intro _ _
  have hb := b.isLt
  have hq := q.isLt
  generalize hw : encodeNat (.qpush b q) = wd
  replace hw : 905969664 + b.toNat * 2 ^ 15 + q.toNat * 2 ^ 10 = wd := hw
  have e0 : fld wd 25 6 = 27 := by unfold fld; omega
  have e1 : fld wd 20 5 = 0 := by unfold fld; omega
  have e2 : fld wd 14 1 = 0 := by unfold fld; omega
  have e3 : fld wd 4 6 = 0 := by unfold fld; omega
  have e4 : fld wd 0 4 = 0 := by unfold fld; omega
  have fb : bv wd 15 5 = b := bv_eq (by omega)
  have fq : bv wd 10 4 = q := bv_eq (by omega)
  simp [decodeNat, dec1B, e0, e1, e2, e3, e4, fb, fq]

theorem RoundTrip.qpop (d : BitVec 5) (q : BitVec 4) : RoundTrip.Statement (.qpop d q) := by
  intro _ _
  have hd := d.isLt
  have hq := q.isLt
  generalize hw : encodeNat (.qpop d q) = wd
  replace hw : 905969680 + d.toNat * 2 ^ 20 + q.toNat * 2 ^ 10 = wd := hw
  have e0 : fld wd 25 6 = 27 := by unfold fld; omega
  have e1 : fld wd 14 6 = 0 := by unfold fld; omega
  have e2 : fld wd 4 6 = 1 := by unfold fld; omega
  have e3 : fld wd 0 4 = 0 := by unfold fld; omega
  have fd : bv wd 20 5 = d := bv_eq (by omega)
  have fq : bv wd 10 4 = q := bv_eq (by omega)
  simp [decodeNat, dec1B, e0, e1, e2, e3, fd, fq]

theorem RoundTrip.qtrypush (d : BitVec 5) (b : BitVec 5) (q : BitVec 4) (l : BitVec 4) : RoundTrip.Statement (.qtrypush d b q l) := by
  intro _ _
  have hd := d.isLt
  have hb := b.isLt
  have hq := q.isLt
  have hl := l.isLt
  generalize hw : encodeNat (.qtrypush d b q l) = wd
  replace hw : 905969696 + d.toNat * 2 ^ 20 + b.toNat * 2 ^ 15 + q.toNat * 2 ^ 10 + l.toNat * 2 ^ 0 = wd := hw
  have e0 : fld wd 25 6 = 27 := by unfold fld; omega
  have e1 : fld wd 14 1 = 0 := by unfold fld; omega
  have e2 : fld wd 4 6 = 2 := by unfold fld; omega
  have fd : bv wd 20 5 = d := bv_eq (by omega)
  have fb : bv wd 15 5 = b := bv_eq (by omega)
  have fq : bv wd 10 4 = q := bv_eq (by omega)
  have fl : bv wd 0 4 = l := bv_eq (by omega)
  simp [decodeNat, dec1B, e0, e1, e2, fd, fb, fq, fl]

theorem RoundTrip.qtrypop (d : BitVec 5) (q : BitVec 4) (l : BitVec 4) : RoundTrip.Statement (.qtrypop d q l) := by
  intro _ _
  have hd := d.isLt
  have hq := q.isLt
  have hl := l.isLt
  generalize hw : encodeNat (.qtrypop d q l) = wd
  replace hw : 905969712 + d.toNat * 2 ^ 20 + q.toNat * 2 ^ 10 + l.toNat * 2 ^ 0 = wd := hw
  have e0 : fld wd 25 6 = 27 := by unfold fld; omega
  have e1 : fld wd 14 6 = 0 := by unfold fld; omega
  have e2 : fld wd 4 6 = 3 := by unfold fld; omega
  have fd : bv wd 20 5 = d := bv_eq (by omega)
  have fq : bv wd 10 4 = q := bv_eq (by omega)
  have fl : bv wd 0 4 = l := bv_eq (by omega)
  simp [decodeNat, dec1B, e0, e1, e2, fd, fq, fl]

theorem RoundTrip.ownGive (a : BitVec 5) (b : BitVec 5) (l : BitVec 4) : RoundTrip.Statement (.ownGive a b l) := by
  intro _ _
  have hf := fields_20w5_15w5_0w4 (m := 939524096) a b l (by decide)
  change decodeNat (put3 939524096 a 20 b 15 l 0) = _
  generalize put3 939524096 a 20 b 15 l 0 = wd at hf ⊢
  obtain ⟨e0, e1, -, -, -, e5, fa, fb, fl⟩ : fld wd 25 6 = 28 ∧ fld wd 10 5 = 0 ∧ fld wd 7 3 = 0 ∧ fld wd 7 8 = 0 ∧ fld wd 4 3 = 0 ∧ fld wd 4 6 = 0 ∧ bv wd 20 5 = a ∧ bv wd 15 5 = b ∧ bv wd 0 4 = l := hf
  simp [decodeNat, dec1C, e0, e1, e5, fa, fb, fl]

theorem RoundTrip.ownTake (a : BitVec 5) (b : BitVec 5) : RoundTrip.Statement (.ownTake a b) := by
  intro _ _
  have hf := fields_20w5_15w5 (m := 939524112) a b (by decide)
  change decodeNat (put2 939524112 a 20 b 15) = _
  generalize put2 939524112 a 20 b 15 = wd at hf ⊢
  obtain ⟨e0, e1, -, -, -, e5, e6, fa, fb⟩ : fld wd 25 6 = 28 ∧ fld wd 10 5 = 0 ∧ fld wd 7 3 = 0 ∧ fld wd 7 8 = 0 ∧ fld wd 4 3 = 1 ∧ fld wd 4 6 = 1 ∧ fld wd 0 4 = 0 ∧ bv wd 20 5 = a ∧ bv wd 15 5 = b := hf
  simp [decodeNat, dec1C, e0, e1, e5, e6, fa, fb]

theorem RoundTrip.ownTest (d : BitVec 5) (b : BitVec 5) (l : BitVec 4) : RoundTrip.Statement (.ownTest d b l) := by
  intro _ _
  have hf := fields_20w5_15w5_0w4 (m := 939524128) d b l (by decide)
  change decodeNat (put3 939524128 d 20 b 15 l 0) = _
  generalize put3 939524128 d 20 b 15 l 0 = wd at hf ⊢
  obtain ⟨e0, e1, -, -, -, e5, fd, fb, fl⟩ : fld wd 25 6 = 28 ∧ fld wd 10 5 = 0 ∧ fld wd 7 3 = 0 ∧ fld wd 7 8 = 0 ∧ fld wd 4 3 = 2 ∧ fld wd 4 6 = 2 ∧ bv wd 20 5 = d ∧ bv wd 15 5 = b ∧ bv wd 0 4 = l := hf
  simp [decodeNat, dec1C, e0, e1, e5, fd, fb, fl]

theorem RoundTrip.mwatch (d : BitVec 5) (b : BitVec 5) (l : BitVec 4) : RoundTrip.Statement (.mwatch d b l) := by
  intro _ _
  have hf := fields_20w5_15w5_0w4 (m := 973078528) d b l (by decide)
  change decodeNat (put3 973078528 d 20 b 15 l 0) = _
  generalize put3 973078528 d 20 b 15 l 0 = wd at hf ⊢
  obtain ⟨e0, e1, -, -, -, e5, fd, fb, fl⟩ : fld wd 25 6 = 29 ∧ fld wd 10 5 = 0 ∧ fld wd 7 3 = 0 ∧ fld wd 7 8 = 0 ∧ fld wd 4 3 = 0 ∧ fld wd 4 6 = 0 ∧ bv wd 20 5 = d ∧ bv wd 15 5 = b ∧ bv wd 0 4 = l := hf
  simp [decodeNat, dec1D, e0, e1, e5, fd, fb, fl]

theorem RoundTrip.mwait (d : BitVec 5) (b : BitVec 5) : RoundTrip.Statement (.mwait d b) := by
  intro _ _
  have hf := fields_20w5_15w5 (m := 973078544) d b (by decide)
  change decodeNat (put2 973078544 d 20 b 15) = _
  generalize put2 973078544 d 20 b 15 = wd at hf ⊢
  obtain ⟨e0, e1, -, -, -, e5, e6, fd, fb⟩ : fld wd 25 6 = 29 ∧ fld wd 10 5 = 0 ∧ fld wd 7 3 = 0 ∧ fld wd 7 8 = 0 ∧ fld wd 4 3 = 1 ∧ fld wd 4 6 = 1 ∧ fld wd 0 4 = 0 ∧ bv wd 20 5 = d ∧ bv wd 15 5 = b := hf
  simp [decodeNat, dec1D, e0, e1, e5, e6, fd, fb]

theorem RoundTrip.sleep (a : BitVec 5) : RoundTrip.Statement (.sleep a) := by
  intro _ _
  have hf := fields_20w5 (m := 973078560) a (by decide)
  change decodeNat (put1 973078560 a 20) = _
  generalize put1 973078560 a 20 = wd at hf ⊢
  obtain ⟨e0, e1, -, -, e4, e5, fa⟩ : fld wd 25 6 = 29 ∧ fld wd 10 10 = 0 ∧ fld wd 7 13 = 0 ∧ fld wd 4 3 = 2 ∧ fld wd 4 6 = 2 ∧ fld wd 0 4 = 0 ∧ bv wd 20 5 = a := hf
  simp [decodeNat, dec1D, e0, e1, e4, e5, fa]

theorem RoundTrip.mclear (l : BitVec 4) : RoundTrip.Statement (.mclear l) := by
  intro _ _
  have hl := l.isLt
  generalize hw : encodeNat (.mclear l) = wd
  replace hw : 973078576 + l.toNat * 2 ^ 0 = wd := hw
  have e0 : fld wd 25 6 = 29 := by unfold fld; omega
  have e1 : fld wd 10 15 = 0 := by unfold fld; omega
  have e2 : fld wd 4 6 = 3 := by unfold fld; omega
  have fl : bv wd 0 4 = l := bv_eq (by omega)
  simp [decodeNat, dec1D, e0, e1, e2, fl]

theorem RoundTrip.mfs (d : BitVec 5) (x : BitVec 12) : RoundTrip.Statement (.mfs d x) := by
  intro _ hwf
  replace hwf : isScalarSpecial (x.toNat) := hwf
  have hf := fields_20w5_4w12 (m := 1006632960) d x (by decide)
  change decodeNat (put2 1006632960 d 20 x 4) = _
  generalize put2 1006632960 d 20 x 4 = wd at hf ⊢
  obtain ⟨e0, e1, e2, e3, fd, fx⟩ : fld wd 25 6 = 30 ∧ fld wd 16 4 = 0 ∧ fld wd 4 12 = x.toNat ∧ fld wd 0 4 = 0 ∧ bv wd 20 5 = d ∧ bv wd 4 12 = x := hf
  simp [decodeNat, dec1E, e0, e1, e2, e3, fd, fx, hwf]

theorem RoundTrip.mts (a : BitVec 5) (x : BitVec 12) : RoundTrip.Statement (.mts a x) := by
  intro _ hwf
  replace hwf : isScalarSpecial (x.toNat) ∧ isWritableSpecial (x.toNat) := hwf
  have hf := fields_20w5_4w12 (m := 1006698496) a x (by decide)
  change decodeNat (put2 1006698496 a 20 x 4) = _
  generalize put2 1006698496 a 20 x 4 = wd at hf ⊢
  obtain ⟨e0, e1, e2, e3, fa, fx⟩ : fld wd 25 6 = 30 ∧ fld wd 16 4 = 1 ∧ fld wd 4 12 = x.toNat ∧ fld wd 0 4 = 0 ∧ bv wd 20 5 = a ∧ bv wd 4 12 = x := hf
  simp [decodeNat, dec1E, e0, e1, e2, e3, fa, fx, hwf]

theorem RoundTrip.mfsv (d : BitVec 5) (x : BitVec 12) : RoundTrip.Statement (.mfsv d x) := by
  intro _ hwf
  replace hwf : isVectorSpecial (x.toNat) := hwf
  have hf := fields_20w5_4w12 (m := 1006764032) d x (by decide)
  change decodeNat (put2 1006764032 d 20 x 4) = _
  generalize put2 1006764032 d 20 x 4 = wd at hf ⊢
  obtain ⟨e0, e1, e2, e3, fd, fx⟩ : fld wd 25 6 = 30 ∧ fld wd 16 4 = 2 ∧ fld wd 4 12 = x.toNat ∧ fld wd 0 4 = 0 ∧ bv wd 20 5 = d ∧ bv wd 4 12 = x := hf
  simp [decodeNat, dec1E, e0, e1, e2, e3, fd, fx, hwf]

theorem RoundTrip.mtsv (a : BitVec 5) (x : BitVec 12) : RoundTrip.Statement (.mtsv a x) := by
  intro _ hwf
  replace hwf : isVectorSpecial (x.toNat) ∧ isWritableSpecial (x.toNat) := hwf
  have hf := fields_20w5_4w12 (m := 1006829568) a x (by decide)
  change decodeNat (put2 1006829568 a 20 x 4) = _
  generalize put2 1006829568 a 20 x 4 = wd at hf ⊢
  obtain ⟨e0, e1, e2, e3, fa, fx⟩ : fld wd 25 6 = 30 ∧ fld wd 16 4 = 3 ∧ fld wd 4 12 = x.toNat ∧ fld wd 0 4 = 0 ∧ bv wd 20 5 = a ∧ bv wd 4 12 = x := hf
  simp [decodeNat, dec1E, e0, e1, e2, e3, fa, fx, hwf]

theorem RoundTrip.tret : RoundTrip.Statement .tret := by
  intro _ _
  generalize hw : encodeNat .tret = wd
  replace hw : 1040187392 = wd := hw
  have e0 : fld wd 25 6 = 31 := by unfold fld; omega
  have e1 : fld wd 15 10 = 0 := by unfold fld; omega
  have e2 : fld wd 12 3 = 0 := by unfold fld; omega
  have e3 : fld wd 0 12 = 0 := by unfold fld; omega
  simp [decodeNat, dec1F, e0, e1, e2, e3]

theorem RoundTrip.brk (i : BitVec 12) : RoundTrip.Statement (.brk i) := by
  intro _ _
  have hi := i.isLt
  generalize hw : encodeNat (.brk i) = wd
  replace hw : 1040191488 + i.toNat * 2 ^ 0 = wd := hw
  have e0 : fld wd 25 6 = 31 := by unfold fld; omega
  have e1 : fld wd 15 10 = 0 := by unfold fld; omega
  have e2 : fld wd 12 3 = 1 := by unfold fld; omega
  have fi : bv wd 0 12 = i := bv_eq (by omega)
  simp [decodeNat, dec1F, e0, e1, e2, fi]

theorem RoundTrip.tlane (a : BitVec 5) (e : BitVec 2) : RoundTrip.Statement (.tlane a e) := by
  intro _ _
  have ha := a.isLt
  have he := e.isLt
  generalize hw : encodeNat (.tlane a e) = wd
  replace hw : 1040195584 + a.toNat * 2 ^ 15 + e.toNat * 2 ^ 0 = wd := hw
  have e0 : fld wd 25 6 = 31 := by unfold fld; omega
  have e1 : fld wd 20 5 = 0 := by unfold fld; omega
  have e2 : fld wd 12 3 = 2 := by unfold fld; omega
  have e3 : fld wd 2 10 = 0 := by unfold fld; omega
  have fa : bv wd 15 5 = a := bv_eq (by omega)
  have fe : bv wd 0 2 = e := bv_eq (by omega)
  simp [decodeNat, dec1F, e0, e1, e2, e3, fa, fe]

theorem RoundTrip.tdone : RoundTrip.Statement .tdone := by
  intro _ _
  generalize hw : encodeNat .tdone = wd
  replace hw : 1040199680 = wd := hw
  have e0 : fld wd 25 6 = 31 := by unfold fld; omega
  have e1 : fld wd 15 10 = 0 := by unfold fld; omega
  have e2 : fld wd 12 3 = 3 := by unfold fld; omega
  have e3 : fld wd 0 12 = 0 := by unfold fld; omega
  simp [decodeNat, dec1F, e0, e1, e2, e3]

theorem RoundTrip.exit : RoundTrip.Statement .exit := by
  intro _ _
  generalize hw : encodeNat .exit = wd
  replace hw : 1040203776 = wd := hw
  have e0 : fld wd 25 6 = 31 := by unfold fld; omega
  have e1 : fld wd 15 10 = 0 := by unfold fld; omega
  have e2 : fld wd 12 3 = 4 := by unfold fld; omega
  have e3 : fld wd 0 12 = 0 := by unfold fld; omega
  simp [decodeNat, dec1F, e0, e1, e2, e3]

theorem RoundTrip.cpLd (a : BitVec 5) (b : BitVec 5) (c : BitVec 5) (k : BitVec 3) (l : BitVec 4) : RoundTrip.Statement (.cpLd a b c k l) := by
  intro _ hwf
  replace hwf : a.toNat ≤ 30 := hwf
  have hf := fields_20w5_15w5_10w5_7w3_0w4 (m := 1073741824) a b c k l (by decide)
  change decodeNat (put5 1073741824 a 20 b 15 c 10 k 7 l 0) = _
  generalize put5 1073741824 a 20 b 15 c 10 k 7 l 0 = wd at hf ⊢
  obtain ⟨e0, e1, -, e3, fa, fb, fc, fk, fl⟩ : fld wd 25 6 = 32 ∧ fld wd 20 5 = a.toNat ∧ fld wd 7 3 = k.toNat ∧ fld wd 4 3 = 0 ∧ bv wd 20 5 = a ∧ bv wd 15 5 = b ∧ bv wd 10 5 = c ∧ bv wd 7 3 = k ∧ bv wd 0 4 = l := hf
  simp [decodeNat, dec20, e0, e1, e3, fa, fb, fc, fk, fl, hwf]

theorem RoundTrip.cpSt (a : BitVec 5) (b : BitVec 5) (c : BitVec 5) (k : BitVec 3) (l : BitVec 4) : RoundTrip.Statement (.cpSt a b c k l) := by
  intro _ hwf
  replace hwf : a.toNat ≤ 30 := hwf
  have hf := fields_20w5_15w5_10w5_7w3_0w4 (m := 1073741840) a b c k l (by decide)
  change decodeNat (put5 1073741840 a 20 b 15 c 10 k 7 l 0) = _
  generalize put5 1073741840 a 20 b 15 c 10 k 7 l 0 = wd at hf ⊢
  obtain ⟨e0, e1, -, e3, fa, fb, fc, fk, fl⟩ : fld wd 25 6 = 32 ∧ fld wd 20 5 = a.toNat ∧ fld wd 7 3 = k.toNat ∧ fld wd 4 3 = 1 ∧ bv wd 20 5 = a ∧ bv wd 15 5 = b ∧ bv wd 10 5 = c ∧ bv wd 7 3 = k ∧ bv wd 0 4 = l := hf
  simp [decodeNat, dec20, e0, e1, e3, fa, fb, fc, fk, fl, hwf]

theorem RoundTrip.cpLdq (a : BitVec 5) (b : BitVec 5) (c : BitVec 5) (k : BitVec 3) (l : BitVec 4) : RoundTrip.Statement (.cpLdq a b c k l) := by
  intro _ hwf
  replace hwf : a.toNat ≤ 30 := hwf
  have hf := fields_20w5_15w5_10w5_7w3_0w4 (m := 1073741856) a b c k l (by decide)
  change decodeNat (put5 1073741856 a 20 b 15 c 10 k 7 l 0) = _
  generalize put5 1073741856 a 20 b 15 c 10 k 7 l 0 = wd at hf ⊢
  obtain ⟨e0, e1, -, e3, fa, fb, fc, fk, fl⟩ : fld wd 25 6 = 32 ∧ fld wd 20 5 = a.toNat ∧ fld wd 7 3 = k.toNat ∧ fld wd 4 3 = 2 ∧ bv wd 20 5 = a ∧ bv wd 15 5 = b ∧ bv wd 10 5 = c ∧ bv wd 7 3 = k ∧ bv wd 0 4 = l := hf
  simp [decodeNat, dec20, e0, e1, e3, fa, fb, fc, fk, fl, hwf]

theorem RoundTrip.cpFifo (a : BitVec 5) (c : BitVec 5) (k : BitVec 3) (l : BitVec 4) : RoundTrip.Statement (.cpFifo a c k l) := by
  intro _ hwf
  replace hwf : a.toNat ≤ 30 := hwf
  have ha := a.isLt
  have hc := c.isLt
  have hk := k.isLt
  have hl := l.isLt
  generalize hw : encodeNat (.cpFifo a c k l) = wd
  replace hw : 1073741872 + a.toNat * 2 ^ 20 + c.toNat * 2 ^ 10 + k.toNat * 2 ^ 7 + l.toNat * 2 ^ 0 = wd := hw
  have e0 : fld wd 25 6 = 32 := by unfold fld; omega
  have e1 : fld wd 20 5 = a.toNat := by unfold fld; omega
  have e2 : fld wd 15 5 = 0 := by unfold fld; omega
  have e3 : fld wd 4 3 = 3 := by unfold fld; omega
  have fa : bv wd 20 5 = a := bv_eq (by omega)
  have fc : bv wd 10 5 = c := bv_eq (by omega)
  have fk : bv wd 7 3 = k := bv_eq (by omega)
  have fl : bv wd 0 4 = l := bv_eq (by omega)
  simp [decodeNat, dec20, e0, e1, e2, e3, fa, fc, fk, fl, hwf]

theorem RoundTrip.cpMc (a : BitVec 5) (b : BitVec 5) (c : BitVec 5) (k : BitVec 3) (l : BitVec 4) : RoundTrip.Statement (.cpMc a b c k l) := by
  intro _ hwf
  replace hwf : a.toNat ≤ 30 := hwf
  have hf := fields_20w5_15w5_10w5_7w3_0w4 (m := 1073741888) a b c k l (by decide)
  change decodeNat (put5 1073741888 a 20 b 15 c 10 k 7 l 0) = _
  generalize put5 1073741888 a 20 b 15 c 10 k 7 l 0 = wd at hf ⊢
  obtain ⟨e0, e1, -, e3, fa, fb, fc, fk, fl⟩ : fld wd 25 6 = 32 ∧ fld wd 20 5 = a.toNat ∧ fld wd 7 3 = k.toNat ∧ fld wd 4 3 = 4 ∧ bv wd 20 5 = a ∧ bv wd 15 5 = b ∧ bv wd 10 5 = c ∧ bv wd 7 3 = k ∧ bv wd 0 4 = l := hf
  simp [decodeNat, dec20, e0, e1, e3, fa, fb, fc, fk, fl, hwf]

theorem RoundTrip.cpGrant (a : BitVec 5) : RoundTrip.Statement (.cpGrant a) := by
  intro _ _
  have hf := fields_20w5 (m := 1107296256) a (by decide)
  change decodeNat (put1 1107296256 a 20) = _
  generalize put1 1107296256 a 20 = wd at hf ⊢
  obtain ⟨e0, e1, -, -, e4, e5, fa⟩ : fld wd 25 6 = 33 ∧ fld wd 10 10 = 0 ∧ fld wd 7 13 = 0 ∧ fld wd 4 3 = 0 ∧ fld wd 4 6 = 0 ∧ fld wd 0 4 = 0 ∧ bv wd 20 5 = a := hf
  simp [decodeNat, dec21, e0, e1, e4, e5, fa]

theorem RoundTrip.cpSlots (d : BitVec 5) (l : BitVec 4) : RoundTrip.Statement (.cpSlots d l) := by
  intro _ _
  have hf := fields_20w5_0w4 (m := 1107296272) d l (by decide)
  change decodeNat (put2 1107296272 d 20 l 0) = _
  generalize put2 1107296272 d 20 l 0 = wd at hf ⊢
  obtain ⟨e0, e1, -, -, -, e5, fd, fl⟩ : fld wd 25 6 = 33 ∧ fld wd 10 10 = 0 ∧ fld wd 7 3 = 0 ∧ fld wd 7 13 = 0 ∧ fld wd 4 3 = 1 ∧ fld wd 4 6 = 1 ∧ bv wd 20 5 = d ∧ bv wd 0 4 = l := hf
  simp [decodeNat, dec21, e0, e1, e5, fd, fl]

theorem RoundTrip.cpCount (d : BitVec 5) (l : BitVec 4) : RoundTrip.Statement (.cpCount d l) := by
  intro _ _
  have hf := fields_20w5_0w4 (m := 1107296288) d l (by decide)
  change decodeNat (put2 1107296288 d 20 l 0) = _
  generalize put2 1107296288 d 20 l 0 = wd at hf ⊢
  obtain ⟨e0, e1, -, -, -, e5, fd, fl⟩ : fld wd 25 6 = 33 ∧ fld wd 10 10 = 0 ∧ fld wd 7 3 = 0 ∧ fld wd 7 13 = 0 ∧ fld wd 4 3 = 2 ∧ fld wd 4 6 = 2 ∧ bv wd 20 5 = d ∧ bv wd 0 4 = l := hf
  simp [decodeNat, dec21, e0, e1, e5, fd, fl]

theorem RoundTrip.xpRun (a : BitVec 5) (k : BitVec 3) (l : BitVec 4) : RoundTrip.Statement (.xpRun a k l) := by
  intro _ _
  have hf := fields_20w5_7w3_0w4 (m := 1140850688) a k l (by decide)
  change decodeNat (put3 1140850688 a 20 k 7 l 0) = _
  generalize put3 1140850688 a 20 k 7 l 0 = wd at hf ⊢
  obtain ⟨e0, e1, e2, fa, fk, fl⟩ : fld wd 25 6 = 34 ∧ fld wd 10 10 = 0 ∧ fld wd 4 3 = 0 ∧ bv wd 20 5 = a ∧ bv wd 7 3 = k ∧ bv wd 0 4 = l := hf
  simp [decodeNat, dec22, e0, e1, e2, fa, fk, fl]

theorem RoundTrip.mtask (a : BitVec 5) (k : BitVec 3) (l : BitVec 4) : RoundTrip.Statement (.mtask a k l) := by
  intro _ _
  have hf := fields_20w5_7w3_0w4 (m := 1207959552) a k l (by decide)
  change decodeNat (put3 1207959552 a 20 k 7 l 0) = _
  generalize put3 1207959552 a 20 k 7 l 0 = wd at hf ⊢
  obtain ⟨e0, e1, e2, fa, fk, fl⟩ : fld wd 25 6 = 36 ∧ fld wd 10 10 = 0 ∧ fld wd 4 3 = 0 ∧ bv wd 20 5 = a ∧ bv wd 7 3 = k ∧ bv wd 0 4 = l := hf
  simp [decodeNat, dec24, e0, e1, e2, fa, fk, fl]

theorem RoundTrip.mdrain (a : BitVec 5) (k : BitVec 3) (l : BitVec 4) : RoundTrip.Statement (.mdrain a k l) := by
  intro _ _
  have hf := fields_20w5_7w3_0w4 (m := 1207959568) a k l (by decide)
  change decodeNat (put3 1207959568 a 20 k 7 l 0) = _
  generalize put3 1207959568 a 20 k 7 l 0 = wd at hf ⊢
  obtain ⟨e0, e1, e2, fa, fk, fl⟩ : fld wd 25 6 = 36 ∧ fld wd 10 10 = 0 ∧ fld wd 4 3 = 1 ∧ bv wd 20 5 = a ∧ bv wd 7 3 = k ∧ bv wd 0 4 = l := hf
  simp [decodeNat, dec24, e0, e1, e2, fa, fk, fl]

theorem RoundTrip.mstat (d : BitVec 5) (b : BitVec 5) (l : BitVec 4) : RoundTrip.Statement (.mstat d b l) := by
  intro _ _
  have hf := fields_20w5_15w5_0w4 (m := 1207959584) d b l (by decide)
  change decodeNat (put3 1207959584 d 20 b 15 l 0) = _
  generalize put3 1207959584 d 20 b 15 l 0 = wd at hf ⊢
  obtain ⟨e0, -, -, e3, e4, -, fd, fb, fl⟩ : fld wd 25 6 = 36 ∧ fld wd 10 5 = 0 ∧ fld wd 7 3 = 0 ∧ fld wd 7 8 = 0 ∧ fld wd 4 3 = 2 ∧ fld wd 4 6 = 2 ∧ bv wd 20 5 = d ∧ bv wd 15 5 = b ∧ bv wd 0 4 = l := hf
  simp [decodeNat, dec24, e0, e3, e4, fd, fb, fl]

theorem RoundTrip.ldAcqB32 (d : BitVec 7) (a : BitVec 7) (b : BitVec 4) (s : BitVec 3) (l : BitVec 4) : RoundTrip.Statement (.ldAcqB32 d a b s l) := by
  intro _ hwf
  replace hwf : s.toNat ≤ 6 := hwf
  have hf := fields_18w7_11w7_7w4_4w3_0w4 (m := 1342177280) d a b s l (by decide)
  change decodeNat (put5 1342177280 d 18 a 11 b 7 s 4 l 0) = _
  generalize put5 1342177280 d 18 a 11 b 7 s 4 l 0 = wd at hf ⊢
  obtain ⟨e0, e1, fd, fa, fb, fs, fl⟩ : fld wd 25 6 = 40 ∧ fld wd 4 3 = s.toNat ∧ bv wd 18 7 = d ∧ bv wd 11 7 = a ∧ bv wd 7 4 = b ∧ bv wd 4 3 = s ∧ bv wd 0 4 = l := hf
  simp [decodeNat, dec28, e0, e1, fd, fa, fb, fs, fl, hwf]

theorem RoundTrip.stRelB32 (v : BitVec 7) (a : BitVec 7) (b : BitVec 4) (s : BitVec 3) (l : BitVec 4) : RoundTrip.Statement (.stRelB32 v a b s l) := by
  intro _ hwf
  replace hwf : s.toNat ≤ 6 := hwf
  have hf := fields_18w7_11w7_7w4_4w3_0w4 (m := 1375731712) v a b s l (by decide)
  change decodeNat (put5 1375731712 v 18 a 11 b 7 s 4 l 0) = _
  generalize put5 1375731712 v 18 a 11 b 7 s 4 l 0 = wd at hf ⊢
  obtain ⟨e0, e1, fv, fa, fb, fs, fl⟩ : fld wd 25 6 = 41 ∧ fld wd 4 3 = s.toNat ∧ bv wd 18 7 = v ∧ bv wd 11 7 = a ∧ bv wd 7 4 = b ∧ bv wd 4 3 = s ∧ bv wd 0 4 = l := hf
  simp [decodeNat, dec29, e0, e1, fv, fa, fb, fs, fl, hwf]

theorem RoundTrip.fence (s : BitVec 3) : RoundTrip.Statement (.fence s) := by
  intro _ hwf
  replace hwf : 1 ≤ s.toNat ∧ s.toNat ≤ 6 := hwf
  have hf := fields_7w3 (m := 1409286144) s (by decide)
  change decodeNat (put1 1409286144 s 7) = _
  generalize put1 1409286144 s 7 = wd at hf ⊢
  obtain ⟨e0, e1, e2, e3, e4, fs⟩ : fld wd 25 6 = 42 ∧ fld wd 10 15 = 0 ∧ fld wd 7 3 = s.toNat ∧ fld wd 4 3 = 0 ∧ fld wd 0 4 = 0 ∧ bv wd 7 3 = s := hf
  simp [decodeNat, dec2A, e0, e1, e2, e3, e4, fs, hwf]

theorem RoundTrip.fenceRel (s : BitVec 3) : RoundTrip.Statement (.fenceRel s) := by
  intro _ hwf
  replace hwf : 1 ≤ s.toNat ∧ s.toNat ≤ 6 := hwf
  have hf := fields_7w3 (m := 1409286160) s (by decide)
  change decodeNat (put1 1409286160 s 7) = _
  generalize put1 1409286160 s 7 = wd at hf ⊢
  obtain ⟨e0, e1, e2, e3, e4, fs⟩ : fld wd 25 6 = 42 ∧ fld wd 10 15 = 0 ∧ fld wd 7 3 = s.toNat ∧ fld wd 4 3 = 1 ∧ fld wd 0 4 = 0 ∧ bv wd 7 3 = s := hf
  simp [decodeNat, dec2A, e0, e1, e2, e3, e4, fs, hwf]

theorem RoundTrip.fenceAcq (s : BitVec 3) : RoundTrip.Statement (.fenceAcq s) := by
  intro _ hwf
  replace hwf : 1 ≤ s.toNat ∧ s.toNat ≤ 6 := hwf
  have hf := fields_7w3 (m := 1409286176) s (by decide)
  change decodeNat (put1 1409286176 s 7) = _
  generalize put1 1409286176 s 7 = wd at hf ⊢
  obtain ⟨e0, e1, e2, e3, e4, fs⟩ : fld wd 25 6 = 42 ∧ fld wd 10 15 = 0 ∧ fld wd 7 3 = s.toNat ∧ fld wd 4 3 = 2 ∧ fld wd 0 4 = 0 ∧ bv wd 7 3 = s := hf
  simp [decodeNat, dec2A, e0, e1, e2, e3, e4, fs, hwf]

theorem RoundTrip.cwbRange (a : BitVec 5) (b : BitVec 5) : RoundTrip.Statement (.cwbRange a b) := by
  intro _ _
  have hf := fields_20w5_15w5 (m := 1409286192) a b (by decide)
  change decodeNat (put2 1409286192 a 20 b 15) = _
  generalize put2 1409286192 a 20 b 15 = wd at hf ⊢
  obtain ⟨e0, -, e2, e3, e4, -, e6, fa, fb⟩ : fld wd 25 6 = 42 ∧ fld wd 10 5 = 0 ∧ fld wd 7 3 = 0 ∧ fld wd 7 8 = 0 ∧ fld wd 4 3 = 3 ∧ fld wd 4 6 = 3 ∧ fld wd 0 4 = 0 ∧ bv wd 20 5 = a ∧ bv wd 15 5 = b := hf
  simp [decodeNat, dec2A, e0, e2, e3, e4, e6, fa, fb]

theorem RoundTrip.cinvRange (a : BitVec 5) (b : BitVec 5) : RoundTrip.Statement (.cinvRange a b) := by
  intro _ _
  have hf := fields_20w5_15w5 (m := 1409286208) a b (by decide)
  change decodeNat (put2 1409286208 a 20 b 15) = _
  generalize put2 1409286208 a 20 b 15 = wd at hf ⊢
  obtain ⟨e0, -, e2, e3, e4, -, e6, fa, fb⟩ : fld wd 25 6 = 42 ∧ fld wd 10 5 = 0 ∧ fld wd 7 3 = 0 ∧ fld wd 7 8 = 0 ∧ fld wd 4 3 = 4 ∧ fld wd 4 6 = 4 ∧ fld wd 0 4 = 0 ∧ bv wd 20 5 = a ∧ bv wd 15 5 = b := hf
  simp [decodeNat, dec2A, e0, e2, e3, e4, e6, fa, fb]

theorem RoundTrip.icinvRange (a : BitVec 5) (b : BitVec 5) : RoundTrip.Statement (.icinvRange a b) := by
  intro _ _
  have hf := fields_20w5_15w5 (m := 1409286224) a b (by decide)
  change decodeNat (put2 1409286224 a 20 b 15) = _
  generalize put2 1409286224 a 20 b 15 = wd at hf ⊢
  obtain ⟨e0, -, e2, e3, e4, -, e6, fa, fb⟩ : fld wd 25 6 = 42 ∧ fld wd 10 5 = 0 ∧ fld wd 7 3 = 0 ∧ fld wd 7 8 = 0 ∧ fld wd 4 3 = 5 ∧ fld wd 4 6 = 5 ∧ fld wd 0 4 = 0 ∧ bv wd 20 5 = a ∧ bv wd 15 5 = b := hf
  simp [decodeNat, dec2A, e0, e2, e3, e4, e6, fa, fb]

theorem RoundTrip.twinStat (d : BitVec 5) (l : BitVec 4) : RoundTrip.Statement (.twinStat d l) := by
  intro _ _
  have hf := fields_20w5_0w4 (m := 1409286240) d l (by decide)
  change decodeNat (put2 1409286240 d 20 l 0) = _
  generalize put2 1409286240 d 20 l 0 = wd at hf ⊢
  obtain ⟨e0, -, e2, e3, e4, -, fd, fl⟩ : fld wd 25 6 = 42 ∧ fld wd 10 10 = 0 ∧ fld wd 7 3 = 0 ∧ fld wd 7 13 = 0 ∧ fld wd 4 3 = 6 ∧ fld wd 4 6 = 6 ∧ bv wd 20 5 = d ∧ bv wd 0 4 = l := hf
  simp [decodeNat, dec2A, e0, e2, e3, e4, fd, fl]

theorem RoundTrip.mcas (d : BitVec 5) (b : BitVec 5) (l : BitVec 4) : RoundTrip.Statement (.mcas d b l) := by
  intro _ _
  have hf := fields_20w5_15w5_0w4 (m := 1442840576) d b l (by decide)
  change decodeNat (put3 1442840576 d 20 b 15 l 0) = _
  generalize put3 1442840576 d 20 b 15 l 0 = wd at hf ⊢
  obtain ⟨e0, -, -, e3, e4, -, fd, fb, fl⟩ : fld wd 25 6 = 43 ∧ fld wd 10 5 = 0 ∧ fld wd 7 3 = 0 ∧ fld wd 7 8 = 0 ∧ fld wd 4 3 = 0 ∧ fld wd 4 6 = 0 ∧ bv wd 20 5 = d ∧ bv wd 15 5 = b ∧ bv wd 0 4 = l := hf
  simp [decodeNat, dec2B, e0, e3, e4, fd, fb, fl]

theorem RoundTrip.tlbinv (a : BitVec 5) (b : BitVec 5) : RoundTrip.Statement (.tlbinv a b) := by
  intro _ _
  have hf := fields_20w5_15w5 (m := 1442840592) a b (by decide)
  change decodeNat (put2 1442840592 a 20 b 15) = _
  generalize put2 1442840592 a 20 b 15 = wd at hf ⊢
  obtain ⟨e0, -, -, e3, e4, -, e6, fa, fb⟩ : fld wd 25 6 = 43 ∧ fld wd 10 5 = 0 ∧ fld wd 7 3 = 0 ∧ fld wd 7 8 = 0 ∧ fld wd 4 3 = 1 ∧ fld wd 4 6 = 1 ∧ fld wd 0 4 = 0 ∧ bv wd 20 5 = a ∧ bv wd 15 5 = b := hf
  simp [decodeNat, dec2B, e0, e3, e4, e6, fa, fb]

theorem RoundTrip.swmAlloc (d : BitVec 5) (b : BitVec 5) (c : BitVec 5) (l : BitVec 4) : RoundTrip.Statement (.swmAlloc d b c l) := by
  intro _ _
  have hf := fields_20w5_15w5_10w5_0w4 (m := 1476395008) d b c l (by decide)
  change decodeNat (put4 1476395008 d 20 b 15 c 10 l 0) = _
  generalize put4 1476395008 d 20 b 15 c 10 l 0 = wd at hf ⊢
  obtain ⟨e0, e1, e2, fd, fb, fc, fl⟩ : fld wd 25 6 = 44 ∧ fld wd 7 3 = 0 ∧ fld wd 4 3 = 0 ∧ bv wd 20 5 = d ∧ bv wd 15 5 = b ∧ bv wd 10 5 = c ∧ bv wd 0 4 = l := hf
  simp [decodeNat, dec2C, e0, e1, e2, fd, fb, fc, fl]

theorem RoundTrip.swmMap (d : BitVec 5) (b : BitVec 5) (c : BitVec 5) (l : BitVec 4) : RoundTrip.Statement (.swmMap d b c l) := by
  intro _ _
  have hf := fields_20w5_15w5_10w5_0w4 (m := 1476395024) d b c l (by decide)
  change decodeNat (put4 1476395024 d 20 b 15 c 10 l 0) = _
  generalize put4 1476395024 d 20 b 15 c 10 l 0 = wd at hf ⊢
  obtain ⟨e0, e1, e2, fd, fb, fc, fl⟩ : fld wd 25 6 = 44 ∧ fld wd 7 3 = 0 ∧ fld wd 4 3 = 1 ∧ bv wd 20 5 = d ∧ bv wd 15 5 = b ∧ bv wd 10 5 = c ∧ bv wd 0 4 = l := hf
  simp [decodeNat, dec2C, e0, e1, e2, fd, fb, fc, fl]

theorem RoundTrip.swmUnmap (d : BitVec 5) (b : BitVec 5) (l : BitVec 4) : RoundTrip.Statement (.swmUnmap d b l) := by
  intro _ _
  have hf := fields_20w5_15w5_0w4 (m := 1476395040) d b l (by decide)
  change decodeNat (put3 1476395040 d 20 b 15 l 0) = _
  generalize put3 1476395040 d 20 b 15 l 0 = wd at hf ⊢
  obtain ⟨e0, -, -, e3, e4, -, fd, fb, fl⟩ : fld wd 25 6 = 44 ∧ fld wd 10 5 = 0 ∧ fld wd 7 3 = 0 ∧ fld wd 7 8 = 0 ∧ fld wd 4 3 = 2 ∧ fld wd 4 6 = 2 ∧ bv wd 20 5 = d ∧ bv wd 15 5 = b ∧ bv wd 0 4 = l := hf
  simp [decodeNat, dec2C, e0, e3, e4, fd, fb, fl]

theorem RoundTrip.swmFree (d : BitVec 5) (b : BitVec 5) (l : BitVec 4) : RoundTrip.Statement (.swmFree d b l) := by
  intro _ _
  have hf := fields_20w5_15w5_0w4 (m := 1476395056) d b l (by decide)
  change decodeNat (put3 1476395056 d 20 b 15 l 0) = _
  generalize put3 1476395056 d 20 b 15 l 0 = wd at hf ⊢
  obtain ⟨e0, -, -, e3, e4, -, fd, fb, fl⟩ : fld wd 25 6 = 44 ∧ fld wd 10 5 = 0 ∧ fld wd 7 3 = 0 ∧ fld wd 7 8 = 0 ∧ fld wd 4 3 = 3 ∧ fld wd 4 6 = 3 ∧ bv wd 20 5 = d ∧ bv wd 15 5 = b ∧ bv wd 0 4 = l := hf
  simp [decodeNat, dec2C, e0, e3, e4, fd, fb, fl]

theorem RoundTrip.fmc (a : BitVec 5) (b : BitVec 5) (c : BitVec 5) (k : BitVec 3) (l : BitVec 4) : RoundTrip.Statement (.fmc a b c k l) := by
  intro _ _
  have hf := fields_20w5_15w5_10w5_7w3_0w4 (m := 1509949440) a b c k l (by decide)
  change decodeNat (put5 1509949440 a 20 b 15 c 10 k 7 l 0) = _
  generalize put5 1509949440 a 20 b 15 c 10 k 7 l 0 = wd at hf ⊢
  obtain ⟨e0, -, -, e3, fa, fb, fc, fk, fl⟩ : fld wd 25 6 = 45 ∧ fld wd 20 5 = a.toNat ∧ fld wd 7 3 = k.toNat ∧ fld wd 4 3 = 0 ∧ bv wd 20 5 = a ∧ bv wd 15 5 = b ∧ bv wd 10 5 = c ∧ bv wd 7 3 = k ∧ bv wd 0 4 = l := hf
  simp [decodeNat, dec2D, e0, e3, fa, fb, fc, fk, fl]

theorem RoundTrip.fred (a : BitVec 5) (b : BitVec 5) (c : BitVec 5) (k : BitVec 3) (l : BitVec 4) : RoundTrip.Statement (.fred a b c k l) := by
  intro _ _
  have hf := fields_20w5_15w5_10w5_7w3_0w4 (m := 1509949456) a b c k l (by decide)
  change decodeNat (put5 1509949456 a 20 b 15 c 10 k 7 l 0) = _
  generalize put5 1509949456 a 20 b 15 c 10 k 7 l 0 = wd at hf ⊢
  obtain ⟨e0, -, -, e3, fa, fb, fc, fk, fl⟩ : fld wd 25 6 = 45 ∧ fld wd 20 5 = a.toNat ∧ fld wd 7 3 = k.toNat ∧ fld wd 4 3 = 1 ∧ bv wd 20 5 = a ∧ bv wd 15 5 = b ∧ bv wd 10 5 = c ∧ bv wd 7 3 = k ∧ bv wd 0 4 = l := hf
  simp [decodeNat, dec2D, e0, e3, fa, fb, fc, fk, fl]

theorem RoundTrip.fsig (a : BitVec 5) (b : BitVec 5) (k : BitVec 3) (l : BitVec 4) : RoundTrip.Statement (.fsig a b k l) := by
  intro _ _
  have ha := a.isLt
  have hb := b.isLt
  have hk := k.isLt
  have hl := l.isLt
  generalize hw : encodeNat (.fsig a b k l) = wd
  replace hw : 1543503872 + a.toNat * 2 ^ 20 + b.toNat * 2 ^ 15 + k.toNat * 2 ^ 7 + l.toNat * 2 ^ 0 = wd := hw
  have e0 : fld wd 25 6 = 46 := by unfold fld; omega
  have e1 : fld wd 10 5 = 0 := by unfold fld; omega
  have e2 : fld wd 4 3 = 0 := by unfold fld; omega
  have fa : bv wd 20 5 = a := bv_eq (by omega)
  have fb : bv wd 15 5 = b := bv_eq (by omega)
  have fk : bv wd 7 3 = k := bv_eq (by omega)
  have fl : bv wd 0 4 = l := bv_eq (by omega)
  simp [decodeNat, dec2E, e0, e1, e2, fa, fb, fk, fl]

theorem RoundTrip.fstat (d : BitVec 5) (l : BitVec 4) : RoundTrip.Statement (.fstat d l) := by
  intro _ _
  have hf := fields_20w5_0w4 (m := 1543503888) d l (by decide)
  change decodeNat (put2 1543503888 d 20 l 0) = _
  generalize put2 1543503888 d 20 l 0 = wd at hf ⊢
  obtain ⟨e0, -, -, e3, e4, -, fd, fl⟩ : fld wd 25 6 = 46 ∧ fld wd 10 10 = 0 ∧ fld wd 7 3 = 0 ∧ fld wd 7 13 = 0 ∧ fld wd 4 3 = 1 ∧ fld wd 4 6 = 1 ∧ bv wd 20 5 = d ∧ bv wd 0 4 = l := hf
  simp [decodeNat, dec2E, e0, e3, e4, fd, fl]

theorem RoundTrip.ndLaunch (d : BitVec 5) (b : BitVec 5) (l : BitVec 4) : RoundTrip.Statement (.ndLaunch d b l) := by
  intro _ _
  have hf := fields_20w5_15w5_0w4 (m := 1610612736) d b l (by decide)
  change decodeNat (put3 1610612736 d 20 b 15 l 0) = _
  generalize put3 1610612736 d 20 b 15 l 0 = wd at hf ⊢
  obtain ⟨e0, -, -, e3, e4, -, fd, fb, fl⟩ : fld wd 25 6 = 48 ∧ fld wd 10 5 = 0 ∧ fld wd 7 3 = 0 ∧ fld wd 7 8 = 0 ∧ fld wd 4 3 = 0 ∧ fld wd 4 6 = 0 ∧ bv wd 20 5 = d ∧ bv wd 15 5 = b ∧ bv wd 0 4 = l := hf
  simp [decodeNat, dec30, e0, e3, e4, fd, fb, fl]

theorem RoundTrip.ndSignal (d : BitVec 5) (b : BitVec 5) (c : BitVec 5) (l : BitVec 4) : RoundTrip.Statement (.ndSignal d b c l) := by
  intro _ _
  have hf := fields_20w5_15w5_10w5_0w4 (m := 1610612752) d b c l (by decide)
  change decodeNat (put4 1610612752 d 20 b 15 c 10 l 0) = _
  generalize put4 1610612752 d 20 b 15 c 10 l 0 = wd at hf ⊢
  obtain ⟨e0, e1, e2, fd, fb, fc, fl⟩ : fld wd 25 6 = 48 ∧ fld wd 7 3 = 0 ∧ fld wd 4 3 = 1 ∧ bv wd 20 5 = d ∧ bv wd 15 5 = b ∧ bv wd 10 5 = c ∧ bv wd 0 4 = l := hf
  simp [decodeNat, dec30, e0, e1, e2, fd, fb, fc, fl]

theorem RoundTrip.ndStat (d : BitVec 5) (b : BitVec 5) (l : BitVec 4) : RoundTrip.Statement (.ndStat d b l) := by
  intro _ _
  have hf := fields_20w5_15w5_0w4 (m := 1610612768) d b l (by decide)
  change decodeNat (put3 1610612768 d 20 b 15 l 0) = _
  generalize put3 1610612768 d 20 b 15 l 0 = wd at hf ⊢
  obtain ⟨e0, -, -, e3, e4, -, fd, fb, fl⟩ : fld wd 25 6 = 48 ∧ fld wd 10 5 = 0 ∧ fld wd 7 3 = 0 ∧ fld wd 7 8 = 0 ∧ fld wd 4 3 = 2 ∧ fld wd 4 6 = 2 ∧ bv wd 20 5 = d ∧ bv wd 15 5 = b ∧ bv wd 0 4 = l := hf
  simp [decodeNat, dec30, e0, e3, e4, fd, fb, fl]

theorem RoundTrip.sqBind (d : BitVec 5) (b : BitVec 5) : RoundTrip.Statement (.sqBind d b) := by
  intro _ _
  have hf := fields_20w5_15w5 (m := 1677721600) d b (by decide)
  change decodeNat (put2 1677721600 d 20 b 15) = _
  generalize put2 1677721600 d 20 b 15 = wd at hf ⊢
  obtain ⟨e0, -, -, e3, e4, -, e6, fd, fb⟩ : fld wd 25 6 = 50 ∧ fld wd 10 5 = 0 ∧ fld wd 7 3 = 0 ∧ fld wd 7 8 = 0 ∧ fld wd 4 3 = 0 ∧ fld wd 4 6 = 0 ∧ fld wd 0 4 = 0 ∧ bv wd 20 5 = d ∧ bv wd 15 5 = b := hf
  simp [decodeNat, dec32, e0, e3, e4, e6, fd, fb]

theorem RoundTrip.sqUnbind (a : BitVec 5) : RoundTrip.Statement (.sqUnbind a) := by
  intro _ _
  have hf := fields_20w5 (m := 1677721616) a (by decide)
  change decodeNat (put1 1677721616 a 20) = _
  generalize put1 1677721616 a 20 = wd at hf ⊢
  obtain ⟨e0, -, e2, e3, -, e5, fa⟩ : fld wd 25 6 = 50 ∧ fld wd 10 10 = 0 ∧ fld wd 7 13 = 0 ∧ fld wd 4 3 = 1 ∧ fld wd 4 6 = 1 ∧ fld wd 0 4 = 0 ∧ bv wd 20 5 = a := hf
  simp [decodeNat, dec32, e0, e2, e3, e5, fa]

theorem RoundTrip.sqQuery (d : BitVec 5) (b : BitVec 5) : RoundTrip.Statement (.sqQuery d b) := by
  intro _ _
  have hf := fields_20w5_15w5 (m := 1677721632) d b (by decide)
  change decodeNat (put2 1677721632 d 20 b 15) = _
  generalize put2 1677721632 d 20 b 15 = wd at hf ⊢
  obtain ⟨e0, -, -, e3, e4, -, e6, fd, fb⟩ : fld wd 25 6 = 50 ∧ fld wd 10 5 = 0 ∧ fld wd 7 3 = 0 ∧ fld wd 7 8 = 0 ∧ fld wd 4 3 = 2 ∧ fld wd 4 6 = 2 ∧ fld wd 0 4 = 0 ∧ bv wd 20 5 = d ∧ bv wd 15 5 = b := hf
  simp [decodeNat, dec32, e0, e3, e4, e6, fd, fb]

theorem RoundTrip.sqImg (b : BitVec 5) (c : BitVec 5) : RoundTrip.Statement (.sqImg b c) := by
  intro _ _
  have hb := b.isLt
  have hc := c.isLt
  generalize hw : encodeNat (.sqImg b c) = wd
  replace hw : 1677721648 + b.toNat * 2 ^ 15 + c.toNat * 2 ^ 10 = wd := hw
  have e0 : fld wd 25 6 = 50 := by unfold fld; omega
  have e1 : fld wd 20 5 = 0 := by unfold fld; omega
  have e2 : fld wd 7 3 = 0 := by unfold fld; omega
  have e3 : fld wd 4 3 = 3 := by unfold fld; omega
  have e4 : fld wd 0 4 = 0 := by unfold fld; omega
  have fb : bv wd 15 5 = b := bv_eq (by omega)
  have fc : bv wd 10 5 = c := bv_eq (by omega)
  simp [decodeNat, dec32, e0, e1, e2, e3, e4, fb, fc]

theorem RoundTrip.dwx (i : BitVec 2) (d : BitVec 7) (a : BitVec 7) (b : BitVec 7) (n : BitVec 4) : RoundTrip.Statement (.dwx i d a b n) := by
  intro _ _
  have hi := i.isLt
  have hd := d.isLt
  have ha := a.isLt
  have hb := b.isLt
  have hn := n.isLt
  generalize hw : encodeNat (.dwx i d a b n) = wd
  replace hw : 1879048192 + i.toNat * 2 ^ 25 + d.toNat * 2 ^ 18 + a.toNat * 2 ^ 11 + b.toNat * 2 ^ 4 + n.toNat * 2 ^ 0 = wd := hw
  have fi : bv wd 25 2 = i := bv_eq (by omega)
  have fd : bv wd 18 7 = d := bv_eq (by omega)
  have fa : bv wd 11 7 = a := bv_eq (by omega)
  have fb : bv wd 4 7 = b := bv_eq (by omega)
  have fn : bv wd 0 4 = n := bv_eq (by omega)
  have e : fld wd 25 6 = 56 + i.toNat := by unfold fld; omega
  have hi4 : i.toNat = 0 ∨ i.toNat = 1 ∨ i.toNat = 2 ∨ i.toNat = 3 := by omega
  rcases hi4 with h | h | h | h <;> simp [decodeNat, e, h, fi, fd, fa, fb, fn]

theorem RoundTrip.mwaitTimeout (gang : Nat) : RoundTrip.Statement (.mwaitTimeout gang) := nofun
theorem RoundTrip.sleepEnd (gang : Nat) : RoundTrip.Statement (.sleepEnd gang) := nofun
theorem RoundTrip.sectorLanded (core cmd : Nat) : RoundTrip.Statement (.sectorLanded core cmd) := nofun
theorem RoundTrip.copyCommandComplete (core cmd : Nat) : RoundTrip.Statement (.copyCommandComplete core cmd) := nofun
theorem RoundTrip.copyFaultReport (core cmd : Nat) : RoundTrip.Statement (.copyFaultReport core cmd) := nofun
theorem RoundTrip.taskStart (core : Nat) : RoundTrip.Statement (.taskStart core) := nofun
theorem RoundTrip.kgroupCompute (core task : Nat) : RoundTrip.Statement (.kgroupCompute core task) := nofun
theorem RoundTrip.taskComplete (core task : Nat) : RoundTrip.Statement (.taskComplete core task) := nofun
theorem RoundTrip.arrivalApply (arrival : Nat) : RoundTrip.Statement (.arrivalApply arrival) := nofun
theorem RoundTrip.peerAcknowledge (core task : Nat) : RoundTrip.Statement (.peerAcknowledge core task) := nofun
theorem RoundTrip.matrixFaultReport (core task : Nat) : RoundTrip.Statement (.matrixFaultReport core task) := nofun
theorem RoundTrip.lockGrant (line : Nat) : RoundTrip.Statement (.lockGrant line) := nofun
theorem RoundTrip.earlyPublication (die : Nat) : RoundTrip.Statement (.earlyPublication die) := nofun
theorem RoundTrip.evictionPublication (die line : Nat) : RoundTrip.Statement (.evictionPublication die line) := nofun
theorem RoundTrip.recordApply (record : Nat) : RoundTrip.Statement (.recordApply record) := nofun
theorem RoundTrip.releaseComplete (release : Nat) : RoundTrip.Statement (.releaseComplete release) := nofun
theorem RoundTrip.forwardedCopyApply (copy : Nat) : RoundTrip.Statement (.forwardedCopyApply copy) := nofun
theorem RoundTrip.fillArrival (fill : Nat) : RoundTrip.Statement (.fillArrival fill) := nofun
theorem RoundTrip.writeBackApply (writeBack : Nat) : RoundTrip.Statement (.writeBackApply writeBack) := nofun
theorem RoundTrip.accessComplete (gang entry : Nat) : RoundTrip.Statement (.accessComplete gang entry) := nofun
theorem RoundTrip.takeTrap (gang : Nat) : RoundTrip.Statement (.takeTrap gang) := nofun
theorem RoundTrip.watchdog (gang : Nat) : RoundTrip.Statement (.watchdog gang) := nofun
theorem RoundTrip.uncorrectableError (gang structureId : Nat) (address : Nat) : RoundTrip.Statement (.uncorrectableError gang structureId address) := nofun
theorem RoundTrip.wcAgeDrain (core : Nat) (line : Nat) : RoundTrip.Statement (.wcAgeDrain core line) := nofun
theorem RoundTrip.writePacketApply (packet : Nat) : RoundTrip.Statement (.writePacketApply packet) := nofun
theorem RoundTrip.acknowledgeReceive (packet : Nat) : RoundTrip.Statement (.acknowledgeReceive packet) := nofun
theorem RoundTrip.remoteFaultReport (packet code : Nat) : RoundTrip.Statement (.remoteFaultReport packet code) := nofun
theorem RoundTrip.retransmit (packet : Nat) : RoundTrip.Statement (.retransmit packet) := nofun
theorem RoundTrip.recoveryDiscard (packet : Nat) : RoundTrip.Statement (.recoveryDiscard packet) := nofun
theorem RoundTrip.keyRollover (link : Nat) : RoundTrip.Statement (.keyRollover link) := nofun
theorem RoundTrip.drainedFlit (link : Nat) : RoundTrip.Statement (.drainedFlit link) := nofun
theorem RoundTrip.linkDown (link : Nat) : RoundTrip.Statement (.linkDown link) := nofun
theorem RoundTrip.switchLost (sw : Nat) : RoundTrip.Statement (.switchLost sw) := nofun
theorem RoundTrip.switchReplaced (sw : Nat) : RoundTrip.Statement (.switchReplaced sw) := nofun
theorem RoundTrip.multicastDelivery (delivery : Nat) : RoundTrip.Statement (.multicastDelivery delivery) := nofun
theorem RoundTrip.reductionContribution (contribution : Nat) : RoundTrip.Statement (.reductionContribution contribution) := nofun
theorem RoundTrip.residueSend (sw port entry : Nat) : RoundTrip.Statement (.residueSend sw port entry) := nofun
theorem RoundTrip.groupInstall (group tenant : Nat) (members : List Nat) : RoundTrip.Statement (.groupInstall group tenant members) := nofun
theorem RoundTrip.groupReinstall (group plane : Nat) : RoundTrip.Statement (.groupReinstall group plane) := nofun
theorem RoundTrip.switchTableWrite (sw plane state generation : Nat) : RoundTrip.Statement (.switchTableWrite sw plane state generation) := nofun
theorem RoundTrip.quotaSet (tenant sw granules : Nat) : RoundTrip.Statement (.quotaSet tenant sw granules) := nofun
theorem RoundTrip.linkStateUpdate (pkg plane : Nat) (up : Bool) : RoundTrip.Statement (.linkStateUpdate pkg plane up) := nofun
theorem RoundTrip.hostDoorbell (tenant queue tail : Nat) : RoundTrip.Statement (.hostDoorbell tenant queue tail) := nofun
theorem RoundTrip.nodeAdmit (admission : Nat) : RoundTrip.Statement (.nodeAdmit admission) := nofun
theorem RoundTrip.predecessorSignal (signal : Nat) : RoundTrip.Statement (.predecessorSignal signal) := nofun
theorem RoundTrip.ensemblePlace (node : Nat) (places : List Nat) : RoundTrip.Statement (.ensemblePlace node places) := nofun
theorem RoundTrip.ensembleRestore (ensemble : Nat) (places : List Nat) : RoundTrip.Statement (.ensembleRestore ensemble places) := nofun
theorem RoundTrip.nodeComplete (node : Nat) : RoundTrip.Statement (.nodeComplete node) := nofun
theorem RoundTrip.eclipseWindowStart (die : Nat) : RoundTrip.Statement (.eclipseWindowStart die) := nofun
theorem RoundTrip.eclipseWindowEnd (die : Nat) : RoundTrip.Statement (.eclipseWindowEnd die) := nofun
theorem RoundTrip.tenantRecordWrite (tenant offset : Nat) (value : BitVec 64) : RoundTrip.Statement (.tenantRecordWrite tenant offset value) := nofun
theorem RoundTrip.writeRefusedClear (tenant : Nat) : RoundTrip.Statement (.writeRefusedClear tenant) := nofun
theorem RoundTrip.tenantReset (tenant : Nat) : RoundTrip.Statement (.tenantReset tenant) := nofun
theorem RoundTrip.warmReset : RoundTrip.Statement .warmReset := nofun
theorem RoundTrip.coldReset : RoundTrip.Statement .coldReset := nofun
theorem RoundTrip.powerOnReset : RoundTrip.Statement .powerOnReset := nofun
theorem RoundTrip.eventOverflowClear : RoundTrip.Statement .eventOverflowClear := nofun
theorem RoundTrip.eventQueueHeadWrite (head : Nat) : RoundTrip.Statement (.eventQueueHeadWrite head) := nofun
theorem RoundTrip.registerWrite (offset : Nat) (value : BitVec 64) : RoundTrip.Statement (.registerWrite offset value) := nofun
theorem RoundTrip.hostMemLoad (address bytes : Nat) : RoundTrip.Statement (.hostMemLoad address bytes) := nofun
theorem RoundTrip.hostMemStore (address : Nat) (data : List (BitVec 8)) : RoundTrip.Statement (.hostMemStore address data) := nofun
theorem RoundTrip.sidebandResetRequest (secured : Bool) (command level : BitVec 8) : RoundTrip.Statement (.sidebandResetRequest secured command level) := nofun
theorem RoundTrip.firmwareUpdate (image : List (BitVec 8)) : RoundTrip.Statement (.firmwareUpdate image) := nofun
theorem RoundTrip.spdmRequest (index : Nat) : RoundTrip.Statement (.spdmRequest index) := nofun
theorem RoundTrip.powerCapSet (watts : Nat) : RoundTrip.Statement (.powerCapSet watts) := nofun
theorem RoundTrip.clockThrottle (limit : Nat) : RoundTrip.Statement (.clockThrottle limit) := nofun
theorem RoundTrip.clockRaise (limit : Nat) : RoundTrip.Statement (.clockRaise limit) := nofun
theorem RoundTrip.thermalTrip (die : Nat) : RoundTrip.Statement (.thermalTrip die) := nofun
theorem RoundTrip.spuriousWake (gang : Nat) : RoundTrip.Statement (.spuriousWake gang) := nofun
theorem RoundTrip.saveLimitPassed (ensemble : Nat) : RoundTrip.Statement (.saveLimitPassed ensemble) := nofun
theorem RoundTrip.remoteLoadOrAtomicServe (request : Nat) : RoundTrip.Statement (.remoteLoadOrAtomicServe request) := nofun
theorem RoundTrip.flitAuthenticationFailure (link : Nat) : RoundTrip.Statement (.flitAuthenticationFailure link) := nofun
theorem RoundTrip.voluntaryWriteBack (die : Nat) (grain : Nat) : RoundTrip.Statement (.voluntaryWriteBack die grain) := nofun
theorem RoundTrip.capUnreachableEnd : RoundTrip.Statement .capUnreachableEnd := nofun
theorem RoundTrip.uncorrectableErrorOutsideGang (origin : Nat) (detail : BitVec 128) : RoundTrip.Statement (.uncorrectableErrorOutsideGang origin detail) := nofun

end Sys2Proof.Laws
end

