-- ==== Sys2Proof/Laws/State.lean ====
section
/-! SUPPORT. What each update of the state leaves in each field: true by definition. -/

namespace Sys2Proof.Machine

/-! ## `State.setG` -/

@[simp] theorem State.setG_g (s : State) (f : Gang → Gang) : (s.setG f).g = f s.g := rfl
@[simp] theorem State.setG_gangs (s : State) (f : Gang → Gang) : (s.setG f).gangs = s.gangs := rfl
@[simp] theorem State.setG_crews (s : State) (f : Gang → Gang) : (s.setG f).crews = s.crews := rfl
@[simp] theorem State.setG_ensembles (s : State) (f : Gang → Gang) : (s.setG f).ensembles = s.ensembles := rfl
@[simp] theorem State.setG_nodes (s : State) (f : Gang → Gang) : (s.setG f).nodes = s.nodes := rfl
@[simp] theorem State.setG_cores (s : State) (f : Gang → Gang) : (s.setG f).cores = s.cores := rfl
@[simp] theorem State.setG_dies (s : State) (f : Gang → Gang) : (s.setG f).dies = s.dies := rfl
@[simp] theorem State.setG_spad (s : State) (f : Gang → Gang) : (s.setG f).spad = s.spad := rfl
@[simp] theorem State.setG_mem (s : State) (f : Gang → Gang) : (s.setG f).mem = s.mem := rfl
@[simp] theorem State.setG_versions (s : State) (f : Gang → Gang) : (s.setG f).versions = s.versions := rfl
@[simp] theorem State.setG_zeroings (s : State) (f : Gang → Gang) : (s.setG f).zeroings = s.zeroings := rfl
@[simp] theorem State.setG_hostLines (s : State) (f : Gang → Gang) : (s.setG f).hostLines = s.hostLines := rfl
@[simp] theorem State.setG_twinHome (s : State) (f : Gang → Gang) : (s.setG f).twinHome = s.twinHome := rfl
@[simp] theorem State.setG_tags (s : State) (f : Gang → Gang) : (s.setG f).tags = s.tags := rfl
@[simp] theorem State.setG_waiters (s : State) (f : Gang → Gang) : (s.setG f).waiters = s.waiters := rfl
@[simp] theorem State.setG_locks (s : State) (f : Gang → Gang) : (s.setG f).locks = s.locks := rfl
@[simp] theorem State.setG_directory (s : State) (f : Gang → Gang) : (s.setG f).directory = s.directory := rfl
@[simp] theorem State.setG_records (s : State) (f : Gang → Gang) : (s.setG f).records = s.records := rfl
@[simp] theorem State.setG_copies (s : State) (f : Gang → Gang) : (s.setG f).copies = s.copies := rfl
@[simp] theorem State.setG_writeBacks (s : State) (f : Gang → Gang) : (s.setG f).writeBacks = s.writeBacks := rfl
@[simp] theorem State.setG_fills (s : State) (f : Gang → Gang) : (s.setG f).fills = s.fills := rfl
@[simp] theorem State.setG_releases (s : State) (f : Gang → Gang) : (s.setG f).releases = s.releases := rfl
@[simp] theorem State.setG_tlb (s : State) (f : Gang → Gang) : (s.setG f).tlb = s.tlb := rfl
@[simp] theorem State.setG_pkg (s : State) (f : Gang → Gang) : (s.setG f).pkg = s.pkg := rfl
@[simp] theorem State.setG_domain (s : State) (f : Gang → Gang) : (s.setG f).domain = s.domain := rfl
@[simp] theorem State.setG_links (s : State) (f : Gang → Gang) : (s.setG f).links = s.links := rfl
@[simp] theorem State.setG_downLinks (s : State) (f : Gang → Gang) : (s.setG f).downLinks = s.downLinks := rfl
@[simp] theorem State.setG_peerPages (s : State) (f : Gang → Gang) : (s.setG f).peerPages = s.peerPages := rfl
@[simp] theorem State.setG_seqs (s : State) (f : Gang → Gang) : (s.setG f).seqs = s.seqs := rfl
@[simp] theorem State.setG_packets (s : State) (f : Gang → Gang) : (s.setG f).packets = s.packets := rfl
@[simp] theorem State.setG_switches (s : State) (f : Gang → Gang) : (s.setG f).switches = s.switches := rfl
@[simp] theorem State.setG_swAllocs (s : State) (f : Gang → Gang) : (s.setG f).swAllocs = s.swAllocs := rfl
@[simp] theorem State.setG_quotas (s : State) (f : Gang → Gang) : (s.setG f).quotas = s.quotas := rfl
@[simp] theorem State.setG_groups (s : State) (f : Gang → Gang) : (s.setG f).groups = s.groups := rfl
@[simp] theorem State.setG_rounds (s : State) (f : Gang → Gang) : (s.setG f).rounds = s.rounds := rfl
@[simp] theorem State.setG_contribs (s : State) (f : Gang → Gang) : (s.setG f).contribs = s.contribs := rfl
@[simp] theorem State.setG_deliveries (s : State) (f : Gang → Gang) : (s.setG f).deliveries = s.deliveries := rfl
@[simp] theorem State.setG_residues (s : State) (f : Gang → Gang) : (s.setG f).residues = s.residues := rfl
@[simp] theorem State.setG_requests (s : State) (f : Gang → Gang) : (s.setG f).requests = s.requests := rfl
@[simp] theorem State.setG_arrivals (s : State) (f : Gang → Gang) : (s.setG f).arrivals = s.arrivals := rfl
@[simp] theorem State.setG_tenants (s : State) (f : Gang → Gang) : (s.setG f).tenants = s.tenants := rfl
@[simp] theorem State.setG_admissions (s : State) (f : Gang → Gang) : (s.setG f).admissions = s.admissions := rfl
@[simp] theorem State.setG_predSignals (s : State) (f : Gang → Gang) : (s.setG f).predSignals = s.predSignals := rfl
@[simp] theorem State.setG_tokens (s : State) (f : Gang → Gang) : (s.setG f).tokens = s.tokens := rfl
@[simp] theorem State.setG_hold (s : State) (f : Gang → Gang) : (s.setG f).hold = s.hold := rfl
@[simp] theorem State.setG_nextNode (s : State) (f : Gang → Gang) : (s.setG f).nextNode = s.nextNode := rfl
@[simp] theorem State.setG_nextId (s : State) (f : Gang → Gang) : (s.setG f).nextId = s.nextId := rfl
@[simp] theorem State.setG_rrTenant (s : State) (f : Gang → Gang) : (s.setG f).rrTenant = s.rrTenant := rfl
@[simp] theorem State.setG_parkedCmds (s : State) (f : Gang → Gang) : (s.setG f).parkedCmds = s.parkedCmds := rfl
@[simp] theorem State.setG_parkedMatrix (s : State) (f : Gang → Gang) : (s.setG f).parkedMatrix = s.parkedMatrix := rfl
@[simp] theorem State.setG_host (s : State) (f : Gang → Gang) : (s.setG f).host = s.host := rfl
@[simp] theorem State.setG_unit (s : State) (f : Gang → Gang) : (s.setG f).unit = s.unit := rfl
@[simp] theorem State.setG_clk (s : State) (f : Gang → Gang) : (s.setG f).clk = s.clk := rfl
@[simp] theorem State.setG_clkFloor (s : State) (f : Gang → Gang) : (s.setG f).clkFloor = s.clkFloor := rfl
@[simp] theorem State.setG_tick (s : State) (f : Gang → Gang) : (s.setG f).tick = s.tick := rfl
@[simp] theorem State.setG_inFlight (s : State) (f : Gang → Gang) : (s.setG f).inFlight = s.inFlight := rfl
@[simp] theorem State.setG_agenda (s : State) (f : Gang → Gang) : (s.setG f).agenda = s.agenda := rfl

/-! ## `State.setR` -/

@[simp] theorem State.setR_g (s : State) (f : Regs → Regs) : (s.setR f).g = { s.g with r := f s.g.r } := rfl
@[simp] theorem State.setR_gangs (s : State) (f : Regs → Regs) : (s.setR f).gangs = s.gangs := rfl
@[simp] theorem State.setR_crews (s : State) (f : Regs → Regs) : (s.setR f).crews = s.crews := rfl
@[simp] theorem State.setR_ensembles (s : State) (f : Regs → Regs) : (s.setR f).ensembles = s.ensembles := rfl
@[simp] theorem State.setR_nodes (s : State) (f : Regs → Regs) : (s.setR f).nodes = s.nodes := rfl
@[simp] theorem State.setR_cores (s : State) (f : Regs → Regs) : (s.setR f).cores = s.cores := rfl
@[simp] theorem State.setR_dies (s : State) (f : Regs → Regs) : (s.setR f).dies = s.dies := rfl
@[simp] theorem State.setR_spad (s : State) (f : Regs → Regs) : (s.setR f).spad = s.spad := rfl
@[simp] theorem State.setR_mem (s : State) (f : Regs → Regs) : (s.setR f).mem = s.mem := rfl
@[simp] theorem State.setR_versions (s : State) (f : Regs → Regs) : (s.setR f).versions = s.versions := rfl
@[simp] theorem State.setR_zeroings (s : State) (f : Regs → Regs) : (s.setR f).zeroings = s.zeroings := rfl
@[simp] theorem State.setR_hostLines (s : State) (f : Regs → Regs) : (s.setR f).hostLines = s.hostLines := rfl
@[simp] theorem State.setR_twinHome (s : State) (f : Regs → Regs) : (s.setR f).twinHome = s.twinHome := rfl
@[simp] theorem State.setR_tags (s : State) (f : Regs → Regs) : (s.setR f).tags = s.tags := rfl
@[simp] theorem State.setR_waiters (s : State) (f : Regs → Regs) : (s.setR f).waiters = s.waiters := rfl
@[simp] theorem State.setR_locks (s : State) (f : Regs → Regs) : (s.setR f).locks = s.locks := rfl
@[simp] theorem State.setR_directory (s : State) (f : Regs → Regs) : (s.setR f).directory = s.directory := rfl
@[simp] theorem State.setR_records (s : State) (f : Regs → Regs) : (s.setR f).records = s.records := rfl
@[simp] theorem State.setR_copies (s : State) (f : Regs → Regs) : (s.setR f).copies = s.copies := rfl
@[simp] theorem State.setR_writeBacks (s : State) (f : Regs → Regs) : (s.setR f).writeBacks = s.writeBacks := rfl
@[simp] theorem State.setR_fills (s : State) (f : Regs → Regs) : (s.setR f).fills = s.fills := rfl
@[simp] theorem State.setR_releases (s : State) (f : Regs → Regs) : (s.setR f).releases = s.releases := rfl
@[simp] theorem State.setR_tlb (s : State) (f : Regs → Regs) : (s.setR f).tlb = s.tlb := rfl
@[simp] theorem State.setR_pkg (s : State) (f : Regs → Regs) : (s.setR f).pkg = s.pkg := rfl
@[simp] theorem State.setR_domain (s : State) (f : Regs → Regs) : (s.setR f).domain = s.domain := rfl
@[simp] theorem State.setR_links (s : State) (f : Regs → Regs) : (s.setR f).links = s.links := rfl
@[simp] theorem State.setR_downLinks (s : State) (f : Regs → Regs) : (s.setR f).downLinks = s.downLinks := rfl
@[simp] theorem State.setR_peerPages (s : State) (f : Regs → Regs) : (s.setR f).peerPages = s.peerPages := rfl
@[simp] theorem State.setR_seqs (s : State) (f : Regs → Regs) : (s.setR f).seqs = s.seqs := rfl
@[simp] theorem State.setR_packets (s : State) (f : Regs → Regs) : (s.setR f).packets = s.packets := rfl
@[simp] theorem State.setR_switches (s : State) (f : Regs → Regs) : (s.setR f).switches = s.switches := rfl
@[simp] theorem State.setR_swAllocs (s : State) (f : Regs → Regs) : (s.setR f).swAllocs = s.swAllocs := rfl
@[simp] theorem State.setR_quotas (s : State) (f : Regs → Regs) : (s.setR f).quotas = s.quotas := rfl
@[simp] theorem State.setR_groups (s : State) (f : Regs → Regs) : (s.setR f).groups = s.groups := rfl
@[simp] theorem State.setR_rounds (s : State) (f : Regs → Regs) : (s.setR f).rounds = s.rounds := rfl
@[simp] theorem State.setR_contribs (s : State) (f : Regs → Regs) : (s.setR f).contribs = s.contribs := rfl
@[simp] theorem State.setR_deliveries (s : State) (f : Regs → Regs) : (s.setR f).deliveries = s.deliveries := rfl
@[simp] theorem State.setR_residues (s : State) (f : Regs → Regs) : (s.setR f).residues = s.residues := rfl
@[simp] theorem State.setR_requests (s : State) (f : Regs → Regs) : (s.setR f).requests = s.requests := rfl
@[simp] theorem State.setR_arrivals (s : State) (f : Regs → Regs) : (s.setR f).arrivals = s.arrivals := rfl
@[simp] theorem State.setR_tenants (s : State) (f : Regs → Regs) : (s.setR f).tenants = s.tenants := rfl
@[simp] theorem State.setR_admissions (s : State) (f : Regs → Regs) : (s.setR f).admissions = s.admissions := rfl
@[simp] theorem State.setR_predSignals (s : State) (f : Regs → Regs) : (s.setR f).predSignals = s.predSignals := rfl
@[simp] theorem State.setR_tokens (s : State) (f : Regs → Regs) : (s.setR f).tokens = s.tokens := rfl
@[simp] theorem State.setR_hold (s : State) (f : Regs → Regs) : (s.setR f).hold = s.hold := rfl
@[simp] theorem State.setR_nextNode (s : State) (f : Regs → Regs) : (s.setR f).nextNode = s.nextNode := rfl
@[simp] theorem State.setR_nextId (s : State) (f : Regs → Regs) : (s.setR f).nextId = s.nextId := rfl
@[simp] theorem State.setR_rrTenant (s : State) (f : Regs → Regs) : (s.setR f).rrTenant = s.rrTenant := rfl
@[simp] theorem State.setR_parkedCmds (s : State) (f : Regs → Regs) : (s.setR f).parkedCmds = s.parkedCmds := rfl
@[simp] theorem State.setR_parkedMatrix (s : State) (f : Regs → Regs) : (s.setR f).parkedMatrix = s.parkedMatrix := rfl
@[simp] theorem State.setR_host (s : State) (f : Regs → Regs) : (s.setR f).host = s.host := rfl
@[simp] theorem State.setR_unit (s : State) (f : Regs → Regs) : (s.setR f).unit = s.unit := rfl
@[simp] theorem State.setR_clk (s : State) (f : Regs → Regs) : (s.setR f).clk = s.clk := rfl
@[simp] theorem State.setR_clkFloor (s : State) (f : Regs → Regs) : (s.setR f).clkFloor = s.clkFloor := rfl
@[simp] theorem State.setR_tick (s : State) (f : Regs → Regs) : (s.setR f).tick = s.tick := rfl
@[simp] theorem State.setR_inFlight (s : State) (f : Regs → Regs) : (s.setR f).inFlight = s.inFlight := rfl
@[simp] theorem State.setR_agenda (s : State) (f : Regs → Regs) : (s.setR f).agenda = s.agenda := rfl

/-! ## `State.flag` -/

@[simp] theorem State.flag_g (s : State) (f : Flags) : (s.flag f).g = { s.g with r := { s.g.r with xstat := s.g.r.xstat ||| f } } := rfl
@[simp] theorem State.flag_gangs (s : State) (f : Flags) : (s.flag f).gangs = s.gangs := rfl
@[simp] theorem State.flag_crews (s : State) (f : Flags) : (s.flag f).crews = s.crews := rfl
@[simp] theorem State.flag_ensembles (s : State) (f : Flags) : (s.flag f).ensembles = s.ensembles := rfl
@[simp] theorem State.flag_nodes (s : State) (f : Flags) : (s.flag f).nodes = s.nodes := rfl
@[simp] theorem State.flag_cores (s : State) (f : Flags) : (s.flag f).cores = s.cores := rfl
@[simp] theorem State.flag_dies (s : State) (f : Flags) : (s.flag f).dies = s.dies := rfl
@[simp] theorem State.flag_spad (s : State) (f : Flags) : (s.flag f).spad = s.spad := rfl
@[simp] theorem State.flag_mem (s : State) (f : Flags) : (s.flag f).mem = s.mem := rfl
@[simp] theorem State.flag_versions (s : State) (f : Flags) : (s.flag f).versions = s.versions := rfl
@[simp] theorem State.flag_zeroings (s : State) (f : Flags) : (s.flag f).zeroings = s.zeroings := rfl
@[simp] theorem State.flag_hostLines (s : State) (f : Flags) : (s.flag f).hostLines = s.hostLines := rfl
@[simp] theorem State.flag_twinHome (s : State) (f : Flags) : (s.flag f).twinHome = s.twinHome := rfl
@[simp] theorem State.flag_tags (s : State) (f : Flags) : (s.flag f).tags = s.tags := rfl
@[simp] theorem State.flag_waiters (s : State) (f : Flags) : (s.flag f).waiters = s.waiters := rfl
@[simp] theorem State.flag_locks (s : State) (f : Flags) : (s.flag f).locks = s.locks := rfl
@[simp] theorem State.flag_directory (s : State) (f : Flags) : (s.flag f).directory = s.directory := rfl
@[simp] theorem State.flag_records (s : State) (f : Flags) : (s.flag f).records = s.records := rfl
@[simp] theorem State.flag_copies (s : State) (f : Flags) : (s.flag f).copies = s.copies := rfl
@[simp] theorem State.flag_writeBacks (s : State) (f : Flags) : (s.flag f).writeBacks = s.writeBacks := rfl
@[simp] theorem State.flag_fills (s : State) (f : Flags) : (s.flag f).fills = s.fills := rfl
@[simp] theorem State.flag_releases (s : State) (f : Flags) : (s.flag f).releases = s.releases := rfl
@[simp] theorem State.flag_tlb (s : State) (f : Flags) : (s.flag f).tlb = s.tlb := rfl
@[simp] theorem State.flag_pkg (s : State) (f : Flags) : (s.flag f).pkg = s.pkg := rfl
@[simp] theorem State.flag_domain (s : State) (f : Flags) : (s.flag f).domain = s.domain := rfl
@[simp] theorem State.flag_links (s : State) (f : Flags) : (s.flag f).links = s.links := rfl
@[simp] theorem State.flag_downLinks (s : State) (f : Flags) : (s.flag f).downLinks = s.downLinks := rfl
@[simp] theorem State.flag_peerPages (s : State) (f : Flags) : (s.flag f).peerPages = s.peerPages := rfl
@[simp] theorem State.flag_seqs (s : State) (f : Flags) : (s.flag f).seqs = s.seqs := rfl
@[simp] theorem State.flag_packets (s : State) (f : Flags) : (s.flag f).packets = s.packets := rfl
@[simp] theorem State.flag_switches (s : State) (f : Flags) : (s.flag f).switches = s.switches := rfl
@[simp] theorem State.flag_swAllocs (s : State) (f : Flags) : (s.flag f).swAllocs = s.swAllocs := rfl
@[simp] theorem State.flag_quotas (s : State) (f : Flags) : (s.flag f).quotas = s.quotas := rfl
@[simp] theorem State.flag_groups (s : State) (f : Flags) : (s.flag f).groups = s.groups := rfl
@[simp] theorem State.flag_rounds (s : State) (f : Flags) : (s.flag f).rounds = s.rounds := rfl
@[simp] theorem State.flag_contribs (s : State) (f : Flags) : (s.flag f).contribs = s.contribs := rfl
@[simp] theorem State.flag_deliveries (s : State) (f : Flags) : (s.flag f).deliveries = s.deliveries := rfl
@[simp] theorem State.flag_residues (s : State) (f : Flags) : (s.flag f).residues = s.residues := rfl
@[simp] theorem State.flag_requests (s : State) (f : Flags) : (s.flag f).requests = s.requests := rfl
@[simp] theorem State.flag_arrivals (s : State) (f : Flags) : (s.flag f).arrivals = s.arrivals := rfl
@[simp] theorem State.flag_tenants (s : State) (f : Flags) : (s.flag f).tenants = s.tenants := rfl
@[simp] theorem State.flag_admissions (s : State) (f : Flags) : (s.flag f).admissions = s.admissions := rfl
@[simp] theorem State.flag_predSignals (s : State) (f : Flags) : (s.flag f).predSignals = s.predSignals := rfl
@[simp] theorem State.flag_tokens (s : State) (f : Flags) : (s.flag f).tokens = s.tokens := rfl
@[simp] theorem State.flag_hold (s : State) (f : Flags) : (s.flag f).hold = s.hold := rfl
@[simp] theorem State.flag_nextNode (s : State) (f : Flags) : (s.flag f).nextNode = s.nextNode := rfl
@[simp] theorem State.flag_nextId (s : State) (f : Flags) : (s.flag f).nextId = s.nextId := rfl
@[simp] theorem State.flag_rrTenant (s : State) (f : Flags) : (s.flag f).rrTenant = s.rrTenant := rfl
@[simp] theorem State.flag_parkedCmds (s : State) (f : Flags) : (s.flag f).parkedCmds = s.parkedCmds := rfl
@[simp] theorem State.flag_parkedMatrix (s : State) (f : Flags) : (s.flag f).parkedMatrix = s.parkedMatrix := rfl
@[simp] theorem State.flag_host (s : State) (f : Flags) : (s.flag f).host = s.host := rfl
@[simp] theorem State.flag_unit (s : State) (f : Flags) : (s.flag f).unit = s.unit := rfl
@[simp] theorem State.flag_clk (s : State) (f : Flags) : (s.flag f).clk = s.clk := rfl
@[simp] theorem State.flag_clkFloor (s : State) (f : Flags) : (s.flag f).clkFloor = s.clkFloor := rfl
@[simp] theorem State.flag_tick (s : State) (f : Flags) : (s.flag f).tick = s.tick := rfl
@[simp] theorem State.flag_inFlight (s : State) (f : Flags) : (s.flag f).inFlight = s.inFlight := rfl
@[simp] theorem State.flag_agenda (s : State) (f : Flags) : (s.flag f).agenda = s.agenda := rfl

/-! ## `State.setCore` -/

@[simp] theorem State.setCore_g (s : State) (c : Nat) (f : Core → Core) : (s.setCore c f).g = s.g := rfl
@[simp] theorem State.setCore_gangs (s : State) (c : Nat) (f : Core → Core) : (s.setCore c f).gangs = s.gangs := rfl
@[simp] theorem State.setCore_crews (s : State) (c : Nat) (f : Core → Core) : (s.setCore c f).crews = s.crews := rfl
@[simp] theorem State.setCore_ensembles (s : State) (c : Nat) (f : Core → Core) : (s.setCore c f).ensembles = s.ensembles := rfl
@[simp] theorem State.setCore_nodes (s : State) (c : Nat) (f : Core → Core) : (s.setCore c f).nodes = s.nodes := rfl
@[simp] theorem State.setCore_cores (s : State) (c : Nat) (f : Core → Core) : (s.setCore c f).cores = upsert s.cores c (f (s.core c)) := rfl
@[simp] theorem State.setCore_dies (s : State) (c : Nat) (f : Core → Core) : (s.setCore c f).dies = s.dies := rfl
@[simp] theorem State.setCore_spad (s : State) (c : Nat) (f : Core → Core) : (s.setCore c f).spad = s.spad := rfl
@[simp] theorem State.setCore_mem (s : State) (c : Nat) (f : Core → Core) : (s.setCore c f).mem = s.mem := rfl
@[simp] theorem State.setCore_versions (s : State) (c : Nat) (f : Core → Core) : (s.setCore c f).versions = s.versions := rfl
@[simp] theorem State.setCore_zeroings (s : State) (c : Nat) (f : Core → Core) : (s.setCore c f).zeroings = s.zeroings := rfl
@[simp] theorem State.setCore_hostLines (s : State) (c : Nat) (f : Core → Core) : (s.setCore c f).hostLines = s.hostLines := rfl
@[simp] theorem State.setCore_twinHome (s : State) (c : Nat) (f : Core → Core) : (s.setCore c f).twinHome = s.twinHome := rfl
@[simp] theorem State.setCore_tags (s : State) (c : Nat) (f : Core → Core) : (s.setCore c f).tags = s.tags := rfl
@[simp] theorem State.setCore_waiters (s : State) (c : Nat) (f : Core → Core) : (s.setCore c f).waiters = s.waiters := rfl
@[simp] theorem State.setCore_locks (s : State) (c : Nat) (f : Core → Core) : (s.setCore c f).locks = s.locks := rfl
@[simp] theorem State.setCore_directory (s : State) (c : Nat) (f : Core → Core) : (s.setCore c f).directory = s.directory := rfl
@[simp] theorem State.setCore_records (s : State) (c : Nat) (f : Core → Core) : (s.setCore c f).records = s.records := rfl
@[simp] theorem State.setCore_copies (s : State) (c : Nat) (f : Core → Core) : (s.setCore c f).copies = s.copies := rfl
@[simp] theorem State.setCore_writeBacks (s : State) (c : Nat) (f : Core → Core) : (s.setCore c f).writeBacks = s.writeBacks := rfl
@[simp] theorem State.setCore_fills (s : State) (c : Nat) (f : Core → Core) : (s.setCore c f).fills = s.fills := rfl
@[simp] theorem State.setCore_releases (s : State) (c : Nat) (f : Core → Core) : (s.setCore c f).releases = s.releases := rfl
@[simp] theorem State.setCore_tlb (s : State) (c : Nat) (f : Core → Core) : (s.setCore c f).tlb = s.tlb := rfl
@[simp] theorem State.setCore_pkg (s : State) (c : Nat) (f : Core → Core) : (s.setCore c f).pkg = s.pkg := rfl
@[simp] theorem State.setCore_domain (s : State) (c : Nat) (f : Core → Core) : (s.setCore c f).domain = s.domain := rfl
@[simp] theorem State.setCore_links (s : State) (c : Nat) (f : Core → Core) : (s.setCore c f).links = s.links := rfl
@[simp] theorem State.setCore_downLinks (s : State) (c : Nat) (f : Core → Core) : (s.setCore c f).downLinks = s.downLinks := rfl
@[simp] theorem State.setCore_peerPages (s : State) (c : Nat) (f : Core → Core) : (s.setCore c f).peerPages = s.peerPages := rfl
@[simp] theorem State.setCore_seqs (s : State) (c : Nat) (f : Core → Core) : (s.setCore c f).seqs = s.seqs := rfl
@[simp] theorem State.setCore_packets (s : State) (c : Nat) (f : Core → Core) : (s.setCore c f).packets = s.packets := rfl
@[simp] theorem State.setCore_switches (s : State) (c : Nat) (f : Core → Core) : (s.setCore c f).switches = s.switches := rfl
@[simp] theorem State.setCore_swAllocs (s : State) (c : Nat) (f : Core → Core) : (s.setCore c f).swAllocs = s.swAllocs := rfl
@[simp] theorem State.setCore_quotas (s : State) (c : Nat) (f : Core → Core) : (s.setCore c f).quotas = s.quotas := rfl
@[simp] theorem State.setCore_groups (s : State) (c : Nat) (f : Core → Core) : (s.setCore c f).groups = s.groups := rfl
@[simp] theorem State.setCore_rounds (s : State) (c : Nat) (f : Core → Core) : (s.setCore c f).rounds = s.rounds := rfl
@[simp] theorem State.setCore_contribs (s : State) (c : Nat) (f : Core → Core) : (s.setCore c f).contribs = s.contribs := rfl
@[simp] theorem State.setCore_deliveries (s : State) (c : Nat) (f : Core → Core) : (s.setCore c f).deliveries = s.deliveries := rfl
@[simp] theorem State.setCore_residues (s : State) (c : Nat) (f : Core → Core) : (s.setCore c f).residues = s.residues := rfl
@[simp] theorem State.setCore_requests (s : State) (c : Nat) (f : Core → Core) : (s.setCore c f).requests = s.requests := rfl
@[simp] theorem State.setCore_arrivals (s : State) (c : Nat) (f : Core → Core) : (s.setCore c f).arrivals = s.arrivals := rfl
@[simp] theorem State.setCore_tenants (s : State) (c : Nat) (f : Core → Core) : (s.setCore c f).tenants = s.tenants := rfl
@[simp] theorem State.setCore_admissions (s : State) (c : Nat) (f : Core → Core) : (s.setCore c f).admissions = s.admissions := rfl
@[simp] theorem State.setCore_predSignals (s : State) (c : Nat) (f : Core → Core) : (s.setCore c f).predSignals = s.predSignals := rfl
@[simp] theorem State.setCore_tokens (s : State) (c : Nat) (f : Core → Core) : (s.setCore c f).tokens = s.tokens := rfl
@[simp] theorem State.setCore_hold (s : State) (c : Nat) (f : Core → Core) : (s.setCore c f).hold = s.hold := rfl
@[simp] theorem State.setCore_nextNode (s : State) (c : Nat) (f : Core → Core) : (s.setCore c f).nextNode = s.nextNode := rfl
@[simp] theorem State.setCore_nextId (s : State) (c : Nat) (f : Core → Core) : (s.setCore c f).nextId = s.nextId := rfl
@[simp] theorem State.setCore_rrTenant (s : State) (c : Nat) (f : Core → Core) : (s.setCore c f).rrTenant = s.rrTenant := rfl
@[simp] theorem State.setCore_parkedCmds (s : State) (c : Nat) (f : Core → Core) : (s.setCore c f).parkedCmds = s.parkedCmds := rfl
@[simp] theorem State.setCore_parkedMatrix (s : State) (c : Nat) (f : Core → Core) : (s.setCore c f).parkedMatrix = s.parkedMatrix := rfl
@[simp] theorem State.setCore_host (s : State) (c : Nat) (f : Core → Core) : (s.setCore c f).host = s.host := rfl
@[simp] theorem State.setCore_unit (s : State) (c : Nat) (f : Core → Core) : (s.setCore c f).unit = s.unit := rfl
@[simp] theorem State.setCore_clk (s : State) (c : Nat) (f : Core → Core) : (s.setCore c f).clk = s.clk := rfl
@[simp] theorem State.setCore_clkFloor (s : State) (c : Nat) (f : Core → Core) : (s.setCore c f).clkFloor = s.clkFloor := rfl
@[simp] theorem State.setCore_tick (s : State) (c : Nat) (f : Core → Core) : (s.setCore c f).tick = s.tick := rfl
@[simp] theorem State.setCore_inFlight (s : State) (c : Nat) (f : Core → Core) : (s.setCore c f).inFlight = s.inFlight := rfl
@[simp] theorem State.setCore_agenda (s : State) (c : Nat) (f : Core → Core) : (s.setCore c f).agenda = s.agenda := rfl

/-! ## `State.setDie` -/

@[simp] theorem State.setDie_g (s : State) (d : Nat) (f : Die → Die) : (s.setDie d f).g = s.g := rfl
@[simp] theorem State.setDie_gangs (s : State) (d : Nat) (f : Die → Die) : (s.setDie d f).gangs = s.gangs := rfl
@[simp] theorem State.setDie_crews (s : State) (d : Nat) (f : Die → Die) : (s.setDie d f).crews = s.crews := rfl
@[simp] theorem State.setDie_ensembles (s : State) (d : Nat) (f : Die → Die) : (s.setDie d f).ensembles = s.ensembles := rfl
@[simp] theorem State.setDie_nodes (s : State) (d : Nat) (f : Die → Die) : (s.setDie d f).nodes = s.nodes := rfl
@[simp] theorem State.setDie_cores (s : State) (d : Nat) (f : Die → Die) : (s.setDie d f).cores = s.cores := rfl
@[simp] theorem State.setDie_dies (s : State) (d : Nat) (f : Die → Die) : (s.setDie d f).dies = s.dies.setIfInBounds d (f (s.die d)) := rfl
@[simp] theorem State.setDie_spad (s : State) (d : Nat) (f : Die → Die) : (s.setDie d f).spad = s.spad := rfl
@[simp] theorem State.setDie_mem (s : State) (d : Nat) (f : Die → Die) : (s.setDie d f).mem = s.mem := rfl
@[simp] theorem State.setDie_versions (s : State) (d : Nat) (f : Die → Die) : (s.setDie d f).versions = s.versions := rfl
@[simp] theorem State.setDie_zeroings (s : State) (d : Nat) (f : Die → Die) : (s.setDie d f).zeroings = s.zeroings := rfl
@[simp] theorem State.setDie_hostLines (s : State) (d : Nat) (f : Die → Die) : (s.setDie d f).hostLines = s.hostLines := rfl
@[simp] theorem State.setDie_twinHome (s : State) (d : Nat) (f : Die → Die) : (s.setDie d f).twinHome = s.twinHome := rfl
@[simp] theorem State.setDie_tags (s : State) (d : Nat) (f : Die → Die) : (s.setDie d f).tags = s.tags := rfl
@[simp] theorem State.setDie_waiters (s : State) (d : Nat) (f : Die → Die) : (s.setDie d f).waiters = s.waiters := rfl
@[simp] theorem State.setDie_locks (s : State) (d : Nat) (f : Die → Die) : (s.setDie d f).locks = s.locks := rfl
@[simp] theorem State.setDie_directory (s : State) (d : Nat) (f : Die → Die) : (s.setDie d f).directory = s.directory := rfl
@[simp] theorem State.setDie_records (s : State) (d : Nat) (f : Die → Die) : (s.setDie d f).records = s.records := rfl
@[simp] theorem State.setDie_copies (s : State) (d : Nat) (f : Die → Die) : (s.setDie d f).copies = s.copies := rfl
@[simp] theorem State.setDie_writeBacks (s : State) (d : Nat) (f : Die → Die) : (s.setDie d f).writeBacks = s.writeBacks := rfl
@[simp] theorem State.setDie_fills (s : State) (d : Nat) (f : Die → Die) : (s.setDie d f).fills = s.fills := rfl
@[simp] theorem State.setDie_releases (s : State) (d : Nat) (f : Die → Die) : (s.setDie d f).releases = s.releases := rfl
@[simp] theorem State.setDie_tlb (s : State) (d : Nat) (f : Die → Die) : (s.setDie d f).tlb = s.tlb := rfl
@[simp] theorem State.setDie_pkg (s : State) (d : Nat) (f : Die → Die) : (s.setDie d f).pkg = s.pkg := rfl
@[simp] theorem State.setDie_domain (s : State) (d : Nat) (f : Die → Die) : (s.setDie d f).domain = s.domain := rfl
@[simp] theorem State.setDie_links (s : State) (d : Nat) (f : Die → Die) : (s.setDie d f).links = s.links := rfl
@[simp] theorem State.setDie_downLinks (s : State) (d : Nat) (f : Die → Die) : (s.setDie d f).downLinks = s.downLinks := rfl
@[simp] theorem State.setDie_peerPages (s : State) (d : Nat) (f : Die → Die) : (s.setDie d f).peerPages = s.peerPages := rfl
@[simp] theorem State.setDie_seqs (s : State) (d : Nat) (f : Die → Die) : (s.setDie d f).seqs = s.seqs := rfl
@[simp] theorem State.setDie_packets (s : State) (d : Nat) (f : Die → Die) : (s.setDie d f).packets = s.packets := rfl
@[simp] theorem State.setDie_switches (s : State) (d : Nat) (f : Die → Die) : (s.setDie d f).switches = s.switches := rfl
@[simp] theorem State.setDie_swAllocs (s : State) (d : Nat) (f : Die → Die) : (s.setDie d f).swAllocs = s.swAllocs := rfl
@[simp] theorem State.setDie_quotas (s : State) (d : Nat) (f : Die → Die) : (s.setDie d f).quotas = s.quotas := rfl
@[simp] theorem State.setDie_groups (s : State) (d : Nat) (f : Die → Die) : (s.setDie d f).groups = s.groups := rfl
@[simp] theorem State.setDie_rounds (s : State) (d : Nat) (f : Die → Die) : (s.setDie d f).rounds = s.rounds := rfl
@[simp] theorem State.setDie_contribs (s : State) (d : Nat) (f : Die → Die) : (s.setDie d f).contribs = s.contribs := rfl
@[simp] theorem State.setDie_deliveries (s : State) (d : Nat) (f : Die → Die) : (s.setDie d f).deliveries = s.deliveries := rfl
@[simp] theorem State.setDie_residues (s : State) (d : Nat) (f : Die → Die) : (s.setDie d f).residues = s.residues := rfl
@[simp] theorem State.setDie_requests (s : State) (d : Nat) (f : Die → Die) : (s.setDie d f).requests = s.requests := rfl
@[simp] theorem State.setDie_arrivals (s : State) (d : Nat) (f : Die → Die) : (s.setDie d f).arrivals = s.arrivals := rfl
@[simp] theorem State.setDie_tenants (s : State) (d : Nat) (f : Die → Die) : (s.setDie d f).tenants = s.tenants := rfl
@[simp] theorem State.setDie_admissions (s : State) (d : Nat) (f : Die → Die) : (s.setDie d f).admissions = s.admissions := rfl
@[simp] theorem State.setDie_predSignals (s : State) (d : Nat) (f : Die → Die) : (s.setDie d f).predSignals = s.predSignals := rfl
@[simp] theorem State.setDie_tokens (s : State) (d : Nat) (f : Die → Die) : (s.setDie d f).tokens = s.tokens := rfl
@[simp] theorem State.setDie_hold (s : State) (d : Nat) (f : Die → Die) : (s.setDie d f).hold = s.hold := rfl
@[simp] theorem State.setDie_nextNode (s : State) (d : Nat) (f : Die → Die) : (s.setDie d f).nextNode = s.nextNode := rfl
@[simp] theorem State.setDie_nextId (s : State) (d : Nat) (f : Die → Die) : (s.setDie d f).nextId = s.nextId := rfl
@[simp] theorem State.setDie_rrTenant (s : State) (d : Nat) (f : Die → Die) : (s.setDie d f).rrTenant = s.rrTenant := rfl
@[simp] theorem State.setDie_parkedCmds (s : State) (d : Nat) (f : Die → Die) : (s.setDie d f).parkedCmds = s.parkedCmds := rfl
@[simp] theorem State.setDie_parkedMatrix (s : State) (d : Nat) (f : Die → Die) : (s.setDie d f).parkedMatrix = s.parkedMatrix := rfl
@[simp] theorem State.setDie_host (s : State) (d : Nat) (f : Die → Die) : (s.setDie d f).host = s.host := rfl
@[simp] theorem State.setDie_unit (s : State) (d : Nat) (f : Die → Die) : (s.setDie d f).unit = s.unit := rfl
@[simp] theorem State.setDie_clk (s : State) (d : Nat) (f : Die → Die) : (s.setDie d f).clk = s.clk := rfl
@[simp] theorem State.setDie_clkFloor (s : State) (d : Nat) (f : Die → Die) : (s.setDie d f).clkFloor = s.clkFloor := rfl
@[simp] theorem State.setDie_tick (s : State) (d : Nat) (f : Die → Die) : (s.setDie d f).tick = s.tick := rfl
@[simp] theorem State.setDie_inFlight (s : State) (d : Nat) (f : Die → Die) : (s.setDie d f).inFlight = s.inFlight := rfl
@[simp] theorem State.setDie_agenda (s : State) (d : Nat) (f : Die → Die) : (s.setDie d f).agenda = s.agenda := rfl

/-! ## `State.setTenant` -/

@[simp] theorem State.setTenant_g (s : State) (t : BitVec 6) (f : Tenant → Tenant) : (s.setTenant t f).g = s.g := rfl
@[simp] theorem State.setTenant_gangs (s : State) (t : BitVec 6) (f : Tenant → Tenant) : (s.setTenant t f).gangs = s.gangs := rfl
@[simp] theorem State.setTenant_crews (s : State) (t : BitVec 6) (f : Tenant → Tenant) : (s.setTenant t f).crews = s.crews := rfl
@[simp] theorem State.setTenant_ensembles (s : State) (t : BitVec 6) (f : Tenant → Tenant) : (s.setTenant t f).ensembles = s.ensembles := rfl
@[simp] theorem State.setTenant_nodes (s : State) (t : BitVec 6) (f : Tenant → Tenant) : (s.setTenant t f).nodes = s.nodes := rfl
@[simp] theorem State.setTenant_cores (s : State) (t : BitVec 6) (f : Tenant → Tenant) : (s.setTenant t f).cores = s.cores := rfl
@[simp] theorem State.setTenant_dies (s : State) (t : BitVec 6) (f : Tenant → Tenant) : (s.setTenant t f).dies = s.dies := rfl
@[simp] theorem State.setTenant_spad (s : State) (t : BitVec 6) (f : Tenant → Tenant) : (s.setTenant t f).spad = s.spad := rfl
@[simp] theorem State.setTenant_mem (s : State) (t : BitVec 6) (f : Tenant → Tenant) : (s.setTenant t f).mem = s.mem := rfl
@[simp] theorem State.setTenant_versions (s : State) (t : BitVec 6) (f : Tenant → Tenant) : (s.setTenant t f).versions = s.versions := rfl
@[simp] theorem State.setTenant_zeroings (s : State) (t : BitVec 6) (f : Tenant → Tenant) : (s.setTenant t f).zeroings = s.zeroings := rfl
@[simp] theorem State.setTenant_hostLines (s : State) (t : BitVec 6) (f : Tenant → Tenant) : (s.setTenant t f).hostLines = s.hostLines := rfl
@[simp] theorem State.setTenant_twinHome (s : State) (t : BitVec 6) (f : Tenant → Tenant) : (s.setTenant t f).twinHome = s.twinHome := rfl
@[simp] theorem State.setTenant_tags (s : State) (t : BitVec 6) (f : Tenant → Tenant) : (s.setTenant t f).tags = s.tags := rfl
@[simp] theorem State.setTenant_waiters (s : State) (t : BitVec 6) (f : Tenant → Tenant) : (s.setTenant t f).waiters = s.waiters := rfl
@[simp] theorem State.setTenant_locks (s : State) (t : BitVec 6) (f : Tenant → Tenant) : (s.setTenant t f).locks = s.locks := rfl
@[simp] theorem State.setTenant_directory (s : State) (t : BitVec 6) (f : Tenant → Tenant) : (s.setTenant t f).directory = s.directory := rfl
@[simp] theorem State.setTenant_records (s : State) (t : BitVec 6) (f : Tenant → Tenant) : (s.setTenant t f).records = s.records := rfl
@[simp] theorem State.setTenant_copies (s : State) (t : BitVec 6) (f : Tenant → Tenant) : (s.setTenant t f).copies = s.copies := rfl
@[simp] theorem State.setTenant_writeBacks (s : State) (t : BitVec 6) (f : Tenant → Tenant) : (s.setTenant t f).writeBacks = s.writeBacks := rfl
@[simp] theorem State.setTenant_fills (s : State) (t : BitVec 6) (f : Tenant → Tenant) : (s.setTenant t f).fills = s.fills := rfl
@[simp] theorem State.setTenant_releases (s : State) (t : BitVec 6) (f : Tenant → Tenant) : (s.setTenant t f).releases = s.releases := rfl
@[simp] theorem State.setTenant_tlb (s : State) (t : BitVec 6) (f : Tenant → Tenant) : (s.setTenant t f).tlb = s.tlb := rfl
@[simp] theorem State.setTenant_pkg (s : State) (t : BitVec 6) (f : Tenant → Tenant) : (s.setTenant t f).pkg = s.pkg := rfl
@[simp] theorem State.setTenant_domain (s : State) (t : BitVec 6) (f : Tenant → Tenant) : (s.setTenant t f).domain = s.domain := rfl
@[simp] theorem State.setTenant_links (s : State) (t : BitVec 6) (f : Tenant → Tenant) : (s.setTenant t f).links = s.links := rfl
@[simp] theorem State.setTenant_downLinks (s : State) (t : BitVec 6) (f : Tenant → Tenant) : (s.setTenant t f).downLinks = s.downLinks := rfl
@[simp] theorem State.setTenant_peerPages (s : State) (t : BitVec 6) (f : Tenant → Tenant) : (s.setTenant t f).peerPages = s.peerPages := rfl
@[simp] theorem State.setTenant_seqs (s : State) (t : BitVec 6) (f : Tenant → Tenant) : (s.setTenant t f).seqs = s.seqs := rfl
@[simp] theorem State.setTenant_packets (s : State) (t : BitVec 6) (f : Tenant → Tenant) : (s.setTenant t f).packets = s.packets := rfl
@[simp] theorem State.setTenant_switches (s : State) (t : BitVec 6) (f : Tenant → Tenant) : (s.setTenant t f).switches = s.switches := rfl
@[simp] theorem State.setTenant_swAllocs (s : State) (t : BitVec 6) (f : Tenant → Tenant) : (s.setTenant t f).swAllocs = s.swAllocs := rfl
@[simp] theorem State.setTenant_quotas (s : State) (t : BitVec 6) (f : Tenant → Tenant) : (s.setTenant t f).quotas = s.quotas := rfl
@[simp] theorem State.setTenant_groups (s : State) (t : BitVec 6) (f : Tenant → Tenant) : (s.setTenant t f).groups = s.groups := rfl
@[simp] theorem State.setTenant_rounds (s : State) (t : BitVec 6) (f : Tenant → Tenant) : (s.setTenant t f).rounds = s.rounds := rfl
@[simp] theorem State.setTenant_contribs (s : State) (t : BitVec 6) (f : Tenant → Tenant) : (s.setTenant t f).contribs = s.contribs := rfl
@[simp] theorem State.setTenant_deliveries (s : State) (t : BitVec 6) (f : Tenant → Tenant) : (s.setTenant t f).deliveries = s.deliveries := rfl
@[simp] theorem State.setTenant_residues (s : State) (t : BitVec 6) (f : Tenant → Tenant) : (s.setTenant t f).residues = s.residues := rfl
@[simp] theorem State.setTenant_requests (s : State) (t : BitVec 6) (f : Tenant → Tenant) : (s.setTenant t f).requests = s.requests := rfl
@[simp] theorem State.setTenant_arrivals (s : State) (t : BitVec 6) (f : Tenant → Tenant) : (s.setTenant t f).arrivals = s.arrivals := rfl
@[simp] theorem State.setTenant_tenants (s : State) (t : BitVec 6) (f : Tenant → Tenant) : (s.setTenant t f).tenants = s.tenants.setIfInBounds t.toNat (f (s.tenant t)) := rfl
@[simp] theorem State.setTenant_admissions (s : State) (t : BitVec 6) (f : Tenant → Tenant) : (s.setTenant t f).admissions = s.admissions := rfl
@[simp] theorem State.setTenant_predSignals (s : State) (t : BitVec 6) (f : Tenant → Tenant) : (s.setTenant t f).predSignals = s.predSignals := rfl
@[simp] theorem State.setTenant_tokens (s : State) (t : BitVec 6) (f : Tenant → Tenant) : (s.setTenant t f).tokens = s.tokens := rfl
@[simp] theorem State.setTenant_hold (s : State) (t : BitVec 6) (f : Tenant → Tenant) : (s.setTenant t f).hold = s.hold := rfl
@[simp] theorem State.setTenant_nextNode (s : State) (t : BitVec 6) (f : Tenant → Tenant) : (s.setTenant t f).nextNode = s.nextNode := rfl
@[simp] theorem State.setTenant_nextId (s : State) (t : BitVec 6) (f : Tenant → Tenant) : (s.setTenant t f).nextId = s.nextId := rfl
@[simp] theorem State.setTenant_rrTenant (s : State) (t : BitVec 6) (f : Tenant → Tenant) : (s.setTenant t f).rrTenant = s.rrTenant := rfl
@[simp] theorem State.setTenant_parkedCmds (s : State) (t : BitVec 6) (f : Tenant → Tenant) : (s.setTenant t f).parkedCmds = s.parkedCmds := rfl
@[simp] theorem State.setTenant_parkedMatrix (s : State) (t : BitVec 6) (f : Tenant → Tenant) : (s.setTenant t f).parkedMatrix = s.parkedMatrix := rfl
@[simp] theorem State.setTenant_host (s : State) (t : BitVec 6) (f : Tenant → Tenant) : (s.setTenant t f).host = s.host := rfl
@[simp] theorem State.setTenant_unit (s : State) (t : BitVec 6) (f : Tenant → Tenant) : (s.setTenant t f).unit = s.unit := rfl
@[simp] theorem State.setTenant_clk (s : State) (t : BitVec 6) (f : Tenant → Tenant) : (s.setTenant t f).clk = s.clk := rfl
@[simp] theorem State.setTenant_clkFloor (s : State) (t : BitVec 6) (f : Tenant → Tenant) : (s.setTenant t f).clkFloor = s.clkFloor := rfl
@[simp] theorem State.setTenant_tick (s : State) (t : BitVec 6) (f : Tenant → Tenant) : (s.setTenant t f).tick = s.tick := rfl
@[simp] theorem State.setTenant_inFlight (s : State) (t : BitVec 6) (f : Tenant → Tenant) : (s.setTenant t f).inFlight = s.inFlight := rfl
@[simp] theorem State.setTenant_agenda (s : State) (t : BitVec 6) (f : Tenant → Tenant) : (s.setTenant t f).agenda = s.agenda := rfl

/-! ## `State.setCrew` -/

@[simp] theorem State.setCrew_g (s : State) (u : Nat) (f : Crew → Crew) : (s.setCrew u f).g = s.g := rfl
@[simp] theorem State.setCrew_gangs (s : State) (u : Nat) (f : Crew → Crew) : (s.setCrew u f).gangs = s.gangs := rfl
@[simp] theorem State.setCrew_crews (s : State) (u : Nat) (f : Crew → Crew) : (s.setCrew u f).crews = mapIf (fun c => c.uid = u) f s.crews := rfl
@[simp] theorem State.setCrew_ensembles (s : State) (u : Nat) (f : Crew → Crew) : (s.setCrew u f).ensembles = s.ensembles := rfl
@[simp] theorem State.setCrew_nodes (s : State) (u : Nat) (f : Crew → Crew) : (s.setCrew u f).nodes = s.nodes := rfl
@[simp] theorem State.setCrew_cores (s : State) (u : Nat) (f : Crew → Crew) : (s.setCrew u f).cores = s.cores := rfl
@[simp] theorem State.setCrew_dies (s : State) (u : Nat) (f : Crew → Crew) : (s.setCrew u f).dies = s.dies := rfl
@[simp] theorem State.setCrew_spad (s : State) (u : Nat) (f : Crew → Crew) : (s.setCrew u f).spad = s.spad := rfl
@[simp] theorem State.setCrew_mem (s : State) (u : Nat) (f : Crew → Crew) : (s.setCrew u f).mem = s.mem := rfl
@[simp] theorem State.setCrew_versions (s : State) (u : Nat) (f : Crew → Crew) : (s.setCrew u f).versions = s.versions := rfl
@[simp] theorem State.setCrew_zeroings (s : State) (u : Nat) (f : Crew → Crew) : (s.setCrew u f).zeroings = s.zeroings := rfl
@[simp] theorem State.setCrew_hostLines (s : State) (u : Nat) (f : Crew → Crew) : (s.setCrew u f).hostLines = s.hostLines := rfl
@[simp] theorem State.setCrew_twinHome (s : State) (u : Nat) (f : Crew → Crew) : (s.setCrew u f).twinHome = s.twinHome := rfl
@[simp] theorem State.setCrew_tags (s : State) (u : Nat) (f : Crew → Crew) : (s.setCrew u f).tags = s.tags := rfl
@[simp] theorem State.setCrew_waiters (s : State) (u : Nat) (f : Crew → Crew) : (s.setCrew u f).waiters = s.waiters := rfl
@[simp] theorem State.setCrew_locks (s : State) (u : Nat) (f : Crew → Crew) : (s.setCrew u f).locks = s.locks := rfl
@[simp] theorem State.setCrew_directory (s : State) (u : Nat) (f : Crew → Crew) : (s.setCrew u f).directory = s.directory := rfl
@[simp] theorem State.setCrew_records (s : State) (u : Nat) (f : Crew → Crew) : (s.setCrew u f).records = s.records := rfl
@[simp] theorem State.setCrew_copies (s : State) (u : Nat) (f : Crew → Crew) : (s.setCrew u f).copies = s.copies := rfl
@[simp] theorem State.setCrew_writeBacks (s : State) (u : Nat) (f : Crew → Crew) : (s.setCrew u f).writeBacks = s.writeBacks := rfl
@[simp] theorem State.setCrew_fills (s : State) (u : Nat) (f : Crew → Crew) : (s.setCrew u f).fills = s.fills := rfl
@[simp] theorem State.setCrew_releases (s : State) (u : Nat) (f : Crew → Crew) : (s.setCrew u f).releases = s.releases := rfl
@[simp] theorem State.setCrew_tlb (s : State) (u : Nat) (f : Crew → Crew) : (s.setCrew u f).tlb = s.tlb := rfl
@[simp] theorem State.setCrew_pkg (s : State) (u : Nat) (f : Crew → Crew) : (s.setCrew u f).pkg = s.pkg := rfl
@[simp] theorem State.setCrew_domain (s : State) (u : Nat) (f : Crew → Crew) : (s.setCrew u f).domain = s.domain := rfl
@[simp] theorem State.setCrew_links (s : State) (u : Nat) (f : Crew → Crew) : (s.setCrew u f).links = s.links := rfl
@[simp] theorem State.setCrew_downLinks (s : State) (u : Nat) (f : Crew → Crew) : (s.setCrew u f).downLinks = s.downLinks := rfl
@[simp] theorem State.setCrew_peerPages (s : State) (u : Nat) (f : Crew → Crew) : (s.setCrew u f).peerPages = s.peerPages := rfl
@[simp] theorem State.setCrew_seqs (s : State) (u : Nat) (f : Crew → Crew) : (s.setCrew u f).seqs = s.seqs := rfl
@[simp] theorem State.setCrew_packets (s : State) (u : Nat) (f : Crew → Crew) : (s.setCrew u f).packets = s.packets := rfl
@[simp] theorem State.setCrew_switches (s : State) (u : Nat) (f : Crew → Crew) : (s.setCrew u f).switches = s.switches := rfl
@[simp] theorem State.setCrew_swAllocs (s : State) (u : Nat) (f : Crew → Crew) : (s.setCrew u f).swAllocs = s.swAllocs := rfl
@[simp] theorem State.setCrew_quotas (s : State) (u : Nat) (f : Crew → Crew) : (s.setCrew u f).quotas = s.quotas := rfl
@[simp] theorem State.setCrew_groups (s : State) (u : Nat) (f : Crew → Crew) : (s.setCrew u f).groups = s.groups := rfl
@[simp] theorem State.setCrew_rounds (s : State) (u : Nat) (f : Crew → Crew) : (s.setCrew u f).rounds = s.rounds := rfl
@[simp] theorem State.setCrew_contribs (s : State) (u : Nat) (f : Crew → Crew) : (s.setCrew u f).contribs = s.contribs := rfl
@[simp] theorem State.setCrew_deliveries (s : State) (u : Nat) (f : Crew → Crew) : (s.setCrew u f).deliveries = s.deliveries := rfl
@[simp] theorem State.setCrew_residues (s : State) (u : Nat) (f : Crew → Crew) : (s.setCrew u f).residues = s.residues := rfl
@[simp] theorem State.setCrew_requests (s : State) (u : Nat) (f : Crew → Crew) : (s.setCrew u f).requests = s.requests := rfl
@[simp] theorem State.setCrew_arrivals (s : State) (u : Nat) (f : Crew → Crew) : (s.setCrew u f).arrivals = s.arrivals := rfl
@[simp] theorem State.setCrew_tenants (s : State) (u : Nat) (f : Crew → Crew) : (s.setCrew u f).tenants = s.tenants := rfl
@[simp] theorem State.setCrew_admissions (s : State) (u : Nat) (f : Crew → Crew) : (s.setCrew u f).admissions = s.admissions := rfl
@[simp] theorem State.setCrew_predSignals (s : State) (u : Nat) (f : Crew → Crew) : (s.setCrew u f).predSignals = s.predSignals := rfl
@[simp] theorem State.setCrew_tokens (s : State) (u : Nat) (f : Crew → Crew) : (s.setCrew u f).tokens = s.tokens := rfl
@[simp] theorem State.setCrew_hold (s : State) (u : Nat) (f : Crew → Crew) : (s.setCrew u f).hold = s.hold := rfl
@[simp] theorem State.setCrew_nextNode (s : State) (u : Nat) (f : Crew → Crew) : (s.setCrew u f).nextNode = s.nextNode := rfl
@[simp] theorem State.setCrew_nextId (s : State) (u : Nat) (f : Crew → Crew) : (s.setCrew u f).nextId = s.nextId := rfl
@[simp] theorem State.setCrew_rrTenant (s : State) (u : Nat) (f : Crew → Crew) : (s.setCrew u f).rrTenant = s.rrTenant := rfl
@[simp] theorem State.setCrew_parkedCmds (s : State) (u : Nat) (f : Crew → Crew) : (s.setCrew u f).parkedCmds = s.parkedCmds := rfl
@[simp] theorem State.setCrew_parkedMatrix (s : State) (u : Nat) (f : Crew → Crew) : (s.setCrew u f).parkedMatrix = s.parkedMatrix := rfl
@[simp] theorem State.setCrew_host (s : State) (u : Nat) (f : Crew → Crew) : (s.setCrew u f).host = s.host := rfl
@[simp] theorem State.setCrew_unit (s : State) (u : Nat) (f : Crew → Crew) : (s.setCrew u f).unit = s.unit := rfl
@[simp] theorem State.setCrew_clk (s : State) (u : Nat) (f : Crew → Crew) : (s.setCrew u f).clk = s.clk := rfl
@[simp] theorem State.setCrew_clkFloor (s : State) (u : Nat) (f : Crew → Crew) : (s.setCrew u f).clkFloor = s.clkFloor := rfl
@[simp] theorem State.setCrew_tick (s : State) (u : Nat) (f : Crew → Crew) : (s.setCrew u f).tick = s.tick := rfl
@[simp] theorem State.setCrew_inFlight (s : State) (u : Nat) (f : Crew → Crew) : (s.setCrew u f).inFlight = s.inFlight := rfl
@[simp] theorem State.setCrew_agenda (s : State) (u : Nat) (f : Crew → Crew) : (s.setCrew u f).agenda = s.agenda := rfl

/-! ## `State.setEnsemble` -/

@[simp] theorem State.setEnsemble_g (s : State) (u : Nat) (f : Ensemble → Ensemble) : (s.setEnsemble u f).g = s.g := rfl
@[simp] theorem State.setEnsemble_gangs (s : State) (u : Nat) (f : Ensemble → Ensemble) : (s.setEnsemble u f).gangs = s.gangs := rfl
@[simp] theorem State.setEnsemble_crews (s : State) (u : Nat) (f : Ensemble → Ensemble) : (s.setEnsemble u f).crews = s.crews := rfl
@[simp] theorem State.setEnsemble_ensembles (s : State) (u : Nat) (f : Ensemble → Ensemble) : (s.setEnsemble u f).ensembles = mapIf (fun e => e.uid = u) f s.ensembles := rfl
@[simp] theorem State.setEnsemble_nodes (s : State) (u : Nat) (f : Ensemble → Ensemble) : (s.setEnsemble u f).nodes = s.nodes := rfl
@[simp] theorem State.setEnsemble_cores (s : State) (u : Nat) (f : Ensemble → Ensemble) : (s.setEnsemble u f).cores = s.cores := rfl
@[simp] theorem State.setEnsemble_dies (s : State) (u : Nat) (f : Ensemble → Ensemble) : (s.setEnsemble u f).dies = s.dies := rfl
@[simp] theorem State.setEnsemble_spad (s : State) (u : Nat) (f : Ensemble → Ensemble) : (s.setEnsemble u f).spad = s.spad := rfl
@[simp] theorem State.setEnsemble_mem (s : State) (u : Nat) (f : Ensemble → Ensemble) : (s.setEnsemble u f).mem = s.mem := rfl
@[simp] theorem State.setEnsemble_versions (s : State) (u : Nat) (f : Ensemble → Ensemble) : (s.setEnsemble u f).versions = s.versions := rfl
@[simp] theorem State.setEnsemble_zeroings (s : State) (u : Nat) (f : Ensemble → Ensemble) : (s.setEnsemble u f).zeroings = s.zeroings := rfl
@[simp] theorem State.setEnsemble_hostLines (s : State) (u : Nat) (f : Ensemble → Ensemble) : (s.setEnsemble u f).hostLines = s.hostLines := rfl
@[simp] theorem State.setEnsemble_twinHome (s : State) (u : Nat) (f : Ensemble → Ensemble) : (s.setEnsemble u f).twinHome = s.twinHome := rfl
@[simp] theorem State.setEnsemble_tags (s : State) (u : Nat) (f : Ensemble → Ensemble) : (s.setEnsemble u f).tags = s.tags := rfl
@[simp] theorem State.setEnsemble_waiters (s : State) (u : Nat) (f : Ensemble → Ensemble) : (s.setEnsemble u f).waiters = s.waiters := rfl
@[simp] theorem State.setEnsemble_locks (s : State) (u : Nat) (f : Ensemble → Ensemble) : (s.setEnsemble u f).locks = s.locks := rfl
@[simp] theorem State.setEnsemble_directory (s : State) (u : Nat) (f : Ensemble → Ensemble) : (s.setEnsemble u f).directory = s.directory := rfl
@[simp] theorem State.setEnsemble_records (s : State) (u : Nat) (f : Ensemble → Ensemble) : (s.setEnsemble u f).records = s.records := rfl
@[simp] theorem State.setEnsemble_copies (s : State) (u : Nat) (f : Ensemble → Ensemble) : (s.setEnsemble u f).copies = s.copies := rfl
@[simp] theorem State.setEnsemble_writeBacks (s : State) (u : Nat) (f : Ensemble → Ensemble) : (s.setEnsemble u f).writeBacks = s.writeBacks := rfl
@[simp] theorem State.setEnsemble_fills (s : State) (u : Nat) (f : Ensemble → Ensemble) : (s.setEnsemble u f).fills = s.fills := rfl
@[simp] theorem State.setEnsemble_releases (s : State) (u : Nat) (f : Ensemble → Ensemble) : (s.setEnsemble u f).releases = s.releases := rfl
@[simp] theorem State.setEnsemble_tlb (s : State) (u : Nat) (f : Ensemble → Ensemble) : (s.setEnsemble u f).tlb = s.tlb := rfl
@[simp] theorem State.setEnsemble_pkg (s : State) (u : Nat) (f : Ensemble → Ensemble) : (s.setEnsemble u f).pkg = s.pkg := rfl
@[simp] theorem State.setEnsemble_domain (s : State) (u : Nat) (f : Ensemble → Ensemble) : (s.setEnsemble u f).domain = s.domain := rfl
@[simp] theorem State.setEnsemble_links (s : State) (u : Nat) (f : Ensemble → Ensemble) : (s.setEnsemble u f).links = s.links := rfl
@[simp] theorem State.setEnsemble_downLinks (s : State) (u : Nat) (f : Ensemble → Ensemble) : (s.setEnsemble u f).downLinks = s.downLinks := rfl
@[simp] theorem State.setEnsemble_peerPages (s : State) (u : Nat) (f : Ensemble → Ensemble) : (s.setEnsemble u f).peerPages = s.peerPages := rfl
@[simp] theorem State.setEnsemble_seqs (s : State) (u : Nat) (f : Ensemble → Ensemble) : (s.setEnsemble u f).seqs = s.seqs := rfl
@[simp] theorem State.setEnsemble_packets (s : State) (u : Nat) (f : Ensemble → Ensemble) : (s.setEnsemble u f).packets = s.packets := rfl
@[simp] theorem State.setEnsemble_switches (s : State) (u : Nat) (f : Ensemble → Ensemble) : (s.setEnsemble u f).switches = s.switches := rfl
@[simp] theorem State.setEnsemble_swAllocs (s : State) (u : Nat) (f : Ensemble → Ensemble) : (s.setEnsemble u f).swAllocs = s.swAllocs := rfl
@[simp] theorem State.setEnsemble_quotas (s : State) (u : Nat) (f : Ensemble → Ensemble) : (s.setEnsemble u f).quotas = s.quotas := rfl
@[simp] theorem State.setEnsemble_groups (s : State) (u : Nat) (f : Ensemble → Ensemble) : (s.setEnsemble u f).groups = s.groups := rfl
@[simp] theorem State.setEnsemble_rounds (s : State) (u : Nat) (f : Ensemble → Ensemble) : (s.setEnsemble u f).rounds = s.rounds := rfl
@[simp] theorem State.setEnsemble_contribs (s : State) (u : Nat) (f : Ensemble → Ensemble) : (s.setEnsemble u f).contribs = s.contribs := rfl
@[simp] theorem State.setEnsemble_deliveries (s : State) (u : Nat) (f : Ensemble → Ensemble) : (s.setEnsemble u f).deliveries = s.deliveries := rfl
@[simp] theorem State.setEnsemble_residues (s : State) (u : Nat) (f : Ensemble → Ensemble) : (s.setEnsemble u f).residues = s.residues := rfl
@[simp] theorem State.setEnsemble_requests (s : State) (u : Nat) (f : Ensemble → Ensemble) : (s.setEnsemble u f).requests = s.requests := rfl
@[simp] theorem State.setEnsemble_arrivals (s : State) (u : Nat) (f : Ensemble → Ensemble) : (s.setEnsemble u f).arrivals = s.arrivals := rfl
@[simp] theorem State.setEnsemble_tenants (s : State) (u : Nat) (f : Ensemble → Ensemble) : (s.setEnsemble u f).tenants = s.tenants := rfl
@[simp] theorem State.setEnsemble_admissions (s : State) (u : Nat) (f : Ensemble → Ensemble) : (s.setEnsemble u f).admissions = s.admissions := rfl
@[simp] theorem State.setEnsemble_predSignals (s : State) (u : Nat) (f : Ensemble → Ensemble) : (s.setEnsemble u f).predSignals = s.predSignals := rfl
@[simp] theorem State.setEnsemble_tokens (s : State) (u : Nat) (f : Ensemble → Ensemble) : (s.setEnsemble u f).tokens = s.tokens := rfl
@[simp] theorem State.setEnsemble_hold (s : State) (u : Nat) (f : Ensemble → Ensemble) : (s.setEnsemble u f).hold = s.hold := rfl
@[simp] theorem State.setEnsemble_nextNode (s : State) (u : Nat) (f : Ensemble → Ensemble) : (s.setEnsemble u f).nextNode = s.nextNode := rfl
@[simp] theorem State.setEnsemble_nextId (s : State) (u : Nat) (f : Ensemble → Ensemble) : (s.setEnsemble u f).nextId = s.nextId := rfl
@[simp] theorem State.setEnsemble_rrTenant (s : State) (u : Nat) (f : Ensemble → Ensemble) : (s.setEnsemble u f).rrTenant = s.rrTenant := rfl
@[simp] theorem State.setEnsemble_parkedCmds (s : State) (u : Nat) (f : Ensemble → Ensemble) : (s.setEnsemble u f).parkedCmds = s.parkedCmds := rfl
@[simp] theorem State.setEnsemble_parkedMatrix (s : State) (u : Nat) (f : Ensemble → Ensemble) : (s.setEnsemble u f).parkedMatrix = s.parkedMatrix := rfl
@[simp] theorem State.setEnsemble_host (s : State) (u : Nat) (f : Ensemble → Ensemble) : (s.setEnsemble u f).host = s.host := rfl
@[simp] theorem State.setEnsemble_unit (s : State) (u : Nat) (f : Ensemble → Ensemble) : (s.setEnsemble u f).unit = s.unit := rfl
@[simp] theorem State.setEnsemble_clk (s : State) (u : Nat) (f : Ensemble → Ensemble) : (s.setEnsemble u f).clk = s.clk := rfl
@[simp] theorem State.setEnsemble_clkFloor (s : State) (u : Nat) (f : Ensemble → Ensemble) : (s.setEnsemble u f).clkFloor = s.clkFloor := rfl
@[simp] theorem State.setEnsemble_tick (s : State) (u : Nat) (f : Ensemble → Ensemble) : (s.setEnsemble u f).tick = s.tick := rfl
@[simp] theorem State.setEnsemble_inFlight (s : State) (u : Nat) (f : Ensemble → Ensemble) : (s.setEnsemble u f).inFlight = s.inFlight := rfl
@[simp] theorem State.setEnsemble_agenda (s : State) (u : Nat) (f : Ensemble → Ensemble) : (s.setEnsemble u f).agenda = s.agenda := rfl

/-! ## `State.setNode` -/

@[simp] theorem State.setNode_g (s : State) (id : Word) (f : Node → Node) : (s.setNode id f).g = s.g := rfl
@[simp] theorem State.setNode_gangs (s : State) (id : Word) (f : Node → Node) : (s.setNode id f).gangs = s.gangs := rfl
@[simp] theorem State.setNode_crews (s : State) (id : Word) (f : Node → Node) : (s.setNode id f).crews = s.crews := rfl
@[simp] theorem State.setNode_ensembles (s : State) (id : Word) (f : Node → Node) : (s.setNode id f).ensembles = s.ensembles := rfl
@[simp] theorem State.setNode_nodes (s : State) (id : Word) (f : Node → Node) : (s.setNode id f).nodes = mapIf (fun n => n.id = id) f s.nodes := rfl
@[simp] theorem State.setNode_cores (s : State) (id : Word) (f : Node → Node) : (s.setNode id f).cores = s.cores := rfl
@[simp] theorem State.setNode_dies (s : State) (id : Word) (f : Node → Node) : (s.setNode id f).dies = s.dies := rfl
@[simp] theorem State.setNode_spad (s : State) (id : Word) (f : Node → Node) : (s.setNode id f).spad = s.spad := rfl
@[simp] theorem State.setNode_mem (s : State) (id : Word) (f : Node → Node) : (s.setNode id f).mem = s.mem := rfl
@[simp] theorem State.setNode_versions (s : State) (id : Word) (f : Node → Node) : (s.setNode id f).versions = s.versions := rfl
@[simp] theorem State.setNode_zeroings (s : State) (id : Word) (f : Node → Node) : (s.setNode id f).zeroings = s.zeroings := rfl
@[simp] theorem State.setNode_hostLines (s : State) (id : Word) (f : Node → Node) : (s.setNode id f).hostLines = s.hostLines := rfl
@[simp] theorem State.setNode_twinHome (s : State) (id : Word) (f : Node → Node) : (s.setNode id f).twinHome = s.twinHome := rfl
@[simp] theorem State.setNode_tags (s : State) (id : Word) (f : Node → Node) : (s.setNode id f).tags = s.tags := rfl
@[simp] theorem State.setNode_waiters (s : State) (id : Word) (f : Node → Node) : (s.setNode id f).waiters = s.waiters := rfl
@[simp] theorem State.setNode_locks (s : State) (id : Word) (f : Node → Node) : (s.setNode id f).locks = s.locks := rfl
@[simp] theorem State.setNode_directory (s : State) (id : Word) (f : Node → Node) : (s.setNode id f).directory = s.directory := rfl
@[simp] theorem State.setNode_records (s : State) (id : Word) (f : Node → Node) : (s.setNode id f).records = s.records := rfl
@[simp] theorem State.setNode_copies (s : State) (id : Word) (f : Node → Node) : (s.setNode id f).copies = s.copies := rfl
@[simp] theorem State.setNode_writeBacks (s : State) (id : Word) (f : Node → Node) : (s.setNode id f).writeBacks = s.writeBacks := rfl
@[simp] theorem State.setNode_fills (s : State) (id : Word) (f : Node → Node) : (s.setNode id f).fills = s.fills := rfl
@[simp] theorem State.setNode_releases (s : State) (id : Word) (f : Node → Node) : (s.setNode id f).releases = s.releases := rfl
@[simp] theorem State.setNode_tlb (s : State) (id : Word) (f : Node → Node) : (s.setNode id f).tlb = s.tlb := rfl
@[simp] theorem State.setNode_pkg (s : State) (id : Word) (f : Node → Node) : (s.setNode id f).pkg = s.pkg := rfl
@[simp] theorem State.setNode_domain (s : State) (id : Word) (f : Node → Node) : (s.setNode id f).domain = s.domain := rfl
@[simp] theorem State.setNode_links (s : State) (id : Word) (f : Node → Node) : (s.setNode id f).links = s.links := rfl
@[simp] theorem State.setNode_downLinks (s : State) (id : Word) (f : Node → Node) : (s.setNode id f).downLinks = s.downLinks := rfl
@[simp] theorem State.setNode_peerPages (s : State) (id : Word) (f : Node → Node) : (s.setNode id f).peerPages = s.peerPages := rfl
@[simp] theorem State.setNode_seqs (s : State) (id : Word) (f : Node → Node) : (s.setNode id f).seqs = s.seqs := rfl
@[simp] theorem State.setNode_packets (s : State) (id : Word) (f : Node → Node) : (s.setNode id f).packets = s.packets := rfl
@[simp] theorem State.setNode_switches (s : State) (id : Word) (f : Node → Node) : (s.setNode id f).switches = s.switches := rfl
@[simp] theorem State.setNode_swAllocs (s : State) (id : Word) (f : Node → Node) : (s.setNode id f).swAllocs = s.swAllocs := rfl
@[simp] theorem State.setNode_quotas (s : State) (id : Word) (f : Node → Node) : (s.setNode id f).quotas = s.quotas := rfl
@[simp] theorem State.setNode_groups (s : State) (id : Word) (f : Node → Node) : (s.setNode id f).groups = s.groups := rfl
@[simp] theorem State.setNode_rounds (s : State) (id : Word) (f : Node → Node) : (s.setNode id f).rounds = s.rounds := rfl
@[simp] theorem State.setNode_contribs (s : State) (id : Word) (f : Node → Node) : (s.setNode id f).contribs = s.contribs := rfl
@[simp] theorem State.setNode_deliveries (s : State) (id : Word) (f : Node → Node) : (s.setNode id f).deliveries = s.deliveries := rfl
@[simp] theorem State.setNode_residues (s : State) (id : Word) (f : Node → Node) : (s.setNode id f).residues = s.residues := rfl
@[simp] theorem State.setNode_requests (s : State) (id : Word) (f : Node → Node) : (s.setNode id f).requests = s.requests := rfl
@[simp] theorem State.setNode_arrivals (s : State) (id : Word) (f : Node → Node) : (s.setNode id f).arrivals = s.arrivals := rfl
@[simp] theorem State.setNode_tenants (s : State) (id : Word) (f : Node → Node) : (s.setNode id f).tenants = s.tenants := rfl
@[simp] theorem State.setNode_admissions (s : State) (id : Word) (f : Node → Node) : (s.setNode id f).admissions = s.admissions := rfl
@[simp] theorem State.setNode_predSignals (s : State) (id : Word) (f : Node → Node) : (s.setNode id f).predSignals = s.predSignals := rfl
@[simp] theorem State.setNode_tokens (s : State) (id : Word) (f : Node → Node) : (s.setNode id f).tokens = s.tokens := rfl
@[simp] theorem State.setNode_hold (s : State) (id : Word) (f : Node → Node) : (s.setNode id f).hold = s.hold := rfl
@[simp] theorem State.setNode_nextNode (s : State) (id : Word) (f : Node → Node) : (s.setNode id f).nextNode = s.nextNode := rfl
@[simp] theorem State.setNode_nextId (s : State) (id : Word) (f : Node → Node) : (s.setNode id f).nextId = s.nextId := rfl
@[simp] theorem State.setNode_rrTenant (s : State) (id : Word) (f : Node → Node) : (s.setNode id f).rrTenant = s.rrTenant := rfl
@[simp] theorem State.setNode_parkedCmds (s : State) (id : Word) (f : Node → Node) : (s.setNode id f).parkedCmds = s.parkedCmds := rfl
@[simp] theorem State.setNode_parkedMatrix (s : State) (id : Word) (f : Node → Node) : (s.setNode id f).parkedMatrix = s.parkedMatrix := rfl
@[simp] theorem State.setNode_host (s : State) (id : Word) (f : Node → Node) : (s.setNode id f).host = s.host := rfl
@[simp] theorem State.setNode_unit (s : State) (id : Word) (f : Node → Node) : (s.setNode id f).unit = s.unit := rfl
@[simp] theorem State.setNode_clk (s : State) (id : Word) (f : Node → Node) : (s.setNode id f).clk = s.clk := rfl
@[simp] theorem State.setNode_clkFloor (s : State) (id : Word) (f : Node → Node) : (s.setNode id f).clkFloor = s.clkFloor := rfl
@[simp] theorem State.setNode_tick (s : State) (id : Word) (f : Node → Node) : (s.setNode id f).tick = s.tick := rfl
@[simp] theorem State.setNode_inFlight (s : State) (id : Word) (f : Node → Node) : (s.setNode id f).inFlight = s.inFlight := rfl
@[simp] theorem State.setNode_agenda (s : State) (id : Word) (f : Node → Node) : (s.setNode id f).agenda = s.agenda := rfl

/-! ## `State.mapGangs` -/

@[simp] theorem State.mapGangs_g (s : State) (f : Gang → Gang) : (s.mapGangs f).g = f s.g := rfl
@[simp] theorem State.mapGangs_gangs (s : State) (f : Gang → Gang) : (s.mapGangs f).gangs = s.gangs.map f := rfl
@[simp] theorem State.mapGangs_crews (s : State) (f : Gang → Gang) : (s.mapGangs f).crews = s.crews := rfl
@[simp] theorem State.mapGangs_ensembles (s : State) (f : Gang → Gang) : (s.mapGangs f).ensembles = s.ensembles := rfl
@[simp] theorem State.mapGangs_nodes (s : State) (f : Gang → Gang) : (s.mapGangs f).nodes = s.nodes := rfl
@[simp] theorem State.mapGangs_cores (s : State) (f : Gang → Gang) : (s.mapGangs f).cores = s.cores := rfl
@[simp] theorem State.mapGangs_dies (s : State) (f : Gang → Gang) : (s.mapGangs f).dies = s.dies := rfl
@[simp] theorem State.mapGangs_spad (s : State) (f : Gang → Gang) : (s.mapGangs f).spad = s.spad := rfl
@[simp] theorem State.mapGangs_mem (s : State) (f : Gang → Gang) : (s.mapGangs f).mem = s.mem := rfl
@[simp] theorem State.mapGangs_versions (s : State) (f : Gang → Gang) : (s.mapGangs f).versions = s.versions := rfl
@[simp] theorem State.mapGangs_zeroings (s : State) (f : Gang → Gang) : (s.mapGangs f).zeroings = s.zeroings := rfl
@[simp] theorem State.mapGangs_hostLines (s : State) (f : Gang → Gang) : (s.mapGangs f).hostLines = s.hostLines := rfl
@[simp] theorem State.mapGangs_twinHome (s : State) (f : Gang → Gang) : (s.mapGangs f).twinHome = s.twinHome := rfl
@[simp] theorem State.mapGangs_tags (s : State) (f : Gang → Gang) : (s.mapGangs f).tags = s.tags := rfl
@[simp] theorem State.mapGangs_waiters (s : State) (f : Gang → Gang) : (s.mapGangs f).waiters = s.waiters := rfl
@[simp] theorem State.mapGangs_locks (s : State) (f : Gang → Gang) : (s.mapGangs f).locks = s.locks := rfl
@[simp] theorem State.mapGangs_directory (s : State) (f : Gang → Gang) : (s.mapGangs f).directory = s.directory := rfl
@[simp] theorem State.mapGangs_records (s : State) (f : Gang → Gang) : (s.mapGangs f).records = s.records := rfl
@[simp] theorem State.mapGangs_copies (s : State) (f : Gang → Gang) : (s.mapGangs f).copies = s.copies := rfl
@[simp] theorem State.mapGangs_writeBacks (s : State) (f : Gang → Gang) : (s.mapGangs f).writeBacks = s.writeBacks := rfl
@[simp] theorem State.mapGangs_fills (s : State) (f : Gang → Gang) : (s.mapGangs f).fills = s.fills := rfl
@[simp] theorem State.mapGangs_releases (s : State) (f : Gang → Gang) : (s.mapGangs f).releases = s.releases := rfl
@[simp] theorem State.mapGangs_tlb (s : State) (f : Gang → Gang) : (s.mapGangs f).tlb = s.tlb := rfl
@[simp] theorem State.mapGangs_pkg (s : State) (f : Gang → Gang) : (s.mapGangs f).pkg = s.pkg := rfl
@[simp] theorem State.mapGangs_domain (s : State) (f : Gang → Gang) : (s.mapGangs f).domain = s.domain := rfl
@[simp] theorem State.mapGangs_links (s : State) (f : Gang → Gang) : (s.mapGangs f).links = s.links := rfl
@[simp] theorem State.mapGangs_downLinks (s : State) (f : Gang → Gang) : (s.mapGangs f).downLinks = s.downLinks := rfl
@[simp] theorem State.mapGangs_peerPages (s : State) (f : Gang → Gang) : (s.mapGangs f).peerPages = s.peerPages := rfl
@[simp] theorem State.mapGangs_seqs (s : State) (f : Gang → Gang) : (s.mapGangs f).seqs = s.seqs := rfl
@[simp] theorem State.mapGangs_packets (s : State) (f : Gang → Gang) : (s.mapGangs f).packets = s.packets := rfl
@[simp] theorem State.mapGangs_switches (s : State) (f : Gang → Gang) : (s.mapGangs f).switches = s.switches := rfl
@[simp] theorem State.mapGangs_swAllocs (s : State) (f : Gang → Gang) : (s.mapGangs f).swAllocs = s.swAllocs := rfl
@[simp] theorem State.mapGangs_quotas (s : State) (f : Gang → Gang) : (s.mapGangs f).quotas = s.quotas := rfl
@[simp] theorem State.mapGangs_groups (s : State) (f : Gang → Gang) : (s.mapGangs f).groups = s.groups := rfl
@[simp] theorem State.mapGangs_rounds (s : State) (f : Gang → Gang) : (s.mapGangs f).rounds = s.rounds := rfl
@[simp] theorem State.mapGangs_contribs (s : State) (f : Gang → Gang) : (s.mapGangs f).contribs = s.contribs := rfl
@[simp] theorem State.mapGangs_deliveries (s : State) (f : Gang → Gang) : (s.mapGangs f).deliveries = s.deliveries := rfl
@[simp] theorem State.mapGangs_residues (s : State) (f : Gang → Gang) : (s.mapGangs f).residues = s.residues := rfl
@[simp] theorem State.mapGangs_requests (s : State) (f : Gang → Gang) : (s.mapGangs f).requests = s.requests := rfl
@[simp] theorem State.mapGangs_arrivals (s : State) (f : Gang → Gang) : (s.mapGangs f).arrivals = s.arrivals := rfl
@[simp] theorem State.mapGangs_tenants (s : State) (f : Gang → Gang) : (s.mapGangs f).tenants = s.tenants := rfl
@[simp] theorem State.mapGangs_admissions (s : State) (f : Gang → Gang) : (s.mapGangs f).admissions = s.admissions := rfl
@[simp] theorem State.mapGangs_predSignals (s : State) (f : Gang → Gang) : (s.mapGangs f).predSignals = s.predSignals := rfl
@[simp] theorem State.mapGangs_tokens (s : State) (f : Gang → Gang) : (s.mapGangs f).tokens = s.tokens := rfl
@[simp] theorem State.mapGangs_hold (s : State) (f : Gang → Gang) : (s.mapGangs f).hold = s.hold := rfl
@[simp] theorem State.mapGangs_nextNode (s : State) (f : Gang → Gang) : (s.mapGangs f).nextNode = s.nextNode := rfl
@[simp] theorem State.mapGangs_nextId (s : State) (f : Gang → Gang) : (s.mapGangs f).nextId = s.nextId := rfl
@[simp] theorem State.mapGangs_rrTenant (s : State) (f : Gang → Gang) : (s.mapGangs f).rrTenant = s.rrTenant := rfl
@[simp] theorem State.mapGangs_parkedCmds (s : State) (f : Gang → Gang) : (s.mapGangs f).parkedCmds = s.parkedCmds := rfl
@[simp] theorem State.mapGangs_parkedMatrix (s : State) (f : Gang → Gang) : (s.mapGangs f).parkedMatrix = s.parkedMatrix := rfl
@[simp] theorem State.mapGangs_host (s : State) (f : Gang → Gang) : (s.mapGangs f).host = s.host := rfl
@[simp] theorem State.mapGangs_unit (s : State) (f : Gang → Gang) : (s.mapGangs f).unit = s.unit := rfl
@[simp] theorem State.mapGangs_clk (s : State) (f : Gang → Gang) : (s.mapGangs f).clk = s.clk := rfl
@[simp] theorem State.mapGangs_clkFloor (s : State) (f : Gang → Gang) : (s.mapGangs f).clkFloor = s.clkFloor := rfl
@[simp] theorem State.mapGangs_tick (s : State) (f : Gang → Gang) : (s.mapGangs f).tick = s.tick := rfl
@[simp] theorem State.mapGangs_inFlight (s : State) (f : Gang → Gang) : (s.mapGangs f).inFlight = s.inFlight := rfl
@[simp] theorem State.mapGangs_agenda (s : State) (f : Gang → Gang) : (s.mapGangs f).agenda = s.agenda := rfl

/-! ## Registers -/

@[simp] theorem Regs.setV_s (r : Regs) (n : Nat) (x : Lanes Word) : (r.setV n x).s = r.s := rfl
@[simp] theorem Regs.setV_p (r : Regs) (n : Nat) (x : Lanes Word) : (r.setV n x).p = r.p := rfl
@[simp] theorem Regs.setV_emask (r : Regs) (n : Nat) (x : Lanes Word) : (r.setV n x).emask = r.emask := rfl
@[simp] theorem Regs.setV_blk (r : Regs) (n : Nat) (x : Lanes Word) : (r.setV n x).blk = r.blk := rfl
@[simp] theorem Regs.setV_xstat (r : Regs) (n : Nat) (x : Lanes Word) : (r.setV n x).xstat = r.xstat := rfl
@[simp] theorem Regs.setV_srnd (r : Regs) (n : Nat) (x : Lanes Word) : (r.setV n x).srnd = r.srnd := rfl
@[simp] theorem Regs.setV_tslot (r : Regs) (n : Nat) (x : Lanes Word) : (r.setV n x).tslot = r.tslot := rfl
@[simp] theorem Regs.setV_tcause (r : Regs) (n : Nat) (x : Lanes Word) : (r.setV n x).tcause = r.tcause := rfl
@[simp] theorem Regs.setV_tdet0 (r : Regs) (n : Nat) (x : Lanes Word) : (r.setV n x).tdet0 = r.tdet0 := rfl
@[simp] theorem Regs.setV_tdet1 (r : Regs) (n : Nat) (x : Lanes Word) : (r.setV n x).tdet1 = r.tdet1 := rfl
@[simp] theorem Regs.setV_tdet2 (r : Regs) (n : Nat) (x : Lanes Word) : (r.setV n x).tdet2 = r.tdet2 := rfl
@[simp] theorem Regs.setV_tpc (r : Regs) (n : Nat) (x : Lanes Word) : (r.setV n x).tpc = r.tpc := rfl
@[simp] theorem Regs.setV_tlanes (r : Regs) (n : Nat) (x : Lanes Word) : (r.setV n x).tlanes = r.tlanes := rfl
@[simp] theorem Regs.setV_tslots (r : Regs) (n : Nat) (x : Lanes Word) : (r.setV n x).tslots = r.tslots := rfl
@[simp] theorem Regs.setV_dstack (r : Regs) (n : Nat) (x : Lanes Word) : (r.setV n x).dstack = r.dstack := rfl
@[simp] theorem Regs.setS_v (r : Regs) (n : Nat) (x : Dword) : (r.setS n x).v = r.v := by unfold Regs.setS; split <;> rfl
@[simp] theorem Regs.setS_p (r : Regs) (n : Nat) (x : Dword) : (r.setS n x).p = r.p := by unfold Regs.setS; split <;> rfl
@[simp] theorem Regs.setS_emask (r : Regs) (n : Nat) (x : Dword) : (r.setS n x).emask = r.emask := by unfold Regs.setS; split <;> rfl
@[simp] theorem Regs.setS_blk (r : Regs) (n : Nat) (x : Dword) : (r.setS n x).blk = r.blk := by unfold Regs.setS; split <;> rfl
@[simp] theorem Regs.setS_xstat (r : Regs) (n : Nat) (x : Dword) : (r.setS n x).xstat = r.xstat := by unfold Regs.setS; split <;> rfl
@[simp] theorem Regs.setS_srnd (r : Regs) (n : Nat) (x : Dword) : (r.setS n x).srnd = r.srnd := by unfold Regs.setS; split <;> rfl
@[simp] theorem Regs.setS_tslot (r : Regs) (n : Nat) (x : Dword) : (r.setS n x).tslot = r.tslot := by unfold Regs.setS; split <;> rfl
@[simp] theorem Regs.setS_tcause (r : Regs) (n : Nat) (x : Dword) : (r.setS n x).tcause = r.tcause := by unfold Regs.setS; split <;> rfl
@[simp] theorem Regs.setS_tdet0 (r : Regs) (n : Nat) (x : Dword) : (r.setS n x).tdet0 = r.tdet0 := by unfold Regs.setS; split <;> rfl
@[simp] theorem Regs.setS_tdet1 (r : Regs) (n : Nat) (x : Dword) : (r.setS n x).tdet1 = r.tdet1 := by unfold Regs.setS; split <;> rfl
@[simp] theorem Regs.setS_tdet2 (r : Regs) (n : Nat) (x : Dword) : (r.setS n x).tdet2 = r.tdet2 := by unfold Regs.setS; split <;> rfl
@[simp] theorem Regs.setS_tpc (r : Regs) (n : Nat) (x : Dword) : (r.setS n x).tpc = r.tpc := by unfold Regs.setS; split <;> rfl
@[simp] theorem Regs.setS_tlanes (r : Regs) (n : Nat) (x : Dword) : (r.setS n x).tlanes = r.tlanes := by unfold Regs.setS; split <;> rfl
@[simp] theorem Regs.setS_tslots (r : Regs) (n : Nat) (x : Dword) : (r.setS n x).tslots = r.tslots := by unfold Regs.setS; split <;> rfl
@[simp] theorem Regs.setS_dstack (r : Regs) (n : Nat) (x : Dword) : (r.setS n x).dstack = r.dstack := by unfold Regs.setS; split <;> rfl
@[simp] theorem Regs.setP_v (r : Regs) (n : Nat) (x : Word) : (r.setP n x).v = r.v := by unfold Regs.setP; split <;> rfl
@[simp] theorem Regs.setP_s (r : Regs) (n : Nat) (x : Word) : (r.setP n x).s = r.s := by unfold Regs.setP; split <;> rfl
@[simp] theorem Regs.setP_emask (r : Regs) (n : Nat) (x : Word) : (r.setP n x).emask = r.emask := by unfold Regs.setP; split <;> rfl
@[simp] theorem Regs.setP_blk (r : Regs) (n : Nat) (x : Word) : (r.setP n x).blk = r.blk := by unfold Regs.setP; split <;> rfl
@[simp] theorem Regs.setP_xstat (r : Regs) (n : Nat) (x : Word) : (r.setP n x).xstat = r.xstat := by unfold Regs.setP; split <;> rfl
@[simp] theorem Regs.setP_srnd (r : Regs) (n : Nat) (x : Word) : (r.setP n x).srnd = r.srnd := by unfold Regs.setP; split <;> rfl
@[simp] theorem Regs.setP_tslot (r : Regs) (n : Nat) (x : Word) : (r.setP n x).tslot = r.tslot := by unfold Regs.setP; split <;> rfl
@[simp] theorem Regs.setP_tcause (r : Regs) (n : Nat) (x : Word) : (r.setP n x).tcause = r.tcause := by unfold Regs.setP; split <;> rfl
@[simp] theorem Regs.setP_tdet0 (r : Regs) (n : Nat) (x : Word) : (r.setP n x).tdet0 = r.tdet0 := by unfold Regs.setP; split <;> rfl
@[simp] theorem Regs.setP_tdet1 (r : Regs) (n : Nat) (x : Word) : (r.setP n x).tdet1 = r.tdet1 := by unfold Regs.setP; split <;> rfl
@[simp] theorem Regs.setP_tdet2 (r : Regs) (n : Nat) (x : Word) : (r.setP n x).tdet2 = r.tdet2 := by unfold Regs.setP; split <;> rfl
@[simp] theorem Regs.setP_tpc (r : Regs) (n : Nat) (x : Word) : (r.setP n x).tpc = r.tpc := by unfold Regs.setP; split <;> rfl
@[simp] theorem Regs.setP_tlanes (r : Regs) (n : Nat) (x : Word) : (r.setP n x).tlanes = r.tlanes := by unfold Regs.setP; split <;> rfl
@[simp] theorem Regs.setP_tslots (r : Regs) (n : Nat) (x : Word) : (r.setP n x).tslots = r.tslots := by unfold Regs.setP; split <;> rfl
@[simp] theorem Regs.setP_dstack (r : Regs) (n : Nat) (x : Word) : (r.setP n x).dstack = r.dstack := by unfold Regs.setP; split <;> rfl

/-! ## `Gang.setEntry`: the operand log of the mode changes, nothing else -/

@[simp] theorem Gang.setEntry_uid (g : Gang) (e : Nat) (x : LogEntry) : (g.setEntry e x).uid = g.uid := by unfold Gang.setEntry Gang.setLog; split <;> rfl
@[simp] theorem Gang.setEntry_status (g : Gang) (e : Nat) (x : LogEntry) : (g.setEntry e x).status = g.status := by unfold Gang.setEntry Gang.setLog; split <;> rfl
@[simp] theorem Gang.setEntry_crew (g : Gang) (e : Nat) (x : LogEntry) : (g.setEntry e x).crew = g.crew := by unfold Gang.setEntry Gang.setLog; split <;> rfl
@[simp] theorem Gang.setEntry_node (g : Gang) (e : Nat) (x : LogEntry) : (g.setEntry e x).node = g.node := by unfold Gang.setEntry Gang.setLog; split <;> rfl
@[simp] theorem Gang.setEntry_ens (g : Gang) (e : Nat) (x : LogEntry) : (g.setEntry e x).ens = g.ens := by unfold Gang.setEntry Gang.setLog; split <;> rfl
@[simp] theorem Gang.setEntry_crewNo (g : Gang) (e : Nat) (x : LogEntry) : (g.setEntry e x).crewNo = g.crewNo := by unfold Gang.setEntry Gang.setLog; split <;> rfl
@[simp] theorem Gang.setEntry_gangNo (g : Gang) (e : Nat) (x : LogEntry) : (g.setEntry e x).gangNo = g.gangNo := by unfold Gang.setEntry Gang.setLog; split <;> rfl
@[simp] theorem Gang.setEntry_stage (g : Gang) (e : Nat) (x : LogEntry) : (g.setEntry e x).stage = g.stage := by unfold Gang.setEntry Gang.setLog; split <;> rfl
@[simp] theorem Gang.setEntry_die (g : Gang) (e : Nat) (x : LogEntry) : (g.setEntry e x).die = g.die := by unfold Gang.setEntry Gang.setLog; split <;> rfl
@[simp] theorem Gang.setEntry_core (g : Gang) (e : Nat) (x : LogEntry) : (g.setEntry e x).core = g.core := by unfold Gang.setEntry Gang.setLog; split <;> rfl
@[simp] theorem Gang.setEntry_role (g : Gang) (e : Nat) (x : LogEntry) : (g.setEntry e x).role = g.role := by unfold Gang.setEntry Gang.setLog; split <;> rfl
@[simp] theorem Gang.setEntry_tenant (g : Gang) (e : Nat) (x : LogEntry) : (g.setEntry e x).tenant = g.tenant := by unfold Gang.setEntry Gang.setLog; split <;> rfl
@[simp] theorem Gang.setEntry_nV (g : Gang) (e : Nat) (x : LogEntry) : (g.setEntry e x).nV = g.nV := by unfold Gang.setEntry Gang.setLog; split <;> rfl
@[simp] theorem Gang.setEntry_blockMode (g : Gang) (e : Nat) (x : LogEntry) : (g.setEntry e x).blockMode = g.blockMode := by unfold Gang.setEntry Gang.setLog; split <;> rfl
@[simp] theorem Gang.setEntry_codeBase (g : Gang) (e : Nat) (x : LogEntry) : (g.setEntry e x).codeBase = g.codeBase := by unfold Gang.setEntry Gang.setLog; split <;> rfl
@[simp] theorem Gang.setEntry_r (g : Gang) (e : Nat) (x : LogEntry) : (g.setEntry e x).r = g.r := by unfold Gang.setEntry Gang.setLog; split <;> rfl
@[simp] theorem Gang.setEntry_src (g : Gang) (e : Nat) (x : LogEntry) : (g.setEntry e x).src = g.src := by unfold Gang.setEntry Gang.setLog; split <;> rfl
@[simp] theorem Gang.setEntry_srcLog (g : Gang) (e : Nat) (x : LogEntry) : (g.setEntry e x).srcLog = g.srcLog := by unfold Gang.setEntry Gang.setLog; split <;> rfl
@[simp] theorem Gang.setEntry_handler (g : Gang) (e : Nat) (x : LogEntry) : (g.setEntry e x).handler = g.handler := by unfold Gang.setEntry Gang.setLog; split <;> rfl
@[simp] theorem Gang.setEntry_restoring (g : Gang) (e : Nat) (x : LogEntry) : (g.setEntry e x).restoring = g.restoring := by unfold Gang.setEntry Gang.setLog; split <;> rfl
@[simp] theorem Gang.setEntry_bank (g : Gang) (e : Nat) (x : LogEntry) : (g.setEntry e x).bank = g.bank := by unfold Gang.setEntry Gang.setLog; split <;> rfl
@[simp] theorem Gang.setEntry_cur (g : Gang) (e : Nat) (x : LogEntry) : (g.setEntry e x).cur = g.cur := by unfold Gang.setEntry Gang.setLog; split <;> rfl
@[simp] theorem Gang.setEntry_slot (g : Gang) (e : Nat) (x : LogEntry) : (g.setEntry e x).slot = g.slot := by unfold Gang.setEntry Gang.setLog; split <;> rfl
@[simp] theorem Gang.setEntry_pc (g : Gang) (e : Nat) (x : LogEntry) : (g.setEntry e x).pc = g.pc := by unfold Gang.setEntry Gang.setLog; split <;> rfl
@[simp] theorem Gang.setEntry_fetched (g : Gang) (e : Nat) (x : LogEntry) : (g.setEntry e x).fetched = g.fetched := by unfold Gang.setEntry Gang.setLog; split <;> rfl
@[simp] theorem Gang.setEntry_windows (g : Gang) (e : Nat) (x : LogEntry) : (g.setEntry e x).windows = g.windows := by unfold Gang.setEntry Gang.setLog; split <;> rfl
@[simp] theorem Gang.setEntry_hwindows (g : Gang) (e : Nat) (x : LogEntry) : (g.setEntry e x).hwindows = g.hwindows := by unfold Gang.setEntry Gang.setLog; split <;> rfl
@[simp] theorem Gang.setEntry_monitor (g : Gang) (e : Nat) (x : LogEntry) : (g.setEntry e x).monitor = g.monitor := by unfold Gang.setEntry Gang.setLog; split <;> rfl
@[simp] theorem Gang.setEntry_wait (g : Gang) (e : Nat) (x : LogEntry) : (g.setEntry e x).wait = g.wait := by unfold Gang.setEntry Gang.setLog; split <;> rfl
@[simp] theorem Gang.setEntry_alone (g : Gang) (e : Nat) (x : LogEntry) : (g.setEntry e x).alone = g.alone := by unfold Gang.setEntry Gang.setLog; split <;> rfl
@[simp] theorem Gang.setEntry_arriving (g : Gang) (e : Nat) (x : LogEntry) : (g.setEntry e x).arriving = g.arriving := by unfold Gang.setEntry Gang.setLog; split <;> rfl
@[simp] theorem Gang.setEntry_relPending (g : Gang) (e : Nat) (x : LogEntry) : (g.setEntry e x).relPending = g.relPending := by unfold Gang.setEntry Gang.setLog; split <;> rfl
@[simp] theorem Gang.setEntry_stepReq (g : Gang) (e : Nat) (x : LogEntry) : (g.setEntry e x).stepReq = g.stepReq := by unfold Gang.setEntry Gang.setLog; split <;> rfl
@[simp] theorem Gang.setEntry_stepDue (g : Gang) (e : Nat) (x : LogEntry) : (g.setEntry e x).stepDue = g.stepDue := by unfold Gang.setEntry Gang.setLog; split <;> rfl
@[simp] theorem Gang.setEntry_outstanding (g : Gang) (e : Nat) (x : LogEntry) : (g.setEntry e x).outstanding = g.outstanding := by unfold Gang.setEntry Gang.setLog; split <;> rfl
@[simp] theorem Gang.setEntry_reports (g : Gang) (e : Nat) (x : LogEntry) : (g.setEntry e x).reports = g.reports := by unfold Gang.setEntry Gang.setLog; split <;> rfl
@[simp] theorem Gang.setEntry_reportsLost (g : Gang) (e : Nat) (x : LogEntry) : (g.setEntry e x).reportsLost = g.reportsLost := by unfold Gang.setEntry Gang.setLog; split <;> rfl
@[simp] theorem Gang.setEntry_reportDue (g : Gang) (e : Nat) (x : LogEntry) : (g.setEntry e x).reportDue = g.reportDue := by unfold Gang.setEntry Gang.setLog; split <;> rfl
@[simp] theorem Gang.setEntry_engReports (g : Gang) (e : Nat) (x : LogEntry) : (g.setEntry e x).engReports = g.engReports := by unfold Gang.setEntry Gang.setLog; split <;> rfl
@[simp] theorem Gang.setEntry_evictDue (g : Gang) (e : Nat) (x : LogEntry) : (g.setEntry e x).evictDue = g.evictDue := by unfold Gang.setEntry Gang.setLog; split <;> rfl
@[simp] theorem Gang.setEntry_watchdogDue (g : Gang) (e : Nat) (x : LogEntry) : (g.setEntry e x).watchdogDue = g.watchdogDue := by unfold Gang.setEntry Gang.setLog; split <;> rfl
@[simp] theorem Gang.setEntry_errorDue (g : Gang) (e : Nat) (x : LogEntry) : (g.setEntry e x).errorDue = g.errorDue := by unfold Gang.setEntry Gang.setLog; split <;> rfl
@[simp] theorem Gang.setEntry_card (g : Gang) (e : Nat) (x : LogEntry) : (g.setEntry e x).card = g.card := by unfold Gang.setEntry Gang.setLog; split <;> rfl
@[simp] theorem Gang.setEntry_parkedWait (g : Gang) (e : Nat) (x : LogEntry) : (g.setEntry e x).parkedWait = g.parkedWait := by unfold Gang.setEntry Gang.setLog; split <;> rfl
@[simp] theorem Gang.setEntry_handlerReport (g : Gang) (e : Nat) (x : LogEntry) : (g.setEntry e x).handlerReport = g.handlerReport := by unfold Gang.setEntry Gang.setLog; split <;> rfl
@[simp] theorem Gang.setEntry_reported (g : Gang) (e : Nat) (x : LogEntry) : (g.setEntry e x).reported = g.reported := by unfold Gang.setEntry Gang.setLog; split <;> rfl
@[simp] theorem Gang.setEntry_runStart (g : Gang) (e : Nat) (x : LogEntry) : (g.setEntry e x).runStart = g.runStart := by unfold Gang.setEntry Gang.setLog; split <;> rfl

/-! ## `Gang.loadTrap`: the trap registers change, nothing else -/

@[simp] theorem Gang.loadTrap_uid (g : Gang) (c : BitVec 13) (d : BitVec 96) (m : Word) (e : Nat) (p : Pc) : (g.loadTrap c d m e p).uid = g.uid := rfl
@[simp] theorem Gang.loadTrap_status (g : Gang) (c : BitVec 13) (d : BitVec 96) (m : Word) (e : Nat) (p : Pc) : (g.loadTrap c d m e p).status = g.status := rfl
@[simp] theorem Gang.loadTrap_crew (g : Gang) (c : BitVec 13) (d : BitVec 96) (m : Word) (e : Nat) (p : Pc) : (g.loadTrap c d m e p).crew = g.crew := rfl
@[simp] theorem Gang.loadTrap_node (g : Gang) (c : BitVec 13) (d : BitVec 96) (m : Word) (e : Nat) (p : Pc) : (g.loadTrap c d m e p).node = g.node := rfl
@[simp] theorem Gang.loadTrap_ens (g : Gang) (c : BitVec 13) (d : BitVec 96) (m : Word) (e : Nat) (p : Pc) : (g.loadTrap c d m e p).ens = g.ens := rfl
@[simp] theorem Gang.loadTrap_crewNo (g : Gang) (c : BitVec 13) (d : BitVec 96) (m : Word) (e : Nat) (p : Pc) : (g.loadTrap c d m e p).crewNo = g.crewNo := rfl
@[simp] theorem Gang.loadTrap_gangNo (g : Gang) (c : BitVec 13) (d : BitVec 96) (m : Word) (e : Nat) (p : Pc) : (g.loadTrap c d m e p).gangNo = g.gangNo := rfl
@[simp] theorem Gang.loadTrap_stage (g : Gang) (c : BitVec 13) (d : BitVec 96) (m : Word) (e : Nat) (p : Pc) : (g.loadTrap c d m e p).stage = g.stage := rfl
@[simp] theorem Gang.loadTrap_die (g : Gang) (c : BitVec 13) (d : BitVec 96) (m : Word) (e : Nat) (p : Pc) : (g.loadTrap c d m e p).die = g.die := rfl
@[simp] theorem Gang.loadTrap_core (g : Gang) (c : BitVec 13) (d : BitVec 96) (m : Word) (e : Nat) (p : Pc) : (g.loadTrap c d m e p).core = g.core := rfl
@[simp] theorem Gang.loadTrap_role (g : Gang) (c : BitVec 13) (d : BitVec 96) (m : Word) (e : Nat) (p : Pc) : (g.loadTrap c d m e p).role = g.role := rfl
@[simp] theorem Gang.loadTrap_tenant (g : Gang) (c : BitVec 13) (d : BitVec 96) (m : Word) (e : Nat) (p : Pc) : (g.loadTrap c d m e p).tenant = g.tenant := rfl
@[simp] theorem Gang.loadTrap_nV (g : Gang) (c : BitVec 13) (d : BitVec 96) (m : Word) (e : Nat) (p : Pc) : (g.loadTrap c d m e p).nV = g.nV := rfl
@[simp] theorem Gang.loadTrap_blockMode (g : Gang) (c : BitVec 13) (d : BitVec 96) (m : Word) (e : Nat) (p : Pc) : (g.loadTrap c d m e p).blockMode = g.blockMode := rfl
@[simp] theorem Gang.loadTrap_codeBase (g : Gang) (c : BitVec 13) (d : BitVec 96) (m : Word) (e : Nat) (p : Pc) : (g.loadTrap c d m e p).codeBase = g.codeBase := rfl
@[simp] theorem Gang.loadTrap_src (g : Gang) (c : BitVec 13) (d : BitVec 96) (m : Word) (e : Nat) (p : Pc) : (g.loadTrap c d m e p).src = g.src := rfl
@[simp] theorem Gang.loadTrap_srcLog (g : Gang) (c : BitVec 13) (d : BitVec 96) (m : Word) (e : Nat) (p : Pc) : (g.loadTrap c d m e p).srcLog = g.srcLog := rfl
@[simp] theorem Gang.loadTrap_olog (g : Gang) (c : BitVec 13) (d : BitVec 96) (m : Word) (e : Nat) (p : Pc) : (g.loadTrap c d m e p).olog = g.olog := rfl
@[simp] theorem Gang.loadTrap_hlog (g : Gang) (c : BitVec 13) (d : BitVec 96) (m : Word) (e : Nat) (p : Pc) : (g.loadTrap c d m e p).hlog = g.hlog := rfl
@[simp] theorem Gang.loadTrap_handler (g : Gang) (c : BitVec 13) (d : BitVec 96) (m : Word) (e : Nat) (p : Pc) : (g.loadTrap c d m e p).handler = g.handler := rfl
@[simp] theorem Gang.loadTrap_restoring (g : Gang) (c : BitVec 13) (d : BitVec 96) (m : Word) (e : Nat) (p : Pc) : (g.loadTrap c d m e p).restoring = g.restoring := rfl
@[simp] theorem Gang.loadTrap_bank (g : Gang) (c : BitVec 13) (d : BitVec 96) (m : Word) (e : Nat) (p : Pc) : (g.loadTrap c d m e p).bank = g.bank := rfl
@[simp] theorem Gang.loadTrap_cur (g : Gang) (c : BitVec 13) (d : BitVec 96) (m : Word) (e : Nat) (p : Pc) : (g.loadTrap c d m e p).cur = g.cur := rfl
@[simp] theorem Gang.loadTrap_slot (g : Gang) (c : BitVec 13) (d : BitVec 96) (m : Word) (e : Nat) (p : Pc) : (g.loadTrap c d m e p).slot = g.slot := rfl
@[simp] theorem Gang.loadTrap_pc (g : Gang) (c : BitVec 13) (d : BitVec 96) (m : Word) (e : Nat) (p : Pc) : (g.loadTrap c d m e p).pc = g.pc := rfl
@[simp] theorem Gang.loadTrap_fetched (g : Gang) (c : BitVec 13) (d : BitVec 96) (m : Word) (e : Nat) (p : Pc) : (g.loadTrap c d m e p).fetched = g.fetched := rfl
@[simp] theorem Gang.loadTrap_windows (g : Gang) (c : BitVec 13) (d : BitVec 96) (m : Word) (e : Nat) (p : Pc) : (g.loadTrap c d m e p).windows = g.windows := rfl
@[simp] theorem Gang.loadTrap_hwindows (g : Gang) (c : BitVec 13) (d : BitVec 96) (m : Word) (e : Nat) (p : Pc) : (g.loadTrap c d m e p).hwindows = g.hwindows := rfl
@[simp] theorem Gang.loadTrap_monitor (g : Gang) (c : BitVec 13) (d : BitVec 96) (m : Word) (e : Nat) (p : Pc) : (g.loadTrap c d m e p).monitor = g.monitor := rfl
@[simp] theorem Gang.loadTrap_wait (g : Gang) (c : BitVec 13) (d : BitVec 96) (m : Word) (e : Nat) (p : Pc) : (g.loadTrap c d m e p).wait = g.wait := rfl
@[simp] theorem Gang.loadTrap_alone (g : Gang) (c : BitVec 13) (d : BitVec 96) (m : Word) (e : Nat) (p : Pc) : (g.loadTrap c d m e p).alone = g.alone := rfl
@[simp] theorem Gang.loadTrap_arriving (g : Gang) (c : BitVec 13) (d : BitVec 96) (m : Word) (e : Nat) (p : Pc) : (g.loadTrap c d m e p).arriving = g.arriving := rfl
@[simp] theorem Gang.loadTrap_relPending (g : Gang) (c : BitVec 13) (d : BitVec 96) (m : Word) (e : Nat) (p : Pc) : (g.loadTrap c d m e p).relPending = g.relPending := rfl
@[simp] theorem Gang.loadTrap_stepReq (g : Gang) (c : BitVec 13) (d : BitVec 96) (m : Word) (e : Nat) (p : Pc) : (g.loadTrap c d m e p).stepReq = g.stepReq := rfl
@[simp] theorem Gang.loadTrap_stepDue (g : Gang) (c : BitVec 13) (d : BitVec 96) (m : Word) (e : Nat) (p : Pc) : (g.loadTrap c d m e p).stepDue = g.stepDue := rfl
@[simp] theorem Gang.loadTrap_outstanding (g : Gang) (c : BitVec 13) (d : BitVec 96) (m : Word) (e : Nat) (p : Pc) : (g.loadTrap c d m e p).outstanding = g.outstanding := rfl
@[simp] theorem Gang.loadTrap_reports (g : Gang) (c : BitVec 13) (d : BitVec 96) (m : Word) (e : Nat) (p : Pc) : (g.loadTrap c d m e p).reports = g.reports := rfl
@[simp] theorem Gang.loadTrap_reportsLost (g : Gang) (c : BitVec 13) (d : BitVec 96) (m : Word) (e : Nat) (p : Pc) : (g.loadTrap c d m e p).reportsLost = g.reportsLost := rfl
@[simp] theorem Gang.loadTrap_reportDue (g : Gang) (c : BitVec 13) (d : BitVec 96) (m : Word) (e : Nat) (p : Pc) : (g.loadTrap c d m e p).reportDue = g.reportDue := rfl
@[simp] theorem Gang.loadTrap_engReports (g : Gang) (c : BitVec 13) (d : BitVec 96) (m : Word) (e : Nat) (p : Pc) : (g.loadTrap c d m e p).engReports = g.engReports := rfl
@[simp] theorem Gang.loadTrap_evictDue (g : Gang) (c : BitVec 13) (d : BitVec 96) (m : Word) (e : Nat) (p : Pc) : (g.loadTrap c d m e p).evictDue = g.evictDue := rfl
@[simp] theorem Gang.loadTrap_watchdogDue (g : Gang) (c : BitVec 13) (d : BitVec 96) (m : Word) (e : Nat) (p : Pc) : (g.loadTrap c d m e p).watchdogDue = g.watchdogDue := rfl
@[simp] theorem Gang.loadTrap_errorDue (g : Gang) (c : BitVec 13) (d : BitVec 96) (m : Word) (e : Nat) (p : Pc) : (g.loadTrap c d m e p).errorDue = g.errorDue := rfl
@[simp] theorem Gang.loadTrap_card (g : Gang) (c : BitVec 13) (d : BitVec 96) (m : Word) (e : Nat) (p : Pc) : (g.loadTrap c d m e p).card = g.card := rfl
@[simp] theorem Gang.loadTrap_parkedWait (g : Gang) (c : BitVec 13) (d : BitVec 96) (m : Word) (e : Nat) (p : Pc) : (g.loadTrap c d m e p).parkedWait = g.parkedWait := rfl
@[simp] theorem Gang.loadTrap_handlerReport (g : Gang) (c : BitVec 13) (d : BitVec 96) (m : Word) (e : Nat) (p : Pc) : (g.loadTrap c d m e p).handlerReport = g.handlerReport := rfl
@[simp] theorem Gang.loadTrap_reported (g : Gang) (c : BitVec 13) (d : BitVec 96) (m : Word) (e : Nat) (p : Pc) : (g.loadTrap c d m e p).reported = g.reported := rfl
@[simp] theorem Gang.loadTrap_runStart (g : Gang) (c : BitVec 13) (d : BitVec 96) (m : Word) (e : Nat) (p : Pc) : (g.loadTrap c d m e p).runStart = g.runStart := rfl

end Sys2Proof.Machine
end

