-- ==== Sys2Proof/Tests/Slice0.lean ====
section
/-! SUPPORT. Tests on small states: ill-formed terms that `WellFormed` refuses, words that decode to the instruction their row of the opcode
table names, states that meet the hypotheses of each statement, and single steps whose results the manual's rules give. -/

namespace Sys2Proof.Tests

open Sys2Proof.Machine

set_option Elab.async false

/-- The state in which a word has been placed (log entry 5). -/
def placed (w : Nat) : State := State.reset.withFetchWord 32 w

/-- Each word, laid out from its row of the opcode table, decodes to the term beside it. -/
abbrev Decodes (l : List (Nat × Instr)) : Prop := l.map (fun x => (decodeNat x.1).toOption) = l.map fun x => some x.2

/-- The word may issue where it is placed. -/
def Issues (x : Nat × Instr) : Bool := MayIssue x.2 (placed x.1)

/-- The state a step answers has a property. -/
noncomputable def stepHas (f : State → Bool) (s : State) : Bool :=
  match step s with
  | .next t => f t
  | _ => false

/-- The first step after reset runs the word: a gang's program counter has moved on, or it waits, has ended or traps. -/
noncomputable def Runs (x : Nat × Instr) : Bool := stepHas (fun t => t.agenda.isEmpty) (placed x.1)

/-! ## Ill-formed terms (03 R75) -/

theorem test_ill_formed_nop_spelling : ¬(Instr.sadd 0 0 0).WellFormed := fun h => h ⟨rfl, rfl, rfl⟩

theorem test_ill_formed_slots :
    ¬(Instr.sldNf 1 2 3 0 0).WellFormed ∧ ¬(Instr.sstNf 1 2 3 0 0).WellFormed ∧ ¬(Instr.ldNf 1 2 3 0 0).WellFormed ∧
    ¬(Instr.stNf 1 2 3 0 0).WellFormed ∧ ¬(Instr.pldNf 1 2 0 0).WellFormed ∧ ¬(Instr.pstNf 1 2 0 0).WellFormed ∧
    ¬(Instr.vcvtNfF32 1 2 0 0).WellFormed ∧ ¬(Instr.vcvtF32Nf 1 2 0 0).WellFormed := by
  simp only [Instr.WellFormed]
  and_intros <;> decide

theorem test_ill_formed_rounding_modes :
    ¬(Instr.vcvtF32I32 1 2 5).WellFormed ∧ ¬(Instr.vcvtF32N32 1 2 6).WellFormed ∧ ¬(Instr.vcvtI32F32 1 2 7).WellFormed ∧
    ¬(Instr.vcvtN32F32 1 2 5).WellFormed ∧ ¬(Instr.vcvtBf16F32 1 2 6).WellFormed ∧ ¬(Instr.vcvtF16F32 1 2 7).WellFormed ∧
    ¬(Instr.vcvtF32Bf16 1 2 5).WellFormed ∧ ¬(Instr.vcvtF32F16 1 2 6).WellFormed ∧ ¬(Instr.vcvtE4m3F32 1 2 7).WellFormed ∧
    ¬(Instr.vcvtE5m2F32 1 2 5).WellFormed ∧ ¬(Instr.vcvtF32E4m3 1 2 6).WellFormed ∧ ¬(Instr.vcvtF32E5m2 1 2 7).WellFormed ∧
    ¬(Instr.vcvthiBf16F32 1 2 5).WellFormed ∧ ¬(Instr.vcvthiF16F32 1 2 5).WellFormed ∧ ¬(Instr.vcvtNfF32 1 2 5 1).WellFormed ∧
    ¬(Instr.vcvtF32Nf 1 2 5 1).WellFormed := by
  simp only [Instr.WellFormed]
  and_intros <;> decide

theorem test_ill_formed_ranges :
    ¬(Instr.pldB64 127 0 0).WellFormed ∧ ¬(Instr.pstB64 127 0 0).WellFormed ∧ ¬(Instr.ldtrB16 127 0 0 0).WellFormed ∧
    ¬(Instr.ldtrB32 125 0 0 0).WellFormed ∧ ¬(Instr.atomFadd 127 0 0 0).WellFormed ∧ ¬(Instr.redFadd 127 0 0 0).WellFormed ∧
    ¬(Instr.atomFmax 127 0 0 0).WellFormed ∧ ¬(Instr.redFmax 127 0 0 0).WellFormed ∧ ¬(Instr.atomFmin 127 0 0 0).WellFormed ∧
    ¬(Instr.redFmin 127 0 0 0).WellFormed ∧ ¬(Instr.patomFadd 127 0 0).WellFormed ∧ ¬(Instr.predFadd 127 0 0).WellFormed ∧
    ¬(Instr.patomFmax 127 0 0).WellFormed ∧ ¬(Instr.predFmax 127 0 0).WellFormed ∧ ¬(Instr.patomFmin 127 0 0).WellFormed ∧
    ¬(Instr.predFmin 127 0 0).WellFormed ∧ ¬(Instr.cpLd 31 0 0 0 0).WellFormed ∧ ¬(Instr.cpSt 31 0 0 0 0).WellFormed ∧
    ¬(Instr.cpLdq 31 0 0 0 0).WellFormed ∧ ¬(Instr.cpMc 31 0 0 0 0).WellFormed ∧ ¬(Instr.cpFifo 31 0 0 0).WellFormed := by
  simp only [Instr.WellFormed]
  and_intros <;> decide

theorem test_ill_formed_widths :
    ¬(Instr.atomAdd 1 0 2 2 0).WellFormed ∧ ¬(Instr.redAdd 1 0 2 2 0).WellFormed ∧ ¬(Instr.atomAnd 1 0 2 2 0).WellFormed ∧
    ¬(Instr.redAnd 1 0 2 2 0).WellFormed ∧ ¬(Instr.atomOr 1 0 2 2 0).WellFormed ∧ ¬(Instr.redOr 1 0 2 2 0).WellFormed ∧
    ¬(Instr.atomXor 1 0 2 2 0).WellFormed ∧ ¬(Instr.redXor 1 0 2 2 0).WellFormed ∧ ¬(Instr.atomMinI 1 0 2 2 0).WellFormed ∧
    ¬(Instr.redMinI 1 0 2 2 0).WellFormed ∧ ¬(Instr.atomMaxI 1 0 2 2 0).WellFormed ∧ ¬(Instr.redMaxI 1 0 2 2 0).WellFormed ∧
    ¬(Instr.atomMinN 1 0 2 2 0).WellFormed ∧ ¬(Instr.redMinN 1 0 2 2 0).WellFormed ∧ ¬(Instr.atomMaxN 1 0 2 2 0).WellFormed ∧
    ¬(Instr.redMaxN 1 0 2 2 0).WellFormed ∧ ¬(Instr.atomExch 1 0 2 2 0).WellFormed ∧ ¬(Instr.redExch 1 0 2 2 0).WellFormed ∧
    ¬(Instr.atomInc 1 0 2 2 0).WellFormed ∧ ¬(Instr.redInc 1 0 2 2 0).WellFormed ∧ ¬(Instr.atomDec 1 0 2 2 0).WellFormed ∧
    ¬(Instr.redDec 1 0 2 2 0).WellFormed ∧ ¬(Instr.atomCas 1 0 2 3 0).WellFormed ∧ ¬(Instr.patomAdd 1 2 2 0).WellFormed ∧
    ¬(Instr.predAdd 1 2 2 0).WellFormed ∧ ¬(Instr.patomAnd 1 2 2 0).WellFormed ∧ ¬(Instr.predAnd 1 2 2 0).WellFormed ∧
    ¬(Instr.patomOr 1 2 2 0).WellFormed ∧ ¬(Instr.predOr 1 2 2 0).WellFormed ∧ ¬(Instr.patomXor 1 2 2 0).WellFormed ∧
    ¬(Instr.predXor 1 2 2 0).WellFormed ∧ ¬(Instr.patomMinI 1 2 2 0).WellFormed ∧ ¬(Instr.predMinI 1 2 2 0).WellFormed ∧
    ¬(Instr.patomMaxI 1 2 2 0).WellFormed ∧ ¬(Instr.predMaxI 1 2 2 0).WellFormed ∧ ¬(Instr.patomMinN 1 2 2 0).WellFormed ∧
    ¬(Instr.predMinN 1 2 2 0).WellFormed ∧ ¬(Instr.patomMaxN 1 2 2 0).WellFormed ∧ ¬(Instr.predMaxN 1 2 2 0).WellFormed ∧
    ¬(Instr.patomExch 1 2 2 0).WellFormed ∧ ¬(Instr.predExch 1 2 2 0).WellFormed ∧ ¬(Instr.patomInc 1 2 2 0).WellFormed ∧
    ¬(Instr.predInc 1 2 2 0).WellFormed ∧ ¬(Instr.patomDec 1 2 2 0).WellFormed ∧ ¬(Instr.predDec 1 2 2 0).WellFormed ∧
    ¬(Instr.patomCas 1 2 3 0).WellFormed := by
  simp only [Instr.WellFormed]
  and_intros <;> decide

theorem test_ill_formed_value_runs :
    ¬(Instr.atomAdd 126 0 2 1 0).WellFormed ∧ ¬(Instr.redAdd 126 0 2 1 0).WellFormed ∧ ¬(Instr.atomAnd 126 0 2 1 0).WellFormed ∧
    ¬(Instr.redAnd 126 0 2 1 0).WellFormed ∧ ¬(Instr.atomOr 126 0 2 1 0).WellFormed ∧ ¬(Instr.redOr 126 0 2 1 0).WellFormed ∧
    ¬(Instr.atomXor 126 0 2 1 0).WellFormed ∧ ¬(Instr.redXor 126 0 2 1 0).WellFormed ∧ ¬(Instr.atomMinI 126 0 2 1 0).WellFormed ∧
    ¬(Instr.redMinI 126 0 2 1 0).WellFormed ∧ ¬(Instr.atomMaxI 126 0 2 1 0).WellFormed ∧ ¬(Instr.redMaxI 126 0 2 1 0).WellFormed ∧
    ¬(Instr.atomMinN 126 0 2 1 0).WellFormed ∧ ¬(Instr.redMinN 126 0 2 1 0).WellFormed ∧ ¬(Instr.atomMaxN 126 0 2 1 0).WellFormed ∧
    ¬(Instr.redMaxN 126 0 2 1 0).WellFormed ∧ ¬(Instr.atomExch 126 0 2 1 0).WellFormed ∧ ¬(Instr.redExch 126 0 2 1 0).WellFormed ∧
    ¬(Instr.atomInc 126 0 2 1 0).WellFormed ∧ ¬(Instr.redInc 126 0 2 1 0).WellFormed ∧ ¬(Instr.atomDec 126 0 2 1 0).WellFormed ∧
    ¬(Instr.redDec 126 0 2 1 0).WellFormed ∧ ¬(Instr.atomCas 126 0 0 0 0).WellFormed ∧ ¬(Instr.atomCas 124 0 0 1 0).WellFormed ∧
    ¬(Instr.patomAdd 127 2 0 0).WellFormed ∧ ¬(Instr.predAdd 127 2 0 0).WellFormed ∧ ¬(Instr.patomAnd 127 2 0 0).WellFormed ∧
    ¬(Instr.predAnd 127 2 0 0).WellFormed ∧ ¬(Instr.patomOr 127 2 0 0).WellFormed ∧ ¬(Instr.predOr 127 2 0 0).WellFormed ∧
    ¬(Instr.patomXor 127 2 0 0).WellFormed ∧ ¬(Instr.predXor 127 2 0 0).WellFormed ∧ ¬(Instr.patomMinI 127 2 0 0).WellFormed ∧
    ¬(Instr.predMinI 127 2 0 0).WellFormed ∧ ¬(Instr.patomMaxI 127 2 0 0).WellFormed ∧ ¬(Instr.predMaxI 127 2 0 0).WellFormed ∧
    ¬(Instr.patomMinN 127 2 0 0).WellFormed ∧ ¬(Instr.predMinN 127 2 0 0).WellFormed ∧ ¬(Instr.patomMaxN 127 2 0 0).WellFormed ∧
    ¬(Instr.predMaxN 127 2 0 0).WellFormed ∧ ¬(Instr.patomExch 127 2 0 0).WellFormed ∧ ¬(Instr.predExch 127 2 0 0).WellFormed ∧
    ¬(Instr.patomInc 127 2 0 0).WellFormed ∧ ¬(Instr.predInc 127 2 0 0).WellFormed ∧ ¬(Instr.patomDec 127 2 0 0).WellFormed ∧
    ¬(Instr.predDec 127 2 0 0).WellFormed ∧ ¬(Instr.patomCas 126 0 0 0).WellFormed ∧ ¬(Instr.patomCas 124 0 1 0).WellFormed := by
  simp only [Instr.WellFormed]
  and_intros <;> decide

theorem test_ill_formed_scopes :
    ¬(Instr.atomAdd 1 7 2 0 0).WellFormed ∧ ¬(Instr.redAdd 1 7 2 0 0).WellFormed ∧ ¬(Instr.atomAnd 1 7 2 0 0).WellFormed ∧
    ¬(Instr.redAnd 1 7 2 0 0).WellFormed ∧ ¬(Instr.atomOr 1 7 2 0 0).WellFormed ∧ ¬(Instr.redOr 1 7 2 0 0).WellFormed ∧
    ¬(Instr.atomXor 1 7 2 0 0).WellFormed ∧ ¬(Instr.redXor 1 7 2 0 0).WellFormed ∧ ¬(Instr.atomMinI 1 7 2 0 0).WellFormed ∧
    ¬(Instr.redMinI 1 7 2 0 0).WellFormed ∧ ¬(Instr.atomMaxI 1 7 2 0 0).WellFormed ∧ ¬(Instr.redMaxI 1 7 2 0 0).WellFormed ∧
    ¬(Instr.atomMinN 1 7 2 0 0).WellFormed ∧ ¬(Instr.redMinN 1 7 2 0 0).WellFormed ∧ ¬(Instr.atomMaxN 1 7 2 0 0).WellFormed ∧
    ¬(Instr.redMaxN 1 7 2 0 0).WellFormed ∧ ¬(Instr.atomExch 1 7 2 0 0).WellFormed ∧ ¬(Instr.redExch 1 7 2 0 0).WellFormed ∧
    ¬(Instr.atomInc 1 7 2 0 0).WellFormed ∧ ¬(Instr.redInc 1 7 2 0 0).WellFormed ∧ ¬(Instr.atomDec 1 7 2 0 0).WellFormed ∧
    ¬(Instr.redDec 1 7 2 0 0).WellFormed ∧ ¬(Instr.atomCas 1 7 2 0 0).WellFormed ∧ ¬(Instr.atomFadd 1 7 0 0).WellFormed ∧
    ¬(Instr.redFadd 1 7 0 0).WellFormed ∧ ¬(Instr.atomFmax 1 7 0 0).WellFormed ∧ ¬(Instr.redFmax 1 7 0 0).WellFormed ∧
    ¬(Instr.atomFmin 1 7 0 0).WellFormed ∧ ¬(Instr.redFmin 1 7 0 0).WellFormed ∧ ¬(Instr.barArrive 1 2 0 0).WellFormed ∧
    ¬(Instr.barArrive 1 2 5 0).WellFormed ∧ ¬(Instr.barArrivet 1 2 3 0 0).WellFormed ∧ ¬(Instr.barArrivet 1 2 3 5 0).WellFormed ∧
    ¬(Instr.barWait 1 2 0).WellFormed ∧ ¬(Instr.barWait 1 2 5).WellFormed ∧ ¬(Instr.ldAcqB32 1 2 3 7 0).WellFormed ∧
    ¬(Instr.stRelB32 1 2 3 7 0).WellFormed ∧ ¬(Instr.fence 0).WellFormed ∧ ¬(Instr.fence 7).WellFormed ∧ ¬(Instr.fenceRel 0).WellFormed ∧
    ¬(Instr.fenceRel 7).WellFormed ∧ ¬(Instr.fenceAcq 0).WellFormed ∧ ¬(Instr.fenceAcq 7).WellFormed := by
  simp only [Instr.WellFormed]
  and_intros <;> decide

theorem test_ill_formed_special_registers :
    ¬(Instr.mfs 1 0x003).WellFormed ∧ ¬(Instr.mfs 1 0x006).WellFormed ∧ ¬(Instr.mts 1 0x020).WellFormed ∧ ¬(Instr.mts 1 0x004).WellFormed ∧
    ¬(Instr.mts 1 0x021).WellFormed ∧ ¬(Instr.mfsv 1 0x000).WellFormed ∧ ¬(Instr.mtsv 1 0x020).WellFormed ∧ ¬(Instr.mtsv 1 0x002).WellFormed := by
  simp only [Instr.WellFormed]
  and_intros <;> decide

/-- The zero word, a reserved major, function and field, rounding mode 5, scope 7, a register past 127, a read-only register (03 R75). -/
theorem test_decode_rejects : [0x00000000, 0x68000000, 0x02000170, 0x04004040, 0x22000500, 0x30003840, 0x2FFC0200, 0x3C010210].map (fun w => match decodeNat w with
    | .error e => some e.code
    | .ok _ => none) = [some 0x01, some 0x02, some 0x03, some 0x04, some 0x05, some 0x06, some 0x07, some 0x0E] := rfl

noncomputable def words01 : List (Nat × Instr) :=
  [(0x02000000, .nop), (0x03970C00, .sadd 25 14 3), (0x03970C10, .ssub 25 14 3), (0x03970C20, .smul 25 14 3),
   (0x03970C30, .smulhI64 25 14 3), (0x03970C40, .smulhN64 25 14 3), (0x03970C50, .sdivI64 25 14 3),
   (0x03970C60, .sdivN64 25 14 3), (0x03970C70, .sremI64 25 14 3), (0x03970C80, .sremN64 25 14 3), (0x03970C90, .sand 25 14 3),
   (0x03970CA0, .sor 25 14 3), (0x03970CB0, .sxor 25 14 3), (0x03970CC0, .sandn 25 14 3), (0x03970CD0, .sshl 25 14 3),
   (0x03970CE0, .sshrN64 25 14 3), (0x03970CF0, .sshrI64 25 14 3), (0x03970D00, .sminI64 25 14 3), (0x03970D10, .sminN64 25 14 3),
   (0x03970D20, .smaxI64 25 14 3), (0x03970D30, .smaxN64 25 14 3), (0x03970140, .spopc 25 14), (0x03970150, .sclz 25 14),
   (0x03970160, .sctz 25 14)]

noncomputable def words02 : List (Nat × Instr) :=
  [(0x059705A5, .saddi 25 14 1445), (0x059715A5, .sandi 25 14 1445), (0x059725A5, .sori 25 14 1445),
   (0x059735A5, .sxori 25 14 1445), (0x05974025, .sshli 25 14 37), (0x05975025, .sshriN64 25 14 37),
   (0x05976025, .sshriI64 25 14 37), (0x059775A5, .smuli 25 14 1445)]

noncomputable def words03 : List (Nat × Instr) :=
  [(0x0790A5A5, .sli 25 42405), (0x0791A5A5, .sliu 25 42405), (0x0792A5A5, .sinsH0 25 42405), (0x0793A5A5, .sinsH1 25 42405),
   (0x0794A5A5, .sinsH2 25 42405), (0x0795A5A5, .sinsH3 25 42405), (0x07960AAE, .vget 25 21 46), (0x07970006, .pget 25 6),
   (0x06E80006, .psets 14 6)]

noncomputable def words04 : List (Nat × Instr) :=
  [(0x09970C00, .seq 25 14 3), (0x09970C10, .sne 25 14 3), (0x09970C20, .sltI64 25 14 3), (0x09970C30, .sleI64 25 14 3),
   (0x09970C40, .sltN64 25 14 3), (0x09970C50, .sleN64 25 14 3), (0x08130C80, .pand 1 6 3), (0x08130C90, .por 1 6 3),
   (0x08130CA0, .pxor 1 6 3), (0x08130CB0, .pandn 1 6 3), (0x081300C0, .pnot 1 6), (0x099300D0, .ppopc 25 6),
   (0x099300E0, .pffs 25 6), (0x081700F0, .pfill 1 14)]

noncomputable def words05 : List (Nat × Instr) :=
  [(0x0B970C09, .sldB64 25 14 3 9), (0x0B970C89, .sldN32 25 14 3 9), (0x0B970D09, .sldI32 25 14 3 9),
   (0x0B970DD9, .sldNf 25 14 3 5 9), (0x0AA70E09, .sstB64 10 14 3 9), (0x0AA70E89, .sstB32 10 14 3 9),
   (0x0AA70F59, .sstNf 10 14 3 5 9)]

noncomputable def words06 : List (Nat × Instr) :=
  [(0x0C05A5A5, .br 370085), (0x0C15A5A5, .call 370085), (0x0C200000, .ret), (0x0C300000, .callr)]

noncomputable def words07 : List (Nat × Instr) :=
  [(0x0F85A5A5, .bany 6 370085), (0x0F95A5A5, .ball 6 370085), (0x0FA5A5A5, .bnone 6 370085), (0x0FB5A5A5, .bnall 6 370085)]

noncomputable def words08 : List (Nat × Instr) :=
  [(0x1185A5A5, .split 6 370085), (0x1015A5A5, .elseArm 370085), (0x10200000, .join), (0x11B00000, .mand 6),
   (0x11B10000, .mandn 6), (0x10320019, .dspop 25), (0x1033000E, .dspush 14), (0x10340019, .dsdepth 25)]

noncomputable def words09 : List (Nat × Instr) :=
  [(0x1385A5A5, .dbnz 6 370085), (0x1395A5A5, .bz 6 370085), (0x13A5A5A5, .bnz 6 370085)]

noncomputable def words0A : List (Nat × Instr) :=
  [(0x15657630, .vaddI32 89 46 99), (0x15657631, .vsubI32 89 46 99), (0x15657632, .vmulI32 89 46 99),
   (0x15657633, .vmulhI32 89 46 99), (0x15657634, .vmulhN32 89 46 99), (0x15657635, .vandB32 89 46 99),
   (0x15657636, .vorB32 89 46 99), (0x15657637, .vxorB32 89 46 99), (0x15657638, .vandnB32 89 46 99),
   (0x15657639, .vshlB32 89 46 99), (0x1565763A, .vshrN32 89 46 99), (0x1565763B, .vshrI32 89 46 99),
   (0x1565763C, .vminI32 89 46 99), (0x1565763D, .vmaxI32 89 46 99), (0x1565763E, .vminN32 89 46 99),
   (0x1565763F, .vmaxN32 89 46 99)]

noncomputable def words0B : List (Nat × Instr) :=
  [(0x17657630, .vaddsI32 89 46 99), (0x17657631, .vaddsN32 89 46 99), (0x17657632, .vsubsI32 89 46 99),
   (0x17657633, .vsubsN32 89 46 99), (0x17657004, .vabsI32 89 46), (0x17657005, .vnegI32 89 46), (0x17657006, .vpopcB32 89 46),
   (0x17657007, .vclzB32 89 46), (0x17657008, .vbrevB32 89 46), (0x17657639, .vmadI32 89 46 99), (0x1765763A, .vabsdN32 89 46 99),
   (0x1765763B, .vabsdI32 89 46 99), (0x1765763C, .vavgN32 89 46 99), (0x1765763D, .vrotB32 89 46 99),
   (0x1765763E, .vdot4I8 89 46 99), (0x1765763F, .vdot4N8 89 46 99)]

noncomputable def words0C : List (Nat × Instr) :=
  [(0x19657630, .vaddB16 89 46 99), (0x19657631, .vsubB16 89 46 99), (0x19657632, .vaddsI16 89 46 99),
   (0x19657633, .vaddsN16 89 46 99), (0x19657634, .vaddB8 89 46 99), (0x19657635, .vsubB8 89 46 99),
   (0x19657636, .vaddsI8 89 46 99), (0x19657637, .vaddsN8 89 46 99), (0x19657638, .vminI16 89 46 99),
   (0x19657639, .vmaxI16 89 46 99), (0x1965763A, .vminN8 89 46 99), (0x1965763B, .vmaxN8 89 46 99),
   (0x1965763C, .vpermB8 89 46 99), (0x1965763D, .vshlB16 89 46 99), (0x1965763E, .vshrN16 89 46 99),
   (0x1965763F, .vshrI16 89 46 99)]

noncomputable def words0D : List (Nat × Instr) :=
  [(0x1B657630, .vaddF32 89 46 99), (0x1B657631, .vsubF32 89 46 99), (0x1B657632, .vmulF32 89 46 99),
   (0x1B657633, .vfmaF32 89 46 99), (0x1B657634, .vfmsF32 89 46 99), (0x1B657635, .vminF32 89 46 99),
   (0x1B657636, .vmaxF32 89 46 99), (0x1B657007, .vabsF32 89 46), (0x1B657008, .vnegF32 89 46), (0x1B657639, .vdivF32 89 46 99),
   (0x1B65700A, .vsqrtF32 89 46), (0x1B65700B, .vfloorF32 89 46), (0x1B65700C, .vceilF32 89 46), (0x1B65700D, .vtruncF32 89 46),
   (0x1B65700E, .vrintF32 89 46), (0x1B65763F, .vscaleF32 89 46 99)]

noncomputable def words0E : List (Nat × Instr) :=
  [(0x1D657630, .vmaxabsF32 89 46 99), (0x1D657631, .vcopysignF32 89 46 99), (0x1D657002, .vclassF32 89 46),
   (0x1D657003, .vexpoF32 89 46), (0x1D657634, .vminnanF32 89 46 99), (0x1D657635, .vmaxnanF32 89 46 99)]

noncomputable def words0F : List (Nat × Instr) :=
  [(0x1F657009, .vexp2ApxF32 89 46 9), (0x1F657089, .vlog2ApxF32 89 46 9), (0x1F657109, .vrcpApxF32 89 46 9),
   (0x1F657189, .vrsqrtApxF32 89 46 9)]

noncomputable def words10 : List (Nat × Instr) :=
  [(0x21657630, .vaddBf16 89 46 99), (0x21657631, .vmulBf16 89 46 99), (0x21657632, .vfmaBf16 89 46 99),
   (0x21657633, .vminBf16 89 46 99), (0x21657634, .vmaxBf16 89 46 99), (0x21657635, .vdot2F32Bf16 89 46 99),
   (0x21657636, .vsubBf16 89 46 99), (0x21657638, .vaddF16 89 46 99), (0x21657639, .vmulF16 89 46 99),
   (0x2165763A, .vfmaF16 89 46 99), (0x2165763B, .vminF16 89 46 99), (0x2165763C, .vmaxF16 89 46 99),
   (0x2165763D, .vdot2F32F16 89 46 99), (0x2165763E, .vsubF16 89 46 99)]

noncomputable def words11 : List (Nat × Instr) :=
  [(0x23657400, .vcvtF32I32 89 46 4), (0x23657401, .vcvtF32N32 89 46 4), (0x23657402, .vcvtI32F32 89 46 4),
   (0x23657403, .vcvtN32F32 89 46 4), (0x23657404, .vcvtBf16F32 89 46 4), (0x23657405, .vcvtF16F32 89 46 4),
   (0x23657406, .vcvtF32Bf16 89 46 4), (0x23657407, .vcvtF32F16 89 46 4), (0x23657458, .vcvtNfF32 89 46 4 5),
   (0x23657459, .vcvtF32Nf 89 46 4 5), (0x2365740A, .vcvtE4m3F32 89 46 4), (0x2365740B, .vcvtE5m2F32 89 46 4),
   (0x2365740C, .vcvtF32E4m3 89 46 4), (0x2365740D, .vcvtF32E5m2 89 46 4), (0x2365740E, .vcvthiBf16F32 89 46 4),
   (0x2365740F, .vcvthiF16F32 89 46 4)]

noncomputable def words12 : List (Nat × Instr) :=
  [(0x24197630, .vcmpEqB32 6 46 99), (0x24197631, .vcmpNeB32 6 46 99), (0x24197632, .vcmpLtI32 6 46 99),
   (0x24197633, .vcmpLeI32 6 46 99), (0x24197634, .vcmpLtN32 6 46 99), (0x24197635, .vcmpLeN32 6 46 99),
   (0x24197636, .vcmpEqF32 6 46 99), (0x24197637, .vcmpNeF32 6 46 99), (0x24197638, .vcmpLtF32 6 46 99),
   (0x24197639, .vcmpLeF32 6 46 99), (0x2419763A, .vcmpUnF32 6 46 99), (0x2419763B, .vtestB32 6 46 99)]

noncomputable def words13 : List (Nat × Instr) :=
  [(0x27657630, .vshflIdx 89 46 99), (0x27657151, .vshflUp 89 46 21), (0x27657152, .vshflDown 89 46 21),
   (0x27657153, .vshflXor 89 46 21), (0x27643004, .vballot 89 6), (0x26043005, .vvoteAll 1 6), (0x26043006, .vvoteAny 1 6),
   (0x27657007, .vmatchB32 89 46), (0x27657008, .vredAddI32 89 46), (0x27657009, .vredMaxI32 89 46),
   (0x2765700A, .vredMinI32 89 46), (0x2765700B, .vredAddF32 89 46), (0x2765700C, .vredMaxF32 89 46),
   (0x2765700D, .vscanAddI32 89 46), (0x2765700E, .vscanxAddI32 89 46), (0x2765700F, .vscanAddF32 89 46)]

noncomputable def words14 : List (Nat × Instr) :=
  [(0x29657000, .vmov 89 46), (0x29665A51, .vli 89 9637), (0x29641802, .vbcast 89 3), (0x29641803, .vbcasth 89 3),
   (0x29643004, .vpmask 89 6), (0x29641955, .vins 89 3 21), (0x2965763E, .vsel 89 46 99 6)]

noncomputable def words15 : List (Nat × Instr) :=
  [(0x2B657189, .ldB32 89 46 3 9), (0x2B6571D9, .ldNf 89 46 3 5 9)]

noncomputable def words16 : List (Nat × Instr) :=
  [(0x2D297189, .stB32 74 46 3 9), (0x2D2971D9, .stNf 74 46 3 5 9)]

noncomputable def words17 : List (Nat × Instr) :=
  [(0x2F657009, .pldB32 89 46 9), (0x2F657059, .pldNf 89 46 5 9), (0x2F297109, .pstB32 74 46 9), (0x2F297159, .pstNf 74 46 5 9),
   (0x2F657209, .pldB64 89 46 9), (0x2F297309, .pstB64 74 46 9), (0x2F657459, .ldtrB8 89 46 5 9), (0x2F657559, .ldtrB16 89 46 5 9),
   (0x2F657659, .ldtrB32 89 46 5 9)]

noncomputable def words18 : List (Nat × Instr) :=
  [(0x30B819D9, .atomAdd 46 3 3 1 9), (0x30B81999, .redAdd 46 3 3 1 9), (0x30B859D9, .atomAnd 46 3 3 1 9),
   (0x30B85999, .redAnd 46 3 3 1 9), (0x30B899D9, .atomOr 46 3 3 1 9), (0x30B89999, .redOr 46 3 3 1 9),
   (0x30B8D9D9, .atomXor 46 3 3 1 9), (0x30B8D999, .redXor 46 3 3 1 9), (0x30B919D9, .atomMinI 46 3 3 1 9),
   (0x30B91999, .redMinI 46 3 3 1 9), (0x30B959D9, .atomMaxI 46 3 3 1 9), (0x30B95999, .redMaxI 46 3 3 1 9),
   (0x30B999D9, .atomMinN 46 3 3 1 9), (0x30B99999, .redMinN 46 3 3 1 9), (0x30B9D9D9, .atomMaxN 46 3 3 1 9),
   (0x30B9D999, .redMaxN 46 3 3 1 9), (0x30BA19D9, .atomExch 46 3 3 1 9), (0x30BA1999, .redExch 46 3 3 1 9),
   (0x30BA59D9, .atomCas 46 3 3 1 9), (0x30BA99D9, .atomInc 46 3 3 1 9), (0x30BA9999, .redInc 46 3 3 1 9),
   (0x30BAD9D9, .atomDec 46 3 3 1 9), (0x30BAD999, .redDec 46 3 3 1 9), (0x30BB19C9, .atomFadd 46 3 3 9),
   (0x30BB1989, .redFadd 46 3 3 9), (0x30BB59C9, .atomFmax 46 3 3 9), (0x30BB5989, .redFmax 46 3 3 9),
   (0x30BB99C9, .atomFmin 46 3 3 9), (0x30BB9989, .redFmin 46 3 3 9)]

noncomputable def words19 : List (Nat × Instr) :=
  [(0x32B801D9, .patomAdd 46 3 1 9), (0x32B80199, .predAdd 46 3 1 9), (0x32B841D9, .patomAnd 46 3 1 9),
   (0x32B84199, .predAnd 46 3 1 9), (0x32B881D9, .patomOr 46 3 1 9), (0x32B88199, .predOr 46 3 1 9),
   (0x32B8C1D9, .patomXor 46 3 1 9), (0x32B8C199, .predXor 46 3 1 9), (0x32B901D9, .patomMinI 46 3 1 9),
   (0x32B90199, .predMinI 46 3 1 9), (0x32B941D9, .patomMaxI 46 3 1 9), (0x32B94199, .predMaxI 46 3 1 9),
   (0x32B981D9, .patomMinN 46 3 1 9), (0x32B98199, .predMinN 46 3 1 9), (0x32B9C1D9, .patomMaxN 46 3 1 9),
   (0x32B9C199, .predMaxN 46 3 1 9), (0x32BA01D9, .patomExch 46 3 1 9), (0x32BA0199, .predExch 46 3 1 9),
   (0x32BA41D9, .patomCas 46 3 1 9), (0x32BA81D9, .patomInc 46 3 1 9), (0x32BA8199, .predInc 46 3 1 9),
   (0x32BAC1D9, .patomDec 46 3 1 9), (0x32BAC199, .predDec 46 3 1 9), (0x32BB01C9, .patomFadd 46 3 9),
   (0x32BB0189, .predFadd 46 3 9), (0x32BB41C9, .patomFmax 46 3 9), (0x32BB4189, .predFmax 46 3 9),
   (0x32BB81C9, .patomFmin 46 3 9), (0x32BB8189, .predFmin 46 3 9)]

noncomputable def words1A : List (Nat × Instr) :=
  [(0x34E18009, .barInit 14 3 9), (0x34E07599, .barArrive 14 29 3 9), (0x3591F5A9, .barArrivet 25 3 29 3 9),
   (0x34E18039, .barExpect 14 3 9), (0x34E181C0, .barWait 14 3 3), (0x35918059, .barTest 25 3 9), (0x34E00069, .barDrop 14 9)]

noncomputable def words1B : List (Nat × Instr) :=
  [(0x3601AC00, .qpush 3 11), (0x37902C10, .qpop 25 11), (0x3791AC29, .qtrypush 25 3 11 9), (0x37902C39, .qtrypop 25 11 9)]

noncomputable def words1C : List (Nat × Instr) :=
  [(0x38E18009, .ownGive 14 3 9), (0x38E18010, .ownTake 14 3), (0x39918029, .ownTest 25 3 9)]

noncomputable def words1D : List (Nat × Instr) :=
  [(0x3B918009, .mwatch 25 3 9), (0x3B918010, .mwait 25 3), (0x3AE00020, .sleep 14), (0x3A000039, .mclear 9)]

noncomputable def words1E : List (Nat × Instr) :=
  [(0x3D900260, .mfs 25 38), (0x3CE10440, .mts 14 68), (0x3D920200, .mfsv 25 32), (0x3CE30030, .mtsv 14 3)]

noncomputable def words1F : List (Nat × Instr) :=
  [(0x3E000000, .tret), (0x3E0015A5, .brk 1445), (0x3E072002, .tlane 14 2), (0x3E003000, .tdone), (0x3E004000, .exit)]

noncomputable def words20 : List (Nat × Instr) :=
  [(0x40E1F709, .cpLd 14 3 29 6 9), (0x40E1F719, .cpSt 14 3 29 6 9), (0x40E1F729, .cpLdq 14 3 29 6 9),
   (0x40E07739, .cpFifo 14 29 6 9), (0x40E1F749, .cpMc 14 3 29 6 9)]

noncomputable def words21 : List (Nat × Instr) :=
  [(0x42E00000, .cpGrant 14), (0x43900019, .cpSlots 25 9), (0x43900029, .cpCount 25 9)]

noncomputable def words22 : List (Nat × Instr) :=
  [(0x44E00309, .xpRun 14 6 9)]

noncomputable def words24 : List (Nat × Instr) :=
  [(0x48E00309, .mtask 14 6 9), (0x48E00319, .mdrain 14 6 9), (0x49918029, .mstat 25 3 9)]

noncomputable def words28 : List (Nat × Instr) :=
  [(0x516571B9, .ldAcqB32 89 46 3 3 9)]

noncomputable def words29 : List (Nat × Instr) :=
  [(0x532971B9, .stRelB32 74 46 3 3 9)]

noncomputable def words2A : List (Nat × Instr) :=
  [(0x54000180, .fence 3), (0x54000190, .fenceRel 3), (0x540001A0, .fenceAcq 3), (0x54E18030, .cwbRange 14 3),
   (0x54E18040, .cinvRange 14 3), (0x54E18050, .icinvRange 14 3), (0x55900069, .twinStat 25 9)]

noncomputable def words2B : List (Nat × Instr) :=
  [(0x57918009, .mcas 25 3 9), (0x56E18010, .tlbinv 14 3)]

noncomputable def words2C : List (Nat × Instr) :=
  [(0x5991F409, .swmAlloc 25 3 29 9), (0x5991F419, .swmMap 25 3 29 9), (0x59918029, .swmUnmap 25 3 9),
   (0x59918039, .swmFree 25 3 9)]

noncomputable def words2D : List (Nat × Instr) :=
  [(0x5AE1F709, .fmc 14 3 29 6 9), (0x5AE1F719, .fred 14 3 29 6 9)]

noncomputable def words2E : List (Nat × Instr) :=
  [(0x5CE18309, .fsig 14 3 6 9), (0x5D900019, .fstat 25 9)]

noncomputable def words30 : List (Nat × Instr) :=
  [(0x61918009, .ndLaunch 25 3 9), (0x6191F419, .ndSignal 25 3 29 9), (0x61918029, .ndStat 25 3 9)]

noncomputable def words32 : List (Nat × Instr) :=
  [(0x65918000, .sqBind 25 3), (0x64E00010, .sqUnbind 14), (0x65918020, .sqQuery 25 3), (0x6401F430, .sqImg 3 29)]

noncomputable def words39 : List (Nat × Instr) :=
  [(0x73657635, .dwx 1 89 46 99 5)]

theorem test_decode_scalar : Decodes words01 ∧ Decodes words02 ∧ Decodes words03 ∧ Decodes words04 :=
  ⟨rfl, rfl, rfl, rfl⟩

theorem witness_issue_scalar : words01.all Issues = true ∧ words02.all Issues = true ∧ words03.all Issues = true ∧ words04.all Issues = true := by
  and_intros <;> decide +kernel

theorem test_step_scalar : words01.all Runs = true ∧ words02.all Runs = true ∧ words03.all Runs = true ∧ words04.all Runs = true := by
  and_intros <;> decide +kernel

theorem test_decode_flow : Decodes words06 ∧ Decodes words07 ∧ Decodes words08 ∧ Decodes words09 :=
  ⟨rfl, rfl, rfl, rfl⟩

theorem witness_issue_flow : words06.all Issues = true ∧ words07.all Issues = true ∧ words08.all Issues = true ∧ words09.all Issues = true := by
  and_intros <;> decide +kernel

theorem test_step_flow : words06.all Runs = true ∧ words07.all Runs = true ∧ words08.all Runs = true ∧ words09.all Runs = true := by
  and_intros <;> decide +kernel

theorem test_decode_vector : Decodes words0A ∧ Decodes words0B ∧ Decodes words0C ∧ Decodes words0D ∧ Decodes words0E ∧ Decodes words0F ∧ Decodes words10 ∧ Decodes words11 ∧
    Decodes words12 ∧ Decodes words13 ∧ Decodes words14 :=
  ⟨rfl, rfl, rfl, rfl, rfl, rfl, rfl, rfl, rfl, rfl, rfl⟩

theorem witness_issue_vector : words0A.all Issues = true ∧ words0B.all Issues = true ∧ words0C.all Issues = true ∧ words0D.all Issues = true ∧ words0E.all Issues = true ∧
    words0F.all Issues = true ∧ words10.all Issues = true ∧ (words11.filter (fun x => x.1 % 16 < 8 || 9 < x.1 % 16)).all Issues = true ∧
    words12.all Issues = true ∧ words13.all Issues = true ∧ words14.all Issues = true := by
  and_intros <;> decide +kernel

theorem test_step_vector : words0A.all Runs = true ∧ words0B.all Runs = true ∧ words0C.all Runs = true ∧ words0D.all Runs = true ∧ words0E.all Runs = true ∧
    words0F.all Runs = true ∧ words10.all Runs = true ∧ (words11.filter (fun x => x.1 % 16 < 8 || 9 < x.1 % 16)).all Runs = true ∧
    words12.all Runs = true ∧ words13.all Runs = true ∧ words14.all Runs = true := by
  and_intros <;> decide +kernel

theorem test_decode_memory : Decodes words05 ∧ Decodes words15 ∧ Decodes words16 ∧ Decodes words17 ∧ Decodes words18 ∧ Decodes words19 :=
  ⟨rfl, rfl, rfl, rfl, rfl, rfl⟩

theorem witness_issue_memory : words05.all Issues = true ∧ words15.all Issues = true ∧ words16.all Issues = true ∧ words17.all Issues = true ∧ words18.all Issues = true ∧
    words19.all Issues = true := by
  and_intros <;> decide +kernel

theorem test_step_memory : words05.all Runs = true ∧ words15.all Runs = true ∧ words16.all Runs = true ∧ words17.all Runs = true ∧ words18.all Runs = true ∧
    words19.all Runs = true := by
  and_intros <;> decide +kernel

theorem test_decode_objects : Decodes words1A ∧ Decodes words1B ∧ Decodes words1C ∧ Decodes words1D ∧ Decodes words1E ∧ Decodes words1F :=
  ⟨rfl, rfl, rfl, rfl, rfl, rfl⟩

theorem witness_issue_objects : words1A.all Issues = true ∧ words1B.all Issues = true ∧ words1C.all Issues = true ∧ words1D.all Issues = true ∧ words1E.all Issues = true ∧
    words1F.all Issues = true := by
  and_intros <;> decide +kernel

theorem test_step_objects : words1A.all Runs = true ∧ words1B.all Runs = true ∧ words1C.all Runs = true ∧ words1D.all Runs = true ∧ words1E.all Runs = true ∧
    words1F.all Runs = true := by
  and_intros <;> decide +kernel

theorem test_decode_engines : Decodes words20 ∧ Decodes words21 ∧ Decodes words22 ∧ Decodes words24 ∧ Decodes words28 ∧ Decodes words29 ∧ Decodes words2A ∧ Decodes words2B ∧
    Decodes words2C ∧ Decodes words2D ∧ Decodes words2E ∧ Decodes words30 ∧ Decodes words32 := by
  and_intros <;> rfl

theorem witness_issue_engines : words20.all Issues = true ∧ words21.all Issues = true ∧ words22.all Issues = true ∧ words24.all Issues = true ∧ words28.all Issues = true ∧
    words29.all Issues = true ∧ words2A.all Issues = true ∧ words2B.all Issues = true ∧ words2C.all Issues = true ∧ words2D.all Issues = true ∧
    words2E.all Issues = true ∧ words30.all Issues = true ∧ words32.all Issues = true := by
  and_intros <;> decide +kernel

theorem test_step_engines : words20.all Runs = true ∧ words21.all Runs = true ∧ words22.all Runs = true ∧ words24.all Runs = true ∧ words28.all Runs = true ∧
    words29.all Runs = true ∧ words2A.all Runs = true ∧ words2B.all Runs = true ∧ words2C.all Runs = true ∧ words2D.all Runs = true ∧
    words2E.all Runs = true ∧ words30.all Runs = true ∧ words32.all Runs = true := by
  and_intros <;> decide +kernel

theorem test_decode_sequences : Decodes words39 :=
  rfl

theorem witness_issue_sequences : words39.all Issues = true :=
  by decide

theorem test_step_sequences : words39.all Runs = true :=
  by decide

/-! ## States that meet the hypotheses of the statements -/

/-- A gang of one crew at its first word, on a core with every engine but the stream ones. -/
def base : State := placed 0x02000000

def withR (f : Regs → Regs) (s : State) : State := s.setR f
def withS (l : List (Nat × Dword)) (s : State) : State := s.setR fun r => l.foldl (fun r x => r.setS x.1 x.2) r
def withV (n : Nat) (x : Word) (s : State) : State := s.setR fun r => r.setV n (Lanes.all x)
def masked (m : Word) (s : State) : State := s.setR fun r => { r with emask := m }

/-- The crew, the node and the core of `base`. -/
def crew1 : Crew := loadCrew State.reset 0
def handler (s : State) : State := s.setG fun g => { g with handler := some (causeOf 16 1) }

/-- FP32, 4 elements at the code page, readable and writable, filled with zero. -/
def fp32Record : BitVec 320 := 0x1c00000000000000000000000000000000000000600000000000000001c0000000000000010000

/-- The record behind identifier 5, and so behind slot 5. -/
def withRecord (s : State) : State := s.setCore s.g.coreIx fun K => { K with tables := [(s.g.node, [0, 0, 0, 0, 0, fp32Record])] }

theorem witness_ScalarArithmeticAndImmediates : MayIssue .nop base = true ∧
    (∀ x ∈ [((0 : Dword), 64), (1, 63), (0x8000000000000000, 0)], x.2 ≤ 64 ∧ (∀ k ∈ List.range 64, 64 - x.2 ≤ k → x.1.getLsbD k = false) ∧ (x.2 < 64 → x.1.getLsbD (63 - x.2) = true)) ∧
    (∀ x ∈ [((0 : Dword), 64), (1, 0), (0x8000000000000000, 63)], x.2 ≤ 64 ∧ (∀ k ∈ List.range x.2, x.1.getLsbD k = false) ∧ (x.2 < 64 → x.1.getLsbD x.2 = true)) ∧
    ((List.range 64).filter fun k => (0xFFFFFFFFFFFFFFFF : Dword).getLsbD k).length = 64 ∧
    (∀ x ∈ [(0, (0xFFFFFFFFFFFF1234 : Dword)), (16, 0xFFFFFFFF1234FFFF), (32, 0xFFFF1234FFFFFFFF), (48, 0x1234FFFFFFFFFFFF)], ∀ j ∈ List.range 64,
      x.2.getLsbD j = if x.1 ≤ j ∧ j < x.1 + 16 then (0x1234 : Half).getLsbD (j - x.1) else (0xFFFFFFFFFFFFFFFF : Dword).getLsbD j) := by decide +kernel

theorem witness_ScalarDivision : MayIssue (.sdivI64 1 2 3) base = true ∧ base.src.sreg 3 = 0 ∧
    (withS [(2, 0x8000000000000000), (3, 0xFFFFFFFFFFFFFFFF)] base).src.sreg 2 = BitVec.intMin 64 ∧ (withS [(3, 0xFFFFFFFFFFFFFFFF)] base).src.sreg 3 = BitVec.allOnes 64 ∧
    (withS [(2, 7), (3, 2)] base).src.sreg 3 ≠ 0 := by decide

theorem witness_ScalarComparesAndPredicates : MayIssue (.seq 1 2 3) base = true ∧ MayIssue (.pand 1 2 3) base = true ∧
    (∀ x ∈ [((0 : Word), 32), (1, 0), (0x80000000, 31)], x.2 ≤ 32 ∧ (∀ k ∈ List.range x.2, x.1.getLsbD k = false) ∧ (x.2 < 32 → x.1.getLsbD x.2 = true)) := by decide

theorem witness_VectorIntegerWords : MayIssue (.vaddI32 127 0 1) base = true ∧ MayIssue (.vavgN32 1 2 3) base = true ∧
    MayIssue (.vaddI32 1 2 3) (base.setG fun g => { g with blockMode := true }) = true := by decide

theorem witness_VectorPackedInteger : MayIssue (.vpermB8 1 2 3) base = true ∧ ∃ op : LaneOp, ∀ q L x y z r, (op q L x y z r).2 = 0 ∧ ∀ k < 4, byteOf (op q L x y z r).1 k =
      if (byteOf z k).getLsbD 7 then 0 else if (byteOf z k).toNat % 8 < 4 then byteOf x ((byteOf z k).toNat % 8) else byteOf y ((byteOf z k).toNat % 8 - 4) := by
  refine ⟨by decide, fun _ _ x y z _ =>
    (let b (k : Nat) : Byte := if (byteOf z k).getLsbD 7 then 0 else if (byteOf z k).toNat % 8 < 4 then byteOf x ((byteOf z k).toNat % 8) else byteOf y ((byteOf z k).toNat % 8 - 4); ((b 3).setWidth 32 <<< 24 ||| (b 2).setWidth 32 <<< 16 ||| (b 1).setWidth 32 <<< 8 ||| (b 0).setWidth 32 : Word), 0), fun q L x y z r => ⟨rfl, fun k hk => ?_⟩⟩
  have : ∀ (b3 b2 b1 b0 : Byte), byteOf (b3.setWidth 32 <<< 24 ||| b2.setWidth 32 <<< 16 ||| b1.setWidth 32 <<< 8 ||| b0.setWidth 32 : Word) 0 = b0 ∧ byteOf (b3.setWidth 32 <<< 24 ||| b2.setWidth 32 <<< 16 ||| b1.setWidth 32 <<< 8 ||| b0.setWidth 32 : Word) 1 = b1 ∧ byteOf (b3.setWidth 32 <<< 24 ||| b2.setWidth 32 <<< 16 ||| b1.setWidth 32 <<< 8 ||| b0.setWidth 32 : Word) 2 = b2 ∧
      byteOf (b3.setWidth 32 <<< 24 ||| b2.setWidth 32 <<< 16 ||| b1.setWidth 32 <<< 8 ||| b0.setWidth 32 : Word) 3 = b3 := by
    intro b3 b2 b1 b0
    refine ⟨?_, ?_, ?_, ?_⟩ <;> (ext i hi; simp [byteOf]; (try interval_cases i) <;> simp)
  have h := this
  match k, hk with
  | 0, _ => exact (h _ _ _ _).1
  | 1, _ => exact (h _ _ _ _).2.1
  | 2, _ => exact (h _ _ _ _).2.2.1
  | 3, _ => exact (h _ _ _ _).2.2.2

theorem witness_VectorFloat : MayIssue (.vfmaF32 1 2 3) base = true ∧ MayIssue (.vclassF32 1 2) base = true := by decide

theorem witness_TranscendentalWords : MayIssue (.vexp2ApxF32 1 2 0) base = true ∧ isNan32 0x7FC00001 = true ∧ (0x43000000 ≤ (0x43000000 : Word).toNat ∧ (0x43000000 : Word).toNat < 0x7F800000) ∧
    (0xC3160000 < (0xC3160001 : Word).toNat ∧ (0xC3160001 : Word).toNat < 0xFF800000) ∧ (0x80000000 < (0xFF800000 : Word).toNat ∧ (0xFF800000 : Word).toNat ≤ 0xFF800000) := by decide

theorem witness_VectorPackedFloat : MayIssue (.vdot2F32Bf16 1 2 3) base = true ∧ MayIssue (.vdot2F32F16 1 2 3) base = true := by decide

theorem witness_VectorConversions : MayIssue (.vcvtF32I32 1 2 4) base = true ∧ MayIssue (.vcvtNfF32 1 2 4 5) (withRecord base) = true ∧ MayIssue (.vcvtF32Nf 1 2 0 5) (withRecord base) = true ∧
    (convFormat (recordOf (withRecord base) (slotIdent (withRecord base).src 5))).isSome = true := by decide +kernel

theorem witness_FloatToInteger : isNan32 0xFFFFFFFF = true ∧ f32 0x4F000000 = .fin false 8388608 8 ∧ (0 < 1 ∧ 1 < 2 ^ 1) := by decide

theorem witness_VectorCompares : MayIssue (.vcmpEqB32 1 2 3) base = true ∧ isNan32 0x7FC00000 = true ∧ (isNan32 0 = false ∧ isNan32 0x80000001 = false ∧ (0x80000001 : Word) &&& 0x7FFFFFFF ≠ 0) := by decide

theorem witness_CrossLaneReductionsAndScans : MayIssue (.vmatchB32 1 2) base = true ∧ MayIssue (.vredMaxI32 1 2) base = true ∧ MayIssue (.vredMinI32 1 2) (masked 0 base) = true ∧
    (masked 0 base).src.emask = 0 ∧ MayIssue (.vredAddF32 1 2) base = true ∧ base.src.emask ≠ 0 ∧ activeValues base.src.emask (base.src.vreg 2) ≠ [] ∧
    (0 : Word) ∈ activeValues base.src.emask (base.src.vreg 2) ∧ (∀ y ∈ activeValues base.src.emask (base.src.vreg 2), y.toInt = (0 : Word).toInt) ∧
    (∀ L M : Fin 32, (0xFFFFFFFF : Word).getLsbD M = (lane base.src.emask M && decide ((base.src.vreg 2)[M] = (base.src.vreg 2)[L]))) := by
  have h : base.src.emask = 0xFFFFFFFF := rfl
  have k : base.src.vreg 2 = Lanes.all 0 := rfl
  have a : activeValues base.src.emask (base.src.vreg 2) = List.replicate 32 0 := by rw [h, k]; rfl
  refine ⟨by decide, by decide, by decide, by decide, by decide, by rw [h]; decide, by rw [a]; decide, by rw [a]; decide, fun y hy => ?_, fun L M => ?_⟩
  · rw [a] at hy
    rw [List.eq_of_mem_replicate hy]
  · rw [h, k]
    simp only [Lanes.all_get]
    revert M
    decide

theorem witness_SelectBroadcastMove : MayIssue (.vsel 1 2 3 4) base = true ∧ MayIssue (.vins 1 2 31) base = true := by decide

theorem witness_BranchesCallsLoops : MayIssue (.br 1) base = true ∧ MayIssue .ret base = true ∧ MayIssue (.dbnz 7 0xFFFFF) base = true ∧ MayIssue (.bz 0 2) base = true := by decide

theorem witness_PredicatedBranches : MayIssue (.bany 1 2) base = true ∧ MayIssue (.ball 0 2) base = true ∧ MayIssue (.bnone 7 2) base = true ∧ MayIssue (.bnall 1 2) base = true := by decide

/-- A divergence stack of 16 entries. -/
def deep : State := base.setR fun r => { r with dstack := List.replicate 16 0xFFFFFFFF0000FFFF }

theorem witness_DivergenceWords : MayIssue (.split 1 2) deep = true ∧ deep.src.dstack.length = 16 ∧ MayIssue (.split 1 2) base = true ∧ base.src.dstack.length ≠ 16 ∧
    MayIssue (.elseArm 2) base = true ∧ base.src.dstack = [] ∧ MayIssue .join base = true ∧ MayIssue (.elseArm 2) deep = true ∧ MayIssue .join deep = true ∧
    deep.src.dstack = ((0xFFFFFFFF : Word) ++ (0x0000FFFF : Word) : Dword) :: List.replicate 15 0xFFFFFFFF0000FFFF := by decide

theorem witness_MaskWords : MayIssue (.mand 1) base = true ∧ MayIssue (.mandn 1) base = true ∧ MayIssue (.dspop 3) base = true ∧ base.src.dstack = [] ∧ MayIssue (.dspop 3) deep = true ∧
    deep.src.dstack = 0xFFFFFFFF0000FFFF :: List.replicate 15 0xFFFFFFFF0000FFFF ∧ MayIssue (.dspush 3) deep = true ∧ MayIssue (.dspush 3) base = true ∧ MayIssue (.dsdepth 3) base = true := by decide

theorem witness_SpecialRegisterMoves :
    [(0x000 : BitVec 12), 0x001, 0x002, 0x004, 0x005, 0x010, 0x017, 0x021, 0x022, 0x023, 0x024, 0x025, 0x026, 0x027, 0x028, 0x040, 0x041, 0x042,
      0x043, 0x044, 0x045, 0x046, 0x048, 0x04B].all (fun x => MayIssue (.mfs 3 x) base) = true ∧
    [(0x003 : BitVec 12), 0x020].all (fun x => MayIssue (.mfsv 3 x) base) = true ∧
    [(0x000 : BitVec 12), 0x001, 0x002, 0x010, 0x011, 0x017, 0x040, 0x041, 0x042, 0x043, 0x044, 0x045, 0x046, 0x048,
      0x04B].all (fun x => MayIssue (.mts 3 x) base) = true ∧
    MayIssue (.mtsv 3 0x003) base = true := by decide +kernel

/-! ### Words of the operand log -/

/-- Nothing stands in front of the access, and entry 0 is free for it. -/
def ClearAt (s : State) (a : Access) : Bool :=
  decide (s.g.freeEntry = some 0) && !overlapsParked s a && !overlapsFlight s a && !s.g.flies MemKind.holdsMemory && !(a.op.kind.writes && s.g.flies MemKind.fences)

/-- The hypotheses of `LogRun` hold, with a lane at work. -/
def LogRunMeets (i : Instr) (a : Access) (f : Blocks → Fin 32 → State → Option State) (s : State) : Bool :=
  match fetchBlocks (gangRead [] s.agent) (a.tensorBase s) (a.blocksOf a.active s) ⟨[], []⟩ { s with nextId := s.nextId + 1 } with
  | (k, v) => MayIssue i s && !s.inFlight && ClearAt s a && (a.recordFault a.active s).isNone && a.active != 0 &&
      ((laneList a.active).foldlM (fun s L => f k L s) v).isSome

/-- The hypotheses of `LogWord` hold. -/
def LogMeets (i : Instr) (a : Access) (f : Fin 32 → State → Option State) (s : State) : Bool := LogRunMeets i a (fun _ => f) s

/-- One lane, whose address is in the code page, or the element 3 of the record. -/
def mem1 : State := masked 1 (withS [(2, 0x10000), (3, 0x10), (4, 3)] base)
def rec1 : State := withRecord mem1

theorem witness_UniformAndVectorLoadsAndStores :
    LogMeets (.sldB64 1 2 3 0) (capUniform (mopUniform (.load false) 8 0 1) 2 3 0 mem1) (fun _ => loadLane 0x10010 8 (putS 1)) mem1 = true ∧
    LogMeets (.sldN32 1 2 3 0) (capUniform (mopUniform (.load false) 4 0 1) 2 3 0 mem1) (fun _ => loadLane 0x10010 4 (putS 1)) mem1 = true ∧
    LogMeets (.sstB32 1 2 3 0) (capUniform (mopUniform .store 4 0 0) 2 3 1 mem1) (fun _ => storeLane 0x10010 4 0) mem1 = true ∧
    LogMeets (.sldI32 1 2 3 0) (capUniform (mopUniform (.load true) 4 0 1) 2 3 0 mem1) (fun _ => loadLane 0x10010 4 (putSx 1)) mem1 = true ∧
    LogMeets (.sstB64 1 2 3 0) (capUniform (mopUniform .store 8 0 0) 2 3 1 mem1) (fun _ => storeLane 0x10010 8 0) mem1 = true ∧
    LogMeets (.ldB32 1 5 2 0) (capVector (mop (.load false) 4 0 1) 5 2 [] mem1) (fun L => loadLane (laneAddr mem1 5 2 L) 4 (put32 1 L)) mem1 = true ∧
    LogMeets (.stB32 1 5 2 0) (capVector (mop .store 4 0 0) 5 2 [1] mem1) (fun L => storeLane (laneAddr mem1 5 2 L) 4 (mem1.src.vreg 1)[L].toNat) mem1 = true := by decide +kernel

theorem witness_UniformAndVectorRecords : (recordFields (recordOf rec1 (slotIdent rec1.src 5))).any (fun R =>
    LogRunMeets (.sldNf 1 0 4 5 0) (capUniform (mopUniform (.load false) 4 5 1) 0 4 0 rec1) (fun k _ => elemLoadLane R k 3 (putS 1)) rec1 &&
    LogMeets (.sstNf 1 0 4 5 0) (capUniform (mopUniform .store 4 5 0) 0 4 1 rec1) (fun _ => elemStoreLane R 3 0) rec1 &&
    LogRunMeets (.ldNf 1 5 4 5 0) (capVector (mop (.load false) 4 5 1) 5 4 [] rec1) (fun k L => elemLoadLane R k (laneAddr rec1 5 4 L) (put32 1 L)) rec1 &&
    LogMeets (.stNf 1 5 4 5 0) (capVector (mop .store 4 5 0) 5 4 [1] rec1) (fun L => elemStoreLane R (laneAddr rec1 5 4 L) 0) rec1) = true := by decide +kernel

/-- The last word of the crew's allocation, in every lane. -/
def pad1 : State := withV 5 0x3FFC (withRecord base)
def pad8 : State := withV 5 0x3FF8 base

theorem witness_ScratchpadLoadsStoresAndTransposes :
    LogMeets (.pldB32 1 5 0) (capVector (mopWindow (.load false) 4 0 1) 5 0 [] pad1) (fun L => padLoadLane (pad1.src.vreg 5)[L].toNat 4 (put32 1 L)) pad1 = true ∧
    LogMeets (.pldB64 1 5 0) (capVector (mopWindow (.load false) 8 0 1) 5 0 [] pad8) (fun L => padLoadLane (pad8.src.vreg 5)[L].toNat 8 (put64 1 L)) pad8 = true ∧
    LogMeets (.pstB32 1 5 0) (capVector (mopWindow .store 4 0 0) 5 0 [1] pad1) (fun L => padStoreLane (pad1.src.vreg 5)[L].toNat 4 1) pad1 = true ∧
    LogMeets (.pstB64 1 5 0) (capVector (mopWindow .store 8 0 0) 5 0 (run 1 2) pad8) (fun L => padStoreLane (pad8.src.vreg 5)[L].toNat 8 1) pad8 = true ∧
    (recordFields (recordOf pad1 (slotIdent pad1.src 5))).any (fun R =>
      LogMeets (.pldNf 1 5 5 0) (capVector (mopWindow (.load false) 4 5 1) 5 0 [] pad1) (fun L => padLoadLane (swizzle R.swz (pad1.src.vreg 5)[L].toNat) R.cbytes (fun x s => put32 1 L (padElem R x).1 s)) pad1 &&
      LogMeets (.pstNf 1 5 5 0) (capVector (mopWindow .store 4 5 0) 5 0 [1] pad1) (fun L => padStoreLane (swizzle R.swz (pad1.src.vreg 5)[L].toNat) R.cbytes 0) pad1) = true := by decide +kernel

/-- Rows of `ldtr` at address 0, and the last row of the allocation, of elements of 4 bytes. -/
theorem witness_ldtr : MayIssue (.ldtrB8 1 5 0 0) base = true ∧ MayIssue (.ldtrB16 1 5 0 0) base = true ∧ MayIssue (.ldtrB32 124 5 0 0) base = true ∧ base.inFlight = false ∧
    base.src.emask ≠ 0 ∧ ClearAt base (capVector (mopWindow (.ldtr 4) 4 0 124) 5 0 [] base) = true ∧
    base.src.vreg 5 = Lanes.all 0 ∧ (∀ x ∈ [0, 0x3FF0], x % 16 = 0 ∧ spadKey base x = .ok x) := by decide

theorem pad1_lane (L : Fin 32) : (pad1.src.vreg 5)[L] = 0x3FFC := by
  have h : pad1.src.vreg 5 = Lanes.all 0x3FFC := by decide +kernel
  rw [h]; exact Lanes.all_get _ _

theorem pad8_lane (L : Fin 32) : (pad8.src.vreg 5)[L] = 0x3FF8 := by
  have h : pad8.src.vreg 5 = Lanes.all 0x3FF8 := by decide +kernel
  rw [h]; exact Lanes.all_get _ _

theorem witness_ScratchpadFrame : pad1.memOk ∧ pad1.inFlight = false ∧ pad1.g.freeEntry = some 0 ∧ (pad1.g.log.toList.all fun x => x.state = .free) = true ∧
    (∀ L : Fin 32, (pad1.src.vreg 5)[L].toNat % 4 = 0 ∧ (spadKey pad1 (pad1.src.vreg 5)[L].toNat).isOk = true) ∧ MayIssue (.pstB32 1 5 0) pad1 = true ∧ MayIssue (.pldB32 1 5 0) pad1 = true ∧
    (∀ L : Fin 32, (pad8.src.vreg 5)[L].toNat % 8 = 0 ∧ (spadKey pad8 (pad8.src.vreg 5)[L].toNat).isOk = true) ∧ MayIssue (.pstB64 1 5 0) pad8 = true ∧ MayIssue (.pldB64 1 5 0) pad8 = true :=
  ⟨⟨by decide, by decide⟩, by decide, by decide, by decide, fun L => by rw [pad1_lane]; decide, by decide, by decide, fun L => by rw [pad8_lane]; decide, by decide, by decide⟩
/-- Every operation, width, scope and point: the lanes of an atomic succeed at the last place a run of registers may have. -/
theorem witness_AtomicsAndReductions_add : (List.range 7).all (fun sc => [0, 1].all fun w => [true, false].all fun ret =>
    LogMeets (if ret then .atomAdd 8 (BitVec.ofNat 3 sc) 2 (BitVec.ofNat 2 w) 0 else .redAdd 8 (BitVec.ofNat 3 sc) 2 (BitVec.ofNat 2 w) 0) (capAtomic false 0 ret w sc 8 2 mem1)
      (fun L => atomLane (scopeOf sc) ret 0 (runValue mem1 w 9 L) (laneAddr mem1 8 2 L) (widthOf w) (fun o => newAdd (widthOf w) o 1) (putW w 9 L)) mem1) = true := by decide +kernel

theorem witness_AtomicsAndReductions_others :
    [(1, Instr.atomAnd 125 4 2 1 0), (2, .atomOr 125 4 2 1 0), (3, .atomXor 125 4 2 1 0), (4, .atomMinI 125 4 2 1 0), (5, .atomMaxI 125 4 2 1 0), (6, .atomMinN 125 4 2 1 0), (7, .atomMaxN 125 4 2 1 0),
      (8, .atomExch 125 4 2 1 0), (10, .atomInc 125 4 2 1 0), (11, .atomDec 125 4 2 1 0)].all (fun x => LogMeets x.2 (capAtomic false x.1 true 1 4 125 2 mem1)
      (fun L => atomLane .dev true x.1 (runValue mem1 1 126 L) (laneAddr mem1 125 2 L) 8 (fun o => o) (putW 1 126 L)) mem1) = true ∧
    [(1, Instr.redAnd 125 4 2 1 0), (2, .redOr 125 4 2 1 0), (3, .redXor 125 4 2 1 0), (4, .redMinI 125 4 2 1 0), (5, .redMaxI 125 4 2 1 0), (6, .redMinN 125 4 2 1 0), (7, .redMaxN 125 4 2 1 0),
      (8, .redExch 125 4 2 1 0), (10, .redInc 125 4 2 1 0), (11, .redDec 125 4 2 1 0)].all (fun x => LogMeets x.2 (capAtomic false x.1 false 1 4 125 2 mem1)
      (fun L => atomLane .dev false x.1 (runValue mem1 1 126 L) (laneAddr mem1 125 2 L) 8 (fun o => o) (putW 1 126 L)) mem1) = true ∧
    LogMeets (.atomCas 123 4 2 1 0) (capAtomic false 9 true 1 4 123 2 mem1) (fun L => atomLane .dev true 9 0 (laneAddr mem1 123 2 L) 8 (fun o => o) (putW 1 124 L)) mem1 = true ∧
    [(12, Instr.atomFadd 126 4 2 0), (13, .atomFmax 126 4 2 0), (14, .atomFmin 126 4 2 0)].all (fun x => LogMeets x.2 (capAtomic false x.1 true 0 4 126 2 mem1)
      (fun L => atomLane .dev true x.1 0 (laneAddr mem1 126 2 L) 4 (fun o => o) (put32 127 L)) mem1) = true ∧
    [(12, Instr.redFadd 126 4 2 0), (13, .redFmax 126 4 2 0), (14, .redFmin 126 4 2 0)].all (fun x => LogMeets x.2 (capAtomic false x.1 false 0 4 126 2 mem1)
      (fun L => atomLane .dev false x.1 0 (laneAddr mem1 126 2 L) 4 (fun o => o) (put32 127 L)) mem1) = true := by decide +kernel

/-- One lane; the last 8 bytes of the crew's allocation. -/
def pad2 : State := masked 1 (withS [(2, 0x3FF8)] base)

theorem witness_AtomicsAndReductions_scratchpad :
    [(0, Instr.patomAdd 125 2 1 0), (1, .patomAnd 125 2 1 0), (2, .patomOr 125 2 1 0), (3, .patomXor 125 2 1 0), (4, .patomMinI 125 2 1 0), (5, .patomMaxI 125 2 1 0), (6, .patomMinN 125 2 1 0),
      (7, .patomMaxN 125 2 1 0), (8, .patomExch 125 2 1 0), (10, .patomInc 125 2 1 0), (11, .patomDec 125 2 1 0)].all (fun x => LogMeets x.2 (capAtomic true x.1 true 1 0 125 2 pad2)
      (fun L => padAtomLane true (laneAddr pad2 125 2 L) 8 (fun o => o) (putW 1 126 L)) pad2) = true ∧
    [(0, Instr.predAdd 125 2 1 0), (1, .predAnd 125 2 1 0), (2, .predOr 125 2 1 0), (3, .predXor 125 2 1 0), (4, .predMinI 125 2 1 0), (5, .predMaxI 125 2 1 0), (6, .predMinN 125 2 1 0),
      (7, .predMaxN 125 2 1 0), (8, .predExch 125 2 1 0), (10, .predInc 125 2 1 0), (11, .predDec 125 2 1 0)].all (fun x => LogMeets x.2 (capAtomic true x.1 false 1 0 125 2 pad2)
      (fun L => padAtomLane false (laneAddr pad2 125 2 L) 8 (fun o => o) (putW 1 126 L)) pad2) = true ∧
    LogMeets (.patomCas 123 2 1 0) (capAtomic true 9 true 1 0 123 2 pad2) (fun L => padAtomLane true (laneAddr pad2 123 2 L) 8 (fun o => o) (putW 1 124 L)) pad2 = true ∧
    [(12, Instr.patomFadd 126 2 0), (13, .patomFmax 126 2 0), (14, .patomFmin 126 2 0)].all (fun x => LogMeets x.2 (capAtomic true x.1 true 0 0 126 2 pad2)
      (fun L => padAtomLane true (laneAddr pad2 126 2 L) 4 (fun o => o) (put32 127 L)) pad2) = true ∧
    [(12, Instr.predFadd 126 2 0), (13, .predFmax 126 2 0), (14, .predFmin 126 2 0)].all (fun x => LogMeets x.2 (capAtomic true x.1 false 0 0 126 2 pad2)
      (fun L => padAtomLane false (laneAddr pad2 126 2 L) 4 (fun o => o) (put32 127 L)) pad2) = true := by decide +kernel

/-! ### Objects -/

/-- A barrier object at address 0x40, with its fields: phase, participants, arrivals pending, sectors pending, waiting. -/
def bar (phase parts pend sectors waiting : Nat) (s : State) : State :=
  setBarrier 0x40 (phase + parts * 2 ^ 4 + pend * 2 ^ 16 + sectors * 2 ^ 28 + waiting * 2 ^ 64) (withS [(2, 0x40)] s)

/-- The release of the word is complete at once. -/
def releases (sc : Scope) (s : State) : Bool := !s.g.opens && (releaseBegin sc [] s).1.isEmpty

theorem witness_BarrierWordsAndPhases : (∀ s ∈ [bar 0 2 2 0 0 base, bar 15 2 1 0 0 base], (s.src.sreg 2).toNat = 0x40 ∧ spadKey s 0x40 = .ok 0x40 ∧ s.g.arriving = []) ∧
    MayIssue (.barInit 2 3 0) (withS [(3, 1)] (bar 0 2 2 0 0 base)) = true ∧ MayIssue (.barInit 2 3 0) (withS [(3, 4095)] (bar 0 2 2 0 0 base)) = true ∧
    bits (barrierAt (bar 0 2 2 0 0 base) 0x40) 79 64 = 0 ∧ MayIssue (.barArrive 2 3 1 0) (bar 0 2 1 0 0 base) = true ∧ releases .crew (bar 0 2 1 0 0 base) = true ∧
    bits (barrierAt (releaseBegin .crew [] (bar 0 2 1 0 0 base)).2 0x40) 27 16 = 1 ∧ releases .dev (bar 0 2 1 0 0 base) = true ∧
    sectorsFit (sectorsOf (barrierAt (bar 0 2 1 0 0 base) 0x40) + 134217727) = true ∧ MayIssue (.barArrivet 5 2 3 4 0) (bar 0 2 1 0 0 base) = true ∧
    MayIssue (.barExpect 2 3 0) (bar 0 2 1 0 0 base) = true ∧ MayIssue (.barWait 2 3 1) (bar 1 2 1 0 0 base) = true ∧ bits (barrierAt (bar 1 2 1 0 0 base) 0x40) 0 0 ≠ 0 % 2 ∧
    (acquireAt base.g.coreIx base.straddles .crew [] base).isSome = true ∧ bits (barrierAt (bar 0 2 1 0 0 base) 0x40) 0 0 = 0 % 2 ∧ MayIssue (.barTest 5 2 0) (bar 1 2 1 0 0 base) = true ∧
    MayIssue (.barDrop 2 0) (bar 0 2 1 0 0 base) = true ∧ 2 ≤ bits (barrierAt (bar 0 2 1 0 0 base) 0x40) 15 4 := by decide

theorem witness_BarrierPhases : (bar 15 2 0 0 1 base).memOk ∧ (bits (barrierAt (bar 15 2 0 0 1 base) 0x40) 27 16 = 0 ∧ bits (barrierAt (bar 15 2 0 0 1 base) 0x40) 55 28 = 0) ∧
    ¬(bits (barrierAt (bar 15 2 1 0 1 base) 0x40) 27 16 = 0 ∧ bits (barrierAt (bar 15 2 1 0 1 base) 0x40) 55 28 = 0) := by
  unfold State.memOk
  decide

theorem witness_BarrierTraps : (withS [(3, 0)] (bar 0 2 2 0 0 base)).src.sreg 3 = 0 ∧ 4095 < ((withS [(3, 4096)] (bar 0 2 2 0 0 base)).src.sreg 3).toNat ∧
    bits (barrierAt (bar 0 2 2 0 1 base) 0x40) 79 64 ≠ 0 ∧ bits (barrierAt (bar 0 1 1 0 0 base) 0x40) 15 4 = 1 ∧ (2 ≤ bits (barrierAt (bar 0 2 0 0 0 base) 0x40) 15 4 ∧
    bits (barrierAt (bar 0 2 0 0 0 base) 0x40) 27 16 = 0) ∧ ¬(-2 ^ 27 ≤ sectorsOf (barrierAt (bar 0 2 1 134217727 0 base) 0x40) + 1 ∧ sectorsOf (barrierAt (bar 0 2 1 134217727 0 base) 0x40) + 1 ≤ 2 ^ 27 - 1) ∧
    ¬(-2 ^ 27 ≤ sectorsOf (barrierAt (bar 0 2 1 134217728 0 base) 0x40) + -1 ∧ sectorsOf (barrierAt (bar 0 2 1 134217728 0 base) 0x40) + -1 ≤ 2 ^ 27 - 1) ∧
    releases .crew (bar 0 2 0 0 0 base) = true ∧ bits (barrierAt (releaseBegin .crew [] (bar 0 2 0 0 0 base)).2 0x40) 27 16 = 0 ∧ MayIssue (.barArrive 2 3 1 0) (bar 0 2 0 0 0 base) = true ∧
    MayIssue (.barArrivet 5 2 3 1 0) (bar 0 2 0 0 0 base) = true ∧ MayIssue (.barDrop 2 0) (bar 0 1 1 0 0 base) = true ∧ MayIssue (.barExpect 2 3 0) (bar 0 2 1 134217727 0 base) = true := by decide

/-- A ring of two entries at offset 0x100, declared as queue 3 of the node: its slots, head, tail, free and filled counts. -/
def ring (head tail free filled : Nat) (s : State) : State :=
  { s with nodes := s.nodes.map fun n => { n with desc := { n.desc with queues := [0, 0, 0, BitVec.ofNat 32 (0x100 + 2 * 2 ^ 20)] } }
           spad := s.spad.write 0x100 [2, BitVec.ofNat 8 head, BitVec.ofNat 8 tail, 0, BitVec.ofNat 8 free, 0, BitVec.ofNat 8 filled, 0] }

def RingMeets (s : State) : Bool :=
  match s.myCrew with
  | some c => bits (queueDecl s s.g.node 3) 26 20 != 0 && ((List.range (16 + 4 * bits (queueDecl s s.g.node 3) 26 20)).all fun k => !c.engineOwned (bits (queueDecl s s.g.node 3) 19 0 + k)) &&
      ringOk c 3 (ringAt s (c.key (bits (queueDecl s s.g.node 3) 19 0)))
  | none => false

theorem witness_QueueWordsAndRings : (∀ s ∈ [ring 0 0 2 0 base, ring 1 1 0 2 base, ring 0 1 1 1 base], RingMeets s = true ∧ releases .crew s = true ∧
      MayIssue (.qpush 2 3) s = true ∧ MayIssue (.qtrypush 5 2 3 0) s = true ∧ MayIssue (.qpop 5 3) s = true ∧ MayIssue (.qtrypop 5 3 0) s = true) ∧
    (ringAt (ring 0 0 2 0 base) 0x100).free ≠ 0 ∧ (ringAt (ring 0 0 2 0 base) 0x100).filled = 0 ∧ (ringAt (ring 1 1 0 2 base) 0x100).free = 0 ∧ (ringAt (ring 1 1 0 2 base) 0x100).filled ≠ 0 ∧
    (acquireAt base.g.coreIx base.straddles .crew [] (ring 1 1 0 2 base)).isSome = true ∧ (ring 0 1 1 1 base).crew? crew1.uid = some crew1 ∧ crew1.pending 3 = [] ∧
    ringOk crew1 3 (ringAt (ring 0 1 1 1 base) 0x100) = true ∧ (ring 0 1 1 1 base).spad.wf = true ∧ (ring 0 1 1 1 base).mem.wf = true := by decide

/-- The crew with tiles owned by engines. -/
def tiled (l : List (Nat × List Nat)) (s : State) : State := s.setCrew crew1.uid fun c => { c with tiles := l }

theorem witness_OwnershipWords : base.myCrew = some crew1 ∧ (0x3000 % 4096 = 0 ∧ 0x3000 < 2 ^ 20 ∧ crew1.offset ≤ 0x3000 ∧ 0x3000 + 4096 * 1 ≤ crew1.offset + crew1.size) ∧
    (4096 * 4 ≤ crew1.offset + crew1.size) ∧ ([3].any crew1.tileOwned) = false ∧ base.g.opens = false ∧ base.g.arriving = [] ∧ MayIssue (.ownGive 2 3 0) base = true ∧
    ([3].any { crew1 with tiles := [(3, [])] }.tileOwned) = true ∧ MayIssue (.ownTake 2 3) (tiled [(3, []), (2, [])] base) = true ∧ (3, [7]) ∈ [((3 : Nat), [(7 : Nat)])] ∧
    MayIssue (.ownTake 2 3) (tiled [(3, [7])] base) = true ∧ MayIssue (.ownTest 5 2 0) base = true ∧
    ((withS [(2, 0x3001)] base).src.sreg 2).toNat % 4096 ≠ 0 := by decide

/-! ### Waits and accesses left in flight -/

def armed (v : Nat) (w : Wait) : State := base.setG fun g => { g with monitor := some ⟨0x10000, lineOf (base.fpa 0x10000), v⟩, wait := w }

/-- The hypotheses of `mwatch`, by its own steps. -/
def WatchMeets (va : Nat) (s : State) : Bool :=
  match translate true false va s with
  | (s1, .ok fpa e) =>
    match readAt s1.agent (if s1.isLocal fpa then .home else .far) e fpa 4 s1 with
    | .ok _ s2 => (acquireAt s2.g.coreIx s2.straddles (if s2.inWindow fpa then .sys else if isSwitch fpa then .fab else if s1.isLocal fpa then .dev else .fab) (keepTags [tagOf s2 fpa])
        (dropOutrun s2.g.die.toNat [fpa] (if (s2.isHbm fpa && e.twin) = true then addWaiter s2.g.die.toNat (lineOf fpa) s2.g.tenant s2 else s2))).isSome
    | _ => false
  | _ => false

theorem witness_MonitorWords : MayIssue (.mwatch 5 2 0) mem1 = true ∧ (mem1.src.sreg 2).toNat % 4 = 0 ∧ WatchMeets 0x10000 mem1 = true ∧ ((withS [(2, 0x10002)] base).src.sreg 2).toNat % 4 ≠ 0 ∧
    MayIssue (.mwait 5 2) base = true ∧ base.g.monitor = none ∧ (armed 1 .none).version (lineOf (base.fpa 0x10000)) ≠ 1 ∧ (armed 0 .none).version (lineOf (base.fpa 0x10000)) = 0 ∧
    (armed 0 (.woken 2)).g.wait = .woken 2 ∧ (armed 0 .none).g.parkedWait = none ∧ (armed 0 .none).g.wait = .none ∧ MayIssue (.mwait 5 2) (armed 0 (.woken 1)) = true ∧ MayIssue (.sleep 2) mem1 = true ∧
    (mem1.src.sreg 2).toNat % 2 ^ 32 ≠ 0 ∧ ((withS [(2, 0x100000000)] base).src.sreg 2).toNat % 2 ^ 32 = 0 ∧ MayIssue (.mclear 0) base = true := by decide +kernel

/-- Entry 0 holds an access that is still in flight. -/
def flying (a : Access) (s : State) : State := s.setG fun g => g.setEntry 0 { LogEntry.empty with state := .inFlight, acc := some a, todo := a.active }

theorem witness_GangAndAccessEvents : (base.gang? 1).map Gang.status = some .resident ∧ (base.g.entry 0).state ≠ .inFlight ∧ (armed 0 (.mwait 5 (some 0))).g.wait = .mwait 5 (some 0) ∧
    (holdsData 0 = false ∧ (0 : Nat) ≠ 7) ∧
    (let a := capVector (mopWindow .store 4 0 0) 5 0 [1] pad1
     let s := flying a pad1
     (s.g.entry 0).state = .inFlight ∧ (s.g.entry 0).acc = some a ∧ behindOlder (s.g.entry 0) a.op.kind s = false ∧ a.recordFault a.active s = none ∧ (s.g.entry 0).parked = [] ∧
       (match fetchBlocks (gangRead [] s.agent) (a.tensorBase s) (a.blocksOf a.active s) ⟨[], []⟩ s with
        | (k, v) => (laneList a.active).foldlM (fun s L => match accessLane a ⟨[], k, 0⟩ L s with
          | .done u => some u
          | _ => none) v).isSome = true ∧
       behindOlder { s.g.entry 0 with seq := 9 } a.op.kind (s.setG fun g => g.setEntry 1 { LogEntry.empty with state := .inFlight, acc := some { a with op := { a.op with kind := .acqLoad } } }) = true) ∧
    (let a := capVector (mopWindow .store 4 0 0) 5 0 [1] (masked 1 (withV 5 2 base))
     a.op.kind = .store ∧ a.op.window = true ∧ a.op.slot = 0 ∧ a.op.uniform = false ∧ a.addr 0 % a.op.bytes ≠ 0 ∧ a.active = 1) := by decide +kernel
/-! ### Traps -/

theorem witness_TrapEntry : base.g.handler = none ∧ base.g.busy = false ∧ (flying (capVector (mopWindow .store 4 0 0) 5 0 [1] pad1) pad1).g.handler = none ∧
    (flying (capVector (mopWindow .store 4 0 0) 5 0 [1] pad1) pad1).g.busy = true ∧ (31 < 32 ∧ 255 < 256 ∧ 3 < 4) ∧ (∀ c a, base.g.wait ≠ .barWait c a) := by
  refine ⟨by decide, by decide, by decide, by decide +kernel, by decide, fun c a h => ?_⟩
  exact Wait.noConfusion (h : Wait.none = .barWait c a)

theorem witness_DoubleFaults : (handler base).g.handler.isSome = true ∧ (handler base).g.busy = false ∧ (handler base).g.status = .resident ∧
    ((handler base).node? (handler base).g.node).map Node.error = some none ∧ ((handler base).node? (handler base).g.node).map Node.errorHeld = some none ∧
    (handler base).host.hasRoom 0 = true ∧ ({ handler base with host := { (handler base).host with held := [⟨1, 0, 0, 0, 0, 0⟩] } } : State).host.hasRoom 0 = false := by decide

/-- A gang on a stream core; a gang with 64 vector registers; a gang of an unprivileged tenant. -/
def stream : State := placed 0x44000000
def small : State := base.setG fun g => { g with nV := 64 }
def plain : State := base.setTenant 0 fun T => { T with priv := false }

theorem witness_IssueTraps : illegalCode small (wordShapeOf (.vaddI32 64 0 0)) false = some 0x07 ∧ illegalCode small (wordShapeOf (.vaddI32 63 0 0)) false = none ∧
    privilegeCode plain (wordShapeOf (.tlbinv 1 2)) = some 3 ∧ illegalCode plain (wordShapeOf (.tlbinv 1 2)) false = none ∧ (convTrap base (wordShapeOf (.vcvtNfF32 1 2 0 5))).isSome = true ∧
    privilegeCode base (wordShapeOf (.vcvtNfF32 1 2 0 5)) = none ∧ (30 ≤ stream.g.core.toNat ∧ stream.g.core.toNat < 40 ∧ (wordShapeOf (.mtask 1 0 0)).major = 0x24 ∧ isFifoWord (.cpFifo 2 4 0 0) = true) ∧
    (base.g.core.toNat < 30 ∧ (wordShapeOf (.xpRun 1 0 0)).major = 0x22) ∧ base.g.handler = none ∧ (handler base).g.handler ≠ none ∧
    (base.setG fun g => { g with handler := some 0x101 }).g.handler ≠ some (causeOf 16 1) ∧ (illegalCode (handler base) (wordShapeOf (.barDrop 1 0)) false = none ∧ (wordShapeOf (.barDrop 1 0)).major = 0x1A) := by decide +kernel

/-- Entry 1 holds an access whose lane 3 is parked; its handler runs. -/
def parkedGang : State :=
  let a := capVector (mopWindow (.load false) 4 0 1) 5 0 [] base
  (base.setG fun g => { g with olog := g.olog.set 1 { LogEntry.empty with state := .faulted, replay := true, acc := some a, parked := [⟨3, ⟨0x301, 5⟩⟩], join := true } }).setG fun g =>
    { g with handler := some 0x301, reported := true, r := { g.r with tlanes := 8, tslots := 0x1200000001#39, tpc := 0x300000007 } }

theorem witness_SystemWords : MayIssue .tret parkedGang = true ∧ parkedGang.g.busy = false ∧ parkedGang.g.restoring = false ∧ parkedGang.g.handlerReport = none ∧
    (parkedGang.g.olog.toList.getD 1 LogEntry.empty).state = .faulted ∧ (parkedGang.g.olog.toList.getD 0 LogEntry.empty).state ≠ .faulted ∧ MayIssue (.brk 5) base = true ∧
    MayIssue (.tlane 2 1) parkedGang = true ∧ MayIssue .tdone (handler base) = true ∧ parkedGang.g.anyFaulted = false ∧ (handler base).g.busy = false ∧ (handler base).g.anyFaulted = false ∧
    (let u := (releaseBegin .fab [] (handler base)).2
     releaseDone u ⟨u.nextId, u.g.uid, .fab, (releaseBegin .fab [] (handler base)).1, none⟩ = true) ∧
    (let s := (handler base).setG fun g => { g with outstanding := 1 }
     let u := (releaseBegin .fab [] s).2
     s.g.anyFaulted = false ∧ releaseDone u ⟨u.nextId, u.g.uid, .fab, (releaseBegin .fab [] s).1, none⟩ = false ∧ u.gang? 1 = some u.g ∧ u.releases = []) ∧
    MayIssue .exit base = true ∧ base.g.busy = false ∧ base.g.anyFaulted = false ∧ base.g.engReports = [] ∧ base.g.reports = [] ∧ (base.setG fun g => { g with reports := [⟨0xC01, 0⟩] }).g.reports ≠ [] ∧
    base.g.outstanding = 0 ∧ signalsPending base base.g.uid = 0 ∧ (base.core base.g.coreIx).wc = [] ∧ (base.core base.g.coreIx).cmds = [] ∧ (base.core base.g.coreIx).tasks = [] ∧
    ((handler base).core (handler base).g.coreIx).wc = [] ∧ (handler base).g.outstanding = 0 ∧ ((handler base).setG fun g => { g with outstanding := 1 }).g.outstanding ≠ 0 ∧
    (base.setG fun g => { g with outstanding := 1 }).g.outstanding ≠ 0 ∧ base.myCrew = some crew1 ∧ base.g.status ≠ .vacant := by decide +kernel

theorem witness_IssueTrapOf : (groupTrap base base.g.cur.packet [⟨0, { wordShapeOf .nop with bad := some 1 }, 0⟩]).isSome = true ∧ groupTrap base base.g.cur.packet [⟨encode .nop, wordShapeOf .nop, 0⟩] = none ∧
    groupTrap base base.g.cur.packet [⟨encode (.vaddI32 1 2 3), wordShapeOf (.vaddI32 1 2 3), 0⟩, ⟨encode (.brk 5), wordShapeOf (.brk 5), 1⟩] = none ∧
    ((wordShapeOf (.brk 5)).major = 0x1F ∧ fld (encode (.brk 5)).toNat 12 3 = 1) ∧ (wordShapeOf (.vaddI32 1 2 3)).major ≠ 0x1F := by decide +kernel

theorem witness_TrapOrder : base.g.handler = none ∧ base.g.busy = false ∧ base.g.woken = false ∧ base.g.errorDue = none ∧ base.g.joined = false ∧ base.g.engReports = [] ∧ base.g.reports = [] ∧
    (base.setG fun g => { g with errorDue := some ⟨0xF01, 1⟩ }).g.errorDue = some ⟨0xF01, 1⟩ ∧ ((parkedGang.setG fun g => { g with handler := none }).g.joined = true ∧
    (parkedGang.setG fun g => { g with handler := none }).g.oldest = some 1 ∧ ((parkedGang.setG fun g => { g with handler := none }).g.entry 1).parked ≠ [] ∧ (parkedGang.setG fun g => { g with handler := none }).g.busy = false ∧
    (parkedGang.setG fun g => { g with handler := none }).g.woken = false) ∧ (base.setG fun g => { g with stepDue := some 1 }).g.stepDue = some 1 ∧ base.g.watchdogDue = none ∧
    (base.setG fun g => { g with evictDue := true }).g.evictDue = true ∧ (base.gang? 1).map Gang.status = some .resident ∧ base.g.wait = .none ∧ base.g.reportDue = false ∧ base.g.stepDue = none ∧
    base.g.evictDue = false := by decide +kernel

/-- Lane addresses outside the allocation, misaligned, and inside it. -/
theorem witness_LanesPark : base.inFlight = false ∧ base.g.freeEntry = some 0 ∧ (base.g.log.toList.all fun x => x.state = .free) = true ∧ base.src.emask ≠ 0 ∧ MayIssue (.pldB32 1 5 0) base = true ∧
    MayIssue (.pstB32 1 5 0) base = true ∧ (spadKey base 0x4000).isOk = false ∧ 2 % 4 ≠ 0 ∧ spadKey base 0x3FFC = .ok 0x3FFC ∧ base.mem.wf = true ∧ base.spad.wf = true := by decide

/-! ### Elements one after another -/

/-- Elements run one after another by a function. -/
def eachRun {α β : Type} (f : α → β → State → Option (β × State)) : List α → β → State → Option (β × State)
  | [], b, s => some (b, s)
  | x :: xs, b, s => (f x b s).bind fun y => eachRun f xs y.1 y.2

theorem each_run_ok {α β : Type} {F : α → β → State → β → State → Prop} {f : α → β → State → Option (β × State)}
    (h : ∀ x b s y, f x b s = some y → F x b s y.1 y.2) : ∀ l b s y, eachRun f l b s = some y → Each F l b s y.1 y.2
  | [], b, s, y, e => by cases e; exact ⟨rfl, rfl⟩
  | x :: xs, b, s, y, e => by
    obtain ⟨z, hz, hy⟩ := Option.bind_eq_some_iff.mp e
    exact ⟨z.1, z.2, h x b s z hz, each_run_ok h xs z.1 z.2 y hy⟩

theorem each_of_run {α β : Type} {F : α → β → State → β → State → Prop} {f : α → β → State → Option (β × State)}
    (h : ∀ x b s y, f x b s = some y → F x b s y.1 y.2) {l : List α} {b : β} {s : State} (e : (eachRun f l b s).isSome = true) : ∃ c t, Each F l b s c t := by
  obtain ⟨y, hy⟩ := Option.isSome_iff_exists.mp e
  exact ⟨y.1, y.2, each_run_ok h l b s y hy⟩

/-- What a transfer leaves, where it has one. -/
def leftBy {α : Type} : Got α → Option State
  | .ok _ t => some t
  | _ => none

theorem leftBy_ok {α : Type} {x : Got α} {t : State} (h : leftBy x = some t) : ∃ a, x = .ok a t := by
  cases x with
  | ok a u => exact ⟨a, by rw [show u = t from Option.some.inj h]⟩
  | _ => cases h

def codeIn (k : Client) (G P : Rec) (mode : RMode) (g : List Int) (r : Half) (s : State) : Option (Nat × Half × State) :=
  if G.inBounds g = true ∧ G.elem = P.elem ∧ G.smode = 0 then
    match G.fetch k.read (G.place g).1 G.cbytes s with
    | .ok b t => some (G.code b (G.place g).2, r, t)
    | _ => none
  else
    match G.readElem k.read g s with
    | .ok v t => some ((P.elem.fmt.round mode (rndBehind mode r) v).1, rndBehind mode r, t)
    | _ => none

theorem codeIn_ok {k : Client} {G P : Rec} {mode : RMode} {g : List Int} {r : Half} {s : State} {y : Nat × Half × State}
    (h : codeIn k G P mode g r s = some y) : CodeIn k G P mode g r s y.1 y.2.1 y.2.2 := by
  unfold codeIn at h
  unfold CodeIn
  split at h
  · rename_i c
    rw [if_pos c]
    split at h
    · rename_i b t e
      cases h
      exact ⟨b, e, rfl, rfl⟩
    · cases h
  · rename_i c
    rw [if_neg c]
    split at h
    · rename_i v t e
      cases h
      exact ⟨v, e, rfl, rfl⟩
    · cases h

def elemIn (c : Command) (core : Nat) (G P : Rec) (me : Crew) (b : List Int) (r : Half) (s : State) : Option (Half × State) :=
  (codeIn (c.client core) G P (modeCode c.mode.toNat) (addCoords c.coords b) r s).map fun y =>
    (y.2.1, (c.receivers y.2.2).foldl (fun s q => padPut q P (landAt me q c.window) b y.1 s) y.2.2)

theorem elemIn_ok {c : Command} {core : Nat} {G P : Rec} {me : Crew} (b : List Int) (r : Half) (s : State) (y : Half × State)
    (h : elemIn c core G P me b r s = some y) : ElemIn c core G P me b r s y.1 y.2 := by
  obtain ⟨z, hz, rfl⟩ := Option.map_eq_some_iff.mp h
  exact ⟨z.1, z.2.2, codeIn_ok hz, rfl⟩

def elemFifo (c : Command) (core : Nat) (G P : Rec) (b : List Int) (x : List Nat × Half) (s : State) : Option ((List Nat × Half) × State) :=
  (codeIn (c.client core) G P (modeCode c.mode.toNat) (addCoords c.coords b) x.2 s).map fun y => ((x.1 ++ [y.1], y.2.1), y.2.2)

theorem elemFifo_ok {c : Command} {core : Nat} {G P : Rec} (b : List Int) (x : List Nat × Half) (s : State) (y : (List Nat × Half) × State)
    (h : elemFifo c core G P b x s = some y) : ElemFifo c core G P b x s y.1 y.2 := by
  obtain ⟨z, hz, rfl⟩ := Option.map_eq_some_iff.mp h
  exact ⟨z.1, z.2.1, codeIn_ok hz, rfl⟩

def elemOut (c : Command) (core : Nat) (G P : Rec) (me : Crew) (b : List Int) (r : Half) (s : State) : Option (Half × State) :=
  let r1 := rndBehind (modeCode c.mode.toNat) r
  if G.inBounds (addCoords c.coords b) = false then some (r, s)
  else if superseded G P c.coords b = true then some (r1, s)
  else (leftBy (G.writeElem (c.client core).read (c.client core).readForWrite ((c.client core).write c.id) (modeCode c.mode.toNat) r1 (addCoords c.coords b)
    (quiet (P.elem.fmt.value (padCode me P c.window b s))) s)).map fun t => (r1, t)

theorem elemOut_ok {c : Command} {core : Nat} {G P : Rec} {me : Crew} (b : List Int) (r : Half) (s : State) (y : Half × State)
    (h : elemOut c core G P me b r s = some y) : ElemOut c core G P me b r s y.1 y.2 := by
  unfold elemOut at h
  unfold ElemOut
  dsimp only at h
  split at h
  · rename_i g
    cases h
    rw [if_pos g]
    exact ⟨rfl, rfl⟩
  · rename_i g
    rw [if_neg g]
    split at h
    · rename_i p
      cases h
      rw [if_pos p]
      exact ⟨rfl, rfl⟩
    · rename_i p
      obtain ⟨t, ht, rfl⟩ := Option.map_eq_some_iff.mp h
      rw [if_neg p]
      exact ⟨rfl, leftBy_ok ht⟩

def drainPad (t : Task) (D : Rec) (w : Crew) (mn : Nat × Nat) (r : Half) (s : State) : Option (Half × State) :=
  let r1 := rndBehind (modeCode t.mode) r
  some (r1, padPut w D t.window [(mn.2 : Nat), (mn.1 : Nat), 0, 0] (D.elem.fmt.round (modeCode t.mode) r1 (t.value mn)).1 s)

theorem drainPad_ok {t : Task} {D : Rec} {w : Crew} (mn : Nat × Nat) (r : Half) (s : State) (y : Half × State)
    (h : drainPad t D w mn r s = some y) : DrainPad t D w mn r s y.1 y.2 := by
  cases h
  exact ⟨rfl, rfl⟩

def drainMem (t : Task) (D : Rec) (core : Nat) (mn : Nat × Nat) (r : Half) (s : State) : Option (Half × State) :=
  let r1 := rndBehind (modeCode t.mode) r
  if D.inBounds (t.place mn) = false then some (r, s)
  else (leftBy (D.writeElem (t.client core).read (t.client core).readForWrite ((t.client core).write t.id) (modeCode t.mode) r1 (t.place mn) (t.value mn) s)).map
    fun u => (r1, u)

theorem drainMem_ok {t : Task} {D : Rec} {core : Nat} (mn : Nat × Nat) (r : Half) (s : State) (y : Half × State)
    (h : drainMem t D core mn r s = some y) : DrainMem t D core mn r s y.1 y.2 := by
  unfold drainMem at h
  unfold DrainMem
  dsimp only at h
  split at h
  · rename_i g
    cases h
    rw [if_pos g]
    exact ⟨rfl, rfl⟩
  · rename_i g
    obtain ⟨u, hu, rfl⟩ := Option.map_eq_some_iff.mp h
    rw [if_neg g]
    exact ⟨rfl, leftBy_ok hu⟩

def drainCode (t : Task) (D : Rec) (core : Nat) (x : (Nat × Nat) × Nat) (r : Half) (s : State) : Option (Half × State) :=
  if t.superseded D x.1 = true then some (r, s)
  else match D.writeCode (t.client core).readForWrite ((t.client core).write t.id) (t.place x.1) x.2 s with
    | .ok _ u => some (r, u)
    | _ => none

theorem drainCode_ok {t : Task} {D : Rec} {core : Nat} (x : (Nat × Nat) × Nat) (r : Half) (s : State) (y : Half × State)
    (h : drainCode t D core x r s = some y) : DrainCode t D core x r s y.1 y.2 := by
  unfold drainCode at h
  unfold DrainCode
  split at h
  · rename_i g
    cases h
    rw [if_pos g]
    exact ⟨rfl, rfl⟩
  · rename_i g
    rw [if_neg g]
    split at h
    · rename_i b u e
      cases h
      exact ⟨rfl, b, e⟩
    · cases h

def drainBlock (t : Task) (D : Rec) (core : Nat) (mn : Nat × Nat) (r : Half) (s : State) : Option (Half × State) :=
  let els := ((List.range (2 ^ D.sblk)).map fun j => (mn.1, mn.2 + j)).filter fun x => D.inBounds (t.place x)
  match els with
  | [] => some (r, s)
  | x0 :: _ =>
    match (t.client core).write t.id (D.scaleAddr (t.place x0)) [BitVec.ofNat 8 (mxSelect D.elem.fmt (els.map t.value)).1] s with
    | .ok _ v => eachRun (drainCode t D core) (els.zip (mxSelect D.elem.fmt (els.map t.value)).2) r v
    | _ => none

theorem drainBlock_ok {t : Task} {D : Rec} {core : Nat} (mn : Nat × Nat) (r : Half) (s : State) (y : Half × State)
    (h : drainBlock t D core mn r s = some y) : DrainBlock t D core mn r s y.1 y.2 := by
  unfold drainBlock at h
  unfold DrainBlock
  dsimp only at h ⊢
  split at h
  · rename_i e
    cases h
    first
      | exact ⟨rfl, rfl⟩
      | (rw [e]; exact ⟨rfl, rfl⟩)
  · rename_i x0 xs e
    split at h
    · rename_i b v w
      rw [e] at h w ⊢
      exact ⟨b, v, w, each_run_ok drainCode_ok _ _ _ _ h⟩
    · cases h

def addHome (t : Task) (D : Rec) (x : Nat × TlbEntry × Nat × List XVal) (r : Half) (s : State) : Option (Half × State) :=
  let r1 := rndBehind (modeCode t.mode) r
  let old := s.mem.read x.1 D.cbytes
  let code := (D.elem.fmt.round (modeCode t.mode) r1 (xsum (decide (modeCode t.mode = .rd)) (quiet (D.elem.fmt.value (D.code old x.2.2.1)) :: x.2.2.2)).1).1
  some (r1, { s with mem := s.mem.write x.1 (if D.elem.cont = 0 then putBits old x.2.2.1 D.elem.fmt.width code else toBytes D.cbytes code) })

theorem addHome_ok {t : Task} {D : Rec} (x : Nat × TlbEntry × Nat × List XVal) (r : Half) (s : State) (y : Half × State)
    (h : addHome t D x r s = some y) : AddHome t D x r s y.1 y.2 := by
  cases h
  exact ⟨rfl, rfl⟩

/-! ### Copies and expansions -/

/-- Records 5 (FP32, 4 elements), 6 (the same where nothing is mapped), 7 (back-reference bytes), 8 and 9 (32 × 64 × 1 elements of E2M1). -/
def e2m1Record : BitVec 320 := 0x1c000000000000000000000000000000007e0003e0000000000000000000095600000000010000
def tables (s : State) : State := s.setCore s.g.coreIx fun K => { K with tables := [(s.g.node, [0, 0, 0, 0, 0, fp32Record, fp32Record + 0x10000000, fp32Record + 2 <<< 81, e2m1Record, e2m1Record])] }

/-- Operands of a copy: coordinates 0, window address 0x1000 in s5, the control word in s6; tile 1 is engine-owned, with slots. -/
def copying (ctl : Dword) : State := (ring 0 0 2 0 (tables (withS [(5, 0x1000), (6, ctl)] base))).setCrew crew1.uid fun c => { c with tiles := [(1, [])], slots := 1 }

def cmd (op : Nat) : Command :=
  { id := 9, op := op, gang := 1, crew := crew1.uid, stage := 0, tenant := 0, node := 0, leader := 0, coords := [0, 0, 0, 0], window := 0x1000, gId := 5, pId := 5, mode := 0
    barrier := none, queue := none, fifoB := false, mask := 0, card := none, image := [], rnd := 1, done := 0, units := 1, sent := false, reserved := false, behind := [], suspended := false, fault := none }

def withCmds (l : List Command) (s : State) : State := s.setCore s.g.coreIx fun K => { K with cmds := l }

/-- The hypotheses of acceptance. -/
def CopyMeets (i : Instr) (op b c : Nat) (s : State) : Bool :=
  MayIssue i s && (s.src.preg 0 &&& s.src.emask) != 0 && !s.leaving && !s.g.opens && decide (s.g.freeEntry = some 0) &&
    match s.myCrew with
    | some w => (freeSlot s w.core w.uid s.g.stage.toNat).isSome && !copyWaits op (capCopy op 0 2 b c s) w s && (copyFault op (capCopy op 0 2 b c s) w s).isNone
    | none => false

theorem witness_CopyWords : CopyMeets (.cpLd 2 5 6 0 0) 0 5 6 (copying 0x0505) = true ∧ CopyMeets (.cpSt 2 5 6 0 0) 1 5 6 (copying 0x0505) = true ∧
    CopyMeets (.cpLdq 2 5 6 0 0) 2 5 6 (copying (0x0505 + 3 <<< 41)) = true ∧ CopyMeets (.cpFifo 2 6 0 0) 3 0 6 (copying 0x0505) = true ∧ CopyMeets (.cpMc 2 5 6 0 0) 4 5 6 (copying (0x0505 + 1 <<< 48)) = true ∧
    (copyFault 0 (capCopy 0 0 2 5 6 (copying 0x0501)) crew1 (copying 0x0501)).isSome = true ∧ copyWaits 2 (capCopy 2 0 2 5 6 (ring 1 1 0 2 (copying (0x0505 + 3 <<< 41)))) crew1 (ring 1 1 0 2 (copying (0x0505 + 3 <<< 41))) = true ∧
    freeSlot (withCmds (List.replicate 32 (cmd 0) ++ List.replicate 4 { cmd 0 with reserved := true }) base) 0 crew1.uid 0 = none ∧ (masked 0 base).src.preg 0 &&& (masked 0 base).src.emask = 0 ∧
    (recordFields (recordOf (copying 0x0505) 5)).isSome = true ∧
    (let s := flying (capVector (mopWindow .store 4 0 0) 5 0 [1] pad1) (copying 0x0505)
     MayIssue (.cpLd 2 5 6 0 0) s = true ∧ s.src.preg 0 &&& s.src.emask ≠ 0 ∧ s.leaving = false ∧ s.g.opens = true) := by decide +kernel

/-- A job card at 0x10040: source 7, to the window at 0x1000, 2 input bytes, 1 output byte. -/
def cardBytes : List Byte := [7, 0, 0, 0] ++ toBytes 4 2 ++ toBytes 4 1 ++ toBytes 4 0x1000 ++ List.replicate 48 0
def carded : State := let s := tables (withS [(2, 0x10040)] stream); { s with mem := s.mem.write (s.fpa 0x10040) cardBytes }.setCrew crew1.uid fun c => { c with tiles := [(1, [])] }

theorem witness_ExpansionAndSlotWords : (MayIssue (.cpGrant 2) base = true ∧ base.leaving = false ∧ base.g.opens = false ∧ base.g.freeEntry = some 0 ∧ base.myCrew = some crew1) ∧
    (1 ≤ ((withS [(2, 15)] base).src.sreg 2).toNat ∧ ((withS [(2, 15)] base).src.sreg 2).toNat ≤ 15 ∧ crew1.slots + 15 ≤ 15) ∧ (base.src.sreg 2).toNat = 0 ∧ 15 < ((withS [(2, 16)] base).src.sreg 2).toNat ∧
    MayIssue (.cpSlots 2 0) base = true ∧ MayIssue (.cpCount 2 0) base = true ∧ MayIssue (.xpRun 2 0 0) carded = true ∧ (carded.src.preg 0 &&& carded.src.emask) ≠ 0 ∧ carded.leaving = false ∧ carded.g.opens = false ∧
    carded.g.freeEntry = some 0 ∧ carded.g.card = none ∧ (carded.src.sreg 2).toNat % 64 = 0 ∧ ((withS [(2, 1)] carded).src.sreg 2).toNat % 64 ≠ 0 ∧
    (match carded.myCrew, readLong carded.client.read (linesFor 64) 0x10040 64 carded with
      | some w, .ok y u => (freeSlot carded w.core w.uid carded.g.stage.toNat).isSome && (match parseCard y with
        | some z => u.g.card.isNone && !(z.push && ringFull u w z.queue) && (runFault z 0x10040 w u).isNone && (runFault { z with source := 0 } 0x10040 w u).isSome
        | none => false)
      | _, _ => false) = true ∧ parseCard (List.replicate 64 0) = none := by decide +kernel

theorem witness_CopyEvents : findCmd base 0 9 = none ∧ findCmd (withCmds [cmd 0] base) 0 9 = some (cmd 0) ∧ cmdRuns (withCmds [cmd 0] base) 0 (cmd 0) = true ∧ (cmd 0).done < (cmd 0).units ∧
    (match moveSector (cmd 0) 0 (withCmds [cmd 0] (copying 0)) with
      | .ok _ u => u.packets.isEmpty
      | _ => false) = true ∧
    (match moveSector { cmd 0 with gId := 6 } 0 (withCmds [{ cmd 0 with gId := 6 }] (copying 0)) with
      | .bad w _ => w.group = 1
      | _ => false) = true ∧
    cmdRuns (withCmds [{ cmd 0 with done := 1 }] base) 0 { cmd 0 with done := 1 } = true ∧ { cmd 0 with done := 1 }.done = (cmd 0).units ∧ base.packets = [] ∧
    { cmd 0 with fault := some ⟨0x710, 0⟩, suspended := true }.suspended = true ∧ { cmd 0 with fault := some ⟨0x711, 0⟩ }.suspended = false ∧ (cmd 0).op = 0 ∧ (cmd 0).card = none ∧
    (base.crew? (cmd 0).crew).isSome = true ∧ base.mem.wf = true ∧ base.spad.wf = true := by decide +kernel

/-- The record of 4 elements. -/
def fp32Rec : Rec := (recordFields fp32Record).get (by decide +kernel)

/-- The crew of `copying`. -/
def crew2 : Crew := { crew1 with tiles := [(1, [])], slots := 1 }

theorem witness_CopyMoves : (cmd 0).card = none ∧ (withCmds [cmd 0] (copying 0)).crew? crew1.uid = some crew2 ∧
    (cmd 0).recordFor 0 (withCmds [cmd 0] (copying 0)) 5 = some fp32Rec ∧
    (∃ r t, Each (ElemIn (cmd 0) 0 fp32Rec fp32Rec crew2) ((cmd 0).due fp32Rec) 1 (withCmds [cmd 0] (copying 0)) r t) ∧
    (∃ r t, Each (ElemOut (cmd 1) 0 fp32Rec fp32Rec crew2) ((cmd 1).due fp32Rec) 1 (withCmds [cmd 1] (copying 0)) r t) ∧
    (∃ r t, Each (ElemFifo (cmd 3) 0 fp32Rec fp32Rec) (((boxOf fp32Rec.ext).drop 0).take 8) ([], 1) (withCmds [cmd 3] (copying 0)) r t) ∧
    (recordFields fp32Record = some fp32Rec ∧ 0 < 2 ^ fp32Rec.elem.fmt.width) :=
  ⟨rfl, by decide +kernel, by decide +kernel, each_of_run elemIn_ok (by decide +kernel), each_of_run elemOut_ok (by decide +kernel), each_of_run elemFifo_ok (by decide +kernel),
    by decide +kernel⟩

/-- The card of `carded`, and one that writes through record 5. -/
def card0 : Card := ⟨7, 0, 0, 0, 2, 1, 0x1000, 0, 0, false, false, 0⟩
def card1 : Card := ⟨7, 1, 5, 0, 2, 1, 0, 0, 0, false, false, 0⟩

theorem witness_CardMoves : (carded.crew? crew1.uid).isSome = true ∧ card0.kind ≠ 1 ∧ card1.kind = 1 ∧
    (match ({ cmd 5 with card := some card1 }.client carded.g.coreIx).write 9 (card1.base carded carded.g.coreIx 0) [7] carded with
      | .ok _ _ => true
      | _ => false) = true := by decide +kernel

/-! ### The matrix engine -/

/-- A task record at 0x10040: a compute task of records 8 and 9, or a barrier-less drain to a peer. -/
def matrixBase : State := tables (withS [(2, 0x10040)] (placed 0x48000000))
def tasked (w0 : Nat) : State := { matrixBase with mem := matrixBase.mem.write (matrixBase.fpa 0x10040) (toBytes 8 w0 ++ List.replicate 56 0) }

def task (w0 : Dword) : Task :=
  { id := 9, gang := 1, crew := crew1.uid, tenant := 0, node := 0, leader := 0, words := [w0, 0, 0, 0, 0, 0, 0, 0], state := .queued, group := 0, sectors := 0, total := 0, rnd := 1, values := []
    prevOpen := false, scaleA := [], scaleB := [], suspended := false, behind := [], fault := none }

def withTasks (l : List Task) (s : State) : State := s.setCore s.g.coreIx fun K => { K with tasks := l, fifoA := List.replicate 1024 0, fifoB := List.replicate 1024 0 }

def TaskMeets (i : Instr) (w0 : Nat) (drain : Bool) : Bool :=
  let s := tasked w0
  MayIssue i s && (s.src.preg 0 &&& s.src.emask) != 0 && !s.leaving && !s.g.opens && decide (s.g.freeEntry = some 0) && decide ((s.src.sreg 2).toNat % 64 = 0) &&
    match s.myCrew, readLong s.client.read (linesFor 64) 0x10040 64 s with
    | some w, .ok y u => decide ((s.core w.core).tasks.length < 16) && decide (ofBytes (slice y 0 8) = w0) &&
        (let t := task (BitVec.ofNat 64 w0)
         (if drain then t.kind != 0 else t.kind = 0) && !t.bad && (if drain then (drainFault t 0x10040 w u).isNone else (computeFault t 0x10040 u).isNone))
    | _, _ => false

theorem witness_MatrixWords : TaskMeets (.mtask 2 0 0) 0x090800 false = true ∧ TaskMeets (.mdrain 2 0 0) 3 true = true ∧ (task 4).bad = true ∧ (computeFault (task 0x010100) 0 matrixBase).isSome = true ∧
    (drainFault (task 2) 0 crew1 matrixBase).isSome = true ∧ MayIssue (.mstat 5 2 0) matrixBase = true ∧ ((withS [(2, 0x10041)] matrixBase).src.sreg 2).toNat % 64 ≠ 0 ∧
    16 ≤ ((withTasks (List.replicate 16 (task 0)) matrixBase).core 0).tasks.length ∧ (masked 0 matrixBase).src.preg 0 &&& (masked 0 matrixBase).src.emask = 0 := by decide +kernel

/-- A core with one task, in its states. -/
def one (t : Task) : State := withTasks [t] matrixBase

theorem witness_MatrixEvents : unfinished (one (task 0x090800)) 0 = none ∧ matrixPaused (one (task 0x090800)) 0 = false ∧ taskReady ((one (task 0x090800)).core 0) [] (task 0x090800) = true ∧
    (task 0x090800).kind = 0 ∧ (task 0x090800).zero = false ∧ (task 0x090880).zero = true ∧ ((one (task 0)).core 0).tiles.isSome = true ∧
    taskReady ((one (task 0x010000000003)).core 0) [] (task 0x010000000003) = false ∧
    (let t := { task 0x090800 with state := .running }
     findTask (one t) 0 9 = some t ∧ (match recordFields (recordAt (one t) 0 t.node (t.ident false)) with
      | some A => decide (t.group < A.extent 2) && (operandBytes ((one t).core 0) t false A).isSome && (operandBytes ((one t).core 0) t true A).isSome
      | none => false) = true ∧ taskDone (one t) 0 t = false ∧ taskDone (one { t with group := 1 }) 0 { t with group := 1 } = true) ∧
    ({ task 3 with fault := some ⟨0x812, 0⟩ }).fault.isSome = true ∧ { task 0 with fault := some ⟨0x812, 0⟩, suspended := true }.suspended = true := by decide +kernel

/-- A drain that has started, with all but its last unit written: of the given kind and bits of word 1, from box element (-x, -y). -/
def draining (kind w1 x y group : Nat) : Task :=
  { task (BitVec.ofNat 64 kind) with words := [BitVec.ofNat 64 kind, BitVec.ofNat 64 w1, BitVec.ofNat 64 (2 ^ 32 - x + (2 ^ 32 - y) * 2 ^ 32), 0, 0, 0, 0, 0], state := .running, group := group }

/-- Record 5 with scales at 0x10080, one for two elements. -/
def scaledRec : Rec := { fp32Rec with smode := 1, sblk := 1, sbase := 0x10080 }
def scaledTables (s : State) : State := s.setCore s.g.coreIx fun K => { K with tables := [(s.g.node, [0, 0, 0, 0, 0, 0x1c00000000000000000000000000000000000000600000000010080241c0000000000000010000])] }

/-- The translations give addresses of another package. -/
def away (s : State) : State := { s with domain := [0, 1], tlb := s.tlb.map fun e => { e with fpa := 2 ^ 46 } }

def DrainMeets (t : Task) (D : Rec) (s : State) : Bool :=
  decide (findTask s 0 9 = some t) && decide (t.state = .running) && !t.suspended && (s.records.all fun x => !t.behind.contains x.id) && t.fault.isNone &&
    decide (recordFields (recordAt s 0 t.node t.dest) = some D) && decide (s.crew? t.crew = some crew1) && decide (t.group < (t.units D).length)

theorem witness_MatrixDrains_start : unfinished (one (task 1)) 0 = none ∧ matrixPaused (one (task 1)) 0 = false ∧ ((one (task 1)).core 0).tasks = [] ++ task 1 :: [] ∧
    taskReady ((one (task 1)).core 0) [] (task 1) = true ∧ ((task 1).kind ≠ 0 ∧ (task 2).kind ≠ 0 ∧ (task 3).kind ≠ 0) := by decide +kernel

theorem witness_MatrixDrains_goes : (unfinished (one (draining 1 5 0 0 4095)) 0).isSome = true := by decide +kernel

/-- A compute task that has started, behind it a drain; its FIFOs empty. -/
def dry : State :=
  matrixBase.setCore 0 fun K => { K with tasks := [{ task 0x090800 with state := .running }, { task 9 with id := 10 }], fifoA := [], fifoB := [] }

theorem witness_MatrixDrains_starved : unfinished dry 0 = none ∧ Task.starved dry 0 { task 0x090800 with state := .running } = true ∧ matrixPaused dry 0 = false ∧
    Task.starved (one { task 0x090800 with state := .running }) 0 { task 0x090800 with state := .running } = false := by decide +kernel

theorem witness_MatrixDrains_pad : DrainMeets (draining 1 5 0 0 4095) fp32Rec (one (draining 1 5 0 0 4095)) = true ∧ (draining 1 5 0 0 4095).kind = 1 ∧ (draining 1 5 0 0 4095).adds = false ∧
    ∃ r u, Each (DrainUnit (draining 1 5 0 0 4095) fp32Rec crew1 0) (((draining 1 5 0 0 4095).units fp32Rec).drop 4095) 1 (one (draining 1 5 0 0 4095)) r u := by
  refine ⟨by decide +kernel, rfl, rfl, ?_⟩
  have h : DrainUnit (draining 1 5 0 0 4095) fp32Rec crew1 0 = DrainPad (draining 1 5 0 0 4095) fp32Rec crew1 := rfl
  rw [h]
  exact each_of_run drainPad_ok (by decide +kernel)

theorem witness_MatrixDrains_memory : DrainMeets (draining 2 5 63 63 4095) fp32Rec (one (draining 2 5 63 63 4095)) = true ∧ (draining 2 5 63 63 4095).kind = 2 ∧
    (draining 2 5 63 63 4095).adds = false ∧ fp32Rec.smode = 0 ∧ fp32Rec.inBounds ((draining 2 5 63 63 4095).place (63, 63)) = true ∧
    (((draining 2 5 63 63 4095).units fp32Rec).drop 4095 = [] ++ (63, 63) :: []) ∧
    (match fp32Rec.writeElem ((draining 2 6 63 63 4095).client 0).read ((draining 2 6 63 63 4095).client 0).readForWrite (((draining 2 6 63 63 4095).client 0).write 9) .rne 1
        ((draining 2 6 63 63 4095).place (63, 63)) (.fin false 0 0) { one (draining 2 6 63 63 4095) with tlb := [] } with
      | .bad y _ => y.group != 8
      | _ => false) = true ∧
    ∃ r u, Each (DrainUnit (draining 2 5 63 63 4095) fp32Rec crew1 0) (((draining 2 5 63 63 4095).units fp32Rec).drop 4095) 1 (one (draining 2 5 63 63 4095)) r u := by
  refine ⟨by decide +kernel, rfl, rfl, by decide +kernel, by decide +kernel, by decide +kernel, by decide +kernel, ?_⟩
  have h : DrainUnit (draining 2 5 63 63 4095) fp32Rec crew1 0 = DrainMem (draining 2 5 63 63 4095) fp32Rec 0 := by
    unfold DrainUnit
    rw [if_neg (by decide), if_neg (by decide +kernel)]
  rw [h]
  exact each_of_run drainMem_ok (by decide +kernel)

theorem witness_MatrixDrains_scaled : DrainMeets (draining 2 5 62 63 2047) scaledRec (scaledTables (one (draining 2 5 62 63 2047))) = true ∧
    ∃ r u, Each (DrainUnit (draining 2 5 62 63 2047) scaledRec crew1 0) (((draining 2 5 62 63 2047).units scaledRec).drop 2047) 1 (scaledTables (one (draining 2 5 62 63 2047))) r u := by
  refine ⟨by decide +kernel, ?_⟩
  have h : DrainUnit (draining 2 5 62 63 2047) scaledRec crew1 0 = DrainBlock (draining 2 5 62 63 2047) scaledRec 0 := rfl
  rw [h]
  exact each_of_run drainBlock_ok (by decide +kernel)

theorem witness_MatrixDrains_adds : DrainMeets (draining 2 0x105 63 63 0) fp32Rec (one (draining 2 0x105 63 63 0)) = true ∧ (draining 2 0x105 63 63 0).adds = true ∧
    (match addPlaces (draining 2 0x105 63 63 0) fp32Rec 0 ((draining 2 0x105 63 63 0).groups fp32Rec) (one (draining 2 0x105 63 63 0)) with
      | .ok l s => !l.isEmpty && (eachRun (addHome (draining 2 0x105 63 63 0) fp32Rec) l 1 (l.foldl (fun s x => addReady 0 fp32Rec.cbytes x s) s)).isSome
      | _ => false) = true ∧
    (match addPlaces (draining 2 0x105 63 63 0) fp32Rec 0 ((draining 2 0x105 63 63 0).groups fp32Rec) (away (one (draining 2 0x105 63 63 0))) with
      | .bad y _ => y.group = 8
      | _ => false) = true ∧ DrainMeets (draining 2 0x105 63 63 0) fp32Rec (away (one (draining 2 0x105 63 63 0))) = true := by decide +kernel

theorem witness_MatrixDrains_peer : (let t := { draining 3 0 0 0 0 with words := [3, 0, 0, 0, 0, 0, 0, 0] }
     findTask (one t) 0 9 = some t ∧ t.kind = 3 ∧ bits (t.w 5) 12 0 = (one t).pkg.toNat) ∧
    (let t := { draining 3 0 0 0 0 with words := [3, 0, 0, 0, 0, 1, 0, 0] }
     bits (t.w 5) 12 0 ≠ (one t).pkg.toNat ∧ ({ one t with domain := [0, 1] } : State).domain.contains (bits (t.w 5) 12 0) = true ∧
       ({ one t with domain := [0] } : State).domain.contains (bits (t.w 5) 12 0) = false) := by decide +kernel

/-- The arrival of a peer drain at tile 1 of this crew. -/
def arrival1 (applied : Bool) : Arrival := ⟨7, 0, 0, 8, 0, 0, 0, 0x20000, [], applied⟩

/-- The drain, and the tile, which is open. -/
def arriving (applied : Bool) : State :=
  let t : Task := { task 3 with id := 8, state := .sent }
  { (withTasks [t] matrixBase).setCore 0 fun K => { K with tiles := K.tiles.map fun v => v.set 1 { v[1] with open_ := true } } with arrivals := [arrival1 applied] }

theorem witness_MatrixArrivals : (arriving false).arrivals.find? (fun y => y.id = 7 && !y.applied) = some (arrival1 false) ∧ (arrival1 false).tile = 1 ∧ ((arrival1 false).sender (arriving false)).isSome = true ∧ (arriving false).pkg = 0 ∧
    (match targetOf (arriving false) 0 0 0x20000 with
      | .here w => w.core = 0
      | _ => false) = true ∧ ((tileOf ((arriving false).core 0) 1).open_ = true ∧ (tileOf ((arriving false).core 0) 1).arrivals < 255) ∧ ({ task 3 with id := 8, state := .sent } : Task).tile ≠ 1 ∧
    targetOf { arriving false with nodes := [] } 0 0 0x20000 = .absent ∧ targetOf { arriving false with nodes := (arriving false).nodes.map fun n => { n with nextEns := 0 } } 0 0 0x20000 = .away ∧
    (let far := { arrival1 false with src := 1, packet := 5 }
     ({ arriving false with arrivals := [far] } : State).arrivals.find? (fun y => y.id = 7 && !y.applied) = some far ∧ far.src ≠ (arriving false).pkg.toNat) ∧
    findTask (arriving true) 0 8 = some { task 3 with id := 8, state := .sent } ∧ ((arriving true).arrivalsOf 0 8).all Arrival.applied = true ∧ (arriving true).packets = [] := by decide +kernel
/-! ### The coherence engine -/

/-- Lanes that acquire, and a store that releases, at the word 0x10000. -/
def AcquireMeets (v a b : Nat) (sc : Scope) (s : State) : Bool :=
  let x := capVector ⟨.acqLoad, false, false, 4, 0, sc, v⟩ a b [] s
  match (laneList s.src.emask).foldlM (fun s1 L => acqLane sc (laneAddr s a b L) (put32 v L) s1) { s with nextId := s.nextId + 1 } with
  | some u =>
    let t := x.land u
    let fpas := laneFpas t s.src.emask fun L => laneAddr s a b L
    let scp := raisedScope t fpas sc
    !s.g.busyBeyondReleases && !overlapsFlight s x &&
      (acquireAt t.g.coreIx t.straddles scp (if scp = .dev then keepTags (fpas.map fun y => tagOf t y) else []) (if scp = .dev then dropOutrun s.g.die.toNat fpas t else t)).isSome
  | none => false

/-- The release of a word waits, once begun. -/
def relLeft (sc : Scope) (x : LogEntry) (s : State) : Bool :=
  match relBegin sc [] x { s with nextId := s.nextId + 1 } with
  | (y, u) => relWaits sc y u

/-- The release store of one lane at 0x10000 begins, and its lanes can be written behind it. -/
def releaseAccess : State → Access := capVector (mopAt .relStore 4 0) 5 2 [1]
def ReleaseMeets (s : State) : Bool :=
  let a := releaseAccess s
  match flagLines a { s with nextId := s.nextId + 1 } with
  | (ls, s1) =>
    let scp := storeScope a s1
    match relBegin scp (if scp = .dev then sortedNats ((s1.waiters.filter fun w => ls.contains w.line).map Waiter.die) else []) { a.newEntry s with todo := s.src.emask } s1 with
    | (y, u) => decide (a.early 0 s = { todo := s.src.emask, parked := [] }) && !s.g.opens && !s.g.flies MemKind.fences && !relWaits scp y u &&
        ((laneList s.src.emask).foldlM (fun s2 L => relLane a y.relNo (laneAddr s 5 2 L) (s.src.vreg 1)[L].toNat s2) u).isSome

/-- Entry 1 holds a fence whose release is not complete. -/
def fenced (s : State) : State := ({ s with nextId := s.nextId + 1 } : State).setG fun g => g.setEntry 1 { fenceEntry true false .dev s with state := .inFlight, recs := some [77] }

/-- A line of twin mode at 0x10000 that die 0 holds changed, and one that it holds as it is. -/
def lineBytes (x : Byte) : List Byte := x :: List.replicate 127 0
def twinned (s : State) : State := { s with tlb := s.tlb.map fun e => { e with twin := true } }
def dirtyDie (s : State) : State :=
  (twinned s).setDie 0 fun D => { D with lines := [⟨512, lineBytes 1, some ⟨lineBytes 0, 0, 0, 0, false⟩, 0, none⟩, ⟨513, lineBytes 0, none, 0, none⟩] }

theorem witness_AcquiresReleasesFences : MayIssue (.ldAcqB32 1 5 2 4 0) mem1 = true ∧ mem1.src.emask ≠ 0 ∧ mem1.g.busyBeyondReleases = false ∧ mem1.g.freeEntry = some 0 ∧ mem1.inFlight = false ∧
    (∀ sc ∈ [Scope.gang, .crew, .die, .dev, .fab, .sys], AcquireMeets 1 5 2 sc mem1 = true) ∧ MayIssue (.ldAcqB32 1 5 2 4 0) (masked 0 mem1) = true ∧ MayIssue (.stRelB32 1 5 2 4 0) (masked 0 mem1) = true ∧
    MayIssue (.stRelB32 1 5 2 4 0) mem1 = true ∧ ReleaseMeets mem1 = true ∧
    ((fenced mem1).g.opens = false ∧ (fenced mem1).g.freeEntry = some 0 ∧ ((fenced mem1).g.log.toList.any fun z => z.flies MemKind.fences && z.seq < (fenced mem1).nextId) = true) ∧ relLeft .dev (LogEntry.empty) (dirtyDie mem1) = true ∧ base.g.opens = false ∧ base.g.freeEntry = some 0 ∧
    (MayIssue (.fenceRel 4) base = true ∧ MayIssue (.fenceAcq 4) base = true ∧ MayIssue (.fence 4) base = true) ∧
    (∀ sc ∈ [Scope.gang, .crew, .die, .dev, .fab, .sys], relLeft sc (fenceEntry true false sc base) base = false) ∧ relLeft .dev (fenceEntry true false .dev (dirtyDie base)) (dirtyDie base) = true ∧
    (∀ sc ∈ [Scope.gang, .crew, .die, .dev, .fab, .sys], (acquireAt base.g.coreIx base.straddles sc [] base).isSome = true) ∧ base.g.core.toNat < 40 := by decide +kernel

/-- A range of one line in the code page, and its operands. -/
def ranged (s : State) : State := withS [(2, 0x10000), (3, 128)] s

/-- A page of owned mode by the tables, for which the translations hold an entry of twin mode: one page of both stages' tables. -/
def remapped : State :=
  let s := base.setTenant 0 fun T => { T with root1 := 0x40000000, root2 := 0x40000000 }
  { s with mem := s.mem.write 0x40000000 (toBytes 8 0x40000001 ++ toBytes 8 0x4000001B), tlb := s.tlb.map fun e => { e with base := 0x40001000, fpa := 0x40001000 } }

def PartsMeet (op : Nat) (s : State) : Bool :=
  match rangeParts op 2 0x10000 128 s with
  | .ok ps _ => !ps.isEmpty
  | _ => false

theorem witness_MaintenanceWords : (∀ i ∈ [Instr.cwbRange 2 3, .cinvRange 2 3, .icinvRange 2 3, .tlbinv 2 3, .twinStat 4 0], MayIssue i (ranged base) = true) ∧
    (PartsMeet 3 (ranged (dirtyDie base)) = true ∧ PartsMeet 4 (ranged (dirtyDie base)) = true ∧ PartsMeet 5 (ranged base) = true) ∧
    (base.g.opens = false ∧ base.g.freeEntry = some 0) ∧
    (0x10000 % 128 = 0 ∧ 128 % 128 = 0 ∧ ¬ 128 < 128 ∧ 2 ^ 30 % 128 = 0 ∧ ¬ 2 ^ 30 < 2 ^ 30 ∧ 2 ^ 30 < 2 ^ 30 + 128) ∧ (withS [(2, 0x10040), (3, 128)] base).src.sreg 2 = 0x10040 ∧ 0x10040 % 128 ≠ 0 ∧
    (match rangeParts 3 2 0x20000 128 base with
      | .bad w _ => w.group = 1
      | _ => false) = true ∧
    (let s := withS [(2, 0x10000), (3, 4096)] base
     (s.src.sreg 2).toNat % 4096 = 0 ∧ relLeft .dev (tlbinvEntry 0x10000 4096 s) s = false ∧ relLeft .dev (tlbinvEntry 0x10000 4096 s) (dirtyDie s) = true ∧
       changedPages s.g.tenant 0x10000 4096 s = [] ∧ (s.pendingIds s.g.tenant (fun _ => true) fun _ => true) = [] ∧ (s.cores.all fun k => k.2.wc.isEmpty) = true ∧
       changedPages 0 0x40001000 4096 remapped = [(0x40001000, 1)] ∧ pageWaits (0x40001000, 1) remapped = false) ∧ 0x10040 % 4096 ≠ 0 ∧ plain.privileged = false ∧ plain.g.handler = none := by decide +kernel

/-- A block of two words at 0x10400: 64 bits at 0x10500, 32 bits at 0x10580; compared with 0, 7 and 9 to be stored. -/
def mcBlock (n : Nat) (cmp : Nat) : List Byte :=
  [BitVec.ofNat 8 n, 1] ++ List.replicate 14 0 ++ (toBytes 8 0x10500 ++ toBytes 8 cmp ++ toBytes 8 7 ++ toBytes 8 0) ++ (toBytes 8 0x10580 ++ toBytes 8 0 ++ toBytes 8 9 ++ toBytes 8 0)
def blocked (n cmp : Nat) : State := let s := withS [(2, 0x10400)] base; { s with mem := s.mem.write (s.fpa 0x10400) (mcBlock n cmp) }

/-- The hypotheses of `mcas` on a block that passes its checks. -/
def McMeets (s : State) (hits : Bool) : Bool :=
  match mcCheck 0x10400 s with
  | .ok ws u => !u.inFlight && (mcLines ws).all (fun x => !u.locked x && !lockWaits x u) &&
      (let z := (mcLines ws).foldl (fun s x => lockReady u.g.die.toNat ws x s) (mcPublish u.g.die.toNat ws { u with nextId := u.nextId + 1 })
       let old := ws.map fun w => ofBytes (z.mem.read w.fpa w.bytes)
       decide (ws.map McWord.cmp = old) == hits && (observed (old.zipIdx.map fun y => (0x10400 + 40 + 32 * y.2, y.1)) z).isSome)
  | _ => false

/-- An `mcas` in flight that waits for the lock of a line, which is free. -/
def mcWords : List McWord :=
  match mcCheck 0x10400 (blocked 2 0) with
  | .ok ws _ => ws
  | _ => []

def granting (line : Nat) : State :=
  let s := blocked 2 0
  let a := capture ⟨.mcas, false, true, 8, 0, .dev, 4⟩ 1 0x10400 0 0 (Lanes.all 0) [] s
  { s.setG (fun g => g.setEntry 0 { LogEntry.empty with state := .inFlight, acc := some a, todo := 1, got := mcWords.map McWord.pack }) with locks := [⟨line, 0, [1]⟩] }

/-- The hypotheses of a grant to it. -/
def GrantMeets (line : Nat) (next : Option Nat) : Bool :=
  let s := granting line
  let f := s.focus 1
  let ws := (f.g.entry 0).got.map McWord.unpack
  let z := lockReady f.g.die.toNat ws line f
  let t : State := { z with locks := mapIf (fun y => y.line = line) (fun y => { y with holder := 1, queue := [] }) z.locks }
  decide (s.locks.find? (fun x => x.line = line && x.holder = 0) = some ⟨line, 0, [1]⟩) && !lockWaits line s && decide (f.g.mcasEntry = some 0) &&
    decide ((mcLines ws).find? (line < ·) = next) &&
    match (t.g.entry 0).acc with
    | some a => (observed ((mcFound ws t).zipIdx.map fun y => ((a.base + BitVec.ofNat 64 (40 + 32 * y.2)).toNat, y.1)) (mcEffect ws a.op.reg t)).isSome
    | none => false

theorem witness_LockGrants : GrantMeets 522 (some 523) = true ∧ GrantMeets 523 none = true := by decide +kernel

theorem witness_McasAndLocks : MayIssue (.mcas 4 2 0) (blocked 2 0) = true ∧ McMeets (blocked 2 0) true = true ∧ McMeets (blocked 2 1) false = true ∧ (blocked 2 0).g.opens = false ∧ (blocked 2 0).g.flies MemKind.fences = false ∧ (blocked 2 0).g.freeEntry = some 0 ∧
    (match mcCheck 0x10400 (blocked 9 0) with
      | .bad w _ _ _ => w = ⟨10, 1, 0x10400, false⟩
      | _ => false) = true ∧ ((withS [(2, 0x10408)] base).src.sreg 2).toNat % 16 ≠ 0 ∧
    (let s := { base with locks := [⟨512, 0, [1]⟩] }
     s.locks.find? (fun x => x.line = 512 && x.holder = 0) = some ⟨512, 0, [1]⟩ ∧ lockWaits 512 s = false ∧ (s.focus 1).g.mcasEntry = none ∧ s.locks.find? (fun x => x.line = 513 && x.holder = 0) = none) ∧
    (∀ e ∈ List.range 4, (base.g.entry e).state ≠ .inFlight) := by decide +kernel

/-- The arrival of a barrier word whose release is not complete, at the object 0x40 of a pending count. -/
def standing (pend : Nat) (reg : Option Nat) : State := (bar 0 2 pend 0 0 base).setG fun g => { g with arriving := [⟨5, 0x40, 0, reg, [77], false⟩] }

def record1 : DiffRecord := ⟨5, 512, 0, [⟨3, [9]⟩], 0, 0, .release, 0, [1]⟩

theorem witness_PendingArrivals : (let s := bar 0 2 1 0 0 (dirtyDie base)
     s.g.opens = false ∧ (releaseBegin .dev [] s).1.isEmpty = false ∧ (s.src.sreg 2).toNat = 0x40 ∧ spadKey s 0x40 = .ok 0x40 ∧ s.g.arriving = [] ∧ bits (barrierAt s 0x40) 27 16 ≠ 0 ∧
       sectorsFit (sectorsOf (barrierAt s 0x40) + (s.src.sreg 3).toInt) = true ∧ MayIssue (.barArrive 2 3 4 0) s = true ∧ MayIssue (.barArrivet 5 2 3 4 0) s = true) ∧
    (∀ pend ∈ [0, 1], let s := standing pend none
     s.releases = [] ∧ (s.allGangs.find? fun g => g.arriving.any fun x => x.id = 5) = some s.g ∧ s.gang? s.g.uid = some s.g ∧ s.g.status = .resident ∧
       s.g.arriving.find? (fun x => x.id = 5) = some ⟨5, 0x40, 0, none, [77], false⟩ ∧ s.records = [] ∧
       (let v := (s.focus s.g.uid).setG fun g => { g with arriving := g.arriving.filter fun y => y.id != 5 }
        spadKey v 0x40 = .ok 0x40 ∧ (bits (barrierAt v 0x40) 27 16 = 0 ↔ pend = 0) ∧ sectorsFit (sectorsOf (barrierAt v 0x40) + 0) = true)) ∧
    (∃ r ∈ [{ record1 with id := 77 }], r.id ∈ [77]) := by decide +kernel

theorem witness_PublicationEvents : (let s := { base with records := [record1, { record1 with id := 6 }] }
     s.records.find? (fun x => x.id = 5) = some record1 ∧ s.locked 512 = false ∧ s.records.takeWhile (fun x => x.id != 5) = [] ∧
       (∃ x ∈ s.records.takeWhile (fun x => x.id != 6), x.die = 0 ∧ x.line = 512) ∧ s.mem.wf = true ∧ s.spad.wf = true) ∧
    ((dirtyDie base).die 0).line? 512 = some ⟨512, lineBytes 1, some ⟨lineBytes 0, 0, 0, 0, false⟩, 0, none⟩ ∧ ((dirtyDie base).die 0).line? 513 = some ⟨513, lineBytes 0, none, 0, none⟩ ∧
    max 16 ((base.die 0).pool * 8192 / 64) > (base.die 0).pool * 8192 - (base.die 0).twinsUsed ∧ max 16 (1 * 8192 / 64) ≤ 1 * 8192 - 0 ∧
    ({ base with copies := [⟨7, 0, { record1 with line := 513 }, 1⟩] } : State).copies.find? (fun x => x.id = 7) = some ⟨7, 0, { record1 with line := 513 }, 1⟩ ∧ (1 : Half) - 1 = 0 ∧
    ({ base with fills := [⟨8, 0, 600, lineBytes 2, 1, 0, [], true⟩] } : State).fills.find? (fun x => x.id = 8) = some ⟨8, 0, 600, lineBytes 2, 1, 0, [], true⟩ ∧ ((dirtyDie base).die 0).line? 600 = none ∧ (base.die 0).epoch = 0 ∧
    newer 0x8000 1 = true ∧ newer 1 1 = false ∧ newer 0x8000 0 = false ∧
    (let s := { base with releases := [⟨9, 1, .dev, [5], none⟩], records := [record1] }
     s.releases.find? (fun x => x.id = 9) = some ⟨9, 1, .dev, [5], none⟩ ∧ releaseDone s ⟨9, 1, .dev, [5], none⟩ = false ∧ releaseDone { s with records := [] } ⟨9, 1, .dev, [5], none⟩ = true ∧ s.gang? 1 = some s.g ∧ s.g.status = .resident ∧ s.g.relPending ≠ some 9 ∧
       (s.setG fun g => { g with relPending := some 9 }).g.relPending = some 9 ∧ (s.gang? 5).isNone = true) := by
  decide +kernel

/-- A grain of one sector that die 0 owns, at sector 2048 (byte 0x10000). -/
def owning : State := (base.setDie 0 fun D => { D with grains := [⟨2048, List.replicate 32 1⟩] }).setDir ⟨2048, 1, [], some 0, 3, 0⟩
def request (op : Option (Nat × Nat × Nat × Nat)) : PeerRequest := ⟨7, 1, 0x10000, op, none⟩

theorem witness_HomeEvents : (let w : WriteBack := ⟨7, 0, 2048, List.replicate 32 1, 3⟩
     (owning.dirEntry 2048 1).owner = some 0 ∧ (owning.dirEntry 2048 1).version = w.version ∧ ({ owning with writeBacks := [w] } : State).writeBacks.find? (fun x => x.id = 7) = some w) ∧
    (owning.die 0).grains.find? (fun x => x.base = 2048) = some ⟨2048, List.replicate 32 1⟩ ∧ (base.die 0).grains.find? (fun x => x.base = 2048) = none ∧
    (0 < base.unit.clockMhz ∧ ((base.setDie 0 fun D => { D with eclipse := ⟨0, 0⟩ }).die 0).eclipse.next ≤ base.clk ∧ base.clk < ((base.setDie 0 fun D => { D with eclipse := ⟨15, 1000000⟩ }).die 0).eclipse.next) ∧
    (∀ op ∈ [none, some (0, 4, 1, 0)], let s := { base with requests := [request op] }
      s.requests.find? (fun x => x.id = 7 && x.reply.isNone) = some (request op) ∧ s.isLocal 0x10000 = true ∧ homeWaits 0x10000 128 s = false ∧ lineOf 0x10000 = 512 ∧ regionOf (ppaOf 0x10000) = .hbm ∧ s.directory = []) ∧
    (∀ a ∈ [(0x10000 : Nat), 0x0], hostFits a 64 = true ∧ regionOf a = .hbm ∧ homeWaits (base.fpa a) 64 base = false) ∧ (hostFits 0x200000000000 1 = true ∧ regionOf 0x200000000000 = .host) := by decide +kernel
/-! ### The fabric -/

/-- A link at its limit of failures. -/
def badLink : Link := ⟨true, false, .steady, 64, none, none, 0⟩

/-- Two switches, 1 there and 2 lost, a quota of four granules on switch 1, and the operands of the words of switch memory: the last aperture
base in s2, switch 1 and one granule in s3. -/
def aperture0 : Dword := 0x1FFFC0000000000
def apertureEnd : Dword := 0x1FFFFFFFE000000
def fabric (b c : Dword) : State :=
  { withS [(2, b), (3, c)] base with switches := [⟨1, 1, .present, 0⟩, ⟨2, 2, .lost, 4095⟩], quotas := [(0, 1, 4)] }

/-- Granule 5 of switch 1 allocated to the tenant, and mapped at the aperture's first entry. -/
def mapped : State :=
  let s : State := { fabric aperture0 (2 ^ 63 + 2 ^ 51 + 5 * 2 ^ 25) with swAllocs := [⟨1, 0, 5, 1, 0⟩] }
  writeAperture 0 0 (3 + 4 + 5 * 2 ^ 14 + 2 ^ 40) s

theorem witness_SwitchMemoryWords : (∀ i ∈ [Instr.swmAlloc 4 2 3 0, .swmMap 4 2 3 0, .swmUnmap 4 2 0, .swmFree 4 2 0], MayIssue i (fabric apertureEnd (1 + 2 ^ 16)) = true) ∧
    (apertureIndex aperture0.toNat = some 0 ∧ apertureIndex apertureEnd.toNat = some 131071 ∧ apertureIndex (2 ^ 57) = none ∧ apertureIndex (aperture0.toNat + 1) = none) ∧
    ((fabric 0 0).leaving = false ∧ (fabric 0 0).g.opens = false ∧ (fabric 0 0).g.freeEntry = some 0 ∧ swmBehind 0 (fabric 0 0) = false) ∧
    (let s : State := { fabric 0 0 with gangs := [{ base.g with uid := 2 }.setEntry 0 { LogEntry.empty with state := .inFlight, engine := true, acc := some (capOnce 0x2C 0 4 2 3 0 base), recs := some [] }] }
     s.leaving = false ∧ s.g.opens = false ∧ s.g.freeEntry = some 0 ∧ swmBehind 0 s = true) ∧ mapStatus 0 131071 1 (fabric 0 0) = none ∧ 131072 < 131071 + 2 ∧ readAperture 0 0 mapped % 2 = 1 ∧ mapStatus 0 0 1 mapped = some 3 ∧
    (switchPresent (fabric 0 0) 1 = true ∧ (fabric 0 0).switch? 1 = some ⟨1, 1, .present, 0⟩ ∧ (fabric 0 0).linkUp 1 = true ∧ switchPresent (fabric 0 0) 2 = false) ∧
    ({ fabric 0 0 with links := (fabric 0 0).links.set 1 { badLink with up := false } } : State).linkUp 1 = false ∧ apertureWaits 0 131071 1 (fabric 0 0) = false ∧ apertureWaits 0 0 1 mapped = false ∧
    (quotaOf (fabric 0 0) 0 1 = 4 ∧ granulesHeld (fabric 0 0) 0 1 = 0 ∧ granulesHeld mapped 0 1 = 1 ∧ runFree (fabric 0 0) 1 0 4 = true) ∧
    (∀ x ∈ mapped.swAllocs, x = ⟨1, 0, 5, 1, 0⟩) ∧ (switchOf (mapped.src.sreg 3).toNat = 1 ∧ generationOf (mapped.src.sreg 3).toNat = 0 ∧ granuleOf (mapped.src.sreg 3).toNat = 5) ∧
    mapStatus 0 1 1 mapped = none ∧ bits (readAperture 0 0 mapped) 1 0 = 3 ∧ bits (readAperture 0 1 mapped) 1 0 ≠ 3 ∧ mappingLive (readAperture 0 0 mapped) mapped = true ∧ mappingLive (3 + 2 * 4) mapped = false ∧
    (planeOf mapped (switchBase 1 0 5)).isSome = true ∧ (planeOf { mapped with links := mapped.links.set 1 { badLink with up := false } } (switchBase 1 0 5)).isNone = true ∧
    ((drainSwitch 0 mapped).pendingIds 0 (fun p => 8192 ≤ p.dest) fun x => isSwitch x) = [] ∧
    ((drainSwitch 0 { mapped with packets := [⟨7, 0, 8193, 1, none, 0, 0, .signalAdd 0 0, [1], 0, 0, 0, false, 1, false, false⟩] }).pendingIds 0 (fun p => 8192 ≤ p.dest) fun x => isSwitch x) = [7] := by decide +kernel

/-- Group 7 of this package and package 1; a payload at 0x10100, a destination at 0x10200, a control word. -/
def grouped (ctl : Dword) : State := { withS [(2, 0x10100), (3, 0x10200), (4, ctl)] base with groups := [⟨7, 0, [0, 1], 7⟩] }

def PayloadMeets (i : Instr) (ctl : Dword) : Bool :=
  let s := grouped ctl
  MayIssue i s && (s.src.preg 0 &&& s.src.emask) != 0 && !s.leaving && !s.g.opens && decide (s.g.freeEntry = some 0) && decide (collectives s s.g.coreIx < 16) &&
    decide (groupFor s (bits ctl.toNat 11 0) = some ⟨7, 0, [0, 1], 7⟩) && s.linkUp 7 &&
    match readLong (gangRead [] s.agent) (linesFor 256) 0x10100 256 s with
    | .ok _ u => u.linkUp 7 && decide (u.g.status ≠ .vacant) && u.branches.isEmpty
    | _ => false

theorem witness_CollectiveAndSignalWords : PayloadMeets (.fmc 2 3 4 0 0) 7 = true ∧ PayloadMeets (.fmc 2 3 4 0 0) 0x1007 = true ∧ PayloadMeets (.fred 2 3 4 0 0) 7 = true ∧ PayloadMeets (.fred 2 3 4 0 0) 0x10000B007 = true ∧
    (bits 0x2007 63 13 ≠ 0 ∧ 3 < bits 0x4007 14 12 ∧ 2 < bits 0x18007 17 15 ∧ (bits 0x3007 14 12 = 3 ∧ bits 0x3007 17 15 ≠ 1) ∧ bits (2 ^ 46 + 7) 63 46 ≠ 0 ∧ bits (2 * 2 ^ 32 + 7) 44 32 ∉ [0, 1]) ∧
    (masked 0 (grouped 7)).src.preg 0 &&& (masked 0 (grouped 7)).src.emask = 0 ∧ 16 ≤ collectives { grouped 7 with contribs := List.replicate 16 ⟨5, 0, 1, 0, 7, 0, [], 0⟩ } (grouped 7).g.coreIx ∧
    (let s := withS [(2, 0x10008), (3, 5)] base
     MayIssue (.fsig 2 3 0 0) s = true ∧ s.leaving = false ∧ s.g.opens = false ∧ s.g.freeEntry = some 0 ∧ (∀ n ∈ List.range 4, (s.g.entry n).state ≠ .inFlight) ∧ (s.src.sreg 2).toNat % 8 = 0 ∧ (match translate true true 0x10008 s with
        | (u, .ok x _) => decide (switchGone u x = none) && decide (regionOf (ppaOf x) ≠ .weight)
        | _ => false) = true) ∧
    (match translate true true 0x20008 base with
      | (_, .bad w) => w.group = 1
      | _ => false) = true ∧ (withS [(2, 0x10004)] base).src.sreg 2 = 0x10004 ∧ ((fenced base).g.opens = false ∧ (fenced base).g.freeEntry = some 0 ∧ ((fenced base).g.entry 1).state = .inFlight) ∧
    MayIssue (.fstat 4 0) base = true ∧
    (let r : PendingRelease := ⟨9, 1, .fab, [], some (0x10008, 5)⟩
     let s : State := { base with releases := [r] }
     s.releases.find? (fun y => y.id = 9) = some r ∧ releaseDone s r = true ∧ s.gang? r.gang = some s.g ∧ s.isLocal 0x10008 = true ∧ (homeAdd ⟨s.g.coreIx, s.g.tenant, s.g.uid, false⟩ 0x10008 5 s).isSome = true ∧
       s.isLocal (2 ^ 46 + 8) = false ∧ switchGone s (2 ^ 46 + 8) = none ∧ (s.core s.g.coreIx).wc = [] ∧ entryUnacked s (2 ^ 46 + 8) = false) := by decide +kernel

/-- A packet of this package to itself, to another, and to switch 1. -/
def packet (k : PacketKind) (dest : Nat) : Packet := ⟨7, 0, dest, 3, none, 0, 0, k, [1], 0, 0, 0, false, 1, false, false⟩
def sending (k : PacketKind) : State := { base with packets := [packet k 0] }

theorem witness_FabricEvents :
    (let s := base.setCore 0 fun K => { K with wc := [⟨4096, List.replicate 128 (some 1), [1], 0, 0, 0⟩] }
     (s.core 0).wc.find? (fun x => x.line = 4096) = some ⟨4096, List.replicate 128 (some 1), [1], 0, 0, 0⟩ ∧ (s.tenant 0).age.toNat * s.unit.clockMhz ≤ 100 * (0 + (3300 - 0)) ∧
       100 * (0 + (3299 - 0)) < (s.tenant 0).age.toNat * s.unit.clockMhz) ∧
    (∀ k ∈ [PacketKind.write 512 (List.replicate 128 (some 1)), .atomic 0x10000 0 4 1, .signalAdd 0x10008 1, .predSignal 0 0x10000 false], let s := sending k
      s.packets.find? (fun x => x.id = 7) = some (packet k 0) ∧ packetTurn s (packet k 0) = true ∧ packetFault s (packet k 0) = none ∧ (packet k 0).waits s = false ∧ s.directory = [] ∧ s.mem.wf = true ∧ s.spad.wf = true) ∧
    (packetTurn (sending (.drain 0 0 [])) (packet (.drain 0 0 []) 0) = true ∧ (packet (.drain 0 0 []) 0).patient = true ∧ (packet (.signalAdd 0 1) 0).patient = false ∧ (peerRefusal base (packet (.signalAdd 0 1) 1) 3).isSome = true ∧ peerRefusal base (packet (.signalAdd 0 1) 0) 0 = none) ∧
    ({ sending (.drain 0 0 []) with arrivals := [⟨3, 0, 0, 0, 7, 0, 0, 0, [], false⟩] } : State).arrivals.any (fun a => a.packet = 7) = true ∧ (sending (.drain 0 0 [])).arrivals = [] ∧
    (packetFault (sending (.write (0xC000000000 / 128) [])) (packet (.write (0xC000000000 / 128) []) 0)).isSome = true ∧
    (let p := { packet (.signalAdd 0 1) 0 with applied := true }
     ({ base with packets := [p] } : State).packets.find? (fun x => x.id = 7) = some p ∧ p.applied = true ∧ p.gangs = [1] ∧ base.gang? 1 = some base.g) ∧
    (base.links[17].up = true ∧ base.links[0].rollover = .steady ∧ 64 ≤ badLink.failures ∧ base.linkUp 0 = true ∧ base.linkUp 9 = true ∧ base.downLinks = [] ∧ bits (0 : Nat) 23 7 + packageOf 0 = 0) ∧
    ((fabric 0 0).switch? 1 = some ⟨1, 1, .present, 0⟩ ∧ (fabric 0 0).switch? 2 = some ⟨2, 2, .lost, 4095⟩ ∧ (packet (.signalAdd 0 1) 8193).dest = 8192 + 1 ∧ (fabric 0 0).gang? 1 = some (fabric 0 0).g) := by
  decide +kernel

/-- A contribution of this package to round 3 of group 7: a sum of 128 16-bit integers for both members; and the other's. -/
def contrib (pkg : Nat) : Contribution := ⟨5, pkg, 1, 0, 7 + 3 * 2 ^ 18 + 2 ^ 45, 0x10200, List.replicate 256 1, 0⟩
def reducing (r : List Round) : State := { grouped 7 with contribs := [contrib 0], rounds := r }
def delivery : Delivery := ⟨4, 0, 0, 1, 0, 0x10200, List.replicate 256 1, true, 7, 3, 0, 1⟩
def delivering (d : Delivery) : State := { grouped 7 with deliveries := [d] }

theorem witness_CollectiveEvents : bits (contrib 0).control.toNat 11 0 = 7 ∧ bits (contrib 0).control.toNat 31 18 = 3 ∧ (contrib 0).pkg = (reducing []).pkg.toNat ∧
    (reducing []).contribs.find? (fun c => c.id = 5) = some (contrib 0) ∧ (reducing []).groups.find? (fun g => g.id = 7) = some ⟨7, 0, [0, 1], 7⟩ ∧ (reducing []).linkUp 7 = true ∧
    ({ reducing [] with links := (reducing []).links.set 7 { badLink with up := false } } : State).linkUp 7 = false ∧ (∀ m ∈ [0], m = (contrib 0).pkg) ∧
    (∃ m ∈ [0, 1], m ≠ (contrib 0).pkg) ∧ (reducing []).gang? 1 = some (reducing []).g ∧ 16 ≤ ((reducing (List.replicate 16 ⟨7, 4, [], none⟩)).rounds.filter fun r => r.group = 7).length ∧
    (reducing [⟨7, 3, [contrib 1], none⟩]).rounds.find? (fun r => r.group = 7 && r.number = 3) = some ⟨7, 3, [contrib 1], none⟩ ∧ (contrib 1).pkg ≠ (contrib 0).pkg ∧ roundFields (contrib 1) = roundFields (contrib 0) ∧
    (∀ m ∈ [0, 1], m = (contrib 0).pkg ∨ ∃ x ∈ [contrib 1], x.pkg = m) ∧ roundFields { contrib 1 with control := 7 + 3 * 2 ^ 18 } ≠ roundFields (contrib 0) ∧
    (∃ m ∈ [0, 1, 2], m ≠ (contrib 0).pkg ∧ ∀ x ∈ [contrib 1], x.pkg ≠ m) ∧ (reducing []).branches = [] ∧
    (delivering delivery).deliveries.find? (fun d => d.id = 4) = some delivery ∧ branchBehind delivery (delivering delivery) = false ∧ branchBehind delivery (delivering { delivery with id := 3 }) = true ∧
    ({ delivery with pkg := 1 }.pkg ≠ base.pkg.toNat ∧ (delivering { delivery with pkg := 1 }).downLinks = []) ∧ delivery.pkg = (delivering delivery).pkg.toNat ∧
    (match translateBranch 0 [0x10200, 0x10280, 0x10300] (delivering delivery) with
      | .ok [a, b, w] u => u.isLocal a && u.isLocal b && u.isLocal w && !homeWaits a 128 u && !homeWaits b 128 u &&
          (homeAdd ⟨320, 0, 0, false⟩ w 1 (writeWhole b (delivery.payload.drop 128) (writeWhole a (delivery.payload.take 128) u))).isSome
      | _ => false) = true ∧
    (match translateBranch 0 [0x20200, 0x20280, 0x20300] (delivering { delivery with dest := 0x20200 }) with
      | .bad w u => decide (w.group = 1) && decide (u.pkg = 0) && (u.gang? 1).isSome && u.residues.isEmpty
      | _ => false) = true ∧
    ({ base with residues := [⟨1, 2, 3, [delivery]⟩] } : State).residues.find? (fun r => r.sw = 1 && r.port = 2 && r.entry = 3) = some ⟨1, 2, 3, [delivery]⟩ ∧ (∃ g ∈ (grouped 7).groups, g.id = 7) ∧
    (∀ g ∈ (grouped 7).groups, g.id ≠ 8) := by decide +kernel
theorem witness_CollectiveRetransmits : (reducing []).packets = [] ∧ (contrib 0).sent < 15 ∧
    (let s : State := { grouped 7 with contribs := [{ contrib 0 with sent := 15 }] }
     s.contribs.find? (fun c => c.id = 5) = some { contrib 0 with sent := 15 } ∧ (contrib 0).pkg = s.pkg.toNat ∧ s.gang? 1 = some s.g) ∧
    ((delivering delivery).packets = [] ∧ (delivering delivery).contribs = [] ∧ delivery.sent < 16) ∧
    (let d := { delivery with sent := 16 }
     (delivering d).deliveries.find? (fun d => d.id = 4) = some d ∧ d.counted = true ∧ d.sender = (delivering d).pkg.toNat) ∧
    (let s : State := { delivering { delivery with pkg := 1 } with peerPages := [⟨1, 0, 0x10, 2 ^ 46 + 0x3000⟩] }
     s.peerPages.find? (fun x => x.pkg = 1 && x.tenant = 0 && x.page = 0x10200 / 4096) = some ⟨1, 0, 0x10, 2 ^ 46 + 0x3000⟩) := by decide +kernel

/-! ### The dispatch engine and the sequencer -/

/-- A valid descriptor: code at 0x10000, 8 vector registers, one crew of one gang, a grid of one ensemble, n predecessors. -/
def descBytes (tenant : Byte) (n : Nat) : List Byte :=
  toBytes 8 0x10000 ++ List.replicate 19 0 ++ [tenant] ++ toBytes 2 8 ++ toBytes 2 1 ++ toBytes 4 0 ++ toBytes 4 n ++ [1, 0, 1, 0, 1, 0] ++ List.replicate 10 0 ++ [1] ++ List.replicate 199 0

/-- The descriptor at 0x10400, its address in s2, this package in s3. -/
def described (tenant : Byte) (n : Nat) : State := let s := withS [(2, 0x10400), (3, 0)] base; { s with mem := s.mem.write (s.fpa 0x10400) (descBytes tenant n) }

def LaunchReads (tenant : Byte) (n : Nat) (f : Descriptor → State → Bool) : Bool :=
  let s := described tenant n
  match readLong (gangRead [] s.agent) (linesFor 256) 0x10400 256 s with
  | .ok y v => f (parseDescriptor y) v
  | _ => false

/-- The release of a command waits, once begun. -/
def goesLeft (sc : Scope) (s : State) : Bool :=
  match relBegin sc [] (commandEntry (capOnce 0x30 0 4 2 0 0 s) s) { s with nextId := s.nextId + 1 } with
  | (y, u) => relWaits sc { y with todo := 1 } u

theorem witness_NodeWords : MayIssue (.ndLaunch 4 2 0) (described 0 1) = true ∧ MayIssue (.ndSignal 4 2 3 0) (described 0 1) = true ∧ MayIssue (.ndStat 4 2 0) (described 0 1) = true ∧
    (described 0 1).g.freeEntry = some 0 ∧ goesLeft .dev (described 0 1) = false ∧ goesLeft .fab (described 0 1) = false ∧ goesLeft .dev (dirtyDie (described 0 1)) = true ∧ goesLeft .fab (dirtyDie (described 0 1)) = true ∧
    (∀ y ∈ (described 0 1).g.log.toList, y.state ≠ .inFlight) ∧ (let a := capVector (mopWindow .store 4 0 0) 5 0 [1] pad1; (flying a pad1).g.log.toList.any fun y => y.state = .inFlight && y.seq < (flying a pad1).nextId) = true ∧
    (∀ n ∈ [0, 1], LaunchReads 0 n (fun D v => D.valid && decide (D.owner = v.g.tenant) && decide (v.nodes.length < 4096) &&
      match takeEarly D.owner 0x10400 v with
      | some (_, z) => z.tokens.isEmpty && z.nodes.all fun m => m.id != nextId z
      | none => false) = true) ∧
    LaunchReads 5 0 (fun D v => D.valid && decide (D.owner ≠ v.g.tenant)) = true ∧ LaunchReads 64 0 (fun D _ => !D.valid) = true ∧ LaunchReads 0 65536 (fun D _ => !D.valid) = true ∧
    (match readLong (gangRead [] base.agent) (linesFor 256) 0x20000 256 base with
      | .bad w _ => w.group = 1
      | _ => false) = true ∧ (0x10401 % 64 ≠ 0 ∧ 8191 < 8192 ∧ (0 : Nat) ∈ ({ base with domain := [0, 1] } : State).domain ∧ (5 : Nat) ∉ base.domain) ∧
    (base.node? 0).isSome = true ∧ base.node? 9 = none ∧ (base.node? 0).map Node.state = some .running := by decide +kernel

/-- An image at 0x10000 of one sequence, its header at 0x10100: slot 3 and one micro-op, `ret` of the first source. -/
def headerWord : Nat := 3
def retWord : Word := BitVec.ofNat 32 (0x3F * 2 ^ 26 + 8 * 2 ^ 19 + 13 * 2 ^ 15 + 13 * 2 ^ 11)
def imaged (entry header : Nat) : State :=
  let s := withS [(2, 0), (3, 3)] (base.setTenant 0 fun T => { T with image := 0x10000, imageCount := 1 })
  { s with mem := (s.mem.write (s.fpa 0x10000) (toBytes 8 entry)).write (s.fpa 0x10100) (toBytes 8 header ++ toBytes 4 retWord.toNat) }

/-- The sequence bound to slot 3, on page 0. -/
def page1 : Page := ⟨0, 0, 3, [retWord]⟩
def bound (ws : List Word) : State :=
  (base.setCore 0 fun K => { K with pages := [(0, { page1 with words := ws })] }).setCrew crew1.uid fun c => { c with bindings := [⟨3, 0, 0x10100, 0, 0⟩] }

theorem witness_SequencerWords : (MayIssue (.sqBind 4 2) base = true ∧ MayIssue (.sqUnbind 2) base = true ∧ MayIssue (.sqQuery 4 2) base = true ∧ MayIssue (.sqImg 2 3) base = true) ∧
    base.leaving = false ∧ base.g.freeEntry = some 0 ∧ base.myCrew = some crew1 ∧ (base.tenant 0).image = 0 ∧ ((imaged 0 0).tenant 0).image ≠ 0 ∧ ((imaged 0 0).tenant 0).imageCount ≤ 1 ∧
    (let s := imaged (2 ^ 63 + 0x100) headerWord
     match readLong (gangRead [] s.agent) (linesFor 8) (0x10000 + 8 * 0) 8 s with
      | .ok y u => decide (bits (ofBytes y) 63 63 = 1) && decide (bits (ofBytes y) 19 0 % 8 = 0) && decide (bits (ofBytes y) 19 0 = 0x100) && !u.tlb.isEmpty
      | _ => false) = true ∧
    (let s := base.setTenant 0 fun T => { T with image := 0x20000, imageCount := 1 }
     match readLong (gangRead [] s.agent) (linesFor 8) 0x20000 8 s with
      | .bad w _ => w.group = 1
      | _ => false) = true ∧
    (match readSequence (gangRead [] base.agent) 0x20100 base with
      | .bad w _ => w.group = 1
      | _ => false) = true ∧
    (match readSequence (gangRead [] base.agent) 0x10100 (imaged 0 (2 ^ 10)) with
      | .ok (.status n) _ => n = 2
      | _ => false) = true ∧
    pageFor (bound [retWord]) 0 0 0 = some 0 ∧ (bindingOf (bound [retWord]) 3).isSome = true ∧ bindingOf base 3 = none ∧
    (0x1000 % 4096 = 0 ∧ 0x1001 % 4096 ≠ 0 ∧ 256 ≤ 256 ∧ 256 < 257) := by decide +kernel

theorem witness_SequencerWords_good : uGood retWord.toNat 0 1 0 = true ∧
    (match readSequence (gangRead [] base.agent) 0x10100 (imaged (2 ^ 63 + 0x100) headerWord) with
      | .ok (.good q ws _) _ => decide (q = 3) && decide (ws = [retWord.toNat])
      | _ => false) = true := by decide +kernel

def rin : RunIn := ⟨0, base.src.vreg 1, base.src.vreg 2, base.src.vreg 3, base.src.emask⟩
def guardWord : Word := BitVec.ofNat 32 (0x3C * 2 ^ 26 + 11 * 2 ^ 19 + 13 * 2 ^ 15 + 13 * 2 ^ 11 + 7)
def loadWord : Word := BitVec.ofNat 32 (0x30 * 2 ^ 26 + 11 * 2 ^ 19 + 13 * 2 ^ 15 + 13 * 2 ^ 11)

theorem witness_SequenceRuns : MayIssue (.dwx 0 1 2 3 3) base = true ∧ bindingOf base 3 = none ∧ (bindingOf (bound [retWord]) 3).isSome = true ∧ (masked 0 (bound [retWord])).src.emask = 0 ∧
    (bound [retWord]).src.emask ≠ 0 ∧
    (match runFrom rin 0 [retWord] 0 (List.replicate 8 (Lanes.all 0)) 0 base with
      | .done _ f _ => f = 0
      | _ => false) = true ∧
    (match runFrom rin 0 [guardWord] 0 (List.replicate 8 (Lanes.all 0)) 0 base with
      | .trap g c _ m _ => decide (g = 4) && decide (c = 7) && decide (m = 0xFFFFFFFE)
      | _ => false) = true ∧
    (match runFrom rin 0 [loadWord] 0 (List.replicate 8 (Lanes.all 0)) 0 base with
      | .trap g c _ m _ => decide (g = 14) && decide (c = 3) && decide (m = 0xEEEEEEEE)
      | _ => false) = true ∧ (uOp retWord.toNat = 0x3F ∧ uOp guardWord.toNat = 0x3C) := by decide +kernel

/-! ### Nodes, ensembles, the host -/

/-- A node that waits for one predecessor, its signal, and its admission through queue 15. -/
def node1 : Node := { loadNode State.reset with state := .waiting, remaining := 1, addr := 0x10400, hasPred := true }
def signal1 : PredSignal := ⟨5, 0, 0x10400, [0], false, false, none⟩
def admission1 : Admission := ⟨6, 0, 15, 0x10400, loadDesc, true, true⟩

/-- Queue 15 of tenant 0, its ring at 0x10800 with one entry for the descriptor at 0x10400. -/
def queued : State :=
  let s := (described 0 1).setTenant 0 fun T => { T with queues := T.queues.set 15 ⟨0x10800, true, 0, 0, 0⟩ }
  { s with mem := s.mem.write (s.fpa 0x10800) (toBytes 8 0x10400 ++ toBytes 8 3) }

theorem witness_NodeEvents : (let u := queued.setTenant 0 (fun T => { T with queues := T.queues.setIfInBounds 15 { queueAt T 15 with tail := 1 } })
     entryWaits 0 15 u = true ∧ entryWaits 0 15 queued = false ∧ (match takeEntry 0 15 u with
      | some v => entryWaits 0 15 v = false
      | none => false) = true ∧
     (match hubRead 0 0x10800 16 u with
      | .ok y v => decide (bits (ofBytes y) 56 0 = 0x10400) && decide (bits (ofBytes y) 63 57 = 0) && decide (bits (ofBytes y) 127 66 = 0) &&
          match readLong (hubRead 0) (linesFor 256) 0x10400 256 v with
          | .ok z w => (parseDescriptor z).valid && decide ((parseDescriptor z).owner = 0) && decide (w.tenant 0 = u.tenant 0)
          | _ => false
      | _ => false) = true) ∧
    ({ described 0 1 with admissions := [admission1] } : State).admissions.find? (fun a => a.id = 6) = some admission1 ∧
    (match takeEarly 0 0x10400 (described 0 1) with
      | some (_, z) => z.tokens.isEmpty && z.nodes.all fun n => n.id != nextId z
      | none => false) = true ∧
    (let s : State := { base with predSignals := [signal1], nodes := [node1] }
     s.predSignals.find? (fun p => p.id = 5) = some signal1 ∧ (s.tenant 0).resetting = false ∧ node1.desc.owner = 0 ∧ node1.error = none ∧ node1.state = .waiting ∧ 1 ≤ node1.remaining ∧ node1.fenceOn = [] ∧
       node1.predError = false) ∧
    ((base.setTenant 0 fun T => { T with resetting := true }).tenant 0).resetting = true ∧
    (∀ n ∈ (described 0 1).nodes, ¬(n.desc.owner = 0 ∧ n.addr = 0x10400 ∧ n.error = none)) ∧
    (match hubRead 0 0x10430 4 (described 0 1) with
      | .ok y u => match hubWrite 0 0x10430 (toBytes 4 (ofBytes y + 1)) u with
        | .ok [] v => v.tokens.isEmpty
        | _ => false
      | _ => false) = true ∧
    (let n := { loadNode State.reset with nextEns := loadDesc.total, release := some [] }
     let s : State := { State.reset with nodes := [n] }
     s.nodes = [n] ∧ n.state = .running ∧ s.ensembles = [] ∧ s.allGangs = [] ∧ s.cores = [] ∧ n.desc.signal = 0 ∧ n.desc.succCount = 0 ∧ n.ranOn = [] ∧ n.queue = none ∧ nodeDone s n = true ∧
       (writeSignal 0 n.desc.signal.toNat (2 ^ 63 + n.id.toNat) s).isSome = true) ∧
    (let n := { loadNode State.reset with nextEns := loadDesc.total, release := some [], error := some ⟨3, 0, 0⟩ }
     let s : State := { State.reset with nodes := [n] }
     s.nodes.find? (fun n => n.id.toNat = 0) = some n ∧ nodeDone s n = true ∧ (writeSignal 0 n.desc.signal.toNat (2 ^ 63 + 2 ^ 62 + 3 * 2 ^ 48) s).isSome = true) ∧
    nodeDone base (loadNode State.reset) = false ∧ queued.host.ready = true ∧ ({ base with host := { base.host with ready := false } } : State).host.ready = false ∧
    (let e : Ensemble := ⟨4, 0, 0, [2], 0, false, .evicting, false, 0, 0, some 0⟩
     ({ base with ensembles := [e] } : State).ensemble? 4 = some e ∧ 0 ≤ base.clk) := by decide +kernel

/-- A ready node with no ensemble placed yet, on an empty device; a ready node with an ensemble evicted. -/
def readyNode : Node := { loadNode State.reset with state := .ready, nextEns := 0 }
def ready : State := { State.reset with nodes := [readyNode], nextId := 10 }
def evictedEns : Ensemble := ⟨4, 0, 0, [2], 0, false, .evicted, false, 0, 3, none⟩
def evicted : State := { State.reset with nodes := [{ readyNode with state := .running, nextEns := 1 }], nextId := 10, ensembles := [evictedEns], crews := [{ crew1 with ensemble := 4, saveArea := some 0 }] }

theorem witness_PlacementEvents : nextEnsemble State.reset = none ∧ nextEnsemble ready = some ⟨readyNode, none⟩ ∧ readyNode.id.toNat = 0 ∧ ready.hold = none ∧
    (match placesAt ready 0 false (List.replicate 1 (needOf loadDesc)) [319 - 10] with
      | some (p, b) => (startEnsemble readyNode p b ready).isSome
      | none => false) = true ∧ placesAt ready 0 false (List.replicate 1 (needOf loadDesc)) [30] = none ∧
    (placesAt ready 0 false (List.replicate 1 (needOf loadDesc)) []).isSome = true ∧
    (∃ n, nextEnsemble evicted = some ⟨n, some evictedEns⟩) ∧
    (match placesAt evicted 0 false ((crewsOf evicted 4).map fun c => needRestore evicted loadDesc c) [0] with
      | some (p, b) => p = [0] && b = [0]
      | none => false) = true ∧ (waitingEnsembles evicted) ≠ [] ∧ (fitOn 0 0 [] (needOf loadDesc)).isSome = true ∧
    (let s : State := { ready with nodes := [{ readyNode with desc := { loadDesc with kind := 1 } }] }; (∃ n ∈ s.nodes, n.desc.kind = 1) ∧ (waitingEnsembles s).length = 1) ∧
    (let s : State := { evicted with nodes := evicted.nodes ++ [{ readyNode with id := 9, state := .waiting, desc := { loadDesc with kind := 1 } }] }
     (waitingEnsembles s).length = 1 ∧ (waitingEnsembles s).all (fun x => x.node.state = .running) = true) := by
  refine ⟨by decide +kernel, by decide +kernel, by decide +kernel, by decide +kernel, by decide +kernel, by decide +kernel, by decide +kernel, ⟨_, rfl⟩, by decide +kernel, by decide +kernel, by decide +kernel, by decide +kernel, by decide +kernel⟩

theorem witness_HostEvents : (State.reset.tenant 5).resetting = false ∧ State.reset.tenantLive 5 = false ∧ base.tenantLive 0 = true ∧ (State.reset.tenant 5).valid = false ∧
    ((base.setTenant 0 fun T => { T with resetting := true }).tenant 0).resetting = true ∧ (1024 ≤ 1024 ∧ 4 % 8 ≠ 0) ∧ (1 : BitVec 6) ≠ 0 ∧
    (∀ o ∈ [(0 : Nat), 12], o ≤ 12) ∧ 12 < 13 ∧ State.reset.host.buffers = [] ∧ State.reset.host.held = [] ∧ State.reset.host.evEnabled = false ∧
    ({ State.reset with host := { State.reset.host with evEnabled := true } } : State).host.ringFull = false ∧ (24 : Dword).toNat ≤ 24 ∧ (10 : Dword).toNat % 16 ≤ 10 := by decide +kernel

theorem witness_ResetsPowerAndFirmware : State.reset.unit.railOn = true ∧
    (∀ n ∈ [1, 2, 3, 4], allAcknowledged (quietDown { State.reset with host := { State.reset.host with resetAsked := n } }) = true) ∧
    allAcknowledged (quietDown { State.reset with packets := [packet (.signalAdd 0 1) 1] }) = false ∧ State.reset.host.resetAsked = 0 ∧
    (base.tenant 0).resetting = false ∧ ((base.setTenant 0 fun T => { T with resetting := true }).tenant 0).resetting = true ∧ (2000 ≤ 2000 ∧ 4600 ≤ 4600) ∧ 1200 < State.reset.unit.clockMhz ∧
    ((base.setCore 0 fun K => { K with wc := [⟨4096, [], [1], 0, 0, 0⟩] }).core 0).wc ≠ [] ∧ State.reset.unit.unreachable = false ∧ ¬ State.reset.unit.clockMhz < 3300 ∧ (1200 < 3300 ∧ 1200 ≤ 1200) ∧ (7 < 8 ∧ (1 ≤ 3 ∧ 3 ≤ 3)) := by decide +kernel

/-- The word at the code base of the placed gang is fetched, alone in its group, with no trap due. -/
theorem witness_StepRunsDecoded : (let s := placed 0x02321400
     let z := State.serve 1 { s with agenda := [] }
     let b := beginTurn 1 false z.2
     let x : Slotted := ⟨0x02321400, wordShapeOf (.sadd 3 4 5), 0⟩
     s.agenda = [.gang 1 false] ∧ z.1 = 1 ∧ (z.2.gang? 1).map Gang.status = some .resident ∧ b.g.wait = .none ∧
     (match fetchPacket b.g.cur.packet b with
      | .words ws u => let v := reachJoins 1 [x] u
          decide (chained (ws.drop u.g.cur.slot.toNat) = [0x02321400]) && decide (groupAt ws u.g.cur.slot.toNat = [x]) && decide (decodeNat 0x02321400 = .ok (.sadd 3 4 5)) && !mustWait v.g && !joinWaits [x] v.g &&
            (dueTrap (issueTrapOf [x] v) v).isNone
      | _ => false) = true) ∧
    (base.gang? 1 = some base.g ∧ base.isReady base.g = true ∧ (armed 0 (.mwait 5 none)).isReady (armed 0 (.mwait 5 none)).g = false) ∧
    mustWait (base.setG fun g => g.setEntry 0 { LogEntry.empty with state := .inFlight, join := true, holds := true }).g = true ∧
    (let s : State := { State.reset with agenda := [.event (.eventOverflowClear)], unit := { State.reset.unit with railOn := false } }
     Instr.isWord .eventOverflowClear = false ∧ Instr.isWord .nop = true ∧ s.unit.railOn = false ∧ ({ s with agenda := [], host := { s.host with resetAsked := 5 } } : State).host.resetAsked = 5) ∧
    (let s := base.setCore 0 fun K => { K with packets := [(512, List.replicate 128 0)] }
     s.g.handler = none ∧ lookup (s.core 0).packets (lineOf (s.fpa 0x10000)) = some (List.replicate 128 0) ∧ (0x10000 + 12 * 0) % 128 ≤ 116) := by decide +kernel

/-- A word of a group. -/
def slotted (i : Instr) (n : Nat) : Slotted := ⟨encode i, wordShapeOf i, n⟩

/-- The registers captured, as `runGroup` captures them. -/
def captured (n : Nat) (s : State) : State := s.setG fun g => { g with pc := g.cur.advance n, src := some g.r, srcLog := g.olog }

/-- What the words of a group leave, and the word that stays. -/
noncomputable def GroupEnds (G : List Slotted) (s : State) (p : State → Option Slotted → Bool) : Bool :=
  match issueWords s.g.uid (issueOrder G) (captured G.length s) with
  | (.next t, z) => p t z
  | _ => false

/-- The group re-issues the word alone: it stays again, or not. -/
noncomputable def StaysAlone (z : Slotted) (n : Nat) (s : State) : Option Bool :=
  match runWord z (captured n s) with
  | .next u => some (held s.g.uid u)
  | _ => none

theorem witness_Groups : GroupEnds [slotted (.sadd 3 4 5) 0, slotted (.vaddI32 1 2 3) 1] base (fun _ z => z.isNone) = true ∧
    GroupEnds [slotted (.pldB32 1 5 0) 0, slotted .tret 1] { handler base with inFlight := true } (fun _ z => z = some (slotted .tret 1)) = true ∧
    StaysAlone (slotted .tret 1) 2 { handler base with inFlight := true } = some false ∧ isEnder (slotted .tret 1) = true ∧
    GroupEnds [slotted (.vaddI32 1 2 3) 0, slotted .tret 1] (flying (capVector (mopWindow .store 4 0 0) 5 0 [1] pad1) (handler pad1)) (fun _ z => z = some (slotted .tret 1)) = true ∧
    StaysAlone (slotted .tret 1) 2 (flying (capVector (mopWindow .store 4 0 0) 5 0 [1] pad1) (handler pad1)) = some true ∧
    GroupEnds [slotted (.pldB32 1 5 0) 0, slotted (.fenceRel 2) 1] { base with inFlight := true } (fun _ z => z = some (slotted (.fenceRel 2) 1)) = true ∧
    StaysAlone (slotted (.fenceRel 2) 1) 2 { base with inFlight := true } = some false ∧ isEnder (slotted (.fenceRel 2) 1) = false := by
  decide +kernel

/-- The first word of a group whose chained words have issued. -/
theorem witness_WordAlone : (let s := (placed 0x82321400).setG fun g => { g with alone := [(false, ⟨0, 0⟩)] }
     let z := State.serve 1 { s with agenda := [] }
     let b := beginTurn 1 false z.2
     let x : Slotted := ⟨0x82321400, wordShapeOf (.sadd 3 4 5), 0⟩
     (match fetchPacket b.g.cur.packet b with
      | .words ws u => let v := reachJoins 1 [x] u
          decide ((chained (ws.drop u.g.cur.slot.toNat)).head? = some 0x82321400) && decide (1 < (chained (ws.drop u.g.cur.slot.toNat)).length) && u.g.alone.contains (u.g.handler.isSome, u.g.cur) &&
            decide ((groupAt ws u.g.cur.slot.toNat).take 1 = [x]) && decide (decodeNat 0x82321400 = .ok (.sadd 3 4 5)) && !mustWait v.g && !joinWaits [x] v.g && (dueTrap (issueTrapOf [x] v) v).isNone
      | _ => false) = true) := by decide +kernel

theorem witness_EncodeDecode : Instr.isWord (.dwx 3 127 127 127 15) = true ∧ (Instr.dwx 3 127 127 127 15).WellFormed ∧ Instr.isWord (.sli 31 0xFFFF) = true ∧ (Instr.sli 31 0xFFFF).WellFormed :=
  ⟨rfl, by simp [Instr.WellFormed], rfl, by simp [Instr.WellFormed]⟩

theorem witness_MemoryCanonical : (placed 0x02000000).mem.wf = true ∧ (placed 0x02000000).spad.wf = true ∧ stepHas (fun t => t.mem.wf && t.spad.wf) (placed 0x02000000) = true := by decide +kernel
/-! ## Single steps with the results the manual gives -/

/-- The word of `i` as the first step, from a setting of its operands: a property of the state it leaves. -/
noncomputable def ran (i : Instr) (f : State → State) (p : State → Bool) : Bool := stepHas p (f (placed (encode i).toNat))

def S (n : Nat) (t : State) : Dword := t.g.r.sreg n
def V (n L : Nat) (t : State) : Word := laneAt (t.g.r.vreg n) L
def setP (l : List (Nat × Word)) (s : State) : State := s.setR fun r => l.foldl (fun r x => r.setP x.1 x.2) r

/-- Scalar words: a wrapped sum; the high product of −1 by −1, signed and unsigned (04 R110). -/
theorem test_sadd_wraps : ran (.sadd 3 4 5) (withS [(4, 0xFFFFFFFFFFFFFFFF), (5, 1)]) (fun t => S 3 t == 0) = true := by decide +kernel
theorem test_smulh : (ran (.smulhI64 3 4 4) (withS [(4, 0xFFFFFFFFFFFFFFFF)]) (fun t => S 3 t == 0) &&
    ran (.smulhN64 3 4 4) (withS [(4, 0xFFFFFFFFFFFFFFFF)]) (fun t => S 3 t == 0xFFFFFFFFFFFFFFFE)) = true := by decide +kernel

/-- The three rows of the division table (04 R112). -/
theorem test_sdiv_zero : ran (.sdivI64 3 4 5) (withS [(4, 7)]) (fun t => S 3 t == 0xFFFFFFFFFFFFFFFF && t.g.r.xstat == 0x20) = true := by decide +kernel
theorem test_srem_sign : (ran (.sremI64 3 4 5) (withS [(4, 0xFFFFFFFFFFFFFFF9), (5, 2)]) (fun t => S 3 t == 0xFFFFFFFFFFFFFFFF && t.g.r.xstat == 0) &&
    ran (.sdivI64 3 4 5) (withS [(4, 0x8000000000000000), (5, 0xFFFFFFFFFFFFFFFF)]) (fun t => S 3 t == 0x8000000000000000 && t.g.r.xstat == 0)) = true := by decide +kernel

/-- `sli` extends its sign, `sins.h3` keeps the other bits (04 R113); `pffs` of no bit is 32 (04 R114). -/
theorem test_sli_sins : (ran (.sli 7 0xFFFE) id (fun t => S 7 t == 0xFFFFFFFFFFFFFFFE) && ran (.sinsH3 7 0x1234) (withS [(7, 0xFFFFFFFFFFFFFFFF)]) (fun t => S 7 t == 0x1234FFFFFFFFFFFF) &&
    ran (.pffs 7 2) id (fun t => S 7 t == 32)) = true := by decide +kernel

/-- Vector integer words: the absolute value of −2^31 saturates (04 R116); inactive lanes keep their values (04 R99). -/
theorem test_vabs_saturates : ran (.vabsI32 3 4) (fun s => masked 2 (withV 4 0x80000000 (withV 3 9 s))) (fun t => V 3 1 t == 0x7FFFFFFF && V 3 0 t == 9 && t.g.r.xstat == 0x10) = true := by decide +kernel
theorem test_vmulh_vavg : (ran (.vmulhI32 3 4 4) (withV 4 0x80000000) (fun t => V 3 31 t == 0x40000000) && ran (.vavgN32 3 4 5) (fun s => withV 4 0xFFFFFFFF (withV 5 0xFFFFFFFF s)) (fun t => V 3 0 t == 0xFFFFFFFF)) = true := by
  decide +kernel

/-- `vperm.b8` reads bytes 0–3 from a and 4–7 from b, and gives zero where bit 7 of the selector is set (04 R117). -/
theorem test_vperm : ran (.vpermB8 3 4 5) (fun s => withV 3 0x80070400 (withV 4 0x44332211 (withV 5 0x88776655 s))) (fun t => V 3 0 t == 0x00885511) = true := by decide +kernel

/-- A sum halfway between two values goes to the even one and is inexact; ∞ − ∞ makes the canonical NaN and is invalid (04 R108, R109). -/
theorem test_vadd_f32 : (ran (.vaddF32 3 4 5) (fun s => withV 4 0x3F800000 (withV 5 0x33800000 s)) (fun t => V 3 0 t == 0x3F800000 && t.g.r.xstat == 8) &&
    ran (.vaddF32 3 4 5) (fun s => withV 4 0x7F800000 (withV 5 0xFF800000 s)) (fun t => V 3 0 t == 0x7FC00000 && t.g.r.xstat == 1)) = true := by decide +kernel

/-- `vrcp.apx` of −0 is −∞ with zero divide (04 R122). -/
theorem test_vrcp_zero : ran (.vrcpApxF32 3 4 0) (withV 4 0x80000000) (fun t => V 3 0 t == 0xFF800000 && t.g.r.xstat == 0x20) = true := by decide +kernel

/-- The table of R136: the mask and the top entry behind `split` and `else` (05 R134, R136). -/
theorem test_split : ran (.split 2 1) (fun s => setP [(2, 15)] (masked 0xFF s)) (fun t => t.g.r.emask == 15 && t.g.r.dstack == [0x000000FF0000000F] && t.g.pc == ⟨0, 1⟩) = true := by decide +kernel
theorem test_else : (ran (.elseArm 1) (fun s => (masked 15 s).setR fun r => { r with dstack := [0x000000FF0000000F] }) (fun t => t.g.r.emask == 0xF0 && t.g.r.dstack == [0x000000FF000000F0]) &&
    ran (.elseArm 1) (fun s => (masked 0xFF s).setR fun r => { r with dstack := [0x000000FF000000FF] }) (fun t => t.g.r.emask == 0 && t.g.pc == ⟨1, 0⟩)) = true := by decide +kernel

/-- `dbnz` entered with zero wraps and is taken (05 R137). -/
theorem test_dbnz_wraps : ran (.dbnz 1 5) id (fun t => S 17 t == 0xFFFFFFFFFFFFFFFF && t.g.pc == ⟨5, 0⟩) = true := by decide +kernel

/-- A load reads the bytes of the word placed, lowest first (05 R143; 00 R1); the highest lane's bytes are stored (05 R141). -/
theorem test_ld_b32 : ran (.ldB32 5 6 3 0) (withS [(3, 0x10000)]) (fun t => V 5 0 t == encode (.ldB32 5 6 3 0)) = true := by decide +kernel
theorem test_pst_highest_lane : ran (.pstB32 5 6 0) (fun s => s.setR fun r => r.setV 5 (Lanes.of fun L => BitVec.ofNat 32 L.val)) (fun t => t.spad.read 0 4 == [31, 0, 0, 0]) = true := by decide +kernel

/-- A misaligned lane is parked with its record, and the word's other lanes complete; the gang goes on (05 R139, R140; 06 R172, R177). -/
theorem test_pld_misaligned : ran (.pldB32 5 6 0) (fun s => s.setR fun r => (r.setV 6 (Lanes.of fun L => if L.val = 3 then 2 else 0)).setV 5 (Lanes.all 9))
    (fun t => (t.g.entry 0).state == .faulted && (t.g.entry 0).parked == [⟨3, ⟨0x301, BitVec.ofNat 96 (2 + 2 ^ 67 + 3 * 2 ^ 71)⟩⟩] && V 5 3 t == 9 && V 5 2 t == 0 && t.g.pc == ⟨0, 1⟩) = true := by decide +kernel

/-- Lanes of a scratchpad atomic that name one address apply in ascending order (05 R154). -/
theorem test_patom_add_order : ran (.patomAdd 6 2 0 0) (withV 7 1) (fun t => V 7 0 t == 0 && V 7 31 t == 31 && t.spad.read 0 4 == [32, 0, 0, 0]) = true := by decide +kernel

/-- `bar.init` writes the fields of R155; the last arrival completes the phase (05 R157). -/
theorem test_bar_init : ran (.barInit 2 3 0) (withS [(2, 0x40), (3, 2)]) (fun t => barrierAt t 0x40 == 2 * 2 ^ 4 + 2 * 2 ^ 16) = true := by decide +kernel
theorem test_bar_arrive : ran (.barArrive 2 3 1 0) (fun s => bar 15 2 1 0 0 s) (fun t => barrierAt t 0x40 == 2 * 2 ^ 4 + 2 * 2 ^ 16) = true := by decide +kernel

/-- `brk` traps with its word, packet, slot and immediate in the detail; the handler's packet of group 18 is 72 (06 R177-R180). -/
theorem test_brk : ran (.brk 0x123) (withS [(1, 1)]) (fun t => t.g.r.tcause == 0x1201 && t.g.r.detail == BitVec.ofNat 96 ((encode (.brk 0x123)).toNat + 0x123 * 2 ^ 66) && t.g.pc == ⟨72, 0⟩ &&
    t.g.handler == some 0x1201) = true := by decide +kernel

/-- A handler-only word in normal mode takes code 0x01 of group 6, a `call` in a handler counts its packets from H (06 R178, R179). -/
theorem test_tdone_normal : ran .tdone (fun s => s.setG fun g => { g with handler := none }) (fun t => t.g.r.tcause == 0x601 && t.g.pc == ⟨24, 0⟩) = true := by decide +kernel

/-- `mfs` of the clock and of an `%olog` entry that is free; `mts` writes bits of `%xstat` (06 R183; 04 R97, R100). -/
theorem test_mfs_mts : (ran (.mts 7 0x002) (withS [(7, 0xFFFFFFFFFFFFFF30)]) (fun t => t.g.r.xstat == 0x130) && ran (.mfs 3 0x000) (masked 0x80000001) (fun t => S 3 t == 0x80000001)) = true := by decide +kernel

/-- `exit` of a crew's only gang retires it; a barrier object's wait of the other parity does not block (06 R184; 05 R157). -/
theorem test_exit : ran .exit id (fun t => t.g.status != .resident && t.crews.all fun c => c.retired == 1) = true := by decide +kernel

/-- `mcas` that matches changes both words and answers bits 0, 1 and 63 (12 R282). -/
theorem test_mcas : ran (.mcas 4 2 0) (fun s => { withS [(2, 0x10400)] s with mem := s.mem.write (s.fpa 0x10400) (mcBlock 2 0) })
    (fun t => S 4 t == 0x8000000000000003 && t.mem.read (t.fpa 0x10500) 8 == [7, 0, 0, 0, 0, 0, 0, 0] && t.mem.read (t.fpa 0x10580) 4 == [9, 0, 0, 0]) = true := by decide +kernel

/-- `nd.launch` of a valid descriptor answers bit 63 and the node's id; of one for another tenant, status 3 (18 R391, R392). -/
theorem test_nd_launch : (ran (.ndLaunch 4 2 0) (fun s => { withS [(2, 0x10400)] s with mem := s.mem.write (s.fpa 0x10400) (descBytes 0 1) }) (fun t => (S 4 t).getLsbD 63 && t.nodes.length == 2) &&
    ran (.ndLaunch 4 2 0) (fun s => { withS [(2, 0x10400)] s with mem := s.mem.write (s.fpa 0x10400) (descBytes 5 1) }) (fun t => S 4 t == 3 && t.nodes.length == 1)) = true := by decide +kernel

/-- `dwx` of a bound run that returns its first source (17 R370, R380). -/
theorem test_dwx : ran (.dwx 0 1 2 4 3) (fun s => withV 2 77 ((s.setCore 0 fun K => { K with pages := [(0, page1)] }).setCrew crew1.uid fun c => { c with bindings := [⟨3, 0, 0x10100, 0, 0⟩] }))
    (fun t => V 1 5 t == 77) = true := by decide +kernel

/-- Events: a record's runs are laid over its line, skipped bytes left (12 R266, R267); a host write reaches memory (19 R415). -/
theorem test_record_apply : stepHas (fun t => t.homeLine 512 == [0, 0, 0, 9, 0, 0, 8] ++ List.replicate 121 0 && t.version 512 == 1 && t.records.isEmpty)
    { State.reset with agenda := [.event (.recordApply 5)], records := [{ record1 with runs := [⟨3, [9]⟩, ⟨2, [8]⟩], forwardTo := [] }] } = true := by decide +kernel
theorem test_host_store : stepHas (fun t => t.mem.read (t.fpa 0x3F) 2 == [5, 0]) { State.reset with agenda := [.event (.hostMemStore 0x3F [5])] } = true := by decide +kernel

end Sys2Proof.Tests
end

section
/-! Words that the spec writes out, and patterns that are no instruction (03 R71, R75, R76). -/

namespace Sys2Proof.Machine

/-- A major that the table of R73 leaves out is refused with code 0x02. -/
theorem decodeNat_of_reservedMajor {w : Nat} (h : fld w 25 6 ∈ [0x34, 0x35, 0x36, 0x37, 0x3C, 0x3D, 0x3E, 0x3F]) :
    decodeNat w = .error .reservedMajor := by
  simp only [List.mem_cons, List.not_mem_nil, or_false] at h
  rcases h with h | h | h | h | h | h | h | h <;> simp only [decodeNat, h]

/-- Settles O57: the words written out and the single refused patterns are evaluated, the reserved majors are
`decodeNat_of_reservedMajor`. -/
theorem decodeWords : Obligations.DecodeWords := by
  unfold Obligations.DecodeWords
  refine ⟨rfl, rfl, rfl, rfl, rfl, rfl, rfl, rfl, rfl, rfl, rfl, rfl, rfl, rfl, rfl, rfl, rfl, rfl, rfl, rfl, rfl, rfl, rfl, rfl,
    rfl, rfl, ?chain, fun w h => ⟨_, decodeNat_of_reservedMajor h, rfl⟩, ⟨_, rfl, rfl⟩, ⟨_, rfl, rfl⟩, ⟨_, rfl, rfl⟩, ⟨_, rfl, rfl⟩⟩
  case chain => rfl

end Sys2Proof.Machine
end

section
/-! Every step keeps memory and scratchpads in their canonical form (00 R1; 01 R19, R25). Few operations write them: through
`Memory.write` and `List.filter`, which keep the form (`Memory.write_wf`, `Memory.filter_wf`). One lemma for each operation `f` of the
model, `f_memOk`, in the order of the model's files: from a state in the form, every state that `f` answers is in the form. Its proof follows
the branches of `f`, each branch being a composition of operations whose lemmas it cites; where the branches turn on what another operation
answers (`match translate … with`), `grind` makes the split, from that operation's lemma and those of the branches. -/

namespace Sys2Proof.Machine

/-! ## Canonical states inside what an operation answers -/

/-- Every state that the answer carries, be it a result, a failure or a wait, has canonical memory and scratchpads. Irreducible, as are the
predicates below, so that a statement about an operation is not evaluated by unfolding it. -/
@[irreducible] def Done.memOk : Done → Prop
  | .ok _ s => s.memOk
  | .bad _ s => s.memOk
  | .wait s => s.memOk

/-- The same of an answer that carries a value. -/
@[irreducible] def Got.memOk {α : Type} : Got α → Prop
  | .ok _ s => s.memOk
  | .bad _ s => s.memOk
  | .wait s => s.memOk

/-- The same of what came of one lane. -/
@[irreducible] def LaneRes.memOk : LaneRes → Prop
  | .done s => s.memOk
  | .bad _ s => s.memOk
  | .wait s => s.memOk

/-- The same of an engine's answer to a command. -/
@[irreducible] def Accept.memOk : Accept → Prop
  | .done s => s.memOk
  | .bad _ s => s.memOk
  | .wait s => s.memOk
  | .pending s => s.memOk

/-- The same of the checks of `mcas`. -/
@[irreducible] def McCheck.memOk : McCheck → Prop
  | .ok _ s => s.memOk
  | .bad _ _ _ s => s.memOk
  | .wait s => s.memOk

/-- The same of the end of a sequencer's run. -/
@[irreducible] def RunEnd.memOk : RunEnd → Prop
  | .done _ _ s => s.memOk
  | .trap _ _ _ _ s => s.memOk
  | .wait s => s.memOk

/-- The same of the reload of a crew; one that waits leaves no state. -/
@[irreducible] def Reload.memOk : Reload → Prop
  | .ok s => s.memOk
  | .wait => True
  | .bad _ s => s.memOk

/-- The same of a fetched packet. -/
@[irreducible] def Fetched.memOk : Fetched → Prop
  | .words _ s => s.memOk
  | .bad _ s => s.memOk
  | .wait s => s.memOk

/-- The next state of a step, if it answers one, is in the form. -/
@[irreducible] def outOk : Out → Prop
  | .next s => s.memOk
  | _ => True

/-- The state in an option, if there is one, is in the form. -/
@[irreducible] def optOk : Option State → Prop
  | some s => s.memOk
  | none => True

/-- The state in an optional pair, if there is one, is in the form. -/
@[irreducible] def optPairOk {α : Type} : Option (α × State) → Prop
  | some x => x.2.memOk
  | none => True

/-- A reader that keeps the form. -/
def Reader.memOk (rd : Reader) : Prop := ∀ va n s, s.memOk → (rd va n s).memOk

/-- A writer that keeps the form. -/
def Writer.memOk (wr : Writer) : Prop := ∀ va bs s, s.memOk → (wr va bs s).memOk

section
variable {s : State}

theorem Done.memOk_ok {b} (h : s.memOk) : (Done.ok b s).memOk := by unfold Done.memOk; exact h
theorem Done.memOk_wait (h : s.memOk) : (Done.wait s).memOk := by unfold Done.memOk; exact h
theorem Got.memOk_ok {α : Type} {a : α} (h : s.memOk) : (Got.ok a s).memOk := by unfold Got.memOk; exact h
theorem Got.memOk_bad {α : Type} {w} (h : s.memOk) : (Got.bad w s : Got α).memOk := by unfold Got.memOk; exact h
theorem Got.memOk_wait {α : Type} (h : s.memOk) : (Got.wait s : Got α).memOk := by unfold Got.memOk; exact h
theorem Accept.memOk_done (h : s.memOk) : (Accept.done s).memOk := by unfold Accept.memOk; exact h
theorem Accept.memOk_bad {f} (h : s.memOk) : (Accept.bad f s).memOk := by unfold Accept.memOk; exact h
theorem Accept.memOk_wait (h : s.memOk) : (Accept.wait s).memOk := by unfold Accept.memOk; exact h
theorem Accept.memOk_pending (h : s.memOk) : (Accept.pending s).memOk := by unfold Accept.memOk; exact h
theorem outOk_next_iff : outOk (.next s) ↔ s.memOk := by unfold outOk; exact Iff.rfl
theorem outOk_next (h : s.memOk) : outOk (.next s) := outOk_next_iff.mpr h
theorem outOk_fault {f} : outOk (.fault f) := by unfold outOk; trivial
theorem Reload.memOk_ok (h : s.memOk) : (Reload.ok s).memOk := by unfold Reload.memOk; exact h
theorem optOk_some (h : s.memOk) : optOk (some s) := by unfold optOk; exact h
theorem optOk_none : optOk none := by unfold optOk; trivial

/-! ## Branches, folds, options -/

theorem ite_memOk {c : Prop} [Decidable c] {t u : State} (ht : t.memOk) (hu : u.memOk) : (if c then t else u).memOk := by
  split <;> assumption

theorem foldl_memOk {α : Type} {f : State → α → State} {l : List α} (hf : ∀ s x, s.memOk → (f s x).memOk) (h : s.memOk) :
    (l.foldl f s).memOk :=
  List.foldlRecOn l f h fun _ hb a _ => hf _ a hb

theorem optOk_map {o : Option State} {f : State → State} (ho : optOk o) (hf : ∀ s, s.memOk → (f s).memOk) : optOk (o.map f) := by
  cases o <;> grind [optOk]

theorem optOk_bind {o : Option State} {f : State → Option State} (ho : optOk o) (hf : ∀ s, s.memOk → optOk (f s)) :
    optOk (o.bind f) := by
  cases o <;> grind [optOk]

theorem optOk_or {o p : Option State} (ho : optOk o) (hp : optOk p) : optOk (o.or p) := by
  cases o <;> grind [optOk]

theorem getD_memOk {o : Option State} (ho : optOk o) (h : s.memOk) : (o.getD s).memOk := by
  cases o <;> grind [optOk]

/-- An option mapped to states, whatever it holds. -/
theorem optOk_mapFrom {α : Type} {o : Option α} {f : α → State} (hf : ∀ a, (f a).memOk) : optOk (o.map f) := by
  cases o <;> grind [optOk]

theorem optOk_mapPair {α : Type} {o : Option (α × State)} {f : α × State → State} (ho : optPairOk o)
    (hf : ∀ a s, s.memOk → (f (a, s)).memOk) : optOk (o.map f) := by
  cases o <;> grind [optOk, optPairOk]

theorem optPairOk_map {α β : Type} {o : Option (α × State)} {f : α × State → β × State} (ho : optPairOk o)
    (hf : ∀ a s, s.memOk → (f (a, s)).2.memOk) : optPairOk (o.map f) := by
  cases o <;> grind [optPairOk]

theorem optPairOk_bind {α β : Type} {o : Option (α × State)} {f : α × State → Option (β × State)} (ho : optPairOk o)
    (hf : ∀ a s, s.memOk → optPairOk (f (a, s))) : optPairOk (o.bind f) := by
  cases o <;> grind [optPairOk]

theorem foldlBind_optOk {α : Type} {f : State → α → Option State} {l : List α} {o : Option State}
    (hf : ∀ s x, s.memOk → optOk (f s x)) (ho : optOk o) : optOk (l.foldl (fun o x => o.bind fun s => f s x) o) :=
  List.foldlRecOn l _ ho fun _ hb a _ => optOk_bind hb fun s hs => hf s a hs

theorem foldlMem_wf {α : Type} {f : Memory → α → Memory} {l : List α} {m : Memory}
    (hf : ∀ (m : Memory) x, m.wf = true → (f m x).wf = true) (hm : m.wf = true) : (l.foldl f m).wf = true :=
  List.foldlRecOn (motive := fun m : Memory => m.wf = true) l f hm fun _ hb a _ => hf _ a hb

end

section
variable {s : State}

/-! ## The operations of the state -/

theorem State.setG_memOk {f} (h : s.memOk) : (s.setG f).memOk := h
theorem State.setR_memOk {f} (h : s.memOk) : (s.setR f).memOk := h
theorem State.flag_memOk {f} (h : s.memOk) : (s.flag f).memOk := State.setR_memOk h

theorem State.updGang_memOk {uid f} (h : s.memOk) : (s.updGang uid f).memOk := by
  unfold State.updGang
  split <;> exact h

theorem State.mapGangs_memOk {f} (h : s.memOk) : (s.mapGangs f).memOk := h

theorem State.focus_memOk {uid} (h : s.memOk) : (s.focus uid).memOk := by
  unfold State.focus
  split
  · exact h
  · split <;> exact h

theorem State.setCore_memOk {c f} (h : s.memOk) : (s.setCore c f).memOk := h
theorem State.setDie_memOk {d f} (h : s.memOk) : (s.setDie d f).memOk := h
theorem State.setTenant_memOk {t f} (h : s.memOk) : (s.setTenant t f).memOk := h
theorem State.setCrew_memOk {uid f} (h : s.memOk) : (s.setCrew uid f).memOk := h
theorem State.setEnsemble_memOk {uid f} (h : s.memOk) : (s.setEnsemble uid f).memOk := h
theorem State.setNode_memOk {id f} (h : s.memOk) : (s.setNode id f).memOk := h

theorem enqueueEvent_memOk {e} (h : s.memOk) : (enqueueEvent e s).memOk := by
  unfold enqueueEvent
  dsimp only
  split
  · split
    · exact h
    · split <;> exact h
  split
  · exact h
  · split <;> exact h

theorem endNode_memOk {n code who} (h : s.memOk) : (endNode n code who s).memOk := h
theorem stopGang_memOk {uid} (h : s.memOk) : (stopGang uid s).memOk := State.updGang_memOk h

theorem nodeError_memOk {id code who} (h : s.memOk) : (nodeError id code who s).memOk := by
  unfold nodeError
  dsimp only
  split
  · exact h
  split
  · exact h
  split
  · split
    · exact stopGang_memOk h
    · exact h
  split
  · exact endNode_memOk (enqueueEvent_memOk h)
  split
  · exact endNode_memOk (enqueueEvent_memOk h)
  split
  · exact stopGang_memOk (State.setNode_memOk (enqueueEvent_memOk h))
  · exact State.setNode_memOk (enqueueEvent_memOk h)

theorem leaveBarrier_memOk (h : s.memOk) : (leaveBarrier s).memOk := by
  unfold leaveBarrier
  split
  · exact ⟨h.1, Memory.write_wf _ _ _ h.2⟩
  · exact h

theorem enterTrap_memOk {group code det lanes entry resume} (h : s.memOk) :
    (enterTrap group code det lanes entry resume s).memOk := by
  unfold enterTrap
  split
  · exact nodeError_memOk h
  · exact State.setG_memOk (leaveBarrier_memOk h)

theorem stall_memOk (h : s.memOk) : (stall s).memOk := State.setG_memOk h

theorem takeTrap_memOk {group code det lanes entry resume} (h : s.memOk) :
    (takeTrap group code det lanes entry resume s).memOk := by
  unfold takeTrap
  split
  · exact stall_memOk h
  · exact enterTrap_memOk h

theorem issueTrap_memOk {group code} (h : s.memOk) : (issueTrap group code s).memOk := takeTrap_memOk h
theorem leaveHandler_memOk {r} (h : s.memOk) : (leaveHandler r s).memOk := State.setG_memOk h

/-! ## Words that issue, operand forms -/

theorem issue_memOk {sh} {body : State → State} {fifo} (hbody : ∀ s, s.memOk → (body s).memOk) (h : s.memOk) :
    (issue sh body s fifo).memOk := by
  unfold issue
  split
  · exact takeTrap_memOk h
  · exact hbody _ h

theorem scalarWord_memOk {sh d f} (h : s.memOk) : (scalarWord sh d f s).memOk := issue_memOk (fun _ h1 => State.setR_memOk h1) h
theorem predWord_memOk {sh d f} (h : s.memOk) : (predWord sh d f s).memOk := issue_memOk (fun _ h1 => State.setR_memOk h1) h

theorem blockWord_memOk {sh rs d va vb op} (h : s.memOk) : (blockWord sh rs d va vb op s).memOk :=
  issue_memOk (fun _ h1 => State.setR_memOk h1) h

theorem openWindow_memOk {sh entry} (h : s.memOk) : (openWindow sh entry s).memOk := by
  unfold openWindow
  split
  · exact h
  · exact State.setG_memOk h

theorem endWindows_memOk (h : s.memOk) : (endWindows s).memOk := State.setG_memOk h

theorem laneWord_memOk {sh d f} (h : s.memOk) : (laneWord sh d f s).memOk :=
  issue_memOk (fun _ h1 => openWindow_memOk (State.setR_memOk h1)) h

theorem lanePredWord_memOk {sh d f} (h : s.memOk) : (lanePredWord sh d f s).memOk :=
  issue_memOk (fun _ h1 => State.setR_memOk h1) h

theorem noEffect_memOk {sh} (h : s.memOk) : (noEffect sh s).memOk := issue_memOk (fun _ h1 => h1) h

/-! ## The homes (12 R257-R273) -/

theorem bump_memOk {line} (h : s.memOk) : (bump line s).memOk := h
theorem homeWrite_memOk {a bs} (h : s.memOk) : (homeWrite a bs s).memOk := bump_memOk ⟨Memory.write_wf _ _ _ h.1, h.2⟩
theorem overtakeFills_memOk {d line} (h : s.memOk) : (overtakeFills d line s).memOk := h
theorem dropL1_memOk {c p} (h : s.memOk) : (dropL1 c p s).memOk := State.setCore_memOk h
theorem dropL1s_memOk {d p} (h : s.memOk) : (dropL1s d p s).memOk := h
theorem State.setDir_memOk {e} (h : s.memOk) : (s.setDir e).memOk := h
theorem dropGrain_memOk {d base n} (h : s.memOk) : (dropGrain d base n s).memOk := State.setDie_memOk (dropL1s_memOk h)
theorem setGrain_memOk {d base data} (h : s.memOk) : (setGrain d base data s).memOk := State.setDie_memOk h

theorem bumpLines_memOk {ls} (h : s.memOk) : (bumpLines ls s).memOk := by
  unfold bumpLines
  exact foldl_memOk (fun _ _ h => bump_memOk h) h

theorem recallGrain_memOk {e keep} (h : s.memOk) : (recallGrain e keep s).memOk := by
  unfold recallGrain
  split
  · split
    · exact State.setDir_memOk (foldl_memOk (fun _ _ h1 => dropGrain_memOk h1) (bumpLines_memOk
        ⟨Memory.write_wf _ _ _ h.1, h.2⟩))
    · exact State.setDir_memOk (foldl_memOk (fun _ _ h1 => dropGrain_memOk h1) (bumpLines_memOk h))
  · exact State.setDir_memOk (foldl_memOk (fun _ _ h1 => dropGrain_memOk h1) h)

theorem recallSectors_memOk {base n keep} (h : s.memOk) : (recallSectors base n keep s).memOk :=
  foldl_memOk (fun _ _ h1 => recallGrain_memOk h1) h

theorem recallOthers_memOk {base n} (h : s.memOk) : (recallOthers base n s).memOk :=
  foldl_memOk (fun _ _ h1 => recallGrain_memOk h1) h

theorem shareGrain_memOk {d base n} (h : s.memOk) : (shareGrain d base n s).memOk := by
  unfold shareGrain
  dsimp only
  split
  · exact h
  split
  · split
    · exact State.setDir_memOk (setGrain_memOk (State.setDir_memOk (bumpLines_memOk ⟨Memory.write_wf _ _ _
        (recallOthers_memOk h).1, (recallOthers_memOk h).2⟩)))
    · exact State.setDir_memOk (setGrain_memOk (State.setDir_memOk (setGrain_memOk (bumpLines_memOk ⟨Memory.write_wf _ _ _
        (recallOthers_memOk h).1, (recallOthers_memOk h).2⟩))))
  · exact State.setDir_memOk (setGrain_memOk (recallOthers_memOk h))

theorem ownGrain_memOk {d base n} (h : s.memOk) : (ownGrain d base n s).memOk := by
  grind [ownGrain, State.setDir_memOk, bumpLines_memOk, dropGrain_memOk, foldl_memOk, recallOthers_memOk, setGrain_memOk,
    State.memOk, Memory.write_wf]

theorem dropCopy_memOk {d line} (h : s.memOk) : (dropCopy d line s).memOk := State.setDie_memOk (overtakeFills_memOk h)

theorem sendRecord_memOk {d line runs version kind tenant fwd} (h : s.memOk) :
    (sendRecord d line runs version kind tenant fwd s).memOk := by
  unfold sendRecord
  dsimp only
  split
  · exact h
  split
  · exact State.setDie_memOk h
  · exact h

theorem publish_memOk {d line kind fwd} (h : s.memOk) : (publish d line kind fwd s).memOk := by
  unfold publish
  split
  · split
    · exact sendRecord_memOk (State.setDie_memOk (overtakeFills_memOk h))
    · exact h
  · exact h

theorem evictLine_memOk {d line} (h : s.memOk) : (evictLine d line s).memOk := by
  unfold evictLine
  split
  · exact dropCopy_memOk (publish_memOk h)
  · exact h

theorem voluntaryWriteBack_memOk {d base} (h : s.memOk) : (voluntaryWriteBack d base s).memOk := by
  grind [voluntaryWriteBack, State.setDir_memOk, dropGrain_memOk, State.memOk]

theorem evictOldest_memOk {d} (h : s.memOk) : (evictOldest d s).memOk := by
  unfold evictOldest
  dsimp only
  split
  · exact State.setDie_memOk h
  · exact evictLine_memOk h
  · exact voluntaryWriteBack_memOk h
  · exact h

theorem evictUntil_memOk {d n n1} (h : s.memOk) : (evictUntil d n n1 s).memOk := by
  fun_induction evictUntil d n n1 s <;> grind [evictOldest_memOk]

theorem makeRoom_memOk {d n} (h : s.memOk) : (makeRoom d n s).memOk := evictUntil_memOk h

theorem grainRoom_memOk {d base n} (h : s.memOk) : (grainRoom d base n s).memOk := by
  unfold grainRoom
  split
  · exact h
  · exact makeRoom_memOk h

theorem applyRecord_memOk {r} (h : s.memOk) : (applyRecord r s).memOk := foldl_memOk (fun _ _ h1 => h1) (homeWrite_memOk h)

theorem flushRecords_memOk {d line} (h : s.memOk) : (flushRecords d line s).memOk :=
  foldl_memOk (fun _ _ h1 => applyRecord_memOk h1) h

theorem twinService_memOk {line} (h : s.memOk) : (twinService line s).memOk := recallSectors_memOk h

theorem recallTwins_memOk {line} (h : s.memOk) : (recallTwins line s).memOk :=
  foldl_memOk (fun _ _ h1 => dropCopy_memOk (dropL1s_memOk (flushRecords_memOk (publish_memOk h1)))) h

theorem ownedService_memOk {base n} (h : s.memOk) : (ownedService base n s).memOk := by
  grind [ownedService, foldl_memOk, recallTwins_memOk, State.memOk]

theorem twinLine_memOk {d line} (h : s.memOk) : (twinLine d line s).2.memOk := by
  unfold twinLine
  split
  · exact h
  · exact State.setDie_memOk (makeRoom_memOk (twinService_memOk h))

theorem twinWrite_memOk {d tenant a bs} (h : s.memOk) : (twinWrite d tenant a bs s).memOk := by
  grind [twinWrite, State.setDie_memOk, twinLine_memOk, State.memOk]

theorem landWrites_memOk {d} (h : s.memOk) : (landWrites d s).memOk := foldl_memOk (fun _ _ h1 => publish_memOk h1) h
theorem touchL1_memOk {c line} (h : s.memOk) : (touchL1 c line s).memOk := State.setCore_memOk h
theorem fillL1Sectors_memOk {c base data} (h : s.memOk) : (fillL1Sectors c base data s).memOk := State.setCore_memOk h
theorem fillL1_memOk {c line data} (h : s.memOk) : (fillL1 c line data s).memOk := fillL1Sectors_memOk h
theorem patchL1_memOk {c a bs} (h : s.memOk) : (patchL1 c a bs s).memOk := State.setCore_memOk h
theorem patchL1s_memOk {d a bs} (h : s.memOk) : (patchL1s d a bs s).memOk := h

/-! ## The device registers (19) -/

theorem rescaleEclipse_memOk {mhz} (h : s.memOk) : (rescaleEclipse mhz s).memOk := h

theorem raiseVector_memOk {v} (h : s.memOk) : (raiseVector v s).memOk := by
  unfold raiseVector
  split <;> exact h

theorem raiseTenantError_memOk {t} (h : s.memOk) : (raiseTenantError t s).memOk := raiseVector_memOk h
theorem writeEvent_memOk {e} (h : s.memOk) : (writeEvent e s).memOk := raiseVector_memOk (homeWrite_memOk h)

theorem drainOrigin_memOk {origin} (h : s.memOk) : (drainOrigin origin s).memOk := by
  unfold drainOrigin
  split
  · split
    · exact writeEvent_memOk h
    · exact h
  · exact h

theorem resumeErrors_memOk (h : s.memOk) : (resumeErrors s).memOk := by
  grind [resumeErrors, endNode_memOk, foldl_memOk]

theorem drainEvents_memOk (h : s.memOk) : (drainEvents s).memOk :=
  resumeErrors_memOk (foldl_memOk (fun _ _ h1 => foldl_memOk (fun _ _ h2 => drainOrigin_memOk h2) h1) h)

theorem postEvent_memOk {e} (h : s.memOk) : (postEvent e s).memOk := drainEvents_memOk (enqueueEvent_memOk h)

theorem writeTenant_memOk {t off v} (h : s.memOk) : (writeTenant t off v s).memOk := by
  unfold writeTenant
  dsimp only
  split
  · exact h
  split
  · split
    · exact State.setTenant_memOk h
    · exact h
  · exact State.setTenant_memOk h

theorem writeDoorbell_memOk {t q tail} (h : s.memOk) : (writeDoorbell t q tail s).memOk := by
  unfold writeDoorbell
  split
  · exact h
  · exact State.setTenant_memOk h

theorem writeMsix_memOk {k off v} (h : s.memOk) : (writeMsix k off v s).memOk := by
  unfold writeMsix
  dsimp only
  split
  · split
    · exact raiseVector_memOk h
    · exact h
  split
  · exact raiseVector_memOk h
  · exact h

theorem writeReg_memOk {off v lo hi} (h : s.memOk) : (writeReg off v lo hi s).memOk := by
  unfold writeReg
  grind [drainEvents_memOk, writeDoorbell_memOk, writeMsix_memOk, writeTenant_memOk, State.memOk]

theorem writeRegBytes_memOk {off bs} (h : s.memOk) : (writeRegBytes off bs s).memOk := writeReg_memOk h

/-! ## Translation (01 R17-R22; 12 R288) -/

theorem zeroRange_memOk {a n} (h : s.memOk) : (zeroRange a n s).memOk := by
  grind [zeroRange, recallSectors_memOk, State.memOk, Memory.filter_wf]

theorem zeroPage_memOk {root n n1 n2} (h : s.memOk) : (zeroPage root n n1 n2 s).memOk := by
  fun_induction zeroPage root n n1 n2 s <;> grind [zeroRange_memOk]

theorem clearPending_memOk {a} (h : s.memOk) : (clearPending a s).memOk := by
  unfold clearPending
  dsimp only
  split
  · exact homeWrite_memOk (recallSectors_memOk h)
  · exact recallSectors_memOk h

theorem addTlb_memOk {e} (h : s.memOk) : (addTlb e s).memOk := h

theorem tlbMiss_memOk {t va} (h : s.memOk) : (tlbMiss t va s).1.memOk := by
  grind [tlbMiss, addTlb_memOk, clearPending_memOk, foldl_memOk, zeroPage_memOk]

theorem translateFor_memOk {t priv fill read write va} (h : s.memOk) : (translateFor t priv fill read write va s).1.memOk := by
  grind [translateFor, tlbMiss_memOk]

theorem translate_memOk {read write va} (h : s.memOk) : (translate read write va s).1.memOk := translateFor_memOk h

/-! ## One access at its point of coherence -/

theorem readTwin_memOk {ag pt fpa n} (h : s.memOk) : (readTwin ag pt fpa n s).2.memOk := by
  unfold readTwin
  grind [fillL1_memOk, touchL1_memOk, twinLine_memOk, twinService_memOk]

theorem readOwned_memOk {ag pt grain fpa n} (h : s.memOk) : (readOwned ag pt grain fpa n s).2.memOk := by
  unfold readOwned
  dsimp only
  split
  · exact recallSectors_memOk (ownedService_memOk h)
  · exact ownGrain_memOk (grainRoom_memOk (ownedService_memOk h))
  · exact shareGrain_memOk (grainRoom_memOk (ownedService_memOk h))
  split
  · exact touchL1_memOk (ownedService_memOk h)
  · exact fillL1Sectors_memOk (shareGrain_memOk (grainRoom_memOk (ownedService_memOk h)))

theorem sendChanged_memOk {d fpa n} (h : s.memOk) : (sendChanged d fpa n s).memOk := by
  unfold sendChanged
  dsimp only
  split
  · split
    · exact sendRecord_memOk (State.setDie_memOk h)
    · exact h
  · exact h

theorem prePublish_memOk {d fpa n} (h : s.memOk) : (prePublish d fpa n s).memOk := flushRecords_memOk (sendChanged_memOk h)

theorem patchDie_memOk {ag fpa bs} (h : s.memOk) : (patchDie ag fpa bs s).memOk := by
  unfold patchDie
  dsimp only
  split
  · split
    · exact patchL1s_memOk (State.setDie_memOk h)
    · exact dropCopy_memOk (dropL1s_memOk h)
  · exact overtakeFills_memOk (dropL1s_memOk h)

theorem updTwin_memOk {ag pt fpa n f} (h : s.memOk) : (updTwin ag pt fpa n f s).2.memOk := by
  unfold updTwin
  grind [homeWrite_memOk, patchDie_memOk, patchL1_memOk, prePublish_memOk, twinLine_memOk, twinService_memOk, twinWrite_memOk]

theorem updOwned_memOk {ag pt grain fpa n f} (h : s.memOk) : (updOwned ag pt grain fpa n f s).2.memOk := by
  unfold updOwned
  split
  · exact homeWrite_memOk (recallSectors_memOk (ownedService_memOk h))
  split
  · split
    · exact patchL1s_memOk (bump_memOk (setGrain_memOk (ownGrain_memOk (grainRoom_memOk (ownedService_memOk h)))))
    · exact patchL1_memOk (bump_memOk (setGrain_memOk (ownGrain_memOk (grainRoom_memOk (ownedService_memOk h)))))
  split
  · exact patchL1s_memOk (bump_memOk (setGrain_memOk (ownGrain_memOk (grainRoom_memOk (ownedService_memOk h)))))
  · exact patchL1_memOk (bump_memOk (setGrain_memOk (ownGrain_memOk (grainRoom_memOk (ownedService_memOk h)))))

theorem homeStore_memOk {a bs} (h : s.memOk) : (homeStore a bs s).memOk := homeWrite_memOk (recallSectors_memOk h)
theorem takeSeq_memOk {dest} (h : s.memOk) : (takeSeq dest s).memOk := h

theorem sendPacket_memOk {fpa vc kind gangs cmd node t critical} (h : s.memOk) :
    (sendPacket fpa vc kind gangs cmd node t critical s).memOk :=
  takeSeq_memOk h

theorem dropPeer_memOk {d line} (h : s.memOk) : (dropPeer d line s).memOk := State.setDie_memOk h

theorem drainEntry_memOk {c line} (h : s.memOk) : (drainEntry c line s).memOk := by
  unfold drainEntry
  split
  · exact dropPeer_memOk (sendPacket_memOk (State.setCore_memOk h))
  · exact h

theorem drainGang_memOk {c uid} (h : s.memOk) : (drainGang c uid s).memOk := foldl_memOk (fun _ _ h1 => drainEntry_memOk h1) h
theorem addOutstanding_memOk {uid} (h : s.memOk) : (addOutstanding uid s).memOk := State.updGang_memOk h

theorem wcStore_memOk {ag fpa bs} (h : s.memOk) : (wcStore ag fpa bs s).memOk := by
  grind [wcStore, State.setCore_memOk, addOutstanding_memOk, drainEntry_memOk, dropPeer_memOk]

theorem remoteRead_memOk {ag fresh critical fpa n} (h : s.memOk) : (remoteRead ag fresh critical fpa n s).memOk := by
  grind [remoteRead, State.setDie_memOk, drainEntry_memOk, makeRoom_memOk, recallSectors_memOk, takeSeq_memOk, Done.memOk,
    State.memOk]

theorem remoteWrite_memOk {ag u fpa n f} (h : s.memOk) : (remoteWrite ag u fpa n f s).memOk := by
  unfold remoteWrite
  grind [addOutstanding_memOk, drainEntry_memOk, dropPeer_memOk, homeStore_memOk, remoteRead_memOk, sendPacket_memOk,
    wcStore_memOk, Done.memOk]

theorem readAt_memOk {ag pt e fpa n} (h : s.memOk) : (readAt ag pt e fpa n s).memOk := by
  fun_cases readAt ag pt e fpa n s <;> grind [readOwned_memOk, readTwin_memOk, remoteRead_memOk, Done.memOk]

theorem updAt_memOk {ag pt e u va fpa n f} (h : s.memOk) : (updAt ag pt e u va fpa n f s).memOk := by
  unfold updAt
  grind [homeWrite_memOk, remoteWrite_memOk, updOwned_memOk, updTwin_memOk, writeRegBytes_memOk, Done.memOk]

theorem readScoped_memOk {ag scope va n} (h : s.memOk) : (readScoped ag scope va n s).memOk := by
  grind [readScoped, readAt_memOk, translate_memOk, Done.memOk]

theorem updVa_memOk {ag pt u va n f} (h : s.memOk) : (updVa ag pt u va n f s).memOk := by
  unfold updVa
  grind [translate_memOk, updAt_memOk, Done.memOk]

theorem publishDie_memOk {d fwd} (h : s.memOk) : (publishDie d fwd s).memOk :=
  foldl_memOk (fun _ _ h1 => publish_memOk h1) (State.setDie_memOk h)

theorem releaseBegin_memOk {scope fwd} (h : s.memOk) : (releaseBegin scope fwd s).2.memOk := by
  grind [releaseBegin, drainGang_memOk, publishDie_memOk]

theorem flashDie_memOk {d keep} (h : s.memOk) : (flashDie d keep s).memOk := State.setDie_memOk h

theorem acquireAt_memOk {c straddle scope keep} (h : s.memOk) : optOk (acquireAt c straddle scope keep s) := by
  unfold acquireAt
  extract_lets d home s1 s2
  have h2 : s2.memOk := ite_memOk (flashDie_memOk (dropL1_memOk h)) (dropL1_memOk h)
  split
  · exact optOk_some h
  split
  · exact optOk_none
  · exact optOk_some (ite_memOk (State.setDie_memOk h2) h2)

theorem withAcquire_memOk {scope keep} {body : State → State} (hbody : ∀ s, s.memOk → (body s).memOk) (h : s.memOk) :
    (withAcquire scope keep body s).memOk := by
  grind [withAcquire, acquireAt_memOk, stall_memOk, optOk]

/-! ## Tensor records (02) -/

theorem Done.next_memOk {x : Done} {f : List Byte → State → Done} (hx : x.memOk) (hf : ∀ a s, s.memOk → (f a s).memOk) :
    (x.next f).memOk := by
  cases x with
  | ok b s => exact hf b s (by unfold Done.memOk at hx; exact hx)
  | bad => exact hx
  | wait => exact hx

theorem Got.next_memOk {α β : Type} {x : Got α} {f : α → State → Got β} (hx : x.memOk) (hf : ∀ a s, s.memOk → (f a s).memOk) :
    (x.next f).memOk := by
  cases x with
  | ok b s => exact hf b s (by unfold Got.memOk at hx; exact hx)
  | bad => exact Got.memOk_bad (by unfold Got.memOk at hx; exact hx)
  | wait => exact Got.memOk_wait (by unfold Got.memOk at hx; exact hx)

theorem Done.got_memOk {x : Done} (hx : x.memOk) : (x.got).memOk := by
  unfold Done.got
  grind [Done.memOk, Got.memOk]

theorem readLong_memOk {rd : Reader} {n n1 n2} (hrd : rd.memOk) (h : s.memOk) : (readLong rd n n1 n2 s).memOk := by
  fun_induction readLong rd n n1 n2 s <;> grind [Done.next_memOk, Reader.memOk, Done.memOk]

theorem readWord4_memOk {rd : Reader} {n} (hrd : rd.memOk) (h : s.memOk) : (readWord4 rd n s).memOk := readLong_memOk hrd h

theorem readBlock_memOk {rd : Reader} {base o n} (hrd : rd.memOk) (h : s.memOk) : (readBlock rd base o n s).memOk := by
  grind [readBlock, Done.next_memOk, readWord4_memOk, Done.memOk]

theorem blockWords_memOk {rd : Reader} {first mask l} (hrd : rd.memOk) (h : s.memOk) : (blockWords rd first mask l s).memOk := by
  fun_induction blockWords rd first mask l s <;> grind [Got.next_memOk, readWord4_memOk, Got.memOk, Done.memOk]

theorem fetchBlock_memOk {rd : Reader} {base b} (hrd : rd.memOk) (h : s.memOk) : (fetchBlock rd base b s).memOk := by
  grind [fetchBlock, Done.got_memOk, Got.next_memOk, blockWords_memOk, readWord4_memOk, Got.memOk]

theorem fetchBlocks_memOk {rd : Reader} {base l x} (hrd : rd.memOk) (h : s.memOk) : (fetchBlocks rd base l x s).2.memOk := by
  fun_induction fetchBlocks rd base l x s <;> grind [fetchBlock_memOk, Got.memOk]

theorem Rec.fetch_memOk {R : Rec} {rd : Reader} {o n} (hrd : rd.memOk) (h : s.memOk) : (R.fetch rd o n s).memOk := by
  unfold Rec.fetch
  split
  · exact readBlock_memOk hrd h
  · exact hrd _ _ _ h

theorem Rec.fetchFrom_memOk {R : Rec} {rd : Reader} {k o n} (hrd : rd.memOk) (h : s.memOk) : (R.fetchFrom rd k o n s).memOk := by
  unfold Rec.fetchFrom
  split
  · exact Rec.fetch_memOk hrd h
  split
  · exact Done.memOk_wait h
  split
  · exact Done.memOk_ok h
  · exact Rec.fetch_memOk hrd h

theorem Rec.scale_memOk {R : Rec} {rd : Reader} {c} (hrd : rd.memOk) (h : s.memOk) : (R.scale rd c s).memOk := by
  unfold Rec.scale
  split
  · exact Got.memOk_ok h
  · exact Got.next_memOk (Done.got_memOk (hrd _ _ _ h)) (fun _ _ h1 => Got.memOk_ok h1)

theorem Rec.readElemBy_memOk {R : Rec} {fetch rd : Reader} {c} (hfetch : fetch.memOk) (hrd : rd.memOk) (h : s.memOk) :
    (R.readElemBy fetch rd c s).memOk := by
  unfold Rec.readElemBy
  split
  · exact Got.memOk_ok h
  · split
    exact Got.next_memOk (Done.got_memOk (hfetch _ _ _ h)) (fun _ _ h1 => Got.next_memOk (Rec.scale_memOk hrd h1)
      (fun _ _ h2 => Got.memOk_ok h2))

theorem Rec.readElem_memOk {R : Rec} {rd : Reader} {c} (hrd : rd.memOk) (h : s.memOk) : (R.readElem rd c s).memOk := by
  grind [Rec.readElem, Rec.fetch_memOk, Rec.readElemBy_memOk, Reader.memOk]

theorem Rec.writeCode_memOk {R : Rec} {rw : Reader} {wr : Writer} {c code} (hrw : rw.memOk) (hwr : wr.memOk) (h : s.memOk) :
    (R.writeCode rw wr c code s).memOk := by
  unfold Rec.writeCode
  split
  split
  · exact Done.next_memOk (hrw _ _ _ h) (fun _ _ h1 => hwr _ _ _ h1)
  · exact hwr _ _ _ h

theorem Rec.writeElem_memOk {R : Rec} {rd rw : Reader} {wr : Writer} {mode rnd c v} (hrd : rd.memOk) (hrw : rw.memOk)
    (hwr : wr.memOk) (h : s.memOk) :
    (R.writeElem rd rw wr mode rnd c v s).memOk := by
  grind [Rec.writeElem, Done.got_memOk, Got.next_memOk, Rec.scale_memOk, Rec.writeCode_memOk, Got.memOk]

/-! ## Memory words in the operand log (05 R138-R154) -/

theorem putLane_memOk {d L x} (h : s.memOk) : (putLane d L x s).memOk := State.setR_memOk h

theorem Access.result_memOk {a : Access} {L x} (h : s.memOk) : (a.result L x s).memOk := by
  unfold Access.result
  split
  · exact State.setR_memOk h
  split
  · exact putLane_memOk (putLane_memOk h)
  · exact putLane_memOk h

theorem Done.lane_memOk {x : Done} {f : List Byte → State → State} (hx : x.memOk) (hf : ∀ a s, s.memOk → (f a s).memOk) :
    (x.lane f).memOk := by
  unfold Done.lane
  grind [Done.memOk, LaneRes.memOk]

theorem Got.lane_memOk {α : Type} {x : Got α} {f : α → State → State} (hx : x.memOk) (hf : ∀ a s, s.memOk → (f a s).memOk) :
    (x.lane f).memOk := by
  unfold Got.lane
  grind [Got.memOk, LaneRes.memOk]

theorem gangRead_memOk {got ag} : (gangRead got ag).memOk := by
  intro x n s h
  unfold gangRead
  grind [readAt_memOk, translate_memOk, Done.memOk]

theorem gangReadForWrite_memOk {ag} : (gangReadForWrite ag).memOk := by
  intro x n s h
  unfold gangReadForWrite
  grind [readAt_memOk, translate_memOk, Done.memOk]

theorem gangWrite_memOk {ag} : (gangWrite ag).memOk := by
  intro x n s h
  unfold gangWrite
  grind [updVa_memOk]

theorem putElem_memOk {a L v} (h : s.memOk) : (putElem a L v s).memOk := by
  unfold putElem
  split
  exact Access.result_memOk (State.flag_memOk h)

theorem setTag_memOk {a relNo va} (h : s.memOk) : (setTag a relNo va s).memOk := by
  unfold setTag
  dsimp only
  split
  · split <;> split <;> exact h
  · exact h

theorem globalLane_memOk {a k L} (h : s.memOk) : (globalLane a k L s).memOk := by
  grind [globalLane, Access.result_memOk, Done.lane_memOk, Got.lane_memOk, Rec.fetchFrom_memOk, Rec.readElemBy_memOk,
    Rec.writeElem_memOk, State.flag_memOk, gangReadForWrite_memOk, gangRead_memOk, gangWrite_memOk, putElem_memOk,
    readScoped_memOk, setTag_memOk, updVa_memOk, LaneRes.memOk, Reader.memOk]

theorem windowLane_memOk {a L} (h : s.memOk) : (windowLane a L s).memOk := by
  grind [windowLane, Access.result_memOk, State.flag_memOk, putElem_memOk, LaneRes.memOk, State.memOk, Memory.write_wf]

theorem accessLane_memOk {a k L} (h : s.memOk) : (accessLane a k L s).memOk := by
  unfold accessLane
  split
  · exact windowLane_memOk h
  · exact globalLane_memOk h

theorem runLanes_memOk {a k e l x} (h : s.memOk) : (runLanes a k e l x s).2.memOk := by
  fun_induction runLanes a k e l x s <;> grind [accessLane_memOk, LaneRes.memOk]

theorem runTr_memOk {a z e} (h : s.memOk) : (runTr a z e s).2.memOk := by
  unfold runTr
  split
  split
  · exact foldl_memOk (fun _ _ h1 => State.setR_memOk h1) h
  · exact h

theorem Access.land_memOk {a : Access} (h : s.memOk) : (a.land s).memOk := by
  unfold Access.land
  split
  · exact h
  · exact landWrites_memOk h

theorem perform_memOk {x a e lanes parked} (h : s.memOk) : (perform x a e lanes parked s).2.memOk := by
  grind [perform, Access.land_memOk, fetchBlocks_memOk, gangRead_memOk, runLanes_memOk, runTr_memOk]

theorem settle_memOk {e x p} (h : s.memOk) : (settle e x p s).memOk := State.setG_memOk h

theorem requestFills_memOk {a seq} (h : s.memOk) : (requestFills a seq s).memOk := by
  grind [requestFills, foldl_memOk, translate_memOk, twinService_memOk, State.memOk]

theorem memStart_memOk {sh a e} (h : s.memOk) : (memStart sh a e s).memOk := by
  grind [memStart, openWindow_memOk, perform_memOk, requestFills_memOk, settle_memOk, State.memOk]

theorem joinFaulted_memOk (h : s.memOk) : (joinFaulted s).memOk := State.setG_memOk h

theorem memWord_memOk {sh mk} (h : s.memOk) : (memWord sh mk s).memOk := by
  grind [memWord, issue_memOk, joinFaulted_memOk, memStart_memOk, openWindow_memOk, stall_memOk]

/-! ## Barriers (05 R155-R160) -/

theorem objTrap_memOk {group code addr window} (h : s.memOk) : (objTrap group code addr window s).memOk := takeTrap_memOk h
theorem barTrap_memOk {code addr} (h : s.memOk) : (barTrap code addr s).memOk := takeTrap_memOk h

theorem withObject_memOk {addr align} {body : Nat → State → State} (hbody : ∀ a s, s.memOk → (body a s).memOk) (h : s.memOk) :
    (withObject addr align body s).memOk := by
  unfold withObject
  split
  · exact objTrap_memOk h
  split
  · exact stall_memOk h
  split
  · exact objTrap_memOk h
  · exact hbody _ _ h

theorem setBarrier_memOk {k x} (h : s.memOk) : (setBarrier k x s).memOk := ⟨h.1, Memory.write_wf _ _ _ h.2⟩
theorem wakeBarrier_memOk {k} (h : s.memOk) : (wakeBarrier k s).memOk := State.mapGangs_memOk (setBarrier_memOk h)

theorem barComplete_memOk {k} (h : s.memOk) : (barComplete k s).memOk := by
  unfold barComplete
  dsimp only
  split
  · exact wakeBarrier_memOk (setBarrier_memOk h)
  · exact h

theorem barInit_memOk {sh addr n} (h : s.memOk) : (barInit sh addr n s).memOk := by
  grind [barInit, barTrap_memOk, openWindow_memOk, setBarrier_memOk, withObject_memOk]

theorem arrive_memOk {k d n} (h : s.memOk) : (arrive k d n s).memOk := by
  unfold arrive
  split
  · exact barComplete_memOk (setBarrier_memOk (State.setR_memOk h))
  · exact barComplete_memOk (setBarrier_memOk h)

theorem standArrival_memOk {sh d addr n ids} (h : s.memOk) : (standArrival sh d addr n ids s).memOk := by
  unfold standArrival
  split
  · exact State.setG_memOk (State.setG_memOk h)
  · exact openWindow_memOk (State.setG_memOk h)

theorem barArrive_memOk {sh scope d addr n} (h : s.memOk) : (barArrive sh scope d addr n s).memOk := by
  grind [barArrive, arrive_memOk, barTrap_memOk, openWindow_memOk, releaseBegin_memOk, stall_memOk, standArrival_memOk,
    withObject_memOk]

theorem lateFault_memOk {f} (h : s.memOk) : (lateFault f s).memOk := State.setG_memOk h

theorem finishArrival_memOk {x} (h : s.memOk) : (finishArrival x s).memOk := by
  unfold finishArrival
  dsimp only
  split
  · exact lateFault_memOk (State.setG_memOk h)
  split
  · exact lateFault_memOk (State.setG_memOk h)
  · exact arrive_memOk (State.setG_memOk h)

theorem barExpect_memOk {sh addr n} (h : s.memOk) : (barExpect sh addr n s).memOk := by
  grind [barExpect, barComplete_memOk, barTrap_memOk, openWindow_memOk, setBarrier_memOk, withObject_memOk]

theorem barWait_memOk {scope addr parity} (h : s.memOk) : (barWait scope addr parity s).memOk := by
  grind [barWait, State.setG_memOk, setBarrier_memOk, stall_memOk, withAcquire_memOk, withObject_memOk]

theorem barTest_memOk {sh d addr} (h : s.memOk) : (barTest sh d addr s).memOk :=
  withObject_memOk (fun _ _ h1 => openWindow_memOk (State.setR_memOk h1)) h

theorem barDrop_memOk {sh addr} (h : s.memOk) : (barDrop sh addr s).memOk := by
  grind [barDrop, barComplete_memOk, barTrap_memOk, openWindow_memOk, setBarrier_memOk, withObject_memOk]

/-! ## Branches and divergence (05 R132-R137) -/

theorem takeBranch_memOk {t} (h : s.memOk) : (takeBranch t s).memOk := State.setG_memOk (endWindows_memOk h)
theorem linkReturn_memOk (h : s.memOk) : (linkReturn s).memOk := State.setR_memOk h
theorem stackTrap_memOk {code} (h : s.memOk) : (stackTrap code s).memOk := takeTrap_memOk h

theorem splitArm_memOk {p t} (h : s.memOk) : (splitArm p t s).memOk := by
  unfold splitArm
  dsimp only
  split
  · exact stackTrap_memOk h
  split
  · exact takeBranch_memOk (State.setR_memOk h)
  · exact State.setR_memOk h

theorem elseArm_memOk {t} (h : s.memOk) : (elseArm t s).memOk := by
  unfold elseArm
  dsimp only
  split
  · exact stackTrap_memOk h
  split
  · exact takeBranch_memOk (State.setR_memOk h)
  · exact State.setR_memOk h

theorem joinArms_memOk (h : s.memOk) : (joinArms s).memOk := by
  unfold joinArms
  split
  · exact stackTrap_memOk h
  · exact State.setR_memOk h

theorem popEntry_memOk {d} (h : s.memOk) : (popEntry d s).memOk := by
  unfold popEntry
  split
  · exact stackTrap_memOk h
  · exact State.setR_memOk h

theorem pushEntry_memOk {x} (h : s.memOk) : (pushEntry x s).memOk := by
  unfold pushEntry
  split
  · exact stackTrap_memOk h
  · exact State.setR_memOk h

theorem countDown_memOk {k t} (h : s.memOk) : (countDown k t s).memOk := by
  unfold countDown
  dsimp only
  split
  · exact State.setR_memOk h
  · exact takeBranch_memOk (State.setR_memOk h)

/-! ## Rings, tiles, monitors (05 R161-R168) -/

theorem setRing_memOk {r} (h : s.memOk) : (setRing r s).memOk := by
  grind [setRing, State.memOk, Memory.write_wf]

theorem ringEntry_memOk {r i handle phase} (h : s.memOk) : (ringEntry r i handle phase s).memOk :=
  ⟨h.1, Memory.write_wf _ _ _ h.2⟩

theorem ringAdvance_memOk {uid q r} (h : s.memOk) : (ringAdvance uid q r s).memOk := by
  unfold ringAdvance
  split
  · exact State.setCrew_memOk h
  · exact h

theorem ringPush_memOk {uid q r handle} (h : s.memOk) : (ringPush uid q r handle s).memOk := by
  unfold ringPush
  split
  · exact h
  split
  · exact ringAdvance_memOk (setRing_memOk (ringEntry_memOk h))
  · exact ringAdvance_memOk (State.setCrew_memOk (setRing_memOk (ringEntry_memOk h)))

theorem ringReserve_memOk {uid q r} (h : s.memOk) : (ringReserve uid q r s).memOk :=
  ringAdvance_memOk (State.setCrew_memOk (setRing_memOk h))

theorem ringFill_memOk {uid q i handle r} (h : s.memOk) : (ringFill uid q i handle r s).memOk := by
  unfold ringFill
  split
  · exact h
  · split <;> exact State.setCrew_memOk (setRing_memOk (ringEntry_memOk h))

theorem ringPop_memOk {r} (h : s.memOk) : (ringPop r s).2.memOk := setRing_memOk h

theorem withRing_memOk {q} {body : Crew → Ring → State → State} (hbody : ∀ a b s, s.memOk → (body a b s).memOk) (h : s.memOk) :
    (withRing q body s).memOk := by
  unfold withRing
  dsimp only
  split
  · exact h
  split
  · exact barTrap_memOk h
  split
  · exact objTrap_memOk h
  split
  · exact hbody _ _ _ h
  · exact barTrap_memOk h

theorem block_memOk (h : s.memOk) : (block s).memOk := stall_memOk (State.setG_memOk h)

theorem ringPushWord_memOk {sh blocking d b q} (h : s.memOk) : (ringPushWord sh blocking d b q s).memOk := by
  grind [ringPushWord, State.setR_memOk, block_memOk, openWindow_memOk, ringPush_memOk, stall_memOk, withRing_memOk]

theorem ringPopWord_memOk {sh blocking d q} (h : s.memOk) : (ringPopWord sh blocking d q s).memOk := by
  grind [ringPopWord, State.setR_memOk, block_memOk, openWindow_memOk, ringPop_memOk, withAcquire_memOk, withRing_memOk]

theorem withTiles_memOk {addr n} {body : Crew → List Nat → State → State} (hbody : ∀ a b s, s.memOk → (body a b s).memOk)
    (h : s.memOk) :
    (withTiles addr n body s).memOk := by
  unfold withTiles
  split
  · exact h
  split
  · exact objTrap_memOk h
  split
  · exact objTrap_memOk h
  · exact hbody _ _ _ h

theorem ownGive_memOk {sh addr n} (h : s.memOk) : (ownGive sh addr n s).memOk := by
  grind [ownGive, State.setCrew_memOk, objTrap_memOk, openWindow_memOk, stall_memOk, withTiles_memOk]

theorem ownTake_memOk {addr n} (h : s.memOk) : (ownTake addr n s).memOk := by
  grind [ownTake, State.setCrew_memOk, block_memOk, withTiles_memOk]

theorem ownTest_memOk {sh d addr} (h : s.memOk) : (ownTest sh d addr s).memOk :=
  withTiles_memOk (fun _ _ _ h1 => openWindow_memOk (State.setR_memOk h1)) h

theorem addWaiter_memOk {d line t} (h : s.memOk) : (addWaiter d line t s).memOk := by
  unfold addWaiter
  dsimp only
  split
  · exact h
  · split <;> exact h

theorem dropOutrun_memOk {d fpas} (h : s.memOk) : (dropOutrun d fpas s).memOk := by
  grind [dropOutrun, dropCopy_memOk, foldl_memOk]

theorem monitorWatch_memOk {sh d va} (h : s.memOk) : (monitorWatch sh d va s).memOk := by
  grind [monitorWatch, State.setG_memOk, State.setR_memOk, addWaiter_memOk, dropOutrun_memOk, objTrap_memOk, openWindow_memOk,
    readAt_memOk, stall_memOk, takeTrap_memOk, translate_memOk, withAcquire_memOk, Done.memOk]

theorem monitorDone_memOk {d code} (h : s.memOk) : (monitorDone d code s).memOk := State.setG_memOk (State.setR_memOk h)

theorem monitorWait_memOk {d n} (h : s.memOk) : (monitorWait d n s).memOk := by
  unfold monitorWait
  split
  · exact monitorDone_memOk h
  split
  · exact monitorDone_memOk h
  split
  · exact monitorDone_memOk h
  · exact stall_memOk h
  · exact stall_memOk (State.setG_memOk h)

theorem sleepWord_memOk {n} (h : s.memOk) : (sleepWord n s).memOk := by
  unfold sleepWord
  split
  · exact State.setG_memOk h
  · exact stall_memOk h
  split
  · exact h
  · exact stall_memOk (State.setG_memOk h)

/-! ## What the engines share -/

theorem ownEntry_memOk {a e} (h : s.memOk) : (ownEntry a e s).2.memOk := by
  unfold ownEntry
  split <;> exact h

theorem standIn_memOk {e x} (h : s.memOk) : (standIn e x s).memOk := Accept.memOk_pending (State.setG_memOk h)
theorem tryLater_memOk {a e} (h : s.memOk) : (tryLater a e s).memOk := standIn_memOk (ownEntry_memOk h)

theorem engineWord_memOk {sh mk} {accept : Access → Nat → State → Accept} (haccept : ∀ a b s, s.memOk → (accept a b s).memOk)
    (h : s.memOk) :
    (engineWord sh mk accept s).memOk := by
  grind [engineWord, State.setG_memOk, block_memOk, openWindow_memOk, stall_memOk, Accept.memOk, State.memOk]

theorem reject_memOk {group code addr kind ident entry a} (h : s.memOk) : (reject group code addr kind ident entry a s).memOk :=
  Accept.memOk_bad h

theorem Client.xl_memOk {k : Client} {read write va} (h : s.memOk) : (k.xl read write va s).1.memOk := translateFor_memOk h

theorem Client.read_memOk {k : Client} : (k.read).memOk := by
  intro x n s h
  unfold Client.read
  grind [Client.xl_memOk, readAt_memOk, Done.memOk]

theorem Client.readForWrite_memOk {k : Client} : (k.readForWrite).memOk := by
  intro x n s h
  unfold Client.readForWrite
  grind [Client.xl_memOk, readAt_memOk, Done.memOk]

theorem Client.write_memOk {k : Client} {cmd} : (k.write cmd).memOk := by
  intro x n s h
  unfold Client.write
  grind [Client.xl_memOk, drainEntry_memOk, dropL1_memOk, dropPeer_memOk, sendPacket_memOk, updAt_memOk, Done.memOk]

theorem Got.land_memOk {α : Type} {d} {x : Got α} (hx : x.memOk) : (x.land d).memOk := by
  unfold Got.land
  grind [landWrites_memOk, Got.memOk]

theorem writeLong_memOk {wr : Writer} {n n1 l} (hwr : wr.memOk) (h : s.memOk) : (writeLong wr n n1 l s).memOk := by
  fun_induction writeLong wr n n1 l s <;> grind [Done.next_memOk, Writer.memOk, Done.memOk]

theorem eachGot_memOk {α β : Type} {f : α → β → State → Got β} {l x} (hf : ∀ a b s, s.memOk → (f a b s).memOk) (h : s.memOk) :
    (eachGot f l x s).memOk := by
  fun_induction eachGot f l x s <;> grind [Got.next_memOk, Got.memOk]

theorem padWrite_memOk {c swz w bs} (h : s.memOk) : (padWrite c swz w bs s).memOk := ⟨h.1, Memory.write_wf _ _ _ h.2⟩

theorem padPut_memOk {c P w b code} (h : s.memOk) : (padPut c P w b code s).memOk := by
  unfold padPut
  split
  split <;> exact padWrite_memOk h

theorem holdTiles_memOk {uid ts id} (h : s.memOk) : (holdTiles uid ts id s).memOk := State.setCrew_memOk h
theorem releaseTiles_memOk {id} (h : s.memOk) : (releaseTiles id s).memOk := h

theorem countSectors_memOk {c barrier n} (h : s.memOk) : (countSectors c barrier n s).memOk :=
  barComplete_memOk (setBarrier_memOk h)

theorem barrierFault_memOk {c barrier group code} (h : s.memOk) : (barrierFault c barrier group code s).memOk :=
  setBarrier_memOk h

theorem queueReport_memOk {gang r} (h : s.memOk) : (queueReport gang r s).memOk := State.updGang_memOk h
theorem unspecified_memOk {n} (h : s.memOk) : (unspecified n s).2.memOk := h

/-! ## Coherence words (12 R270-R292) -/

theorem acquireLanes_memOk {e x0 a} (h : s.memOk) : (acquireLanes e x0 a s).memOk := by
  grind [acquireLanes, State.setG_memOk, acquireAt_memOk, dropOutrun_memOk, perform_memOk, settle_memOk, optOk]

theorem acquireLoad_memOk {sh a} (h : s.memOk) : (acquireLoad sh a s).memOk := by
  unfold acquireLoad
  split
  · exact openWindow_memOk h
  split
  · exact stall_memOk (joinFaulted_memOk h)
  split
  · exact stall_memOk h
  · exact openWindow_memOk (acquireLanes_memOk h)

theorem flagLines_memOk {a} (h : s.memOk) : (flagLines a s).2.memOk := by
  unfold flagLines
  refine List.foldlRecOn (motive := fun x : List Nat × State => x.2.memOk) _ _ h fun x hx L _ => ?_
  grind [translate_memOk]

theorem relBegin_memOk {scope fwd x} (h : s.memOk) : (relBegin scope fwd x s).2.memOk := by
  grind [relBegin, releaseBegin_memOk]

theorem behindRelease_memOk {scope a e} {k : State → Accept} (hk : ∀ s, s.memOk → (k s).memOk) (h : s.memOk) :
    (behindRelease scope a e k s).memOk := by
  grind [behindRelease, ownEntry_memOk, relBegin_memOk, standIn_memOk, Accept.memOk]

theorem relStore_memOk {e x a} (h : s.memOk) : (relStore e x a s).memOk := by
  grind [relStore, State.setG_memOk, flagLines_memOk, perform_memOk, relBegin_memOk, settle_memOk, State.memOk]

theorem releaseStore_memOk {sh a} (h : s.memOk) : (releaseStore sh a s).memOk := by
  unfold releaseStore
  split
  · exact openWindow_memOk h
  split
  · exact stall_memOk (joinFaulted_memOk h)
  split
  · exact stall_memOk h
  · exact openWindow_memOk (relStore_memOk h)

theorem takeReports_memOk {scope} (h : s.memOk) : (takeReports scope s).memOk := by
  unfold takeReports
  split
  · exact State.setG_memOk h
  · exact h

theorem fenceStep_memOk {rel acq scope e x} (h : s.memOk) : (fenceStep rel acq scope e x s).memOk := by
  grind [fenceStep, State.setG_memOk, acquireAt_memOk, relBegin_memOk, takeReports_memOk, optOk]

theorem fenceWord_memOk {rel acq scope} (h : s.memOk) : (fenceWord rel acq scope s).memOk := by
  unfold fenceWord
  split
  · exact stall_memOk (joinFaulted_memOk h)
  split
  · exact stall_memOk h
  · exact fenceStep_memOk h

theorem fenceRelease_memOk {scope} (h : s.memOk) : (fenceRelease scope s).memOk := fenceWord_memOk h
theorem fenceAcquire_memOk {scope} (h : s.memOk) : (fenceAcquire scope s).memOk := fenceWord_memOk h
theorem fenceBoth_memOk {scope} (h : s.memOk) : (fenceBoth scope s).memOk := fenceWord_memOk h

theorem rangeParts_memOk {op n n1 n2} (h : s.memOk) : (rangeParts op n n1 n2 s).memOk := by
  fun_induction rangeParts op n n1 n2 s <;> grind [Got.next_memOk, translate_memOk, Got.memOk]

theorem writeBackGrain_memOk {d g} (h : s.memOk) : (writeBackGrain d g s).memOk := by
  unfold writeBackGrain
  dsimp only
  split
  · exact State.setDir_memOk (bumpLines_memOk ⟨Memory.write_wf _ _ _ h.1, h.2⟩)
  · exact h

theorem discardGrain_memOk {d g} (h : s.memOk) : (discardGrain d g s).memOk := by
  unfold discardGrain
  dsimp only
  split
  · exact recallGrain_memOk h
  · exact State.setDir_memOk (dropGrain_memOk h)

theorem cleanRange_memOk {d ps} (h : s.memOk) : (cleanRange d ps s).memOk :=
  foldl_memOk (fun _ _ h1 => writeBackGrain_memOk h1) (foldl_memOk (fun _ _ h1 => publish_memOk h1) h)

theorem dropRange_memOk {d ps} (h : s.memOk) : (dropRange d ps s).1.memOk := by
  unfold dropRange
  grind [discardGrain_memOk, dropCopy_memOk, dropL1s_memOk, foldl_memOk, publish_memOk, writeBackGrain_memOk]

theorem awaitRecords_memOk {e x ids} (h : s.memOk) : (awaitRecords e x ids s).memOk := State.setG_memOk h
theorem parkFirst_memOk {e a f stores} (h : s.memOk) : (parkFirst e a f stores s).memOk := State.setG_memOk h

theorem rangeRun_memOk {a op} (h : s.memOk) : (rangeRun a op s).memOk := by
  grind [rangeRun, Got.next_memOk, State.flag_memOk, State.setCore_memOk, cleanRange_memOk, dropRange_memOk, rangeParts_memOk,
    Got.memOk]

theorem standBy_memOk {e a} (h : s.memOk) : (standBy e a s).memOk := State.setG_memOk h

theorem rangeWord_memOk {sh op base len} (h : s.memOk) : (rangeWord sh op base len s).memOk := by
  grind [rangeWord, awaitRecords_memOk, joinFaulted_memOk, openWindow_memOk, parkFirst_memOk, rangeRun_memOk, stall_memOk,
    standBy_memOk, takeTrap_memOk, Got.memOk, State.memOk]

theorem twinStat_memOk {sh d} (h : s.memOk) : (twinStat sh d s).memOk := openWindow_memOk (State.setR_memOk h)

theorem blockRights_memOk {n n1 n2} (h : s.memOk) : (blockRights n n1 n2 s).memOk := by
  fun_induction blockRights n n1 n2 s <;> grind [translate_memOk, Done.memOk]

theorem mcWords_memOk {wide l l1} (h : s.memOk) : (mcWords wide l l1 s).memOk := by
  fun_induction mcWords wide l l1 s <;> grind [translate_memOk, McCheck.memOk]

theorem mcCheck_memOk {blk} (h : s.memOk) : (mcCheck blk s).memOk := by
  fun_cases mcCheck blk s <;> grind [blockRights_memOk, gangRead_memOk, mcWords_memOk, readLong_memOk, McCheck.memOk, Done.memOk,
    Reader.memOk]

theorem mcPublish_memOk {die ws} (h : s.memOk) : (mcPublish die ws s).memOk := foldl_memOk (fun _ _ h1 => sendChanged_memOk h1) h

theorem lockReady_memOk {die ws line} (h : s.memOk) : (lockReady die ws line s).memOk := by
  unfold lockReady
  split
  · exact ownedService_memOk (recallSectors_memOk (flushRecords_memOk h))
  · exact recallSectors_memOk (flushRecords_memOk h)

theorem mcUpdate_memOk {ag ws} (h : s.memOk) : (mcUpdate ag ws s).2.2.memOk := by
  unfold mcUpdate
  dsimp only
  split
  · exact foldl_memOk (fun _ _ h => patchDie_memOk h) (bumpLines_memOk ⟨foldlMem_wf
      (fun _ _ hm => Memory.write_wf _ _ _ hm) h.1, h.2⟩)
  · exact h

theorem mcStores_memOk {e x l} (h : s.memOk) : (mcStores e x l s).memOk := by
  fun_induction mcStores e x l s <;> grind [State.setG_memOk, gangWrite_memOk, landWrites_memOk, Writer.memOk, Done.memOk]

theorem mcFinish_memOk {e x a ws} (h : s.memOk) : (mcFinish e x a ws s).memOk := by
  grind [mcFinish, State.setR_memOk, mcStores_memOk, mcUpdate_memOk]

theorem askLock_memOk {line uid} (h : s.memOk) : (askLock line uid s).memOk := by
  unfold askLock
  split <;> exact h

theorem mcStart_memOk {e a ws} (h : s.memOk) : (mcStart e a ws s).memOk := by
  unfold mcStart
  split
  · exact mcFinish_memOk (foldl_memOk (fun _ _ h1 => lockReady_memOk h1) (mcPublish_memOk h))
  split
  · exact State.setG_memOk (askLock_memOk (mcPublish_memOk h))
  · exact mcPublish_memOk h

theorem mcRun_memOk {e a} (h : s.memOk) : optOk (mcRun e a s) := by
  grind [mcRun, mcCheck_memOk, mcStart_memOk, parkFirst_memOk, optOk, McCheck.memOk]

theorem mcasWord_memOk {sh d blk} (h : s.memOk) : (mcasWord sh d blk s).memOk := by
  unfold mcasWord
  split
  · exact stall_memOk h
  split
  · exact stall_memOk (joinFaulted_memOk h)
  split
  · exact openWindow_memOk (getD_memOk optOk_none (standBy_memOk h))
  · exact openWindow_memOk (getD_memOk (mcRun_memOk h) (standBy_memOk h))

theorem mcNext_memOk {e line} (h : s.memOk) : (mcNext e line s).memOk := by
  unfold mcNext
  dsimp only
  split
  · exact askLock_memOk h
  split
  · exact mcFinish_memOk h
  · exact h

theorem grantLock_memOk {line} (h : s.memOk) : (grantLock line s).memOk := by
  unfold grantLock
  dsimp only
  split
  · split
    · split
      · exact h
      split
      · exact mcNext_memOk (lockReady_memOk (State.focus_memOk h))
      · exact State.focus_memOk h
    · exact h
  · exact h

theorem recallPage_memOk {p} (h : s.memOk) : (recallPage p s).memOk := by
  unfold recallPage
  split
  · exact foldl_memOk (fun _ _ h1 => recallTwins_memOk h1) h
  · exact recallSectors_memOk h

theorem tlbRecall_memOk {e x} (h : s.memOk) : (tlbRecall e x s).memOk := by
  unfold tlbRecall
  split
  · exact State.setG_memOk h
  · exact State.setG_memOk (foldl_memOk (fun _ _ h1 => recallPage_memOk h1) h)

theorem tlbDrop_memOk {e x base n} (h : s.memOk) : (tlbDrop e x base n s).memOk := by
  grind [tlbDrop, drainEntry_memOk, foldl_memOk, tlbRecall_memOk, State.memOk]

theorem tlbStep_memOk {e x base n} (h : s.memOk) : (tlbStep e x base n s).memOk := by
  grind [tlbStep, State.setG_memOk, relBegin_memOk, tlbDrop_memOk, tlbRecall_memOk]

theorem tlbInvalidate_memOk {base n} (h : s.memOk) : (tlbInvalidate base n s).memOk := by
  unfold tlbInvalidate
  split
  · exact takeTrap_memOk h
  split
  · exact stall_memOk (joinFaulted_memOk h)
  split
  · exact stall_memOk h
  · exact tlbStep_memOk h

/-! ## Compares -/

theorem compareWord_memOk {sh p a b f} (h : s.memOk) : (compareWord sh p a b f s).memOk := lanePredWord_memOk h

/-! ## The copy and expansion engines (08) -/

theorem startCopy_memOk {op a reserved c} (h : s.memOk) : (startCopy op a reserved c s).memOk := by
  unfold startCopy
  dsimp only
  split
  · split
    · split
      · exact ringReserve_memOk (foldl_memOk (fun _ _ h1 => State.setCrew_memOk h1) (State.setCore_memOk h))
      · exact ringReserve_memOk (foldl_memOk (fun _ _ h1 => State.setCrew_memOk h1) (foldl_memOk
          (fun _ _ h1 => holdTiles_memOk h1) (State.setCore_memOk h)))
    split
    · exact ringReserve_memOk (State.setCore_memOk h)
    · exact ringReserve_memOk (foldl_memOk (fun _ _ h1 => holdTiles_memOk h1) (State.setCore_memOk h))
  split
  · split
    · exact foldl_memOk (fun _ _ h1 => State.setCrew_memOk h1) (State.setCore_memOk h)
    · exact foldl_memOk (fun _ _ h1 => State.setCrew_memOk h1) (foldl_memOk (fun _ _ h1 => holdTiles_memOk h1)
        (State.setCore_memOk h))
  split
  · exact State.setCore_memOk h
  · exact foldl_memOk (fun _ _ h1 => holdTiles_memOk h1) (State.setCore_memOk h)

theorem acceptCopy_memOk {op a e} (h : s.memOk) : (acceptCopy op a e s).memOk := by
  unfold acceptCopy
  split
  · exact Accept.memOk_wait h
  split
  · exact Accept.memOk_wait h
  split
  · exact Accept.memOk_wait h
  split
  · exact reject_memOk h
  · exact Accept.memOk_done (startCopy_memOk h)

theorem acceptGrant_memOk {a e} (h : s.memOk) : (acceptGrant a e s).memOk := by
  unfold acceptGrant
  dsimp only
  split
  · exact Accept.memOk_wait h
  split
  · exact reject_memOk h
  · exact Accept.memOk_done (State.setCrew_memOk h)

theorem acceptSlots_memOk {a _e} (h : s.memOk) : (acceptSlots a _e s).memOk := Accept.memOk_done (State.setR_memOk h)
theorem acceptCount_memOk {a _e} (h : s.memOk) : (acceptCount a _e s).memOk := Accept.memOk_done (State.setR_memOk h)

theorem startRun_memOk {k a reserved c} (h : s.memOk) : (startRun k a reserved c s).memOk := by
  unfold startRun
  dsimp only
  split
  · split
    · exact ringReserve_memOk (State.setCore_memOk h)
    · exact ringReserve_memOk (holdTiles_memOk (State.setCore_memOk h))
  split
  · exact State.setCore_memOk h
  · exact holdTiles_memOk (State.setCore_memOk h)

theorem keepCard_memOk {first e k} (h : s.memOk) : (keepCard first e k s).memOk := State.setG_memOk h

theorem cardFor_memOk {first e va} (h : s.memOk) : (cardFor first e va s).memOk := by
  unfold cardFor
  split
  · exact Got.memOk_ok h
  · exact Got.next_memOk (Done.got_memOk (readLong_memOk Client.read_memOk h)) (fun _ _ h1 => Got.memOk_ok h1)

theorem acceptRun_memOk {first a e} (h : s.memOk) : (acceptRun first a e s).memOk := by
  unfold acceptRun
  split <;> grind [cardFor_memOk, keepCard_memOk, reject_memOk, startRun_memOk, Accept.memOk, Got.memOk]

theorem loadCode_memOk {k G P mode g rnd} (h : s.memOk) : (loadCode k G P mode g rnd s).memOk := by
  unfold loadCode
  split
  · split
    exact Got.next_memOk (Done.got_memOk (Rec.fetch_memOk Client.read_memOk h)) (fun _ _ h1 => Got.memOk_ok h1)
  · exact Got.next_memOk (Rec.readElem_memOk Client.read_memOk h) (fun _ _ h1 => Got.memOk_ok h1)

theorem moveIn_memOk {c core G P me} (h : s.memOk) : (moveIn c core G P me s).memOk :=
  eachGot_memOk (fun _ _ _ h1 => Got.next_memOk (loadCode_memOk h1) (fun _ _ h2 => Got.memOk_ok (foldl_memOk
  (fun _ _ h3 => padPut_memOk h3) h2))) h

theorem moveOut_memOk {c core G P me} (h : s.memOk) : (moveOut c core G P me s).memOk := by
  grind [moveOut, Client.readForWrite_memOk, Client.read_memOk, Client.write_memOk, Got.next_memOk, Rec.writeElem_memOk,
    eachGot_memOk, Got.memOk]

theorem fifoPush_memOk {core b bs} (h : s.memOk) : (fifoPush core b bs s).memOk := State.setCore_memOk h

theorem moveFifo_memOk {c core G P} (h : s.memOk) : (moveFifo c core G P s).memOk :=
  Got.next_memOk (eachGot_memOk (fun _ _ _ h1 => Got.next_memOk (loadCode_memOk h1) (fun _ _ h2 => Got.memOk_ok h2)) h)
  (fun _ _ h1 => Got.memOk_ok (fifoPush_memOk h1))

theorem decodeJob_memOk {c core k} (h : s.memOk) : (decodeJob c core k s).memOk := by
  grind [decodeJob, Client.read_memOk, Done.got_memOk, Got.next_memOk, readLong_memOk, Got.memOk]

theorem moveJob_memOk {c core k me} (h : s.memOk) : (moveJob c core k me s).memOk := by
  grind [moveJob, Client.write_memOk, Done.got_memOk, Got.next_memOk, padWrite_memOk, Got.memOk, Writer.memOk]

theorem moveSector_memOk {c core} (h : s.memOk) : (moveSector c core s).memOk := by
  unfold moveSector
  split
  · exact Got.memOk_ok h
  split
  · exact Got.land_memOk (moveJob_memOk h)
  split
  · split
    · exact Got.land_memOk (moveOut_memOk h)
    split
    · exact moveFifo_memOk h
    · exact moveIn_memOk h
  · exact Got.memOk_ok h

theorem setCmd_memOk {core id f} (h : s.memOk) : (setCmd core id f s).memOk := State.setCore_memOk h
theorem dropCmd_memOk {core id} (h : s.memOk) : (dropCmd core id s).memOk := State.setCore_memOk h
theorem failCmd_memOk {core c kind w} (h : s.memOk) : (failCmd core c kind w s).memOk := setCmd_memOk h

theorem countAt_memOk {c n} (h : s.memOk) : (countAt c n s).memOk := by
  unfold countAt
  split
  · exact foldl_memOk (fun _ _ h1 => countSectors_memOk h1) h
  · exact h

theorem sectorDone_memOk {core c} (h : s.memOk) : (sectorDone core c s).memOk := by
  unfold sectorDone
  split
  · exact countAt_memOk (setCmd_memOk h)
  · exact setCmd_memOk h

theorem landSector_memOk {core id} (h : s.memOk) : (landSector core id s).memOk := by
  grind [landSector, decodeJob_memOk, failCmd_memOk, moveSector_memOk, sectorDone_memOk, setCmd_memOk, Got.memOk]

theorem fillEntry_memOk {c bad} (h : s.memOk) : (fillEntry c bad s).memOk := by
  unfold fillEntry
  split
  · exact ringFill_memOk h
  · exact h

theorem endCmd_memOk {core c bad n} (h : s.memOk) : (endCmd core c bad n s).memOk :=
  countAt_memOk (fillEntry_memOk (releaseTiles_memOk (dropCmd_memOk h)))

theorem completeCmd_memOk {core id} (h : s.memOk) : (completeCmd core id s).memOk := by
  unfold completeCmd
  split
  · split
    · exact endCmd_memOk h
    · exact h
  · exact h

theorem Got.state_memOk {α : Type} {x : Got α} (hx : x.memOk) : (x.state).memOk := by
  unfold Got.state
  grind [Got.memOk]

theorem spoilSector_memOk {c core} (h : s.memOk) : (spoilSector c core s).memOk := by
  unfold spoilSector
  grind [Client.readForWrite_memOk, Client.write_memOk, Done.got_memOk, Got.state_memOk, Rec.writeCode_memOk, fifoPush_memOk,
    foldl_memOk, moveJob_memOk, padPut_memOk, unspecified_memOk]

theorem spoil_memOk {core n x} (h : s.memOk) : (spoil core n x s).memOk := by
  fun_induction spoil core n x s <;> grind [spoilSector_memOk]

theorem abandonCmd_memOk {core c group code} (h : s.memOk) : (abandonCmd core c group code s).memOk := by
  unfold abandonCmd
  dsimp only
  split
  · exact endCmd_memOk (foldl_memOk (fun _ _ h1 => barrierFault_memOk h1) (landWrites_memOk (spoil_memOk h)))
  · exact endCmd_memOk (landWrites_memOk (spoil_memOk h))

theorem reportCmd_memOk {core id} (h : s.memOk) : (reportCmd core id s).memOk := by
  unfold reportCmd
  split
  · exact h
  split
  · exact h
  split
  · exact setCmd_memOk (queueReport_memOk h)
  · exact abandonCmd_memOk (queueReport_memOk h)

theorem resumeCmd_memOk {core id behind} (h : s.memOk) : (resumeCmd core id behind s).memOk := by
  unfold resumeCmd
  split
  · split
    · exact h
    split
    · exact setCmd_memOk h
    · exact abandonCmd_memOk h
  · exact h

/-! ## Cross-lane words -/

theorem reduceWord_memOk {sh d f} (h : s.memOk) : (reduceWord sh d f s).memOk := by
  grind [reduceWord, State.setR_memOk, issue_memOk]

/-! ## The matrix engine (10) -/

theorem startTask_memOk {t c} (h : s.memOk) : (startTask t c s).memOk := by
  unfold startTask
  dsimp only
  split
  · exact holdTiles_memOk (State.setCore_memOk h)
  · exact State.setCore_memOk h

theorem rejectTask_memOk {code addr kind ident entry tag two a} (h : s.memOk) :
    (rejectTask code addr kind ident entry tag two a s).memOk :=
  Accept.memOk_bad h

theorem acceptTask_memOk {op a e} (h : s.memOk) : (acceptTask op a e s).memOk := by
  grind [acceptTask, Client.read_memOk, readLong_memOk, rejectTask_memOk, startTask_memOk, Accept.memOk, Done.memOk]

theorem acceptStat_memOk {a _e} (h : s.memOk) : (acceptStat a _e s).memOk := Accept.memOk_done (State.setR_memOk h)
theorem setTask_memOk {core id f} (h : s.memOk) : (setTask core id f s).memOk := State.setCore_memOk h
theorem setTile_memOk {core t f} (h : s.memOk) : (setTile core t f s).memOk := State.setCore_memOk h

theorem beginTask_memOk {core t} (h : s.memOk) : (beginTask core t s).memOk := by
  unfold beginTask
  split
  · split
    · exact setTask_memOk (setTile_memOk h)
    · exact setTask_memOk h
  · exact setTask_memOk (setTile_memOk h)

theorem computeStep_memOk {core id} (h : s.memOk) : (computeStep core id s).memOk := by
  unfold computeStep
  dsimp only
  split
  · exact h
  split
  · exact h
  split
  · split
    · exact h
    split
    · exact setTask_memOk (setTile_memOk (State.setCore_memOk h))
    · exact h
  · exact h

theorem drainGo_memOk {f : Nat × Nat → Half → State → Got Half} {l n x} (hf : ∀ a b s, s.memOk → (f a b s).memOk) (h : s.memOk) :
    (drainGo f l n x s).2.2.2.memOk := by
  fun_induction drainGo f l n x s <;> grind [Got.memOk]

theorem padElement_memOk {t D c mn r} (h : s.memOk) : (padElement t D c mn r s).memOk := Got.memOk_ok (padPut_memOk h)

theorem memElement_memOk {t D core mn r} (h : s.memOk) : (memElement t D core mn r s).memOk := by
  unfold memElement
  split
  · exact Got.memOk_ok h
  · exact Got.next_memOk (Rec.writeElem_memOk Client.read_memOk Client.readForWrite_memOk Client.write_memOk h)
      (fun _ _ h1 => Got.memOk_ok h1)

theorem mxBlock_memOk {t D core mn r} (h : s.memOk) : (mxBlock t D core mn r s).memOk := by
  grind [mxBlock, Client.readForWrite_memOk, Client.write_memOk, Done.got_memOk, Got.next_memOk, Rec.writeCode_memOk,
    eachGot_memOk, Got.memOk, Writer.memOk]

theorem addPlaces_memOk {t D core l} (h : s.memOk) : (addPlaces t D core l s).memOk := by
  fun_induction addPlaces t D core l s <;> grind [Client.xl_memOk, Got.next_memOk, Got.memOk]

theorem addReady_memOk {die n x} (h : s.memOk) : (addReady die n x s).memOk := by
  unfold addReady
  split
  split
  · exact twinService_memOk (prePublish_memOk h)
  · exact recallSectors_memOk (ownedService_memOk h)

theorem addOne_wf {t D x r} {m : Memory} (h : m.wf = true) : (addOne t D x m r).1.wf = true := Memory.write_wf _ _ _ h

theorem addOnStore_memOk {t D core} (h : s.memOk) : (addOnStore t D core s).memOk := by
  unfold addOnStore
  refine Got.next_memOk (addPlaces_memOk h) fun l s0 h0 => ?_
  have h1 : (l.foldl (fun s x => addReady (core / 40) D.cbytes x s) s0).memOk := foldl_memOk (fun _ _ h => addReady_memOk h) h0
  generalize l.foldl (fun s x => addReady (core / 40) D.cbytes x s) s0 = s1 at h1
  have hm : (l.foldl (fun (a : Memory × Half) x => addOne t D x a.1 a.2) (s1.mem, t.rnd)).1.wf = true :=
    List.foldlRecOn (motive := fun a : Memory × Half => a.1.wf = true) _ _ h1.1 fun _ ha _ _ => addOne_wf ha
  have h2 := bumpLines_memOk (ls := sortedNats (l.map fun x => lineOf x.1)) (s := { s1 with mem := _ }) ⟨hm, h1.2⟩
  exact Got.memOk_ok (foldl_memOk (fun _ _ h => ite_memOk (patchDie_memOk h) h) h2)

theorem failTask_memOk {core t kind w} (h : s.memOk) : (failTask core t kind w s).memOk := setTask_memOk h

theorem countTask_memOk {t n} (h : s.memOk) : (countTask t n s).memOk := by
  unfold countTask
  split
  · split
    · exact countSectors_memOk h
    · exact h
  · exact h

theorem countTo_memOk {core t k} (h : s.memOk) : (countTo core t k s).memOk := countTask_memOk (setTask_memOk h)

theorem drainStep_memOk {core t} (h : s.memOk) : (drainStep core t s).memOk := by
  grind [drainStep, addOnStore_memOk, countTo_memOk, drainGo_memOk, failTask_memOk, landWrites_memOk, memElement_memOk,
    mxBlock_memOk, padElement_memOk, setTask_memOk, Got.memOk]

theorem sendPeer_memOk {core t} (h : s.memOk) : (sendPeer core t s).memOk := by
  unfold sendPeer
  dsimp only
  split
  · exact setTask_memOk h
  split
  · exact setTask_memOk (sendPacket_memOk h)
  · exact failTask_memOk h

theorem drainOn_memOk {core id} (h : s.memOk) : (drainOn core id s).memOk := by
  unfold drainOn
  split
  · split
    · exact h
    split
    · exact sendPeer_memOk h
    · exact drainStep_memOk h
  · exact h

theorem taskStep_memOk {core} (h : s.memOk) : (taskStep core s).memOk := by
  unfold taskStep
  dsimp only
  split
  · exact drainOn_memOk h
  split
  · split
    · exact h
    · exact drainOn_memOk (beginTask_memOk h)
  · exact h

theorem endTask_memOk {core t} (h : s.memOk) : (endTask core t s).memOk := by
  unfold endTask
  split
  · exact countTask_memOk (setTile_memOk (releaseTiles_memOk (State.setCore_memOk h)))
  · exact countTask_memOk (releaseTiles_memOk (State.setCore_memOk h))

theorem completeTask_memOk {core id} (h : s.memOk) : (completeTask core id s).memOk := by
  unfold completeTask
  split
  · split
    · exact endTask_memOk h
    · exact h
  · exact h

theorem setArrival_memOk {id f} (h : s.memOk) : (setArrival id f s).memOk := h
theorem dropArrival_memOk {id} (h : s.memOk) : (dropArrival id s).memOk := h

theorem arrivalDone_memOk {a} (h : s.memOk) : (arrivalDone a s).memOk := by
  unfold arrivalDone
  split
  · exact setArrival_memOk h
  · exact dropArrival_memOk h

theorem intoTile_memOk {a core} (h : s.memOk) : (intoTile a core s).memOk := by
  unfold intoTile
  dsimp only
  split
  · exact h
  · exact arrivalDone_memOk (setTile_memOk h)

theorem applyArrival_memOk {id} (h : s.memOk) : (applyArrival id s).memOk := by
  unfold applyArrival
  split
  · exact h
  split
  · exact dropArrival_memOk h
  split
  · split
    · exact failTask_memOk (dropArrival_memOk h)
    · exact dropArrival_memOk h
  · exact h
  · exact intoTile_memOk h

theorem acknowledgePeer_memOk {core id} (h : s.memOk) : (acknowledgePeer core id s).memOk := by
  unfold acknowledgePeer
  split
  · split
    · exact endTask_memOk h
    · exact h
  · exact h

theorem spoilDrain_memOk {core t} (h : s.memOk) : (spoilDrain core t s).memOk := by
  grind [spoilDrain, Client.readForWrite_memOk, Client.write_memOk, Done.got_memOk, Got.state_memOk, Rec.writeCode_memOk,
    foldl_memOk, landWrites_memOk, unspecified_memOk]

theorem abandonTask_memOk {core t group code} (h : s.memOk) : (abandonTask core t group code s).memOk := by
  unfold abandonTask
  dsimp only
  split
  · split
    · exact endTask_memOk (barrierFault_memOk (spoilDrain_memOk h))
    · exact endTask_memOk (spoilDrain_memOk h)
  · exact endTask_memOk (spoilDrain_memOk h)

theorem reportTask_memOk {core id} (h : s.memOk) : (reportTask core id s).memOk := by
  unfold reportTask
  split
  · exact h
  split
  · split
    · exact setTask_memOk (queueReport_memOk h)
    · exact abandonTask_memOk (queueReport_memOk h)
  · exact h

theorem resumeTask_memOk {core id behind} (h : s.memOk) : (resumeTask core id behind s).memOk := by
  unfold resumeTask
  split
  · split
    · exact h
    split
    · exact setTask_memOk h
    · exact abandonTask_memOk h
  · exact h

/-! ## Switch memory, multicast, reduction, signals (15 R341-R358) -/

theorem postReport_memOk {uid w} (h : s.memOk) : (postReport uid w s).memOk := State.updGang_memOk h
theorem rejectFabric_memOk {code addr} (h : s.memOk) : (rejectFabric code addr s).memOk := Accept.memOk_bad h
theorem answer_memOk {a x} (h : s.memOk) : (answer a x s).memOk := Accept.memOk_done (State.setR_memOk h)
theorem writeAperture_memOk {t i x} (h : s.memOk) : (writeAperture t i x s).memOk := homeStore_memOk h

theorem mapGranules_memOk {t i fpa n} (h : s.memOk) : (mapGranules t i fpa n s).memOk :=
  foldl_memOk (fun _ _ h1 => writeAperture_memOk h1) h

theorem askSwitch_memOk {fpa} {body : State → Accept} (hbody : ∀ s, s.memOk → (body s).memOk) (h : s.memOk) :
    (askSwitch fpa body s).memOk := by
  unfold askSwitch
  split
  · exact Accept.memOk_bad h
  · exact hbody _ (takeSeq_memOk h)

theorem swmTurn_memOk {body : Access → Nat → State → Accept} {a e} (hbody : ∀ a b s, s.memOk → (body a b s).memOk) (h : s.memOk) :
    (swmTurn body a e s).memOk := by
  unfold swmTurn
  split
  · exact tryLater_memOk h
  · exact hbody _ _ _ h

theorem acceptAlloc_memOk {a e} (h : s.memOk) : (acceptAlloc a e s).memOk := by
  unfold acceptAlloc
  grind [answer_memOk, askSwitch_memOk, mapGranules_memOk, rejectFabric_memOk, tryLater_memOk, zeroRange_memOk, State.memOk]

theorem acceptMap_memOk {a e} (h : s.memOk) : (acceptMap a e s).memOk := by
  unfold acceptMap
  grind [answer_memOk, askSwitch_memOk, mapGranules_memOk, rejectFabric_memOk, tryLater_memOk]

theorem drainSwitch_memOk {t} (h : s.memOk) : (drainSwitch t s).memOk := by
  grind [drainSwitch, drainEntry_memOk, foldl_memOk]

theorem unmapped_memOk {free x a} (h : s.memOk) : (unmapped free x a s).memOk := by
  unfold unmapped
  split
  · exact answer_memOk h
  · split <;> exact answer_memOk h

theorem unmapGranules_memOk {t i n va} (h : s.memOk) : (unmapGranules t i n va s).memOk :=
  foldl_memOk (fun _ _ h1 => writeAperture_memOk h1) h

theorem acceptUnmap_memOk {free a e} (h : s.memOk) : (acceptUnmap free a e s).memOk := by
  grind [acceptUnmap, answer_memOk, askSwitch_memOk, drainSwitch_memOk, ownEntry_memOk, rejectFabric_memOk, standIn_memOk,
    tryLater_memOk, unmapGranules_memOk, unmapped_memOk, Accept.memOk]

theorem sendBranches_memOk {plane port new} (h : s.memOk) : (sendBranches plane port new s).memOk := h

theorem withPayload_memOk {a badWord} {body : Group → List Byte → State → Accept} (h : s.memOk)
    (hbody : ∀ a b s, s.memOk → (body a b s).memOk) :
    (withPayload a badWord s body).memOk := by
  grind [withPayload, gangRead_memOk, readLong_memOk, rejectFabric_memOk, Accept.memOk, Done.memOk]

theorem acceptMulticast_memOk {a _e} (h : s.memOk) : (acceptMulticast a _e s).memOk := by
  grind [acceptMulticast, addOutstanding_memOk, foldl_memOk, postReport_memOk, sendBranches_memOk, takeSeq_memOk,
    withPayload_memOk, Accept.memOk, State.memOk]

theorem acceptReduce_memOk {a _e} (h : s.memOk) : (acceptReduce a _e s).memOk := by
  grind [acceptReduce, addOutstanding_memOk, postReport_memOk, withPayload_memOk, Accept.memOk, State.memOk]

theorem acceptSignal_memOk {a e} (h : s.memOk) : (acceptSignal a e s).memOk := by
  grind [acceptSignal, drainGang_memOk, publishDie_memOk, translate_memOk, Accept.memOk, State.memOk]

theorem acceptFabricStat_memOk {a _e} (h : s.memOk) : (acceptFabricStat a _e s).memOk := answer_memOk h

/-! ## Scalar words -/

theorem scalar1_memOk {sh d a f} (h : s.memOk) : (scalar1 sh d a f s).memOk := scalarWord_memOk h
theorem scalar2_memOk {sh d a b f} (h : s.memOk) : (scalar2 sh d a b f s).memOk := scalarWord_memOk h

theorem scalarDiv_memOk {sh d a b f} (h : s.memOk) : (scalarDiv sh d a b f s).memOk :=
  issue_memOk (fun _ h1 => State.flag_memOk (State.setR_memOk h1)) h

/-! ## The sequencer (17) -/

theorem rejectSequence_memOk {code addr kind entry w} (h : s.memOk) : (rejectSequence code addr kind entry w s).memOk :=
  Accept.memOk_bad h

theorem imageFault_memOk {w kind entry} (h : s.memOk) : (imageFault w kind entry s).memOk := rejectSequence_memOk h
theorem freePages_memOk {core} (h : s.memOk) : (freePages core s).memOk := State.setCore_memOk h

theorem loadPage_memOk {core page t digest slot words} (h : s.memOk) : (loadPage core page t digest slot words s).memOk :=
  State.setCore_memOk h

theorem readSequence_memOk {rd : Reader} {at_} (hrd : rd.memOk) (h : s.memOk) : (readSequence rd at_ s).memOk := by
  grind [readSequence, Done.got_memOk, Got.next_memOk, readLong_memOk, Got.memOk]

theorem acceptBind_memOk {a e} (h : s.memOk) : (acceptBind a e s).memOk := by
  unfold acceptBind
  split <;> grind [State.setCrew_memOk, answer_memOk, freePages_memOk, gangRead_memOk, imageFault_memOk, loadPage_memOk,
    readLong_memOk, readSequence_memOk, Accept.memOk, Got.memOk, Done.memOk]

theorem acceptUnbind_memOk {a _e} (h : s.memOk) : (acceptUnbind a _e s).memOk := by
  unfold acceptUnbind
  split
  · exact Accept.memOk_wait h
  · exact Accept.memOk_done (freePages_memOk (State.setCrew_memOk h))

theorem acceptQuery_memOk {a _e} (h : s.memOk) : (acceptQuery a _e s).memOk := answer_memOk h

theorem acceptImage_memOk {a e} (h : s.memOk) : (acceptImage a e s).memOk := by
  unfold acceptImage
  dsimp only
  split
  · exact Accept.memOk_done (State.setTenant_memOk h)
  split
  · exact rejectSequence_memOk h
  split
  · exact rejectSequence_memOk h
  · exact Accept.memOk_done (State.setTenant_memOk h)

theorem uLoad_memOk {global addr} (h : s.memOk) : (uLoad global addr s).memOk := by
  unfold uLoad
  split
  · exact Got.memOk_bad h
  split
  · exact Got.next_memOk (Done.got_memOk (gangRead_memOk _ _ _ h)) (fun _ _ h1 => Got.memOk_ok h1)
  split
  · exact Got.memOk_bad h
  · exact Got.memOk_ok h

theorem uLoads_memOk {global x y l x1 l1 x2} (h : s.memOk) : (uLoads global x y l x1 l1 x2 s).2.2.2.memOk := by
  fun_induction uLoads global x y l x1 l1 x2 s <;> grind [uLoad_memOk, Got.memOk]

theorem runFrom_memOk {r word l n l1 x} (h : s.memOk) : (runFrom r word l n l1 x s).memOk := by
  fun_induction runFrom r word l n l1 x s <;> grind [uLoads_memOk, RunEnd.memOk]

theorem sequenceWord_memOk {k d a b n} (h : s.memOk) : (sequenceWord k d a b n s).memOk := by
  grind [sequenceWord, State.setR_memOk, issueTrap_memOk, runFrom_memOk, stall_memOk, takeTrap_memOk, RunEnd.memOk, State.memOk]

/-! ## The dispatch engine (18 R388-R395) -/

theorem hubXl_memOk {t read write va} (h : s.memOk) : (hubXl t read write va s).1.memOk := translateFor_memOk h

theorem hubRead_memOk {t} : (hubRead t).memOk := by
  intro x n s h
  unfold hubRead
  grind [hubXl_memOk, readAt_memOk, Done.memOk]

theorem hubWrite_memOk {t} : (hubWrite t).memOk := by
  intro x n s h
  unfold hubWrite
  grind [homeStore_memOk, homeWrite_memOk, hubXl_memOk, remoteWrite_memOk, writeRegBytes_memOk, Done.memOk]

theorem tenantError_memOk {t code} (h : s.memOk) : (tenantError t code s).memOk :=
  raiseTenantError_memOk (State.setTenant_memOk h)

theorem writeSignal_memOk {t va v} (h : s.memOk) : optOk (writeSignal t va v s) := by
  grind [writeSignal, hubWrite_memOk, optOk, Writer.memOk, Done.memOk]

theorem refuseEntry_memOk {t code d} (h : s.memOk) : optOk (refuseEntry t code d s) := by
  exact optOk_map (writeSignal_memOk h) fun _ h => tenantError_memOk h

theorem settleNode_memOk {id} (h : s.memOk) : (settleNode id s).memOk := by
  unfold settleNode
  split
  · split
    · exact h
    split
    · exact nodeError_memOk h
    split
    · exact State.setNode_memOk h
    · exact h
  · exact h

theorem takeEarly_memOk {t addr} (h : s.memOk) : optPairOk (takeEarly t addr s) := by
  grind [takeEarly, hubRead_memOk, hubWrite_memOk, optPairOk, Reader.memOk, Writer.memOk, Done.memOk]

theorem enterPool_memOk {d addr queue irq fence} (h : s.memOk) : optPairOk (enterPool d addr queue irq fence s) := by
  unfold enterPool
  exact optPairOk_map (takeEarly_memOk h) fun _ _ h => settleNode_memOk h

theorem advanceHead_memOk {t q} (h : s.memOk) : (advanceHead t q s).memOk := State.setTenant_memOk h

theorem takeEntry_memOk {t q} (h : s.memOk) : optOk (takeEntry t q s) := by
  grind [takeEntry, advanceHead_memOk, hubRead_memOk, readLong_memOk, refuseEntry_memOk, optOk, Reader.memOk, Done.memOk,
    State.memOk]

theorem takeEntries_memOk {t q n} (h : s.memOk) : (takeEntries t q n s).memOk := by
  fun_induction takeEntries t q n s <;> grind [takeEntry_memOk, optOk]

theorem takeAll_memOk (h : s.memOk) : (takeAll s).memOk :=
  foldl_memOk (fun _ _ h1 => foldl_memOk (fun _ _ h2 => takeEntries_memOk h2) h1) h

theorem hostDoorbell_memOk {t q tail} (h : s.memOk) : (hostDoorbell t q tail s).memOk := by
  unfold hostDoorbell
  split
  · exact takeEntries_memOk (writeDoorbell_memOk h)
  · exact h

theorem nodeAdmit_memOk {k} (h : s.memOk) : (nodeAdmit k s).memOk := by
  grind [nodeAdmit, enterPool_memOk, takeAll_memOk, optPairOk, State.memOk]

theorem acknowledgeSignal_memOk {p fault} (h : s.memOk) : (acknowledgeSignal p fault s).memOk := by
  unfold acknowledgeSignal
  split
  · split
    · exact postReport_memOk (State.updGang_memOk h)
    · exact State.updGang_memOk h
  · exact h

theorem applySignal_memOk {p} (h : s.memOk) : optOk (applySignal p s) := by
  grind [applySignal, State.setNode_memOk, acknowledgeSignal_memOk, hubRead_memOk, hubWrite_memOk, settleNode_memOk,
    tenantError_memOk, optOk, Reader.memOk, Writer.memOk, State.memOk, Done.memOk]

theorem predecessorSignal_memOk {k} (h : s.memOk) : (predecessorSignal k s).memOk := by
  grind [predecessorSignal, applySignal_memOk, optOk, State.memOk]

theorem sendSignal_memOk {t pkg addr cores error gang} (h : s.memOk) : (sendSignal t pkg addr cores error gang s).memOk := by
  unfold sendSignal
  split
  · exact h
  · exact sendPacket_memOk h

theorem launchNode_memOk {a e} (h : s.memOk) : (launchNode a e s).memOk := by
  grind [launchNode, answer_memOk, enterPool_memOk, gangRead_memOk, readLong_memOk, Accept.memOk, optPairOk, Done.memOk]

theorem acceptLaunch_memOk {a e} (h : s.memOk) : (acceptLaunch a e s).memOk :=
  behindRelease_memOk (fun _ h1 => launchNode_memOk h1) h

theorem acceptNodeSignal_memOk {a e} (h : s.memOk) : (acceptNodeSignal a e s).memOk := by
  unfold acceptNodeSignal
  dsimp only
  split
  · exact answer_memOk h
  · exact behindRelease_memOk (fun _ h1 => answer_memOk (sendSignal_memOk (addOutstanding_memOk h1))) h

theorem acceptNodeStat_memOk {a _e} (h : s.memOk) : (acceptNodeStat a _e s).memOk := answer_memOk h

/-! ## Eviction and frames (06 R188-R191) -/

theorem areaWrite_memOk {c va bs} (h : s.memOk) : optOk (areaWrite c va bs s) := by
  grind [areaWrite, Client.write_memOk, landWrites_memOk, writeLong_memOk, optOk, Done.memOk]

theorem drainEnsemble_memOk {ens} (h : s.memOk) : (drainEnsemble ens s).memOk :=
  foldl_memOk (fun _ _ h1 => foldl_memOk (fun _ _ h2 => drainGang_memOk h2) h1) h

theorem revertPeer_memOk {core t} (h : s.memOk) : (revertPeer core t s).memOk := by
  grind [revertPeer, setTask_memOk, setTile_memOk, State.memOk]

theorem saveMatrix_memOk {c} (h : s.memOk) : optOk (saveMatrix c s) := by
  unfold saveMatrix
  split
  · exact optOk_some h
  · refine optOk_map (foldlBind_optOk (fun _ _ h => areaWrite_memOk h) (optOk_some ?_)) fun _ h => h
    exact unspecified_memOk (foldl_memOk (fun _ _ h => revertPeer_memOk h) h)

theorem areaRead_memOk {c va n} (h : s.memOk) : optPairOk (areaRead c va n s) := by
  grind [areaRead, Client.read_memOk, readLong_memOk, optPairOk, Done.memOk]

theorem readPieces_memOk {c l} (h : s.memOk) : optPairOk (readPieces c l s) := by
  induction l generalizing s with
  | nil => grind [readPieces, optPairOk]
  | cons p r ih =>
    unfold readPieces
    refine optPairOk_bind (areaRead_memOk h) fun b s1 h1 => ?_
    cases b with
    | none => grind [optPairOk]
    | some b => exact optPairOk_map (ih h1) fun _ _ h => h

theorem loadMatrix_memOk {c} (h : s.memOk) : (loadMatrix c s).memOk := by
  grind [loadMatrix, State.setCore_memOk, readPieces_memOk, Reload.memOk, optPairOk, State.memOk]

theorem quiesceCrew_memOk {c} (h : s.memOk) : optOk (quiesceCrew c s) := saveMatrix_memOk (State.setCore_memOk h)

theorem quiesceEnsemble_memOk {ens} (h : s.memOk) : optOk (quiesceEnsemble ens s) := by
  unfold quiesceEnsemble
  exact foldlBind_optOk (fun _ _ h => quiesceCrew_memOk h) (optOk_some h)

theorem writeFrame_memOk {c} (h : s.memOk) : optOk (writeFrame c s) := by
  grind [writeFrame, areaWrite_memOk, unspecified_memOk]

theorem reloadFrame_memOk (h : s.memOk) : (reloadFrame s).memOk := by
  grind [reloadFrame, State.setCrew_memOk, State.setG_memOk, areaRead_memOk, translate_memOk, Reload.memOk, optPairOk]

theorem freeSlots_memOk {ens} (h : s.memOk) : (freeSlots ens s).memOk := by
  grind [freeSlots, State.setCrew_memOk, State.setTenant_memOk, foldl_memOk]

theorem freeCrewPages_memOk {ens} (h : s.memOk) : (freeCrewPages ens s).memOk := by
  unfold freeCrewPages
  exact foldl_memOk (fun _ _ h => freePages_memOk h) h

theorem settleEnsemble_memOk {ens} (h : s.memOk) : (settleEnsemble ens s).memOk := by
  unfold settleEnsemble
  dsimp only
  split
  · exact h
  split
  · exact freeCrewPages_memOk (freeSlots_memOk (State.setEnsemble_memOk h))
  split
  · exact freeCrewPages_memOk (State.setEnsemble_memOk h)
  · exact h

theorem leaveCore_memOk {st} (h : s.memOk) : (leaveCore st s).memOk := by
  unfold leaveCore
  dsimp only
  split
  · exact State.setG_memOk h
  split
  · split
    · exact settleEnsemble_memOk (State.setCore_memOk (State.setCrew_memOk (State.setG_memOk h)))
    · exact settleEnsemble_memOk (State.setCrew_memOk (State.setG_memOk h))
  split
  · exact settleEnsemble_memOk (State.setCore_memOk (State.setCrew_memOk (State.setG_memOk h)))
  · exact settleEnsemble_memOk (State.setCrew_memOk (State.setG_memOk h))

/-! ## Placement, start, restore, completion (18 R396-R405) -/

theorem spoilPad_memOk {core base size} (h : s.memOk) : (spoilPad core base size s).memOk := by
  grind [spoilPad, unspecified_memOk, State.memOk, Memory.write_wf]

theorem writeObjects_memOk {d key} (h : s.memOk) : (writeObjects d key s).memOk :=
  ⟨h.1, foldlMem_wf (fun _ _ hm => Memory.write_wf _ _ _ hm) (foldlMem_wf (fun _ _ hm => Memory.write_wf _ _ _ hm) h.2)⟩

theorem loadTable_memOk {t table l} (h : s.memOk) : optPairOk (loadTable t table l s) := by
  fun_induction loadTable t table l s <;> grind [hubRead_memOk, readLong_memOk, Done.memOk, optPairOk, optPairOk_map]

theorem bringTable_memOk {n core again} (h : s.memOk) : optOk (bringTable n core again s) := by
  unfold bringTable
  split
  · exact optOk_some h
  · exact optOk_mapPair (loadTable_memOk h) fun _ _ h => h

theorem startCrew_memOk {n c idx straddle} (h : s.memOk) : optOk (startCrew n c idx straddle s) := by
  unfold startCrew
  refine optOk_bind (bringTable_memOk h) fun s1 h1 => ?_
  have h2 := writeObjects_memOk (d := n.desc) (key := c.key 0) (spoilPad_memOk (core := c.core) (base := c.spad)
    (size := c.size) h1)
  refine optOk_map (acquireAt_memOk ?_) fun _ h => h
  split
  · exact h2
  · exact h2

theorem startEnsemble_memOk {n places bases} (h : s.memOk) : optOk (startEnsemble n places bases s) := by
  unfold startEnsemble
  exact foldlBind_optOk (fun _ _ h => startCrew_memOk h) (optOk_some h)

theorem evictEnsemble_memOk {e} (h : s.memOk) : (evictEnsemble e s).memOk := by
  unfold evictEnsemble
  dsimp only
  split
  · exact h
  · exact settleEnsemble_memOk (State.mapGangs_memOk (State.setEnsemble_memOk (State.setTenant_memOk (foldl_memOk
      (fun _ _ h1 => State.setCrew_memOk h1) h))))

theorem preempt_memOk {x} (h : s.memOk) : (preempt x s).memOk := by
  unfold preempt
  dsimp only
  split
  · exact h
  split
  · exact h
  · exact foldl_memOk (fun _ _ h1 => evictEnsemble_memOk h1) h

theorem placeEnsemble_memOk {node places} (h : s.memOk) : (placeEnsemble node places s).memOk := by
  unfold placeEnsemble
  dsimp only
  split
  · split
    · exact h
    split
    · exact getD_memOk (startEnsemble_memOk h) h
    split
    · exact h
    · exact preempt_memOk h
  · exact h

theorem returnCmds_memOk {c} (h : s.memOk) : (returnCmds c s).memOk := foldl_memOk (fun _ _ h1 => State.setCore_memOk h1) h

theorem reloadSequence_memOk {c b} (h : s.memOk) : (reloadSequence c b s).memOk := by
  grind [reloadSequence, Client.read_memOk, State.setCrew_memOk, loadPage_memOk, readSequence_memOk, Reload.memOk, Got.memOk]

theorem Reload.then_memOk {x : Reload} {f : State → Reload} (hx : x.memOk) (hf : ∀ s, s.memOk → (f s).memOk) :
    (x.then f).memOk := by
  cases x <;> grind [Reload.then, Reload.memOk]

theorem foldlThen_memOk {α : Type} {f : State → α → Reload} {l : List α} {r : Reload}
    (hf : ∀ s x, s.memOk → (f s x).memOk) (hr : r.memOk) : (l.foldl (fun r x => r.then fun s => f s x) r).memOk :=
  List.foldlRecOn (motive := Reload.memOk) l _ hr fun _ hb a _ => Reload.then_memOk hb fun s hs => hf s a hs

theorem ofOption_memOk {x : Option State} (hx : optOk x) : (ofOption x).memOk := by
  unfold ofOption
  grind [optOk, Reload.memOk]

theorem restoreCrew_memOk {n c straddle} (h : s.memOk) : (restoreCrew n c straddle s).memOk := by
  unfold restoreCrew
  refine Reload.then_memOk (ofOption_memOk (bringTable_memOk h)) fun s1 h1 => ?_
  refine Reload.then_memOk (ofOption_memOk (acquireAt_memOk (spoilPad_memOk h1))) fun s2 h2 => ?_
  refine Reload.then_memOk (loadMatrix_memOk (returnCmds_memOk h2)) fun s3 h3 => ?_
  refine Reload.then_memOk (foldlThen_memOk (fun _ _ h => reloadSequence_memOk h) (Reload.memOk_ok h3)) fun s4 h4 => ?_
  exact Reload.memOk_ok (State.mapGangs_memOk h4)

theorem restoreEnsemble_memOk {n e places bases} (h : s.memOk) : optOk (restoreEnsemble n e places bases s) := by
  unfold restoreEnsemble
  extract_lets st cs s1 s2 s3
  have h1 : s1.memOk := foldl_memOk (fun _ _ h => h) h
  have h3 : s3.memOk := h1
  have h4 := foldlThen_memOk (l := crewsOf s3 e.uid) (f := fun s c => restoreCrew n c st s) (fun _ _ h => restoreCrew_memOk h)
    (Reload.memOk_ok h3)
  grind [optOk, Reload.memOk, nodeError_memOk]

theorem restoreAt_memOk {ens places} (h : s.memOk) : (restoreAt ens places s).memOk := by
  unfold restoreAt
  dsimp only
  split
  · split
    · exact h
    split
    · exact getD_memOk (restoreEnsemble_memOk h) h
    split
    · exact h
    · exact preempt_memOk h
  · exact h

theorem saveLimitPassed_memOk {ens} (h : s.memOk) : (saveLimitPassed ens s).memOk := by
  unfold saveLimitPassed
  split
  · split
    · split
      · exact nodeError_memOk h
      · exact h
    split
    · exact nodeError_memOk h
    · exact h
  · exact h

theorem beginRelease_memOk {n} (h : s.memOk) : (beginRelease n s).memOk :=
  State.setNode_memOk (foldl_memOk (fun _ _ h1 => publishDie_memOk h1) h)

theorem dropNode_memOk {n} (h : s.memOk) : (dropNode n s).memOk :=
  foldl_memOk (fun _ _ h1 => settleNode_memOk h1) (foldl_memOk (fun _ _ h1 => freePages_memOk h1) h)

theorem signalSuccessors_memOk {n} (h : s.memOk) : (signalSuccessors n s).memOk :=
  foldl_memOk (fun _ _ h1 => sendSignal_memOk h1) h

theorem nodeComplete_memOk {node} (h : s.memOk) : (nodeComplete node s).memOk := by
  grind [nodeComplete, beginRelease_memOk, drainEvents_memOk, dropNode_memOk, raiseTenantError_memOk, raiseVector_memOk,
    signalSuccessors_memOk, writeSignal_memOk, optOk]

/-! ## Traps at a boundary and system words (06 R171-R193) -/

theorem atGang_memOk {uid} {f : State → State} (hf : ∀ s, s.memOk → (f s).memOk) (h : s.memOk) : (atGang uid f s).memOk := by
  unfold atGang
  split
  · split
    · exact hf _ (State.focus_memOk h)
    · exact h
  · exact h

theorem acceptOf_memOk {major op a e} (h : s.memOk) : (acceptOf major op a e s).memOk := by
  unfold acceptOf
  split
  · exact acceptCopy_memOk h
  · exact acceptGrant_memOk h
  · exact acceptSlots_memOk h
  · exact acceptCount_memOk h
  · exact acceptRun_memOk h
  · exact acceptStat_memOk h
  · exact acceptTask_memOk h
  · exact swmTurn_memOk (fun _ _ _ h1 => acceptAlloc_memOk h1) h
  · exact swmTurn_memOk (fun _ _ _ h1 => acceptMap_memOk h1) h
  · exact swmTurn_memOk (fun _ _ _ h1 => acceptUnmap_memOk h1) h
  · exact swmTurn_memOk (fun _ _ _ h1 => acceptUnmap_memOk h1) h
  · exact acceptMulticast_memOk h
  · exact acceptReduce_memOk h
  · exact acceptSignal_memOk h
  · exact acceptFabricStat_memOk h
  · exact acceptLaunch_memOk h
  · exact acceptNodeSignal_memOk h
  · exact acceptNodeStat_memOk h
  · exact acceptBind_memOk h
  · exact acceptUnbind_memOk h
  · exact acceptQuery_memOk h
  · exact acceptImage_memOk h

theorem keepPlace_memOk {e x} (h : s.memOk) : (keepPlace e x s).memOk := State.setG_memOk h

theorem completeAccess_memOk {e} (h : s.memOk) : (completeAccess e s).memOk := by
  unfold completeAccess
  grind [State.setG_memOk, acceptOf_memOk, acquireLanes_memOk, awaitRecords_memOk, fenceStep_memOk, keepPlace_memOk, mcRun_memOk,
    mcStores_memOk, parkFirst_memOk, perform_memOk, rangeRun_memOk, relStore_memOk, settle_memOk, tlbStep_memOk, optOk,
    Got.memOk, Accept.memOk, State.memOk]

theorem keepWait_memOk (h : s.memOk) : (keepWait s).memOk := State.setG_memOk h
theorem recallWaiting_memOk (h : s.memOk) : (recallWaiting s).memOk := State.setG_memOk h

theorem asyncTrap_memOk {f clear} (h : s.memOk) : (asyncTrap f clear s).memOk := by
  unfold asyncTrap
  dsimp only
  split
  · exact stall_memOk (recallWaiting_memOk h)
  · exact enterTrap_memOk (State.setG_memOk (keepWait_memOk (recallWaiting_memOk h)))

theorem faultTrap_memOk (h : s.memOk) : (faultTrap s).memOk := by
  unfold faultTrap
  split
  · exact takeTrap_memOk h
  · exact h

theorem engineTrap_memOk {r rest} (h : s.memOk) : (engineTrap r rest s).memOk := by
  unfold engineTrap
  dsimp only
  split
  · exact State.setG_memOk (asyncTrap_memOk h)
  · exact asyncTrap_memOk h

theorem takeReport_memOk (h : s.memOk) : (takeReport s).memOk := by
  unfold takeReport
  split
  · exact asyncTrap_memOk h
  · exact h

theorem evictTrap_memOk (h : s.memOk) : (evictTrap s).memOk := by
  grind [evictTrap, State.setG_memOk, drainEnsemble_memOk, enterTrap_memOk, keepWait_memOk, quiesceEnsemble_memOk,
    recallWaiting_memOk, stall_memOk, writeFrame_memOk, optOk, optOk_bind]

theorem firstDue_memOk (h : s.memOk) : optOk (firstDue s) := by
  unfold firstDue
  split
  · exact optOk_some (asyncTrap_memOk h)
  split
  · exact optOk_some (faultTrap_memOk h)
  split
  · exact optOk_none
  split
  · exact optOk_some (engineTrap_memOk h)
  split
  · exact optOk_some (takeReport_memOk h)
  · exact optOk_none

theorem lastDue_memOk (h : s.memOk) : optOk (lastDue s) := by
  unfold lastDue
  split
  · exact optOk_some (asyncTrap_memOk h)
  split
  · exact optOk_some (asyncTrap_memOk h)
  split
  · exact optOk_some (evictTrap_memOk h)
  · exact optOk_none

theorem takeDue_memOk (h : s.memOk) : (takeDue s).memOk := by
  grind [takeDue, State.setG_memOk, firstDue_memOk, lastDue_memOk, optOk, State.memOk, optOk_or]

theorem resumeReported_memOk {r go} (h : s.memOk) : (resumeReported r go s).memOk := by
  grind [resumeReported, releaseBegin_memOk, resumeCmd_memOk, resumeTask_memOk]

theorem restoreDone_memOk (h : s.memOk) : (restoreDone s).memOk := by
  unfold restoreDone
  dsimp only
  split
  · exact h
  split
  · exact State.setCrew_memOk (State.setG_memOk h)
  · exact freeSlots_memOk (State.setEnsemble_memOk (State.setCrew_memOk (State.setG_memOk h)))

theorem returnFrom_memOk (h : s.memOk) : (returnFrom s).memOk := by
  unfold returnFrom
  dsimp only
  split
  · split
    · split
      · exact restoreDone_memOk (resumeReported_memOk (State.setG_memOk (leaveHandler_memOk h)))
      · exact restoreDone_memOk (State.setG_memOk (leaveHandler_memOk h))
    · exact restoreDone_memOk (State.setG_memOk (leaveHandler_memOk h))
  split
  · split
    · exact resumeReported_memOk (State.setG_memOk (leaveHandler_memOk h))
    · exact State.setG_memOk (leaveHandler_memOk h)
  · exact State.setG_memOk (leaveHandler_memOk h)

theorem returnWord_memOk (h : s.memOk) : (returnWord s).memOk := by
  grind [returnWord, joinFaulted_memOk, nodeError_memOk, reloadFrame_memOk, returnFrom_memOk, stall_memOk, Reload.memOk]

theorem breakWord_memOk {i} (h : s.memOk) : (breakWord i s).memOk := takeTrap_memOk h
theorem selectLane_memOk {a e} (h : s.memOk) : (selectLane a e s).memOk := State.setG_memOk (State.setR_memOk h)

theorem saveDone_memOk (h : s.memOk) : (saveDone s).memOk := by
  grind [saveDone, State.setG_memOk, joinFaulted_memOk, leaveCore_memOk, releaseBegin_memOk, stall_memOk, State.memOk]

theorem exitWord_memOk (h : s.memOk) : (exitWord s).memOk := by
  unfold exitWord
  dsimp only
  split
  · exact stall_memOk h
  split
  · exact stall_memOk (joinFaulted_memOk h)
  split
  · exact engineTrap_memOk (State.setG_memOk h)
  split
  · exact block_memOk (drainGang_memOk h)
  split
  · exact takeReport_memOk (State.setG_memOk (drainGang_memOk h))
  split
  · exact block_memOk (drainGang_memOk h)
  · exact leaveCore_memOk (drainGang_memOk h)

/-! ## Events of one gang -/

theorem endTimedWait_memOk (h : s.memOk) : (endTimedWait s).memOk := by
  unfold endTimedWait
  split
  · split
    · exact State.setG_memOk h
    · exact h
  · exact h

theorem endSleep_memOk (h : s.memOk) : (endSleep s).memOk := by
  unfold endSleep
  split
  · split
    · exact State.setG_memOk h
    · exact h
  · exact h

theorem wakeOther_memOk (h : s.memOk) : (wakeOther s).memOk := by
  unfold wakeOther
  split
  · exact State.setG_memOk h
  · exact h

theorem reachLimit_memOk (h : s.memOk) : (reachLimit s).memOk := by
  unfold reachLimit
  dsimp only
  split
  · exact State.setG_memOk h
  · exact h

theorem parkLane_memOk {e L f} (h : s.memOk) : (parkLane e L f s).memOk := settle_memOk h

theorem hardError_memOk {sid addr} (h : s.memOk) : (hardError sid addr s).memOk := by
  unfold hardError
  dsimp only
  split
  · split
    · exact parkLane_memOk h
    split
    · exact setCmd_memOk h
    · exact State.setG_memOk h
  split
  · split
    · exact setTask_memOk h
    · exact State.setG_memOk h
  · exact State.setG_memOk h

/-! ## Events of the memory system -/

theorem publishEarly_memOk {d} (h : s.memOk) : (publishEarly d s).memOk := by
  unfold publishEarly
  dsimp only
  split
  · exact foldl_memOk (fun _ _ h1 => publish_memOk h1) h
  · exact h

theorem recordArrives_memOk {id} (h : s.memOk) : (recordArrives id s).memOk := by
  unfold recordArrives
  split
  · split
    · exact h
    · exact applyRecord_memOk h
  · exact h

theorem applyForwarded_memOk {id} (h : s.memOk) : (applyForwarded id s).memOk := by
  unfold applyForwarded
  dsimp only
  split
  · split
    · split
      · exact State.setDie_memOk h
      · exact h
    · exact h
  · exact h

theorem deliver_memOk {line data w} (h : s.memOk) : (deliver line data w s).memOk := State.updGang_memOk h

theorem fillArrives_memOk {id} (h : s.memOk) : (fillArrives id s).memOk := by
  unfold fillArrives
  dsimp only
  split
  · split
    · split
      · exact h
      split
      · exact State.setDie_memOk (makeRoom_memOk (foldl_memOk (fun _ _ h1 => deliver_memOk h1) h))
      · exact foldl_memOk (fun _ _ h1 => deliver_memOk h1) h
    split
    · exact h
    split
    · exact State.setDie_memOk (makeRoom_memOk (foldl_memOk (fun _ _ h1 => deliver_memOk h1) h))
    · exact foldl_memOk (fun _ _ h1 => deliver_memOk h1) h
  · exact h

theorem homeAdd_memOk {ag fpa x} (h : s.memOk) : optOk (homeAdd ag fpa x s) := by
  unfold homeAdd
  split
  · split
    · exact optOk_none
    · exact optOk_some (patchDie_memOk (homeWrite_memOk (recallSectors_memOk (prePublish_memOk h))))
  split
  · exact optOk_some (writeRegBytes_memOk h)
  · exact optOk_some (homeWrite_memOk h)

theorem dropRelease_memOk {id} (h : s.memOk) : (dropRelease id s).memOk := h

theorem sendAdd_memOk {r fpa x} (h : s.memOk) : (sendAdd r fpa x s).memOk := by
  unfold sendAdd
  dsimp only
  split
  · exact dropRelease_memOk h
  split
  · exact getD_memOk (optOk_map (homeAdd_memOk h) (fun _ h1 => dropRelease_memOk h1)) h
  split
  · exact dropRelease_memOk (postReport_memOk h)
  split
  · exact drainEntry_memOk h
  · exact dropRelease_memOk (addOutstanding_memOk (dropPeer_memOk (sendPacket_memOk (drainEntry_memOk h))))

theorem leaveReleased_memOk {id uid} (h : s.memOk) : (leaveReleased id uid s).memOk := by
  grind [leaveReleased, State.setG_memOk, atGang_memOk, leaveCore_memOk]

theorem finishArrivals_memOk {id} (h : s.memOk) : (finishArrivals id s).memOk := by
  grind [finishArrivals, atGang_memOk, finishArrival_memOk]

theorem finishPending_memOk {id} (h : s.memOk) : (finishPending id s).memOk := by
  unfold finishPending
  split
  · split
    · exact h
    split
    · exact sendAdd_memOk h
    · exact leaveReleased_memOk (dropRelease_memOk h)
  · exact finishArrivals_memOk h

theorem applyWriteBack_memOk {id} (h : s.memOk) : (applyWriteBack id s).memOk := by
  grind [applyWriteBack, State.setDir_memOk, bumpLines_memOk, State.memOk, Memory.write_wf]

theorem windowOpens_memOk {d} (h : s.memOk) : (windowOpens d s).memOk := by
  unfold windowOpens
  split
  · exact State.setDie_memOk h
  · exact h

theorem windowCloses_memOk {d} (h : s.memOk) : (windowCloses d s).memOk := windowOpens_memOk h

theorem hostLoad_memOk {ppa n} (h : s.memOk) : (hostLoad ppa n s).memOk := by
  unfold hostLoad
  split
  · exact recallSectors_memOk h
  · exact h

theorem hostStore_memOk {ppa bs} (h : s.memOk) : (hostStore ppa bs s).memOk := by
  unfold hostStore
  split
  · split
    · exact homeStore_memOk h
    · exact homeWrite_memOk h
    · exact h
  · exact h

theorem servePeer_memOk {id} (h : s.memOk) : (servePeer id s).memOk := by
  unfold servePeer
  split
  · split
    · exact h
    split
    · exact recallSectors_memOk h
    · split <;> exact h
    · exact homeWrite_memOk (recallSectors_memOk h)
    · exact h
  · exact h

/-! ## Events of the fabric (15) -/

theorem drainAged_memOk {c line} (h : s.memOk) : (drainAged c line s).memOk := by
  unfold drainAged
  split
  · split
    · exact drainEntry_memOk h
    · exact h
  · exact h

theorem dropPacket_memOk {id} (h : s.memOk) : (dropPacket id s).memOk := h
theorem setPacket_memOk {id f} (h : s.memOk) : (setPacket id f s).memOk := h

theorem packetEffect_memOk {p} (h : s.memOk) : (packetEffect p s).memOk := by
  unfold packetEffect
  split
  · exact homeStore_memOk h
  · exact homeStore_memOk (recallSectors_memOk h)
  · exact homeStore_memOk (recallSectors_memOk h)
  · split <;> exact h
  · split <;> exact h

theorem applyPacket_memOk {id} (h : s.memOk) : (applyPacket id s).memOk := by
  unfold applyPacket
  split
  · split
    · exact h
    split
    · exact packetEffect_memOk h
    · exact setPacket_memOk (packetEffect_memOk h)
  · exact h

theorem fallAt_memOk {gangs} (h : s.memOk) : (fallAt gangs s).memOk := foldl_memOk (fun _ _ h1 => State.updGang_memOk h1) h

theorem receiveAck_memOk {id} (h : s.memOk) : (receiveAck id s).memOk := by
  unfold receiveAck
  split
  · split
    · exact fallAt_memOk (dropPacket_memOk h)
    · exact h
  · exact h

theorem failPoster_memOk {cmd w} (h : s.memOk) : (failPoster cmd w s).memOk := by
  unfold failPoster
  split
  · exact h
  split
  · exact failCmd_memOk h
  split
  · exact failTask_memOk h
  · exact h

theorem endPacket_memOk {p w} (h : s.memOk) : (endPacket p w s).memOk :=
  failPoster_memOk (foldl_memOk (fun _ _ h1 => postReport_memOk h1) (fallAt_memOk (dropPacket_memOk h)))

theorem packetFails_memOk {id code} (h : s.memOk) : (packetFails id code s).memOk := by
  unfold packetFails
  split
  · split
    · exact h
    split
    · exact endPacket_memOk h
    · exact getD_memOk (optOk_mapFrom (fun _ => endPacket_memOk h)) h
  · exact h

theorem endBranch_memOk {d} (h : s.memOk) : (endBranch d s).memOk := by
  unfold endBranch
  dsimp only
  split
  · exact fallAt_memOk h
  · exact h

theorem failBranch_memOk {d code addr} (h : s.memOk) : (failBranch d code addr s).memOk := by
  unfold failBranch
  split
  · split
    · exact endBranch_memOk (postReport_memOk h)
    · exact endBranch_memOk h
  split
  · exact endBranch_memOk (postReport_memOk h)
  · exact endBranch_memOk h

theorem resendBranch_memOk {d} (h : s.memOk) : (resendBranch d s).memOk := by
  unfold resendBranch
  split
  · exact failBranch_memOk h
  · exact h

theorem resendContribution_memOk {c} (h : s.memOk) : (resendContribution c s).memOk := by
  unfold resendContribution
  split
  · exact h
  split
  · exact postReport_memOk (fallAt_memOk h)
  · exact h

theorem resendOther_memOk {id} (h : s.memOk) : (resendOther id s).memOk := by
  unfold resendOther
  split
  · exact resendContribution_memOk h
  split
  · exact resendBranch_memOk h
  · exact h

theorem retransmit_memOk {id} (h : s.memOk) : (retransmit id s).memOk := by
  unfold retransmit
  split
  · split
    · exact h
    split
    · split
      · exact endPacket_memOk h
      · exact dropPacket_memOk h
    · exact setPacket_memOk h
  · exact resendOther_memOk h

theorem discardPacket_memOk {id} (h : s.memOk) : (discardPacket id s).memOk := by
  unfold discardPacket
  split
  · exact setPacket_memOk h
  · exact resendOther_memOk h

theorem setLink_memOk {p f} (h : s.memOk) : (setLink p f s).memOk := h
theorem linkEvent_memOk {p up} (h : s.memOk) : (linkEvent p up s).memOk := postEvent_memOk h
theorem takeDown_memOk {p} (h : s.memOk) : (takeDown p s).memOk := linkEvent_memOk (setLink_memOk h)

theorem linkFails_memOk {p} (h : s.memOk) : (linkFails p s).memOk := by
  unfold linkFails
  split
  · split
    · exact takeDown_memOk h
    · exact h
  · exact h

theorem linkState_memOk {pkg plane up} (h : s.memOk) : (linkState pkg plane up s).memOk := by
  unfold linkState
  split
  · exact h
  split
  · split
    · exact h
    split
    · exact linkEvent_memOk (setLink_memOk h)
    · exact takeDown_memOk h
  split
  · exact h
  · split <;> exact h

theorem putSwitch_memOk {w} (h : s.memOk) : (putSwitch w s).memOk := h
theorem endStreams_memOk {sw} (h : s.memOk) : (endStreams sw s).memOk := foldl_memOk (fun _ _ h1 => endPacket_memOk h1) h
theorem emptySwitch_memOk {sw} (h : s.memOk) : (emptySwitch sw s).memOk := h

theorem loseSwitch_memOk {sw} (h : s.memOk) : (loseSwitch sw s).memOk := by
  unfold loseSwitch
  split
  · split
    · exact endStreams_memOk (putSwitch_memOk (emptySwitch_memOk h))
    · exact h
  · exact h

theorem replaceSwitch_memOk {sw} (h : s.memOk) : (replaceSwitch sw s).memOk := by
  unfold replaceSwitch
  split
  · split
    · exact h
    · split <;> exact putSwitch_memOk (emptySwitch_memOk h)
  · exact h

theorem writeSwitch_memOk {sw plane state generation} (h : s.memOk) : (writeSwitch sw plane state generation s).memOk := by
  unfold writeSwitch
  dsimp only
  split
  · split
    · split
      · split
        · exact putSwitch_memOk h
        · exact putSwitch_memOk (emptySwitch_memOk h)
      split
      · exact endStreams_memOk (putSwitch_memOk h)
      · exact endStreams_memOk (putSwitch_memOk (emptySwitch_memOk h))
    · exact h
  · exact h

theorem setQuota_memOk {t sw n} (h : s.memOk) : (setQuota t sw n s).memOk := by
  unfold setQuota
  split <;> exact h

theorem installGroup_memOk {id tenant members} (h : s.memOk) : (installGroup id tenant members s).memOk := by
  unfold installGroup
  split <;> exact h

theorem reportMember_memOk {code c} (h : s.memOk) : (reportMember code c s).memOk := by
  unfold reportMember
  split
  · exact postReport_memOk h
  · exact h

theorem reinstallGroup_memOk {id plane} (h : s.memOk) : (reinstallGroup id plane s).memOk := by
  unfold reinstallGroup
  split
  · exact h
  · exact foldl_memOk (fun _ _ h1 => foldl_memOk (fun _ _ h2 => reportMember_memOk h2) h1) h

theorem setRound_memOk {r} (h : s.memOk) : (setRound r s).memOk := h
theorem dropRound_memOk {r} (h : s.memOk) : (dropRound r s).memOk := h

theorem completeRound_memOk {G r} (h : s.memOk) : (completeRound G r s).memOk := by
  unfold completeRound
  split
  · exact h
  · split
    exact dropRound_memOk (sendBranches_memOk h)

theorem settleFailed_memOk {G r} (h : s.memOk) : (settleFailed G r s).memOk := by
  unfold settleFailed
  split
  · exact dropRound_memOk h
  · exact setRound_memOk h

theorem failRound_memOk {G r code} (h : s.memOk) : (failRound G r code s).memOk :=
  settleFailed_memOk (foldl_memOk (fun _ _ h1 => reportMember_memOk h1) h)

theorem enterRound_memOk {G r c} (h : s.memOk) : (enterRound G r c s).memOk := by
  unfold enterRound
  dsimp only
  split
  · exact settleFailed_memOk (reportMember_memOk h)
  split
  · exact failRound_memOk h
  split
  · exact failRound_memOk h
  split
  · exact completeRound_memOk h
  · exact setRound_memOk h

theorem takeContribution_memOk {id} (h : s.memOk) : (takeContribution id s).memOk := by
  unfold takeContribution
  dsimp only
  split
  · split
    · exact h
    split
    · split
      · exact resendContribution_memOk h
      split
      · exact h
      · exact enterRound_memOk (fallAt_memOk h)
    split
    · exact resendContribution_memOk h
    split
    · exact h
    · exact enterRound_memOk h
  · exact h

theorem translateBranch_memOk {t l} (h : s.memOk) : (translateBranch t l s).memOk := by
  fun_induction translateBranch t l s <;> grind [Got.next_memOk, translateFor_memOk, Got.memOk]

theorem writeWhole_memOk {fpa bs} (h : s.memOk) : (writeWhole fpa bs s).memOk := by
  unfold writeWhole
  split
  · exact homeStore_memOk h
  · exact homeWrite_memOk h

theorem deliverFar_memOk {d} (h : s.memOk) : (deliverFar d s).memOk := by
  unfold deliverFar
  dsimp only
  split
  · exact failBranch_memOk h
  · exact failBranch_memOk h
  · exact endBranch_memOk (homeWrite_memOk (homeWrite_memOk (homeWrite_memOk h)))

theorem deliverBranch_memOk {id} (h : s.memOk) : (deliverBranch id s).memOk := by
  grind [deliverBranch, deliverFar_memOk, endBranch_memOk, failBranch_memOk, homeAdd_memOk, translateBranch_memOk,
    writeWhole_memOk, Got.memOk, optOk]

theorem sendResidue_memOk {sw port entry} (h : s.memOk) : (sendResidue sw port entry s).memOk := by
  unfold sendResidue
  split
  · split <;> exact h
  · exact h

/-! ## Events of the dispatch engine and the host -/

theorem recordWrite_memOk {t off v} (h : s.memOk) : (recordWrite t off v s).memOk := by
  unfold recordWrite
  split
  · exact writeTenant_memOk h
  · exact h

theorem clearRefused_memOk {t} (h : s.memOk) : (clearRefused t s).memOk := by
  unfold clearRefused
  split
  · exact h
  · exact State.setTenant_memOk h

theorem hostWrite_memOk {off v} (h : s.memOk) : (hostWrite off v s).memOk := by
  unfold hostWrite
  split
  · exact h
  split
  · exact takeAll_memOk (writeReg_memOk h)
  · exact writeReg_memOk h

theorem spdmAnswer_memOk {index} (h : s.memOk) : (spdmAnswer index s).memOk := h

theorem outsideError_memOk {origin detail} (h : s.memOk) : (outsideError origin detail s).memOk := by
  unfold outsideError
  split
  · exact postEvent_memOk h
  · exact h

/-! ## Resets, firmware, power -/

theorem removeNodes_memOk {gone} (h : s.memOk) : (removeNodes gone s).memOk := h
theorem dropTwins_memOk {t} (h : s.memOk) : (dropTwins t s).memOk := h
theorem dropOrphans_memOk {t} (h : s.memOk) : (dropOrphans t s).memOk := foldl_memOk (fun _ _ h1 => dropL1s_memOk h1) h

theorem resetTenant_memOk {t} (h : s.memOk) : (resetTenant t s).memOk := by
  grind [resetTenant, State.setTenant_memOk, dropOrphans_memOk, dropTwins_memOk, postEvent_memOk, raiseTenantError_memOk,
    removeNodes_memOk, State.memOk]

theorem quietDown_memOk (h : s.memOk) : (quietDown s).memOk := by
  grind [quietDown, drainEntry_memOk, foldl_memOk, removeNodes_memOk, State.memOk]

theorem finishWarm_memOk {cause} (h : s.memOk) : (finishWarm cause s).memOk := by
  grind [finishWarm, foldl_memOk, makeRoom_memOk, publish_memOk, State.memOk]

theorem resetDone_memOk (h : s.memOk) : (resetDone s).memOk := postEvent_memOk h

theorem warmReset_memOk (h : s.memOk) : (warmReset s).memOk := by
  unfold warmReset
  dsimp only
  split
  · split
    · exact resetDone_memOk (finishWarm_memOk (quietDown_memOk h))
    · exact quietDown_memOk h
  · exact h

theorem verifyFirmware_memOk (h : s.memOk) : (verifyFirmware s).memOk := h
theorem emptyCaches_memOk (h : s.memOk) : (emptyCaches s).memOk := foldl_memOk (fun _ _ h1 => recallGrain_memOk h1) h
theorem dropCells_wf {lost} (h : s.memOk) : (dropCells lost s).wf = true := Memory.filter_wf _ _ h.1

theorem coldReset_memOk (h : s.memOk) : (coldReset s).memOk := by
  grind [coldReset, emptyCaches_memOk, finishWarm_memOk, quietDown_memOk, resetDone_memOk, verifyFirmware_memOk, State.memOk,
    dropCells_wf]

theorem withoutRail_memOk (h : s.memOk) : (withoutRail s).memOk :=
  ⟨dropCells_wf (lost := fun r => r == .hbm || r == .weight) h, rfl⟩

theorem powerOn_memOk (h : s.memOk) : (powerOn s).memOk := by
  unfold powerOn
  split
  · exact resetDone_memOk (verifyFirmware_memOk (withoutRail_memOk h))
  · exact verifyFirmware_memOk (withoutRail_memOk h)

theorem sideBandReset_memOk {secured command level} (h : s.memOk) : (sideBandReset secured command level s).memOk := h
theorem loadFirmware_memOk {image} (h : s.memOk) : (loadFirmware image s).memOk := h

theorem setCap_memOk {w} (h : s.memOk) : (setCap w s).memOk := by
  unfold setCap
  split <;> exact h

theorem powerEvent_memOk {origin limit} (h : s.memOk) : (powerEvent origin limit s).memOk := postEvent_memOk h

theorem lowerClock_memOk {limit} (h : s.memOk) : (lowerClock limit s).memOk := by
  unfold lowerClock
  split
  · exact h
  split
  · exact powerEvent_memOk (rescaleEclipse_memOk h)
  split
  · exact powerEvent_memOk h
  · exact h

theorem raiseClock_memOk {limit} (h : s.memOk) : (raiseClock limit s).memOk := by
  unfold raiseClock
  split
  · exact powerEvent_memOk (rescaleEclipse_memOk h)
  · exact h

theorem capReachable_memOk (h : s.memOk) : (capReachable s).memOk := by
  unfold capReachable
  split
  · exact powerEvent_memOk h
  · exact h

theorem thermalTrip_memOk {d} (h : s.memOk) : (thermalTrip d s).memOk := by
  grind [thermalTrip, powerEvent_memOk, withoutRail_memOk, State.memOk]

/-! ## Select and special registers -/

theorem insertWord_memOk {sh d sa n} (h : s.memOk) : (insertWord sh d sa n s).memOk :=
  issue_memOk (fun _ h1 => State.setR_memOk h1) h

theorem readClock_memOk (h : s.memOk) : (readClock s).2.memOk := h
theorem readEclipse_memOk (h : s.memOk) : (readEclipse s).2.memOk := h

theorem readSpecial_memOk {d x} (h : s.memOk) : (readSpecial d x s).memOk := by
  grind [readSpecial, State.setR_memOk, readClock_memOk, readEclipse_memOk]

/-! ## Every instruction and event -/

/-- Every word and event, by the operation that carries its meaning. -/
theorem exec_memOk {i} (h : s.memOk) : outOk (exec i s) := by
  cases i
  case nop => exact outOk_next (noEffect_memOk h)
  case sadd | ssub | smul | smulhI64 | smulhN64 | sand | sor | sxor | sandn | sshl | sshrN64 | sshrI64 | sminI64 | sminN64 |
      smaxI64 | smaxN64 | seq | sne | sltI64 | sleI64 | sltN64 | sleN64 => exact outOk_next (scalar2_memOk h)
  case sdivI64 | sdivN64 | sremI64 | sremN64 => exact outOk_next (scalarDiv_memOk h)
  case spopc | sclz | sctz | saddi | sandi | sori | sxori | sshli | sshriN64 | sshriI64 | smuli
      => exact outOk_next (scalar1_memOk h)
  case sli | sliu | sinsH0 | sinsH1 | sinsH2 | sinsH3 | vget | pget | ppopc | pffs => exact outOk_next (scalarWord_memOk h)
  case psets | pand | por | pxor | pandn | pnot | pfill => exact outOk_next (predWord_memOk h)
  case sldB64 | sldN32 | sldI32 | sldNf | sstB64 | sstB32 | sstNf | ldB32 | ldNf | stB32 | stNf | pldB32 | pldNf | pstB32 |
      pstNf | pldB64 | pstB64 | ldtrB8 | ldtrB16 | ldtrB32 | atomAdd | redAdd | atomAnd | redAnd | atomOr | redOr | atomXor |
      redXor | atomMinI | redMinI | atomMaxI | redMaxI | atomMinN | redMinN | atomMaxN | redMaxN | atomExch | redExch | atomCas
      | atomInc | redInc | atomDec | redDec | atomFadd | redFadd | atomFmax | redFmax | atomFmin | redFmin | patomAdd | predAdd
      | patomAnd | predAnd | patomOr | predOr | patomXor | predXor | patomMinI | predMinI | patomMaxI | predMaxI | patomMinN |
      predMinN | patomMaxN | predMaxN | patomExch | predExch | patomCas | patomInc | predInc | patomDec | predDec | patomFadd |
      predFadd | patomFmax | predFmax | patomFmin | predFmin => exact outOk_next (memWord_memOk h)
  case br | ret => exact outOk_next (issue_memOk (fun _ h => takeBranch_memOk h) h)
  case call | callr => exact outOk_next (issue_memOk (fun _ h => takeBranch_memOk (linkReturn_memOk h)) h)
  case bany | ball | bnone | bnall | bz => exact outOk_next (issue_memOk (fun _ h => ite_memOk (takeBranch_memOk h) h) h)
  case bnz => exact outOk_next (issue_memOk (fun _ h => ite_memOk h (takeBranch_memOk h)) h)
  case split => exact outOk_next (issue_memOk (fun _ h => splitArm_memOk h) h)
  case elseArm => exact outOk_next (issue_memOk (fun _ h => elseArm_memOk h) h)
  case join => exact outOk_next (issue_memOk (fun _ h => joinArms_memOk h) h)
  case mand | mandn | dsdepth | mfsv | mtsv => exact outOk_next (issue_memOk (fun _ h => State.setR_memOk h) h)
  case dspop => exact outOk_next (issue_memOk (fun _ h => popEntry_memOk h) h)
  case dspush => exact outOk_next (issue_memOk (fun _ h => pushEntry_memOk h) h)
  case dbnz => exact outOk_next (issue_memOk (fun _ h => countDown_memOk h) h)
  case vaddI32 | vsubI32 | vmulI32 | vmulhI32 | vmulhN32 | vandB32 | vorB32 | vxorB32 | vandnB32 | vshlB32 | vshrN32 | vshrI32
      | vminI32 | vmaxI32 | vminN32 | vmaxN32 | vaddsI32 | vaddsN32 | vsubsI32 | vsubsN32 | vabsI32 | vnegI32 | vpopcB32 |
      vclzB32 | vbrevB32 | vmadI32 | vabsdN32 | vabsdI32 | vavgN32 | vrotB32 | vdot4I8 | vdot4N8 | vaddB16 | vsubB16 | vaddsI16
      | vaddsN16 | vaddB8 | vsubB8 | vaddsI8 | vaddsN8 | vminI16 | vmaxI16 | vminN8 | vmaxN8 | vpermB8 | vshlB16 | vshrN16 |
      vshrI16 | vaddF32 | vsubF32 | vmulF32 | vfmaF32 | vfmsF32 | vminF32 | vmaxF32 | vabsF32 | vnegF32 | vdivF32 | vsqrtF32 |
      vfloorF32 | vceilF32 | vtruncF32 | vrintF32 | vscaleF32 | vmaxabsF32 | vcopysignF32 | vclassF32 | vexpoF32 | vminnanF32 |
      vmaxnanF32 | vaddBf16 | vmulBf16 | vfmaBf16 | vminBf16 | vmaxBf16 | vdot2F32Bf16 | vsubBf16 | vaddF16 | vmulF16 | vfmaF16
      | vminF16 | vmaxF16 | vdot2F32F16 | vsubF16 | vcvtF32I32 | vcvtF32N32 | vcvtI32F32 | vcvtN32F32 | vcvtBf16F32 |
      vcvtF16F32 | vcvtF32Bf16 | vcvtF32F16 | vcvtNfF32 | vcvtF32Nf | vcvtE4m3F32 | vcvtE5m2F32 | vcvtF32E4m3 | vcvtF32E5m2 |
      vcvthiBf16F32 | vcvthiF16F32 | vmov | vli | vbcast | vbcasth | vpmask | vsel => exact outOk_next (blockWord_memOk h)
  case vexp2ApxF32 | vlog2ApxF32 | vrcpApxF32 | vrsqrtApxF32 | vshflIdx | vshflUp | vshflDown | vshflXor | vballot | vmatchB32
      | vredAddI32 | vredMaxI32 | vredMinI32 | vscanAddI32 | vscanxAddI32 | vscanAddF32 => exact outOk_next (laneWord_memOk h)
  case vcmpEqB32 | vcmpNeB32 | vcmpLtI32 | vcmpLeI32 | vcmpLtN32 | vcmpLeN32 | vcmpEqF32 | vcmpNeF32 | vcmpLtF32 | vcmpLeF32 |
      vcmpUnF32 | vtestB32 => exact outOk_next (compareWord_memOk h)
  case vvoteAll | vvoteAny => exact outOk_next (lanePredWord_memOk h)
  case vredAddF32 | vredMaxF32 => exact outOk_next (reduceWord_memOk h)
  case vins => exact outOk_next (insertWord_memOk h)
  case barInit => exact outOk_next (issue_memOk (fun _ h => barInit_memOk h) h)
  case barArrive | barArrivet => exact outOk_next (issue_memOk (fun _ h => barArrive_memOk h) h)
  case barExpect => exact outOk_next (issue_memOk (fun _ h => barExpect_memOk h) h)
  case barWait => exact outOk_next (issue_memOk (fun _ h => barWait_memOk h) h)
  case barTest => exact outOk_next (issue_memOk (fun _ h => barTest_memOk h) h)
  case barDrop => exact outOk_next (issue_memOk (fun _ h => barDrop_memOk h) h)
  case qpush | qtrypush => exact outOk_next (issue_memOk (fun _ h => ringPushWord_memOk h) h)
  case qpop | qtrypop => exact outOk_next (issue_memOk (fun _ h => ringPopWord_memOk h) h)
  case ownGive => exact outOk_next (issue_memOk (fun _ h => ownGive_memOk h) h)
  case ownTake => exact outOk_next (issue_memOk (fun _ h => ownTake_memOk h) h)
  case ownTest => exact outOk_next (issue_memOk (fun _ h => ownTest_memOk h) h)
  case mwatch => exact outOk_next (issue_memOk (fun _ h => monitorWatch_memOk h) h)
  case mwait => exact outOk_next (issue_memOk (fun _ h => monitorWait_memOk h) h)
  case sleep => exact outOk_next (issue_memOk (fun _ h => sleepWord_memOk h) h)
  case mclear => exact outOk_next (issue_memOk (fun _ h => openWindow_memOk (State.setG_memOk h)) h)
  case mwaitTimeout => exact outOk_next (atGang_memOk (fun _ h => endTimedWait_memOk h) h)
  case sleepEnd => exact outOk_next (atGang_memOk (fun _ h => endSleep_memOk h) h)
  case mfs => exact outOk_next (issue_memOk (fun _ h => readSpecial_memOk h) h)
  case mts => exact outOk_next (issue_memOk (fun _ h => State.setG_memOk h) h)
  case tret => exact outOk_next (issue_memOk (fun _ h => returnWord_memOk h) h)
  case brk => exact outOk_next (issue_memOk (fun _ h => breakWord_memOk h) h)
  case tlane => exact outOk_next (issue_memOk (fun _ h => selectLane_memOk h) h)
  case tdone => exact outOk_next (issue_memOk (fun _ h => saveDone_memOk h) h)
  case exit => exact outOk_next (issue_memOk (fun _ h => exitWord_memOk h) h)
  case cpLd | cpSt | cpLdq | cpFifo | cpMc
      => exact outOk_next (issue_memOk (fun _ h => engineWord_memOk (fun _ _ _ h => acceptCopy_memOk h) h) h)
  case cpGrant => exact outOk_next (issue_memOk (fun _ h => engineWord_memOk (fun _ _ _ h => acceptGrant_memOk h) h) h)
  case cpSlots => exact outOk_next (issue_memOk (fun _ h => engineWord_memOk (fun _ _ _ h => acceptSlots_memOk h) h) h)
  case cpCount => exact outOk_next (issue_memOk (fun _ h => engineWord_memOk (fun _ _ _ h => acceptCount_memOk h) h) h)
  case xpRun => exact outOk_next (issue_memOk (fun _ h => engineWord_memOk (fun _ _ _ h => acceptRun_memOk h) h) h)
  case sectorLanded => exact outOk_next (landSector_memOk h)
  case copyCommandComplete => exact outOk_next (completeCmd_memOk h)
  case copyFaultReport => exact outOk_next (reportCmd_memOk h)
  case mtask | mdrain => exact outOk_next (issue_memOk (fun _ h => engineWord_memOk (fun _ _ _ h => acceptTask_memOk h) h) h)
  case mstat => exact outOk_next (issue_memOk (fun _ h => engineWord_memOk (fun _ _ _ h => acceptStat_memOk h) h) h)
  case taskStart => exact outOk_next (taskStep_memOk h)
  case kgroupCompute => exact outOk_next (computeStep_memOk h)
  case taskComplete => exact outOk_next (completeTask_memOk h)
  case arrivalApply => exact outOk_next (applyArrival_memOk h)
  case peerAcknowledge => exact outOk_next (acknowledgePeer_memOk h)
  case matrixFaultReport => exact outOk_next (reportTask_memOk h)
  case ldAcqB32 => exact outOk_next (issue_memOk (fun _ h => acquireLoad_memOk h) h)
  case stRelB32 => exact outOk_next (issue_memOk (fun _ h => releaseStore_memOk h) h)
  case fence => exact outOk_next (issue_memOk (fun _ h => fenceBoth_memOk h) h)
  case fenceRel => exact outOk_next (issue_memOk (fun _ h => fenceRelease_memOk h) h)
  case fenceAcq => exact outOk_next (issue_memOk (fun _ h => fenceAcquire_memOk h) h)
  case cwbRange | cinvRange | icinvRange => exact outOk_next (issue_memOk (fun _ h => rangeWord_memOk h) h)
  case twinStat => exact outOk_next (issue_memOk (fun _ h => twinStat_memOk h) h)
  case mcas => exact outOk_next (issue_memOk (fun _ h => mcasWord_memOk h) h)
  case tlbinv => exact outOk_next (issue_memOk (fun _ h => tlbInvalidate_memOk h) h)
  case lockGrant => exact outOk_next (grantLock_memOk h)
  case earlyPublication => exact outOk_next (publishEarly_memOk h)
  case evictionPublication => exact outOk_next (evictLine_memOk h)
  case recordApply => exact outOk_next (recordArrives_memOk h)
  case releaseComplete => exact outOk_next (finishPending_memOk h)
  case forwardedCopyApply => exact outOk_next (applyForwarded_memOk h)
  case fillArrival => exact outOk_next (fillArrives_memOk h)
  case writeBackApply => exact outOk_next (applyWriteBack_memOk h)
  case accessComplete => exact outOk_next (atGang_memOk (fun _ h => completeAccess_memOk h) h)
  case takeTrap => exact outOk_next (atGang_memOk (fun _ h => takeDue_memOk h) h)
  case watchdog => exact outOk_next (atGang_memOk (fun _ h => reachLimit_memOk h) h)
  case uncorrectableError => exact outOk_next (atGang_memOk (fun _ h => hardError_memOk h) h)
  case swmAlloc
      => exact outOk_next (issue_memOk (fun _ h => engineWord_memOk (fun _ _ _ h => swmTurn_memOk (fun _ _ _ h => acceptAlloc_memOk h) h) h) h)
  case swmMap
      => exact outOk_next (issue_memOk (fun _ h => engineWord_memOk (fun _ _ _ h => swmTurn_memOk (fun _ _ _ h => acceptMap_memOk h) h) h) h)
  case swmUnmap | swmFree
      => exact outOk_next (issue_memOk (fun _ h => engineWord_memOk (fun _ _ _ h => swmTurn_memOk (fun _ _ _ h => acceptUnmap_memOk h) h) h) h)
  case fmc => exact outOk_next (issue_memOk (fun _ h => engineWord_memOk (fun _ _ _ h => acceptMulticast_memOk h) h) h)
  case fred => exact outOk_next (issue_memOk (fun _ h => engineWord_memOk (fun _ _ _ h => acceptReduce_memOk h) h) h)
  case fsig => exact outOk_next (issue_memOk (fun _ h => engineWord_memOk (fun _ _ _ h => acceptSignal_memOk h) h) h)
  case fstat => exact outOk_next (issue_memOk (fun _ h => engineWord_memOk (fun _ _ _ h => acceptFabricStat_memOk h) h) h)
  case wcAgeDrain => exact outOk_next (drainAged_memOk h)
  case writePacketApply => exact outOk_next (applyPacket_memOk h)
  case acknowledgeReceive => exact outOk_next (receiveAck_memOk h)
  case remoteFaultReport => exact outOk_next (packetFails_memOk h)
  case retransmit => exact outOk_next (retransmit_memOk h)
  case recoveryDiscard => exact outOk_next (discardPacket_memOk h)
  case keyRollover | drainedFlit | flitAuthenticationFailure => exact outOk_next (setLink_memOk h)
  case linkDown => exact outOk_next (linkFails_memOk h)
  case switchLost => exact outOk_next (loseSwitch_memOk h)
  case switchReplaced => exact outOk_next (replaceSwitch_memOk h)
  case multicastDelivery => exact outOk_next (deliverBranch_memOk h)
  case reductionContribution => exact outOk_next (takeContribution_memOk h)
  case residueSend => exact outOk_next (sendResidue_memOk h)
  case groupInstall => exact outOk_next (installGroup_memOk h)
  case groupReinstall => exact outOk_next (reinstallGroup_memOk h)
  case switchTableWrite => exact outOk_next (writeSwitch_memOk h)
  case quotaSet => exact outOk_next (setQuota_memOk h)
  case linkStateUpdate => exact outOk_next (linkState_memOk h)
  case ndLaunch => exact outOk_next (issue_memOk (fun _ h => engineWord_memOk (fun _ _ _ h => acceptLaunch_memOk h) h) h)
  case ndSignal => exact outOk_next (issue_memOk (fun _ h => engineWord_memOk (fun _ _ _ h => acceptNodeSignal_memOk h) h) h)
  case ndStat => exact outOk_next (issue_memOk (fun _ h => engineWord_memOk (fun _ _ _ h => acceptNodeStat_memOk h) h) h)
  case hostDoorbell => exact outOk_next (hostDoorbell_memOk h)
  case nodeAdmit => exact outOk_next (nodeAdmit_memOk h)
  case predecessorSignal => exact outOk_next (predecessorSignal_memOk h)
  case ensemblePlace => exact outOk_next (placeEnsemble_memOk h)
  case ensembleRestore => exact outOk_next (restoreAt_memOk h)
  case nodeComplete => exact outOk_next (nodeComplete_memOk h)
  case sqBind => exact outOk_next (issue_memOk (fun _ h => engineWord_memOk (fun _ _ _ h => acceptBind_memOk h) h) h)
  case sqUnbind => exact outOk_next (issue_memOk (fun _ h => engineWord_memOk (fun _ _ _ h => acceptUnbind_memOk h) h) h)
  case sqQuery => exact outOk_next (issue_memOk (fun _ h => engineWord_memOk (fun _ _ _ h => acceptQuery_memOk h) h) h)
  case sqImg => exact outOk_next (issue_memOk (fun _ h => engineWord_memOk (fun _ _ _ h => acceptImage_memOk h) h) h)
  case dwx => exact outOk_next (issue_memOk (fun _ h => sequenceWord_memOk h) h)
  case eclipseWindowStart => exact outOk_next (windowOpens_memOk h)
  case eclipseWindowEnd => exact outOk_next (windowCloses_memOk h)
  case tenantRecordWrite => exact outOk_next (recordWrite_memOk h)
  case writeRefusedClear => exact outOk_next (clearRefused_memOk h)
  case tenantReset => exact outOk_next (resetTenant_memOk h)
  case warmReset => exact outOk_next (warmReset_memOk h)
  case coldReset => exact outOk_next (coldReset_memOk h)
  case powerOnReset => exact outOk_next (powerOn_memOk h)
  case eventOverflowClear | eventQueueHeadWrite => exact outOk_next (writeReg_memOk h)
  case registerWrite => exact outOk_next (hostWrite_memOk h)
  case hostMemLoad => exact outOk_next (hostLoad_memOk h)
  case hostMemStore => exact outOk_next (hostStore_memOk h)
  case sidebandResetRequest => exact outOk_next (sideBandReset_memOk h)
  case firmwareUpdate => exact outOk_next (loadFirmware_memOk h)
  case spdmRequest => exact outOk_next (spdmAnswer_memOk h)
  case powerCapSet => exact outOk_next (setCap_memOk h)
  case clockThrottle => exact outOk_next (lowerClock_memOk h)
  case clockRaise => exact outOk_next (raiseClock_memOk h)
  case thermalTrip => exact outOk_next (thermalTrip_memOk h)
  case spuriousWake => exact outOk_next (atGang_memOk (fun _ h => wakeOther_memOk h) h)
  case saveLimitPassed => exact outOk_next (saveLimitPassed_memOk h)
  case remoteLoadOrAtomicServe => exact outOk_next (servePeer_memOk h)
  case voluntaryWriteBack => exact outOk_next (voluntaryWriteBack_memOk h)
  case capUnreachableEnd => exact outOk_next (capReachable_memOk h)
  case uncorrectableErrorOutsideGang => exact outOk_next (outsideError_memOk h)

/-! ## Fetch, groups, turns (03 R68-R83; 06 R171-R181) -/

theorem readSectors_memOk {e a n} (h : s.memOk) : (readSectors e a n s).memOk := by
  fun_induction readSectors e a n s <;> grind [Done.next_memOk, readAt_memOk, Done.memOk]

theorem fetchLine_memOk {va n} (h : s.memOk) : (fetchLine va n s).memOk := by
  grind [fetchLine, Done.next_memOk, State.setCore_memOk, readSectors_memOk, translate_memOk, Done.memOk]

theorem fetchPacket_memOk {n} (h : s.memOk) : (fetchPacket n s).memOk := by
  grind [fetchPacket, Done.next_memOk, State.setG_memOk, fetchLine_memOk, Fetched.memOk, Done.memOk]

theorem fetchFault_memOk {w p} (h : s.memOk) : (fetchFault w p s).memOk := takeTrap_memOk h
theorem tidyWindows_memOk (h : s.memOk) : (tidyWindows s).memOk := State.setG_memOk h
theorem reachJoins_memOk {n G} (h : s.memOk) : (reachJoins n G s).memOk := State.setG_memOk h

theorem tickWindows_memOk {old new : State} (h : new.memOk) : (tickWindows old new).memOk := by
  unfold tickWindows
  split
  · exact h
  · exact State.setG_memOk h

theorem runWord_memOk {x} (h : s.memOk) : outOk (runWord x s) := by
  unfold runWord
  split
  · exact exec_memOk (State.setG_memOk h)
  · exact outOk_next h

theorem issueWords_memOk {uid l} (h : s.memOk) : outOk (issueWords uid l s).1 := by
  fun_induction issueWords uid l s <;> grind [runWord_memOk, tickWindows_memOk, outOk]

theorem endGroup_memOk {x p} {s0 : State} (h : s.memOk) : (endGroup x p s0 s).memOk := by
  unfold endGroup
  split
  · exact h
  · exact State.setG_memOk h

theorem standAlone_memOk {y p} (h : s.memOk) : (standAlone y p s).memOk := State.setG_memOk h

theorem runGroup_memOk {x r} (h : s.memOk) : outOk (runGroup x r s) := by
  grind [runGroup, State.setG_memOk, endGroup_memOk, issueWords_memOk, runWord_memOk, stall_memOk, standAlone_memOk, outOk]

theorem beginTurn_memOk {uid inFlight} (h : s.memOk) : (beginTurn uid inFlight s).memOk :=
  tidyWindows_memOk (State.setG_memOk (State.focus_memOk h))

theorem dueTrap_memOk {trap : Option State} (htrap : optOk trap) (h : s.memOk) : optOk (dueTrap trap s) := by
  unfold dueTrap
  split
  · exact optOk_none
  · exact optOk_or (firstDue_memOk h) (optOk_or htrap (lastDue_memOk h))

theorem breakTrap_memOk {G} (h : s.memOk) : optOk (breakTrap G s) := optOk_mapFrom fun _ => takeTrap_memOk h

theorem issueTrapOf_memOk {G} (h : s.memOk) : optOk (issueTrapOf G s) :=
  optOk_or (optOk_mapFrom fun _ => takeTrap_memOk h) (breakTrap_memOk h)

theorem groupTurn_memOk {G} (h : s.memOk) : outOk (groupTurn G s) := by
  unfold groupTurn
  grind [dueTrap_memOk, issueTrapOf_memOk, reachJoins_memOk, runGroup_memOk, stall_memOk, outOk, optOk]

theorem fetchTrap_memOk {w} (h : s.memOk) : (fetchTrap w s).memOk := by
  unfold fetchTrap
  dsimp only
  split
  · exact fetchFault_memOk (reachJoins_memOk h)
  · exact getD_memOk (optOk_or (firstDue_memOk (reachJoins_memOk h)) (optOk_some (fetchFault_memOk (reachJoins_memOk h))))
      (reachJoins_memOk h)

theorem issueTurn_memOk (h : s.memOk) : outOk (issueTurn s) := by
  grind [issueTurn, fetchPacket_memOk, fetchTrap_memOk, groupTurn_memOk, stall_memOk, outOk, Fetched.memOk]

theorem waitTurn_memOk (h : s.memOk) : (waitTurn s).memOk := getD_memOk (optOk_or (firstDue_memOk h) (lastDue_memOk h)) h

theorem sleepTurn_memOk (h : s.memOk) : (sleepTurn s).memOk := by
  unfold sleepTurn
  split
  · exact State.setG_memOk h
  · exact h

theorem State.serve_memOk {uid} (h : s.memOk) : (s.serve uid).2.memOk := by
  unfold State.serve
  split
  · exact h
  split
  · exact State.setCore_memOk h
  · exact h

theorem servedTurn_memOk {uid inFlight} (h : s.memOk) : outOk (servedTurn uid inFlight s) := by
  unfold servedTurn
  dsimp only
  split
  · exact outOk_next h
  split
  · exact outOk_next h
  split
  · exact issueTurn_memOk (beginTurn_memOk h)
  · exact issueTurn_memOk (beginTurn_memOk h)
  · exact issueTurn_memOk (beginTurn_memOk h)
  · split
    · exact issueTurn_memOk (beginTurn_memOk h)
    · exact outOk_next (waitTurn_memOk (beginTurn_memOk h))
  · exact outOk_next (sleepTurn_memOk (beginTurn_memOk h))
  · exact outOk_next (waitTurn_memOk (beginTurn_memOk h))
  · exact outOk_next (waitTurn_memOk (beginTurn_memOk h))

theorem gangTurn_memOk {uid inFlight} (h : s.memOk) : outOk (gangTurn uid inFlight s) := servedTurn_memOk (State.serve_memOk h)

theorem doTurn_memOk {t} (h : s.memOk) : outOk (doTurn t s) := by
  unfold doTurn
  split
  · exact gangTurn_memOk h
  · split
    · exact outOk_next h
    · exact exec_memOk h
  · exact outOk_next h
  · exact outOk_next (dropL1_memOk h)

theorem nextTurn_memOk (h : s.memOk) : (nextTurn s).2.memOk := by
  unfold nextTurn
  split <;> exact h

end

theorem step_memOk {s t : State} (h : s.memOk) (hs : step s = .next t) : t.memOk := by
  have key : outOk (step s) := by
    unfold step
    split
    · split
      · exact outOk_fault
      · exact doTurn_memOk h
    · exact doTurn_memOk (nextTurn_memOk h)
  rw [hs] at key
  exact outOk_next_iff.mp key

/-- Settles O59: by `step_memOk`, every turn being made of operations that keep the form. -/
theorem memoryCanonical : Obligations.MemoryCanonical := by
  unfold Obligations.MemoryCanonical
  exact fun _ _ h hs => step_memOk h hs

end Sys2Proof.Machine
end

section
/-! Decoding the encoding of a well-formed word (03 R71). That it gives the word back is proved constructor by constructor
(`RoundTrip.Statement`); here these are put together, and the chain bit is set beside them: it stands above every field that the decoder
reads, and no encoding reaches it. -/

namespace Sys2Proof.Laws

/-! ## The decoder does not see the chain bit -/

/-- Words that agree below the chain bit have the same fields there (03 R67). -/
theorem fld_congr {v w lo len : Nat} (h : v % 2 ^ 31 = w % 2 ^ 31) (hl : lo + len ≤ 31) : fld v lo len = fld w lo len := by
  have low (x : Nat) : fld x lo len = x % 2 ^ 31 / 2 ^ lo % 2 ^ len := by
    rw [fld, show 31 = lo + (31 - lo) by omega, pow_add, Nat.mod_mul_right_div_self, Nat.mod_mod_of_dvd _ (pow_dvd_pow 2 (by omega))]
  rw [low, low, h]

theorem bv_congr {v w lo len : Nat} (h : v % 2 ^ 31 = w % 2 ^ 31) (hl : lo + len ≤ 31) : bv v lo len = bv w lo len := by
  apply BitVec.eq_of_toNat_eq
  rw [bv, bv, BitVec.toNat_ofNat, BitVec.toNat_ofNat]
  exact fld_congr h hl

/-- Every decoder reads its word through `fld` and `bv` alone. The major 0 is left out: it tells the zero word from the others. -/
theorem decodeNat_congr {v w : Nat} (h : v % 2 ^ 31 = w % 2 ^ 31) (hw : fld w 25 6 ≠ 0) : decodeNat v = decodeNat w := by
  have hf (lo len : Nat) (hl : lo + len ≤ 31) := fld_congr h hl
  have hb (lo len : Nat) (hl : lo + len ≤ 31) := bv_congr h hl
  unfold decodeNat
  rw [hf 25 6 (by decide)]
  split
  case h_1 h0 => exact absurd h0 hw
  all_goals simp (disch := decide) only [hf, hb, dec01, dec02, dec03, dec04, dec05, dec06, dec07, dec08, dec08m, dec09, dec0A, dec0B,
    dec0C, dec0D, dec0E, dec0F, dec10, dec11, dec12, dec13, dec14, dec15, dec16, dec17, dec18, dec19, dec1A, dec1B, dec1C, dec1D,
    dec1E, dec1F, dec20, dec21, dec22, dec24, dec28, dec29, dec2A, dec2B, dec2C, dec2D, dec2E, dec30, dec32]

theorem major_ne_zero_of_decodeNat {w : Nat} {i : Instr} (h : decodeNat w = .ok i) : fld w 25 6 ≠ 0 := by
  intro h0
  simp only [decodeNat, h0] at h
  split at h <;> cases h

/-- A word that decodes keeps its meaning when its chain bit is set. -/
theorem decodeNat_add_chain {w : Nat} {i : Instr} (h : decodeNat w = .ok i) : decodeNat (w + 2 ^ 31) = .ok i := by
  rw [decodeNat_congr (Nat.add_mod_right w _) (major_ne_zero_of_decodeNat h), h]

/-! ## No encoding reaches the chain bit -/

section
variable {m w1 w2 w3 w4 w5 k1 k2 k3 k4 k5 n : Nat} (x1 : BitVec w1) (x2 : BitVec w2) (x3 : BitVec w3) (x4 : BitVec w4) (x5 : BitVec w5)

/-- A field of w bits put at bit k adds less than the bit above it. -/
theorem field_lt {w : Nat} (x : BitVec w) (k : Nat) : x.toNat * 2 ^ k < 2 ^ (w + k) := by
  rw [pow_add]; exact Nat.mul_lt_mul_of_pos_right x.isLt (Nat.two_pow_pos k)

theorem put1_lt (h : m + 2 ^ (w1 + k1) ≤ n) : put1 m x1 k1 < n := by
  have := field_lt x1 k1
  unfold put1; omega

theorem put2_lt (h : m + 2 ^ (w1 + k1) + 2 ^ (w2 + k2) ≤ n) : put2 m x1 k1 x2 k2 < n := by
  have := put1_lt x1 (Nat.le_refl (m + 2 ^ (w1 + k1)))
  exact put1_lt (m := put1 m x1 k1) x2 (by omega)

theorem put3_lt (h : m + 2 ^ (w1 + k1) + 2 ^ (w2 + k2) + 2 ^ (w3 + k3) ≤ n) : put3 m x1 k1 x2 k2 x3 k3 < n := by
  have := put2_lt x1 x2 (Nat.le_refl (m + 2 ^ (w1 + k1) + 2 ^ (w2 + k2)))
  exact put1_lt (m := put2 m x1 k1 x2 k2) x3 (by omega)

theorem put4_lt (h : m + 2 ^ (w1 + k1) + 2 ^ (w2 + k2) + 2 ^ (w3 + k3) + 2 ^ (w4 + k4) ≤ n) : put4 m x1 k1 x2 k2 x3 k3 x4 k4 < n := by
  have := put3_lt x1 x2 x3 (Nat.le_refl (m + 2 ^ (w1 + k1) + 2 ^ (w2 + k2) + 2 ^ (w3 + k3)))
  exact put1_lt (m := put3 m x1 k1 x2 k2 x3 k3) x4 (by omega)

theorem put5_lt (h : m + 2 ^ (w1 + k1) + 2 ^ (w2 + k2) + 2 ^ (w3 + k3) + 2 ^ (w4 + k4) + 2 ^ (w5 + k5) ≤ n) :
    put5 m x1 k1 x2 k2 x3 k3 x4 k4 x5 k5 < n := by
  have := put4_lt x1 x2 x3 x4 (Nat.le_refl (m + 2 ^ (w1 + k1) + 2 ^ (w2 + k2) + 2 ^ (w3 + k3) + 2 ^ (w4 + k4)))
  exact put1_lt (m := put4 m x1 k1 x2 k2 x3 k3 x4 k4) x5 (by omega)
end

/-- The pattern of every row and the bits above its fields together stay below bit 31. -/
theorem encodeNat_lt (i : Instr) : encodeNat i < 2 ^ 31 := by
  unfold encodeNat
  cases i <;> simp only [put1_lt, put2_lt, put3_lt, put4_lt, put5_lt, Nat.reducePow, Nat.reduceAdd, Nat.reduceLeDiff, Nat.reduceLT]

theorem chainBit_of_lt {w : Nat} (h : w < 2 ^ 31) : chainBit w = false := by
  rw [chainBit, Nat.div_eq_of_lt h]; rfl

theorem chainBit_add_chain {w : Nat} (h : w < 2 ^ 31) : chainBit (w + 2 ^ 31) = true := by
  rw [chainBit, Nat.add_div_right _ (Nat.two_pow_pos 31), Nat.div_eq_of_lt h]; rfl

theorem encode_toNat (i : Instr) : (encode i).toNat = encodeNat i :=
  Nat.mod_eq_of_lt ((encodeNat_lt i).trans (by decide))

/-! ## Every constructor -/

namespace RoundTrip

/-- The laws of the constructors together, in the order of `Instr`. -/
theorem statement (i : Instr) : Statement i :=
  Instr.casesOn i
    sldB64 sldN32 sldI32 sldNf sstB64 sstB32 sstNf ldB32 ldNf stB32 stNf pldB32 pldNf pstB32 pstNf pldB64 pstB64 ldtrB8 ldtrB16 ldtrB32
    atomAdd redAdd atomAnd redAnd atomOr redOr atomXor redXor atomMinI redMinI atomMaxI redMaxI atomMinN redMinN atomMaxN redMaxN atomExch
    redExch atomCas atomInc redInc atomDec redDec atomFadd redFadd atomFmax redFmax atomFmin redFmin patomAdd predAdd patomAnd predAnd
    patomOr predOr patomXor predXor patomMinI predMinI patomMaxI predMaxI patomMinN predMinN patomMaxN predMaxN patomExch predExch
    patomCas patomInc predInc patomDec predDec patomFadd predFadd patomFmax predFmax patomFmin predFmin barInit barArrive barArrivet
    barExpect barWait barTest barDrop qpush qpop qtrypush qtrypop ownGive ownTake ownTest mwatch mwait sleep mclear mfs mts mfsv mtsv tret
    brk tlane tdone exit cpLd cpSt cpLdq cpFifo cpMc cpGrant cpSlots cpCount xpRun mtask mdrain mstat ldAcqB32 stRelB32 fence fenceRel
    fenceAcq cwbRange cinvRange icinvRange twinStat mcas tlbinv swmAlloc swmMap swmUnmap swmFree fmc fred fsig fstat ndLaunch ndSignal
    ndStat sqBind sqUnbind sqQuery sqImg dwx mwaitTimeout sleepEnd sectorLanded copyCommandComplete copyFaultReport taskStart
    kgroupCompute taskComplete arrivalApply peerAcknowledge matrixFaultReport lockGrant earlyPublication evictionPublication recordApply
    releaseComplete forwardedCopyApply fillArrival writeBackApply accessComplete takeTrap watchdog uncorrectableError wcAgeDrain
    writePacketApply acknowledgeReceive remoteFaultReport retransmit recoveryDiscard keyRollover drainedFlit linkDown switchLost
    switchReplaced multicastDelivery reductionContribution residueSend groupInstall groupReinstall switchTableWrite quotaSet
    linkStateUpdate hostDoorbell nodeAdmit predecessorSignal ensemblePlace ensembleRestore nodeComplete eclipseWindowStart
    eclipseWindowEnd tenantRecordWrite writeRefusedClear tenantReset warmReset coldReset powerOnReset eventOverflowClear
    eventQueueHeadWrite registerWrite hostMemLoad hostMemStore sidebandResetRequest firmwareUpdate spdmRequest powerCapSet clockThrottle
    clockRaise thermalTrip spuriousWake saveLimitPassed remoteLoadOrAtomicServe flitAuthenticationFailure voluntaryWriteBack
    capUnreachableEnd uncorrectableErrorOutsideGang nop sadd ssub smul smulhI64 smulhN64 sdivI64 sdivN64 sremI64 sremN64 sand sor sxor
    sandn sshl sshrN64 sshrI64 sminI64 sminN64 smaxI64 smaxN64 spopc sclz sctz saddi sandi sori sxori sshli sshriN64 sshriI64 smuli sli
    sliu sinsH0 sinsH1 sinsH2 sinsH3 vget pget psets seq sne sltI64 sleI64 sltN64 sleN64 pand por pxor pandn pnot ppopc pffs pfill br call
    ret callr bany ball bnone bnall split elseArm join mand mandn dspop dspush dsdepth dbnz bz bnz vaddI32 vsubI32 vmulI32 vmulhI32
    vmulhN32 vandB32 vorB32 vxorB32 vandnB32 vshlB32 vshrN32 vshrI32 vminI32 vmaxI32 vminN32 vmaxN32 vaddsI32 vaddsN32 vsubsI32 vsubsN32
    vabsI32 vnegI32 vpopcB32 vclzB32 vbrevB32 vmadI32 vabsdN32 vabsdI32 vavgN32 vrotB32 vdot4I8 vdot4N8 vaddB16 vsubB16 vaddsI16 vaddsN16
    vaddB8 vsubB8 vaddsI8 vaddsN8 vminI16 vmaxI16 vminN8 vmaxN8 vpermB8 vshlB16 vshrN16 vshrI16 vaddF32 vsubF32 vmulF32 vfmaF32 vfmsF32
    vminF32 vmaxF32 vabsF32 vnegF32 vdivF32 vsqrtF32 vfloorF32 vceilF32 vtruncF32 vrintF32 vscaleF32 vmaxabsF32 vcopysignF32 vclassF32
    vexpoF32 vminnanF32 vmaxnanF32 vexp2ApxF32 vlog2ApxF32 vrcpApxF32 vrsqrtApxF32 vaddBf16 vmulBf16 vfmaBf16 vminBf16 vmaxBf16
    vdot2F32Bf16 vsubBf16 vaddF16 vmulF16 vfmaF16 vminF16 vmaxF16 vdot2F32F16 vsubF16 vcvtF32I32 vcvtF32N32 vcvtI32F32 vcvtN32F32
    vcvtBf16F32 vcvtF16F32 vcvtF32Bf16 vcvtF32F16 vcvtNfF32 vcvtF32Nf vcvtE4m3F32 vcvtE5m2F32 vcvtF32E4m3 vcvtF32E5m2 vcvthiBf16F32
    vcvthiF16F32 vcmpEqB32 vcmpNeB32 vcmpLtI32 vcmpLeI32 vcmpLtN32 vcmpLeN32 vcmpEqF32 vcmpNeF32 vcmpLtF32 vcmpLeF32 vcmpUnF32 vtestB32
    vshflIdx vshflUp vshflDown vshflXor vballot vvoteAll vvoteAny vmatchB32 vredAddI32 vredMaxI32 vredMinI32 vredAddF32 vredMaxF32
    vscanAddI32 vscanxAddI32 vscanAddF32 vmov vli vbcast vbcasth vpmask vins vsel

end RoundTrip

end Sys2Proof.Laws

namespace Sys2Proof.Machine
open Sys2Proof.Laws

/-- Settles O58: the constructors' laws (`RoundTrip.statement`), and the chain bit, which no encoding reaches (`encodeNat_lt`) and the
decoder does not see (`decodeNat_add_chain`). -/
theorem encodeDecode : Obligations.EncodeDecode := by
  unfold Obligations.EncodeDecode
  intro i hword hwf
  have hlt := encodeNat_lt i
  have hdec := RoundTrip.statement i hword hwf
  rw [encode_toNat, encodeWith, if_pos rfl]
  exact ⟨hdec, chainBit_of_lt hlt, decodeNat_add_chain hdec, chainBit_add_chain hlt, by omega⟩

end Sys2Proof.Machine
end

section
/-! The issue traps of a word (03 R74, R75; 06 R182, R184; 04 R126). Every word of the machine issues under its own shape, by whatever operand
form (`Issues`); what it raises there is `issueCode`, of which each case is said once. -/

namespace Sys2Proof.Machine

/-! ## Every word issues -/

/-- The word issues under its own shape: `exec` first tests what the shape says, and then has the effect of a body. -/
def Issues (i : Instr) (s : State) : Prop := ∃ body, exec i s = .next (issue (wordShapeOf i) body s (isFifoWord i))

theorem issues_of_scalarWord {i : Instr} {s : State} {d : Nat} {f : Regs → Dword} (h : exec i s = .next (scalarWord (wordShapeOf i) d f s))
    (hf : isFifoWord i = false) : Issues i s :=
  ⟨_, by rw [h, hf, scalarWord]⟩

theorem issues_of_lanePredWord {i : Instr} {s : State} {d : Nat} {f : Regs → Fin 32 → Bool}
    (h : exec i s = .next (lanePredWord (wordShapeOf i) d f s)) (hf : isFifoWord i = false) : Issues i s :=
  ⟨_, by rw [h, hf, lanePredWord]⟩

theorem issues_of_isWord (i : Instr) (s : State) (h : i.isWord = true) : Issues i s := by
  cases i with
  | mwaitTimeout | sleepEnd | sectorLanded | copyCommandComplete | copyFaultReport | taskStart | kgroupCompute | taskComplete
  | arrivalApply | peerAcknowledge | matrixFaultReport | lockGrant | earlyPublication | evictionPublication | recordApply
  | releaseComplete | forwardedCopyApply | fillArrival | writeBackApply | accessComplete | takeTrap | watchdog | uncorrectableError
  | wcAgeDrain | writePacketApply | acknowledgeReceive | remoteFaultReport | retransmit | recoveryDiscard | keyRollover | drainedFlit
  | linkDown | switchLost | switchReplaced | multicastDelivery | reductionContribution | residueSend | groupInstall | groupReinstall
  | switchTableWrite | quotaSet | linkStateUpdate | hostDoorbell | nodeAdmit | predecessorSignal | ensemblePlace | ensembleRestore
  | nodeComplete | eclipseWindowStart | eclipseWindowEnd | tenantRecordWrite | writeRefusedClear | tenantReset | warmReset | coldReset
  | powerOnReset | eventOverflowClear | eventQueueHeadWrite | registerWrite | hostMemLoad | hostMemStore | sidebandResetRequest
  | firmwareUpdate | spdmRequest | powerCapSet | clockThrottle | clockRaise | thermalTrip | spuriousWake | saveLimitPassed
  | remoteLoadOrAtomicServe | flitAuthenticationFailure | voluntaryWriteBack | capUnreachableEnd
  | uncorrectableErrorOutsideGang => exact absurd h Bool.false_ne_true
  | sadd | ssub | smul | smulhI64 | smulhN64 | sand | sor | sxor | sandn | sshl | sshrN64 | sshrI64 | sminI64 | sminN64 | smaxI64
  | smaxN64 | spopc | sclz | sctz | saddi | sandi | sori | sxori | sshli | sshriN64 | sshriI64 | smuli | seq | sne | sltI64 | sleI64
  | sltN64 | sleN64 => exact issues_of_scalarWord rfl rfl
  | vcmpEqB32 | vcmpNeB32 | vcmpLtI32 | vcmpLeI32 | vcmpLtN32 | vcmpLeN32 | vcmpEqF32 | vcmpNeF32 | vcmpLtF32 | vcmpLeF32 | vcmpUnF32
  | vtestB32 => exact issues_of_lanePredWord rfl rfl
  | _ => exact ⟨_, rfl⟩

/-! ## What the issue of a word raises -/

section
variable {s : State} {sh : Shape} {fifo : Bool} {c w : Nat} {p : Pc}

theorem issueCode_of_illegal (h : illegalCode s sh fifo = some c) : issueCode s sh fifo w p = some (5, c, wordDetail w p) := by
  rw [issueCode, h]

theorem issueCode_of_privilege (h : illegalCode s sh fifo = none) (hp : privilegeCode s sh = some c) :
    issueCode s sh fifo w p = some (6, c, wordDetail w p) := by
  rw [issueCode, h, hp]

theorem issueCode_of_conv {d : BitVec 96} (h : illegalCode s sh fifo = none) (hp : privilegeCode s sh = none) (hd : convTrap s sh = some d) :
    issueCode s sh fifo w p = some (2, 6, d) := by
  rw [issueCode, h, hp, hd]; rfl

theorem illegalCode_of_engineAbsent (h : engineAbsent sh.major fifo s.g.coreIx = true) : illegalCode s sh fifo = some 0x0F :=
  if_pos h

/-- A word of major 0x1F that names no vector register is legal for every role, on every core. -/
theorem illegalCode_of_system (hm : sh.major = 0x1F) (hb : sh.bad = none) (hr : rangeBad s sh = false) : illegalCode s sh false = none := by
  have ha : engineAbsent 0x1F false s.g.coreIx = false := by unfold engineAbsent; split <;> rfl
  have hrole : roleAllows s.g.role 0x1F = true := by cases s.g.role <;> rfl
  simp only [illegalCode, hm, ha, hb, hr, hrole, codeIf, lowest, Bool.not_true, Bool.and_false, Bool.false_eq_true, if_false]

theorem privilegeCode_of_handlerForbids (hh : s.g.handler.isSome = true) (h : handlerForbids sh.major = true) : privilegeCode s sh = some 2 := by
  obtain ⟨c, hc⟩ := Option.isSome_iff_exists.mp hh
  simp only [privilegeCode, hc, h, true_or, if_true]

theorem privilegeCode_of_normalOnly (hh : s.g.handler.isSome = true) (h : sh.mode = .normalOnly) : privilegeCode s sh = some 2 := by
  obtain ⟨c, hc⟩ := Option.isSome_iff_exists.mp hh
  simp only [privilegeCode, hc, h, true_or, or_true, if_true]

theorem privilegeCode_of_evictHandlerOnly (hh : s.g.handler.isSome = true) (he : s.g.handler ≠ some (causeOf 16 1))
    (h : sh.mode = .evictHandlerOnly) : privilegeCode s sh = some 2 := by
  obtain ⟨c, hc⟩ := Option.isSome_iff_exists.mp hh
  have hne : c ≠ causeOf 16 1 := fun e => he (by rw [hc, e])
  simp only [privilegeCode, hc, h, hne, ne_eq, not_false_eq_true, and_self, or_true, if_true]

theorem privilegeCode_of_normalMode (hh : s.g.handler = none) (h : sh.mode = .handlerOnly ∨ sh.mode = .evictHandlerOnly) :
    privilegeCode s sh = some 1 := by
  simp only [privilegeCode, hh, h, if_true]

end

theorem isStreamCore_coreIx {g : Gang} (h : g.core.toNat < 40) : isStreamCore g.coreIx = decide (30 ≤ g.core.toNat) := by
  rw [isStreamCore, Gang.coreIx, coreIndex, Nat.mul_add_mod, Nat.mod_eq_of_lt h]

/-- Matrix words and `cp.fifo` have no engine on a stream core (03 R74). -/
theorem engineAbsent_of_stream {g : Gang} {m : Nat} {fifo : Bool} (h30 : 30 ≤ g.core.toNat) (h40 : g.core.toNat < 40)
    (h : (0x24 ≤ m ∧ m ≤ 0x27) ∨ fifo = true) : engineAbsent m fifo g.coreIx = true := by
  simpa [engineAbsent, isStreamCore_coreIx h40, h30] using h

/-- Expansion words have none on a matrix core (03 R74). -/
theorem engineAbsent_of_matrix {g : Gang} {m : Nat} {fifo : Bool} (h30 : g.core.toNat < 30) (h : m = 0x22 ∨ m = 0x23) :
    engineAbsent m fifo g.coreIx = true := by
  simpa [engineAbsent, isStreamCore_coreIx (h30.trans (by decide)), Nat.not_le.mpr h30] using h

section
variable {i : Instr} {s : State}

/-- A word whose issue raises a trap takes it in front of itself. -/
theorem Issues.trapsWith {g c : Nat} {d : BitVec 96} (h : Issues i s)
    (hc : issueCode s (wordShapeOf i) (isFifoWord i) s.curWord s.g.place = some (g, c, d)) : TrapsWith i s g c d := by
  obtain ⟨body, hb⟩ := h
  rw [TrapsWith, hb, issue, hc]

theorem trapsWith_of_engineAbsent (h : i.isWord = true) (ha : engineAbsent (wordShapeOf i).major (isFifoWord i) s.g.coreIx = true) :
    TrapsWith i s 5 0x0F (wordDetail s.curWord s.g.place) :=
  (issues_of_isWord i s h).trapsWith (issueCode_of_illegal (illegalCode_of_engineAbsent ha))

theorem trapsWith_of_privilege {c : Nat} (h : i.isWord = true) (hl : illegalCode s (wordShapeOf i) (isFifoWord i) = none)
    (hp : privilegeCode s (wordShapeOf i) = some c) : TrapsWith i s 6 c (wordDetail s.curWord s.g.place) :=
  (issues_of_isWord i s h).trapsWith (issueCode_of_privilege hl hp)

end

/-- Settles O31: every word issues under its own shape (`issues_of_isWord`), and what the shape raises there is `issueCode`, clause by
clause. -/
theorem issueTraps : Obligations.IssueTraps := by
  unfold Obligations.IssueTraps
  intro i a e s
  refine ⟨fun h c hc => ?illegal, fun h hl c hp => trapsWith_of_privilege h hl hp, fun h hl hp d hd => ?conversion, fun h h30 h40 hm => ?stream,
    fun h h30 hm => ?matrix, fun hh => ⟨?tret, ?tlane, ?tdone⟩, fun hh => ⟨?exit, fun he => ?evict⟩, fun h hh hl hm => ?handler⟩
  case illegal => exact (issues_of_isWord i s h).trapsWith (issueCode_of_illegal hc)
  case conversion => exact (issues_of_isWord i s h).trapsWith (issueCode_of_conv hl hp hd)
  case stream => exact trapsWith_of_engineAbsent h (engineAbsent_of_stream h30 h40 hm)
  case matrix => exact trapsWith_of_engineAbsent h (engineAbsent_of_matrix h30 hm)
  case tret => exact trapsWith_of_privilege rfl (illegalCode_of_system rfl rfl rfl) (privilegeCode_of_normalMode hh (.inl rfl))
  case tlane => exact trapsWith_of_privilege rfl (illegalCode_of_system rfl rfl rfl) (privilegeCode_of_normalMode hh (.inl rfl))
  case tdone => exact trapsWith_of_privilege rfl (illegalCode_of_system rfl rfl rfl) (privilegeCode_of_normalMode hh (.inr rfl))
  case exit => exact trapsWith_of_privilege rfl (illegalCode_of_system rfl rfl rfl) (privilegeCode_of_normalOnly hh rfl)
  case evict => exact trapsWith_of_privilege rfl (illegalCode_of_system rfl rfl rfl) (privilegeCode_of_evictHandlerOnly hh he rfl)
  case handler =>
    have hf : handlerForbids (wordShapeOf i).major = true := by simpa [handlerForbids, or_assoc] using hm
    exact trapsWith_of_privilege h hl (privilegeCode_of_handlerForbids hh hf)

end Sys2Proof.Machine
end

section
/-! The step (03 R68-R70, R77, R78; 06 R171, R173, R181; 01 R14; 19 R426): what each part of a turn answers, case by case, from the fetch up
to the choice of the turn, and the ring in which a core serves its ready gangs. -/

namespace Sys2Proof.Machine

/-! ## Sorted sets of numbers, and the next one in the ring -/

theorem mem_insertNat {x y : Nat} {l : List Nat} : y ∈ insertNat x l ↔ y = x ∨ y ∈ l := by
  induction l with
  | nil => simp [insertNat]
  | cons z r ih => grind [insertNat]

theorem insertNat_pairwise {x : Nat} {l : List Nat} (h : l.Pairwise (· < ·)) : (insertNat x l).Pairwise (· < ·) := by
  induction l with
  | nil => simp [insertNat]
  | cons z r ih =>
    obtain ⟨hz, hr⟩ := List.pairwise_cons.mp h
    unfold insertNat
    split
    case isTrue hx => exact List.pairwise_cons.mpr ⟨fun y hy => (List.mem_cons.mp hy).elim (fun e => e ▸ hx) fun hy => hx.trans (hz y hy), h⟩
    case isFalse hx =>
      split
      case isTrue => exact h
      case isFalse hne =>
        refine List.pairwise_cons.mpr ⟨fun y hy => ?_, ih hr⟩
        rcases mem_insertNat.mp hy with rfl | hy
        · omega
        · exact hz y hy

theorem mem_sortedNats {y : Nat} {l : List Nat} : y ∈ sortedNats l ↔ y ∈ l := by
  have go : ∀ (l a : List Nat), y ∈ l.foldl (fun a x => insertNat x a) a ↔ y ∈ a ∨ y ∈ l := by
    intro l
    induction l with
    | nil => simp
    | cons x r ih => intro a; rw [List.foldl_cons, ih, mem_insertNat, List.mem_cons]; tauto
  simp [sortedNats, go]

theorem sortedNats_pairwise (l : List Nat) : (sortedNats l).Pairwise (· < ·) :=
  List.foldlRecOn l _ List.Pairwise.nil fun _ h _ _ => insertNat_pairwise h

/-- The first number above p, or the lowest of all where none is, is the next behind p in the ring of the list's numbers. -/
theorem ringNext {l : List Nat} (hs : l.Pairwise (· < ·)) (hl : l ≠ []) (p d : Nat) :
    let n := (l.find? fun k => p < k).getD (l.headD d)
    n ∈ l ∧ ∀ k ∈ l, if p < n then k ≤ p ∨ n ≤ k else n ≤ k ∧ k ≤ p := by
  cases hf : l.find? fun k => decide (p < k) with
  | some n =>
    obtain ⟨hn, before, after, rfl, hlow⟩ := List.find?_eq_some_iff_append.mp hf
    have hn : p < n := of_decide_eq_true hn
    obtain ⟨-, hafter, -⟩ := List.pairwise_append.mp hs
    refine ⟨List.mem_append_right _ List.mem_cons_self, fun k hk => ?_⟩
    rw [Option.getD_some, if_pos hn]
    rcases List.mem_append.mp hk with hk | hk
    · have := hlow k hk
      simp only [Bool.not_eq_true', decide_eq_false_iff_not, Nat.not_lt] at this
      exact .inl this
    · rcases List.mem_cons.mp hk with rfl | hk
      · exact .inr (Nat.le_refl _)
      · exact .inr (List.rel_of_pairwise_cons hafter hk).le
  | none =>
    obtain ⟨n, r, rfl⟩ := List.exists_cons_of_ne_nil hl
    have hlow : ∀ k ∈ n :: r, k ≤ p := fun k hk => by simpa using List.find?_eq_none.mp hf k hk
    refine ⟨List.mem_cons_self, fun k hk => ?_⟩
    rw [Option.getD_none, List.headD_cons, if_neg (hlow n List.mem_cons_self).not_gt]
    rcases List.mem_cons.mp hk with rfl | hmem
    · exact ⟨Nat.le_refl _, hlow _ hk⟩
    · exact ⟨(List.rel_of_pairwise_cons hs hmem).le, hlow k hk⟩

/-! ## The packet cache (03 R68) -/

theorem fetchLine_hit {va n fpa : Nat} {s u : State} {e : TlbEntry} {d : List Byte} (ht : translate true false va s = (u, .ok fpa e))
    (hd : lookup (u.core u.g.coreIx).packets (lineOf fpa) = some d) : fetchLine va n s = .ok (slice d (fpa % 128) n) u := by
  rw [fetchLine, ht]
  simp only [hd]

/-- A packet that lies in one line of the packet cache. -/
theorem fetchPacket_hit {n : Word} {fpa : Nat} {s u : State} {e : TlbEntry} {d : List Byte} (hf : s.g.fetched = none)
    (ht : translate true false (packetVa s n) s = (u, .ok fpa e)) (hd : lookup (u.core u.g.coreIx).packets (lineOf fpa) = some d)
    (hl : packetVa s n % 128 ≤ 116) :
    fetchPacket n s = .words (packetWords (slice d (fpa % 128) 12))
      (u.setG fun g => { g with fetched := some (n, packetWords (slice d (fpa % 128) 12)) }) := by
  have hm : min 12 (128 - packetVa s n % 128) = 12 := by omega
  simp only [fetchPacket, hf, hm, fetchLine_hit ht hd, Done.next, Option.filter_none, Option.map_none, if_true]

/-! ## The words of a group -/

/-- What a group of n words starts from: the counter past it, the registers and the operand log captured (03 R69, R78). -/
def State.captured (n : Nat) (s : State) : State :=
  s.setG fun g => { g with pc := g.cur.advance n, src := some g.r, srcLog := g.olog }

theorem shapeOf_of_decode {w : Word} {i : Instr} (h : decodeNat w.toNat = .ok i) : shapeOf w = wordShapeOf i := by
  rw [shapeOf, h]

theorem runWord_of_decode {x : Slotted} {i : Instr} (s : State) (h : decodeNat x.word.toNat = .ok i) :
    runWord x s = exec i (s.setG fun g => { g with slot := BitVec.ofNat 2 x.slot }) := by
  rw [runWord, h]

theorem groupAt_cons {ws rest : List Word} {w : Word} {slot : Nat} (h : chained (ws.drop slot) = w :: rest) :
    ∃ G, groupAt ws slot = ⟨w, shapeOf w, slot⟩ :: G ∧ (rest = [] → G = []) := by
  refine ⟨_, by rw [groupAt, h, List.zipIdx_cons, List.map_cons, Nat.add_zero], ?_⟩
  rintro rfl
  rfl

theorem issueOrder_single (x : Slotted) : issueOrder [x] = [x] := by
  cases hx : isEnder x <;> simp [issueOrder, hx]

section
variable {uid : Nat} {x : Slotted} {y : List Slotted} {s t : State}

theorem issueWords_stops (hr : runWord x s = .next t) (hh : held uid t = true) : issueWords uid (x :: y) s = (.next t, some x) := by
  simp only [issueWords, hr, hh, if_true]

theorem issueWords_continues (hr : runWord x s = .next t) (hh : held uid t = false) (hu : t.g.uid = uid) (hs : t.g.status = .resident) :
    issueWords uid (x :: y) s = issueWords uid y (tickWindows s t) := by
  simp only [issueWords, hr, hh, hu, hs, and_self, if_true, Bool.false_eq_true, if_false]

theorem issueWords_leaves (hr : runWord x s = .next t) (hh : held uid t = false) (hu : ¬(t.g.uid = uid ∧ t.g.status = .resident)) :
    issueWords uid (x :: y) s = (.next t, none) := by
  simp only [issueWords, hr, hh, hu, Bool.false_eq_true, if_false]

end

/-! ## The run of a group -/

section
variable {x z : Slotted} {y : List Slotted} {s t u : State}

/-- A group whose words have all issued ends. -/
theorem runGroup_ends (h : issueWords s.g.uid (issueOrder (x :: y)) (s.captured (y.length + 1)) = (.next t, none)) :
    runGroup x y s = .next (endGroup x s.g.cur s t) := by
  simp only [State.captured, State.setG] at h
  simp only [runGroup, State.setG, h]

/-- A word alone that traps or stays is all the group does. -/
theorem runGroup_alone_held (h : issueWords s.g.uid (issueOrder [x]) (s.captured 1) = (.next t, some z)) : runGroup x [] s = .next t := by
  simp only [State.captured, State.setG] at h
  simp only [runGroup, State.setG, List.length_nil, Nat.zero_add, h, List.isEmpty_nil, if_true]

/-- A word of a chain that traps or stays: run without the others, it does what it does itself; if it stays, the group stays, but for a word
that ends the gang's stay, which alone is left to issue. -/
theorem runGroup_held (hy : y ≠ []) (h : issueWords s.g.uid (issueOrder (x :: y)) (s.captured (y.length + 1)) = (.next t, some z))
    (hz : runWord z (s.captured (y.length + 1)) = .next u) :
    runGroup x y s = .next (if held s.g.uid u then u else if isEnder z then standAlone z s.g.cur.packet t
      else stall (s.captured (y.length + 1))) := by
  simp only [State.captured, State.setG] at h hz
  simp only [runGroup, State.captured, State.setG, h, hz, List.isEmpty_eq_false_iff.mpr hy, Bool.false_eq_true, if_false]

/-- A word alone: what `exec` answers on the captured registers, and behind it, unless it traps or stays, the windows and the end of the
group. -/
theorem runGroup_alone {i : Instr} (hd : decodeNat x.word.toNat = .ok i) :
    runGroup x [] s = match exec i ((s.captured 1).setG fun g => { g with slot := BitVec.ofNat 2 x.slot }) with
      | .next t => .next (if held s.g.uid t then t else
          endGroup x s.g.cur s (if t.g.uid = s.g.uid ∧ t.g.status = .resident then tickWindows (s.captured 1) t else t))
      | o => o := by
  rw [← runWord_of_decode (s.captured 1) hd]
  have ho := issueOrder_single x
  cases hr : runWord x (s.captured 1) with
  | next t =>
    cases hh : held s.g.uid t with
    | true => simp only [runGroup_alone_held (ho ▸ issueWords_stops hr hh), hh, if_true]
    | false =>
      by_cases hu : t.g.uid = s.g.uid ∧ t.g.status = .resident
      · obtain ⟨huid, hres⟩ := hu
        simp only [runGroup_ends (y := []) (ho ▸ issueWords_continues hr hh huid hres), hh, huid, hres, and_self, if_true, Bool.false_eq_true, if_false]
      · simp only [runGroup_ends (y := []) (ho ▸ issueWords_leaves hr hh hu), hh, hu, Bool.false_eq_true, if_false]
  | fault r | refused r =>
    simp only [State.captured, State.setG] at hr
    simp only [runGroup, State.setG, List.length_nil, Nat.zero_add, ho, issueWords, hr]

end

/-! ## The turn of a group -/

section
variable {x : Slotted} {y : List Slotted} {s t v : State}

theorem groupTurn_due (hv : reachJoins (y.length + 1) (x :: y) s = v) (h : dueTrap (issueTrapOf (x :: y) v) v = some t) :
    groupTurn (x :: y) s = .next t := by
  simp only [groupTurn, List.length_cons, hv, h]

theorem groupTurn_waits (hv : reachJoins (y.length + 1) (x :: y) s = v) (h : dueTrap (issueTrapOf (x :: y) v) v = none)
    (hw : mustWait v.g = true ∨ joinWaits (x :: y) v.g = true) : groupTurn (x :: y) s = .next (stall v) := by
  simp only [groupTurn, List.length_cons, hv, h, Bool.or_eq_true, hw, if_true]

theorem groupTurn_runs (hv : reachJoins (y.length + 1) (x :: y) s = v) (h : dueTrap (issueTrapOf (x :: y) v) v = none)
    (hm : mustWait v.g = false) (hj : joinWaits (x :: y) v.g = false) : groupTurn (x :: y) s = runGroup x y v := by
  simp only [groupTurn, List.length_cons, hv, h, hm, hj, Bool.or_self, Bool.false_eq_true, if_false]

/-- The group that stands at the gang's counter, with a word that stands alone cut off from those chained to it. -/
theorem issueTurn_words {ws : List Word} {G : List Slotted} (hf : fetchPacket s.g.cur.packet s = .words ws t)
    (hG : (if t.g.alone.contains (t.g.handler.isSome, t.g.cur) then (groupAt ws t.g.cur.slot.toNat).take 1 else groupAt ws t.g.cur.slot.toNat) = G) :
    issueTurn s = groupTurn G t := by
  simp only [issueTurn, hf, hG]

end

/-! ## The turn of a gang, and of anything else -/

section
variable {s : State} {r : List Turn}

theorem step_of_agenda {τ : Turn} (h : s.agenda = τ :: r) : step s = doTurn τ { s with agenda := r } := by
  rw [step, nextTurn, h]
  simp only [List.isEmpty_cons, Bool.and_false, Bool.false_eq_true, if_false]

theorem step_unpowered (hp : s.unit.railOn = false) (ha : s.agenda = []) :
    step s = if s.host.resetAsked = 0 then .fault .noPower else doTurn ((resetTurns s).headD (.cycles 1)) s := by
  rw [step, hp, ha]; rfl

theorem doTurn_event {i : Instr} (h : i.isWord = false) : doTurn (.event i) s = exec i s := by
  simp only [doTurn, h, Bool.false_eq_true, if_false]

theorem doTurn_word {i : Instr} (h : i.isWord = true) : doTurn (.event i) s = .next s := by
  simp only [doTurn, h, if_true]

theorem servedTurn_of_not_resident {uid : Nat} {f : Bool} {g : Gang} (hg : s.gang? uid = some g) (hr : g.status ≠ .resident) :
    servedTurn uid f s = .next s := by
  simp only [servedTurn, hg, bne_iff_ne, ne_eq, hr, not_false_eq_true, if_true]

theorem servedTurn_issues {uid : Nat} {f : Bool} {g : Gang} (hg : s.gang? uid = some g) (hr : g.status = .resident)
    (hw : (beginTurn uid f s).g.wait ∈ [Wait.none, Wait.blocked]) : servedTurn uid f s = issueTurn (beginTurn uid f s) := by
  simp only [List.mem_cons, List.not_mem_nil, or_false] at hw
  rcases hw with hw | hw <;> simp only [servedTurn, hg, hr, hw, bne_self_eq_false, Bool.false_eq_true, if_false]

/-- A resident gang that does not wait issues at its turn. -/
theorem step_issues {n uid : Nat} {f : Bool} {s1 : State} {g : Gang} (ha : s.agenda = .gang n f :: r)
    (hs : State.serve n { s with agenda := r } = (uid, s1)) (hg : s1.gang? uid = some g) (hr : g.status = .resident)
    (hw : (beginTurn uid f s1).g.wait ∈ [Wait.none, Wait.blocked]) : step s = issueTurn (beginTurn uid f s1) := by
  rw [step_of_agenda ha, doTurn, gangTurn, hs, servedTurn_issues hg hr hw]

/-! ## The ring of the ready gangs of a core (01 R14) -/

theorem mem_allGangs_of_gang? {uid : Nat} {g : Gang} (h : s.gang? uid = some g) : g ∈ s.allGangs := by
  unfold State.gang? at h
  split at h
  case isTrue hv => cases h; simp [State.allGangs, hv.2]
  case isFalse => exact List.mem_append_right _ (List.mem_of_find?_eq_some h)

theorem isReady_of_not_resident {g : Gang} (h : g.status ≠ .resident) : s.isReady g = false := by
  simp only [State.isReady, h, decide_false, Bool.false_and]

theorem serve_not_ready {uid : Nat} {g : Gang} (hg : s.gang? uid = some g) (h : s.isReady g = false) : State.serve uid s = (uid, s) := by
  simp only [State.serve, hg, h, Bool.false_eq_true, if_false]

/-- The uids of the ready gangs of a core, ascending. -/
noncomputable def State.readyUids (s : State) (c : Nat) : List Nat :=
  sortedNats ((s.allGangs.filter fun h => h.coreIx = c && s.isReady h).map Gang.uid)

theorem mem_readyUids {c k : Nat} : k ∈ s.readyUids c ↔ ∃ h ∈ s.allGangs, h.coreIx = c ∧ s.isReady h = true ∧ h.uid = k := by
  simp only [State.readyUids, mem_sortedNats, List.mem_map, List.mem_filter, Bool.and_eq_true, decide_eq_true_eq, and_assoc]

theorem serve_ready {uid : Nat} {g : Gang} (hg : s.gang? uid = some g) (h : s.isReady g = true) :
    let n := ((s.readyUids g.coreIx).find? fun k => (s.core g.coreIx).picker < k).getD ((s.readyUids g.coreIx).headD uid)
    State.serve uid s = (n, s.setCore g.coreIx fun K => { K with picker := n }) := by
  simp only [State.serve, hg, h, if_true, State.readyUids]

/-- The turn of a ready gang goes to the ready gang of its core next behind the one served last. -/
theorem serve_ring {uid : Nat} {g : Gang} (hg : s.gang? uid = some g) (hr : s.isReady g = true) :
    ∃ n h, State.serve uid s = (n, s.setCore g.coreIx fun K => { K with picker := n }) ∧ h ∈ s.allGangs ∧ h.uid = n ∧ h.coreIx = g.coreIx ∧
      s.isReady h = true ∧ ∀ k ∈ s.allGangs, k.coreIx = g.coreIx → s.isReady k = true →
        if (s.core g.coreIx).picker < n then k.uid ≤ (s.core g.coreIx).picker ∨ n ≤ k.uid else n ≤ k.uid ∧ k.uid ≤ (s.core g.coreIx).picker := by
  have hne : s.readyUids g.coreIx ≠ [] := List.ne_nil_of_mem (mem_readyUids.mpr ⟨g, mem_allGangs_of_gang? hg, rfl, hr, rfl⟩)
  obtain ⟨hmem, hnext⟩ := ringNext (sortedNats_pairwise _) hne (s.core g.coreIx).picker uid
  obtain ⟨h, hin, hcore, hready, huid⟩ := mem_readyUids.mp hmem
  exact ⟨_, h, serve_ready hg hr, hin, huid, hcore, hready, fun k hk hc hrk => hnext _ (mem_readyUids.mpr ⟨k, hk, hc, hrk, rfl⟩)⟩

end

/-- Settles O56: the clauses in order are the lemmas above, from the turn (`step_issues`) over the group (`groupTurn_runs`) to the word
(`runGroup_alone`). -/
theorem stepRunsDecoded : Obligations.StepRunsDecoded := by
  unfold Obligations.StepRunsDecoded
  intro s
  refine ⟨?alone, ?group, fun x y t => ⟨fun h => runGroup_ends h, fun z u hy h hz => runGroup_held hy h hz⟩, fun uid g => serve_not_ready,
    fun uid g => serve_ring, fun uid x y t => issueWords_continues, ?passes, fun i r ha hi => ?event, fun i r ha hi => ?word, fun n r ha => ?cycles,
    fun hp ha h0 => ?noPower, ?reset, ?fetch⟩
  case alone =>
    intro n uid f r s1 g ws u w i slot ha hs hg hr b hw hf hslot hd hchain x v hdue hmust hjoin
    subst hslot
    have hx : (if u.g.alone.contains (u.g.handler.isSome, u.g.cur) then (groupAt ws u.g.cur.slot.toNat).take 1
        else groupAt ws u.g.cur.slot.toNat) = [x] := by
      rcases hchain with hc | ⟨rest, hc, hin⟩
      · obtain ⟨G, hG, hnil⟩ := groupAt_cons hc
        rw [hG, hnil rfl, shapeOf_of_decode hd]
        split <;> rfl
      · obtain ⟨G, hG, -⟩ := groupAt_cons hc
        rw [if_pos (List.contains_iff_mem.mpr hin), hG, shapeOf_of_decode hd]
        rfl
    rw [step_issues ha hs hg hr hw, issueTurn_words hf hx, groupTurn_runs rfl hdue hmust hjoin, runGroup_alone (i := i) hd]
    rfl
  case group =>
    intro n uid f r s1 g ws u x y ha hs hg hr b hw hf hG v
    rw [step_issues ha hs hg hr hw, issueTurn_words hf hG]
    exact ⟨fun t => groupTurn_due rfl, groupTurn_waits rfl, groupTurn_runs rfl⟩
  case passes =>
    intro uid f r g ha hg hr
    have hg' : State.gang? { s with agenda := r } uid = some g := hg
    rw [step_of_agenda ha, doTurn, gangTurn, serve_not_ready hg' (isReady_of_not_resident hr), servedTurn_of_not_resident hg' hr]
  case event => rw [step_of_agenda ha, doTurn_event hi]
  case word => rw [step_of_agenda ha, doTurn_word hi]
  case cycles => rw [step_of_agenda ha]; rfl
  case noPower => rw [step_unpowered hp ha, if_pos h0]
  case reset =>
    intro i n hin hp ha hn
    rw [step_unpowered hp ha, resetTurns, hn]
    simp only [List.mem_cons, Prod.mk.injEq, List.not_mem_nil, or_false] at hin
    rcases hin with ⟨rfl, rfl⟩ | ⟨rfl, rfl⟩ | ⟨rfl, rfl⟩ | ⟨rfl, rfl⟩ | ⟨rfl, rfl⟩ <;> rfl
  case fetch =>
    intro n u fpa e d hf hh ht hd hl
    have hva : packetVa s n = s.g.codeBase.toNat + 12 * n.toNat := by rw [packetVa, hh]; rfl
    exact fetchPacket_hit hf (hva ▸ ht) hd (hva ▸ hl)

end Sys2Proof.Machine
end

section
/-! Scalar and predicate words (03 R76; 04 R110-R114): all are of the scalar, the division or the predicate form, so that only the value they
write is to be compared with what the statements say. -/

namespace Sys2Proof.Machine

/-! ## The operand forms, once the value is known -/

/-- A word of the scalar form, whose value on the registers it reads is x. -/
theorem scalarWord_of {i : Instr} {s : State} {d : Nat} {f : Regs → Dword} {x : Dword} (hd : d < 32)
    (hi : exec i s = .next (scalarWord (wordShapeOf i) d f s)) (hx : f s.src = x) (hf : isFifoWord i = false := by rfl) :
    ScalarWord i s d x :=
  fun h => hx ▸ scalarWord_sets i s h d hd f hi hf

/-- A word of the predicate form, whose value on the registers it reads is x. -/
theorem predWord_of {i : Instr} {s : State} {d : Nat} {f : Regs → Word} {x : Word} (hd : d < 8)
    (hi : exec i s = .next (predWord (wordShapeOf i) d f s)) (hx : f s.src = x) (hf : isFifoWord i = false := by rfl) :
    PredWord i s d x :=
  fun h => hx ▸ predWord_sets i s h d hd f hi hf

/-! ## Counting bits (04 R110, R114) -/

theorem popCount_toNat {w : Nat} (x : BitVec w) (n : Nat) : popCount n x.toNat = ((List.range n).filter fun k => x.getLsbD k).length :=
  List.countP_eq_length_filter

/-- The leading zeros end at the highest set bit. -/
theorem leadingZeros_eq {w n : Nat} {x : BitVec w} (hn : n ≤ w) (hz : ∀ k, w - n ≤ k → x.getLsbD k = false)
    (h1 : n < w → x.getLsbD (w - 1 - n) = true) : leadingZeros w x.toNat = n := by
  unfold leadingZeros
  split
  case isTrue h0 =>
    have hx : x = 0 := BitVec.eq_of_toNat_eq h0
    by_contra hne
    have := h1 (by omega)
    simp [hx] at this
  case isFalse h0 =>
    have hlt : n < w := by
      by_contra hge
      exact h0 (Nat.eq_of_testBit_eq fun k => by simpa [BitVec.testBit_toNat] using hz k (by omega))
    have hlo : 2 ^ (w - 1 - n) ≤ x.toNat := Nat.ge_two_pow_of_testBit (h1 hlt)
    have hhi : x.toNat < 2 ^ (w - 1 - n + 1) := Nat.lt_pow_two_of_testBit _ fun k hk => hz k (by omega)
    rw [(Nat.log2_eq_iff h0).mpr ⟨hlo, hhi⟩]
    omega

/-- The trailing zeros end at the lowest set bit. -/
theorem trailingZeros_eq {w n : Nat} {x : BitVec w} (hn : n ≤ w) (hz : ∀ k < n, x.getLsbD k = false)
    (h1 : n < w → x.getLsbD n = true) : trailingZeros w x.toNat = n := by
  unfold trailingZeros
  by_cases hlt : n < w
  case pos =>
    have : (List.range w).find? (fun k => x.toNat.testBit k) = some n :=
      List.find?_range_eq_some.mpr ⟨h1 hlt, List.mem_range.mpr hlt, fun k hk => by simpa [BitVec.testBit_toNat] using hz k hk⟩
    rw [this]; rfl
  case neg =>
    have : (List.range w).find? (fun k => x.toNat.testBit k) = none :=
      List.find?_eq_none.mpr fun k hk => by simpa [BitVec.testBit_toNat] using hz k (by have := List.mem_range.mp hk; omega)
    rw [this]; exact (Nat.le_antisymm hn (Nat.not_lt.mp hlt)).symm

/-! ## Replacing 16 bits (04 R113) -/

theorem insertHalf_getLsbD (x : Dword) (h : Half) {k j : Nat} (hj : j < 64) :
    (insertHalf x k h).getLsbD j = if 16 * k ≤ j ∧ j < 16 * k + 16 then h.getLsbD (j - 16 * k) else x.getLsbD j := by
  have hm : (0xFFFF#64).getLsbD (j - 16 * k) = decide (j - 16 * k < 16) := by
    rw [show 0xFFFF#64 = (BitVec.allOnes 16).setWidth 64 from rfl, BitVec.getLsbD_setWidth, BitVec.getLsbD_allOnes]
    grind
  have hh : 16 ≤ j - 16 * k → h.getLsbD (j - 16 * k) = false := BitVec.getLsbD_of_ge h _
  simp only [insertHalf, BitVec.getLsbD_or, BitVec.getLsbD_and, BitVec.getLsbD_not, BitVec.getLsbD_shiftLeft, BitVec.getLsbD_setWidth, hm, hj]
  grind

/-- The number whose bits are those is the one. -/
theorem insertHalf_eq {x y : Dword} {h : Half} {k : Nat}
    (hy : ∀ j < 64, y.getLsbD j = if 16 * k ≤ j ∧ j < 16 * k + 16 then h.getLsbD (j - 16 * k) else x.getLsbD j) : insertHalf x k h = y :=
  BitVec.eq_of_getLsbD_eq fun j hj => by rw [insertHalf_getLsbD x h hj, hy j hj]

/-! ## Division (04 R112) -/

/-- A division word whose divisor is zero raises zero divide. -/
theorem scalarFlag_of_div {i : Instr} {s : State} {d a b : Nat} {f : Dword → Dword → Dword} {x : Dword} (hd : d < 32)
    (hi : exec i s = .next (scalarDiv (wordShapeOf i) d a b f s)) (hb : s.src.sreg b = 0) (hx : f (s.src.sreg a) 0 = x)
    (hf : isFifoWord i = false := by rfl) : ScalarFlag i s d x fZeroDivide := fun h => by
  have e := scalarDiv_sets i s h d a b hd f hi hf
  rw [hb, hx] at e
  exact e

/-- A division word whose divisor is not zero raises nothing. -/
theorem scalarWord_of_div {i : Instr} {s : State} {d a b : Nat} {f : Dword → Dword → Dword} {x : Dword} (hd : d < 32)
    (hi : exec i s = .next (scalarDiv (wordShapeOf i) d a b f s)) (hb : s.src.sreg b ≠ 0) (hx : f (s.src.sreg a) (s.src.sreg b) = x)
    (hf : isFifoWord i = false := by rfl) : ScalarWord i s d x := fun h => by
  have e := scalarDiv_sets i s h d a b hd f hi hf
  rw [hx, beq_false_of_ne hb] at e
  exact e

theorem sdivI_eq (x y : Dword) : sdivI x y = x.sdiv y :=
  BitVec.eq_of_toInt_eq (by rw [sdivI, BitVec.toInt_ofInt, BitVec.toInt_sdiv])

/-- Outside the one quotient that 64 bits do not hold, the quotient is the integer one. -/
theorem sdivI_toInt {x y : Dword} (h : ¬(x = BitVec.intMin 64 ∧ y = BitVec.allOnes 64)) : (sdivI x y).toInt = x.toInt.tdiv y.toInt := by
  rw [sdivI_eq]
  exact BitVec.toInt_sdiv_of_ne_or_ne x y (by rwa [BitVec.neg_one_eq_allOnes, ← not_and_or])

theorem sremI_toInt (x : Dword) {y : Dword} (h : y ≠ 0) : (sremI x y).toInt = x.toInt.tmod y.toInt := by
  rw [sremI, if_neg h, ← BitVec.toInt_srem, BitVec.ofInt_toInt]

/-! ## The statements -/

/-- Settles O1: every word is of the scalar or the predicate form, so that only its value is to be compared: by definition, and by the lemmas
above where the statement names the bits of the result. -/
theorem scalarArithmeticAndImmediates : Obligations.ScalarArithmeticAndImmediates := by
  unfold Obligations.ScalarArithmeticAndImmediates
  refine ⟨fun d a b s => ?words, fun d a e f h n v p s => ?immediates⟩
  case words =>
    have hd := d.isLt
    refine ⟨scalarWord_of hd rfl rfl, scalarWord_of hd rfl rfl, scalarWord_of hd rfl rfl, scalarWord_of hd rfl rfl, scalarWord_of hd rfl rfl,
      scalarWord_of hd rfl rfl, scalarWord_of hd rfl rfl, scalarWord_of hd rfl rfl, scalarWord_of hd rfl rfl, scalarWord_of hd rfl rfl,
      scalarWord_of hd rfl rfl, scalarWord_of hd rfl rfl, scalarWord_of hd rfl ?sminI, scalarWord_of hd rfl ?sminN, scalarWord_of hd rfl ?smaxI,
      scalarWord_of hd rfl ?smaxN, fun n hn => scalarWord_of hd rfl (congrArg _ ((popCount_toNat _ _).trans hn.symm)),
      fun n ⟨hn, hz, h1⟩ => scalarWord_of hd rfl (congrArg _ (leadingZeros_eq hn hz h1)),
      fun n ⟨hn, hz, h1⟩ => scalarWord_of hd rfl (congrArg _ (trailingZeros_eq hn hz h1)), fun hm => exec_word .nop s hm (fun s => s) rfl rfl⟩
    case sminI | smaxI => simp only [BitVec.slt_iff_toInt_lt]
    case sminN | smaxN => simp only [BitVec.ult_iff_toNat_lt]
  case immediates =>
    have hd := d.isLt
    exact ⟨scalarWord_of hd rfl rfl, scalarWord_of hd rfl rfl, scalarWord_of hd rfl rfl, scalarWord_of hd rfl rfl, scalarWord_of hd rfl rfl,
      scalarWord_of hd rfl rfl, scalarWord_of hd rfl rfl, scalarWord_of hd rfl rfl, scalarWord_of hd rfl rfl, scalarWord_of hd rfl rfl,
      fun x hx => scalarWord_of hd rfl (insertHalf_eq hx), fun x hx => scalarWord_of hd rfl (insertHalf_eq hx),
      fun x hx => scalarWord_of hd rfl (insertHalf_eq hx), fun x hx => scalarWord_of hd rfl (insertHalf_eq hx),
      scalarWord_of hd rfl rfl, scalarWord_of hd rfl rfl, predWord_of p.isLt rfl rfl⟩

/-- Settles O3: as O1, the relations being those that the model tests. -/
theorem scalarComparesAndPredicates : Obligations.ScalarComparesAndPredicates := by
  unfold Obligations.ScalarComparesAndPredicates
  intro d a b x y z s
  have hd := d.isLt
  have hz := z.isLt
  refine ⟨scalarWord_of hd rfl ?seq, scalarWord_of hd rfl ?sne, scalarWord_of hd rfl ?sltI, scalarWord_of hd rfl ?sleI,
    scalarWord_of hd rfl ?sltN, scalarWord_of hd rfl ?sleN, predWord_of hz rfl rfl, predWord_of hz rfl rfl, predWord_of hz rfl rfl,
    predWord_of hz rfl rfl, predWord_of hz rfl rfl, fun n hn => scalarWord_of hd rfl (congrArg _ ((popCount_toNat _ _).trans hn.symm)),
    fun n ⟨hn, h0, h1⟩ => scalarWord_of hd rfl (congrArg _ (trailingZeros_eq hn h0 h1)), predWord_of hz rfl rfl⟩
  case seq => simp only [beq_iff_eq]
  case sne => simp only [bne_iff_ne]
  case sltI => simp only [BitVec.slt_iff_toInt_lt]
  case sleI => simp only [BitVec.sle_iff_toInt_le]
  case sltN => simp only [BitVec.ult_iff_toNat_lt]
  case sleN => simp only [BitVec.ule_iff_toNat_le]

/-- Settles O2: the words are of the division form, with the quotient and the remainder of `sdivI_toInt` and `sremI_toInt`. -/
theorem scalarDivision : Obligations.ScalarDivision := by
  unfold Obligations.ScalarDivision
  intro d a b s
  have hd := d.isLt
  refine ⟨fun hb => scalarFlag_of_div hd rfl hb rfl, fun hb ⟨hx, hy⟩ => scalarWord_of_div hd rfl hb ?overflow,
    fun hb hn => ⟨_, ?quot, scalarWord_of_div hd rfl hb rfl⟩, fun hb => scalarFlag_of_div hd rfl hb rfl,
    fun hb => ⟨_, ?quotN, scalarWord_of_div hd rfl hb rfl⟩, fun hb => scalarFlag_of_div hd rfl hb rfl,
    fun hb => ⟨_, sremI_toInt _ hb, scalarWord_of_div hd rfl hb rfl⟩,
    fun hb => scalarFlag_of_div hd rfl hb rfl, fun hb => ⟨_, ?remN, scalarWord_of_div hd rfl hb rfl⟩⟩
  case overflow => rw [hx, hy]; rfl
  case quot => simp only [hb, if_false, sdivI_toInt hn]
  case quotN => simp only [hb, if_false, BitVec.toNat_udiv]
  case remN => simp only [hb, if_false, BitVec.toNat_umod]

end Sys2Proof.Machine
end

section
/-! The block words of majors 0x0A-0x0E, 0x10 and 0x14 (04 R105, R115-R120, R123, R129): all but `vins` are of the block form, so that only
what they compute in a lane is to be compared with what the statements say. -/

namespace Sys2Proof.Machine

/-! ## The block form, once the lane values are known -/

/-- What a block word leaves depends on its operation only at the registers it reads. -/
theorem SetsBlock.congr {rs : Bool} {op op' : LaneOp} {d a b : Nat} {B : Block} {s t : State} (h : op s.src = op' s.src)
    (hs : SetsBlock rs op d a b B s t) : SetsBlock rs op' d a b B s t := by
  have hv : blockValue rs op d a b B s = blockValue rs op' d a b B s := by
    funext j k L; simp only [blockValue, h]
  simpa only [SetsBlock, hv] using hs

/-- A word of the block form that computes in each lane, on the registers it reads, what `op'` does. -/
theorem blockWord_of {i : Instr} {s : State} {rs : Bool} {d a b : Nat} {op op' : LaneOp}
    (hi : exec i s = .next (blockWord (wordShapeOf i) rs d a b op s)) (hop : op s.src = op' s.src)
    (hd : d ∈ (wordShapeOf i).dst := by exact List.mem_cons_self) (hf : isFifoWord i = false := by rfl) : BlockWord i rs d a b op' s :=
  fun h =>
    have ⟨t, ht, hs⟩ := blockWord_sets i s h rs d a b op (mayIssue_dst i s h d hd) hi hf
    ⟨t, ht, hs.congr hop⟩

/-! ## Integer words (04 R115, R116) -/

theorem leadingZeros_word (x : Word) : leadingZeros 32 x.toNat = if x = 0 then 32 else 31 - Nat.log2 x.toNat := by
  simp only [leadingZeros, BitVec.toNat_eq (y := 0)]; rfl

theorem reverse_word (x : Word) : x.reverse = BitVec.ofFnLE fun k : Fin 32 => x.getLsbD (31 - k.val) := by
  refine BitVec.eq_of_getLsbD_eq fun j hj => ?_
  rw [BitVec.getLsbD_reverse, BitVec.getMsbD_eq_getLsbD, BitVec.getLsbD_ofFnLE]
  simp [hj]

/-- The distance of two signed numbers fits 32 bits. -/
theorem absDiff_word (x y : Word) : (if x.slt y then y - x else x - y) = BitVec.ofNat 32 (x.toInt - y.toInt).natAbs := by
  have hsub (u v : Word) : u - v = BitVec.ofInt 32 (u.toInt - v.toInt) := BitVec.eq_of_toInt_eq (by rw [BitVec.toInt_sub, BitVec.toInt_ofInt])
  simp only [BitVec.slt_iff_toInt_lt, hsub, ← BitVec.ofInt_natCast]
  split <;> congr 1 <;> omega

theorem dot4_natCast (f g : Nat → Nat) :
    dot4 (fun k => (f k : Int)) (fun k => (g k : Int)) = (((List.range 4).map fun k => f k * g k).sum : Nat) := by
  simp [dot4, List.range_succ, add_assoc]

/-- Settles O4: the operations are the model's own but for the counts, the reversal, the signed distance and the unsigned dot product, which
are the lemmas above. -/
theorem vectorIntegerWords : Obligations.VectorIntegerWords := by
  unfold Obligations.VectorIntegerWords
  refine ⟨fun d a b s => ?plain, fun d a b s => ?saturating⟩
  case plain =>
    exact ⟨blockWord_of rfl rfl, blockWord_of rfl rfl, blockWord_of rfl rfl, blockWord_of rfl rfl, blockWord_of rfl rfl, blockWord_of rfl rfl,
      blockWord_of rfl rfl, blockWord_of rfl rfl, blockWord_of rfl rfl, blockWord_of rfl rfl, blockWord_of rfl rfl, blockWord_of rfl rfl,
      blockWord_of rfl rfl, blockWord_of rfl rfl, blockWord_of rfl rfl, blockWord_of rfl rfl⟩
  case saturating =>
    refine ⟨blockWord_of rfl rfl, blockWord_of rfl rfl, blockWord_of rfl rfl, blockWord_of rfl rfl, blockWord_of rfl rfl, blockWord_of rfl rfl,
      blockWord_of rfl ?vpopc, blockWord_of rfl ?vclz, blockWord_of rfl ?vbrev, blockWord_of rfl rfl, blockWord_of rfl rfl,
      blockWord_of rfl ?vabsd, blockWord_of rfl rfl, blockWord_of rfl rfl, blockWord_of rfl rfl, blockWord_of rfl ?vdot4⟩
    case vpopc => funext L x y z r; simp only [lane1, popCount_toNat]
    case vclz => funext L x y z r; simp only [lane1, leadingZeros_word]
    case vbrev => funext L x y z r; simp only [lane1, reverse_word]
    case vabsd => funext L x y z r; simp only [lane2, absDiff_word]
    case vdot4 => funext L x y z r; simp only [lane3, dot4_natCast, BitVec.ofInt_natCast]

/-! ## Packed integer words (04 R117) -/

theorem byteOf_getLsbD (x : Word) (k j : Nat) : (byteOf x k).getLsbD j = (decide (j < 8) && x.getLsbD (8 * k + j)) :=
  BitVec.getLsbD_extractLsb' ..

/-- A word is its four bytes. -/
theorem eq_of_byteOf_eq {x y : Word} (h : ∀ k < 4, byteOf x k = byteOf y k) : x = y := by
  refine BitVec.eq_of_getLsbD_eq fun j hj => ?_
  have hb := congrArg (fun b : Byte => b.getLsbD (j % 8)) (h (j / 8) (by omega))
  simpa only [byteOf_getLsbD, Nat.div_add_mod, Nat.mod_lt j (show 8 > 0 by decide), decide_true, Bool.true_and] using hb

theorem byteOf_append (b : Nat → Byte) {k : Nat} (hk : k < 4) : byteOf (b 3 ++ b 2 ++ b 1 ++ b 0) k = b k := by
  refine BitVec.eq_of_getLsbD_eq fun j hj => ?_
  rw [byteOf_getLsbD]
  simp only [BitVec.getLsbD_append]
  interval_cases k <;> grind

/-- A byte of the table that `vperm.b8` picks from. -/
theorem extractByte_append (x y : Word) (n : Nat) :
    BitVec.extractLsb' (8 * n) 8 (y ++ x) = if n < 4 then byteOf x n else byteOf y (n - 4) := by
  refine BitVec.eq_of_getLsbD_eq fun j hj => ?_
  rw [BitVec.getLsbD_extractLsb', BitVec.getLsbD_append, apply_ite (fun b : Byte => b.getLsbD j), byteOf_getLsbD, byteOf_getLsbD]
  grind

/-- The byte that selector k picks. -/
def permByte (x y z : Word) (k : Nat) : Byte :=
  if (byteOf z k).getLsbD 7 then 0 else (y ++ x).extractLsb' (8 * ((byteOf z k).toNat % 8)) 8

theorem permBytes_eq (x y z : Word) : permBytes x y z = permByte x y z 3 ++ permByte x y z 2 ++ permByte x y z 1 ++ permByte x y z 0 := rfl

theorem byteOf_permBytes (x y z : Word) {k : Nat} (hk : k < 4) : byteOf (permBytes x y z) k = if (byteOf z k).getLsbD 7 then 0
    else if (byteOf z k).toNat % 8 < 4 then byteOf x ((byteOf z k).toNat % 8) else byteOf y ((byteOf z k).toNat % 8 - 4) := by
  rw [permBytes_eq, byteOf_append _ hk, permByte, extractByte_append]

/-- Settles O5: the fields are the model's own, and the bytes that the statement asks of `vperm.b8` are those of `permBytes`
(`byteOf_permBytes`), which make the word. -/
theorem vectorPackedInteger : Obligations.VectorPackedInteger := by
  unfold Obligations.VectorPackedInteger
  intro d a b s
  refine ⟨blockWord_of rfl rfl, blockWord_of rfl rfl, blockWord_of rfl rfl, blockWord_of rfl rfl, blockWord_of rfl rfl, blockWord_of rfl rfl,
    blockWord_of rfl rfl, blockWord_of rfl rfl, blockWord_of rfl rfl, blockWord_of rfl rfl, blockWord_of rfl rfl, blockWord_of rfl rfl,
    blockWord_of rfl rfl, blockWord_of rfl rfl, blockWord_of rfl rfl, fun op hop => blockWord_of rfl ?vperm⟩
  case vperm =>
    funext L x y z r
    obtain ⟨hflags, hbytes⟩ := hop s.src L x y z r
    exact Prod.ext (eq_of_byteOf_eq fun k hk => (byteOf_permBytes x y z hk).trans (hbytes k hk).symm) hflags.symm

/-! ## Float words (04 R118-R120, R123) -/

/-- Settles O6: every word is of the block form with the operation that the statement names. -/
theorem vectorFloat : Obligations.VectorFloat := by
  unfold Obligations.VectorFloat
  intro d a b s
  exact ⟨blockWord_of rfl rfl, blockWord_of rfl rfl, blockWord_of rfl rfl, blockWord_of rfl rfl, blockWord_of rfl rfl, blockWord_of rfl rfl,
    blockWord_of rfl rfl, blockWord_of rfl rfl, blockWord_of rfl rfl, blockWord_of rfl rfl, blockWord_of rfl rfl, blockWord_of rfl rfl,
    blockWord_of rfl rfl, blockWord_of rfl rfl, blockWord_of rfl rfl, blockWord_of rfl rfl, blockWord_of rfl rfl, blockWord_of rfl rfl,
    blockWord_of rfl rfl, blockWord_of rfl rfl, blockWord_of rfl rfl, blockWord_of rfl rfl⟩

/-- Settles O8: every word is of the block form with the operation that the statement names. -/
theorem vectorPackedFloat : Obligations.VectorPackedFloat := by
  unfold Obligations.VectorPackedFloat
  intro d a b s
  exact ⟨blockWord_of rfl rfl, blockWord_of rfl rfl, blockWord_of rfl rfl, blockWord_of rfl rfl, blockWord_of rfl rfl, blockWord_of rfl rfl,
    blockWord_of rfl rfl, blockWord_of rfl rfl, blockWord_of rfl rfl, blockWord_of rfl rfl, blockWord_of rfl rfl, blockWord_of rfl rfl,
    blockWord_of rfl rfl, blockWord_of rfl rfl⟩

/-! ## Moves and inserts (04 R129) -/

/-- Lane n of the registers d + k replaced, k running over a list. -/
def Regs.insertLane (d n : Nat) (x : Word) (ks : List Nat) (r : Regs) : Regs :=
  ks.foldl (fun r k => r.setV (d + k) ((r.vreg (d + k)).setIfInBounds n x)) r

theorem Regs.insertLane_cons (d n : Nat) (x : Word) (k : Nat) (ks : List Nat) (r : Regs) :
    r.insertLane d n x (k :: ks) = (r.setV (d + k) ((r.vreg (d + k)).setIfInBounds n x)).insertLane d n x ks := rfl

theorem Regs.insertLane_eq (d n : Nat) (x : Word) : ∀ (ks : List Nat) (r : Regs),
    r.insertLane d n x ks = { r with v := (r.insertLane d n x ks).v }
  | [], _ => rfl
  | k :: ks, r => insertLane_eq d n x ks (r.setV (d + k) ((r.vreg (d + k)).setIfInBounds n x))

theorem Regs.insertLane_lane (d n : Nat) (x : Word) (m : Nat) (L : Fin 32) (ks : List Nat) (r : Regs) (hk : ∀ k ∈ ks, d + k < 128) :
    ((r.insertLane d n x ks).vreg m)[L] = if L.val = n ∧ ∃ k ∈ ks, m = d + k then x else (r.vreg m)[L] := by
  induction ks generalizing r with
  | nil => simp [insertLane]
  | cons k ks ih =>
    have hset : ((r.vreg (d + k)).setIfInBounds n x)[L] = if L.val = n then x else (r.vreg (d + k))[L] := by
      rw [Fin.getElem_fin, Vector.getElem_setIfInBounds L.isLt]
      simp only [eq_comm, Fin.getElem_fin]
    rw [insertLane_cons, ih _ fun j hj => hk j (List.mem_cons_of_mem _ hj), Regs.setV_vreg _ _ _ _ (hk k List.mem_cons_self)]
    by_cases hm : m = d + k
    · subst hm
      by_cases hL : L.val = n <;> simp [hset, hL]
    · simp only [hm, if_false, List.mem_cons, exists_eq_or_imp, false_or]

/-- Settles O13: all words but `vins` are of the block form; `vins` inserts one lane in every register of its block
(`Regs.insertLane_lane`). -/
theorem selectBroadcastMove : Obligations.SelectBroadcastMove := by
  unfold Obligations.SelectBroadcastMove
  intro d a b e k n p s
  refine ⟨blockWord_of rfl rfl, blockWord_of rfl rfl, blockWord_of rfl rfl, blockWord_of rfl rfl, blockWord_of rfl rfl, blockWord_of rfl rfl,
    ?vins⟩
  case vins =>
    intro h
    exact ⟨_, exec_word _ s h _ rfl rfl, rfl, Regs.insertLane_eq _ _ _ _ _, fun r L =>
      Regs.insertLane_lane _ _ _ r L _ s.g.r (mayIssue_dst _ s h _ List.mem_cons_self)⟩

end Sys2Proof.Machine
end

section
/-! Magnitudes (02 R35, R38, R44): the number that a magnitude code names, in units of the smallest one, and its order. -/

namespace Sys2Proof.Machine

/-! ## Scaling and order of exact values -/

theorem scaleTo_scaleTo {m : Nat} {e f g : Int} (hf : f ≤ e) (hg : g ≤ f) : scaleTo m e f * 2 ^ (f - g).toNat = scaleTo m e g := by
  rw [scaleTo, scaleTo, mul_assoc, ← pow_add]
  congr 2
  omega

theorem scaleTo_eq_zero_iff {m : Nat} {e g : Int} : scaleTo m e g = 0 ↔ m = 0 := by
  simp [scaleTo]

theorem signed_mul (s : Bool) (m k : Nat) : signed s (m * k) = signed s m * k := by
  cases s <;> simp [signed]

/-- Finite values in order, in any unit small enough for both (04 R120). -/
theorem XVal.fin_lt_iff {s t : Bool} {m n : Nat} {e f g : Int} (he : g ≤ e) (hf : g ≤ f) :
    (XVal.fin s m e).lt (.fin t n f) = true ↔ signed s (scaleTo m e g) < signed t (scaleTo n f g) ∨
      (signed s (scaleTo m e g) = signed t (scaleTo n f g) ∧ m = 0 ∧ s = true ∧ t = false) := by
  have hmin : (if e ≤ f then e else f) = min e f := by rw [min_def]
  have hpos : (0 : Int) < (2 ^ (min e f - g).toNat : Nat) := by exact_mod_cast Nat.two_pow_pos _
  rw [← scaleTo_scaleTo (min_le_left e f) (le_min he hf), ← scaleTo_scaleTo (min_le_right e f) (le_min he hf), signed_mul, signed_mul,
    mul_lt_mul_iff_left₀ hpos, mul_left_inj' hpos.ne']
  simp [XVal.lt, hmin, and_assoc]

/-! ## Magnitude codes -/

/-- The exponent of the smallest nonzero magnitude. -/
def Fmt.low (F : Fmt) : Int := if F.E = 0 then -F.bias else 1 - F.bias - F.M

/-- What a magnitude code names, in units of `F.low`. -/
def Fmt.level (F : Fmt) (c : Nat) : Nat :=
  if F.E = 0 ∨ c / 2 ^ F.M = 0 then c else (2 ^ F.M + c % 2 ^ F.M) * 2 ^ (c / 2 ^ F.M - 1)

section
variable (F : Fmt)

/-- From a code in a binade to the next is one unit of that binade, also across its end. -/
theorem Fmt.level_add {q k : Nat} (hE : F.E ≠ 0) (hlo : 2 ^ F.M ≤ q) (hhi : q ≤ 2 * 2 ^ F.M) : F.level (q + k * 2 ^ F.M) = q * 2 ^ k := by
  have hp : 0 < 2 ^ F.M := Nat.two_pow_pos _
  have hdiv : (q + k * 2 ^ F.M) / 2 ^ F.M = q / 2 ^ F.M + k := Nat.add_mul_div_right _ _ hp
  have hmod : (q + k * 2 ^ F.M) % 2 ^ F.M = q % 2 ^ F.M := Nat.add_mul_mod_self_right ..
  rcases hhi.lt_or_eq with hlt | heq
  case inl =>
    have h1 : q / 2 ^ F.M = 1 := Nat.div_eq_of_lt_le (by omega) (by omega)
    have h2 : 2 ^ F.M + q % 2 ^ F.M = q := by have := Nat.div_add_mod q (2 ^ F.M); rw [h1] at this; omega
    rw [level, if_neg (by simp [hE, hdiv, h1]), hmod, hdiv, h1, h2, Nat.add_sub_cancel_left]
  case inr =>
    have h1 : q / 2 ^ F.M = 2 := by rw [heq, Nat.mul_div_cancel _ hp]
    have h2 : q % 2 ^ F.M = 0 := by rw [heq, Nat.mul_mod_left]
    rw [level, if_neg (by simp [hE, hdiv, h1]), hmod, hdiv, h1, h2, heq, show 2 + k - 1 = k + 1 by omega, pow_succ]
    ring

/-- Up to the smallest normal value the codes are the numbers. -/
theorem Fmt.level_eq_self {c : Nat} (h : F.E = 0 ∨ c ≤ 2 ^ F.M) : F.level c = c := by
  rcases h with h | h
  · rw [level, if_pos (.inl h)]
  · rcases h.lt_or_eq with hlt | heq
    · rw [level, if_pos (.inr (Nat.div_eq_of_lt hlt))]
    · by_cases hE : F.E = 0
      · rw [level, if_pos (.inl hE)]
      · have := F.level_add (q := c) (k := 0) hE heq.ge (by omega)
        simpa using this

theorem Fmt.level_strictMono : StrictMono F.level := by
  refine strictMono_nat_of_lt_succ fun c => ?_
  by_cases h : F.E = 0 ∨ c < 2 ^ F.M
  case pos => rw [F.level_eq_self (h.imp_right Nat.le_of_lt), F.level_eq_self (h.imp_right id)]; omega
  case neg =>
    obtain ⟨hE, hc⟩ := not_or.mp h
    have hp : 0 < 2 ^ F.M := Nat.two_pow_pos _
    have hk : 1 ≤ c / 2 ^ F.M := (Nat.one_le_div_iff hp).mpr (by omega)
    have hr := Nat.mod_lt c hp
    have hc' : c = 2 ^ F.M + c % 2 ^ F.M + (c / 2 ^ F.M - 1) * 2 ^ F.M := by
      have := Nat.div_add_mod' c (2 ^ F.M)
      have : (c / 2 ^ F.M - 1) * 2 ^ F.M + 2 ^ F.M = c / 2 ^ F.M * 2 ^ F.M := by rw [← Nat.succ_mul]; congr 1; omega
      omega
    rw [hc', show ∀ a b : Nat, a + b + 1 = (a + 1) + b by omega, F.level_add hE (by omega) (by omega), F.level_add hE (by omega) (by omega)]
    exact Nat.mul_lt_mul_of_pos_right (Nat.lt_succ_self _) (Nat.two_pow_pos _)

/-- The exponents that `F.mag` names are not below that of the smallest magnitude. -/
theorem Fmt.low_le_mag (c : Nat) : F.low ≤ (F.mag c).2 := by
  unfold low mag
  split
  · exact le_rfl
  · split
    · exact le_rfl
    · dsimp only
      generalize c / 2 ^ F.M = k at *
      omega

/-- The number that a member's code names. -/
theorem Fmt.scaleTo_mag {c : Nat} (hc : F.member c) : scaleTo (F.mag c).1 (F.mag c).2 F.low = F.level c := by
  unfold member at hc
  unfold scaleTo mag low level
  by_cases hE : F.E = 0
  · simp [hE]
  · by_cases hk : c / 2 ^ F.M = 0
    · have hlt : c < 2 ^ F.M := (Nat.div_eq_zero_iff_lt (Nat.two_pow_pos F.M)).mp hk
      have : F.absent = false ∨ c = 0 := by grind
      rcases this with h | h <;> simp [hE, hk, h]
    · have : ((c / 2 ^ F.M : Nat) - F.bias - F.M - (1 - F.bias - F.M)).toNat = c / 2 ^ F.M - 1 := by omega
      simp only [hE, hk, if_false, or_self, this]

end

end Sys2Proof.Machine
end

section
/-! FP32 codes (02 R35-R39; 04 R109, R128): the value of a code, and the order of values as that of sign and magnitude. -/

namespace Sys2Proof.Machine

/-- The magnitude code of an FP32 register: all bits but the sign. -/
def code32 (x : Word) : Nat := x.toNat % 2 ^ 31

theorem getLsbD_eq_decide {w : Nat} (x : BitVec w) (i : Nat) : x.getLsbD i = decide (x.toNat / 2 ^ i % 2 = 1) := by
  rw [← BitVec.testBit_toNat, Nat.testBit_eq_decide_div_mod_eq]

theorem toNat_eq_code32 (x : Word) : x.toNat = code32 x + if x.getLsbD 31 then 2 ^ 31 else 0 := by
  have := x.isLt
  rw [getLsbD_eq_decide, code32]
  grind

theorem isNan32_iff (x : Word) : isNan32 x = true ↔ 0x7F800000 < code32 x := by
  have hx := x.isLt
  simp only [isNan32, code32, Bool.and_eq_true, beq_iff_eq, bne_iff_ne, BitVec.toNat_eq, ne_eq, BitVec.extractLsb'_toNat, BitVec.ofNat_eq_ofNat,
    BitVec.toNat_ofNat, Nat.shiftRight_eq_div_pow]
  omega

theorem and_magnitude_eq_zero_iff (x : Word) : x &&& 0x7FFFFFFF = 0 ↔ code32 x = 0 := by
  rw [BitVec.toNat_eq, BitVec.toNat_and, code32]
  exact Iff.of_eq (congrArg (· = 0) (Nat.and_two_pow_sub_one_eq_mod x.toNat 31))

/-- The value of an FP32 code: a NaN above the code of infinity, a number below it. -/
theorem f32_cases (x : Word) :
    (0x7F800000 < code32 x ∧ f32 x = .nan (x.getLsbD 31) (!x.getLsbD 22)) ∨
    (code32 x = 0x7F800000 ∧ f32 x = .inf (x.getLsbD 31)) ∨
    (code32 x < 0x7F800000 ∧ ∃ m e, f32 x = .fin (x.getLsbD 31) m e ∧ -149 ≤ e ∧ scaleTo m e (-149) = fp32.level (code32 x)) := by
  have hx := x.isLt
  have hs : (fp32.s && x.toNat / 2 ^ (fp32.E + fp32.M) % 2 == 1) = x.getLsbD 31 := by
    rw [getLsbD_eq_decide]; rfl
  have hq : decide (x.toNat % 2 ^ 31 % 2 ^ 23 / 2 ^ 22 = 0) = !x.getLsbD 22 := by
    rw [getLsbD_eq_decide, ← decide_not, decide_eq_decide]; omega
  have hf : f32 x = if code32 x / 2 ^ 23 = 255 then (if code32 x % 2 ^ 23 = 0 then .inf (x.getLsbD 31) else .nan (x.getLsbD 31) (!x.getLsbD 22))
      else .fin (x.getLsbD 31) (fp32.mag (code32 x)).1 (fp32.mag (code32 x)).2 := by
    rw [← hs, ← hq, f32, Fmt.value]
    simp only [show fp32.E = 8 from rfl, show fp32.M = 23 from rfl, show fp32.pol = 2 from rfl, code32, true_and]
    simp
  rcases lt_trichotomy 0x7F800000 (code32 x) with h | h | h
  case inl =>
    refine .inl ⟨h, ?_⟩
    rw [hf, if_pos (by unfold code32 at *; omega), if_neg (by unfold code32 at *; omega)]
  case inr.inl =>
    refine .inr (.inl ⟨h.symm, ?_⟩)
    rw [hf, ← h]; rfl
  case inr.inr =>
    refine .inr (.inr ⟨h, _, _, hf.trans (if_neg (by omega)), fp32.low_le_mag _, fp32.scaleTo_mag (.inr (.inl rfl))⟩)

theorem f32_of_nan {x : Word} (h : isNan32 x = true) : f32 x = .nan (x.getLsbD 31) (!x.getLsbD 22) := by
  rw [isNan32_iff] at h
  rcases f32_cases x with ⟨-, e⟩ | ⟨hc, -⟩ | ⟨hc, -⟩
  · exact e
  · omega
  · omega

/-- A number's own significand is zero where its code is. -/
theorem f32_significand {x : Word} {m : Nat} {e : Int} (h : scaleTo m e (-149) = fp32.level (code32 x)) : m = 0 ↔ code32 x = 0 := by
  rw [← scaleTo_eq_zero_iff (e := e) (g := -149), h]
  exact ⟨fun h0 => by have := fp32.level_strictMono.le_apply (x := code32 x); omega, fun h0 => by rw [h0]; rfl⟩

theorem f32_isNan (x : Word) : (f32 x).isNan = isNan32 x := by
  rw [Bool.eq_iff_iff, isNan32_iff]
  rcases f32_cases x with ⟨h, e⟩ | ⟨h, e⟩ | ⟨h, m, k, e, -⟩ <;> rw [e] <;> simp [XVal.isNan, h]
  omega

theorem f32_isZero (x : Word) : (f32 x).isZero = decide (code32 x = 0) := by
  rw [Bool.eq_iff_iff, decide_eq_true_iff]
  rcases f32_cases x with ⟨h, e⟩ | ⟨h, e⟩ | ⟨h, m, k, e, -, hm⟩
  · simp only [e, XVal.isZero, Bool.false_eq_true, false_iff]; omega
  · simp only [e, XVal.isZero, Bool.false_eq_true, false_iff]; omega
  · simpa only [e, XVal.isZero, beq_iff_eq] using f32_significand hm

theorem signed_strictMono_lt_iff {f : Nat → Nat} (hf : StrictMono f) (h0 : f 0 = 0) (s t : Bool) (a b : Nat) :
    signed s (f a) < signed t (f b) ↔ signed s a < signed t b := by
  have hab := hf.lt_iff_lt (a := a) (b := b)
  have hba := hf.lt_iff_lt (a := b) (b := a)
  have ha := hf.lt_iff_lt (a := 0) (b := a)
  have hb := hf.lt_iff_lt (a := 0) (b := b)
  cases s <;> cases t <;> simp only [signed, Bool.false_eq_true, if_true, if_false] <;> omega

/-- Values that are not NaN are in the order of their signs and magnitude codes. -/
theorem f32_lt_iff {u v : Word} (hu : isNan32 u = false) (hv : isNan32 v = false) :
    (f32 u).lt (f32 v) = true ↔ signed (u.getLsbD 31) (code32 u) < signed (v.getLsbD 31) (code32 v) ∨
      (code32 u = 0 ∧ code32 v = 0 ∧ u.getLsbD 31 = true ∧ v.getLsbD 31 = false) := by
  rw [← Bool.not_eq_true, isNan32_iff] at hu hv
  rcases f32_cases u with ⟨h, -⟩ | ⟨hu, eu⟩ | ⟨hu, m, e, eu, he, hm⟩
  · exact absurd h hu
  · rcases f32_cases v with ⟨h, -⟩ | ⟨hv, ev⟩ | ⟨hv, n, f, ev, hf, hn⟩
    · exact absurd h hv
    · rw [eu, ev, hu, hv]
      cases u.getLsbD 31 <;> cases v.getLsbD 31 <;> decide
    · rw [eu, ev, hu]
      cases u.getLsbD 31 <;> cases v.getLsbD 31 <;> simp [XVal.lt, signed] <;> omega
  · rcases f32_cases v with ⟨h, -⟩ | ⟨hv, ev⟩ | ⟨hv, n, f, ev, hf, hn⟩
    · exact absurd h hv
    · rw [eu, ev, hv]
      cases u.getLsbD 31 <;> cases v.getLsbD 31 <;> simp [XVal.lt, signed] <;> omega
    · rw [eu, ev, XVal.fin_lt_iff he hf, hm, hn, signed_strictMono_lt_iff fp32.level_strictMono rfl, f32_significand hm]
      refine or_congr_right ⟨fun ⟨heq, h0, hs, ht⟩ => ⟨h0, ?_, hs, ht⟩, fun ⟨h0, h0', hs, ht⟩ => ⟨?_, h0, hs, ht⟩⟩
      · have hle := fp32.level_strictMono.le_apply (x := code32 v)
        have hz : fp32.level 0 = 0 := rfl
        simp only [hs, ht, h0, hz, signed, if_true, Bool.false_eq_true, if_false] at heq
        omega
      · rw [hs, ht, h0, h0']; rfl

end Sys2Proof.Machine
end

section
/-! The vector compares (04 R128): of the form with a predicate result by lane, and for floats in the order of the FP32 codes. -/

namespace Sys2Proof.Machine

/-- A word with a predicate result by lane, whose bits on the registers it reads are x. -/
theorem lanePredWord_of {i : Instr} {s : State} {d : Nat} {f : Regs → Fin 32 → Bool} {x : Fin 32 → Bool} (hd : d < 8)
    (hi : exec i s = .next (lanePredWord (wordShapeOf i) d f s)) (hx : f s.src = x) (hf : isFifoWord i = false := by rfl) :
    LanePred i s d x :=
  fun h => hx ▸ lanePredWord_sets i s h d hd f hi hf

theorem fUn_eq (u v : Word) : fUn u v = (isNan32 u || isNan32 v) := by
  rw [fUn, f32_isNan, f32_isNan]

section
variable {u v : Word}

theorem fEq_of_nan (h : (isNan32 u || isNan32 v) = true) : fEq u v = false := by
  rw [fEq, fUn_eq, h]; rfl

theorem fLt_of_nan (h : (isNan32 u || isNan32 v) = true) : fLt u v = false := by
  rw [fLt, fUn_eq, h]; rfl

variable (hu : isNan32 u = false) (hv : isNan32 v = false) (hz : u &&& 0x7FFFFFFF ≠ 0 ∨ v &&& 0x7FFFFFFF ≠ 0)
include hu hv hz

/-- Numbers that are not both zero are equal where their codes are. -/
theorem fEq_iff : fEq u v = true ↔ u = v := by
  simp only [ne_eq, and_magnitude_eq_zero_iff] at hz
  rw [fEq, fUn_eq, hu, hv, f32_isZero, f32_isZero]
  simp only [Bool.or_self, Bool.not_false, Bool.true_and, Bool.or_eq_true, beq_iff_eq, Bool.and_eq_true, decide_eq_true_eq]
  exact or_iff_left (by tauto)

/-- Numbers that are not both zero are in the order of their codes, which falls with the code below zero. -/
theorem fLt_iff : fLt u v = true ↔ (if u.getLsbD 31 then (if v.getLsbD 31 then v.toNat < u.toNat else True)
    else (if v.getLsbD 31 then False else u.toNat < v.toNat)) := by
  simp only [ne_eq, and_magnitude_eq_zero_iff] at hz
  have hzero : ((f32 u).isZero && (f32 v).isZero) = false := by
    rw [f32_isZero, f32_isZero, ← Bool.decide_and, decide_eq_false_iff_not]; tauto
  rw [fLt, fUn_eq, hu, hv, hzero, Bool.or_self, Bool.not_false, Bool.true_and, Bool.true_and, f32_lt_iff hu hv, toNat_eq_code32 u,
    toNat_eq_code32 v]
  cases u.getLsbD 31 <;> cases v.getLsbD 31 <;> simp [signed]
  omega

end

/-- Settles O11: the words are of the form above with the relations that the statement names, and the float relations on codes are
`fEq_of_nan`, `fLt_of_nan`, `fEq_iff` and `fLt_iff`. -/
theorem vectorCompares : Obligations.VectorCompares := by
  unfold Obligations.VectorCompares
  intro p a b u v s
  have hp := p.isLt
  refine ⟨lanePredWord_of hp rfl rfl, lanePredWord_of hp rfl rfl, lanePredWord_of hp rfl rfl, lanePredWord_of hp rfl rfl,
    lanePredWord_of hp rfl rfl, lanePredWord_of hp rfl rfl, lanePredWord_of hp rfl rfl, lanePredWord_of hp rfl rfl,
    lanePredWord_of hp rfl rfl, lanePredWord_of hp rfl rfl, lanePredWord_of hp rfl ?un, lanePredWord_of hp rfl ?test,
    fun h => ⟨fEq_of_nan h, fLt_of_nan h⟩, rfl, rfl, fEq_iff, fLt_iff⟩
  case un => funext L; exact fUn_eq _ _
  case test => funext L; rw [Bool.eq_iff_iff, bne_iff_ne, decide_eq_true_iff]

end Sys2Proof.Machine
end

section
/-! The transcendental words (04 R121, R122): of the lane form, and with the values of R122 on their special inputs, which follow from the
value of the FP32 code alone. -/

namespace Sys2Proof.Machine

/-- A word of the lane form, whose values on the registers it reads are x. -/
theorem laneWord_of {i : Instr} {s : State} {d : Nat} {f : Regs → Fin 32 → Word × Flags} {x : Fin 32 → Word × Flags} (hd : d < 128)
    (hi : exec i s = .next (laneWord (wordShapeOf i) d f s)) (hx : f s.src = x) (hf : isFifoWord i = false := by rfl) :
    LaneResult i s d x :=
  fun h => hx ▸ laneWord_sets i s h d hd f hi hf

/-- A NaN gives the canonical one, and is invalid where it signals. -/
theorem apx_nan {x : Word} (h : isNan32 x = true) {g : Word → Word × Flags} (hg : g = apxExp2 ∨ g = apxLog2 ∨ g = apxRcp ∨ g = apxRsqrt) :
    g x = (0x7FC00000, flagIf (!x.getLsbD 22) fInvalid) := by
  rcases hg with rfl | rfl | rfl | rfl
  · rw [apxExp2, f32_of_nan h]; rfl
  · rw [apxLog2, f32_of_nan h]; rfl
  · rw [apxRcp, f32_of_nan h]; rfl
  · rw [apxRsqrt, f32_of_nan h]; rfl

theorem sign_of_lt {x : Word} (h : x.toNat < 2 ^ 31) : x.getLsbD 31 = false ∧ code32 x = x.toNat := by
  rw [getLsbD_eq_decide, code32]
  exact ⟨decide_eq_false (by omega), by omega⟩

theorem sign_of_ge {x : Word} (h : 2 ^ 31 ≤ x.toNat) : x.getLsbD 31 = true ∧ code32 x = x.toNat - 2 ^ 31 := by
  have := x.isLt
  rw [getLsbD_eq_decide, code32]
  exact ⟨decide_eq_true (by omega), by omega⟩

/-- 128 is the number of its code, and so below the numbers of higher codes. -/
theorem ofInt_128_lt {m : Nat} {e : Int} {c : Nat} (he : -149 ≤ e) (hm : scaleTo m e (-149) = fp32.level c) (hc : 0x43000000 < c) :
    (XVal.ofInt 128).lt (.fin false m e) = true := by
  have h128 : scaleTo (128 : Int).natAbs 0 (-149) = fp32.level 0x43000000 := rfl
  rw [XVal.ofInt, XVal.fin_lt_iff (by decide : (-149 : Int) ≤ 0) he, hm, h128]
  exact .inl (Int.ofNat_lt.mpr (fp32.level_strictMono hc))

/-- -150 is the number of its code, and so above the numbers of higher codes. -/
theorem lt_ofInt_neg150 {m : Nat} {e : Int} {c : Nat} (he : -149 ≤ e) (hm : scaleTo m e (-149) = fp32.level c) (hc : 0x43160000 < c) :
    (XVal.fin true m e).lt (XVal.ofInt (-150)) = true := by
  have h150 : scaleTo (-150 : Int).natAbs 0 (-149) = fp32.level 0x43160000 := rfl
  rw [XVal.ofInt, XVal.fin_lt_iff he (by decide : (-149 : Int) ≤ 0), hm, h150]
  exact .inl (Int.neg_lt_neg (Int.ofNat_lt.mpr (fp32.level_strictMono hc)))

/-- From 128 up 2^x is beyond the largest number. -/
theorem apxExp2_above {x : Word} (hlo : 0x43000000 ≤ x.toNat) (hhi : x.toNat < 0x7F800000) : apxExp2 x = (0x7F800000, 0) := by
  obtain ⟨hs, hc⟩ := sign_of_lt (x := x) (by omega)
  rcases f32_cases x with ⟨h, -⟩ | ⟨h, -⟩ | ⟨-, m, e, hx, he, hm⟩
  · omega
  · omega
  · have hm0 : m ≠ 0 := by rw [ne_eq, f32_significand hm]; omega
    have hbig : (!false && (XVal.ofInt 128).lt (.fin false m e) || decide (x = 0x43000000)) = true := by
      rcases eq_or_ne x 0x43000000 with h | h
      · rw [decide_eq_true h, Bool.or_true]
      · rw [ofInt_128_lt he hm (hc ▸ lt_of_le_of_ne hlo fun h' => h (BitVec.eq_of_toNat_eq h'.symm))]; rfl
    rw [hs] at hx
    simp only [apxExp2, hx, hm0, if_false, hbig, if_true]

/-- Below -150 2^x is nearer to zero than to the smallest number. -/
theorem apxExp2_below {x : Word} (hlo : 0xC3160000 < x.toNat) (hhi : x.toNat < 0xFF800000) : apxExp2 x = (0, 0) := by
  obtain ⟨hs, hc⟩ := sign_of_ge (x := x) (by omega)
  rcases f32_cases x with ⟨h, -⟩ | ⟨h, -⟩ | ⟨-, m, e, hx, he, hm⟩
  · omega
  · omega
  · have hm0 : m ≠ 0 := by rw [ne_eq, f32_significand hm]; omega
    have hne : x ≠ 0x43000000 := by rintro rfl; exact absurd hlo (by decide)
    rw [hs] at hx
    simp only [apxExp2, hx, hm0, if_false, Bool.not_true, Bool.false_and, Bool.false_or, hne, decide_false, Bool.false_eq_true,
      lt_ofInt_neg150 he hm (by omega), if_true]

/-- Below zero there is no logarithm and no root. -/
theorem apxLog2_rsqrt_negative {x : Word} (hlo : 0x80000000 < x.toNat) (hhi : x.toNat ≤ 0xFF800000) :
    apxLog2 x = (0x7FC00000, fInvalid) ∧ apxRsqrt x = (0x7FC00000, fInvalid) := by
  obtain ⟨hs, hc⟩ := sign_of_ge (x := x) (by omega)
  rcases f32_cases x with ⟨h, -⟩ | ⟨h, hx⟩ | ⟨-, m, e, hx, he, hm⟩
  · omega
  · rw [apxLog2, apxRsqrt, hx, hs]; exact ⟨rfl, rfl⟩
  · have hm0 : m ≠ 0 := by rw [ne_eq, f32_significand hm]; omega
    rw [apxLog2, apxRsqrt, hx, hs]
    simp only [hm0, if_false, if_true]
    exact ⟨rfl, rfl⟩

/-- Settles O7: the four words are of the lane form; a NaN, the ranges of `vexp2.apx` and the inputs below zero are the lemmas above, and the
infinities and zeros are evaluated. -/
theorem transcendentalWords : Obligations.TranscendentalWords := by
  unfold Obligations.TranscendentalWords
  refine ⟨fun d a l s => ?words, fun x => ⟨fun g h hg => apx_nan h hg, ?exp2, apxExp2_above, apxExp2_below, ?log2, apxLog2_rsqrt_negative,
    ?rcp, ?rsqrt⟩⟩
  case words =>
    have hd := d.isLt
    exact ⟨laneWord_of hd rfl rfl, laneWord_of hd rfl rfl, laneWord_of hd rfl rfl, laneWord_of hd rfl rfl⟩
  case exp2 => exact ⟨rfl, rfl, rfl, rfl⟩
  case log2 => exact ⟨rfl, rfl, rfl⟩
  case rcp => exact ⟨rfl, rfl, rfl, rfl⟩
  case rsqrt => exact ⟨rfl, rfl, rfl⟩

end Sys2Proof.Machine
end

section
/-! Conversion of FP32 to an integer (04 R127): the magnitude is rounded by its mode, and clipped. -/

namespace Sys2Proof.Machine

/-- An integral magnitude rounds to itself. -/
theorem intMag_integral (m : RMode) (r : Half) (n : Bool) (k q : Nat) : intMag m r n (k * 2 ^ q) (-(q : Int)) = (k, false) := by
  have hp : 0 < 2 ^ q := Nat.two_pow_pos q
  unfold intMag
  split
  case isTrue h =>
    obtain rfl : q = 0 := by omega
    simp
  case isFalse h =>
    simp only [neg_neg, Int.toNat_natCast, Nat.mul_div_cancel _ hp, Nat.mul_mod_left, if_true]

/-- A magnitude between two integers rounds to the one that the mode picks. -/
theorem intMag_between (m : RMode) (r : Half) (n : Bool) (k q j : Nat) (h0 : 0 < j) (hj : j < 2 ^ q) :
    intMag m r n (k * 2 ^ q + j) (-(q : Int)) = (if pickUp m n (k % 2 == 0) ((k + 1) % 2 == 0) j q r then k + 1 else k, true) := by
  have hq : ¬0 ≤ -(q : Int) := by
    rcases q.eq_zero_or_pos with rfl | h
    · simp at hj; omega
    · omega
  have hdiv : (k * 2 ^ q + j) / 2 ^ q = k := by
    rw [Nat.add_comm, Nat.add_mul_div_right _ _ (by omega), Nat.div_eq_of_lt hj, Nat.zero_add]
  have hmod : (k * 2 ^ q + j) % 2 ^ q = j := by
    rw [Nat.add_comm, Nat.add_mul_mod_self_right, Nat.mod_eq_of_lt hj]
  have hodd : (k % 2 == 1) = ((k + 1) % 2 == 0) := by
    rw [Bool.eq_iff_iff, beq_iff_eq, beq_iff_eq]; omega
  simp only [intMag, if_neg hq, neg_neg, Int.toNat_natCast, hdiv, hmod, h0.ne', if_false, hodd]

/-- A magnitude of 2^40 or more stays so large. -/
theorem intMag_large (m : RMode) (r : Half) (n : Bool) {k : Nat} {e : Int} (hk : k ≠ 0) (h : 40 ≤ XVal.log2 k e) :
    2 ^ 40 ≤ (intMag m r n k e).1 := by
  have hlog : 2 ^ k.log2 ≤ k := Nat.log2_self_le hk
  unfold XVal.log2 at h
  unfold intMag
  split
  case isTrue he =>
    calc 2 ^ 40 ≤ 2 ^ (k.log2 + e.toNat) := Nat.pow_le_pow_right (by decide) (by omega)
      _ = 2 ^ k.log2 * 2 ^ e.toNat := pow_add ..
      _ ≤ k * 2 ^ e.toNat := Nat.mul_le_mul_right _ hlog
  case isFalse he =>
    have hq : 2 ^ 40 ≤ k / 2 ^ (-e).toNat := (Nat.le_div_iff_mul_le (Nat.two_pow_pos _)).mpr <|
      calc 2 ^ 40 * 2 ^ (-e).toNat = 2 ^ (40 + (-e).toNat) := (pow_add ..).symm
        _ ≤ 2 ^ k.log2 := Nat.pow_le_pow_right (by decide) (by omega)
        _ ≤ k := hlog
    dsimp only
    split
    · exact hq
    · dsimp only; split <;> omega

/-- A number becomes the integer its magnitude rounds to, clipped between bounds of less than 2^40: the model's shortcut for large numbers
answers what clipping would. -/
theorem xtoInt_fin (m : RMode) (r : Half) {lo hi : Int} (n : Bool) (k : Nat) (e : Int) (hlo : -(2 ^ 40 : Nat) < lo)
    (hhi : hi < (2 ^ 40 : Nat)) (hle : lo ≤ hi) :
    xtoInt m r lo hi (.fin n k e) = if hi < signed n (intMag m r n k e).1 then (hi, fInvalid)
      else if signed n (intMag m r n k e).1 < lo then (lo, fInvalid)
      else (signed n (intMag m r n k e).1, flagIf (intMag m r n k e).2 fInexact) := by
  unfold xtoInt
  dsimp only
  split
  case isFalse => rfl
  case isTrue h =>
    have hl := intMag_large m r n h.2 h.1
    cases n
    · simp only [signed, Bool.false_eq_true, if_false]
      rw [if_pos (by omega)]
    · simp only [signed, if_true]
      rw [if_neg (by omega), if_pos (by omega)]

theorem toI32_eq (m : RMode) (r : Half) (x : Word) : toI32 m r x =
    (BitVec.ofInt 32 (xtoInt m r (-2147483648) 2147483647 (f32 x)).1, (xtoInt m r (-2147483648) 2147483647 (f32 x)).2) := rfl

theorem toN32_eq (m : RMode) (r : Half) (x : Word) : toN32 m r x =
    (BitVec.ofInt 32 (xtoInt m r 0 4294967295 (f32 x)).1, (xtoInt m r 0 4294967295 (f32 x)).2) := rfl

theorem toI32_fin {x : Word} {n : Bool} {k : Nat} {e : Int} (m : RMode) (r : Half) (h : f32 x = .fin n k e) :
    toI32 m r x = if 2147483647 < signed n (intMag m r n k e).1 then (0x7FFFFFFF, fInvalid)
      else if signed n (intMag m r n k e).1 < -2147483648 then (0x80000000, fInvalid)
      else (BitVec.ofInt 32 (signed n (intMag m r n k e).1), flagIf (intMag m r n k e).2 fInexact) := by
  rw [toI32_eq, h, xtoInt_fin m r n k e (by decide) (by decide) (by decide)]
  split_ifs <;> rfl

theorem toN32_fin {x : Word} {n : Bool} {k : Nat} {e : Int} (m : RMode) (r : Half) (h : f32 x = .fin n k e) :
    toN32 m r x = if 4294967295 < signed n (intMag m r n k e).1 then (0xFFFFFFFF, fInvalid)
      else if signed n (intMag m r n k e).1 < 0 then (0, fInvalid)
      else (BitVec.ofInt 32 (signed n (intMag m r n k e).1), flagIf (intMag m r n k e).2 fInexact) := by
  rw [toN32_eq, h, xtoInt_fin m r n k e (by decide) (by decide) (by decide)]
  split_ifs <;> rfl

theorem toInt_nan {x : Word} (m : RMode) (r : Half) (h : isNan32 x = true) : toI32 m r x = (0, fInvalid) ∧ toN32 m r x = (0, fInvalid) := by
  rw [toI32, toN32, f32_of_nan h]; exact ⟨rfl, rfl⟩

/-- Settles O10: a number is `toI32_fin` and `toN32_fin`, whose magnitude rounds by `intMag_integral` and `intMag_between`; the infinities are
evaluated. -/
theorem floatToInteger : Obligations.FloatToInteger := by
  unfold Obligations.FloatToInteger
  intro x m r
  refine ⟨toInt_nan m r, ?posInf, ?negInf, fun n k e h => ⟨toI32_fin m r h, toN32_fin m r h⟩, intMag_integral m r, intMag_between m r⟩
  case posInf => rintro rfl; exact ⟨rfl, rfl⟩
  case negInf => rintro rfl; exact ⟨rfl, rfl⟩

end Sys2Proof.Machine
end

section
/-! Rounding (02 R44, R427) and the conversions that use it (04 R124-R126). Every nonzero number is a member of its format or lies between two
neighbours (`Fmt.roundMag_spec`), and what the mode then takes is the member that the statements name (`Fmt.Exactly.chosen`,
`Fmt.Between.chosen`). -/

namespace Sys2Proof.Machine

/-! ## Whole units of a number -/

/-- How many whole units of 2^u a number m × 2^e has. -/
def wholeUnits (m : Nat) (e u : Int) : Nat := m * 2 ^ (e - u).toNat / 2 ^ (u - e).toNat

section
variable {m j : Nat} {e u g : Int}

theorem wholeUnits_of_le (h : u ≤ e) : wholeUnits m e u = scaleTo m e u := by
  rw [wholeUnits, scaleTo, Int.toNat_of_nonpos (by omega : u - e ≤ 0), pow_zero, Nat.div_one]

theorem wholeUnits_of_lt (h : e < u) : wholeUnits m e u = m / 2 ^ (u - e).toNat := by
  rw [wholeUnits, Int.toNat_of_nonpos (by omega : e - u ≤ 0), pow_zero, mul_one]

theorem two_pow_le_wholeUnits (hm : m ≠ 0) (h : (j : Int) ≤ XVal.log2 m e - u) : 2 ^ j ≤ wholeUnits m e u := by
  unfold XVal.log2 at h
  refine (Nat.le_div_iff_mul_le (Nat.two_pow_pos _)).mpr ?_
  calc 2 ^ j * 2 ^ (u - e).toNat = 2 ^ (j + (u - e).toNat) := (pow_add ..).symm
    _ ≤ 2 ^ (m.log2 + (e - u).toNat) := Nat.pow_le_pow_right (by decide) (by omega)
    _ = 2 ^ m.log2 * 2 ^ (e - u).toNat := pow_add ..
    _ ≤ m * 2 ^ (e - u).toNat := Nat.mul_le_mul_right _ (Nat.log2_self_le hm)

theorem wholeUnits_lt_two_pow (h : XVal.log2 m e - u < j) : wholeUnits m e u < 2 ^ j := by
  unfold XVal.log2 at h
  refine (Nat.div_lt_iff_lt_mul (Nat.two_pow_pos _)).mpr ?_
  calc m * 2 ^ (e - u).toNat < 2 ^ (m.log2 + 1) * 2 ^ (e - u).toNat := Nat.mul_lt_mul_of_pos_right Nat.lt_log2_self (Nat.two_pow_pos _)
    _ = 2 ^ (m.log2 + 1 + (e - u).toNat) := (pow_add ..).symm
    _ ≤ 2 ^ (j + (u - e).toNat) := Nat.pow_le_pow_right (by decide) (by omega)
    _ = 2 ^ j * 2 ^ (u - e).toNat := pow_add ..

/-- The top bit tells whether a number lies below a power of two. -/
theorem log2_lt_iff (hm : m ≠ 0) (he : g ≤ e) (hu : g ≤ u) : XVal.log2 m e < u ↔ scaleTo m e g < scaleTo 1 u g := by
  have h1 : scaleTo 1 u g = 2 ^ (u - g).toNat := Nat.one_mul _
  rw [← wholeUnits_of_le he, h1]
  constructor
  · exact fun h => wholeUnits_lt_two_pow (by omega)
  · intro h
    by_contra hge
    have := two_pow_le_wholeUnits (j := (u - g).toNat) (e := e) (u := g) hm (by omega)
    omega

/-- In units not above its own a number is whole. -/
theorem scaleTo_of_le (hu : u ≤ e) (hg : g ≤ u) : scaleTo m e g = wholeUnits m e u * 2 ^ (u - g).toNat := by
  rw [← scaleTo_scaleTo hu hg, wholeUnits_of_le hu]

/-- In larger units a part is left over. -/
theorem scaleTo_of_lt (hu : e < u) (hg : g ≤ e) : scaleTo m e g =
    wholeUnits m e u * 2 ^ (u - g).toNat + m % 2 ^ (u - e).toNat * 2 ^ (e - g).toNat := by
  have hsplit : (u - g).toNat = (u - e).toNat + (e - g).toNat := by omega
  rw [wholeUnits_of_lt hu, hsplit, pow_add, ← mul_assoc, ← Nat.add_mul, Nat.div_add_mod', scaleTo]

end

/-! ## Members of a format, in units of the grid -/

section
variable (F : Fmt)

theorem Fmt.grid_le (e : Int) : F.grid e ≤ e := min_le_left ..

theorem Fmt.grid_le_low (e : Int) : F.grid e ≤ F.low := by
  unfold grid low emin
  split <;> omega

theorem Fmt.grid_le_emin (e : Int) : F.grid e ≤ F.emin := by
  unfold grid; omega

variable {F} {e : Int}

theorem Fmt.member_zero : F.member 0 := .inr (.inr (.inl rfl))

theorem Fmt.member_of_le {c : Nat} (h : 2 ^ F.M ≤ c) : F.member c := .inr (.inr (.inr h))

theorem Fmt.magAt_eq {c : Nat} (hc : F.member c) : F.magAt e c = F.level c * 2 ^ (F.low - F.grid e).toNat := by
  rw [magAt, ← scaleTo_scaleTo (F.low_le_mag c) (F.grid_le_low e), F.scaleTo_mag hc]

theorem Fmt.magAt_lt {a b : Nat} (ha : F.member a) (hb : F.member b) (h : a < b) : F.magAt e a < F.magAt e b := by
  rw [magAt_eq ha, magAt_eq hb]
  exact Nat.mul_lt_mul_of_pos_right (F.level_strictMono h) (Nat.two_pow_pos _)

theorem Fmt.magAt_le {a b : Nat} (ha : F.member a) (hb : F.member b) (h : a ≤ b) : F.magAt e a ≤ F.magAt e b := by
  rcases h.lt_or_eq with h | h
  · exact (magAt_lt ha hb h).le
  · rw [h]

theorem Fmt.magAt_of_level {c q : Nat} {u : Int} (hc : F.member c) (hu : F.low ≤ u) (h : F.level c = q * 2 ^ (u - F.low).toNat) :
    F.magAt e c = q * 2 ^ (u - F.grid e).toNat := by
  have := F.grid_le_low e
  rw [magAt_eq hc, h, mul_assoc, ← pow_add]
  congr 2
  omega

/-! ## The neighbours of a number -/

/-- The number is the member c. -/
structure Fmt.Exactly (F : Fmt) (m : Nat) (e : Int) (c : Nat) : Prop where
  mem : F.member c
  value : F.magAt e c = scaleTo m e (F.grid e)

/-- The number lies r / 2^d of the way from the member lo to the next one, hi. -/
structure Fmt.Between (F : Fmt) (m : Nat) (e : Int) (lo hi r d : Nat) : Prop where
  memLo : F.member lo
  memHi : F.member hi
  lt : lo < hi
  next : ∀ x, F.member x → x ≤ lo ∨ hi ≤ x
  parity : lo % 2 = 1 → hi % 2 = 0
  pos : 0 < r
  below : r < 2 ^ d
  value : ∃ k, 0 < k ∧ scaleTo m e (F.grid e) = F.magAt e lo + r * k ∧ F.magAt e hi = F.magAt e lo + 2 ^ d * k

section
variable {m lo hi r d : Nat} {mode : RMode} {neg : Bool}

theorem Fmt.Exactly.gapTo {c : Nat} (h : F.Exactly m e c) : F.gapTo m e c = 0 := by
  rw [Fmt.gapTo, h.value, sub_self, Int.natAbs_zero]

theorem Fmt.Exactly.below {c : Nat} (h : F.Exactly m e c) : F.Below m e c := by
  refine ⟨h.mem, h.value.le, fun x hx hle => ?_⟩
  by_contra hc
  have := magAt_lt (e := e) h.mem hx (by omega)
  have := h.value
  omega

theorem Fmt.Exactly.above {c : Nat} (h : F.Exactly m e c) : F.Above m e c := by
  refine ⟨h.mem, h.value.ge, fun x hx hle => ?_⟩
  by_contra hc
  have := magAt_lt (e := e) hx h.mem (by omega)
  have := h.value
  omega

theorem Fmt.Exactly.nearest {c : Nat} (h : F.Exactly m e c) : F.Nearest m e c := by
  refine ⟨h.mem, fun x hx hne => .inl ?_⟩
  rw [h.gapTo, Fmt.gapTo, ← h.value]
  rcases Nat.lt_or_gt_of_ne hne with hlt | hlt
  · have := magAt_lt (e := e) hx h.mem hlt; omega
  · have := magAt_lt (e := e) h.mem hx hlt; omega

/-- Every mode selects the member that the number is. -/
theorem Fmt.Exactly.chosen {c : Nat} (h : F.Exactly m e c) : F.Chosen mode neg m e c := by
  cases mode with
  | rne => exact h.nearest
  | rz => exact h.below
  | rd => cases neg with
    | false => exact h.below
    | true => exact h.above
  | ru => cases neg with
    | false => exact h.above
    | true => exact h.below
  | rs => exact .inl h.below

/-- A number between two members is neither. -/
theorem Fmt.Between.strict (h : F.Between m e lo hi r d) : F.magAt e lo < scaleTo m e (F.grid e) ∧ scaleTo m e (F.grid e) < F.magAt e hi := by
  obtain ⟨k, hk, hv, hh⟩ := h.value
  have := Nat.mul_pos h.pos hk
  have := Nat.mul_lt_mul_of_pos_right h.below hk
  omega

theorem Fmt.Between.gapTo_lo_ne (h : F.Between m e lo hi r d) : F.gapTo m e lo ≠ 0 := by
  have := h.strict; unfold Fmt.gapTo; omega

theorem Fmt.Between.gapTo_hi_ne (h : F.Between m e lo hi r d) : F.gapTo m e hi ≠ 0 := by
  have := h.strict; unfold Fmt.gapTo; omega

theorem Fmt.Between.lo_below (h : F.Between m e lo hi r d) : F.Below m e lo := by
  obtain ⟨h1, h2⟩ := h.strict
  refine ⟨h.memLo, h1.le, fun x hx hle => (h.next x hx).resolve_right fun hge => ?_⟩
  have := magAt_le (e := e) h.memHi hx hge
  omega

theorem Fmt.Between.hi_above (h : F.Between m e lo hi r d) : F.Above m e hi := by
  obtain ⟨h1, h2⟩ := h.strict
  refine ⟨h.memHi, h2.le, fun x hx hle => (h.next x hx).resolve_left fun hge => ?_⟩
  have := magAt_le (e := e) hx h.memLo hge
  omega

/-- Below, at and above half of the way. -/
theorem Fmt.Between.midpoint (h : F.Between m e lo hi r d) :
    (2 * r < 2 ^ d → 2 * scaleTo m e (F.grid e) < F.magAt e lo + F.magAt e hi) ∧
    (2 * r = 2 ^ d → 2 * scaleTo m e (F.grid e) = F.magAt e lo + F.magAt e hi) ∧
    (2 ^ d < 2 * r → F.magAt e lo + F.magAt e hi < 2 * scaleTo m e (F.grid e)) := by
  obtain ⟨k, hk, hv, hh⟩ := h.value
  have hassoc : 2 * r * k = 2 * (r * k) := mul_assoc ..
  refine ⟨fun hr => ?_, fun hr => ?_, fun hr => ?_⟩
  · have := Nat.mul_lt_mul_of_pos_right hr hk; omega
  · have : 2 * r * k = 2 ^ d * k := by rw [hr]
    omega
  · have := Nat.mul_lt_mul_of_pos_right hr hk; omega

theorem Fmt.Between.lo_nearest (h : F.Between m e lo hi r d) (hr : 2 * r < 2 ^ d ∨ (2 * r = 2 ^ d ∧ lo % 2 = 0 ∧ hi % 2 = 1)) :
    F.Nearest m e lo := by
  obtain ⟨hlo, hhi⟩ := h.strict
  obtain ⟨hless, htie, -⟩ := h.midpoint
  have hgap := hr.imp hless (And.imp_left htie)
  refine ⟨h.memLo, fun x hx hne => ?_⟩
  unfold Fmt.gapTo
  rcases h.next x hx with hle | hge
  · have := magAt_lt (e := e) hx h.memLo (by omega)
    omega
  · rcases hge.lt_or_eq with hlt | rfl
    · have := magAt_lt (e := e) h.memHi hx hlt
      omega
    · omega

theorem Fmt.Between.hi_nearest (h : F.Between m e lo hi r d) (hr : 2 ^ d < 2 * r ∨ (2 * r = 2 ^ d ∧ hi % 2 = 0)) : F.Nearest m e hi := by
  obtain ⟨hlo, hhi⟩ := h.strict
  obtain ⟨-, htie, hmore⟩ := h.midpoint
  have hgap := hr.imp hmore (And.imp_left htie)
  have hlt := h.lt
  refine ⟨h.memHi, fun x hx hne => ?_⟩
  unfold Fmt.gapTo
  rcases h.next x hx with hle | hge
  · rcases hle.lt_or_eq with hlt | rfl
    · have := magAt_lt (e := e) hx h.memLo hlt
      omega
    · omega
  · have := magAt_lt (e := e) h.memHi hx (by omega)
    omega

/-- The choice between the neighbours is the one that the mode names. -/
theorem Fmt.Between.chosen (h : F.Between m e lo hi r d) (rnd : Half) :
    F.Chosen mode neg m e (if pickUp mode neg (lo % 2 == 0) (hi % 2 == 0) r d rnd then hi else lo) := by
  cases mode with
  | rne =>
    have hpar := h.parity
    show F.Nearest m e _
    split
    case isTrue hup =>
      refine h.hi_nearest ?_
      by_cases htie : 2 * r = 2 ^ d
      · refine .inr ⟨htie, ?_⟩
        simp only [pickUp, htie, if_true, Bool.or_eq_true, beq_iff_eq, Bool.not_eq_true', beq_eq_false_iff_ne] at hup
        omega
      · simp only [pickUp, htie, if_false, decide_eq_true_eq] at hup
        exact .inl hup
    case isFalse hup =>
      refine h.lo_nearest ?_
      by_cases htie : 2 * r = 2 ^ d
      · refine .inr ⟨htie, ?_⟩
        simp only [pickUp, htie, if_true, Bool.or_eq_true, beq_iff_eq, Bool.not_eq_true', beq_eq_false_iff_ne] at hup
        omega
      · simp only [pickUp, htie, if_false, decide_eq_true_eq] at hup
        exact .inl (by omega)
  | rz => exact h.lo_below
  | rd => cases neg with
    | false => exact h.lo_below
    | true => exact h.hi_above
  | ru => cases neg with
    | false => exact h.hi_above
    | true => exact h.lo_below
  | rs =>
    show F.Below m e _ ∨ F.Above m e _
    split
    · exact .inr h.hi_above
    · exact .inl h.lo_below

end

/-! ## The neighbours that `Fmt.roundMag` finds -/

/-- The unit next to a number. Either the number lies below the smallest normal value of a format without subnormals; or the
codes of the whole units and of one unit more name just these. -/
theorem Fmt.unit_cases {m : Nat} (hm : m ≠ 0) :
    (F.unit (XVal.log2 m e) = (F.low + F.M, true) ∧ F.E ≠ 0 ∧ F.absent = true ∧ XVal.log2 m e < F.low + F.M) ∨
    ∃ u c, F.unit (XVal.log2 m e) = (u, false) ∧ F.low ≤ u ∧ F.codes (XVal.log2 m e) false (wholeUnits m e u) = (c, c + 1) ∧
      F.member c ∧ F.member (c + 1) ∧ F.level c = wholeUnits m e u * 2 ^ (u - F.low).toNat ∧
      F.level (c + 1) = (wholeUnits m e u + 1) * 2 ^ (u - F.low).toNat := by
  by_cases hE : F.E = 0
  case pos =>
    have hlow : F.low = -F.bias := if_pos hE
    refine .inr ⟨F.low, wholeUnits m e F.low, by simp [unit, hE, hlow], le_rfl, by simp [codes, hE], .inl hE, .inl hE, ?_⟩
    simp [F.level_eq_self (.inl hE)]
  case neg =>
    have hlow : F.low = 1 - F.bias - F.M := if_neg hE
    by_cases ht : XVal.log2 m e < 1 - F.bias
    case pos =>
      cases ha : F.absent with
      | true => exact .inl ⟨by simp [unit, hE, ht, ha, hlow], hE, rfl, by omega⟩
      | false =>
        have hq : wholeUnits m e F.low < 2 ^ F.M := wholeUnits_lt_two_pow (by omega)
        refine .inr ⟨F.low, wholeUnits m e F.low, by simp [unit, hE, ht, ha, hlow], le_rfl, by simp [codes, ht], .inr (.inl ha),
          .inr (.inl ha), ?_⟩
        simp [F.level_eq_self (.inr hq.le), F.level_eq_self (.inr hq)]
    case neg =>
      have hlo : 2 ^ F.M ≤ wholeUnits m e (XVal.log2 m e - F.M) := two_pow_le_wholeUnits hm (by omega)
      have hhi : wholeUnits m e (XVal.log2 m e - F.M) < 2 ^ (F.M + 1) := wholeUnits_lt_two_pow (by omega)
      have hk : (XVal.log2 m e - F.M - F.low).toNat = (XVal.log2 m e - (1 - F.bias)).toNat := by congr 1; omega
      rw [pow_succ'] at hhi
      refine .inr ⟨XVal.log2 m e - F.M, wholeUnits m e (XVal.log2 m e - F.M) + (XVal.log2 m e - (1 - F.bias)).toNat * 2 ^ F.M,
        by simp [unit, hE, ht], by omega, by simp [codes, hE, ht], ?_⟩
      rw [hk, Nat.add_right_comm]
      exact ⟨member_of_le (by omega), member_of_le (by omega), F.level_add hE hlo (by omega), F.level_add hE (by omega) (by omega)⟩

/-- What `Fmt.roundMag` answers, once its unit and the codes next to the number are known. -/
theorem Fmt.roundMag_eq {m : Nat} {u : Int} {gap : Bool} {lo hi : Nat} (mode : RMode) (rnd : Half) (neg : Bool)
    (hu : F.unit (XVal.log2 m e) = (u, gap)) (hc : F.codes (XVal.log2 m e) gap (wholeUnits m e u) = (lo, hi)) :
    F.roundMag mode rnd neg m e = if u ≤ e ∨ m % 2 ^ (u - e).toNat = 0 then (lo, false)
      else (if pickUp mode neg (lo % 2 == 0) (hi % 2 == 0) (m % 2 ^ (u - e).toNat) (u - e).toNat rnd then hi else lo, true) := by
  unfold roundMag
  dsimp only
  rw [hu]
  by_cases hle : u ≤ e
  · rw [wholeUnits_of_le hle] at hc
    simp only [hle, if_true, true_or, hc]
  · rw [wholeUnits_of_lt (by omega)] at hc
    simp only [hle, if_false, false_or, hc]

/-- A nonzero magnitude is a member, and rounds to itself; or it lies between two neighbours, and rounds to the one that the mode picks. -/
theorem Fmt.roundMag_spec {m : Nat} (hm : m ≠ 0) (mode : RMode) (rnd : Half) (neg : Bool) :
    (∃ c, F.Exactly m e c ∧ F.roundMag mode rnd neg m e = (c, false)) ∨
    ∃ lo hi r d, F.Between m e lo hi r d ∧
      F.roundMag mode rnd neg m e = (if pickUp mode neg (lo % 2 == 0) (hi % 2 == 0) r d rnd then hi else lo, true) := by
  have hg := F.grid_le e
  rcases F.unit_cases (e := e) hm with ⟨hu, hE, ha, ht⟩ | ⟨u, c, hu, hle, hc, hmem, hmem', hl, hl'⟩
  case inl =>
    have heu : e < F.low + F.M := by unfold XVal.log2 at ht; omega
    have hw : wholeUnits m e (F.low + F.M) = 0 := Nat.lt_one_iff.mp (wholeUnits_lt_two_pow (j := 0) (by omega))
    have hv := scaleTo_of_lt (m := m) heu hg
    rw [hw, Nat.zero_mul, Nat.zero_add] at hv
    have hr : m % 2 ^ (F.low + F.M - e).toNat ≠ 0 := fun h0 => by
      rw [h0, Nat.zero_mul, scaleTo_eq_zero_iff] at hv
      exact hm hv
    have h0 : F.magAt e 0 = 0 := by rw [magAt_eq member_zero, F.level_eq_self (.inr (Nat.zero_le _)), Nat.zero_mul]
    rw [roundMag_eq mode rnd neg hu (lo := 0) (hi := 2 ^ F.M) (if_pos rfl), if_neg (by omega)]
    refine .inr ⟨0, 2 ^ F.M, _, _, ⟨member_zero, member_of_le le_rfl, Nat.two_pow_pos _, fun x hx => ?_, by omega, by omega,
      Nat.mod_lt _ (Nat.two_pow_pos _), 2 ^ (e - F.grid e).toNat, Nat.two_pow_pos _, ?_, ?_⟩, rfl⟩
    · rcases hx with h | h | h | h
      · exact absurd h hE
      · exact absurd (h.symm.trans ha) Bool.false_ne_true
      · omega
      · omega
    · rw [hv, h0, Nat.zero_add]
    · have := F.grid_le_low e
      rw [h0, Nat.zero_add, magAt_eq (member_of_le le_rfl), F.level_eq_self (.inr le_rfl), ← pow_add, ← pow_add]
      congr 1
      omega
  case inr =>
    have hglow := F.grid_le_low e
    have hv : F.magAt e c = wholeUnits m e u * 2 ^ (u - F.grid e).toNat := magAt_of_level hmem hle hl
    have hv' : F.magAt e (c + 1) = (wholeUnits m e u + 1) * 2 ^ (u - F.grid e).toNat := magAt_of_level hmem' hle hl'
    rw [roundMag_eq mode rnd neg hu hc]
    split
    case isTrue hexact =>
      refine .inl ⟨c, ⟨hmem, ?_⟩, rfl⟩
      rcases le_or_gt u e with h | h
      · rw [hv, scaleTo_of_le h (by omega)]
      · rw [hv, scaleTo_of_lt h hg, hexact.resolve_left (by omega), Nat.zero_mul, Nat.add_zero]
    case isFalse hpart =>
      obtain ⟨h, hr⟩ := not_or.mp hpart
      refine .inr ⟨c, c + 1, _, _, ⟨hmem, hmem', by omega, fun x _ => by omega, by omega, by omega, Nat.mod_lt _ (Nat.two_pow_pos _),
        2 ^ (e - F.grid e).toNat, Nat.two_pow_pos _, ?_, ?_⟩, rfl⟩
      · rw [hv, scaleTo_of_lt (u := u) (by omega) hg]
      · rw [hv, hv', ← pow_add, Nat.add_mul, Nat.one_mul]
        congr 2
        omega

end

/-- What `Fmt.round` makes of a nonzero number whose magnitude is rounded. -/
theorem Fmt.round_of_roundMag {F : Fmt} {mode : RMode} {rnd : Half} {neg i : Bool} {m c : Nat} {e : Int} (hm : m ≠ 0)
    (hs : neg = true → F.s = true) (h : F.roundMag mode rnd neg m e = (c, i)) : F.round mode rnd (.fin neg m e) =
      if F.maxCode < c then
        (if mode = .rz ∨ (mode = .rd ∧ neg = false) ∨ (mode = .ru ∧ neg = true) then F.maxCode + F.signBit neg else F.overflowResult neg,
          fOverflow ||| fInexact)
      else (c + F.signBit neg, flagIf i fInexact ||| flagIf (i && XVal.log2 m e < F.emin) fUnderflow) := by
  have hsign : (!F.s && neg && m != 0) = false := by cases neg <;> simp_all
  simp only [Fmt.round, hsign, hm, h, if_false, Bool.false_eq_true]

/-- A nonzero number rounds as R44 says. -/
theorem Fmt.round_roundsTo (F : Fmt) (mode : RMode) (rnd : Half) {neg : Bool} {m : Nat} (e : Int) (hm : m ≠ 0) (hs : neg = true → F.s = true) :
    RoundsTo F mode rnd neg m e := by
  have htiny : XVal.log2 m e < F.emin ↔ scaleTo m e (F.grid e) < scaleTo 1 F.emin (F.grid e) := log2_lt_iff hm (F.grid_le e) (F.grid_le_emin e)
  rcases F.roundMag_spec (e := e) hm mode rnd neg with ⟨c, hc, heq⟩ | ⟨lo, hi, r, d, hb, heq⟩
  case inl =>
    refine ⟨c, hc.chosen, ?_⟩
    rw [round_of_roundMag hm hs heq, hc.gapTo]
    rfl
  case inr =>
    refine ⟨_, hb.chosen rnd, ?_⟩
    have hgap : F.gapTo m e (if pickUp mode neg (lo % 2 == 0) (hi % 2 == 0) r d rnd then hi else lo) ≠ 0 := by
      split
      · exact hb.gapTo_hi_ne
      · exact hb.gapTo_lo_ne
    rw [round_of_roundMag hm hs heq, bne_iff_ne.mpr hgap]
    simp only [htiny]

/-- A format without a sign has no number below zero. -/
theorem Fmt.round_unsigned {F : Fmt} (mode : RMode) (rnd : Half) {m : Nat} (e : Int) (hs : F.s = false) (hm : m ≠ 0) :
    F.round mode rnd (.fin true m e) = (0, fInvalid) := by
  simp [Fmt.round, hs, hm]

theorem Fmt.round_zero (F : Fmt) (mode : RMode) (rnd : Half) (neg : Bool) (e : Int) : F.round mode rnd (.fin neg 0 e) = (F.signBit neg, 0) := by
  simp [Fmt.round]

theorem Fmt.round_inf {F : Fmt} (mode : RMode) (rnd : Half) {neg : Bool} (hs : neg = true → F.s = true) :
    F.round mode rnd (.inf neg) = (F.overflowResult neg, 0) := by
  have hsign : (!F.s && neg) = false := by cases neg <;> simp_all
  simp only [Fmt.round, hsign, if_false, Bool.false_eq_true]

/-! ## The conversions (04 R124-R126) -/

/-- The slot's format is the one its record names. -/
theorem slotFmt_eq {s : State} {q : Regs} {t : Nat} {E : Elem} (h : convFormat (recordOf s (slotIdent q t)) = some E) : slotFmt s q t = E.fmt := by
  rw [slotFmt, h]

theorem half_zero (x : Word) : half x 0 = x.toNat % 2 ^ 16 := rfl

theorem intoHigh_eq (z : Word) (x : Word × Flags) : intoHigh z x = ((BitVec.ofNat 16 x.1.toNat ++ z.setWidth 16 : Word), x.2) := by
  have hz : z.extractLsb' 0 16 = z.setWidth 16 := BitVec.eq_of_toNat_eq (by rw [BitVec.extractLsb'_toNat, BitVec.toNat_setWidth]; rfl)
  rw [intoHigh, hz]; rfl

/-- Settles O9: the conversions are of the block form with the operations that the statement names, and rounding is `Fmt.round_roundsTo`, the
zeros, the infinities and the formats without a sign apart. -/
theorem vectorConversions : Obligations.VectorConversions := by
  unfold Obligations.VectorConversions
  intro d a m k s
  have hm : decide (m = 4) = decide (m.toNat = 4) := by rw [decide_eq_decide, BitVec.toNat_eq]; rfl
  rw [hm]
  refine ⟨blockWord_of rfl rfl, blockWord_of rfl rfl, blockWord_of rfl rfl, blockWord_of rfl rfl, blockWord_of rfl rfl, blockWord_of rfl rfl,
    blockWord_of rfl rfl, blockWord_of rfl rfl, blockWord_of rfl rfl, blockWord_of rfl rfl, blockWord_of rfl rfl, blockWord_of rfl rfl,
    blockWord_of rfl ?hiBf16, blockWord_of rfl ?hiF16, fun E hE => ⟨blockWord_of rfl ?toSlot, blockWord_of rfl ?fromSlot⟩,
    fun F mode r neg sig n e _ => ⟨fun hn hs => F.round_roundsTo mode r e hn hs, fun hs => ⟨F.round_unsigned mode r e hs, ?unsignedInf⟩,
      F.round_zero mode r neg e, rfl, F.round_inf mode r⟩⟩
  case hiBf16 => funext L x y z r; exact intoHigh_eq z _
  case hiF16 => funext L x y z r; exact intoHigh_eq z _
  case toSlot => funext L x y z r; simp only [slotFmt_eq hE]
  case fromSlot => funext L x y z r; simp only [slotFmt_eq hE]; rfl
  case unsignedInf => simp [Fmt.round, hs]

end Sys2Proof.Machine
end

section
/-! Writes of `%tslots` (04 R97; 06 R176, R183): `mts` also records in the gang that software has named another entry than the one reported,
which the statement of O18 leaves out. -/

namespace Sys2Proof.Machine

/-- What `mts` does, once it may issue. -/
theorem exec_mts {a : BitVec 5} {x : BitVec 12} {s : State} (h : MayIssue (.mts a x) s = true) :
    exec (.mts a x) s = .next (s.setG fun g => writeSpecial x.toNat (s.src.sreg a.toNat) g) :=
  exec_word _ s h _ rfl rfl

/-- A write of `%tslots` that changes the number of the reported entry (bits 37:36) marks the gang as one that has an entry reported. -/
theorem writeSpecial_tslots_reported (v : Dword) (g : Gang) :
    (writeSpecial 0x046 v g).reported = (g.reported || g.r.tslots.extractLsb' 36 2 != v.extractLsb' 36 2) := rfl

/-- The gang of a placed `nop`, with 2^36 in S[3]. -/
def tslotsWitness : State := (State.reset.withFetchWord 32 0x02000000).setR fun r => r.setS 3 0x1000000000

/-- Refutes O18: in `tslotsWitness`, `mts` of S[3] to `%tslots` sets bit 36 of a register that holds 0 there, and so leaves `reported` set,
where the statement says that the gang differs in `%tslots` alone. -/
theorem not_specialRegisterMoves : ¬ Obligations.SpecialRegisterMoves := by
  unfold Obligations.SpecialRegisterMoves
  intro h
  have hissue : MayIssue (.mts 3 0x046) tslotsWitness = true := by decide
  obtain ⟨-, hmts⟩ := h
  obtain ⟨-, -, -, -, -, -, -, -, -, -, -, htslots, -⟩ := hmts 3 0 tslotsWitness
  have hnext := (exec_mts hissue).symm.trans (htslots hissue)
  have hreported : (writeSpecial 0x046 (tslotsWitness.src.sreg 3) tslotsWitness.g).reported = tslotsWitness.g.reported := by
    injection hnext with hstate
    exact congrArg (fun t : State => t.g.reported) hstate
  rw [writeSpecial_tslots_reported] at hreported
  exact absurd hreported (by decide)

end Sys2Proof.Machine
end

section
/-! Branches, the divergence stack and the mask words (03 R69; 05 R132-R137). -/

namespace Sys2Proof.Machine

/-! ## Branches -/

/-- A word that goes to its target where its test holds, and has no effect where it does not. -/
theorem branchWord_jumps {i : Instr} {s : State} {o : BitVec 20} {P : Prop} [Decidable P] (u : State → State)
    (hi : exec i s = .next (issue (wordShapeOf i) u s)) (hu : u s = if P then takeBranch (relTarget s o) s else s)
    (hf : isFifoWord i = false := by rfl) :
    MayIssue i s = true → Answers i s fun t => if P then Jumps s (s.g.cur.packet + o.signExtend 32) t else t = s := by
  intro h
  refine ⟨_, exec_word i s h u hi hf, ?_⟩
  rw [hu]
  split
  · exact takeBranch_jumps s _
  · rfl

theorem linkReturn_sets (s : State) : SetsScalar s (linkReturn s) 31 ((s.g.cur.packet + 1).setWidth 64) 0 :=
  setS_setsScalar s 31 _ (by omega)

/-- Settles O14: a taken branch jumps (`takeBranch_jumps`), behind the scalar register that calls and counters write. -/
theorem branchesCallsLoops : Obligations.BranchesCallsLoops := by
  unfold Obligations.BranchesCallsLoops
  intro o k s
  refine ⟨fun h => ⟨_, exec_word _ s h _ rfl rfl, takeBranch_jumps s _⟩,
    fun h => ⟨_, exec_word _ s h _ rfl rfl, linkReturn s, linkReturn_sets s, takeBranch_jumps _ _⟩,
    fun h => ⟨_, exec_word _ s h _ rfl rfl, takeBranch_jumps s _⟩,
    fun h => ⟨_, exec_word _ s h _ rfl rfl, linkReturn s, linkReturn_sets s, takeBranch_jumps _ _⟩,
    fun h => ⟨_, exec_word _ s h _ rfl rfl, _, setS_setsScalar s _ _ (by omega), ?dbnz⟩,
    branchWord_jumps _ rfl rfl, branchWord_jumps _ rfl (ite_not ..).symm⟩
  case dbnz =>
    rw [countDown]
    by_cases h0 : s.src.sreg (16 + k.toNat) - 1 = 0
    · rw [if_neg (not_not.mpr h0)]; exact if_pos h0
    · rw [if_pos h0, if_neg h0]; exact takeBranch_jumps _ _

/-- Settles O15: each word branches where its test on the predicate and the mask holds. -/
theorem predicatedBranches : Obligations.PredicatedBranches := by
  unfold Obligations.PredicatedBranches
  intro p o s
  refine ⟨branchWord_jumps _ rfl ?_, branchWord_jumps _ rfl ?_, branchWord_jumps _ rfl ?_, branchWord_jumps _ rfl ?_⟩ <;>
    simp only [bne_iff_ne, beq_iff_eq] <;> rfl

/-! ## The divergence stack -/

theorem stackEntry_outer (outer arm : Word) : (outer ++ arm : Dword).extractLsb' 32 32 = outer := by
  refine BitVec.eq_of_getLsbD_eq fun j hj => ?_
  rw [BitVec.getLsbD_extractLsb', BitVec.getLsbD_append]
  simp [hj]

theorem stackEntry_arm (outer arm : Word) : (outer ++ arm : Dword).extractLsb' 0 32 = arm := by
  refine BitVec.eq_of_getLsbD_eq fun j hj => ?_
  rw [BitVec.getLsbD_extractLsb', BitVec.getLsbD_append]
  simp [hj]

/-- Lanes that run an arm: where it has none, the gang jumps over it. -/
theorem enterArm_jumps (s1 : State) (arm t : Word) :
    if arm = 0 then Jumps s1 t (if arm = 0 then takeBranch t s1 else s1) else (if arm = 0 then takeBranch t s1 else s1) = s1 := by
  split
  · exact takeBranch_jumps s1 t
  · rfl

section
variable {s : State} (t : Word)

theorem splitArm_full (p : Word) (h : s.src.dstack.length = 16) : splitArm p t s = stackTrap 1 s := if_pos h

theorem splitArm_room (p : Word) (h : s.src.dstack.length ≠ 16) : splitArm p t s =
    if p &&& s.src.emask = 0 then
      takeBranch t (s.setR fun r => { r with dstack := (s.src.emask ++ (p &&& s.src.emask)) :: s.src.dstack, emask := p &&& s.src.emask })
    else s.setR fun r => { r with dstack := (s.src.emask ++ (p &&& s.src.emask)) :: s.src.dstack, emask := p &&& s.src.emask } := by
  rw [splitArm, if_neg h, BitVec.and_comm p]; rfl

theorem elseArm_empty (h : s.src.dstack = []) : elseArm t s = stackTrap 2 s := by rw [elseArm, h]

theorem elseArm_entry {outer arm : Word} {rest : List Dword} (h : s.src.dstack = (outer ++ arm : Dword) :: rest) : elseArm t s =
    if outer &&& ~~~arm = 0 then
      takeBranch t (s.setR fun r => { r with dstack := (outer ++ (outer &&& ~~~arm)) :: rest, emask := outer &&& ~~~arm })
    else s.setR fun r => { r with dstack := (outer ++ (outer &&& ~~~arm)) :: rest, emask := outer &&& ~~~arm } := by
  simp only [elseArm, h, stackEntry_outer, stackEntry_arm, stackEntry]

theorem joinArms_empty (h : s.src.dstack = []) : joinArms s = stackTrap 2 s := by rw [joinArms, h]

theorem joinArms_entry {outer arm : Word} {rest : List Dword} (h : s.src.dstack = (outer ++ arm : Dword) :: rest) :
    joinArms s = s.setR fun r => { r with dstack := rest, emask := outer } := by
  simp only [joinArms, h, stackEntry_outer]

theorem popEntry_empty (d : Nat) (h : s.src.dstack = []) : popEntry d s = stackTrap 2 s := by rw [popEntry, h]

theorem popEntry_sets {d : Nat} (hd : d < 32) {e : Dword} {rest : List Dword} (h : s.src.dstack = e :: rest) :
    SetsScalar (s.setR fun r => { r with dstack := rest }) (popEntry d s) d e 0 := by
  simp only [popEntry, h]
  exact setS_setsScalar (s.setR fun r => { r with dstack := rest }) d e hd

theorem pushEntry_full (x : Dword) (h : s.src.dstack.length = 16) : pushEntry x s = stackTrap 1 s := if_pos h

theorem pushEntry_room (x : Dword) (h : s.src.dstack.length ≠ 16) :
    pushEntry x s = s.setR fun r => { r with dstack := x :: s.src.dstack } := if_neg h

end

/-- Settles O16: what `split`, `else` and `join` do with the stack as they find it. -/
theorem divergenceWords : Obligations.DivergenceWords := by
  unfold Obligations.DivergenceWords
  intro p o s
  refine ⟨fun h => ?split, fun h => ⟨fun he => ?elseEmpty, fun outer arm rest he => ?elseEntry⟩,
    fun h => ⟨fun he => ?joinEmpty, fun outer arm rest he => ?joinEntry⟩⟩
  case split =>
    have hx := exec_word (.split p o) s h _ rfl rfl
    split
    case isTrue hfull => rw [hx, splitArm_full _ _ hfull]; rfl
    case isFalse hroom => rw [splitArm_room _ _ hroom] at hx; exact ⟨_, hx, enterArm_jumps _ _ _⟩
  case elseEmpty => rw [exec_word _ s h _ rfl rfl, elseArm_empty _ he]; rfl
  case elseEntry =>
    have hx := exec_word (.elseArm o) s h _ rfl rfl
    rw [elseArm_entry _ he] at hx
    exact ⟨_, hx, enterArm_jumps _ _ _⟩
  case joinEmpty => rw [exec_word _ s h _ rfl rfl, joinArms_empty he]; rfl
  case joinEntry => rw [exec_word _ s h _ rfl rfl, joinArms_entry he]

/-- Settles O17: what the words of R135 do with the mask, and with the stack as they find it. -/
theorem maskWords : Obligations.MaskWords := by
  unfold Obligations.MaskWords
  intro p d a s
  refine ⟨fun h => exec_word _ s h _ rfl rfl, fun h => exec_word _ s h _ rfl rfl,
    fun h => ⟨fun he => ?popEmpty, fun e rest he => ⟨_, exec_word _ s h _ rfl rfl, popEntry_sets d.isLt he⟩⟩, fun h => ?push,
    scalarWord_of (f := fun q => BitVec.ofNat 64 q.dstack.length) d.isLt rfl rfl⟩
  case popEmpty => rw [exec_word _ s h _ rfl rfl, popEntry_empty _ he]; rfl
  case push =>
    rw [exec_word _ s h _ rfl rfl]
    split
    case isTrue hfull => rw [pushEntry_full _ hfull]; rfl
    case isFalse hroom => rw [pushEntry_room _ hroom]

end Sys2Proof.Machine
end

section
/-! Cross-lane words, reductions and scans (05 R148, R149): all but the float reductions are of the lane form. -/

namespace Sys2Proof.Machine

theorem laneAt_val (x : Lanes Word) (L : Fin 32) : laneAt x L.val = x[L] := dif_pos L.isLt

/-- The bits of `vmatch.b32` in a lane make the word. -/
theorem laneMask_eq {f : Fin 32 → Bool} {x : Word} (h : ∀ M : Fin 32, x.getLsbD M = f M) : laneMask f = x :=
  BitVec.eq_of_getLsbD_eq fun j hj => (laneMask_bit f ⟨j, hj⟩).trans (h ⟨j, hj⟩).symm

theorem lanes_zero (L : Fin 32) : lane 0 L = false := BitVec.getLsbD_zero

theorem activeValues_zero (x : Lanes Word) : activeValues 0 x = [] := by
  rw [activeValues, List.filter_eq_nil_iff.mpr fun L _ => by rw [lanes_zero]; decide, List.map_nil]

/-! ## Maximum and minimum -/

/-- A fold that keeps one of two values, and of two the one with the larger key, keeps one of the largest key. -/
theorem foldl_pick_max {α : Type} {f : α → α → α} {key : α → Int} (hf : ∀ x y, f x y = if key x < key y then y else x) :
    ∀ (l : List α) (x : α), l.foldl f x ∈ x :: l ∧ ∀ y ∈ x :: l, key y ≤ key (l.foldl f x)
  | [], x => by simp
  | y :: l, x => by
    obtain ⟨hmem, hle⟩ := foldl_pick_max hf l (f x y)
    have hfirst := hle (f x y) List.mem_cons_self
    rw [List.foldl_cons]
    have hkey : key x ≤ key (f x y) ∧ key y ≤ key (f x y) ∧ (f x y = x ∨ f x y = y) := by
      rw [hf]; split <;> grind
    refine ⟨?_, fun z hz => ?_⟩
    · rcases List.mem_cons.mp hmem with h | h
      · rw [h]; rcases hkey.2.2 with h | h <;> simp [h]
      · simp [h]
    · rcases List.mem_cons.mp hz with rfl | hz
      · exact hkey.1.trans hfirst
      · rcases List.mem_cons.mp hz with rfl | hz
        · exact hkey.2.1.trans hfirst
        · exact hle z (List.mem_cons_of_mem _ hz)

/-- The value of the largest key is what such a fold over a list leaves, where no other value has its key. -/
theorem foldOne_eq_of_max {f : Word → Word → Word} {key : Word → Int} (hf : ∀ x y, f x y = if key x < key y then y else x)
    (hkey : ∀ {x y}, key x = key y → x = y) {l : List Word} {x : Word} (hx : x ∈ l) (hmax : ∀ y ∈ l, key y ≤ key x) :
    foldOne f l = x := by
  cases l with
  | nil => simp at hx
  | cons z l =>
    obtain ⟨hmem, hle⟩ := foldl_pick_max hf l z
    exact hkey (Int.le_antisymm (hmax _ hmem) (hle x hx))

theorem foldOne_max {l : List Word} {x : Word} (hx : x ∈ l) (hmax : ∀ y ∈ l, y.toInt ≤ x.toInt) :
    foldOne (fun x y => if x.slt y then y else x) l = x :=
  foldOne_eq_of_max (key := BitVec.toInt) (fun x y => by simp only [BitVec.slt_iff_toInt_lt]) BitVec.eq_of_toInt_eq hx hmax

theorem foldOne_min {l : List Word} {x : Word} (hx : x ∈ l) (hmin : ∀ y ∈ l, x.toInt ≤ y.toInt) :
    foldOne (fun x y => if y.slt x then y else x) l = x :=
  foldOne_eq_of_max (key := fun x => -x.toInt) (fun x y => by simp only [BitVec.slt_iff_toInt_lt, neg_lt_neg_iff])
    (fun h => BitVec.eq_of_toInt_eq (neg_inj.mp h)) hx fun y hy => Int.neg_le_neg (hmin y hy)

/-! ## Scans -/

theorem activeUpTo_through (m : Word) (L : Fin 32) (x : Lanes Word) :
    activeUpTo m (L.val + 1) x = (lanes32.filter fun M => lane m M && decide (M ≤ L)).map fun M => x[M] := by
  simp only [activeUpTo, Nat.lt_succ_iff, Fin.le_def]

theorem activeUpTo_below (m : Word) (L : Fin 32) (x : Lanes Word) :
    activeUpTo m L.val x = (lanes32.filter fun M => lane m M && decide (M < L)).map fun M => x[M] := by
  simp only [activeUpTo, Fin.lt_def]

/-! ## Float reductions -/

section
variable {i : Instr} {s : State} {d : Nat} {f : Regs → Word × Flags}
  (hi : exec i s = .next (reduceWord (wordShapeOf i) d f s)) (hf : isFifoWord i = false)
include hi hf

/-- Without an active lane a reduction of floats has no effect. -/
theorem reduceWord_noLane (hm : s.src.emask = 0) (h : MayIssue i s = true) : exec i s = .next s := by
  rw [exec_word i s h _ hi hf]
  simp only [hm, if_true]

/-- A reduction of floats writes one value in every active lane, and raises its flags. -/
theorem reduceWord_sets (hd : d < 128) (hla : (wordShapeOf i).la = 0) {x : Word × Flags} (hx : f s.src = x) (hm : s.src.emask ≠ 0) :
    LaneResult i s d fun _ => x := by
  subst hx
  intro h
  refine ⟨_, exec_word i s h _ hi hf, _, (if_pos ⟨hla, rfl⟩).symm, ?_⟩
  simp only [hm, if_false]
  refine ⟨rfl, by simp [State.setR, Regs.setV], fun n L => ?_, fun b => ?_⟩
  · have hv : ∀ (r : Regs) (y : Flags), Regs.vreg { r with xstat := y } n = r.vreg n := fun _ _ => rfl
    simp only [State.setR, hv, Regs.setV_vreg _ _ _ _ hd]
    by_cases hn : n = d
    · subst hn; simp only [if_true, merge_lane, Lanes.all_get, true_and]
    · simp [hn]
  · obtain ⟨L, hL⟩ := lane_of_ne_zero _ hm
    simp only [State.setR, BitVec.getLsbD_or, Bool.or_eq_true]
    exact or_congr_right ⟨fun hb => ⟨L, hL, hb⟩, fun ⟨_, _, hb⟩ => hb⟩

end

/-- Settles O12: the words are of the lane form but for the float reductions (`reduceWord_sets`), with the maximum and the minimum of
`foldOne_max` and `foldOne_min`. -/
theorem crossLaneReductionsAndScans : Obligations.CrossLaneReductionsAndScans := by
  unfold Obligations.CrossLaneReductionsAndScans
  refine ⟨fun d a b n p q s => ?cross, fun d a s => ?reduce⟩
  case cross =>
    have hd := d.isLt
    have hq := q.isLt
    refine ⟨laneWord_of hd rfl rfl, laneWord_of hd rfl ?up, laneWord_of hd rfl ?down, laneWord_of hd rfl rfl, laneWord_of hd rfl rfl,
      lanePredWord_of hq rfl ?all, lanePredWord_of hq rfl ?any, fun f hf => laneWord_of hd rfl ?vmatch⟩
    case up | down => funext L; simp only [apply_ite, laneAt_val]
    case all => funext L; rw [Bool.eq_iff_iff, beq_iff_eq, decide_eq_true_iff]
    case any => funext L; rw [Bool.eq_iff_iff, bne_iff_ne, decide_eq_true_iff]
    case vmatch =>
      funext L
      obtain ⟨hflags, hbits⟩ := hf L
      exact Prod.ext (laneMask_eq hbits) hflags.symm
  case reduce =>
    have hd := d.isLt
    refine ⟨laneWord_of hd rfl rfl, fun x _ hx hmax => laneWord_of hd rfl ?max, fun x _ hx hmin => laneWord_of hd rfl ?min,
      fun hm => ⟨laneWord_of hd rfl ?maxNone, laneWord_of hd rfl ?minNone⟩,
      fun hm => ⟨reduceWord_noLane rfl rfl hm, reduceWord_noLane rfl rfl hm⟩,
      reduceWord_sets rfl rfl hd rfl rfl, reduceWord_sets rfl rfl hd rfl rfl,
      laneWord_of hd rfl ?scan, laneWord_of hd rfl ?scanx, laneWord_of hd rfl ?scanF⟩
    case max => funext L; rw [foldOne_max hx hmax]
    case min => funext L; rw [foldOne_min hx hmin]
    case maxNone | minNone => funext L; rw [hm, activeValues_zero]; rfl
    case scan => funext L; rw [activeUpTo_through]
    case scanx => funext L; rw [activeUpTo_below]
    case scanF => funext L; rw [activeUpTo_through, fSumLanes, List.map_map]; rfl

end Sys2Proof.Machine
end

section
/-! What the accesses of a gang leave alone: the descriptor caches, and the gang's place among them (01 R33, R34; 02 R49). So every lane of one
word finds the record of its slot as the word found it. One lemma `f_recordView` for each operation `f` on the way, in the order of the model's
files: `f` keeps the view because it writes other fields of the machine, or by the lemmas of the operations it is composed of. -/

namespace Sys2Proof.Machine

/-- What a record read through a slot depends on, the slots apart: the gang's core and node, and the descriptor cache of every core. -/
def State.recordView (s : State) : Nat × Word × (Nat → List (Word × List (BitVec 320))) :=
  (s.g.coreIx, s.g.node, fun c => (s.core c).tables)

/-- The state in an answer, be it a result, a failure or a wait. -/
def Done.after : Done → State
  | .ok _ s => s
  | .bad _ s => s
  | .wait s => s

def Got.after {α : Type} : Got α → State
  | .ok _ s => s
  | .bad _ s => s
  | .wait s => s

def LaneRes.after : LaneRes → State
  | .done s => s
  | .bad _ s => s
  | .wait s => s

/-- A reader, or a writer, that keeps the view. -/
def Reader.keepsRecords (rd : Reader) : Prop := ∀ va n s, (rd va n s).after.recordView = s.recordView
def Writer.keepsRecords (wr : Writer) : Prop := ∀ va bs s, (wr va bs s).after.recordView = s.recordView

/-! ## Folds, and the cores of the machine -/

theorem foldl_recordView {α : Type} {f : State → α → State} (hf : ∀ s x, (f s x).recordView = s.recordView) (l : List α) (s : State) :
    (l.foldl f s).recordView = s.recordView :=
  List.foldlRecOn (motive := fun t => State.recordView t = s.recordView) l f rfl fun _ hb a _ => (hf _ a).trans hb

theorem lookup_upsert {α : Type} (a k : Nat) (x : α) : ∀ l, lookup (upsert l a x) k = if k = a then some x else lookup l k
  | [] => by simp [upsert, lookup, eq_comm]
  | (j, y) :: r => by
    have ih := lookup_upsert a k x r
    unfold upsert
    split
    · simp [lookup, eq_comm]
    · split <;> grind [lookup]

/-- Entries changed one by one, their keys and what h reads in them apart, look up as before to h. -/
theorem lookup_map_of_eq {α β : Type} {f : Nat × α → Nat × α} {h : α → β} (hf : ∀ x, (f x).1 = x.1 ∧ h (f x).2 = h x.2) (k : Nat) :
    ∀ l : List (Nat × α), (lookup (l.map f) k).map h = (lookup l k).map h
  | [] => rfl
  | x :: r => by
    obtain ⟨hkey, hval⟩ := hf x
    rw [List.map_cons, lookup, lookup, hkey, apply_ite (Option.map h), apply_ite (Option.map h), lookup_map_of_eq hf k r, Option.map_some,
      Option.map_some, hval]

section
variable (s : State)

theorem State.core_tables (k : Nat) : (s.core k).tables = ((lookup s.cores k).map Core.tables).getD [] := by
  rw [State.core]
  cases lookup s.cores k <;> rfl

/-- A state with the same gang's place and the same descriptor caches. -/
theorem recordView_eq {s t : State} (hg : t.g.coreIx = s.g.coreIx ∧ t.g.node = s.g.node)
    (hcores : ∀ k, (lookup t.cores k).map Core.tables = (lookup s.cores k).map Core.tables) : t.recordView = s.recordView := by
  obtain ⟨hcore, hnode⟩ := hg
  simp only [State.recordView, State.core_tables, hcores, hcore, hnode]

/-- One core changed, its descriptor cache apart. -/
theorem State.setCore_recordView {c : Nat} {f : Core → Core} (hf : ∀ K, (f K).tables = K.tables) : (s.setCore c f).recordView = s.recordView := by
  have hcore (k : Nat) : ((s.setCore c f).core k).tables = (s.core k).tables := by
    rw [State.core, State.setCore_cores, lookup_upsert]
    split
    case isTrue h => rw [h]; exact hf _
    case isFalse => rfl
  simp only [State.recordView, hcore, State.setCore_g]

/-- Every core changed, the descriptor caches apart. -/
theorem mapCores_recordView {f : Nat × Core → Nat × Core} (hf : ∀ x, (f x).1 = x.1 ∧ (f x).2.tables = x.2.tables) :
    { s with cores := s.cores.map f }.recordView = s.recordView :=
  recordView_eq ⟨rfl, rfl⟩ fun k => lookup_map_of_eq hf k s.cores

/-- The gang changed in what the view does not name. -/
theorem State.setG_recordView {f : Gang → Gang} (hf : (f s.g).coreIx = s.g.coreIx ∧ (f s.g).node = s.g.node) :
    (s.setG f).recordView = s.recordView := recordView_eq hf fun _ => rfl

end

section
variable (s : State)

theorem State.setR_recordView (f : Regs → Regs) : (s.setR f).recordView = s.recordView := rfl
theorem State.flag_recordView (f : Flags) : (s.flag f).recordView = s.recordView := rfl
theorem State.setDie_recordView (d : Nat) (f : Die → Die) : (s.setDie d f).recordView = s.recordView := rfl
theorem State.setTenant_recordView (t : BitVec 6) (f : Tenant → Tenant) : (s.setTenant t f).recordView = s.recordView := rfl

theorem State.updGang_recordView {uid : Nat} {f : Gang → Gang} (hf : ∀ g, (f g).coreIx = g.coreIx ∧ (f g).node = g.node) :
    (s.updGang uid f).recordView = s.recordView := by
  unfold State.updGang
  split
  · exact State.setG_recordView s (hf _)
  · rfl

theorem endNode_g (n : Node) (code : Byte) (who : Option Gang) : (endNode n code who s).g =
    if s.g.node = n.id ∧ s.g.status ≠ .vacant then { s.g with status := .stopped, wait := .none, arriving := [] } else s.g := rfl

/-- The end of a node in error takes commands and tasks from the cores, and stops gangs. -/
theorem endNode_recordView (n : Node) (code : Byte) (who : Option Gang) : (endNode n code who s).recordView = s.recordView := by
  refine recordView_eq ?gang fun k => lookup_map_of_eq ?cores k s.cores
  case gang => rw [endNode_g]; split <;> exact ⟨rfl, rfl⟩
  case cores => exact fun _ => ⟨rfl, rfl⟩

theorem withHost_recordView (h : HostPort) : { s with host := h }.recordView = s.recordView := rfl

/-! ## The homes (12 R257-R273) -/

theorem bump_recordView (line : Nat) : (bump line s).recordView = s.recordView := rfl
theorem homeWrite_recordView (a : Nat) (bs : List Byte) : (homeWrite a bs s).recordView = s.recordView := rfl
theorem overtakeFills_recordView (d line : Nat) : (overtakeFills d line s).recordView = s.recordView := rfl

theorem dropL1s_recordView (d : Nat) (p : Nat → Bool) : (dropL1s d p s).recordView = s.recordView :=
  mapCores_recordView s fun x => by dsimp only; split <;> exact ⟨rfl, rfl⟩

theorem State.setDir_recordView (e : DirEntry) : (s.setDir e).recordView = s.recordView := rfl
theorem dropGrain_recordView (d base n : Nat) : (dropGrain d base n s).recordView = s.recordView :=
  dropL1s_recordView s d fun k => base ≤ k && k < base + n
theorem setGrain_recordView (d base : Nat) (data : List Byte) : (setGrain d base data s).recordView = s.recordView := rfl

theorem bumpLines_recordView (ls : List Nat) : (bumpLines ls s).recordView = s.recordView := foldl_recordView (fun s x => bump_recordView s x) ls s

theorem recallGrain_recordView (e : DirEntry) (keep : Bool) : (recallGrain e keep s).recordView = s.recordView := by
  unfold recallGrain
  extract_lets s1 s2
  have h1 : s1.recordView = s.recordView := by
    simp only [s1]
    split
    · rw [bumpLines_recordView]; split <;> rfl
    · rfl
  exact (foldl_recordView (fun s d => dropGrain_recordView s d _ _) _ s1).trans h1

theorem recallSectors_recordView (base n : Nat) (keep : Bool) : (recallSectors base n keep s).recordView = s.recordView :=
  foldl_recordView (fun s e => recallGrain_recordView s e keep) _ s

theorem recallOthers_recordView (base n : Nat) : (recallOthers base n s).recordView = s.recordView :=
  foldl_recordView (fun s e => recallGrain_recordView s e true) _ s

theorem shareGrain_recordView (d base n : Nat) : (shareGrain d base n s).recordView = s.recordView := by
  unfold shareGrain
  split
  · rfl
  extract_lets s0 e s1 e1
  have h0 : s0.recordView = s.recordView := recallOthers_recordView s base n
  have h1 : s1.recordView = s0.recordView := by
    simp only [s1]
    split
    · rw [State.setDir_recordView]
      split
      · exact bumpLines_recordView { s0 with mem := _ } _
      · exact bumpLines_recordView { s0 with mem := _ } _
    · rfl
  exact h1.trans h0

theorem ownGrain_recordView (d base n : Nat) : (ownGrain d base n s).recordView = s.recordView := by
  unfold ownGrain
  extract_lets s0 e data s1 s2
  have h0 : s0.recordView = s.recordView := recallOthers_recordView s base n
  have h2 : s2.recordView = s0.recordView :=
    foldl_recordView (fun s o => by split; exacts [rfl, dropGrain_recordView s o base n]) _ s1
  split
  · exact h0
  · exact (bumpLines_recordView _ _).trans (h2.trans h0)

theorem dropCopy_recordView (d line : Nat) : (dropCopy d line s).recordView = s.recordView := rfl

theorem sendRecord_recordView (d line : Nat) (runs : List DiffRun) (version : Half) (kind : PubKind) (tenant : BitVec 6) (fwd : List Nat) :
    (sendRecord d line runs version kind tenant fwd s).recordView = s.recordView := by
  unfold sendRecord
  dsimp only
  split
  · rfl
  · split <;> rfl

theorem publish_recordView (d line : Nat) (kind : PubKind) (fwd : List Nat) : (publish d line kind fwd s).recordView = s.recordView := by
  unfold publish
  split
  · split
    · rw [sendRecord_recordView]; rfl
    · rfl
  · rfl

theorem evictLine_recordView (d line : Nat) : (evictLine d line s).recordView = s.recordView := by
  unfold evictLine
  split
  · rw [dropCopy_recordView, publish_recordView]
  · rfl

theorem voluntaryWriteBack_recordView (d base : Nat) : (voluntaryWriteBack d base s).recordView = s.recordView := by
  unfold voluntaryWriteBack
  split
  · dsimp only
    split <;> exact dropGrain_recordView s d base _
  · rfl

theorem evictOldest_recordView (d : Nat) : (evictOldest d s).recordView = s.recordView := by
  unfold evictOldest
  dsimp only
  split
  · rfl
  · exact evictLine_recordView s d _
  · exact voluntaryWriteBack_recordView s d _
  · rfl

theorem evictUntil_recordView (d n f : Nat) : (evictUntil d n f s).recordView = s.recordView := by
  induction f generalizing s with
  | zero => rfl
  | succ f ih =>
    unfold evictUntil
    split
    · rfl
    · rw [ih, evictOldest_recordView]

theorem makeRoom_recordView (d n : Nat) : (makeRoom d n s).recordView = s.recordView := evictUntil_recordView s d n _

theorem grainRoom_recordView (d base n : Nat) : (grainRoom d base n s).recordView = s.recordView := by
  unfold grainRoom
  split
  · rfl
  · exact makeRoom_recordView s d _

theorem applyRecord_recordView (r : DiffRecord) : (applyRecord r s).recordView = s.recordView :=
  foldl_recordView (f := fun s _ => { s with nextId := s.nextId + 1, copies := _ }) (fun _ _ => rfl) _ _

theorem flushRecords_recordView (d line : Nat) : (flushRecords d line s).recordView = s.recordView :=
  foldl_recordView (fun s r => applyRecord_recordView s r) _ s

theorem twinService_recordView (line : Nat) : (twinService line s).recordView = s.recordView := recallSectors_recordView s _ 4 true

theorem recallTwins_recordView (line : Nat) : (recallTwins line s).recordView = s.recordView :=
  foldl_recordView (fun s d => by rw [dropCopy_recordView, dropL1s_recordView, flushRecords_recordView, publish_recordView]) _ s

theorem withTwinHome_recordView (l : List Nat) : { s with twinHome := l }.recordView = s.recordView := rfl

theorem ownedService_recordView (base n : Nat) : (ownedService base n s).recordView = s.recordView := by
  unfold ownedService
  refine foldl_recordView (fun s line => ?_) _ s
  split
  · exact (withTwinHome_recordView _ _).trans (recallTwins_recordView s line)
  · rfl

theorem twinLine_recordView (d line : Nat) : (twinLine d line s).2.recordView = s.recordView := by
  unfold twinLine
  split
  · rfl
  · exact (makeRoom_recordView _ d 128).trans (twinService_recordView s line)

theorem twinWrite_recordView (d : Nat) (tenant : BitVec 6) (a : Nat) (bs : List Byte) : (twinWrite d tenant a bs s).recordView = s.recordView :=
  twinLine_recordView s d (lineOf a)

theorem touchL1_recordView (c line : Nat) : (touchL1 c line s).recordView = s.recordView := State.setCore_recordView s fun _ => rfl

theorem fillL1Sectors_recordView (c base : Nat) (data : List Byte) : (fillL1Sectors c base data s).recordView = s.recordView :=
  State.setCore_recordView s fun _ => rfl

theorem fillL1_recordView (c line : Nat) (data : List Byte) : (fillL1 c line data s).recordView = s.recordView := fillL1Sectors_recordView s c _ data
theorem patchL1_recordView (c a : Nat) (bs : List Byte) : (patchL1 c a bs s).recordView = s.recordView := State.setCore_recordView s fun _ => rfl

theorem patchL1s_recordView (d a : Nat) (bs : List Byte) : (patchL1s d a bs s).recordView = s.recordView :=
  mapCores_recordView s fun x => by dsimp only; split <;> exact ⟨rfl, rfl⟩

/-! ## The device registers (19) -/

theorem raiseVector_recordView (v : Nat) : (raiseVector v s).recordView = s.recordView := by
  unfold raiseVector
  split <;> rfl

theorem writeEvent_recordView (e : HostEvent) : (writeEvent e s).recordView = s.recordView := by
  unfold writeEvent
  rw [raiseVector_recordView, homeWrite_recordView, withHost_recordView]

theorem drainOrigin_recordView (origin : Nat) : (drainOrigin origin s).recordView = s.recordView := by
  unfold drainOrigin
  split
  · split
    · rw [writeEvent_recordView]; rfl
    · rfl
  · rfl

theorem resumeErrors_recordView : (resumeErrors s).recordView = s.recordView :=
  foldl_recordView (fun s n => by
    split
    · split
      · rfl
      · exact endNode_recordView s n _ _
    · rfl) _ s

theorem drainEvents_recordView : (drainEvents s).recordView = s.recordView :=
  (resumeErrors_recordView _).trans (foldl_recordView (fun s _ => foldl_recordView (fun s o => drainOrigin_recordView s o) _ s) _ s)

theorem writeTenant_recordView (t : BitVec 6) (off v : Nat) : (writeTenant t off v s).recordView = s.recordView := by
  unfold writeTenant
  dsimp only
  split
  · rfl
  split
  · split <;> rfl
  · rfl

theorem writeDoorbell_recordView (t : BitVec 6) (q tail : Nat) : (writeDoorbell t q tail s).recordView = s.recordView := by
  unfold writeDoorbell
  split <;> rfl

theorem writeMsix_recordView (k off v : Nat) : (writeMsix k off v s).recordView = s.recordView := by
  unfold writeMsix
  extract_lets old e s1
  split
  · rw [raiseVector_recordView]; rfl
  · rfl

theorem writeReg_recordView (off v : Nat) (lo hi : Bool) : (writeReg off v lo hi s).recordView = s.recordView := by
  unfold writeReg
  grind [writeTenant_recordView, writeDoorbell_recordView, writeMsix_recordView, drainEvents_recordView, withHost_recordView]

theorem writeRegBytes_recordView (off : Nat) (bs : List Byte) : (writeRegBytes off bs s).recordView = s.recordView := writeReg_recordView s _ _ _ _


/-! ## Translation (01 R17-R22; 12 R288) -/

theorem zeroRange_recordView (a n : Nat) : (zeroRange a n s).recordView = s.recordView := recallSectors_recordView s _ _ false

theorem zeroPage_recordView (root : Dword) (k ipa n : Nat) : (zeroPage root k ipa n s).recordView = s.recordView := by
  fun_induction zeroPage root k ipa n s <;> grind [zeroRange_recordView]

theorem clearPending_recordView (a : Nat) : (clearPending a s).recordView = s.recordView := by
  unfold clearPending
  dsimp only
  split
  · rw [homeWrite_recordView, recallSectors_recordView]
  · exact recallSectors_recordView s _ 1 true

theorem addTlb_recordView (e : TlbEntry) : (addTlb e s).recordView = s.recordView := rfl

theorem tlbMiss_recordView (t : BitVec 6) (va : Nat) : (tlbMiss t va s).1.recordView = s.recordView := by
  have hclear (l : List Nat) (s : State) : (l.foldl (fun s a => clearPending a s) s).recordView = s.recordView :=
    foldl_recordView (fun s a => clearPending_recordView s a) l s
  grind [tlbMiss, addTlb_recordView, zeroPage_recordView]

theorem translate_recordView (read write : Bool) (va : Nat) : (translate read write va s).1.recordView = s.recordView := by
  grind [translate, translateFor, tlbMiss_recordView]

/-! ## One access at its point of coherence -/

theorem readTwin_recordView (ag : Agent) (pt : Point) (fpa n : Nat) : (readTwin ag pt fpa n s).2.recordView = s.recordView := by
  unfold readTwin
  grind [fillL1_recordView, touchL1_recordView, twinLine_recordView, twinService_recordView]

theorem readOwned_recordView (ag : Agent) (pt : Point) (grain : BitVec 2) (fpa n : Nat) :
    (readOwned ag pt grain fpa n s).2.recordView = s.recordView := by
  have hserved := ownedService_recordView s (grainBase grain fpa) (grainSectors grain)
  unfold readOwned
  dsimp only
  split
  · exact (recallSectors_recordView _ _ _ true).trans hserved
  · exact ((ownGrain_recordView _ _ _ _).trans (grainRoom_recordView _ _ _ _)).trans hserved
  · exact ((shareGrain_recordView _ _ _ _).trans (grainRoom_recordView _ _ _ _)).trans hserved
  split
  · exact (touchL1_recordView _ _ _).trans hserved
  · exact (fillL1Sectors_recordView _ _ _ _).trans (((shareGrain_recordView _ _ _ _).trans (grainRoom_recordView _ _ _ _)).trans hserved)

theorem sendChanged_recordView (d fpa n : Nat) : (sendChanged d fpa n s).recordView = s.recordView := by
  unfold sendChanged
  dsimp only
  split
  · split
    · rw [sendRecord_recordView, State.setDie_recordView]
    · rfl
  · rfl

theorem prePublish_recordView (d fpa n : Nat) : (prePublish d fpa n s).recordView = s.recordView :=
  (flushRecords_recordView _ d _).trans (sendChanged_recordView s d fpa n)

theorem patchDie_recordView (ag : Agent) (fpa : Nat) (bs : List Byte) : (patchDie ag fpa bs s).recordView = s.recordView := by
  unfold patchDie
  dsimp only
  split
  · split
    · rw [patchL1s_recordView, State.setDie_recordView]
    · rw [dropCopy_recordView, dropL1s_recordView]
  · rw [overtakeFills_recordView, dropL1s_recordView]

theorem updTwin_recordView (ag : Agent) (pt : Point) (fpa n : Nat) (f : List Byte → List Byte) :
    (updTwin ag pt fpa n f s).2.recordView = s.recordView := by
  unfold updTwin
  grind [homeWrite_recordView, patchDie_recordView, patchL1_recordView, prePublish_recordView, twinLine_recordView, twinService_recordView,
    twinWrite_recordView]

theorem updOwned_recordView (ag : Agent) (pt : Point) (grain : BitVec 2) (fpa n : Nat) (f : List Byte → List Byte) :
    (updOwned ag pt grain fpa n f s).2.recordView = s.recordView := by
  unfold updOwned
  grind [homeWrite_recordView, recallSectors_recordView, ownedService_recordView, ownGrain_recordView, grainRoom_recordView, bump_recordView,
    setGrain_recordView, patchL1s_recordView, patchL1_recordView]

theorem homeStore_recordView (a : Nat) (bs : List Byte) : (homeStore a bs s).recordView = s.recordView :=
  (homeWrite_recordView _ _ _).trans (recallSectors_recordView s _ _ true)

theorem takeSeq_recordView (dest : Nat) : (takeSeq dest s).recordView = s.recordView := rfl

theorem sendPacket_recordView (fpa vc : Nat) (kind : PacketKind) (gangs : List Nat) (cmd : Nat) (node : Word) (t : BitVec 6) (critical : Bool) :
    (sendPacket fpa vc kind gangs cmd node t critical s).recordView = s.recordView := rfl

theorem dropPeer_recordView (d line : Nat) : (dropPeer d line s).recordView = s.recordView := rfl

theorem drainEntry_recordView (c line : Nat) : (drainEntry c line s).recordView = s.recordView := by
  unfold drainEntry
  split
  · rw [dropPeer_recordView, sendPacket_recordView]
    exact State.setCore_recordView s fun _ => rfl
  · rfl

theorem addOutstanding_recordView (uid : Nat) : (addOutstanding uid s).recordView = s.recordView :=
  State.updGang_recordView s fun _ => ⟨rfl, rfl⟩

theorem wcStore_recordView (ag : Agent) (fpa : Nat) (bs : List Byte) : (wcStore ag fpa bs s).recordView = s.recordView := by
  unfold wcStore
  extract_lets line K s0 old e e1 s1 s2
  have h0 : s0.recordView = s.recordView := by
    simp only [s0]
    split
    · split
      · exact drainEntry_recordView s _ _
      · rfl
    · rfl
  have h1 : s1.recordView = s0.recordView := State.setCore_recordView s0 fun _ => rfl
  have h2 : s2.recordView = s1.recordView := by
    simp only [s2, dropPeer_recordView]
    split
    · rfl
    · exact addOutstanding_recordView s1 _
  split
  · exact (drainEntry_recordView s2 _ _).trans (h2.trans (h1.trans h0))
  · exact h2.trans (h1.trans h0)

theorem withTick_recordView (n : Nat) : { s with tick := n }.recordView = s.recordView := rfl

theorem remoteRead_recordView (ag : Agent) (fresh critical : Bool) (fpa n : Nat) :
    (remoteRead ag fresh critical fpa n s).after.recordView = s.recordView := by
  grind [remoteRead, State.setDie_recordView, drainEntry_recordView, makeRoom_recordView, recallSectors_recordView, takeSeq_recordView,
    withTick_recordView, Done.after]

theorem remoteWrite_recordView (ag : Agent) (u : Upd) (fpa n : Nat) (f : List Byte → List Byte) :
    (remoteWrite ag u fpa n f s).after.recordView = s.recordView := by
  unfold remoteWrite
  grind [addOutstanding_recordView, drainEntry_recordView, dropPeer_recordView, homeStore_recordView, remoteRead_recordView,
    sendPacket_recordView, wcStore_recordView, Done.after]

theorem readAt_recordView (ag : Agent) (pt : Point) (e : TlbEntry) (fpa n : Nat) : (readAt ag pt e fpa n s).after.recordView = s.recordView := by
  fun_cases readAt ag pt e fpa n s <;> grind [readOwned_recordView, readTwin_recordView, remoteRead_recordView, Done.after]

theorem updAt_recordView (ag : Agent) (pt : Point) (e : TlbEntry) (u : Upd) (va fpa n : Nat) (f : List Byte → List Byte) :
    (updAt ag pt e u va fpa n f s).after.recordView = s.recordView := by
  unfold updAt
  grind [homeWrite_recordView, remoteWrite_recordView, updOwned_recordView, updTwin_recordView, writeRegBytes_recordView, Done.after]

theorem updVa_recordView (ag : Agent) (pt : Point) (u : Upd) (va n : Nat) (f : List Byte → List Byte) :
    (updVa ag pt u va n f s).after.recordView = s.recordView := by
  unfold updVa
  grind [translate_recordView, updAt_recordView, Done.after]

theorem readScoped_recordView (ag : Agent) (scope : Scope) (va n : Nat) : (readScoped ag scope va n s).after.recordView = s.recordView := by
  grind [readScoped, readAt_recordView, translate_recordView, Done.after]

end

/-! ## Tensor records (02) -/

theorem Done.next_recordView {x : Done} {f : List Byte → State → Done} (hf : ∀ b s, (f b s).after.recordView = s.recordView) :
    (x.next f).after.recordView = x.after.recordView := by
  cases x with
  | ok b s => exact hf b s
  | bad | wait => rfl

theorem Got.next_recordView {α β : Type} {x : Got α} {f : α → State → Got β} (hf : ∀ a s, (f a s).after.recordView = s.recordView) :
    (x.next f).after.recordView = x.after.recordView := by
  cases x with
  | ok a s => exact hf a s
  | bad | wait => rfl

theorem Done.got_after (x : Done) : x.got.after = x.after := by cases x <;> rfl

section
variable {rd : Reader} (hrd : rd.keepsRecords) (s : State)
include hrd

theorem readLong_recordView (f va n : Nat) : (readLong rd f va n s).after.recordView = s.recordView := by
  induction f generalizing va n s with
  | zero => rfl
  | succ f ih =>
    rw [readLong]
    split
    · rfl
    · exact (Done.next_recordView fun b s => (Done.next_recordView fun r s => rfl).trans (ih s _ _)).trans (hrd _ _ _)

theorem readWord4_recordView (va : Nat) : (readWord4 rd va s).after.recordView = s.recordView := readLong_recordView hrd s _ va 4

theorem readBlock_recordView (base o n : Nat) : (readBlock rd base o n s).after.recordView = s.recordView := by
  refine (Done.next_recordView fun e s => ?_).trans (readWord4_recordView hrd s _)
  dsimp only
  split
  · rfl
  refine (Done.next_recordView fun m s => ?_).trans (readWord4_recordView hrd s _)
  split
  · exact (Done.next_recordView fun w s => rfl).trans (readWord4_recordView hrd s _)
  · rfl

theorem blockWords_recordView (first mask : Nat) (is : List Nat) : (blockWords rd first mask is s).after.recordView = s.recordView := by
  induction is generalizing s with
  | nil => rfl
  | cons i is ih =>
    have hword := readWord4_recordView hrd s (first + 4 * popBelow mask i)
    rw [blockWords]
    split
    · cases hw : readWord4 rd (first + 4 * popBelow mask i) s <;> rw [hw] at hword
      · exact (Got.next_recordView fun r s => rfl).trans ((ih _).trans hword)
      · exact (Got.next_recordView fun r s => rfl).trans ((ih _).trans hword)
      · exact hword
    · exact (Got.next_recordView fun r s => rfl).trans (ih s)

theorem fetchBlock_recordView (base b : Nat) : (fetchBlock rd base b s).after.recordView = s.recordView := by
  refine (Got.next_recordView fun e s => ?_).trans ((congrArg _ (Done.got_after _)).trans (readWord4_recordView hrd s _))
  dsimp only
  split
  · rfl
  · exact (Got.next_recordView fun m s => blockWords_recordView hrd s _ _ _).trans
      ((congrArg _ (Done.got_after _)).trans (readWord4_recordView hrd s _))

theorem fetchBlocks_recordView (base : Nat) (bs : List Nat) (k : Blocks) : (fetchBlocks rd base bs k s).2.recordView = s.recordView := by
  induction bs generalizing k s with
  | nil => rfl
  | cons b bs ih =>
    have hblock := fetchBlock_recordView hrd s base b
    rw [fetchBlocks]
    split
    · exact ih s k
    · cases hb : fetchBlock rd base b s <;> rw [hb] at hblock <;> exact (ih _ _).trans hblock

theorem Rec.fetch_recordView (R : Rec) (o n : Nat) : (R.fetch rd o n s).after.recordView = s.recordView := by
  unfold Rec.fetch
  split
  · exact readBlock_recordView hrd s _ o n
  · exact hrd _ n s

theorem Rec.fetchFrom_recordView (R : Rec) (k : Blocks) (o n : Nat) : (R.fetchFrom rd k o n s).after.recordView = s.recordView := by
  unfold Rec.fetchFrom
  split
  · exact Rec.fetch_recordView hrd s R o n
  split
  · rfl
  split
  · rfl
  · exact Rec.fetch_recordView hrd s R o n

theorem Rec.scale_recordView (R : Rec) (c : List Int) : (R.scale rd c s).after.recordView = s.recordView := by
  unfold Rec.scale
  split
  · rfl
  · exact (Got.next_recordView fun b s => rfl).trans ((congrArg _ (Done.got_after _)).trans (hrd _ _ s))

theorem Rec.readElemBy_recordView {fetch : Reader} (hfetch : fetch.keepsRecords) (R : Rec) (c : List Int) :
    (R.readElemBy fetch rd c s).after.recordView = s.recordView := by
  unfold Rec.readElemBy
  split
  · rfl
  · exact (Got.next_recordView fun b s => (Got.next_recordView fun k s => rfl).trans (Rec.scale_recordView hrd s R c)).trans
      ((congrArg _ (Done.got_after _)).trans (hfetch _ _ s))

theorem Rec.writeElem_recordView {rw : Reader} {wr : Writer} (hrw : rw.keepsRecords) (hwr : wr.keepsRecords) (R : Rec) (mode : RMode)
    (rnd : Half) (c : List Int) (v : XVal) : (R.writeElem rd rw wr mode rnd c v s).after.recordView = s.recordView := by
  have hcode (code : Nat) (s : State) : (R.writeCode rw wr c code s).after.recordView = s.recordView := by
    unfold Rec.writeCode
    dsimp only
    split
    · exact (Done.next_recordView fun b s => hwr _ _ s).trans (hrw _ _ s)
    · exact hwr _ _ s
  unfold Rec.writeElem
  split
  · rfl
  · exact (Got.next_recordView fun k s => (Got.next_recordView fun _ s => rfl).trans
      ((congrArg _ (Done.got_after _)).trans (hcode _ s))).trans (Rec.scale_recordView hrd s R c)

end

/-! ## One lane (05 R138-R154) -/

theorem gangRead_keepsRecords (got : List (Nat × List Byte)) (ag : Agent) : (gangRead got ag).keepsRecords := by
  intro va n s
  unfold gangRead
  grind [readAt_recordView, translate_recordView, Done.after]

theorem gangReadForWrite_keepsRecords (ag : Agent) : (gangReadForWrite ag).keepsRecords := by
  intro va n s
  unfold gangReadForWrite
  grind [readAt_recordView, translate_recordView, Done.after]

theorem gangWrite_keepsRecords (ag : Agent) : (gangWrite ag).keepsRecords := fun va _ s => updVa_recordView s ag .l1 .store va _ _

theorem Done.lane_recordView {x : Done} {f : List Byte → State → State} (hf : ∀ b s, (f b s).recordView = s.recordView) :
    (x.lane f).after.recordView = x.after.recordView := by
  cases x with
  | ok b s => exact hf b s
  | bad | wait => rfl

theorem Got.lane_recordView {α : Type} {x : Got α} {f : α → State → State} (hf : ∀ a s, (f a s).recordView = s.recordView) :
    (x.lane f).after.recordView = x.after.recordView := by
  cases x with
  | ok a s => exact hf a s
  | bad | wait => rfl

section
variable (s : State)

theorem Access.result_recordView (a : Access) (L : Fin 32) (x : Nat) : (a.result L x s).recordView = s.recordView := by
  unfold Access.result
  split
  · rfl
  · split <;> rfl

theorem putElem_recordView (a : Access) (L : Fin 32) (v : XVal) : (putElem a L v s).recordView = s.recordView :=
  Access.result_recordView _ a L _

theorem setTag_recordView (a : Access) (relNo : Half) (va : Nat) : (setTag a relNo va s).recordView = s.recordView := by
  unfold setTag
  dsimp only
  split
  · split <;> split <;> rfl
  · rfl

theorem withSpad_recordView (m : Memory) : { s with spad := m }.recordView = s.recordView := rfl

theorem windowLane_recordView (a : Access) (L : Fin 32) : (windowLane a L s).after.recordView = s.recordView := by
  have hflag (m : Memory) (f : Flags) : ({ s with spad := m }.flag f).recordView = s.recordView := rfl
  grind [windowLane, Access.result_recordView, putElem_recordView, withSpad_recordView, LaneRes.after]

theorem globalLane_recordView (a : Access) (k : LaneCtx) (L : Fin 32) : (globalLane a k L s).after.recordView = s.recordView := by
  have hread := gangRead_keepsRecords k.got s.agent
  unfold globalLane
  dsimp only
  split
  · split
    · exact (Got.lane_recordView fun f s => s.flag_recordView f).trans (Rec.writeElem_recordView (gangRead_keepsRecords _ _) s
        (gangReadForWrite_keepsRecords _) (gangWrite_keepsRecords _) _ _ _ _ _)
    · exact (Got.lane_recordView fun v s => putElem_recordView s a L v).trans
        (Rec.readElemBy_recordView hread s (fun o n s => Rec.fetchFrom_recordView hread s _ _ o n) _ _)
  split
  · rfl
  split
  · exact (Done.lane_recordView fun _ _ => rfl).trans (updVa_recordView s _ _ _ _ _ _)
  · exact (Done.lane_recordView fun _ s => setTag_recordView s a _ _).trans (updVa_recordView s _ _ _ _ _ _)
  · exact (Done.lane_recordView fun b s => Access.result_recordView s a L _).trans (readScoped_recordView s _ _ _ _)
  · refine (Done.lane_recordView fun b s => ?_).trans (updVa_recordView s _ _ _ _ _ _)
    split
    · exact Access.result_recordView s a L _
    · rfl
  · exact (Done.lane_recordView fun b s => Access.result_recordView s a L _).trans (hread _ _ s)

/-- A lane leaves the records as they are. -/
theorem accessLane_recordView (a : Access) (k : LaneCtx) (L : Fin 32) : (accessLane a k L s).after.recordView = s.recordView := by
  unfold accessLane
  split
  · exact windowLane_recordView s a L
  · exact globalLane_recordView s a k L

end

/-- The record of a slot is read from the view. -/
theorem Access.record_eq (a : Access) {s t : State} (h : t.recordView = s.recordView) : a.record t = a.record s := by
  simp only [State.recordView, Prod.mk.injEq] at h
  obtain ⟨hcore, hnode, htables⟩ := h
  simp only [Access.record, recordOf, recordAt, hcore, hnode, congrFun htables]

end Sys2Proof.Machine
end

section
/-! Words of the operand log whose lanes all succeed at once (05 R138-R141; 06 R172, R174; 03 R80). -/

namespace Sys2Proof.Machine

/-- The state that a lane leaves where it is done. -/
def LaneRes.done? : LaneRes → Option State
  | .done s => some s
  | _ => none

/-- Lanes that are all done leave none to be performed and none parked. -/
theorem runLanes_done {a : Access} {k : LaneCtx} {e : Nat} {p : Progress} (hp : p.todo = 0) : ∀ {Ls : List (Fin 32)} {s u : State},
    Ls.foldlM (fun s L => (accessLane a k L s).done?) s = some u → runLanes a k e Ls p s = (p, u)
  | [], s, u, h => by
    obtain rfl : s = u := Option.some.inj h
    rfl
  | L :: Ls, s, u, h => by
    have hshare : a.sharesLine s p.todo L = false := by rw [Access.sharesLine, hp]; rfl
    rw [List.foldlM_cons] at h
    rw [runLanes, hshare, if_neg Bool.false_ne_true]
    cases hl : accessLane a k L s with
    | done t =>
      rw [hl] at h
      exact runLanes_done hp h
    | bad | wait => rw [hl] at h; exact absurd h (by simp [LaneRes.done?])

/-- Lanes that do what f says, f being a lane of the access wherever the records stand as they do in s. -/
theorem foldlM_done {a : Access} {k : LaneCtx} {f : Fin 32 → State → Option State} {s : State}
    (hf : ∀ L v, v.recordView = s.recordView → (accessLane a k L v).done? = f L v) : ∀ {Ls : List (Fin 32)} {v : State},
    v.recordView = s.recordView → Ls.foldlM (fun s L => (accessLane a k L s).done?) v = Ls.foldlM (fun s L => f L s) v
  | [], _, _ => rfl
  | L :: Ls, v, hv => by
    have hview := accessLane_recordView v a k L
    rw [List.foldlM_cons, List.foldlM_cons, ← hf L v hv]
    cases hl : accessLane a k L v with
    | done t =>
      rw [hl] at hview
      exact foldlM_done hf (hview.trans hv)
    | bad | wait => rfl

/-- An access other than a transposed load, whose record allows it and whose lanes are all done. -/
theorem perform_done {x : LogEntry} {a : Access} {e : Nat} {lanes : Word} {s v u : State} {k : Blocks} (hkind : ∀ z, a.op.kind ≠ .ldtr z)
    (hrec : a.recordFault lanes s = none)
    (hk : fetchBlocks (gangRead x.got s.agent) (a.tensorBase s) (a.blocksOf lanes s) ⟨x.blocks, []⟩ s = (k, v))
    (hrun : (laneList lanes).foldlM (fun s L => (accessLane a ⟨x.got, k, x.relNo⟩ L s).done?) v = some u) :
    perform x a e lanes [] s = ({ todo := 0, parked := [], blocks := k.known }, a.land u) := by
  have hlanes := runLanes_done (p := { todo := 0, parked := [], blocks := k.known }) (e := e) rfl hrun
  simp only [perform, hrec, hk, hlanes]

/-- An access with no lane left and none parked leaves its entry free. -/
theorem settle_done (e : Nat) (x : LogEntry) (l : List (Nat × Image)) (s : State) :
    settle e x { todo := 0, parked := [], blocks := l } s = s.setG fun g => g.setEntry e LogEntry.empty := rfl

section
variable {i : Instr} {s : State} {a : Access} {e : Nat} {mk : State → Access}
  (hi : exec i s = .next (memWord (wordShapeOf i) mk s)) (hf : isFifoWord i = false) (ha : mk s = a) (hm : MayIssue i s = true)
include hi hf ha hm

/-- A word of the operand log without a lane has no effect. -/
theorem memWord_noLane (h0 : a.active = 0) : exec i s = .next (Opens i s) := by
  rw [exec_word i s hm _ hi hf]
  simp only [ha, h0, if_true]
  rfl

/-- A word of the operand log that nothing stands in front of takes its entry. -/
theorem memWord_starts (h0 : a.active ≠ 0) (hc : Clear s a e) : exec i s = .next (memStart (wordShapeOf i) a e s) := by
  obtain ⟨hfree, hparked, hflight, hholds, -⟩ := hc
  rw [exec_word i s hm _ hi hf]
  simp only [ha, h0, hfree, hparked, hholds, hflight, if_false, Bool.or_self, Bool.false_eq_true]

end

/-- A word that has taken its entry, and is not left in flight, performs its access at once. -/
theorem memStart_performs {sh : Shape} {a : Access} {e : Nat} {s u : State} {p : Progress} (hc : Clear s a e) (hfl : s.inFlight = false)
    (hp : perform (a.newEntry s) a e a.active [] { s with nextId := s.nextId + 1 } = (p, u)) :
    memStart sh a e s = openWindow sh (if ((settle e (a.newEntry s) p u).g.entry e).state = .free then none else some e)
      (settle e (a.newEntry s) p u) := by
  have hnow : ({ s with nextId := s.nextId + 1 }.inFlight || (a.op.kind.writes && s.g.flies MemKind.fences)) = false := by
    obtain ⟨-, -, -, -, hfence⟩ := hc
    cases hw : a.op.kind.writes with
    | false => rw [hfl]; rfl
    | true => rw [hfl, hfence hw]; rfl
  unfold memStart
  dsimp only
  rw [hnow, if_neg Bool.false_ne_true, hp]

/-- The entry is free again, where no lane is left and none is parked. -/
theorem memStart_performed {sh : Shape} {a : Access} {e : Nat} {s u : State} {l : List (Nat × Image)} (hc : Clear s a e) (hfl : s.inFlight = false)
    (hp : perform (a.newEntry s) a e a.active [] { s with nextId := s.nextId + 1 } = ({ todo := 0, parked := [], blocks := l }, u)) :
    memStart sh a e s = openWindow sh none (u.setG fun g => g.setEntry e LogEntry.empty) := by
  have hentry : ((u.g.setEntry e LogEntry.empty).entry e).state = .free := by rw [setEntry_entry _ _ _ (freeEntry_lt _ _ hc.1)]; rfl
  rw [memStart_performs hc hfl hp, settle_done, State.setG_g, if_pos hentry]

/-- A word of the operand log whose lanes do what f says, as long as they find the record of its slot as the word does. -/
theorem logRun_of {i : Instr} {a : Access} {f : Blocks → Fin 32 → State → Option State} {s : State} {mk : State → Access}
    (hi : exec i s = .next (memWord (wordShapeOf i) mk s)) (ha : mk s = a) (hkind : ∀ z, a.op.kind ≠ .ldtr z)
    (hlane : ∀ k L v, a.record v = a.record s → (accessLane a ⟨[], k, 0⟩ L v).done? = f k L v)
    (hf : isFifoWord i = false := by rfl) : LogRun i a f s := by
  intro e u k v hm hfl hc hrec hk hrun
  split
  case isTrue h0 => exact memWord_noLane hi hf ha hm h0
  case isFalse h0 =>
    have hview : v.recordView = s.recordView := by
      have h := fetchBlocks_recordView (gangRead_keepsRecords [] s.agent) { s with nextId := s.nextId + 1 } (a.tensorBase s)
        (a.blocksOf a.active s) ⟨[], []⟩
      rw [hk] at h
      exact h
    rw [← foldlM_done (k := ⟨[], k, 0⟩) (fun L v hv => hlane k L v (a.record_eq hv)) hview] at hrun
    rw [memWord_starts hi hf ha hm h0 hc, memStart_performed hc hfl (perform_done hkind hrec hk hrun)]
    rfl

end Sys2Proof.Machine
end

section
/-! Loads and stores through the operand log (05 R138-R147): a lane that succeeds as the statements say is done. -/

namespace Sys2Proof.Machine

theorem Access.record_of_slot_zero {a : Access} (h : a.op.slot = 0) (s : State) : a.record s = none := if_pos h

/-- The record that a word captures with its slot. -/
theorem capture_record {op : MemOp} {lanes : Word} {base idx extra : Dword} {offs : Lanes Word} {data : List (Lanes Word)} {s : State} {R : Rec}
    (hslot : op.slot ≠ 0) (hR : recordFields (recordOf s (slotIdent s.src op.slot)) = some R) :
    (capture op lanes base idx extra offs data s).record s = some R := by
  simp only [capture, Access.record, hslot, if_false, hR]

/-! ## One lane in global memory -/

section
variable {a : Access} {L : Fin 32} {s : State} (k : Blocks) (hwindow : a.op.window = false)
include hwindow

theorem accessLane_load {x : Bool} (hkind : a.op.kind = .load x) (hrec : a.record s = none) :
    (accessLane a ⟨[], k, 0⟩ L s).done? = loadLane (a.addr L) a.op.bytes (a.result L) s := by
  simp only [accessLane, globalLane, loadLane, hwindow, hrec, hkind, bne_iff_ne, if_false, Bool.false_eq_true]
  split
  · rfl
  · cases gangRead [] s.agent (a.addr L) a.op.bytes s <;> rfl

theorem accessLane_store (hkind : a.op.kind = .store) (hrec : a.record s = none) :
    (accessLane a ⟨[], k, 0⟩ L s).done? = storeLane (a.addr L) a.op.bytes (a.value L) s := by
  simp only [accessLane, globalLane, storeLane, hwindow, hrec, hkind, bne_iff_ne, if_false, Bool.false_eq_true]
  split
  · rfl
  · cases updVa s.agent .l1 .store (a.addr L) a.op.bytes (fun _ => toBytes a.op.bytes (a.value L)) s <;> rfl

theorem accessLane_elemLoad {x : Bool} {R : Rec} (hkind : a.op.kind = .load x) (hrec : a.record s = some R) :
    (accessLane a ⟨[], k, 0⟩ L s).done? = elemLoadLane R k (a.addr L) (a.result L) s := by
  simp only [accessLane, globalLane, elemLoadLane, hwindow, hrec, hkind, if_false, Bool.false_eq_true]
  cases R.readElemBy (R.fetchFrom (gangRead [] s.agent) k) (gangRead [] s.agent) (R.coords (a.addr L)) s <;> rfl

theorem accessLane_elemStore {R : Rec} (hkind : a.op.kind = .store) (hrec : a.record s = some R) :
    (accessLane a ⟨[], k, 0⟩ L s).done? = elemStoreLane R (a.addr L) (a.value L) s := by
  simp only [accessLane, globalLane, elemStoreLane, hwindow, hrec, hkind, if_false, Bool.false_eq_true]
  cases R.writeElem (gangRead [] s.agent) (gangReadForWrite s.agent) (gangWrite s.agent) .rne 0 (R.coords (a.addr L))
    (f32 (BitVec.ofNat 32 (a.value L))) s <;> rfl

end

/-! ## Words without a record, and words through one -/

section
variable {i : Instr} {s : State} {a : Access} {mk : State → Access} (hi : exec i s = .next (memWord (wordShapeOf i) mk s)) (ha : mk s = a)
include hi ha

theorem logWord_load {x : Bool} {n : Nat} {va : Fin 32 → Nat} {put : Fin 32 → Nat → State → State}
    (hop : a.op.window = false ∧ a.op.slot = 0 ∧ a.op.kind = .load x ∧ a.op.bytes = n) (haddr : ∀ L, a.addr L = va L)
    (hput : ∀ L, a.result L = put L) (hf : isFifoWord i = false := by rfl) : LogWord i a (fun L => loadLane (va L) n (put L)) s := by
  obtain ⟨hwindow, hslot, hkind, hbytes⟩ := hop
  exact logRun_of hi ha (by simp [hkind])
    (fun k L v _ => by rw [accessLane_load k hwindow hkind (a.record_of_slot_zero hslot v), haddr, hbytes, hput]) hf

theorem logWord_store {n : Nat} {va x : Fin 32 → Nat}
    (hop : a.op.window = false ∧ a.op.slot = 0 ∧ a.op.kind = .store ∧ a.op.bytes = n) (haddr : ∀ L, a.addr L = va L)
    (hvalue : ∀ L, a.value L = x L) (hf : isFifoWord i = false := by rfl) : LogWord i a (fun L => storeLane (va L) n (x L)) s := by
  obtain ⟨hwindow, hslot, hkind, hbytes⟩ := hop
  exact logRun_of hi ha (by simp [hkind])
    (fun k L v _ => by rw [accessLane_store k hwindow hkind (a.record_of_slot_zero hslot v), haddr, hbytes, hvalue]) hf

theorem logRun_elemLoad {x : Bool} {R : Rec} {j : Fin 32 → Nat} {put : Fin 32 → Nat → State → State} (hrec : a.record s = some R)
    (hop : a.op.window = false ∧ a.op.kind = .load x) (haddr : ∀ L, a.addr L = j L) (hput : ∀ L, a.result L = put L)
    (hf : isFifoWord i = false := by rfl) : LogRun i a (fun k L => elemLoadLane R k (j L) (put L)) s := by
  obtain ⟨hwindow, hkind⟩ := hop
  exact logRun_of hi ha (by simp [hkind])
    (fun k L v hv => by rw [accessLane_elemLoad k hwindow hkind (hv.trans hrec), haddr, hput]) hf

theorem logWord_elemStore {R : Rec} {j x : Fin 32 → Nat} (hrec : a.record s = some R) (hop : a.op.window = false ∧ a.op.kind = .store)
    (haddr : ∀ L, a.addr L = j L) (hvalue : ∀ L, a.value L = x L) (hf : isFifoWord i = false := by rfl) :
    LogWord i a (fun L => elemStoreLane R (j L) (x L)) s := by
  obtain ⟨hwindow, hkind⟩ := hop
  exact logRun_of hi ha (by simp [hkind])
    (fun k L v hv => by rw [accessLane_elemStore k hwindow hkind (hv.trans hrec), haddr, hvalue]) hf

end

theorem toNat_ne_zero {w : Nat} {x : BitVec w} (h : x ≠ 0) : x.toNat ≠ 0 := fun h0 => h (BitVec.eq_of_toNat_eq h0)

/-- A word of major 5 that names no vector register has only its own code to be illegal by (03 R75). -/
theorem illegalCode_of_uniform {sh : Shape} {s : State} (hm : sh.major = 5) (hr : rangeBad s sh = false) : illegalCode s sh false = sh.bad := by
  have ha : engineAbsent 5 false s.g.coreIx = false := by unfold engineAbsent; split <;> rfl
  have hrole : roleAllows s.g.role 5 = true := by cases s.g.role <;> rfl
  simp only [illegalCode, hm, ha, hr, hrole, codeIf, Bool.not_true, Bool.and_false, Bool.false_eq_true, if_false]
  cases sh.bad <;> rfl

/-- sld.nf and sst.nf with slot 0 trap in front of themselves. -/
theorem trapsWith_of_uniform {i : Instr} {s : State} (hi : i.isWord = true) (hf : isFifoWord i = false) (hm : (wordShapeOf i).major = 5)
    (hr : rangeBad s (wordShapeOf i) = false) (hbad : (wordShapeOf i).bad = some 4) : TrapsWith i s 5 4 (wordDetail s.curWord s.g.place) :=
  (issues_of_isWord i s hi).trapsWith (issueCode_of_illegal (hf ▸ (illegalCode_of_uniform hm hr).trans hbad))

/-- Settles O19: each word is its access (`logRun_of`), whose lanes are those of the statement. -/
theorem uniformAndVectorLoadsAndStores : Obligations.UniformAndVectorLoadsAndStores := by
  unfold Obligations.UniformAndVectorLoadsAndStores
  refine ⟨fun v a b t l R s => ⟨?sldB64, ?sldN32, ?sldI32, ?sldNf0, fun ht hR => ?sldNf, ?sstB64, ?sstB32, ?sstNf0, fun ht hR => ?sstNf⟩,
    fun v a b t l R s => ⟨?ldB32, ?ldRaw, fun ht hR => ?ldNf, ?stB32, ?stRaw, fun ht hR => ?stNf⟩⟩
  case sldB64 | sldN32 | sldI32 | ldB32 | ldRaw => exact logWord_load rfl rfl ⟨rfl, rfl, rfl, rfl⟩ (fun _ => rfl) (fun _ => rfl)
  case sstB64 | sstB32 | stB32 | stRaw => exact logWord_store rfl rfl ⟨rfl, rfl, rfl, rfl⟩ (fun _ => rfl) (fun _ => rfl)
  case sldNf0 | sstNf0 => exact trapsWith_of_uniform rfl rfl rfl rfl rfl
  case sldNf | ldNf => exact logRun_elemLoad rfl rfl (capture_record (toNat_ne_zero ht) hR) ⟨rfl, rfl⟩ (fun _ => rfl) (fun _ => rfl)
  case sstNf | stNf => exact logWord_elemStore rfl rfl (capture_record (toNat_ne_zero ht) hR) ⟨rfl, rfl⟩ (fun _ => rfl) (fun _ => rfl)

end Sys2Proof.Machine
end

section
/-! Loads and stores of the scratchpad, and transposed loads (05 R145-R147; 01 R31). -/

namespace Sys2Proof.Machine

/-! ## One lane in the scratchpad -/

section
variable {a : Access} {L : Fin 32} {s : State} (k : Blocks) (hwindow : a.op.window = true)
include hwindow

theorem accessLane_padLoad {x : Bool} (hkind : a.op.kind = .load x) (hrec : a.record s = none) :
    (accessLane a ⟨[], k, 0⟩ L s).done? = padLoadLane (a.addr L) a.op.bytes (a.result L) s := by
  simp only [accessLane, windowLane, padLoadLane, hwindow, hrec, hkind, bne_iff_ne, if_true]
  split
  · rfl
  · cases spadKey s (a.addr L) <;> rfl

theorem accessLane_padStore (hkind : a.op.kind = .store) (hrec : a.record s = none) :
    (accessLane a ⟨[], k, 0⟩ L s).done? = padStoreLane (a.addr L) a.op.bytes (a.value L) s := by
  simp only [accessLane, windowLane, padStoreLane, hwindow, hrec, hkind, bne_iff_ne, if_true]
  split
  · rfl
  · cases spadKey s (a.addr L) <;> rfl

theorem accessLane_padElemLoad {x : Bool} {R : Rec} (hkind : a.op.kind = .load x) (hrec : a.record s = some R) :
    (accessLane a ⟨[], k, 0⟩ L s).done? =
      padLoadLane (swizzle R.swz (a.addr L)) R.cbytes (fun x s => a.result L (padElem R x).1 (s.flag (padElem R x).2)) s := by
  simp only [accessLane, windowLane, padLoadLane, hwindow, hrec, hkind, bne_iff_ne, if_true, putElem, Rec.code, pow_zero, Nat.div_one]
  split
  · rfl
  · cases spadKey s (swizzle R.swz (a.addr L)) <;> rfl

theorem accessLane_padElemStore {R : Rec} (hkind : a.op.kind = .store) (hrec : a.record s = some R) :
    let c := R.elem.fmt.round .rne 0 (f32 (BitVec.ofNat 32 (a.value L)))
    (accessLane a ⟨[], k, 0⟩ L s).done? = (padStoreLane (swizzle R.swz (a.addr L)) R.cbytes c.1 s).map fun u => u.flag c.2 := by
  simp only [accessLane, windowLane, padStoreLane, hwindow, hrec, hkind, bne_iff_ne, if_true]
  split
  · rfl
  · cases spadKey s (swizzle R.swz (a.addr L)) <;> rfl

end

/-! ## Words of the window -/

section
variable {i : Instr} {s : State} {a : Access} {mk : State → Access} (hi : exec i s = .next (memWord (wordShapeOf i) mk s)) (ha : mk s = a)
include hi ha

theorem logWord_padLoad {x : Bool} {n : Nat} {va : Fin 32 → Nat} {put : Fin 32 → Nat → State → State}
    (hop : a.op.window = true ∧ a.op.slot = 0 ∧ a.op.kind = .load x ∧ a.op.bytes = n) (haddr : ∀ L, a.addr L = va L)
    (hput : ∀ L, a.result L = put L) (hf : isFifoWord i = false := by rfl) : LogWord i a (fun L => padLoadLane (va L) n (put L)) s := by
  obtain ⟨hwindow, hslot, hkind, hbytes⟩ := hop
  exact logRun_of hi ha (by simp [hkind])
    (fun k L v _ => by rw [accessLane_padLoad k hwindow hkind (a.record_of_slot_zero hslot v), haddr, hbytes, hput]) hf

theorem logWord_padStore {n : Nat} {va x : Fin 32 → Nat}
    (hop : a.op.window = true ∧ a.op.slot = 0 ∧ a.op.kind = .store ∧ a.op.bytes = n) (haddr : ∀ L, a.addr L = va L)
    (hvalue : ∀ L, a.value L = x L) (hf : isFifoWord i = false := by rfl) : LogWord i a (fun L => padStoreLane (va L) n (x L)) s := by
  obtain ⟨hwindow, hslot, hkind, hbytes⟩ := hop
  exact logRun_of hi ha (by simp [hkind])
    (fun k L v _ => by rw [accessLane_padStore k hwindow hkind (a.record_of_slot_zero hslot v), haddr, hbytes, hvalue]) hf

theorem logWord_padElemLoad {x : Bool} {R : Rec} {va : Fin 32 → Nat} {put : Fin 32 → Nat → State → State} (hrec : a.record s = some R)
    (hop : a.op.window = true ∧ a.op.kind = .load x) (haddr : ∀ L, a.addr L = va L) (hput : ∀ L, a.result L = put L)
    (hf : isFifoWord i = false := by rfl) :
    LogWord i a (fun L => padLoadLane (swizzle R.swz (va L)) R.cbytes fun x s => put L (padElem R x).1 (s.flag (padElem R x).2)) s := by
  obtain ⟨hwindow, hkind⟩ := hop
  exact logRun_of hi ha (by simp [hkind])
    (fun k L v hv => by rw [accessLane_padElemLoad k hwindow hkind (hv.trans hrec), haddr, hput]) hf

theorem logWord_padElemStore {R : Rec} {va : Fin 32 → Nat} {x : Fin 32 → Word} (hrec : a.record s = some R)
    (hop : a.op.window = true ∧ a.op.kind = .store) (haddr : ∀ L, a.addr L = va L) (hvalue : ∀ L, a.value L = (x L).toNat)
    (hf : isFifoWord i = false := by rfl) :
    LogWord i a (fun L s => (padStoreLane (swizzle R.swz (va L)) R.cbytes (R.elem.fmt.round .rne 0 (f32 (x L))).1 s).map fun u =>
      u.flag (R.elem.fmt.round .rne 0 (f32 (x L))).2) s := by
  obtain ⟨hwindow, hkind⟩ := hop
  exact logRun_of hi ha (by simp [hkind])
    (fun k L v hv => by
      rw [accessLane_padElemStore k hwindow hkind (hv.trans hrec), haddr, hvalue, BitVec.ofNat_toNat, BitVec.setWidth_eq]) hf

end

/-- A window address is the lane's register itself (05 R145). -/
theorem capVector_window_addr (op : MemOp) (hu : op.uniform = false) (a : Nat) (srcs : List Nat) (s : State) (L : Fin 32) :
    (capVector op a 0 srcs s).addr L = (s.src.vreg a)[L].toNat := by
  have h0 : s.src.sreg 0 = 0 := rfl
  have hlt := (s.src.vreg a)[L].isLt
  simp only [Access.addr, capVector, capture, hu, h0, Bool.false_eq_true, if_false, zero_add, BitVec.toNat_setWidth]
  omega

/-! ## Transposed loads -/

/-- The active lanes. -/
theorem mem_laneList {m : Word} {L : Fin 32} : L ∈ laneList m ↔ lane m L = true := by
  simp [laneList, lanes32]

/-- Bytes of a row. -/
theorem slice_read (m : Memory) {a k n N : Nat} (h : k + n ≤ N) : slice (m.read a N) k n = m.read (a + k) n := by
  refine List.ext_getElem ?length fun i hi _ => ?bytes
  case length => simp only [slice, List.length_take, List.length_drop, Memory.read_length]; omega
  case bytes => simp only [slice, List.getElem_take, List.getElem_drop, Memory.read_getElem, Nat.add_assoc]

/-- A fold that collects, and finds nothing bad on the way. -/
theorem foldl_collects {α β γ : Type} {f : List β × List γ → α → List β × List γ} {g : α → β} :
    ∀ (l : List α) (rows : List β), (∀ x ∈ l, ∀ rows, f (rows, []) x = (rows ++ [g x], [])) → l.foldl f (rows, []) = (rows ++ l.map g, [])
  | [], rows, _ => by simp
  | x :: l, rows, h => by
    rw [List.foldl_cons, h x List.mem_cons_self, foldl_collects l _ fun y hy => h y (List.mem_cons_of_mem _ hy), List.map_cons, List.append_assoc]
    rfl

/-- The row address of a lane of a transposed load, through its record. -/
def Access.rowAddr (a : Access) (s : State) (L : Fin 32) : Nat :=
  match a.record s with
  | some R => swizzle R.swz (a.addr L)
  | none => a.addr L

/-- The rows of a transposed load all of whose active lanes pass. -/
theorem trRows_good {a : Access} {z e : Nat} {s : State} {key : Fin 32 → Nat}
    (h : ∀ L, lane a.lanes L = true → a.rowAddr s L % (4 * z) = 0 ∧ spadKey s (a.rowAddr s L) = .ok (key L)) :
    trRows a z e s = ((laneList a.lanes).map fun L => (L, s.spad.read (key L) (4 * z)), []) := by
  refine foldl_collects (laneList a.lanes) [] fun L hL rows => ?_
  obtain ⟨halign, hkey⟩ := h L (mem_laneList.mp hL)
  unfold Access.rowAddr at halign hkey
  cases hR : a.record s <;> rw [hR] at halign hkey <;> simp [halign, hkey]

section
variable (m : Memory) (mask : Word) (key : Fin 32 → Nat) {z : Nat}

/-- The row of an active lane, found among the rows. -/
theorem find_row {β : Type} (row : Fin 32 → β) (n : Nat) : ((laneList mask).map fun L => (L, row L)).find? (fun x => x.1.val = n) =
    if h : n < 32 then (if lane mask ⟨n, h⟩ then some (⟨n, h⟩, row ⟨n, h⟩) else none) else none := by
  cases hfind : ((laneList mask).map fun L => (L, row L)).find? fun x => x.1.val = n with
  | none =>
    have hnone : ∀ L, lane mask L = true → L.val ≠ n := by simpa [List.find?_eq_none, mem_laneList] using hfind
    grind
  | some x =>
    have hn : x.1.val = n := by simpa using List.find?_some hfind
    obtain ⟨L, hL, rfl⟩ := List.mem_map.mp (List.mem_of_find?_eq_some hfind)
    subst hn
    rw [dif_pos L.isLt, if_pos (mem_laneList.mp hL)]

theorem trElem_rows (h r : Nat) {c : Nat} (hc : c < 4) : trElem ((laneList mask).map fun L => (L, m.read (key L) (4 * z))) z h r c =
    if hr : 16 * h + r < 32 then (if lane mask ⟨16 * h + r, hr⟩ then ofBytes (m.read (key ⟨16 * h + r, hr⟩ + c * z) z) else 0) else 0 := by
  have hlen : c * z + z ≤ 4 * z := by nlinarith
  rw [trElem, find_row]
  by_cases hr : 16 * h + r < 32
  · by_cases hl : lane mask ⟨16 * h + r, hr⟩ = true <;> simp [hr, hl, slice_read m hlen]
  · simp [hr]

theorem trWord_rows (j : Nat) (L : Fin 32) :
    trWord ((laneList mask).map fun L => (L, m.read (key L) (4 * z))) z j L = trRegister m mask key z j L := by
  have hc : L.val % 16 / 4 < 4 := by omega
  unfold trWord trRegister
  simp only [trElem_rows m mask key _ _ hc]
  split <;> simp_all

end

/-- Registers d, …, d + z - 1 written one by one under a mask. -/
theorem foldl_setV_merge {mask : Word} {d : Nat} {x : Nat → Lanes Word} (s : State) : ∀ z, d + z ≤ 128 →
    ∃ u, (List.range z).foldl (fun s j => s.setR fun r => r.setV (d + j) (merge mask (r.vreg (d + j)) (x j))) s = s.setR (fun _ => u) ∧
      u = { s.g.r with v := u.v } ∧
      ∀ r (L : Fin 32), (u.vreg r)[L] = if lane mask L = true ∧ d ≤ r ∧ r < d + z then (x (r - d))[L] else (s.g.r.vreg r)[L]
  | 0, _ => ⟨s.g.r, rfl, rfl, fun r L => by rw [if_neg (by omega)]⟩
  | z + 1, hz => by
    obtain ⟨u, hfold, hrest, hlanes⟩ := foldl_setV_merge s (mask := mask) (d := d) (x := x) z (by omega)
    refine ⟨u.setV (d + z) (merge mask (u.vreg (d + z)) (x z)), ?fold, ?rest, fun r L => ?lanes⟩
    case fold => rw [List.range_succ, List.foldl_append, hfold]; rfl
    case rest => rw [hrest]; rfl
    case lanes =>
      rw [Regs.setV_vreg _ _ _ _ (by omega)]
      split
      case isTrue h =>
        subst h
        rw [merge_lane, hlanes, Nat.add_sub_cancel_left]
        grind
      case isFalse h =>
        rw [hlanes]
        grind

/-- A record that a transposed load may read through. -/
theorem Tr.recordFault_none {s : State} {t a z d : Nat} {R : Option Rec} {key : Fin 32 → Nat} (h : Tr s t a z R key) (lanes : Word) (v : State)
    (hv : v.recordView = s.recordView) :
    (capVector (mopWindow (.ldtr z) 4 t d) a 0 [] s).record v = R ∧
      (capVector (mopWindow (.ldtr z) 4 t d) a 0 [] s).recordFault lanes v = none := by
  obtain ⟨hR, -⟩ := h
  have hrec : (capVector (mopWindow (.ldtr z) 4 t d) a 0 [] s).record v = R := by
    rw [Access.record_eq _ hv]
    split at hR
    case isTrue h0 => exact (Access.record_of_slot_zero h0 s).trans hR.symm
    case isFalse h0 =>
      obtain ⟨hsome, hfields, -⟩ := hR
      obtain ⟨x, rfl⟩ := Option.isSome_iff_exists.mp hsome
      exact capture_record h0 hfields
  refine ⟨hrec, ?_⟩
  rw [Access.recordFault, hrec]
  split at hR
  case isTrue h0 => exact if_pos h0
  case isFalse h0 =>
    obtain ⟨hsome, -, hallows⟩ := hR
    obtain ⟨x, rfl⟩ := Option.isSome_iff_exists.mp hsome
    obtain ⟨hread, henc⟩ := hallows x rfl
    refine (if_neg h0).trans ?_
    simp [capVector, capture, mopWindow, hread, henc]

/-- A transposed load all of whose rows pass. -/
theorem exec_ldtr {i : Instr} {s : State} {t a z d e : Nat} {R : Option Rec} {key : Fin 32 → Nat}
    (hi : exec i s = .next (memWord (wordShapeOf i) (capVector (mopWindow (.ldtr z) 4 t d) a 0 []) s)) (hf : isFifoWord i = false)
    (hdst : ∀ j < z, d + j ∈ (wordShapeOf i).dst) (hblk : 0 ∈ (blockFor i s).offsets) (hz : 0 < z) (hm : MayIssue i s = true)
    (ht : Tr s t a z R key) (hfl : s.inFlight = false) (hc : Clear s (capVector (mopWindow (.ldtr z) 4 t d) a 0 [] s) e) (hmask : s.src.emask ≠ 0) :
    ∃ u, exec i s = .next (Opens i ({ s with nextId := s.nextId + 1, g := { s.g with r := u } }.setG fun g => g.setEntry e LogEntry.empty)) ∧
      u = { s.g.r with v := u.v } ∧ ∀ r (L : Fin 32), (u.vreg r)[L] =
        if lane s.src.emask L = true ∧ d ≤ r ∧ r < d + z then trRegister s.spad s.src.emask key z (r - d) L else (s.g.r.vreg r)[L] := by
  obtain ⟨hrec, hfault⟩ := ht.recordFault_none (d := d)
    (capVector (mopWindow (.ldtr z) 4 t d) a 0 [] s).active { s with nextId := s.nextId + 1 } rfl
  have hregs : d + z ≤ 128 := by
    have := mayIssue_dst i s hm _ (hdst (z - 1) (by omega)) 0 hblk
    omega
  have hrows := trRows_good (a := capVector (mopWindow (.ldtr z) 4 t d) a 0 [] s) (z := z) (e := e) (key := key)
    (s := { s with nextId := s.nextId + 1 })
    (fun L hL => by
      have haddr := capVector_window_addr (mopWindow (.ldtr z) 4 t d) rfl a [] s L
      rw [Access.rowAddr, hrec, haddr]
      exact ht.2 L hL)
  obtain ⟨u, hfold, hrest, hlanes⟩ := foldl_setV_merge (mask := s.src.emask) (d := d)
    (x := fun j => Lanes.of fun L => trWord ((laneList s.src.emask).map fun L => (L, s.spad.read (key L) (4 * z))) z j L)
    { s with nextId := s.nextId + 1 } z hregs
  refine ⟨u, ?exec, hrest, fun r L => ?lanes⟩
  case lanes => rw [hlanes]; simp only [Lanes.of_get, trWord_rows]
  case exec =>
    rw [memWord_starts hi hf rfl hm hmask hc, memStart_performed hc hfl (u := { s with nextId := s.nextId + 1, g := { s.g with r := u } }) (l := [])]
    · rfl
    · have hrun : runTr (capVector (mopWindow (.ldtr z) 4 t d) a 0 [] s) z e { s with nextId := s.nextId + 1 } =
          ({ todo := 0, parked := [] }, { s with nextId := s.nextId + 1, g := { s.g with r := u } }) := by
        rw [runTr, hrows]
        exact congrArg (Prod.mk _) hfold
      rw [perform, hfault]
      exact hrun

/-- Settles O20: a load or store of the window is its access (`logRun_of`), and a transposed load is its rows (`exec_ldtr`). -/
theorem scratchpadLoadsStoresAndTransposes : Obligations.ScratchpadLoadsStoresAndTransposes := by
  unfold Obligations.ScratchpadLoadsStoresAndTransposes
  refine ⟨fun v a t l R s => ⟨?pldB32, ?pldRaw, fun ht hR => ?pldNf, ?pldB64, ?pstB32, ?pstRaw, fun ht hR => ?pstNf, ?pstB64⟩,
    fun d a t l R key e s => ⟨exec_ldtr rfl rfl ?dst1 ?_ (by decide), exec_ldtr rfl rfl ?dst2 ?_ (by decide),
      exec_ldtr rfl rfl ?dst4 ?_ (by decide)⟩⟩
  case pldB32 | pldRaw | pldB64 => exact logWord_padLoad rfl rfl ⟨rfl, rfl, rfl, rfl⟩ (capVector_window_addr _ rfl _ _ _) (fun _ => rfl)
  case pstB32 | pstRaw | pstB64 => exact logWord_padStore rfl rfl ⟨rfl, rfl, rfl, rfl⟩ (capVector_window_addr _ rfl _ _ _) (fun _ => rfl)
  case pldNf =>
    exact logWord_padElemLoad rfl rfl (capture_record (toNat_ne_zero ht) hR) ⟨rfl, rfl⟩ (capVector_window_addr _ rfl _ _ _) (fun _ => rfl)
  case pstNf =>
    exact logWord_padElemStore rfl rfl (capture_record (toNat_ne_zero ht) hR) ⟨rfl, rfl⟩ (capVector_window_addr _ rfl _ _ _) (fun _ => rfl)
  case dst1 => intro j hj; rw [Nat.lt_one_iff.mp hj]; exact List.mem_singleton.mpr rfl
  case dst2 | dst4 => exact fun j hj => List.mem_map.mpr ⟨j, List.mem_range.mpr hj, rfl⟩
  all_goals exact List.mem_singleton.mpr rfl

end Sys2Proof.Machine
end

section
/-! Atomics (05 R150-R154). -/

namespace Sys2Proof.Machine

/-! ## Signed numbers of a width -/

/-- The value below 2^(8n) that an atomic reads as signed. -/
theorem signedOf_eq {n x : Nat} (h : x < 2 ^ (8 * n)) : signedOf n x =
    if 2 * x < 2 ^ (8 * n) then (x : Int) else (x : Int) - ((2 ^ (8 * n) : Nat) : Int) := by
  rw [signedOf, BitVec.toInt_eq_toNat_cond, BitVec.toNat_ofNat, Nat.mod_eq_of_lt h]

theorem atomicNew_min {n old b c d : Nat} (ho : old < 2 ^ (8 * n)) (hb : b < 2 ^ (8 * n)) : atomicNew 4 (8 * n) old b c d = newMin n old b := by
  rw [newMin, signedOf_eq ho, signedOf_eq hb]; rfl

theorem atomicNew_max {n old b c d : Nat} (ho : old < 2 ^ (8 * n)) (hb : b < 2 ^ (8 * n)) : atomicNew 5 (8 * n) old b c d = newMax n old b := by
  rw [newMax, signedOf_eq ho, signedOf_eq hb]; rfl

theorem runValue_lt (s : State) (w r : Nat) (L : Fin 32) : runValue s w r L < 2 ^ (8 * widthOf w) := by
  have h0 := (s.src.vreg r)[L].isLt
  have h1 := (s.src.vreg (r + 1))[L].isLt
  unfold runValue widthOf
  split <;> omega

/-! ## An update uses its function on as many bytes as it reads -/

theorem ofBytes_lt : ∀ {n : Nat} {bs : List Byte}, bs.length ≤ n → ofBytes bs < 2 ^ (8 * n)
  | n, [], _ => Nat.two_pow_pos _
  | 0, _ :: _, h => absurd h (by simp)
  | n + 1, b :: bs, h => by
    have hb := b.isLt
    have ih : ofBytes bs < 2 ^ (8 * n) := ofBytes_lt (Nat.le_of_succ_le_succ h)
    rw [ofBytes, Nat.mul_succ, Nat.pow_add]
    omega

theorem slice_length (l : List Byte) (k n : Nat) : (slice l k n).length ≤ n := List.length_take_le _ _

theorem remoteRead_length {ag : Agent} {fresh critical : Bool} {fpa n : Nat} {s t : State} {bs : List Byte}
    (h : remoteRead ag fresh critical fpa n s = .ok bs t) : bs.length ≤ n := by
  unfold remoteRead at h
  grind [slice_length]

section
variable {n : Nat} {f g : List Byte → List Byte} (hfg : ∀ l, l.length ≤ n → f l = g l) (ag : Agent) (pt : Point) (fpa : Nat) (s : State)
include hfg

theorem updTwin_congr : updTwin ag pt fpa n f s = updTwin ag pt fpa n g s := by
  have hslice (l : List Byte) (k : Nat) := hfg (slice l k n) (slice_length l k n)
  have hread (m : Memory) (a : Nat) := hfg (m.read a n) (m.read_length a n).le
  unfold updTwin
  cases pt with
  | l1 => dsimp only; split <;> simp only [hslice]
  | die => simp only [hslice]
  | home | far => simp only [hread]

theorem updOwned_congr (grain : BitVec 2) : updOwned ag pt grain fpa n f s = updOwned ag pt grain fpa n g s := by
  have hslice (l : List Byte) (k : Nat) := hfg (slice l k n) (slice_length l k n)
  have hread (m : Memory) (a : Nat) := hfg (m.read a n) (m.read_length a n).le
  unfold updOwned
  cases pt with
  | far => simp only [hread]
  | l1 | die | home => dsimp only; split <;> simp only [hslice]

theorem remoteWrite_congr (u : Upd) : remoteWrite ag u fpa n f s = remoteWrite ag u fpa n g s := by
  have hzeros := hfg (zeros n) List.length_replicate.le
  unfold remoteWrite
  split
  · rfl
  cases u with
  | store | rel => simp only [hzeros]
  | red => rfl
  | atom =>
    dsimp only
    split
    case h_1 old s1 hread => rw [hfg old (remoteRead_length hread)]
    case h_2 => rfl

theorem updAt_congr (e : TlbEntry) (u : Upd) (va : Nat) : updAt ag pt e u va fpa n f s = updAt ag pt e u va fpa n g s := by
  have hzeros := hfg (zeros n) List.length_replicate.le
  have hread (m : Memory) (a : Nat) := hfg (m.read a n) (m.read_length a n).le
  have hregs (off : Nat) : f (readRegBytes s off n) = g (readRegBytes s off n) := hfg _ (by simp [readRegBytes])
  simp only [updAt, updTwin_congr hfg, updOwned_congr hfg, remoteWrite_congr hfg, hzeros, hread, hregs]

theorem updVa_congr (u : Upd) (va : Nat) : updVa ag pt u va n f s = updVa ag pt u va n g s := by
  simp only [updVa, updAt_congr hfg]

end

/-! ## One lane, and words -/

/-- The bytes an atomic leaves, by its new value. -/
theorem Access.atomicBytes_eq {a : Access} {L : Fin 32} {op : Nat} {new : Nat → Nat}
    (hnew : ∀ old < 2 ^ (8 * a.op.bytes), atomicNew op (8 * a.op.bytes) old (a.operand 0 L) (a.operand 0 L) (a.operand 1 L) = new old)
    (old : List Byte) (hl : old.length ≤ a.op.bytes) : a.atomicBytes op L old = toBytes a.op.bytes (new (ofBytes old)) := by
  rw [Access.atomicBytes, hnew _ (ofBytes_lt hl)]

section
variable {a : Access} {L : Fin 32} {s : State} {op : Nat} {ret : Bool} {new : Nat → Nat} (k : Blocks) (hkind : a.op.kind = .atomic op ret)
  (hrec : a.record s = none)
  (hnew : ∀ old < 2 ^ (8 * a.op.bytes), atomicNew op (8 * a.op.bytes) old (a.operand 0 L) (a.operand 0 L) (a.operand 1 L) = new old)
include hkind hrec hnew

theorem accessLane_atom (hwindow : a.op.window = false) : (accessLane a ⟨[], k, 0⟩ L s).done? =
    atomLane a.op.scope ret op (a.operand 0 L) (a.addr L) a.op.bytes new (a.result L) s := by
  rw [atomLane, ← updVa_congr (fun old hl => Access.atomicBytes_eq hnew old hl)]
  simp only [accessLane, globalLane, hwindow, hrec, hkind, bne_iff_ne, if_false, Bool.false_eq_true]
  split
  · rfl
  · cases updVa s.agent (pointOf s.agent.straddle a.op.scope) (if ret then .atom else .red op (a.operand 0 L)) (a.addr L) a.op.bytes
      (a.atomicBytes op L) s <;> rfl

theorem accessLane_padAtom (hwindow : a.op.window = true) : (accessLane a ⟨[], k, 0⟩ L s).done? =
    padAtomLane ret (a.addr L) a.op.bytes new (a.result L) s := by
  have hbytes (key : Nat) := Access.atomicBytes_eq hnew (s.spad.read key a.op.bytes) (s.spad.read_length key a.op.bytes).le
  simp only [accessLane, windowLane, padAtomLane, hwindow, hrec, hkind, hbytes, bne_iff_ne, if_true]
  split
  · rfl
  · cases spadKey s (a.addr L) <;> rfl

end

section
variable {window : Bool} {op w sc a b : Nat} {ret : Bool} {s : State} (L : Fin 32)

theorem capAtomic_result : (capAtomic window op ret w sc a b s).result L = putW w (a + 1) L := by
  unfold putW Access.result
  by_cases h : w = 0 <;> simp [capAtomic, capture, h] <;> rfl

theorem capAtomic_operand : (capAtomic window op ret w sc a b s).operand 0 L = runValue s w (a + 1) L := by
  by_cases h : w = 0 <;> simp [Access.operand, Access.run, capAtomic, capture, run, runValue, h, List.range_succ]

/-- The new value of `cas`. -/
theorem capAtomic_operand_one : (capAtomic window op ret w sc a b s).operand 1 L = runValue s w (if w = 0 then a + 2 else a + 3) L := by
  by_cases h : w = 0 <;> simp [Access.operand, Access.run, capAtomic, capture, run, runValue, h, List.range_succ]

end

section
variable {i : Instr} {op w sc a b : Nat} {ret : Bool} {s : State} {new : Fin 32 → Nat → Nat}
  (hnew : ∀ L, ∀ old < 2 ^ (8 * widthOf w), atomicNew op (8 * widthOf w) old (runValue s w (a + 1) L) (runValue s w (a + 1) L)
    (runValue s w (if w = 0 then a + 2 else a + 3) L) = new L old)
include hnew

/-- The operation of a captured access, with the operands of its run. -/
theorem capAtomic_new {window : Bool} (L : Fin 32) (old : Nat) (ho : old < 2 ^ (8 * (capAtomic window op ret w sc a b s).op.bytes)) :
    atomicNew op (8 * (capAtomic window op ret w sc a b s).op.bytes) old ((capAtomic window op ret w sc a b s).operand 0 L)
      ((capAtomic window op ret w sc a b s).operand 0 L) ((capAtomic window op ret w sc a b s).operand 1 L) = new L old := by
  rw [capAtomic_operand, capAtomic_operand_one]
  exact hnew L old ho

theorem logWord_atom (hi : exec i s = .next (memWord (wordShapeOf i) (capAtomic false op ret w sc a b) s)) (hf : isFifoWord i = false := by rfl) :
    LogWord i (capAtomic false op ret w sc a b s) (fun L => atomLane (scopeOf sc) ret op (runValue s w (a + 1) L) (laneAddr s a b L) (widthOf w)
      (new L) (putW w (a + 1) L)) s :=
  logRun_of hi rfl (fun _ => nofun) (fun k L v _ => by
    rw [accessLane_atom k rfl (Access.record_of_slot_zero rfl v) (capAtomic_new hnew L) rfl, capAtomic_operand, capAtomic_result]
    rfl) hf

theorem logWord_padAtom (hi : exec i s = .next (memWord (wordShapeOf i) (capAtomic true op ret w sc a b) s)) (hf : isFifoWord i = false := by rfl) :
    LogWord i (capAtomic true op ret w sc a b s) (fun L => padAtomLane ret (laneAddr s a b L) (widthOf w) (new L) (putW w (a + 1) L)) s :=
  logRun_of hi rfl (fun _ => nofun) (fun k L v _ => by
    rw [accessLane_padAtom k rfl (Access.record_of_slot_zero rfl v) (capAtomic_new hnew L) rfl, capAtomic_result]
    rfl) hf

end

/-- The new value's register of `cas`, by the width code (05 R150). -/
theorem ite_toNat_zero {α : Type} (w : BitVec 2) (x y : α) : (if w = 0 then x else y) = if w.toNat = 0 then x else y :=
  ite_congr (propext BitVec.toNat_eq) (fun _ => rfl) fun _ => rfl

/-- Settles O22: each word is its access (`logRun_of`), and the operation that its access names is that of R151. -/
theorem atomicsAndReductions : Obligations.AtomicsAndReductions := by
  unfold Obligations.AtomicsAndReductions
  refine ⟨fun a sc b w l s => ⟨?atomAdd, ?redAdd, ?atomAnd, ?redAnd, ?atomOr, ?redOr, ?atomXor, ?redXor, ?atomMinI, ?redMinI, ?atomMaxI, ?redMaxI,
      ?atomMinN, ?redMinN, ?atomMaxN, ?redMaxN, ?atomExch, ?redExch, ?atomInc, ?redInc, ?atomDec, ?redDec, ?atomCas, ?atomFadd, ?redFadd, ?atomFmax,
      ?redFmax, ?atomFmin, ?redFmin⟩,
    fun a b w l s => ⟨?patomAdd, ?predAdd, ?patomAnd, ?predAnd, ?patomOr, ?predOr, ?patomXor, ?predXor, ?patomMinI, ?predMinI, ?patomMaxI,
      ?predMaxI, ?patomMinN, ?predMinN, ?patomMaxN, ?predMaxN, ?patomExch, ?predExch, ?patomInc, ?predInc, ?patomDec, ?predDec, ?patomCas,
      ?patomFadd, ?predFadd, ?patomFmax, ?predFmax, ?patomFmin, ?predFmin⟩⟩
  case atomMinI | redMinI => exact logWord_atom (fun L old ho => atomicNew_min ho (runValue_lt ..)) rfl
  case atomMaxI | redMaxI => exact logWord_atom (fun L old ho => atomicNew_max ho (runValue_lt ..)) rfl
  case patomMinI | predMinI => exact logWord_padAtom (fun L old ho => atomicNew_min ho (runValue_lt ..)) rfl
  case patomMaxI | predMaxI => exact logWord_padAtom (fun L old ho => atomicNew_max ho (runValue_lt ..)) rfl
  case atomAdd | redAdd | atomAnd | redAnd | atomOr | redOr | atomXor | redXor | atomMinN | redMinN | atomMaxN | redMaxN | atomExch | redExch |
      atomInc | redInc | atomDec | redDec => exact logWord_atom (fun _ _ _ => rfl) rfl
  case atomCas => exact ite_toNat_zero w _ _ ▸ logWord_atom (fun _ _ _ => rfl) rfl
  case atomFadd | redFadd | atomFmax | redFmax | atomFmin | redFmin => exact logWord_atom (w := 0) (fun _ _ _ => rfl) rfl
  case patomAdd | predAdd | patomAnd | predAnd | patomOr | predOr | patomXor | predXor | patomMinN | predMinN | patomMaxN | predMaxN | patomExch |
      predExch | patomInc | predInc | patomDec | predDec => exact logWord_padAtom (fun _ _ _ => rfl) rfl
  case patomCas => exact ite_toNat_zero w _ _ ▸ logWord_padAtom (fun _ _ _ => rfl) rfl
  case patomFadd | predFadd | patomFmax | predFmax | patomFmin | predFmin => exact logWord_padAtom (w := 0) (fun _ _ _ => rfl) rfl

end Sys2Proof.Machine
end

section
/-! A word of the operand log that waits for an arrival of its gang (05 R142): it is not completed, and goes back to its group's first word. -/

namespace Sys2Proof.Machine

/-- A word of the operand log behind an arrival, or an access in flight, to one of its lines waits. -/
theorem memWord_stalls {i : Instr} {s : State} {a : Access} {e : Nat} {mk : State → Access} (hi : exec i s = .next (memWord (wordShapeOf i) mk s))
    (hf : isFifoWord i = false) (ha : mk s = a) (hm : MayIssue i s = true) (h0 : a.active ≠ 0) (hfree : s.g.freeEntry = some e)
    (hparked : overlapsParked s a = false) (hflight : overlapsFlight s a = true) : exec i s = .next (stall s) := by
  rw [exec_word i s hm _ hi hf]
  simp only [ha, h0, hfree, hparked, hflight, if_false, Bool.or_true, Bool.false_eq_true, if_true]

/-- A gang whose arrival on the object at window address 0 stands behind its release, at the packet behind it. -/
def behindArrival : State :=
  { State.reset with
    crews := [loadCrew State.reset 0]
    g := { Gang.vacant with crew := (loadCrew State.reset 0).uid, pc := ⟨1, 0⟩, arriving := [⟨0, 0, 0, none, [], false⟩] } }

/-- A store of the gang to window address 0 waits there. -/
theorem exec_pstB32_behindArrival : exec (.pstB32 1 5 0) behindArrival = .next (stall behindArrival) :=
  memWord_stalls (e := 0) rfl rfl rfl (by decide) (by decide) (by decide) (by decide) (by decide)

theorem behindArrival_vreg (L : Fin 32) : (behindArrival.src.vreg 5)[L] = 0 := Lanes.all_get 0 L

/-- A completed store leaves the program counter alone. -/
theorem StoredPad.pc {s t : State} {a n e : Nat} (h : StoredPad s t a n e) : t.g.pc = s.g.pc := by
  obtain ⟨⟨w1, w2, i, ht | ht⟩, -⟩ := h
  · have hpc := congrArg (fun u => u.g.pc) ht
    exact hpc.trans (Gang.setEntry_pc s.g e LogEntry.empty)
  · exact congrArg (fun u => u.g.pc) ht

/-- Refutes O21: the statement's hypotheses let an arrival of the gang stand on the line of the access (05 R142), where the word waits instead of
completing; a word that waits moves the program counter back to its group. -/
theorem not_scratchpadFrame : ¬ Obligations.ScratchpadFrame := by
  unfold Obligations.ScratchpadFrame
  intro h
  have hlanes : ∀ L, lane behindArrival.src.emask L = true →
      (behindArrival.src.vreg 5)[L].toNat % 4 = 0 ∧ (spadKey behindArrival (behindArrival.src.vreg 5)[L].toNat).isOk = true := by
    intro L _
    rw [behindArrival_vreg]
    decide
  obtain ⟨hstore, -⟩ := h 1 5 0 behindArrival (stall behindArrival) 0 4 ⟨by decide, by decide⟩ rfl (by decide) (by decide) hlanes
  exact absurd (hstore rfl (by decide) exec_pstB32_behindArrival).pc (by decide)

end Sys2Proof.Machine
end

section
/-! Barriers (05 R155-R160): what the words do on an object that they may act on, and what the fields of an object hold afterwards. -/

namespace Sys2Proof.Machine

/-! ## Words on an object -/

section
variable {s : State} {addr k : Nat} (h : ObjectAt s addr k)
include h

theorem withObject_body (body : Nat → State → State) : withObject addr 16 body s = body k s := by
  obtain ⟨halign, hkey, hfree⟩ := h
  have harriving : (s.g.arriving.any fun x => x.addr = addr) = false := by simpa using hfree
  simp only [withObject, halign, hkey, harriving, bne_self_eq_false, Bool.false_eq_true, if_false]

section
variable {sh : Shape} {n : Nat}

theorem barInit_badCount (hn : n = 0 ∨ 4095 < n) : barInit sh addr n s = barTrap 3 addr s := (withObject_body h _).trans (if_pos hn)

theorem barInit_waiting (hlo : 1 ≤ n) (hhi : n ≤ 4095) (hw : bits (barrierAt s k) 79 64 ≠ 0) : barInit sh addr n s = barTrap 8 addr s := by
  rw [barInit, withObject_body h, if_neg (by omega), if_pos (bne_iff_ne.mpr hw)]

theorem barInit_stores (hlo : 1 ≤ n) (hhi : n ≤ 4095) (hw : bits (barrierAt s k) 79 64 = 0) :
    barInit sh addr n s = openWindow sh none (setBarrier k (n * 2 ^ 4 + n * 2 ^ 16) s) := by
  rw [barInit, withObject_body h, if_neg (by omega), if_neg (by simp [hw])]

end

section
variable {sh : Shape} {scope : Scope} {d : Option Nat} {n : Int}

theorem barArrive_faults {c : Nat} (hc : arriveFault (barrierAt s k) n = some c) : barArrive sh scope d addr n s = barTrap c addr s := by
  rw [barArrive, withObject_body h, hc]

theorem barArrive_releases (hc : arriveFault (barrierAt s k) n = none) {ids : List Nat} {u : State} (hopens : s.g.opens = false)
    (hr : releaseBegin scope [] s = (ids, u)) : barArrive sh scope d addr n s =
      if ids = [] then openWindow sh none (arrive k d n u) else standArrival sh d addr n ids u := by
  rw [barArrive, withObject_body h, hc, hopens, hr]
  cases ids <;> simp

theorem barExpect_faults (hfit : sectorsFit (sectorsOf (barrierAt s k) + n) = false) : barExpect sh addr n s = barTrap 5 addr s :=
  (withObject_body h _).trans (if_pos (by rw [hfit]; rfl))

theorem barExpect_adds (hfit : sectorsFit (sectorsOf (barrierAt s k) + n) = true) : barExpect sh addr n s =
    openWindow sh none (barComplete k (setBarrier k (putSectors (barrierAt s k) (sectorsOf (barrierAt s k) + n)) s)) :=
  (withObject_body h _).trans (if_neg (by rw [hfit]; exact Bool.false_ne_true))

end

theorem barDrop_badCount {sh : Shape} (he : bits (barrierAt s k) 15 4 < 2) : barDrop sh addr s = barTrap 3 addr s :=
  (withObject_body h _).trans (if_pos he)

theorem barDrop_noneLeft {sh : Shape} (he : 2 ≤ bits (barrierAt s k) 15 4) (ha : bits (barrierAt s k) 27 16 = 0) :
    barDrop sh addr s = barTrap 4 addr s := by
  rw [barDrop, withObject_body h, if_neg (by omega), if_pos ha]

theorem barDrop_drops {sh : Shape} (he : 2 ≤ bits (barrierAt s k) 15 4) (ha : bits (barrierAt s k) 27 16 ≠ 0) : barDrop sh addr s =
    openWindow sh none (barComplete k (setBarrier k
      (putField (putField (barrierAt s k) 15 4 (bits (barrierAt s k) 15 4 - 1)) 27 16 (bits (barrierAt s k) 27 16 - 1)) s)) := by
  rw [barDrop, withObject_body h, if_neg (by omega), if_neg ha]

/-- bar.wait waits where bit 0 of the phase is the parity, and acquires where it is not. -/
theorem barWait_tests {scope : Scope} {x : Dword} : barWait scope addr (x.getLsbD 0) s =
    if bits (barrierAt s k) 0 0 = x.toNat % 2 then
      stall ((setBarrier k (putField (barrierAt s k) 79 64 (bits (barrierAt s k) 79 64 + 1)) s).setG fun g =>
        { g with wait := .barWait (k / 2 ^ 20) (k % 2 ^ 20) })
    else withAcquire scope [] (fun s => s) s := by
  have hparity : ((bits (barrierAt s k) 0 0 = 1) == x.getLsbD 0) = decide (bits (barrierAt s k) 0 0 = x.toNat % 2) := by
    have hbit : x.getLsbD 0 = decide (x.toNat % 2 = 1) := by simp [BitVec.getLsbD, Nat.testBit_zero]
    rw [hbit, bits]
    grind
  rw [barWait, withObject_body h]
  dsimp only
  rw [hparity]
  simp only [decide_eq_true_eq]

end

/-! ## Faults of barrier words (05 R158) -/

theorem arriveFault_count {x : Nat} {n : Int} (h : bits x 27 16 = 0) : arriveFault x n = some 4 := if_pos h

theorem sectorsFit_iff {n : Int} : sectorsFit n = true ↔ -2 ^ 27 ≤ n ∧ n ≤ 2 ^ 27 - 1 := by
  simp only [sectorsFit, Bool.and_eq_true, decide_eq_true_eq]
  omega

theorem arriveFault_sectors {x : Nat} {n : Int} (h : bits x 27 16 ≠ 0) (hfit : ¬(-2 ^ 27 ≤ sectorsOf x + n ∧ sectorsOf x + n ≤ 2 ^ 27 - 1)) :
    arriveFault x n = some 5 := by
  rw [arriveFault, if_neg h, Bool.eq_false_iff.mpr (mt sectorsFit_iff.mp hfit)]; rfl

theorem arriveFault_none {x : Nat} {n : Int} (h : bits x 27 16 ≠ 0) (hfit : sectorsFit (sectorsOf x + n) = true) : arriveFault x n = none := by
  rw [arriveFault, if_neg h, hfit]; rfl

/-- A word that traps with a code of group 11 on the object at an address. -/
theorem trapsWith_of_barTrap {i : Instr} {s : State} {body : State → State} {code addr : Nat} (hm : MayIssue i s = true)
    (hi : exec i s = .next (issue (wordShapeOf i) body s)) (hf : isFifoWord i = false) (hb : body s = barTrap code addr s) :
    TrapsWith i s 11 code (BitVec.ofNat 96 (addr % 2 ^ 64)) := by
  rw [TrapsWith, exec_word i s hm body hi hf, hb]; rfl

/-- Settles O24, by the case of each word in which it faults. -/
theorem barrierTraps : Obligations.BarrierTraps := by
  unfold Obligations.BarrierTraps
  intro a b c d sc l k s
  refine ⟨fun hm ho hn => ?initCount, fun hm ho hlo hhi hw => ?initWaiting, fun hm ho he => ?dropCount, fun hm ho he ha => ?dropNone,
    fun hm ho hfit => ?expect, fun hm ho ha => ?arriveCount, fun hm ho ha hfit => ?arriveSectors, fun hm ho ha => ?arrivetCount,
    fun hm ho ha hfit => ?arrivetSectors⟩
  case initCount => exact trapsWith_of_barTrap hm rfl rfl (barInit_badCount ho hn)
  case initWaiting => exact trapsWith_of_barTrap hm rfl rfl (barInit_waiting ho hlo hhi hw)
  case dropCount => exact trapsWith_of_barTrap hm rfl rfl (barDrop_badCount ho (by omega))
  case dropNone => exact trapsWith_of_barTrap hm rfl rfl (barDrop_noneLeft ho he ha)
  case expect => exact trapsWith_of_barTrap hm rfl rfl (barExpect_faults ho (Bool.eq_false_iff.mpr (mt sectorsFit_iff.mp hfit)))
  case arriveCount | arrivetCount => exact trapsWith_of_barTrap hm rfl rfl (barArrive_faults ho (arriveFault_count ha))
  case arriveSectors | arrivetSectors => exact trapsWith_of_barTrap hm rfl rfl (barArrive_faults ho (arriveFault_sectors ha hfit))

end Sys2Proof.Machine
end

section
/-! The fields of an object (05 R155), the phases of a barrier (05 R157), and arrivals behind their releases (12 R270). -/

namespace Sys2Proof.Machine

/-! ## Fields -/

theorem bits_testBit (x hi lo i : Nat) : (bits x hi lo).testBit i = (decide (i < hi + 1 - lo) && x.testBit (lo + i)) := by
  rw [bits, Nat.testBit_mod_two_pow, Nat.testBit_div_two_pow, Nat.add_comm i lo]

/-- A number with one field replaced, bit by bit. -/
theorem putField_testBit (x : Nat) {hi lo : Nat} (v i : Nat) (h : lo ≤ hi) :
    (putField x hi lo v).testBit i = if lo ≤ i ∧ i ≤ hi then v.testBit (i - lo) else x.testBit i := by
  generalize hw : hi + 1 - lo = w
  have hx := Nat.div_add_mod x (2 ^ lo)
  have hq := Nat.div_add_mod (x / 2 ^ lo) (2 ^ w)
  have hfield : putField x hi lo v = 2 ^ lo * (2 ^ w * (x / 2 ^ lo / 2 ^ w) + v % 2 ^ w) + x % 2 ^ lo := by
    have hq' : x / 2 ^ lo % 2 ^ w * 2 ^ lo + 2 ^ lo * (2 ^ w * (x / 2 ^ lo / 2 ^ w)) + x % 2 ^ lo = x := by
      rw [Nat.mul_comm (x / 2 ^ lo % 2 ^ w), ← Nat.mul_add, Nat.add_comm (x / 2 ^ lo % 2 ^ w), hq, hx]
    rw [putField, bits, hw, Nat.mul_add, Nat.mul_comm (2 ^ lo) (v % 2 ^ w)]
    omega
  rw [hfield, Nat.testBit_two_pow_mul_add _ (Nat.mod_lt _ (Nat.two_pow_pos lo)),
    Nat.testBit_two_pow_mul_add _ (Nat.mod_lt _ (Nat.two_pow_pos w)), Nat.testBit_mod_two_pow, Nat.testBit_mod_two_pow,
    Nat.testBit_div_two_pow, Nat.testBit_div_two_pow]
  by_cases hlo : i < lo
  · simp [hlo]
  by_cases hhi : i - lo < w
  · rw [if_neg hlo, if_pos hhi, if_pos (by omega)]; simp [hhi]
  · rw [if_neg hlo, if_neg hhi, if_neg (by omega)]; congr 1; omega

theorem putField_lt {x hi lo n : Nat} (v : Nat) (hx : x < 2 ^ n) (h : lo ≤ hi) (hn : hi < n) : putField x hi lo v < 2 ^ n := by
  refine Nat.lt_pow_two_of_testBit _ fun i hi => ?_
  rw [putField_testBit x v i h, if_neg (by omega)]
  exact Nat.testBit_lt_two_pow (hx.trans_le (Nat.pow_le_pow_right two_pos hi))

/-- The field that was replaced. -/
theorem bits_putField_same (x : Nat) {hi lo : Nat} (v : Nat) (h : lo ≤ hi) : bits (putField x hi lo v) hi lo = v % 2 ^ (hi + 1 - lo) := by
  refine Nat.eq_of_testBit_eq fun i => ?_
  rw [bits_testBit, putField_testBit _ _ _ h, Nat.testBit_mod_two_pow]
  by_cases hi : i < hi + 1 - lo
  · rw [if_pos (by omega), Nat.add_sub_cancel_left]
  · simp [hi]

/-- A field apart from the one replaced. -/
theorem bits_putField_apart (x : Nat) {hi lo hi' lo' : Nat} (v : Nat) (h : lo ≤ hi) (hd : hi' < lo ∨ hi < lo') :
    bits (putField x hi lo v) hi' lo' = bits x hi' lo' := by
  refine Nat.eq_of_testBit_eq fun i => ?_
  rw [bits_testBit, bits_testBit, putField_testBit _ _ _ h]
  by_cases hi : i < hi' + 1 - lo'
  · rw [if_neg (by omega)]
  · simp [hi]

theorem bits_lt (x hi lo : Nat) : bits x hi lo < 2 ^ (hi + 1 - lo) := Nat.mod_lt _ (Nat.two_pow_pos _)

/-! ## Objects in the scratchpad -/

theorem barrierAt_lt (s : State) (k : Nat) : barrierAt s k < 2 ^ 128 := ofBytes_lt (n := 16) (s.spad.read_length k 16).le

theorem setBarrier_wf {k x : Nat} {s : State} (h : s.spad.wf = true) : (setBarrier k x s).spad.wf = true := s.spad.write_wf _ _ h

theorem barrierAt_setBarrier {k x : Nat} {s : State} (h : s.spad.wf = true) (hx : x < 2 ^ 128) : barrierAt (setBarrier k x s) k = x := by
  have hread := Memory.read_write s.spad h k (toBytes 16 x)
  rw [toBytes_length] at hread
  rw [barrierAt, setBarrier, hread, ofBytes_toBytes, Nat.mod_eq_of_lt (by omega)]

theorem setBarrier_mem (k x : Nat) (s : State) : (setBarrier k x s).mem = s.mem := rfl

/-- Bytes outside an object. -/
theorem setBarrier_get {k x j : Nat} {s : State} (h : s.spad.wf = true) (hj : j < k ∨ k + 16 ≤ j) : (setBarrier k x s).spad.get j = s.spad.get j := by
  rw [setBarrier, Memory.get_write _ _ _ _ h, dif_neg (by rw [toBytes_length]; omega)]

/-! ## Phases -/

/-- A gang waits on the object at a key. -/
def Gang.waitsOn (k : Nat) (g : Gang) : Bool :=
  match g.wait with
  | .barWait c a => c * 2 ^ 20 + a = k
  | _ => false

/-- The gangs that wait on an object. -/
def waitersOn (k : Nat) (s : State) : Nat := (s.allGangs.filter (Gang.waitsOn k)).length

/-- An object whose phase has come, before the gangs that wait on it are no longer counted. -/
def nextPhase (x : Nat) : Nat := putField (putField x 3 0 (bits x 3 0 + 1)) 27 16 (bits x 15 4)

theorem wakeBarrier_eq (k : Nat) (s : State) : wakeBarrier k s =
    (setBarrier k (putField (barrierAt s k) 79 64 (bits (barrierAt s k) 79 64 - waitersOn k s)) s).mapGangs fun g =>
      if g.waitsOn k then { g with wait := .none } else g := rfl

theorem barrierAt_mapGangs (k : Nat) (f : Gang → Gang) (s : State) : barrierAt (s.mapGangs f) k = barrierAt s k := rfl
theorem waitersOn_setBarrier (k x : Nat) (s : State) : waitersOn k (setBarrier k x s) = waitersOn k s := rfl

theorem barComplete_pending {k : Nat} {s : State} (h : ¬(bits (barrierAt s k) 27 16 = 0 ∧ bits (barrierAt s k) 55 28 = 0)) :
    barComplete k s = s := if_neg h

theorem barComplete_done {k : Nat} {s : State} (h : bits (barrierAt s k) 27 16 = 0 ∧ bits (barrierAt s k) 55 28 = 0) :
    barComplete k s = wakeBarrier k (setBarrier k (nextPhase (barrierAt s k)) s) := if_pos h

theorem nextPhase_lt {x : Nat} (h : x < 2 ^ 128) : nextPhase x < 2 ^ 128 :=
  putField_lt _ (putField_lt _ h (by decide) (by decide)) (by decide) (by decide)

section
variable (x n : Nat)

/-- What a completed phase leaves, n gangs having waited. -/
def phaseLeaves : Nat := putField (nextPhase x) 79 64 (bits (nextPhase x) 79 64 - n)

theorem bits_nextPhase_apart {hi lo : Nat} (h : 3 < lo) (h' : hi < 16 ∨ 27 < lo) : bits (nextPhase x) hi lo = bits x hi lo := by
  rw [nextPhase, bits_putField_apart _ _ (by decide) h', bits_putField_apart _ _ (by decide) (.inr h)]

theorem bits_phaseLeaves_apart {hi lo : Nat} (h : 3 < lo) (h' : hi < 16 ∨ 27 < lo) (h'' : hi < 64 ∨ 79 < lo) :
    bits (phaseLeaves x n) hi lo = bits x hi lo := by
  rw [phaseLeaves, bits_putField_apart _ _ (by decide) h'', bits_nextPhase_apart x h h']

theorem bits_phaseLeaves_phase : bits (phaseLeaves x n) 3 0 = (bits x 3 0 + 1) % 16 := by
  rw [phaseLeaves, bits_putField_apart _ _ (by decide) (by decide), nextPhase, bits_putField_apart _ _ (by decide) (by decide),
    bits_putField_same _ _ (by decide)]
  rfl

theorem bits_phaseLeaves_arrivals : bits (phaseLeaves x n) 27 16 = bits x 15 4 := by
  have hlt := bits_lt x 15 4
  rw [phaseLeaves, bits_putField_apart _ _ (by decide) (by decide), nextPhase, bits_putField_same _ _ (by decide), Nat.mod_eq_of_lt hlt]

theorem bits_phaseLeaves_waiting : bits (phaseLeaves x n) 79 64 = bits x 79 64 - n := by
  have hlt := bits_lt x 79 64
  rw [phaseLeaves, bits_putField_same _ _ (by decide), bits_nextPhase_apart x (by decide) (by decide)]
  exact Nat.mod_eq_of_lt ((Nat.sub_le _ _).trans_lt hlt)

end

/-- The object that a completed phase leaves. -/
theorem barrierAt_barComplete {k : Nat} {s : State} (hw : s.spad.wf = true) (h : bits (barrierAt s k) 27 16 = 0 ∧ bits (barrierAt s k) 55 28 = 0) :
    barrierAt (barComplete k s) k = phaseLeaves (barrierAt s k) (waitersOn k s) := by
  have hlt := nextPhase_lt (barrierAt_lt s k)
  rw [barComplete_done h, wakeBarrier_eq, barrierAt_mapGangs, barrierAt_setBarrier hw hlt, waitersOn_setBarrier]
  exact barrierAt_setBarrier (setBarrier_wf hw) (putField_lt _ hlt (by decide) (by decide))

theorem barComplete_eq {k : Nat} {s : State} (h : bits (barrierAt s k) 27 16 = 0 ∧ bits (barrierAt s k) 55 28 = 0) :
    ∃ x, barComplete k s = (setBarrier k x (setBarrier k (nextPhase (barrierAt s k)) s)).mapGangs fun g =>
      if g.waitsOn k then { g with wait := .none } else g := ⟨_, (barComplete_done h).trans (wakeBarrier_eq k _)⟩

/-- No gang waits on an object whose phase is complete. -/
theorem barComplete_wakes {k : Nat} {s : State} (h : bits (barrierAt s k) 27 16 = 0 ∧ bits (barrierAt s k) 55 28 = 0) {g : Gang}
    (hg : g ∈ (barComplete k s).allGangs) : g.waitsOn k = false := by
  obtain ⟨x, hx⟩ := barComplete_eq h
  have hwoken (g : Gang) : (if g.waitsOn k then { g with wait := .none } else g).waitsOn k = false := by
    split
    case isTrue => rfl
    case isFalse hw => exact Bool.eq_false_iff.mpr hw
  rw [hx, State.allGangs, List.mem_append] at hg
  rcases hg with hg | hg
  · split at hg
    · simp at hg
    · rw [List.mem_singleton.mp hg]; exact hwoken _
  · obtain ⟨g, -, rfl⟩ := List.mem_map.mp hg
    exact hwoken g

theorem waitsOn_eq_false {k c a : Nat} {g : Gang} (h : g.waitsOn k = false) (hw : g.wait = .barWait c a) : c * 2 ^ 20 + a ≠ k := by
  simpa [Gang.waitsOn, hw] using h

/-- A completed phase leaves the bytes outside the object, and memory, alone. -/
theorem barComplete_get {k j : Nat} {s : State} (hw : s.spad.wf = true) (h : bits (barrierAt s k) 27 16 = 0 ∧ bits (barrierAt s k) 55 28 = 0)
    (hj : j < k ∨ k + 16 ≤ j) : (barComplete k s).spad.get j = s.spad.get j ∧ (barComplete k s).mem = s.mem := by
  obtain ⟨x, hx⟩ := barComplete_eq h
  refine ⟨?_, by rw [hx, State.mapGangs_mem, setBarrier_mem, setBarrier_mem]⟩
  rw [hx, State.mapGangs_spad, setBarrier_get (setBarrier_wf hw) hj, setBarrier_get hw hj]

/-! ## An arrival behind its release -/

/-- The gang found by its number is the one that the state is focused on. -/
theorem State.focus_gang {s : State} {uid : Nat} {g : Gang} (h : s.gang? uid = some g) : (s.focus uid).g = g := by
  unfold State.gang? at h
  unfold State.focus
  split
  case isTrue hown => rw [if_pos hown] at h; exact Option.some.inj h
  case isFalse hown => rw [if_neg hown] at h; rw [h]

theorem atGang_resident {s : State} {uid : Nat} {g : Gang} (f : State → State) (h : s.gang? uid = some g) (hres : g.status = .resident) :
    atGang uid f s = f (s.focus uid) := by
  rw [atGang, h]
  exact if_pos hres

/-- RELEASE_COMPLETE of an arrival. -/
theorem exec_releaseComplete_arrival {s : State} {id : Nat} {g : Gang} {x : PendingArrival} (hrel : ∀ r ∈ s.releases, r.id ≠ id)
    (hfind : s.allGangs.find? (fun g => g.arriving.any fun x => x.id = id) = some g) (hgang : s.gang? g.uid = some g) (hres : g.status = .resident)
    (harr : g.arriving.find? (fun x => x.id = id) = some x) : exec (.releaseComplete id) s =
      .next (if (s.focus g.uid).records.any (fun r => x.records.contains r.id) then s.focus g.uid else finishArrival x (s.focus g.uid)) := by
  have hnone : s.releases.find? (fun r => r.id = id) = none := by simpa using hrel
  have hexec : exec (.releaseComplete id) s = .next (finishPending id s) := rfl
  rw [hexec, finishPending, hnone, finishArrivals, hfind]
  dsimp only
  rw [atGang_resident _ hgang hres, State.focus_gang hgang, harr]

theorem focus_records (s : State) (uid : Nat) : (s.focus uid).records = s.records := by
  unfold State.focus
  split
  · rfl
  · split <;> rfl

section
variable {x : PendingArrival} {t v : State} {k : Nat} (hv : v = t.setG fun g => { g with arriving := g.arriving.filter fun y => y.id != x.id })
  (hkey : spadKey v x.addr = .ok k)
include hv hkey

theorem finishArrival_counts (ha : bits (barrierAt v k) 27 16 ≠ 0) (hfit : sectorsFit (sectorsOf (barrierAt v k) + x.sectors) = true) :
    finishArrival x t = arrive k x.reg x.sectors v := by
  rw [finishArrival, ← hv]
  simp only [hkey, arriveFault_none ha hfit]

theorem finishArrival_faults (ha : bits (barrierAt v k) 27 16 = 0) : finishArrival x t =
    v.setG fun g => { g with errorDue := g.errorDue.or (some ⟨0xB04, BitVec.ofNat 96 (x.addr % 2 ^ 64)⟩) } := by
  rw [finishArrival, ← hv]
  simp only [hkey, arriveFault_count ha]
  rfl

end

/-- A word whose body leaves t. -/
theorem exec_body {i : Instr} {s t : State} {body : State → State} (hm : MayIssue i s = true) (hi : exec i s = .next (issue (wordShapeOf i) body s))
    (hf : isFifoWord i = false) (hb : body s = t) : exec i s = .next t := by
  rw [exec_word i s hm body hi hf, hb]

/-- Settles O23: the words by what they do on an object, RELEASE_COMPLETE by the arrival it counts, and `complete` by the fields it leaves. -/
theorem barrierWordsAndPhases : Obligations.BarrierWordsAndPhases := by
  unfold Obligations.BarrierWordsAndPhases
  refine ⟨fun a b c d sc l k s u => ?words, fun id k g x s t hrel hfind hgang hres harr ht => ?release, fun k s hmem => ?phases⟩
  case words =>
    refine ⟨fun hm ho hlo hhi hw => ?init, fun hm ho ha hfit hr => ?arrive, fun hm ho ha hfit hr => ?arrivet, fun r ids hopens hr ho ha hfit => ?stands,
      fun hm ho hfit => ?expect, fun hm ho hp hacq => ?passes, fun hm ho hp => ?waits, fun hm ho => ?test, fun hm ho he ha => ?drop⟩
    case init => exact exec_body hm rfl rfl (barInit_stores ho hlo hhi hw)
    case arrive | arrivet =>
      obtain ⟨hopens, hr⟩ := hr
      exact exec_body hm rfl rfl ((barArrive_releases ho (arriveFault_none ha hfit) hopens hr).trans (if_pos rfl))
    case stands =>
      refine ⟨fun hm => exec_body hm rfl rfl ?_, fun hm => exec_body hm rfl rfl ?_⟩ <;>
        exact (barArrive_releases ho (arriveFault_none ha hfit) hopens hr).trans (if_neg (List.cons_ne_nil _ _))
    case expect => exact exec_body hm rfl rfl (barExpect_adds ho hfit)
    case passes =>
      refine exec_body hm rfl rfl ((barWait_tests ho).trans ((if_neg hp).trans ?_))
      rw [withAcquire, hacq]
    case waits => exact exec_body hm rfl rfl ((barWait_tests ho).trans (if_pos hp))
    case test => exact exec_body hm rfl rfl (withObject_body ho _)
    case drop => exact exec_body hm rfl rfl (barDrop_drops ho he ha)
  case release =>
    intro v y
    have hexec := exec_releaseComplete_arrival hrel hfind hgang hres harr
    rw [← ht] at hexec
    have hrecords : t.records = s.records := ht ▸ focus_records s g.uid
    refine ⟨fun hsome => ?pending, fun hnone hkey => ?complete⟩
    case pending => rw [hexec, if_pos (by simpa [hrecords] using hsome)]
    case complete =>
      rw [if_neg (by simpa [hrecords] using hnone)] at hexec
      exact ⟨fun ha hfit => hexec.trans (by rw [finishArrival_counts rfl hkey ha hfit]; rfl),
        fun ha => hexec.trans (by rw [finishArrival_faults rfl hkey ha])⟩
  case phases =>
    intro x t y
    obtain ⟨-, hw⟩ := hmem
    refine ⟨barComplete_pending, fun h => ?_⟩
    have hy : y = phaseLeaves x (waitersOn k s) := barrierAt_barComplete hw h
    rw [hy]
    refine ⟨bits_phaseLeaves_phase .., bits_phaseLeaves_arrivals .., bits_phaseLeaves_apart _ _ (by decide) (by decide) (by decide),
      (bits_phaseLeaves_apart _ _ (by decide) (by decide) (by decide)).trans h.2, bits_phaseLeaves_apart _ _ (by decide) (by decide) (by decide),
      fun n hn => ?waiting, fun g hg c a => waitsOn_eq_false (barComplete_wakes h hg), fun j hj => (barComplete_get hw h hj).1, ?memory⟩
    case waiting => rw [hn]; exact bits_phaseLeaves_waiting ..
    case memory => exact (barComplete_get (j := k + 16) hw h (.inr le_rfl)).2

end Sys2Proof.Machine
end

section
/-! Queue words, and the rings they act on (05 R161-R163). -/

namespace Sys2Proof.Machine

/-! ## Bytes of a memory that has been written -/

section
variable {m : Memory} (h : m.wf = true)
include h

theorem Memory.get_write_apart {a x : Nat} {bs : List Byte} (hx : x < a ∨ a + bs.length ≤ x) : (m.write a bs).get x = m.get x := by
  rw [Memory.get_write _ _ _ _ h, dif_neg (by omega)]

theorem Memory.get_write_at {a k : Nat} {bs : List Byte} (hk : k < bs.length) : (m.write a bs).get (a + k) = bs[k] := by
  rw [Memory.get_write _ _ _ _ h, dif_pos (by omega)]
  simp only [Nat.add_sub_cancel_left]

theorem Memory.read_write_apart {a x n : Nat} {bs : List Byte} (hx : x + n ≤ a ∨ a + bs.length ≤ x) : (m.write a bs).read x n = m.read x n := by
  refine List.ext_getElem (by rw [Memory.read_length, Memory.read_length]) fun i hi _ => ?_
  rw [Memory.read_length] at hi
  rw [Memory.read_getElem, Memory.read_getElem, Memory.get_write_apart h (by omega)]

end

theorem Memory.write_append : ∀ (m : Memory) (a : Nat) (xs ys : List Byte), m.write a (xs ++ ys) = (m.write a xs).write (a + xs.length) ys
  | _, _, [], _ => rfl
  | m, a, x :: xs, ys => by
    rw [List.cons_append, Memory.write, Memory.write_append, Memory.write, List.length_cons, Nat.add_assoc, Nat.add_comm 1]

/-- A number read where it was written. -/
theorem ofBytes_read_write {m : Memory} (h : m.wf = true) (a n x : Nat) (hx : x < 256 ^ n) : ofBytes ((m.write a (toBytes n x)).read a n) = x := by
  have hread := Memory.read_write m h a (toBytes n x)
  rw [toBytes_length] at hread
  rw [hread, ofBytes_toBytes, Nat.mod_eq_of_lt hx]

/-! ## The header and the entries of a ring -/

section
variable {s : State} (hw : s.spad.wf = true) (r : Ring)
include hw

theorem setRing_wf : (setRing r s).spad.wf = true := Memory.write_wf _ _ _ (Memory.write_wf _ _ _ hw)

/-- A header stored reads back, its first byte apart. -/
theorem ringAt_setRing (hslots : (s.spad.get r.key).toNat = r.slots) (hhead : r.head < 256) (htail : r.tail < 256) (hfree : r.free < 65536)
    (hfilled : r.filled < 65536) : ringAt (setRing r s) r.key = r := by
  have hw1 : (s.spad.write (r.key + 1) [BitVec.ofNat 8 r.head, BitVec.ofNat 8 r.tail]).wf = true := Memory.write_wf _ _ _ hw
  have hw2 := Memory.write_wf (toBytes 2 r.free) _ (r.key + 4) hw1
  have hget (k : Nat) (hk : k < r.key + 4) : (setRing r s).spad.get k =
      (s.spad.write (r.key + 1) [BitVec.ofNat 8 r.head, BitVec.ofNat 8 r.tail]).get k := Memory.get_write_apart hw1 (.inl hk)
  have hcounts : (setRing r s).spad = (((s.spad.write (r.key + 1) [BitVec.ofNat 8 r.head, BitVec.ofNat 8 r.tail]).write (r.key + 4)
      (toBytes 2 r.free)).write (r.key + 6) (toBytes 2 r.filled)) := Memory.write_append ..
  have h0 : ((setRing r s).spad.get r.key).toNat = r.slots := by rw [hget _ (by omega), Memory.get_write_apart hw (by omega), hslots]
  have h1 : ((setRing r s).spad.get (r.key + 1)).toNat = r.head := by
    rw [hget _ (by omega), Memory.get_write_at hw (k := 0) (bs := [_, _]) Nat.two_pos]
    exact Nat.mod_eq_of_lt hhead
  have h2 : ((setRing r s).spad.get (r.key + 2)).toNat = r.tail := by
    rw [hget _ (by omega), Memory.get_write_at hw (a := r.key + 1) (k := 1) (bs := [_, _]) Nat.one_lt_two]
    exact Nat.mod_eq_of_lt htail
  have h4 : ofBytes ((setRing r s).spad.read (r.key + 4) 2) = r.free := by
    rw [hcounts, Memory.read_write_apart hw2 (by omega), ofBytes_read_write hw1 _ _ _ hfree]
  have h6 : ofBytes ((setRing r s).spad.read (r.key + 6) 2) = r.filled := by rw [hcounts, ofBytes_read_write hw2 _ _ _ hfilled]
  rw [ringAt, h0, h1, h2, h4, h6]

/-- Bytes outside the header's first 8. -/
theorem setRing_get {j : Nat} (hj : j < r.key ∨ r.key + 8 ≤ j) : (setRing r s).spad.get j = s.spad.get j := by
  have hw1 : (s.spad.write (r.key + 1) [BitVec.ofNat 8 r.head, BitVec.ofNat 8 r.tail]).wf = true := Memory.write_wf _ _ _ hw
  rw [setRing, Memory.get_write_apart hw1 (by simp only [List.length_append, toBytes_length]; omega),
    Memory.get_write_apart hw (by simp only [List.length_cons, List.length_nil]; omega)]

theorem setRing_read {a n : Nat} (ha : r.key + 8 ≤ a) : (setRing r s).spad.read a n = s.spad.read a n := by
  refine List.ext_getElem (by rw [Memory.read_length, Memory.read_length]) fun i _ _ => ?_
  rw [Memory.read_getElem, Memory.read_getElem, setRing_get hw r (by omega)]

section
variable (i handle phase : Nat)

theorem ringEntry_wf : (ringEntry r i handle phase s).spad.wf = true := Memory.write_wf _ _ _ hw

theorem ringEntry_get {j : Nat} (hj : j < r.key + 16 + 4 * i ∨ r.key + 20 + 4 * i ≤ j) :
    (ringEntry r i handle phase s).spad.get j = s.spad.get j := Memory.get_write_apart hw (by rw [toBytes_length]; omega)

theorem ringEntry_read : ofBytes ((ringEntry r i handle phase s).spad.read (r.key + 16 + 4 * i) 4) = handle % 2 ^ 16 + phase % 2 * 2 ^ 31 :=
  ofBytes_read_write hw _ _ _ (by omega)

end

end

section
variable (uid q : Nat) (r : Ring) (s : State)

theorem ringAdvance_spad : (ringAdvance uid q r s).spad = s.spad := by unfold ringAdvance; split <;> rfl
theorem ringAdvance_mem : (ringAdvance uid q r s).mem = s.mem := by unfold ringAdvance; split <;> rfl
theorem ringAdvance_g : (ringAdvance uid q r s).g = s.g := by unfold ringAdvance; split <;> rfl

theorem ringAt_of_spad {s t : State} (h : t.spad = s.spad) (k : Nat) : ringAt t k = ringAt s k := by rw [ringAt, h, ringAt]

/-- The header that a push, and a pop, leaves. -/
def Ring.pushed (r : Ring) : Ring := { r with tail := (r.tail + 1) % r.slots, free := r.free - 1, filled := r.filled + 1 }
def Ring.popped (r : Ring) : Ring := { r with head := (r.head + 1) % r.slots, filled := r.filled - 1, free := r.free + 1 }

/-- A push with no entry reserved. -/
theorem ringPush_eq {c : Crew} (hc : s.crew? uid = some c) (hp : c.pending q = []) (h : Nat) : ringPush uid q r h s =
    ringAdvance uid q r (setRing r.pushed (ringEntry r r.tail h ((lookup c.laps q).getD 0) s)) := by
  rw [ringPush, hc]
  simp only [hp, List.isEmpty_nil, if_true]
  rfl

end

/-! ## Queue words -/

section
variable {s : State} {q : Nat} {c : Crew} {r : Ring} (h : RingAt s q c r)
include h

theorem withRing_body (body : Crew → Ring → State → State) : withRing q body s = body c r s := by
  obtain ⟨hcrew, hslots, howned, hring, hok⟩ := h
  have hnone : ((List.range (16 + 4 * bits (queueDecl s s.g.node q) 26 20)).any fun k =>
      c.engineOwned (bits (queueDecl s s.g.node q) 19 0 + k)) = false := by simpa using howned
  simp only [withRing, hcrew, hslots, hnone, ← hring, hok, if_false, Bool.false_eq_true, if_true]

section
variable {sh : Shape} {blocking : Bool} {d : Option Nat} {b : Nat}

theorem ringPushWord_full (hf : r.free = 0) : ringPushWord sh blocking d b q s = if blocking then block s else
    match d with
    | some k => openWindow sh none (s.setR fun z => z.setS k 0)
    | none => s := by
  rw [ringPushWord, withRing_body h]
  exact if_pos hf

theorem ringPushWord_pushes (hf : r.free ≠ 0) (ho : s.g.opens = false) : ringPushWord sh blocking d b q s =
    match d with
    | some k => openWindow sh none ((ringPush c.uid q r (s.src.sreg b).toNat s).setR fun z => z.setS k 1)
    | none => ringPush c.uid q r (s.src.sreg b).toNat s := by
  rw [ringPushWord, withRing_body h]
  exact (if_neg hf).trans (if_neg (by simp [ho]))

end

section
variable {sh : Shape} {blocking : Bool} {d : Nat}

theorem ringPopWord_empty (hf : r.filled = 0) : ringPopWord sh blocking d q s =
    if blocking then block s else openWindow sh none (s.setR fun z => z.setS d 0xFFFFFFFFFFFFFFFF) := by
  rw [ringPopWord, withRing_body h]
  exact if_pos hf

theorem ringPopWord_pops (hf : r.filled ≠ 0) {u : State} (ha : AcquiredFrom .crew [] s u) : ringPopWord sh blocking d q s =
    openWindow sh none ((ringPop r u).2.setR fun z => z.setS d (BitVec.ofNat 64 (ringPop r u).1)) := by
  rw [ringPopWord, withRing_body h]
  refine (if_neg hf).trans ?_
  rw [withAcquire, ha]

end

end

/-- Settles O25: the words by what they do with their ring, and a push and a pop by the bytes they write. -/
theorem queueWordsAndRings : Obligations.QueueWordsAndRings := by
  unfold Obligations.QueueWordsAndRings
  refine ⟨fun b d q l c r s u => ?words, fun q h c r s hr hc hok hmem => ?rings⟩
  case words =>
    refine ⟨fun hm ho hf hopens => ?push, fun hm ho hf => ?pushFull, fun hm ho hf hopens => ?tryPush, fun hm ho hf => ?tryPushFull,
      fun hm ho hf ha => ?pop, fun hm ho hf => ?popEmpty, fun hm ho hf ha => ?tryPop, fun hm ho hf => ?tryPopEmpty⟩
    case push | tryPush => exact exec_body hm rfl rfl (ringPushWord_pushes ho hf hopens)
    case pushFull | tryPushFull => exact exec_body hm rfl rfl (ringPushWord_full ho hf)
    case pop | tryPop => exact exec_body hm rfl rfl (ringPopWord_pops ho hf ha)
    case popEmpty | tryPopEmpty => exact exec_body hm rfl rfl (ringPopWord_empty ho hf)
  case rings =>
    obtain ⟨-, hw⟩ := hmem
    simp only [ringOk, Bool.and_eq_true, decide_eq_true_eq] at hok
    obtain ⟨⟨⟨⟨hlo, hhi⟩, hhead⟩, htail⟩, hsum⟩ := hok
    have hslots : (s.spad.get r.key).toNat = r.slots := (congrArg Ring.slots hr).symm
    refine ⟨fun hfree hpend => ?push, fun hfilled => ?pop⟩
    case push =>
      have hwe := ringEntry_wf hw r r.tail h ((lookup c.laps q).getD 0)
      have htail' := Nat.mod_lt (r.tail + 1) hlo
      rw [ringPush_eq c.uid q r s hc hpend h]
      generalize hring : setRing r.pushed (ringEntry r r.tail h ((lookup c.laps q).getD 0) s) = v
      have hspad : (ringAdvance c.uid q r v).spad = v.spad := ringAdvance_spad ..
      refine ⟨?header, ?entry, fun j hj hj' => ?bytes, ?memory, ?gang⟩
      case header =>
        have hget : ((ringEntry r r.tail h ((lookup c.laps q).getD 0) s).spad.get r.key).toNat = r.slots := by
          rw [ringEntry_get hw _ _ _ _ (by omega), hslots]
        rw [ringAt_of_spad hspad, ← hring]
        exact ringAt_setRing hwe r.pushed hget (by simp only [Ring.pushed]; omega) (by simp only [Ring.pushed]; omega)
          (by simp only [Ring.pushed]; omega) (by simp only [Ring.pushed]; omega)
      case entry =>
        rw [hspad, ← hring, setRing_read hwe r.pushed (by simp only [Ring.pushed]; omega)]
        exact ringEntry_read hw r r.tail h _
      case bytes => rw [hspad, ← hring, setRing_get hwe r.pushed hj, ringEntry_get hw _ _ _ _ hj']
      case memory => rw [ringAdvance_mem, ← hring]; rfl
      case gang => rw [ringAdvance_g, ← hring]; rfl
    case pop =>
      have hhead' := Nat.mod_lt (r.head + 1) hlo
      refine ⟨rfl, ?header, fun j hj => setRing_get hw r.popped hj, rfl, rfl⟩
      exact ringAt_setRing hw r.popped hslots (by simp only [Ring.popped]; omega) (by simp only [Ring.popped]; omega)
        (by simp only [Ring.popped]; omega) (by simp only [Ring.popped]; omega)

end Sys2Proof.Machine
end

section
/-! Ownership of scratchpad tiles (05 R164, R165; 01 R30). -/

namespace Sys2Proof.Machine

theorem withTiles_body {s : State} {addr n : Nat} {c : Crew} {ts : List Nat} (h : TilesAt s addr n c ts) (body : Crew → List Nat → State → State) :
    withTiles addr n body s = body c ts s := by
  obtain ⟨hcrew, halign, hlo, hhi, hwindow, hoffset, hend, rfl⟩ := h
  rw [withTiles, hcrew]
  exact (if_neg (by simp [halign])).trans (if_neg (by omega))

theorem withTiles_misaligned {s : State} {addr n : Nat} {c : Crew} (hcrew : s.myCrew = some c) (h : addr % 4096 ≠ 0)
    (body : Crew → List Nat → State → State) : withTiles addr n body s = objTrap 3 2 addr true s := by
  rw [withTiles, hcrew]
  exact if_pos (bne_iff_ne.mpr h)

/-- A word that takes a trap on an object of the window. -/
theorem trapsWith_of_objTrap {i : Instr} {s : State} {body : State → State} {group code addr : Nat} {window : Bool} (hg : group ≠ 10)
    (hm : MayIssue i s = true) (hi : exec i s = .next (issue (wordShapeOf i) body s)) (hf : isFifoWord i = false)
    (hb : body s = objTrap group code addr window s) : TrapsWith i s group code (accessDetail addr 4 window false 0 0 0) := by
  rw [TrapsWith, exec_body hm hi hf hb, objTrap, if_neg hg]

section
variable {s : State} {addr n : Nat} {c : Crew} {ts : List Nat} {sh : Shape} (h : TilesAt s addr n c ts)
include h

theorem ownGive_gives (howned : ts.any c.tileOwned = false) (hopens : s.g.opens = false) (harr : s.g.arriving = []) : ownGive sh addr n s =
    openWindow sh none (s.setCrew c.uid fun c => { c with tiles := ts.foldl (fun x t => upsert x t []) c.tiles }) := by
  rw [ownGive, withTiles_body h, howned, hopens, harr]
  rfl

theorem ownGive_faults (howned : ts.any c.tileOwned = true) : ownGive sh addr n s = objTrap 2 9 addr true s := by
  rw [ownGive, withTiles_body h, howned]
  rfl

/-- The tiles a take leaves: those that it names and no command holds go back. -/
theorem ownTake_eq : ownTake addr n s =
    let tiles := c.tiles.filter fun x => !(ts.contains x.1 && x.2.isEmpty)
    if ts.any { c with tiles := tiles }.tileOwned then block (s.setCrew c.uid fun _ => { c with tiles := tiles })
    else s.setCrew c.uid fun _ => { c with tiles := tiles } := withTiles_body h _

end

/-- After the idle tiles have gone back, those that are still held are engine-owned. -/
theorem any_tileOwned_filter (c : Crew) (ts : List Nat) :
    ts.any { c with tiles := c.tiles.filter fun x => !(ts.contains x.1 && x.2.isEmpty) }.tileOwned = true ↔
      ∃ t ∈ ts, ∃ i ids, (t, i :: ids) ∈ c.tiles := by
  have hheld (t : Nat) (ht : t ∈ ts) : { c with tiles := c.tiles.filter fun x => !(ts.contains x.1 && x.2.isEmpty) }.tileOwned t = true ↔
      ∃ i ids, (t, i :: ids) ∈ c.tiles := by
    simp only [Crew.tileOwned, List.any_eq_true, List.mem_filter, decide_eq_true_eq, Prod.exists]
    constructor
    · rintro ⟨_, ids, ⟨hmem, hkeep⟩, rfl⟩
      cases ids with
      | nil => simp [ht] at hkeep
      | cons i ids => exact ⟨i, ids, hmem⟩
    · rintro ⟨i, ids, hmem⟩
      exact ⟨t, i :: ids, ⟨hmem, by simp⟩, rfl⟩
  simp only [List.any_eq_true]
  exact exists_congr fun t => and_congr_right (hheld t)

/-- Where no command holds a tile named, every tile named goes back. -/
theorem filter_idle {c : Crew} {ts : List Nat} (h : ∀ t ∈ ts, ∀ ids, (t, ids) ∈ c.tiles → ids = []) :
    (c.tiles.filter fun x => !(ts.contains x.1 && x.2.isEmpty)) = c.tiles.filter fun x => !ts.contains x.1 := by
  refine List.filter_congr fun x hx => ?_
  by_cases ht : x.1 ∈ ts
  · simp [ht, h x.1 ht x.2 hx]
  · simp [ht]

/-- Settles O26. -/
theorem ownershipWords : Obligations.OwnershipWords := by
  unfold Obligations.OwnershipWords
  intro a b d l c ts s
  refine ⟨fun hm ho howned hopens harr => ?give, fun hm ho howned => ?giveFault, fun hm ho hidle => ?take, fun hm ho hheld => ?takeWaits,
    fun hm ho => ?test, fun hm hc halign => ?testAlign, fun hm hc halign => ?giveAlign, fun hm hc halign => ?takeAlign⟩
  case give => exact exec_body hm rfl rfl (ownGive_gives ho howned hopens harr)
  case giveFault => exact trapsWith_of_objTrap (by decide) hm rfl rfl (ownGive_faults ho howned)
  case take =>
    have hnone : ¬∃ t ∈ ts, ∃ i ids, (t, i :: ids) ∈ c.tiles := fun ⟨t, ht, i, ids, hmem⟩ => List.cons_ne_nil _ _ (hidle t ht _ hmem)
    rw [← filter_idle hidle]
    exact exec_body hm rfl rfl ((ownTake_eq ho).trans (if_neg (mt (any_tileOwned_filter c ts).mp hnone)))
  case takeWaits => exact exec_body hm rfl rfl ((ownTake_eq ho).trans (if_pos ((any_tileOwned_filter c ts).mpr hheld)))
  case test => exact exec_body hm rfl rfl (withTiles_body ho _)
  case testAlign | giveAlign | takeAlign => exact trapsWith_of_objTrap (by decide) hm rfl rfl (withTiles_misaligned hc halign _)

end Sys2Proof.Machine
end

section
/-! Monitors, waits and sleep (05 R166-R168). -/

namespace Sys2Proof.Machine

theorem addWaiter_g (d line : Nat) (t : BitVec 6) (s : State) : (addWaiter d line t s).g = s.g := by
  unfold addWaiter
  grind

/-- The scope of the acquire of `mwatch`. -/
theorem raisedScope_watch (s : State) (fpa : Nat) (here : Bool) : raisedScope s [fpa] (if !here then .fab else .dev) =
    if s.inWindow fpa then .sys else if isSwitch fpa then .fab else if here then .dev else .fab := by
  cases here <;> simp [raisedScope]

/-- `mwatch` whose read and acquire succeed. -/
theorem monitorWatch_arms {sh : Shape} {d va fpa : Nat} {e : TlbEntry} {bs : List Byte} {s s1 s2 u : State} (halign : va % 4 = 0)
    (ht : translate true false va s = (s1, .ok fpa e)) (hr : readAt s1.agent (if s1.isLocal fpa then .home else .far) e fpa 4 s1 = .ok bs s2)
    (ha : AcquiredFrom (if s2.inWindow fpa then .sys else if isSwitch fpa then .fab else if s1.isLocal fpa then .dev else .fab)
      (keepTags [tagOf s2 fpa])
      (dropOutrun s2.g.die.toNat [fpa] (if (s2.isHbm fpa && e.twin) = true then addWaiter s2.g.die.toNat (lineOf fpa) s2.g.tenant s2 else s2)) u) :
    monitorWatch sh d va s = openWindow sh none ((u.setR fun r => r.setS d (BitVec.ofNat 64 (ofBytes bs))).setG fun g =>
      { g with monitor := some ⟨BitVec.ofNat 64 va, lineOf fpa, u.version (lineOf fpa)⟩ }) := by
  have hpoint : (if !s1.isLocal fpa then Point.far else .home) = if s1.isLocal fpa then .home else .far := by cases s1.isLocal fpa <;> rfl
  have hg : (if (s2.isHbm fpa && e.twin) = true then addWaiter s2.g.die.toNat (lineOf fpa) s2.g.tenant s2 else s2).g = s2.g := by
    split
    · exact addWaiter_g ..
    · rfl
  unfold monitorWatch
  rw [if_neg (by simp [halign]), ht]
  dsimp only
  rw [hpoint, hr]
  dsimp only
  rw [raisedScope_watch, hg, withAcquire, ha]

section
variable {d n : Nat} {s : State}

theorem monitorWait_unarmed (h : s.g.monitor = none) : monitorWait d n s = monitorDone d 2 s := by
  rw [monitorWait, h]; rfl

section
variable {m : Monitor} (h : s.g.monitor = some m)
include h

theorem monitorHit_eq : monitorHit s s.g = (s.version m.line != m.version) := by rw [monitorHit, h]

theorem monitorWait_changed (hv : s.version m.line ≠ m.version) : monitorWait d n s = monitorDone d 0 s := by
  rw [monitorWait, monitorHit_eq h, h]
  exact if_pos (bne_iff_ne.mpr hv)

theorem monitorWait_woken {c : Nat} (hv : s.version m.line = m.version) (hw : s.g.wait = .woken c) : monitorWait d n s = monitorDone d c s := by
  have hsame : ¬(s.version m.line != m.version) = true := by simp [hv]
  rw [monitorWait, monitorHit_eq h, h, hw]
  exact if_neg hsame

/-- `mwait` that waits, with no limit left over from an earlier wait. -/
theorem monitorWait_waits (hv : s.version m.line = m.version) (hw : s.g.wait = .none)
    (hp : s.g.parkedWait = none) : monitorWait d n s =
    stall (s.setG fun g => { g with wait := .mwait d (if n = 0 then none else some (s.clk + n)) }) := by
  have hlimit : (s.g.parkedWait.getD (if n = 0 then none else some n)).map (fun m => s.clk + m) = if n = 0 then none else some (s.clk + n) := by
    rw [hp]
    by_cases h0 : n = 0 <;> simp [h0]
  have hgang : { s.g with wait := .mwait d (if n = 0 then none else some (s.clk + n)), parkedWait := none } =
      { s.g with wait := .mwait d (if n = 0 then none else some (s.clk + n)) } := by rw [← hp]
  have hsame : ¬(s.version m.line != m.version) = true := by simp [hv]
  rw [monitorWait, monitorHit_eq h, h, hw]
  dsimp only
  rw [hlimit]
  exact (if_neg hsame).trans (congrArg (fun g => stall { s with g := g }) hgang)

end

end

/-- Settles O27. -/
theorem monitorWords : Obligations.MonitorWords := by
  unfold Obligations.MonitorWords
  intro a b d l s
  refine ⟨fun s1 s2 u e fpa bs hm halign ht hr ha => ?watch, fun hm halign => ?watchAlign, fun hm hmon => ?unarmed, fun m hm hmon hv => ?changed,
    fun m n hm hmon hv hw => ?woken, fun m hm hmon hv hw hp => ?waits, fun hm hw hn => ?sleep, fun n hm hw => ?sleepEnds, fun hm hw hn => ?sleepZero,
    fun hm => ?clear⟩
  case watch => exact exec_body hm rfl rfl (monitorWatch_arms halign ht hr ha)
  case watchAlign => exact trapsWith_of_objTrap (by decide) hm rfl rfl (if_pos (bne_iff_ne.mpr halign))
  case unarmed => exact exec_body hm rfl rfl (monitorWait_unarmed hmon)
  case changed => exact exec_body hm rfl rfl (monitorWait_changed hmon hv)
  case woken => exact exec_body hm rfl rfl (monitorWait_woken hmon hv hw)
  case waits => exact exec_body hm rfl rfl (monitorWait_waits hmon hv hw hp)
  case sleep =>
    refine exec_body hm rfl rfl ?_
    rcases hw with hw | hw <;> rw [sleepWord, hw] <;> exact if_neg hn
  case sleepEnds => exact exec_body hm rfl rfl (by rw [sleepWord, hw])
  case sleepZero => exact exec_body hm rfl rfl (by rw [sleepWord, hw]; exact if_pos hn)
  case clear => exact exec_body hm rfl rfl rfl

end Sys2Proof.Machine
end

section
/-! Events at a resident gang: the ends of its waits, uncorrectable errors, and accesses left in flight (05 R166, R167; 06 R172, R174, R193). -/

namespace Sys2Proof.Machine

theorem focus_tick (s : State) (uid : Nat) : (s.focus uid).tick = s.tick := by
  unfold State.focus
  split
  · rfl
  · split <;> rfl

theorem focus_mem (s : State) (uid : Nat) : (s.focus uid).mem = s.mem := by
  unfold State.focus
  split
  · rfl
  · split <;> rfl

/-- An event row that runs f at a gang. -/
theorem exec_atGang {i : Instr} {uid : Nat} {s : State} {g : Gang} {f : State → State} (hi : exec i s = .next (atGang uid f s))
    (hgang : s.gang? uid = some g) (hres : g.status = .resident) : exec i s = .next (f (s.focus uid)) := by
  rw [hi, atGang_resident f hgang hres]

/-! ## Uncorrectable errors -/

/-- The fault record of an uncorrectable error. -/
def errorRecord (sid addr : Nat) (s : State) : FaultRec :=
  ⟨causeOf 15 (Config.unspecifiedByte s.tick).toNat, BitVec.ofNat 96 ((if onCore sid then 0 else addr % 2 ^ 64) + sid % 256 * 2 ^ 64)⟩

theorem causeOf_group {group code : Nat} (hg : group < 32) (hc : code < 256) : (causeOf group code).toNat / 256 = group := by
  rw [causeOf, BitVec.toNat_ofNat, Nat.mod_eq_of_lt (by omega)]
  omega

theorem onCore_iff (sid : Nat) : onCore sid = true ↔ sid ∈ [0, 1, 2, 6, 7] := by
  simp [onCore, or_assoc]

theorem hardError_ownState {sid addr : Nat} {s : State} (hdata : holdsData sid = false) (h7 : sid ≠ 7) : hardError sid addr s =
    { s with tick := s.tick + 1, g := { s.g with errorDue := some (errorRecord sid addr s) } } := by
  rw [hardError]
  exact (if_neg (by simp [hdata])).trans (if_neg h7)

/-! ## Accesses left in flight -/

section
variable {e : Nat} {s : State} {a : Access}

theorem completeAccess_idle (h : (s.g.entry e).state ≠ .inFlight) : completeAccess e s = s := by
  unfold completeAccess
  grind

section
variable (hx : (s.g.entry e).state = .inFlight) (ha : (s.g.entry e).acc = some a)
include hx ha

theorem completeAccess_behind (hb : behindOlder (s.g.entry e) a.op.kind s = true) : completeAccess e s = s := by
  simp only [completeAccess, hx, ha, hb, if_true]

/-- A load, store or atomic that nothing stands in front of is performed. -/
theorem completeAccess_performs {p : Progress} {u : State} (hb : behindOlder (s.g.entry e) a.op.kind s = false)
    (hkind : (∃ x, a.op.kind = .load x) ∨ a.op.kind = .store ∨ ∃ op r, a.op.kind = .atomic op r)
    (hp : perform (s.g.entry e) a e (s.g.entry e).todo (s.g.entry e).parked s = (p, u)) : completeAccess e s = settle e (s.g.entry e) p u := by
  simp only [completeAccess, hx, ha, hb, Bool.false_eq_true, if_false]
  rcases hkind with ⟨x, hk⟩ | hk | ⟨op, r, hk⟩ <;> simp only [hk, hp]

end

end

/-- The cause of a misaligned lane (06 R177). -/
theorem Access.fault_misaligned (a : Access) (e : Nat) (L : Fin 32) (va : Nat) : (a.fault e L ⟨3, 1, va, false⟩).cause = 0x301 :=
  show causeOf 3 1 = 0x301 by decide

/-- Lanes of the window that are all misaligned are parked, one after the other. -/
theorem runLanes_misaligned {a : Access} {k : LaneCtx} {e : Nat} {s : State} (hwindow : a.op.window = true) (hslot : a.op.slot = 0) :
    ∀ {Ls : List (Fin 32)} {p : Progress}, p.todo = 0 → (∀ L ∈ Ls, a.addr L % a.op.bytes ≠ 0) →
      runLanes a k e Ls p s = ({ p with parked := p.parked ++ Ls.map fun L => ⟨L, a.fault e L ⟨3, 1, a.addr L, false⟩⟩ }, s)
  | [], p, _, _ => by simp [runLanes]
  | L :: Ls, p, hp, h => by
    have hshare : a.sharesLine s p.todo L = false := by rw [Access.sharesLine, hp]; rfl
    have hbad : accessLane a k L s = .bad ⟨3, 1, a.addr L, false⟩ s := by
      simp only [accessLane, windowLane, hwindow, a.record_of_slot_zero hslot, bne_iff_ne, if_true]
      exact if_pos (h L List.mem_cons_self)
    have ih := runLanes_misaligned (k := k) (e := e) (s := s) hwindow hslot (Ls := Ls)
      (p := { p with parked := p.parked ++ [⟨L, a.fault e L ⟨3, 1, a.addr L, false⟩⟩] }) hp fun M hM => h M (List.mem_cons_of_mem _ hM)
    rw [runLanes, hshare, if_neg Bool.false_ne_true, hbad]
    dsimp only
    rw [ih, List.map_cons, List.append_assoc]
    rfl

/-- A store of the window whose lanes are all misaligned writes nothing. -/
theorem perform_misaligned {x : LogEntry} {a : Access} {e : Nat} {lanes : Word} {parked : List Parked} {s : State} (hkind : a.op.kind = .store)
    (hwindow : a.op.window = true) (hslot : a.op.slot = 0) (h : ∀ L, lane lanes L = true → a.addr L % a.op.bytes ≠ 0) :
    ∃ l, perform x a e lanes parked s = ({ todo := 0, blocks := l, parked := parked ++ (laneList lanes).map fun L =>
      ⟨L, a.fault e L ⟨3, 1, a.addr L, false⟩⟩ }, s) := by
  have hrec : a.recordFault lanes s = none := if_pos hslot
  have hblocks : a.blocksOf lanes s = [] := by rw [Access.blocksOf, a.record_of_slot_zero hslot]
  have hlanes := runLanes_misaligned (k := ⟨x.got, ⟨x.blocks, []⟩, x.relNo⟩) (e := e) (s := s) hwindow hslot (Ls := laneList lanes)
    (p := { todo := 0, parked := parked, blocks := x.blocks }) rfl fun L hL => h L (mem_laneList.mp hL)
  refine ⟨x.blocks, ?_⟩
  simp only [perform, hrec, hkind, hblocks, fetchBlocks, hlanes, Access.land, hwindow, if_true]

/-- A settled access with no lane left and some parked is faulted, to be replayed. -/
theorem settle_parked {e : Nat} {x : LogEntry} {p : Progress} {s : State} (he : e < 4) (hp : p.todo = 0) (hparked : p.parked ≠ []) :
    ((settle e x p s).g.entry e).state = .faulted ∧ ((settle e x p s).g.entry e).replay = true ∧
      ((settle e x p s).g.entry e).parked = p.parked := by
  have hempty : p.parked.isEmpty = false := by simpa using hparked
  rw [settle, State.setG_g, setEntry_entry _ _ _ he, hp, hempty]
  exact ⟨rfl, rfl, rfl⟩

/-- Settles O28. -/
theorem gangAndAccessEvents : Obligations.GangAndAccessEvents := by
  unfold Obligations.GangAndAccessEvents
  refine ⟨fun uid sid addr s => ⟨?timeout, ?sleep, ?wake, ?watchdog, fun g hgang hres => ?error⟩,
    fun uid e s => ⟨fun g hgang hres hx => ?idle, fun g a k v t hgang hres he hx ha hkind hb hrec hk hrun hparked => ?complete,
      fun g a hgang hres he hx ha hb => ?behind, fun g a hgang hres he hx ha hkind hwindow hb hslot hu halign htodo => ?misaligned⟩⟩
  case timeout => exact fun g hgang hres => exec_atGang (f := endTimedWait) rfl hgang hres
  case sleep => exact fun g hgang hres => exec_atGang (f := endSleep) rfl hgang hres
  case wake => exact fun g hgang hres => exec_atGang (f := wakeOther) rfl hgang hres
  case watchdog =>
    intro g hgang hres
    rw [exec_atGang (f := reachLimit) rfl hgang hres]
    simp only [reachLimit, Bool.and_eq_true, bne_iff_ne, decide_eq_true_eq, Option.isNone_iff_eq_none, and_assoc]
    rfl
  case error =>
    refine ⟨_, errorRecord sid addr (s.focus uid), exec_atGang rfl hgang hres, causeOf_group (by decide) (BitVec.isLt _), ?detail,
       fun ⟨hdata, h7⟩ => ?own⟩
    case detail => simp only [errorRecord, onCore_iff]
    case own => rw [hardError_ownState hdata h7, focus_tick]
  case idle =>
    rw [← State.focus_gang hgang] at hx
    rw [exec_atGang (f := completeAccess e) rfl hgang hres, completeAccess_idle hx]
  case complete =>
    rw [← State.focus_gang hgang] at hx ha hb hrec hk hrun hparked
    have hldtr : ∀ z, a.op.kind ≠ .ldtr z := by
      rcases hkind with ⟨x, hk⟩ | hk | ⟨op, r, hk⟩ <;> simp [hk]
    have hdone := perform_done (e := e) hldtr hrec hk hrun
    rw [← hparked] at hdone
    rw [exec_atGang (f := completeAccess e) rfl hgang hres, completeAccess_performs hx ha hb hkind hdone, hparked, settle_done]
  case behind =>
    rw [← State.focus_gang hgang] at hx ha hb
    rw [exec_atGang (f := completeAccess e) rfl hgang hres, completeAccess_behind hx ha hb]
  case misaligned =>
    rw [← State.focus_gang hgang] at hx ha hb halign htodo ⊢
    obtain ⟨l, hperform⟩ := perform_misaligned (x := (s.focus uid).g.entry e) (e := e) (parked := ((s.focus uid).g.entry e).parked)
      (s := s.focus uid) hkind hwindow hslot halign
    have hparks : ∀ L, lane ((s.focus uid).g.entry e).todo L = true → (⟨L, a.fault e L ⟨3, 1, a.addr L, false⟩⟩ : Parked) ∈
        ((s.focus uid).g.entry e).parked ++ (laneList ((s.focus uid).g.entry e).todo).map fun L => ⟨L, a.fault e L ⟨3, 1, a.addr L, false⟩⟩ :=
      fun L hL => List.mem_append_right _ (List.mem_map.mpr ⟨L, mem_laneList.mpr hL, rfl⟩)
    obtain ⟨M, hM⟩ := lane_of_ne_zero _ htodo
    obtain ⟨hstate, hreplay, hparked⟩ := settle_parked (x := (s.focus uid).g.entry e) (s := s.focus uid) (p := ⟨0, _, l⟩) he rfl
      (List.ne_nil_of_mem (hparks M hM))
    refine ⟨_, exec_atGang (f := completeAccess e) rfl hgang hres, ?_⟩
    rw [completeAccess_performs hx ha (hkind ▸ hb) (.inr (.inl hkind)) hperform]
    exact ⟨rfl, focus_mem s uid, hstate, hreplay, fun L hL => ⟨⟨L, _⟩, by rw [hparked]; exact hparks L hL, rfl, a.fault_misaligned e L _⟩⟩

end Sys2Proof.Machine
end

section
/-! Lanes that fail behind an arrival (05 R142; 06 R172): the word waits before it finds what any of its lanes fails by. -/

namespace Sys2Proof.Machine

/-- The gang of `behindArrival`, with every lane's address one byte into the line of its arrival's object. -/
def misalignedBehindArrival : State := behindArrival.setR fun r => r.setV 5 (Lanes.all 1)

theorem misalignedBehindArrival_vreg (L : Fin 32) : (misalignedBehindArrival.src.vreg 5)[L] = 1 := by
  have hset : misalignedBehindArrival.src.vreg 5 = Lanes.all 1 := (Regs.setV_vreg _ 5 5 _ (by decide)).trans (if_pos rfl)
  rw [hset]
  exact Lanes.all_get 1 L

/-- A lane of the window that names the line of an arrival's object. -/
theorem overlapsFlight_of_arriving {s : State} {a : Access} {x : PendingArrival} {L : Fin 32} (hwindow : a.op.window = true)
    (hx : x ∈ s.g.arriving) (hL : lane a.active L = true) (hline : lineOf (a.addr L) = lineOf x.addr) : overlapsFlight s a = true := by
  have hmeets : (s.g.arriving.any fun x => (laneList a.active).any fun L => a.line s L == (true, lineOf x.addr)) = true :=
    List.any_eq_true.mpr ⟨x, hx, List.any_eq_true.mpr ⟨L, mem_laneList.mpr hL, by simp [Access.line, hwindow, hline]⟩⟩
  rw [overlapsFlight, hmeets, Bool.or_true]

/-- A store of the gang there waits. -/
theorem exec_pstB32_misalignedBehindArrival :
    exec (.pstB32 1 5 0) misalignedBehindArrival = .next (stall misalignedBehindArrival) :=
  memWord_stalls (e := 0) rfl rfl rfl (by decide) (by decide) (by decide) (by decide)
    (overlapsFlight_of_arriving (L := 0) rfl List.mem_cons_self (by decide)
      (by rw [capVector_window_addr _ rfl]; exact congrArg (fun x : Word => lineOf x.toNat) (misalignedBehindArrival_vreg 0)))

/-- Refutes O34: the statement's hypotheses let an arrival of the gang stand on the line of the access (05 R142). The word then waits, misaligned
as its lanes are, and parks none of them. -/
theorem not_lanesPark : ¬ Obligations.LanesPark := by
  unfold Obligations.LanesPark
  intro h
  obtain ⟨-, hstore⟩ := h 1 5 0 0 (fun _ => 1) misalignedBehindArrival rfl (by decide) (by decide) (by decide)
    (fun L => congrArg BitVec.toNat (misalignedBehindArrival_vreg L).symm) ⟨by decide, by decide⟩
  obtain ⟨t, ht, hparks, -⟩ := hstore (by decide)
  obtain rfl : stall misalignedBehindArrival = t := Host.Outcome.next.inj (exec_pstB32_misalignedBehindArrival.symm.trans ht)
  obtain ⟨p, hp, -⟩ := hparks 0 (by decide) (.inl (by decide))
  have hnone : ((stall misalignedBehindArrival).g.entry 0).parked = [] := by decide
  exact absurd (hnone ▸ hp) List.not_mem_nil

end Sys2Proof.Machine
end

section
/-! Taking a trap in normal mode (06 R176, R179, R180): the fields of `%tslots`, the handler bank, and the gang that stands in its handler. -/

namespace Sys2Proof.Machine

/-! ## The fields of `%tslots` (06 R176) -/

section
variable (m : Word) (b : BitVec 4) (n : Nat)

/-- `%tslots` as a trap loads it: the mask, the bitmap of faulted entries, the number of the reported one. -/
def slotsOf : BitVec 39 := BitVec.ofNat 39 (m.toNat + b.toNat * 2 ^ 32 + n % 4 * 2 ^ 36)

theorem slotsOf_toNat : (slotsOf m b n).toNat = m.toNat + b.toNat * 2 ^ 32 + n % 4 * 2 ^ 36 := by
  have hm := m.isLt
  have hb := b.isLt
  rw [slotsOf, BitVec.toNat_ofNat]
  omega

theorem slotsOf_mask : (slotsOf m b n).extractLsb' 0 32 = m := by
  have hm := m.isLt
  refine BitVec.eq_of_toNat_eq ?_
  rw [BitVec.extractLsb'_toNat, slotsOf_toNat, Nat.shiftRight_eq_div_pow]
  omega

theorem slotsOf_faulted (k : Nat) (hk : k < 4) : (slotsOf m b n).getLsbD (32 + k) = b.getLsbD k := by
  have hm := m.isLt
  have hb : (slotsOf m b n).extractLsb' 32 4 = b := by
    have hb := b.isLt
    refine BitVec.eq_of_toNat_eq ?_
    rw [BitVec.extractLsb'_toNat, slotsOf_toNat, Nat.shiftRight_eq_div_pow]
    omega
  have hbit := BitVec.getLsbD_extractLsb' 32 4 (slotsOf m b n) k
  rw [hb, decide_eq_true hk, Bool.true_and] at hbit
  exact hbit.symm

theorem slotsOf_entry : ((slotsOf m b n).extractLsb' 36 2).toNat = n % 4 := by
  have hm := m.isLt
  have hb := b.isLt
  rw [BitVec.extractLsb'_toNat, slotsOf_toNat, Nat.shiftRight_eq_div_pow]
  omega

/-- No trap asks for a single step. -/
theorem slotsOf_step : (slotsOf m b n).getLsbD 38 = false := by
  have hm := m.isLt
  have hb := b.isLt
  rw [BitVec.getLsbD, slotsOf_toNat, Nat.testBit_eq_false_of_lt]
  omega

end

/-- The bitmap of faulted entries, entry by entry. -/
theorem Gang.faultedBits_getLsbD (g : Gang) (e : Fin 4) : g.faultedBits.getLsbD e.val = decide (g.olog[e].state = .faulted) := by
  have hget (k : Fin 4) : g.olog.toList.getD k.val LogEntry.empty = g.olog[k] := by simp
  have hbits : ∀ p : Fin 4 → Bool, ∀ e : Fin 4, (BitVec.ofNat 4 (((List.range 4).filter fun k =>
      if h : k < 4 then p ⟨k, h⟩ else false).foldl (fun a k => a + 2 ^ k) 0)).getLsbD e.val = p e := by decide
  rw [← hbits (fun k => decide (g.olog[k].state = .faulted)) e, Gang.faultedBits]
  congr 3
  refine List.filter_congr fun k hk => ?_
  have hk4 := List.mem_range.mp hk
  rw [dif_pos hk4]
  exact congrArg (fun x : LogEntry => decide (x.state = .faulted)) (hget ⟨k, hk4⟩)

/-! ## The handler bank (06 R180) -/

/-- A scalar register is read in the scalar registers alone. -/
theorem Regs.sreg_of_s {q r : Regs} (h : q.s = r.s) (k : Nat) : q.sreg k = r.sreg k := by
  rw [Regs.sreg, Regs.sreg, h]

theorem Gang.swapBank_sreg_high (g : Gang) (k : Fin 8) : g.swapBank.r.sreg (24 + k.val) = g.bank[k] := by
  have hk : 24 + k.val < 32 := by omega
  simp [Regs.sreg, Gang.swapBank, hk]

theorem Gang.swapBank_bank (g : Gang) (k : Fin 8) : g.swapBank.bank[k] = g.r.sreg (24 + k.val) := by
  have hk : 24 + k.val < 32 := by omega
  simp [Regs.sreg, Gang.swapBank, hk, Nat.add_comm k.val 24]

theorem Gang.swapBank_sreg_low (g : Gang) {k : Nat} (hk : k < 24) : g.swapBank.r.sreg k = g.r.sreg k := by
  have h32 : k < 32 := by omega
  simp [Regs.sreg, Gang.swapBank, h32, hk.not_ge]

/-! ## The trap registers -/

/-- The 96-bit detail from its three words (06 R176). -/
theorem detail_words (d : BitVec 96) : d.extractLsb' 64 32 ++ d.extractLsb' 32 32 ++ d.extractLsb' 0 32 = d := by
  ext i hi
  simp only [BitVec.getElem_append, BitVec.getElem_extractLsb']
  grind

theorem Gang.loadTrap_detail (g : Gang) (c : BitVec 13) (d : BitVec 96) (m : Word) (e : Nat) (p : Pc) : (g.loadTrap c d m e p).r.detail = d :=
  detail_words d

theorem Pc.toBits_packet (p : Pc) : p.toBits.extractLsb' 0 32 = p.packet := BitVec.extractLsb'_append_eq_right

theorem Pc.toBits_slot (p : Pc) : p.toBits.extractLsb' 32 2 = p.slot := BitVec.extractLsb'_append_eq_left

/-- A cause is its group and its code. -/
theorem causeOf_split (c : BitVec 13) : causeOf (c.toNat / 256) (c.toNat % 256) = c := by
  rw [causeOf, Nat.div_add_mod', BitVec.ofNat_toNat, BitVec.setWidth_eq]

theorem causeOf_eq (group code : Nat) : causeOf group code = BitVec.ofNat 13 (256 * group + code) := by
  rw [causeOf, Nat.mul_comm]

/-! ## The entry that a trap names (06 R176; log entry 58) -/

section
variable {g : Gang} {m : Word} {e : Nat}

theorem Gang.named_of_lanes (h : m ≠ 0) : g.named m e = e := if_neg h

/-- The number named where no lane is reported is that of an entry that is not faulted, if there is one. -/
theorem Gang.named_quiet (h : ∃ e : Fin 4, g.olog[e].state ≠ .faulted) : ∃ k : Fin 4, g.named 0 e = k.val ∧ g.olog[k].state ≠ .faulted := by
  obtain ⟨j, hj⟩ := h
  have hget (k : Fin 4) : g.olog.toList.getD k.val LogEntry.empty = g.olog[k] := by simp
  have hsome : g.quietEntry.isSome = true := List.find?_isSome.mpr ⟨j.val, List.mem_range.mpr j.isLt, by rw [hget]; simpa using hj⟩
  obtain ⟨k, hk⟩ := Option.isSome_iff_exists.mp hsome
  have hlt := List.mem_range.mp (List.mem_of_find?_eq_some hk)
  have hquiet := List.find?_some hk
  rw [hget ⟨k, hlt⟩] at hquiet
  exact ⟨⟨k, hlt⟩, by rw [Gang.named, hk]; rfl, by simpa using hquiet⟩

end

/-! ## The gang in its handler -/

/-- A gang that a trap in normal mode has sent to its handler. -/
def Gang.trapped (group code : Nat) (det : BitVec 96) (lanes : Word) (entry : Nat) (resume : Pc) (g : Gang) : Gang :=
  { g with
    r := { g.r with
      s := g.swapBank.r.s
      emask := 0xFFFFFFFF
      tcause := causeOf group code
      tdet0 := det.extractLsb' 0 32
      tdet1 := det.extractLsb' 32 32
      tdet2 := det.extractLsb' 64 32
      tlanes := lanes
      tpc := resume.toBits
      tslots := slotsOf g.r.emask g.faultedBits (g.named lanes entry) }
    bank := g.swapBank.bank
    src := none
    handler := some (causeOf group code)
    cur := ⟨BitVec.ofNat 32 (4 * group), 0⟩
    pc := ⟨BitVec.ofNat 32 (4 * group), 0⟩
    fetched := none
    hwindows := []
    relPending := none
    card := none
    handlerReport := none
    reported := lanes != 0 || g.quietEntry.isSome
    wait := .none }

theorem leaveBarrier_spad_only (s : State) : leaveBarrier s = { s with spad := (leaveBarrier s).spad } := by
  unfold leaveBarrier
  split <;> rfl

/-- A gang that does not leave `bar.wait` leaves the scratchpad alone. -/
theorem leaveBarrier_elsewhere {s : State} (h : ∀ c a, s.g.wait ≠ .barWait c a) : leaveBarrier s = s := by
  unfold leaveBarrier
  split
  case h_1 c a hw => exact absurd hw (h c a)
  case h_2 => rfl

/-- One that does is counted off the object's waiting gangs. -/
theorem leaveBarrier_at {s : State} {c a : Nat} (h : s.g.wait = .barWait c a) : (leaveBarrier s).spad =
    s.spad.write (c * 2 ^ 20 + a + 8) (toBytes 2 (ofBytes (s.spad.read (c * 2 ^ 20 + a + 8) 2) - 1)) := by
  rw [leaveBarrier, h]

theorem State.tenant_of_tenants {s t : State} (h : s.tenants = t.tenants) (k : BitVec 6) : s.tenant k = t.tenant k := by
  rw [State.tenant, State.tenant, h]

/-- In handler mode the code lies from the tenant's handler base upward (06 R179). -/
theorem packetVa_handler {s t : State} (hh : t.g.handler.isSome = true) (htenants : t.tenants = s.tenants) (ht : t.g.tenant = s.g.tenant) (n : Word) :
    packetVa t n = (s.tenant s.g.tenant).handler.toNat + 12 * n.toNat := by
  rw [packetVa, if_pos hh, ht, State.tenant_of_tenants htenants]

section
variable {group code entry : Nat} {det : BitVec 96} {lanes : Word} {p : Pc} {s : State}

theorem takeTrap_waits (hb : s.g.busy = true) : takeTrap group code det lanes entry p s = stall s := if_pos hb

theorem takeTrap_ready (hb : s.g.busy = false) : takeTrap group code det lanes entry p s = enterTrap group code det lanes entry p s :=
  if_neg (by simp [hb])

theorem enterTrap_normal (hh : s.g.handler = none) : enterTrap group code det lanes entry p s =
    { s with g := s.g.trapped group code det lanes entry p, spad := (leaveBarrier s).spad } := by
  rw [enterTrap, hh, leaveBarrier_spad_only s]
  simp only [State.setG, Gang.swapBank, Gang.loadTrap, Gang.trapped, Option.isSome_none, Bool.false_eq_true, if_false]
  rfl

end

section
variable (group code entry : Nat) (det : BitVec 96) (lanes : Word) (p : Pc) (g : Gang)

@[simp] theorem Gang.trapped_uid : (g.trapped group code det lanes entry p).uid = g.uid := by simp only [Gang.trapped]
@[simp] theorem Gang.trapped_errorDue : (g.trapped group code det lanes entry p).errorDue = g.errorDue := by simp only [Gang.trapped]
@[simp] theorem Gang.trapped_stepDue : (g.trapped group code det lanes entry p).stepDue = g.stepDue := by simp only [Gang.trapped]
@[simp] theorem Gang.trapped_watchdogDue : (g.trapped group code det lanes entry p).watchdogDue = g.watchdogDue := by simp only [Gang.trapped]
@[simp] theorem Gang.trapped_runStart : (g.trapped group code det lanes entry p).runStart = g.runStart := by simp only [Gang.trapped]
@[simp] theorem Gang.trapped_tcause : (g.trapped group code det lanes entry p).r.tcause = causeOf group code := by simp only [Gang.trapped]
@[simp] theorem Gang.trapped_detail : (g.trapped group code det lanes entry p).r.detail = det := detail_words det
@[simp] theorem Gang.trapped_tlanes : (g.trapped group code det lanes entry p).r.tlanes = lanes := by simp only [Gang.trapped]
@[simp] theorem Gang.trapped_tslots :
    (g.trapped group code det lanes entry p).r.tslots = slotsOf g.r.emask g.faultedBits (g.named lanes entry) := by simp only [Gang.trapped]

end

/-- Settles O29: a trap in normal mode leaves the gang as `Gang.trapped` says, and takes it off the object it waited at (`leaveBarrier`). -/
theorem trapEntry : Obligations.TrapEntry := by
  unfold Obligations.TrapEntry
  intro group code entry det lanes p s hgroup hcode hentry hh
  refine ⟨takeTrap_waits, fun hb => ?_⟩
  rw [takeTrap_ready hb, enterTrap_normal hh]
  dsimp only [Gang.trapped]
  refine ⟨congrArg some (causeOf_eq group code), causeOf_eq group code, detail_words det, rfl, p.toBits_packet, p.toBits_slot,
    slotsOf_mask .., slotsOf_step .., fun hl => ?named, fun hl hq => ?quiet, fun e => ?faulted, rfl, fun k => ⟨?high, s.g.swapBank_bank k⟩,
    fun k hk => ?low, rfl, rfl, fun n => ?base, rfl, rfl, rfl, rfl, fun hw => by rw [leaveBarrier_elsewhere hw],
    fun c a k hw hk hm => ?counted⟩
  case named => rw [slotsOf_entry, Gang.named_of_lanes hl, Nat.mod_eq_of_lt hentry]
  case quiet =>
    obtain ⟨k, hk, hquiet⟩ := Gang.named_quiet (e := entry) hq
    exact ⟨k, by rw [slotsOf_entry, hl, hk, Nat.mod_eq_of_lt k.isLt], hquiet⟩
  case faulted => rw [slotsOf_faulted _ _ _ _ e.isLt, Gang.faultedBits_getLsbD]
  case base => refine packetVa_handler (s := s) ?_ ?_ ?_ n <;> rfl
  case high => exact (Regs.sreg_of_s rfl _).trans (s.g.swapBank_sreg_high k)
  case low => exact (Regs.sreg_of_s rfl k).trans (s.g.swapBank_sreg_low hk)
  case counted =>
    have hcount : ofBytes (s.spad.read (k + 8) 2) - 1 < 256 ^ 2 := by
      have := ofBytes_lt (n := 2) (bs := s.spad.read (k + 8) 2) (by rw [Memory.read_length])
      omega
    subst hk
    rw [leaveBarrier_at hw]
    exact ⟨ofBytes_read_write hm.2 _ _ _ hcount, fun j hj => Memory.get_write_apart hm.2 (by rw [toBytes_length]; omega)⟩

end Sys2Proof.Machine
end

section
/-! Double faults (06 R182; 18 R405; 19 R416, R417): the trap registers of the trap that could not be taken, its event, and the end of the node. -/

namespace Sys2Proof.Machine

/-! ## The event in its die's overflow buffer (19 R417) -/

section
variable {e : HostEvent} {s : State}

/-- An event enters its origin's buffer where that has room; a ring that is full or disabled counts a stall. -/
theorem enqueueEvent_room (h : s.host.hasRoom e.origin = true) : ∃ n, enqueueEvent e s = { s with host := { s.host with
    evStalls := n, buffers := upsert s.host.buffers e.origin (s.host.buffer e.origin ++ [e]) } } := by
  cases hc : s.host.evEnabled && !s.host.ringFull
  · refine ⟨s.host.evStalls + 1, ?_⟩
    rw [enqueueEvent, hc]
    exact if_pos h
  · refine ⟨s.host.evStalls, ?_⟩
    rw [enqueueEvent, hc]
    exact if_pos h

/-- An event of a gang that finds no room is held back. -/
theorem enqueueEvent_full (h : s.host.hasRoom e.origin = false) (hkind : e.kind = 1) : ∃ n, enqueueEvent e s = { s with host := { s.host with
    evStalls := n, overflow := true, held := s.host.held ++ [e] } } := by
  have hfull : ¬s.host.hasRoom e.origin = true := by simp [h]
  cases hc : s.host.evEnabled && !s.host.ringFull
  · refine ⟨s.host.evStalls + 1, ?_⟩
    rw [enqueueEvent, hc]
    exact (if_neg hfull).trans (if_neg fun hk => hk.1 hkind)
  · refine ⟨s.host.evStalls, ?_⟩
    rw [enqueueEvent, hc]
    exact (if_neg hfull).trans (if_neg fun hk => hk.1 hkind)

end

theorem HostPort.buffer_upsert (h : HostPort) (n : Word) (o : Nat) (l : List HostEvent) :
    HostPort.buffer { h with evStalls := n, buffers := upsert h.buffers o l } o = l := by
  rw [HostPort.buffer, lookup_upsert, if_pos rfl, Option.getD_some]

/-! ## A node by its number -/

section
variable {s : State} {id : Word} {n : Node}

theorem State.node?_id (h : s.node? id = some n) : n.id = id := by
  simpa using List.find?_some h

/-- A node that a change of it leaves its number. -/
theorem State.node?_setNode {f : Node → Node} (hf : ∀ m, (f m).id = m.id) (h : s.node? id = some n) : (s.setNode id f).node? id = some (f n) := by
  have hid (m : Node) : (if m.id = id then f m else m).id = m.id := by split <;> simp [hf]
  have hcomp : ((fun m : Node => decide (m.id = id)) ∘ fun m => if decide (m.id = id) = true then f m else m) = fun m => decide (m.id = id) :=
    funext fun m => by simp [hid]
  rw [State.node?] at h
  rw [State.node?, State.setNode, mapIf, List.find?_map, hcomp, h, Option.map_some]
  simp [State.node?_id h]

end

/-! ## The error of a node -/

section
variable {id : Word} {code : Byte} {g : Gang} {s : State} {n : Node} (hn : s.node? id = some n) (he : n.error = none) (hh : n.errorHeld = none)
include hn he hh

theorem nodeError_ends (hroom : s.host.hasRoom g.die.toNat = true) :
    nodeError id code (some g) s = endNode n code (some g) (enqueueEvent (nodeEvent n (some g)) s) := by
  simp only [nodeError, hn, he, hh, Option.isSome_none, Bool.false_eq_true, if_false]
  exact if_pos hroom

/-- Where the event has no room the gang alone stands still. -/
theorem nodeError_held (hroom : s.host.hasRoom g.die.toNat = false) : nodeError id code (some g) s =
    stopGang g.uid ((enqueueEvent (nodeEvent n (some g)) s).setNode id fun m => { m with errorHeld := some (code, g.uid) }) := by
  simp only [nodeError, hn, he, hh, Option.isSome_none, Bool.false_eq_true, if_false]
  exact if_neg (by rw [Bool.not_eq_true]; exact hroom)

end

theorem mem_mapIf {α : Type} {p : α → Bool} {f : α → α} {l : List α} {y : α} (h : y ∈ mapIf p f l) :
    ∃ x ∈ l, y = if p x then f x else x := by
  obtain ⟨x, hx, rfl⟩ := List.mem_map.mp h
  exact ⟨x, hx, rfl⟩

/-- Of a node nothing runs any more: no gang, crew, ensemble, command or task (18 R405). -/
def NothingRuns (id : Word) (t : State) : Prop :=
  (∀ g ∈ t.gangs, g.node = id → g.status = .stopped) ∧ (∀ c ∈ t.crews, c.node ≠ id) ∧ (∀ e ∈ t.ensembles, e.node ≠ id) ∧
    ∀ x ∈ t.cores, (∀ c ∈ x.2.cmds, c.node ≠ id) ∧ ∀ k ∈ x.2.tasks, k.node ≠ id

theorem endNode_nothingRuns (n : Node) (code : Byte) (who : Option Gang) (s : State) : NothingRuns n.id (endNode n code who s) := by
  refine ⟨fun g hg hnode => ?gangs, fun c hc => ?crews, fun e he => ?ensembles, fun x hx => ?cores⟩
  case gangs =>
    obtain ⟨g, -, rfl⟩ := mem_mapIf hg
    by_cases h : g.node = n.id
    · simp [h]
    · simp [h] at hnode
  case crews => simpa using (List.mem_filter.mp hc).2
  case ensembles => simpa using (List.mem_filter.mp he).2
  case cores =>
    obtain ⟨y, -, rfl⟩ := List.mem_map.mp hx
    exact ⟨fun c hc => by simpa using (List.mem_filter.mp hc).2, fun k hk => by simpa using (List.mem_filter.mp hk).2⟩

/-! ## The error of the node whose gang runs -/

/-- The event of the gang whose turn it is, about its node (19 R416). -/
def State.gangEvent (s : State) (n : Node) : HostEvent :=
  ⟨1, s.g.die.toNat, n.desc.tenant, s.g.node, s.g.r.detail ++ s.g.r.tcause.setWidth 32, 0⟩

theorem nodeEvent_gang {s : State} {n : Node} (hn : s.node? s.g.node = some n) : nodeEvent n (some s.g) = s.gangEvent n := by
  rw [nodeEvent, State.node?_id hn]
  rfl

section
variable {code : Byte} {s : State} {n : Node} (hres : s.g.status = .resident) (hn : s.node? s.g.node = some n) (he : n.error = none)
  (hh : n.errorHeld = none)
include hres hn he hh

/-- With room for its event the node ends. -/
theorem nodeError_room (hroom : s.host.hasRoom s.g.die.toNat = true) : ∃ t, nodeError s.g.node code (some s.g) s = t ∧
    t.g = { s.g with status := .stopped, wait := .none, arriving := [] } ∧ t.mem = s.mem ∧ t.spad = s.spad ∧
    t.host.buffer s.g.die.toNat = s.host.buffer s.g.die.toNat ++ [s.gangEvent n] ∧
    t.node? s.g.node = some { n with error := some ⟨code, s.g.die.toNat, s.g.r.detail ++ s.g.r.tcause.setWidth 32⟩, errorHeld := none } ∧
    NothingRuns s.g.node t := by
  have hid := State.node?_id hn
  have hevent := nodeEvent_gang hn
  obtain ⟨k, hq⟩ := enqueueEvent_room (e := s.gangEvent n) hroom
  rw [← hevent] at hq
  refine ⟨_, nodeError_ends hn he hh hroom, ?gang, ?mem, ?spad, ?event, ?error, hid ▸ endNode_nothingRuns n code (some s.g) _⟩
  case gang =>
    rw [endNode_g, hq]
    exact if_pos ⟨hid.symm, by simp [hres]⟩
  case mem => rw [hq]; rfl
  case spad => rw [hq]; rfl
  case event => rw [hq, hevent]; exact HostPort.buffer_upsert ..
  case error =>
    rw [← hid] at hn ⊢
    rw [hq]
    exact State.node?_setNode (s := { s with host := _ })
      (f := fun m => { m with error := some ⟨code, s.g.die.toNat, trapDetail s.g.r⟩, errorHeld := none }) (fun _ => rfl) hn

/-- Without room the gang alone stands still, and its event is held back. -/
theorem nodeError_noRoom (hroom : s.host.hasRoom s.g.die.toNat = false) : ∃ t, nodeError s.g.node code (some s.g) s = t ∧
    t.g = { s.g with status := .stopped, wait := .none } ∧ t.mem = s.mem ∧ t.spad = s.spad ∧
    (∀ o, t.host.buffer o = s.host.buffer o) ∧ t.host.held = s.host.held ++ [s.gangEvent n] ∧ t.host.overflow = true ∧
    t.node? s.g.node = some { n with errorHeld := some (code, s.g.uid) } ∧
    t.gangs = s.gangs ∧ t.crews = s.crews ∧ t.ensembles = s.ensembles ∧ t.cores = s.cores := by
  obtain ⟨k, hq⟩ := enqueueEvent_full (e := s.gangEvent n) hroom rfl
  have hstop (nodes : List Node) (h : HostPort) : stopGang s.g.uid { s with nodes := nodes, host := h } =
      { s with g := { s.g with status := .stopped, wait := .none }, nodes := nodes, host := h } :=
    if_pos ⟨rfl, by simp [hres]⟩
  rw [nodeError_held hn he hh hroom, nodeEvent_gang hn, hq, State.setNode, hstop]
  refine ⟨_, rfl, rfl, rfl, rfl, fun _ => rfl, rfl, rfl, ?error, rfl, rfl, rfl, rfl⟩
  exact State.node?_setNode (s := s) (f := fun m => { m with errorHeld := some (code, s.g.uid) }) (fun _ => rfl) hn

end

/-! ## The statement -/

/-- The gang whose trap registers hold a trap that it could not take (06 R182; log entry 13). -/
def Gang.doubleFault (group code : Nat) (det : BitVec 96) (lanes : Word) (entry : Nat) (resume : Pc) (g : Gang) : Gang :=
  { g with src := none }.loadTrap (causeOf group code) det lanes (g.named lanes entry) resume

theorem enterTrap_double {group code entry : Nat} {det : BitVec 96} {lanes : Word} {p : Pc} {s : State} (hh : s.g.handler.isSome = true) :
    enterTrap group code det lanes entry p s =
      nodeError s.g.node 3 (some (s.g.doubleFault group code det lanes entry p)) { s with g := s.g.doubleFault group code det lanes entry p } :=
  if_pos hh

/-- Settles O30: in handler mode a trap is an error of the gang's node, whose event is the gang's. -/
theorem doubleFaults : Obligations.DoubleFaults := by
  unfold Obligations.DoubleFaults
  intro group code entry det lanes p s n hh hb hres hn he hheld hgroup hcode
  have hdetail : (s.g.doubleFault group code det lanes entry p).r.detail = det := Gang.loadTrap_detail ..
  have hcause : (s.g.doubleFault group code det lanes entry p).r.tcause = BitVec.ofNat 13 (256 * group + code) := causeOf_eq group code
  rw [takeTrap_ready hb, enterTrap_double hh]
  cases hroom : s.host.hasRoom s.g.die.toNat with
  | true =>
    obtain ⟨t, ht, hg, hmem, hspad, hbuffer, herror, hnothing⟩ :=
      nodeError_room (code := 3) (s := { s with g := s.g.doubleFault group code det lanes entry p }) hres hn he hheld hroom
    refine ht ▸ ⟨by rw [hg], by rw [hg]; exact hcause, by rw [hg]; exact hdetail, hmem, hspad, fun _ => ⟨?event, ?error, hnothing⟩,
      fun h => absurd h (by simp)⟩
    case event => rw [hg]; exact hbuffer
    case error => rw [hg]; exact congrArg (Option.map Node.error) herror
  | false =>
    obtain ⟨t, ht, hg, hmem, hspad, hbuffer, hheldBack, hoverflow, herror, hothers⟩ :=
      nodeError_noRoom (code := 3) (s := { s with g := s.g.doubleFault group code det lanes entry p }) hres hn he hheld hroom
    refine ht ▸ ⟨by rw [hg], by rw [hg]; exact hcause, by rw [hg]; exact hdetail, hmem, hspad, fun h => absurd h (by simp),
      fun _ => ⟨hbuffer _, ?held, hoverflow, ?error, ?who, hothers⟩⟩
    case held => rw [hg]; exact hheldBack
    case error => exact (congrArg (Option.map Node.error) herror).trans (congrArg (fun x => some x) he)
    case who => exact congrArg (Option.map Node.errorHeld) herror

end Sys2Proof.Machine
end

section
/-! The order of the traps due at a boundary (06 R181): what each of them answers in normal mode with no access in flight, and which comes first. -/

namespace Sys2Proof.Machine

/-! ## Traps from outside the gang -/

theorem Gang.setLog_log (g : Gang) : g.setLog g.log = g := by
  unfold Gang.setLog Gang.log
  split <;> rfl

theorem Gang.busy_eq_false {g : Gang} : g.busy = false ↔ (∀ x ∈ g.log.toList, x.state ≠ .inFlight) ∧ g.arriving = [] := by
  rw [Gang.busy, Bool.or_eq_false_iff, List.any_eq_false]
  simp

/-- With no access in flight no engine command waits. -/
theorem recallWaiting_quiet {s : State} (hb : s.g.busy = false) : recallWaiting s = s := by
  obtain ⟨hquiet, -⟩ := Gang.busy_eq_false.mp hb
  have hmap : (s.g.log.map fun x => if x.state = .inFlight && x.engine && x.recs.isNone then
      { x with state := .faulted, replay := true, card := none } else x) = s.g.log := by
    refine Vector.ext fun k hk => ?_
    have hk' := hquiet _ (Vector.mem_toList_iff.mpr (Vector.getElem_mem hk))
    simp [hk']
  rw [recallWaiting, State.setG, hmap, Gang.setLog_log]

/-- What a wait that a trap ends keeps. -/
theorem keepWait_eq (s : State) : ∃ w, keepWait s = s.setG fun g => { g with parkedWait := w } := by
  rw [keepWait, State.setG]
  split
  case h_1 => exact ⟨_, rfl⟩
  case h_2 => exact ⟨s.g.parkedWait, rfl⟩

/-- A trap from outside sends the gang to its handler with the record, once what made it due is cleared. -/
theorem asyncTrap_normal {f : FaultRec} {clear : Gang → Gang} {s : State} (hh : s.g.handler = none) (hb : s.g.busy = false)
    (hclear : ∀ g, (clear g).handler = g.handler) : ∃ w m, asyncTrap f clear s = { s with
      g := (clear { s.g with parkedWait := w }).trapped (f.cause.toNat / 256) (f.cause.toNat % 256) f.det 0 0 s.g.pc, spad := m } := by
  obtain ⟨w, hw⟩ := keepWait_eq s
  have henter : asyncTrap f clear s = enterTrap (f.cause.toNat / 256) (f.cause.toNat % 256) f.det 0 0 s.g.pc ((keepWait s).setG clear) := by
    rw [asyncTrap, recallWaiting_quiet hb]
    exact if_neg (by simp [hb])
  rw [henter, hw, enterTrap_normal (by rw [State.setG_g, hclear]; exact hh)]
  exact ⟨w, _, rfl⟩

/-- The trap registers that a trap from outside leaves. -/
theorem asyncTrap_record {f : FaultRec} {clear : Gang → Gang} {s : State} (hh : s.g.handler = none) (hb : s.g.busy = false)
    (hclear : ∀ g, (clear g).handler = g.handler) : ∃ t w, asyncTrap f clear s = t ∧ t.g.r.tcause = f.cause ∧ t.g.r.detail = f.det ∧
      t.g.r.tlanes = 0 ∧ t.g = (clear { s.g with parkedWait := w }).trapped (f.cause.toNat / 256) (f.cause.toNat % 256) f.det 0 0 s.g.pc := by
  obtain ⟨w, m, ht⟩ := asyncTrap_normal (f := f) hh hb hclear
  exact ⟨_, w, ht, by simp [causeOf_split], by simp, by simp, rfl⟩

/-! ## The access fault of the oldest faulted entry (06 R172, R180) -/

theorem mem_insertBy {α : Type} {key : α → Nat} {x y : α} {l : List α} (h : y ∈ insertBy key x l) : y = x ∨ y ∈ l := by
  induction l with
  | nil => simpa [insertBy] using h
  | cons z r ih => grind [insertBy]

theorem mem_sortBy {α : Type} {key : α → Nat} {y : α} {l : List α} (h : y ∈ sortBy key l) : y ∈ l := by
  refine List.foldlRecOn (motive := fun a => y ∈ a → y ∈ l) l _ (fun h => absurd h List.not_mem_nil) (fun a ih x hx hy => ?_) h
  rcases mem_insertBy hy with rfl | hy
  · exact hx
  · exact ih hy

theorem Gang.oldest_lt {g : Gang} {e : Nat} (h : g.oldest = some e) : e < 4 :=
  List.mem_range.mp (mem_sortBy (List.mem_of_find?_eq_some h))

theorem parkedMask_bit (x : LogEntry) (L : Fin 32) : (parkedMask x).getLsbD L = x.parked.any fun p => p.lane = L := laneMask_bit _ L

theorem parkedMask_ne_zero {x : LogEntry} (h : x.parked ≠ []) : parkedMask x ≠ 0 := by
  obtain ⟨p, hp⟩ := List.exists_mem_of_ne_nil _ h
  intro h0
  have hbit : (parkedMask x).getLsbD p.lane = true := by
    rw [parkedMask_bit]
    exact List.any_eq_true.mpr ⟨p, hp, by simp⟩
  rw [h0] at hbit
  simp at hbit

theorem faultTrap_record {s : State} {e : Nat} (hh : s.g.handler = none) (hb : s.g.busy = false) (he : s.g.oldest = some e)
    (hp : (s.g.entry e).parked ≠ []) : ∃ t, faultTrap s = t ∧ t.g.r.tcause = (lowestParked (s.g.entry e)).cause ∧
      t.g.r.detail = (lowestParked (s.g.entry e)).det ∧ t.g.r.tlanes = parkedMask (s.g.entry e) ∧ (t.g.r.tslots.extractLsb' 36 2).toNat = e := by
  rw [faultTrap, he]
  dsimp only
  rw [takeTrap_ready hb, enterTrap_normal hh]
  refine ⟨_, rfl, by simp [causeOf_split], by simp, by simp, ?_⟩
  rw [Gang.trapped_tslots, slotsOf_entry, Gang.named_of_lanes (parkedMask_ne_zero hp), Nat.mod_eq_of_lt (Gang.oldest_lt he)]

/-! ## What ranks before an issue trap -/

section
variable {s t : State}

theorem firstDue_error {f : FaultRec} (h : s.g.errorDue = some f) : firstDue s = some (asyncTrap f (fun g => { g with errorDue := none }) s) := by
  rw [firstDue, h]

theorem firstDue_joined (he : s.g.errorDue = none) (hj : s.g.joined = true) : firstDue s = some (faultTrap s) := by
  rw [firstDue, he]
  exact if_pos hj

theorem firstDue_none (he : s.g.errorDue = none) (hj : s.g.joined = false) (hr : s.g.engReports = [])
    (hd : s.g.reports = [] ∨ s.g.reportDue = false) : firstDue s = none := by
  have hengine : engineDue s = none := by rw [engineDue, hr]
  have hreport : (!s.g.reports.isEmpty && s.g.reportDue) = false := by rcases hd with hd | hd <;> simp [hd]
  simp only [firstDue, he, hj, hengine, hreport, Bool.false_eq_true, if_false, ite_self]

/-! ## What ranks after it -/

theorem lastDue_step {d : BitVec 96} (hh : s.g.handler = none) (hd : s.g.stepDue = some d) :
    lastDue s = some (asyncTrap ⟨causeOf 18 2, d⟩ (fun g => { g with stepDue := none }) s) := by
  rw [lastDue, hh, hd]

theorem lastDue_watchdog {c : Dword} (hd : s.g.stepDue = none) (hw : s.g.watchdogDue = some c) :
    lastDue s = some (asyncTrap ⟨causeOf 17 1, c.setWidth 96⟩ (fun g => { g with watchdogDue := none, runStart := s.clk }) s) := by
  unfold lastDue
  simp only [hd, hw]
  split <;> trivial

theorem lastDue_evict (hh : s.g.handler = none) (hd : s.g.stepDue = none) (hw : s.g.watchdogDue = none) :
    lastDue s = if s.g.evictDue = true then some (evictTrap s) else none := by
  simp only [lastDue, hh, hd, hw, Option.isNone_none, Bool.true_and]

/-! ## The order -/

theorem dueTrap_first {tr : Option State} (hw : s.g.woken = false) (h : firstDue s = some t) : dueTrap tr s = some t := by
  rw [dueTrap, hw, h]; rfl

theorem dueTrap_issue (hw : s.g.woken = false) (h : firstDue s = none) : dueTrap (some t) s = some t := by
  rw [dueTrap, hw, h]; rfl

theorem dueTrap_last (hw : s.g.woken = false) (h : firstDue s = none) : dueTrap none s = lastDue s := by
  rw [dueTrap, hw, h]; rfl

/-- The gang in front of its next group, where TAKE_TRAP looks for what is due. -/
def State.facingNext (s : State) : State := s.setG fun g => { g with cur := g.pc }

theorem takeDue_first (hw : s.g.wait = .none) (h : firstDue s.facingNext = some t) : takeDue s = t := by
  rw [State.facingNext] at h
  simp only [takeDue, h, hw, Option.some_or]

theorem takeDue_none (hf : firstDue s.facingNext = none) (hl : lastDue s.facingNext = none) : takeDue s = s := by
  rw [State.facingNext] at hf hl
  simp only [takeDue, hf, hl, Option.or_none]

/-! ## The issue trap of a group (06 R171) -/

/-- A `brk` of a group. -/
def Slotted.isBreak (x : Slotted) : Bool := x.sh.major = 0x1F && fld x.word.toNat 12 3 = 1

theorem issueTrapOf_trap {G : List Slotted} {g c : Nat} {d : BitVec 96} (h : groupTrap s s.g.cur.packet G = some (g, c, d)) :
    issueTrapOf G s = some (takeTrap g c d 0 0 s.g.cur s) := by
  rw [issueTrapOf, h]; rfl

theorem issueTrapOf_none {G : List Slotted} (h : groupTrap s s.g.cur.packet G = none) (hG : ∀ x ∈ G, x.isBreak = false) :
    issueTrapOf G s = none := by
  have hfind : G.find? Slotted.isBreak = none := List.find?_eq_none.mpr fun x hx => by simp [hG x hx]
  rw [issueTrapOf, h]
  exact congrArg (Option.map _) hfind

theorem issueTrapOf_break {pre post : List Slotted} {x : Slotted} (h : groupTrap s s.g.cur.packet (pre ++ x :: post) = none)
    (hpre : ∀ y ∈ pre, y.isBreak = false) (hx : x.isBreak = true) : issueTrapOf (pre ++ x :: post) s = some (takeTrap 18 1
      (breakDetail x.word.toNat s.g.cur.packet.toNat x.slot (fld x.word.toNat 0 12)) 0 0 (s.g.cur.advance (pre ++ x :: post).length) s) := by
  have hfind : (pre ++ x :: post).find? Slotted.isBreak = some x :=
    List.find?_eq_some_iff_append.mpr ⟨hx, pre, post, rfl, fun y hy => by simp [hpre y hy]⟩
  rw [issueTrapOf, h]
  exact congrArg (Option.map _) hfind

end

theorem State.gang?_uid {s : State} {uid : Nat} {g : Gang} (h : s.gang? uid = some g) : g.uid = uid := by
  unfold State.gang? at h
  split at h
  case isTrue hown => exact Option.some.inj h ▸ hown.1
  case isFalse =>
    have hfound := List.find?_some h
    exact of_decide_eq_true (Bool.and_eq_true_iff.mp hfound).1

/-- Settles O33. -/
theorem trapOrder : Obligations.TrapOrder := by
  unfold Obligations.TrapOrder
  intro tr s hh hb hw
  refine ⟨fun f he => ?error, fun e f he hj ho hp hf => ?fault, fun he hj hr hrep => ⟨fun t ht => ?issue,
      fun ht => ⟨fun d hd => ?step, fun c hs hc => ?watchdog, fun hs hc => ⟨fun hv => ?evict, fun hv => ?nothing⟩⟩⟩,
    fun G g c d h => issueTrapOf_trap h, fun G h => ⟨fun hG => ?noBreak, fun pre x post hG hpre hx => ?breaks⟩,
    fun uid g hgang hres hwait hj hr hrep hh hb => ⟨fun f he => ?takesError, fun he hs hc hv => ?takesNone⟩⟩
  case error =>
    obtain ⟨t, w, ht, hcause, hdet, hlanes, hg⟩ := asyncTrap_record (f := f) (clear := fun g => { g with errorDue := none }) hh hb fun _ => rfl
    exact ⟨t, dueTrap_first hw ((firstDue_error he).trans (congrArg some ht)), hcause, hdet, hlanes, by rw [hg, Gang.trapped_errorDue]⟩
  case fault =>
    obtain ⟨t, ht, hrecord⟩ := faultTrap_record hh hb ho hp
    exact ⟨t, dueTrap_first hw ((firstDue_joined he hj).trans (congrArg some ht)), hf ▸ hrecord⟩
  case issue => exact ht ▸ dueTrap_issue hw (firstDue_none he hj hr (.inl hrep))
  case step =>
    obtain ⟨t, w, hasync, hcause, hdet, -, hg⟩ :=
      asyncTrap_record (f := ⟨causeOf 18 2, d⟩) (clear := fun g => { g with stepDue := none }) hh hb fun _ => rfl
    have hlast := (lastDue_step hh hd).trans (congrArg some hasync)
    exact ⟨t, ht ▸ (dueTrap_last hw (firstDue_none he hj hr (.inl hrep))).trans hlast, hcause, hdet, by rw [hg, Gang.trapped_stepDue]⟩
  case watchdog =>
    obtain ⟨t, w, hasync, hcause, hdet, -, hg⟩ := asyncTrap_record (f := ⟨causeOf 17 1, c.setWidth 96⟩)
      (clear := fun g => { g with watchdogDue := none, runStart := s.clk }) hh hb fun _ => rfl
    have hlast := (lastDue_watchdog hs hc).trans (congrArg some hasync)
    exact ⟨t, ht ▸ (dueTrap_last hw (firstDue_none he hj hr (.inl hrep))).trans hlast, hcause, hdet, by rw [hg, Gang.trapped_watchdogDue],
      by rw [hg, Gang.trapped_runStart]⟩
  case evict => rw [ht, dueTrap_last hw (firstDue_none he hj hr (.inl hrep)), lastDue_evict hh hs hc, if_pos hv]
  case nothing => rw [ht, dueTrap_last hw (firstDue_none he hj hr (.inl hrep)), lastDue_evict hh hs hc, hv, if_neg Bool.false_ne_true]
  case noBreak => exact issueTrapOf_none h fun x hx => by simpa [Slotted.isBreak] using hG x hx
  case breaks =>
    subst hG
    exact issueTrapOf_break h (fun y hy => by simpa [Slotted.isBreak] using hpre y hy) (by simpa [Slotted.isBreak] using hx)
  case takesError =>
    rw [← State.focus_gang hgang] at he hh hb hwait
    obtain ⟨t, w, hasync, hcause, -, -, hg⟩ := asyncTrap_record (f := f) (s := (s.focus uid).facingNext)
      (clear := fun g => { g with errorDue := none }) hh hb fun _ => rfl
    have hfirst : firstDue (s.focus uid).facingNext = some t := (firstDue_error (s := (s.focus uid).facingNext) he).trans (congrArg some hasync)
    refine ⟨t, (exec_atGang (f := takeDue) rfl hgang hres).trans (congrArg Host.Outcome.next (takeDue_first hwait hfirst)), hcause, ?_⟩
    rw [hg, Gang.trapped_uid]
    exact (congrArg Gang.uid (State.focus_gang hgang)).trans (State.gang?_uid hgang)
  case takesNone =>
    rw [← State.focus_gang hgang] at he hh hs hc hv hj hr hrep
    have hlast : lastDue (s.focus uid).facingNext = none :=
      (lastDue_evict (s := (s.focus uid).facingNext) hh hs hc).trans (if_neg (ne_true_of_eq_false hv))
    rw [exec_atGang (f := takeDue) rfl hgang hres, takeDue_none (firstDue_none (s := (s.focus uid).facingNext) he hj hr (.inr hrep)) hlast]

end Sys2Proof.Machine
end

section
/-! The system words (06 R184-R187, R190): what `tret` makes of the operand log, the record that `tlane` selects, when a release of `tdone` is
complete, and what a gang that leaves its core leaves behind. -/

namespace Sys2Proof.Machine

/-! ## The operand log, entry by entry -/

theorem Gang.setLog_of_normal {g : Gang} (h : g.handler = none) (l : Vector LogEntry 4) : g.setLog l = { g with olog := l } := by
  rw [Gang.setLog, h]; rfl

theorem Gang.log_of_normal {g : Gang} (h : g.handler = none) : g.log = g.olog := by
  rw [Gang.log, h]; rfl

theorem Gang.log_setLog (g : Gang) (l : Vector LogEntry 4) : (g.setLog l).log = l := by
  unfold Gang.setLog Gang.log
  by_cases h : g.handler.isSome = true <;> simp [h]

theorem Gang.setLog_setLog (g : Gang) (l k : Vector LogEntry 4) : (g.setLog l).setLog k = g.setLog k := by
  unfold Gang.setLog
  by_cases h : g.handler.isSome = true <;> simp [h]

theorem Gang.setEntry_entry_self (g : Gang) (e : Nat) : g.setEntry e (g.entry e) = g := by
  have hlog : g.log.setIfInBounds e (g.entry e) = g.log := by
    refine Vector.ext fun k hk => ?_
    rw [Vector.getElem_setIfInBounds hk]
    split
    case isTrue h => subst h; rw [Gang.entry, dif_pos hk]
    case isFalse => rfl
  rw [Gang.setEntry, hlog, Gang.setLog_log]

/-- The entries changed one after the other. -/
theorem foldl_setEntry (f : Nat → LogEntry → LogEntry) (g : Gang) : ∀ n ≤ 4,
    (List.range n).foldl (fun g e => g.setEntry e (f e (g.entry e))) g =
      g.setLog (Vector.ofFn fun k : Fin 4 => if k.val < n then f k.val g.log[k] else g.log[k])
  | 0, _ => by
    have hlog : (Vector.ofFn fun k : Fin 4 => if k.val < 0 then f k.val g.log[k] else g.log[k]) = g.log :=
      Vector.ext fun k hk => by simp
    rw [hlog, Gang.setLog_log]
    rfl
  | n + 1, hn => by
    rw [List.range_succ, List.foldl_append, foldl_setEntry f g n (by omega), List.foldl_cons, List.foldl_nil, Gang.setEntry, Gang.setLog_setLog,
      Gang.entry, Gang.log_setLog]
    refine congrArg g.setLog (Vector.ext fun k hk => ?_)
    have hn4 : n < 4 := by omega
    rw [Vector.getElem_setIfInBounds hk]
    by_cases h : n = k
    · subst h; simp [hn4]
    · have hlt : k < n + 1 ↔ k < n := by omega
      simp only [h, hlt, if_false, Vector.getElem_ofFn]

theorem ofFn_getD {e : Nat} (he : e < 4) (f : Nat → LogEntry → LogEntry) (l : Vector LogEntry 4) (d : LogEntry) :
    (Vector.ofFn fun k : Fin 4 => f k.val l[k]).toList.getD e d = f e (l.toList.getD e d) := by
  simp [he]

/-! ## `tret` (06 R187) -/

section
variable (named : Bool) (cur : Nat) (lanes : Word) (e : Nat)

/-- The lanes for which a faulted entry is performed again. -/
def LogEntry.replayLanes (a : Access) (x : LogEntry) : Word :=
  if e = cur && (named || lanes != 0) then lanes &&& (if x.engine then a.lanes else a.active) else parkedMask x

theorem LogEntry.replayLanes_eq (p q : Bool) (a : Access) (x : LogEntry) : x.replayLanes (p || q) cur lanes e a =
    if e = cur ∧ (p = true ∨ q = true ∨ lanes ≠ 0) then lanes &&& (if x.engine then a.lanes else a.active) else parkedMask x := by
  simp only [LogEntry.replayLanes, Bool.and_eq_true, Bool.or_eq_true, decide_eq_true_eq, bne_iff_ne, or_assoc]

/-- What `tret` makes of an entry. -/
def LogEntry.replayed (x : LogEntry) : LogEntry :=
  match x.state, x.acc with
  | .faulted, some a =>
    if x.replay && x.replayLanes named cur lanes e a != 0 then
      { x with
        state := .inFlight, replay := false, holds := true, got := [], blocks := [], recs := none
        parked := if x.engine then x.parked else []
        todo := match a.op.kind with
          | .ldtr _ => a.lanes
          | .engine _ _ => 0
          | _ => x.replayLanes named cur lanes e a }
    else LogEntry.empty
  | _, _ => x

variable {x : LogEntry}

theorem LogEntry.replayed_quiet (h : x.state ≠ .faulted) : x.replayed named cur lanes e = x := by
  unfold LogEntry.replayed
  split
  case h_1 hs _ => exact absurd hs h
  case h_2 => rfl

theorem replayEntry_eq (g : Gang) : replayEntry named cur lanes g e = g.setEntry e ((g.entry e).replayed named cur lanes e) := by
  by_cases h : (g.entry e).state = .faulted
  · cases ha : (g.entry e).acc with
    | none => simp only [replayEntry, LogEntry.replayed, h, ha, Gang.setEntry_entry_self]
    | some a => simp only [replayEntry, LogEntry.replayed, LogEntry.replayLanes, h, ha, apply_ite (g.setEntry e)] <;> rfl
  · rw [LogEntry.replayed_quiet named cur lanes e h, Gang.setEntry_entry_self, replayEntry]
    dsimp only
    split
    case h_1 hs _ => exact absurd hs h
    case h_2 => rfl

theorem LogEntry.replayed_faulted {a : Access} (h : x.state = .faulted) (ha : x.acc = some a) :
    if x.replay = true ∧ x.replayLanes named cur lanes e a ≠ 0 then
      (x.replayed named cur lanes e).state = .inFlight ∧ (x.replayed named cur lanes e).acc = some a ∧
        (x.replayed named cur lanes e).seq = x.seq ∧ (x.replayed named cur lanes e).todo = (match a.op.kind with
          | .ldtr _ => a.lanes
          | .engine _ _ => 0
          | _ => x.replayLanes named cur lanes e a)
    else x.replayed named cur lanes e = LogEntry.empty := by
  have hcond : (x.replay && x.replayLanes named cur lanes e a != 0) = true ↔ x.replay = true ∧ x.replayLanes named cur lanes e a ≠ 0 := by simp
  rw [LogEntry.replayed, h, ha]
  dsimp only
  split
  case isTrue hr => rw [if_pos (hcond.mpr hr)]; exact ⟨rfl, rfl, rfl, rfl⟩
  case isFalse hr => rw [if_neg (mt hcond.mp hr)]

end

/-- The gang that `tret` without a restore and without an engine's report leaves; `r` are the registers that its group found. -/
def Gang.returned (r : Regs) (g : Gang) : Gang :=
  { g with
    r := { g.r with s := g.swapBank.r.s, emask := r.tslots.extractLsb' 0 32 }
    bank := g.swapBank.bank
    handler := none
    fetched := none
    hwindows := []
    cur := resumePoint r
    pc := resumePoint r
    stepReq := g.stepReq || r.tslots.getLsbD 38
    olog := Vector.ofFn fun k : Fin 4 =>
      g.olog[k].replayed (g.reported || g.quietEntry.isSome) (r.tslots.extractLsb' 36 2).toNat r.tlanes k.val
    reportDue := !g.reports.isEmpty
    handlerReport := none }

theorem returnWord_returns {s : State} (hb : s.g.busy = false) (hf : s.g.anyFaulted = false) (hr : s.g.restoring = false)
    (hh : s.g.handlerReport = none) : returnWord s = { s with g := s.g.returned s.src } := by
  have hret : returnWord s = returnFrom s := by
    simp only [returnWord, hb, hf, hr, Bool.false_eq_true, if_false]
  have hfold := foldl_setEntry (fun e x => x.replayed (s.g.reported || s.g.quietEntry.isSome) (s.src.tslots.extractLsb' 36 2).toNat s.src.tlanes e)
    (leaveHandler s.src s).g 4 (Nat.le_refl 4)
  simp only [← replayEntry_eq] at hfold
  rw [hret, returnFrom]
  simp only [hh, hr, Bool.false_eq_true, if_false, State.setG, hfold]
  rw [Gang.setLog_of_normal rfl, Gang.log_of_normal rfl]
  simp only [leaveHandler, State.setG, Gang.swapBank, Gang.returned, Fin.is_lt, if_true]

/-! ## `tlane` (06 R185) -/

/-- The number of the reported entry, written into `%tslots`. -/
def slotsNaming (x : BitVec 39) (e : BitVec 2) : BitVec 39 := (x &&& ~~~(3#39 <<< 36)) ||| (BitVec.ofNat 39 e.toNat <<< 36)

theorem slotsNaming_getLsbD (x : BitVec 39) (e : BitVec 2) (k : Nat) :
    (slotsNaming x e).getLsbD k = if 36 ≤ k ∧ k < 38 then e.getLsbD (k - 36) else x.getLsbD k := by
  have hthree : (3#39).getLsbD (k - 36) = decide (k - 36 < 2) := by
    rw [BitVec.getLsbD, show (3#39).toNat = 2 ^ 2 - 1 from rfl, Nat.testBit_two_pow_sub_one]
  have hname : (BitVec.ofNat 39 e.toNat).getLsbD (k - 36) = (decide (k - 36 < 39) && e.getLsbD (k - 36)) := BitVec.getLsbD_ofNat ..
  rw [slotsNaming, BitVec.getLsbD_or, BitVec.getLsbD_and, BitVec.getLsbD_not, BitVec.getLsbD_shiftLeft, BitVec.getLsbD_shiftLeft, hthree, hname]
  by_cases h39 : k < 39
  · have h39' : k - 36 < 39 := by omega
    by_cases h36 : k < 36
    · simp [h36, h39]
    · have hkept : k - 36 < 2 ↔ k < 38 := by omega
      by_cases h38 : k < 38
      · simp [h36, h38, h39, h39', hkept]
      · have he : e.getLsbD (k - 36) = false := BitVec.getLsbD_of_ge e _ (by omega)
        simp [h36, h38, h39, hkept, he]
  · have hx : x.getLsbD k = false := BitVec.getLsbD_of_ge x k (by omega)
    simp [h39, hx, show ¬k < 38 by omega]

theorem slotsNaming_entry (x : BitVec 39) (e : BitVec 2) : (slotsNaming x e).extractLsb' 36 2 = e := by
  refine BitVec.eq_of_getLsbD_eq fun k hk => ?_
  rw [BitVec.getLsbD_extractLsb', decide_eq_true hk, slotsNaming_getLsbD, if_pos (by omega), Nat.add_sub_cancel_left, Bool.true_and]

theorem slotsNaming_rest (x : BitVec 39) (e : BitVec 2) {k : Nat} (hk : k < 36 ∨ 37 < k) : (slotsNaming x e).getLsbD k = x.getLsbD k := by
  rw [slotsNaming_getLsbD, if_neg (by omega)]

section
variable {x : LogEntry} {n : Nat}

/-- The record of a lane of an entry, or zero (06 R185). -/
def LogEntry.recordAt (x : LogEntry) (n : Nat) : FaultRec :=
  match x.parked.find? fun p => p.lane.val = n with
  | some p => if x.state = .faulted then p.why else ⟨0, 0⟩
  | none => ⟨0, 0⟩

theorem LogEntry.recordAt_quiet (h : x.state ≠ .faulted) : x.recordAt n = ⟨0, 0⟩ := by
  unfold LogEntry.recordAt
  split
  · exact if_neg h
  · rfl

theorem LogEntry.recordAt_absent (h : ∀ p ∈ x.parked, p.lane.val ≠ n) : x.recordAt n = ⟨0, 0⟩ := by
  have hfind : x.parked.find? (fun p => p.lane.val = n) = none := List.find?_eq_none.mpr fun p hp => by simpa using h p hp
  rw [LogEntry.recordAt, hfind]

theorem LogEntry.recordAt_parked {p : Parked} {ys zs : List Parked} (hs : x.state = .faulted) (hx : x.parked = ys ++ p :: zs)
    (hys : ∀ q ∈ ys, q.lane ≠ p.lane) (hp : p.lane.val = n) : x.recordAt n = p.why := by
  have hfind : x.parked.find? (fun p => p.lane.val = n) = some p :=
    List.find?_eq_some_iff_append.mpr ⟨by simpa using hp, ys, zs, hx, fun q hq => by
      have hne : q.lane.val ≠ p.lane.val := fun h => hys q hq (Fin.ext h)
      simp [← hp, hne]⟩
  rw [LogEntry.recordAt, hfind]
  exact if_pos hs

end

theorem selectLane_eq (a : Nat) (e : BitVec 2) (s : State) : ∃ t, selectLane a e.toNat s = t ∧ t = { s with g := t.g } ∧
    t.g.r.tslots = slotsNaming s.g.r.tslots e ∧
    (let x := s.g.olog.toList.getD e.toNat LogEntry.empty
     t.g.r.tlanes = (if x.state = .faulted then parkedMask x else 0) ∧ t.g.r.tcause = (x.recordAt ((s.src.sreg a).toNat % 32)).cause ∧
     t.g.r.detail = (x.recordAt ((s.src.sreg a).toNat % 32)).det) ∧
    t.g = { s.g with reported := t.g.reported, r := { s.g.r with tslots := t.g.r.tslots, tlanes := t.g.r.tlanes, tcause := t.g.r.tcause
                                                                 tdet0 := t.g.r.tdet0, tdet1 := t.g.r.tdet1, tdet2 := t.g.r.tdet2 } } := by
  refine ⟨_, rfl, rfl, rfl, ⟨rfl, rfl, detail_words _⟩, rfl⟩

/-! ## Releases at fabric scope (12 R270; 15 R335) -/

theorem releaseDone_fab_iff {s : State} {r : PendingRelease} {g : Gang} (hg : s.gang? r.gang = some g) (hr : r.scope = .fab)
    (hlast : ∀ x ∈ s.releases, x.id < r.id) : releaseDone s r = true ↔
      (∀ x ∈ s.records, x.id ∉ r.records) ∧ g.outstanding = 0 ∧ ∀ x ∈ s.releases, x.gang = r.gang → x.signal = none := by
  have hall : (s.releases.takeWhile fun x => x.id != r.id) = s.releases :=
    List.takeWhile_eq_self_iff.mpr fun x hx => by simpa using (hlast x hx).ne
  have hscope : scopeFabric r.scope = true := by rw [hr]; rfl
  simp [releaseDone, hall, hscope, hg, imp_iff_not_or]

/-! ## A gang that leaves its core (06 R186, R190; 18 R401, R402) -/

/-- What a gang that leaves keeps as it is: the gangs, memory and the scratchpads. -/
def State.gangsAndMemory (s : State) : Gang × List Gang × Memory × Memory := (s.g, s.gangs, s.mem, s.spad)

theorem foldl_gangsAndMemory {α : Type} {f : State → α → State} (hf : ∀ s x, (f s x).gangsAndMemory = s.gangsAndMemory) (l : List α)
    (s : State) : (l.foldl f s).gangsAndMemory = s.gangsAndMemory :=
  List.foldlRecOn (motive := fun t => State.gangsAndMemory t = s.gangsAndMemory) l f rfl fun _ hb a _ => (hf _ a).trans hb

theorem ite_gangsAndMemory {p : Prop} [Decidable p] {s t : State} {v : Gang × List Gang × Memory × Memory} (hs : s.gangsAndMemory = v)
    (ht : t.gangsAndMemory = v) : (if p then s else t).gangsAndMemory = v := by
  split
  · exact hs
  · exact ht

theorem freeSlots_gangsAndMemory (ens : Nat) (s : State) : (freeSlots ens s).gangsAndMemory = s.gangsAndMemory :=
  foldl_gangsAndMemory (fun s c => by split <;> rfl) _ s

theorem freeCrewPages_gangsAndMemory (ens : Nat) (s : State) : (freeCrewPages ens s).gangsAndMemory = s.gangsAndMemory :=
  foldl_gangsAndMemory (f := fun s (c : Crew) => freePages c.core s) (fun _ _ => rfl) _ s

theorem settleEnsemble_gangsAndMemory (ens : Nat) (s : State) : (settleEnsemble ens s).gangsAndMemory = s.gangsAndMemory := by
  unfold settleEnsemble
  dsimp only
  split
  · rfl
  split
  · exact (freeCrewPages_gangsAndMemory ens _).trans (freeSlots_gangsAndMemory ens _)
  split
  · exact freeCrewPages_gangsAndMemory ens _
  · rfl

theorem leaveCore_gangsAndMemory {st : GangStatus} {c : Crew} {s : State} (hc : s.myCrew = some c) : (leaveCore st s).gangsAndMemory =
    ({ s.g with status := st, wait := .none, windows := if st = .saved then s.g.windows else [], fetched := none }, s.gangs, s.mem, s.spad) := by
  rw [leaveCore, hc]
  dsimp only
  rw [settleEnsemble_gangsAndMemory]
  exact ite_gangsAndMemory rfl rfl

/-! ## `exit` (06 R186) -/

theorem drainGang_nothing {c uid : Nat} {s : State} (h : ∀ x ∈ (s.core c).wc, x.gangs.contains uid = false) : drainGang c uid s = s := by
  have hnone : ((s.core c).wc.filter fun e => e.gangs.contains uid) = [] :=
    List.filter_eq_nil_iff.mpr fun x hx => ne_true_of_eq_false (h x hx)
  rw [drainGang, hnone]
  rfl

section
variable {s : State} (hb : s.g.busy = false) (hf : s.g.anyFaulted = false) (he : s.g.engReports = [])
  (hw : ∀ x ∈ (s.core s.g.coreIx).wc, x.gangs.contains s.g.uid = false)
include hb hf he hw

theorem exitWord_eq : exitWord s = if storesWait s then block s
    else if !s.g.reports.isEmpty then takeReport (s.setG fun g => { g with pc := g.cur })
    else if commandsWait s then block s else leaveCore .retired s := by
  have hengine : engineDue s = none := by rw [engineDue, he]
  simp only [exitWord, hb, hf, hengine, drainGang_nothing hw, Bool.false_eq_true, if_false]

end

theorem storesWait_eq_false {s : State} : storesWait s = false ↔ s.g.outstanding = 0 ∧ signalsPending s s.g.uid = 0 := by
  simp [storesWait]

theorem commandsWait_eq_true {s : State} : commandsWait s = true ↔
    (∃ c ∈ (s.core s.g.coreIx).cmds, c.gang = s.g.uid) ∨ ∃ k ∈ (s.core s.g.coreIx).tasks, k.gang = s.g.uid := by
  simp [commandsWait]

/-- Settles O32. -/
theorem systemWords : Obligations.SystemWords := by
  unfold Obligations.SystemWords
  intro a e i s
  refine ⟨fun hm hb hf hr hh => ?tret, fun hm => exec_body hm rfl rfl rfl, fun hm => ?tlane,
    fun ids u hm hb hf hu => ⟨fun hd => ?saved, fun hd => ?waits⟩,
    fun r u g hg hr hlast => releaseDone_fab_iff hg hr hlast, fun hm hb hf he hr ho hs hw hc hk => ?exits, fun hm hb hf he hr ho hs hw => ?reports,
    fun hm hb hf he hr hw hbusy => ?blocks, fun st c hc hst hv => ?leaves⟩
  case tret =>
    refine ⟨_, exec_body hm rfl rfl (returnWord_returns hb hf hr hh), ?_⟩
    dsimp only [Gang.returned]
    refine ⟨rfl, rfl, rfl, fun k => ⟨?high, s.g.swapBank_bank k⟩, fun k hk => ?low, rfl, rfl, rfl, fun e a he => ?entry⟩
    case high => exact (Regs.sreg_of_s rfl _).trans (s.g.swapBank_sreg_high k)
    case low => exact (Regs.sreg_of_s rfl k).trans (s.g.swapBank_sreg_low hk)
    case entry =>
      rw [ofFn_getD he fun k x => x.replayed (s.g.reported || s.g.quietEntry.isSome) (s.src.tslots.extractLsb' 36 2).toNat s.src.tlanes k]
      refine ⟨LogEntry.replayed_quiet _ _ _ _, fun hs ha => ?_⟩
      rw [← LogEntry.replayLanes_eq _ s.src.tlanes e s.g.reported s.g.quietEntry.isSome]
      exact LogEntry.replayed_faulted _ _ _ _ hs ha
  case tlane =>
    obtain ⟨t, ht, hgang, hslots, ⟨hlanes, hcause, hdet⟩, hrest⟩ := selectLane_eq a.toNat e s
    refine ⟨t, exec_body hm rfl rfl ht, hgang, hslots ▸ slotsNaming_entry _ e, fun k hk => hslots ▸ slotsNaming_rest _ e hk,
      ⟨fun hs => ?quiet, fun hs => ⟨fun L => ?mask, fun habsent => ?absent, fun p ys zs hx hys hp => ?parked⟩⟩, hrest⟩
    case quiet => rw [hlanes, hcause, hdet, if_neg hs, LogEntry.recordAt_quiet hs]; exact ⟨rfl, rfl, rfl⟩
    case mask => rw [hlanes, if_pos hs, parkedMask_bit]
    case absent => rw [hcause, hdet, LogEntry.recordAt_absent habsent]; exact ⟨rfl, rfl⟩
    case parked => rw [hcause, hdet, LogEntry.recordAt_parked hs hx hys hp]; exact ⟨rfl, rfl⟩
  case saved =>
    refine exec_body hm rfl rfl ?_
    simp only [saveDone, hb, hf, hu, hd, Bool.false_eq_true, if_false, if_true]
  case waits =>
    refine exec_body hm rfl rfl ?_
    simp only [saveDone, hb, hf, hu, hd, Bool.false_eq_true, if_false]
  case exits =>
    have hnone : commandsWait s = false := by
      rw [← Bool.not_eq_true, commandsWait_eq_true]
      simpa using ⟨hc, hk⟩
    refine exec_body hm rfl rfl ((exitWord_eq hb hf he hw).trans ?_)
    simp [storesWait_eq_false.mpr ⟨ho, hs⟩, hr, hnone]
  case reports =>
    refine exec_body hm rfl rfl ((exitWord_eq hb hf he hw).trans ?_)
    simp [storesWait_eq_false.mpr ⟨ho, hs⟩, hr]
  case blocks =>
    refine exec_body hm rfl rfl ((exitWord_eq hb hf he hw).trans ?_)
    cases hs : storesWait s with
    | true => rfl
    | false =>
      obtain ⟨ho, -⟩ := storesWait_eq_false.mp hs
      have hcommands : commandsWait s = true := commandsWait_eq_true.mpr (hbusy.resolve_left fun h => h ho)
      rw [hr, hcommands]
      rfl
  case leaves =>
    have h := leaveCore_gangsAndMemory (st := st) hc
    simp only [State.gangsAndMemory, Prod.mk.injEq] at h
    obtain ⟨hg, hgangs, hmem, hspad⟩ := h
    exact ⟨by rw [hg], by rw [hg], fun g hg => hgangs ▸ hg, hmem, hspad⟩

end Sys2Proof.Machine
end

section
/-! The copy words (08 R201-R212, R428; 06 R175): what an engine word leaves for each answer of its engine, `cp.fifo` among them, whose issue has
a test of its own (03 R74); the checks of R428 in their order; and what an accepted command takes of the core, of its crews and of its ring. -/

namespace Sys2Proof.Machine

/-! ## An engine word that may issue, by its engine's answer -/

section
variable {sh : Shape} {mk : State → Access} {accept : Access → Nat → State → Accept} {s : State}

theorem engineWord_noLane (h : (mk s).lanes = 0) : engineWord sh mk accept s = openWindow sh none s := if_pos h

theorem engineWord_opens (h : (mk s).lanes ≠ 0) (hs : s.leaving = false) (ho : s.g.opens = true) (hsh : sh.major ≠ 0x30) :
    engineWord sh mk accept s = stall s := by
  simp only [engineWord, h, hs, ho, if_false, Bool.false_and, Bool.true_and, Bool.false_eq_true, bne_iff_ne, ne_eq, hsh, not_false_eq_true, if_true]

section
variable {e : Nat} {u : State} (h : (mk s).lanes ≠ 0) (hs : s.leaving = false) (ho : s.g.opens = false) (he : s.g.freeEntry = some e)
include h hs ho he

theorem engineWord_done (ha : accept (mk s) e s = .done u) : engineWord sh mk accept s = openWindow sh none u := by
  simp only [engineWord, h, hs, ho, he, ha, if_false, Bool.false_and, Bool.false_eq_true]

theorem engineWord_wait (ha : accept (mk s) e s = .wait u) : engineWord sh mk accept s = block u := by
  simp only [engineWord, h, hs, ho, he, ha, if_false, Bool.false_and, Bool.false_eq_true]

theorem engineWord_bad {f : FaultRec} (ha : accept (mk s) e s = .bad f u) : engineWord sh mk accept s =
    openWindow sh (some e) ({ u with nextId := u.nextId + 1 }.setG fun g => g.setEntry e (rejectedEntry (mk s) f u.nextId)) := by
  simp only [engineWord, h, hs, ho, he, ha, if_false, Bool.false_and, Bool.false_eq_true]

end

end

/-- The log entry of a rejected command parks its leader (06 R175). -/
theorem parksLeader_of_exec {i : Instr} {s u : State} {a : Access} {e : Nat} {f : Nat → FaultRec} (h : a.lanes ≠ 0) (he : e < 4)
    (hx : exec i s = .next (openWindow (wordShapeOf i) (some e)
      ({ u with nextId := u.nextId + 1 }.setG fun g => g.setEntry e (rejectedEntry a (f (leaderOf a.lanes).val) u.nextId)))) :
    ParksLeader i a.lanes e s u f := by
  have hentry : (openWindow (wordShapeOf i) (some e) ({ u with nextId := u.nextId + 1 }.setG fun g =>
      g.setEntry e (rejectedEntry a (f (leaderOf a.lanes).val) u.nextId))).g.entry e = rejectedEntry a (f (leaderOf a.lanes).val) u.nextId :=
    (openWindow_entry ..).trans (setEntry_entry _ _ _ he)
  refine ⟨_, (leaderOf a.lanes).val, ⟨leaderOf a.lanes, f (leaderOf a.lanes).val⟩, hx, leaderOf_leads a.lanes h, ?_, ?_, ?_, rfl, rfl, ?_, ?_⟩
  · rw [hentry]; rfl
  · rw [hentry]; rfl
  · rw [hentry]; rfl
  · exact (openWindow_r ..).trans (Gang.setEntry_r ..)
  · exact openWindow_g ..

/-! ## The checks in their order (08 R428) -/

theorem firstFault_nil {α : Type} : firstFault ([] : List (Bool × α)) = none := rfl

theorem firstFault_cons {α : Type} (p : Bool) (x : α) (l : List (Bool × α)) : firstFault ((p, x) :: l) = if p then some x else firstFault l := by
  cases p <;> rfl

theorem firstFault_eq_none {α : Type} {l : List (Bool × α)} : firstFault l = none ↔ ∀ x ∈ l, x.1 = false := by
  simp [firstFault]

theorem copyFault_eq (op : Nat) (a : Access) (c : Crew) (s : State) : copyFault op a c s = firstFault (copyChecks op a c s) := by
  unfold copyFault copyChecks
  generalize hG : recordFields (recordOf s (BitVec.ofNat 8 (ctlG a.ctl.toNat))) = G
  generalize hP : recordFields (recordOf s (BitVec.ofNat 8 (ctlP a.ctl.toNat))) = P
  cases G with
  | none => simp [firstFault_cons, hG]
  | some G =>
    cases P with
    | none => simp [firstFault_cons, hG, hP]
    | some P =>
      by_cases h3 : op = 3
      · subst h3
        simp [firstFault_cons, firstFault_nil, hG, hP]
      · simp [firstFault_cons, firstFault_nil, hG, hP, h3]

section
variable {op : Nat} {a : Access} {w : Crew} {s : State}

/-- A copy that passes every check names a record of its payload, whose size a FIFO takes, and a ring that stands. -/
theorem copyFault_passes (h : copyFault op a w s = none) :
    ∃ P, recordFields (recordOf s (BitVec.ofNat 8 (ctlP a.ctl.toNat))) = some P ∧ (op = 3 → payloadBytes P ≤ 65536) ∧
      (op = 2 → ringUsable s w (ctlQueue a.ctl.toNat) = true) := by
  rw [copyFault_eq, firstFault_eq_none] at h
  simp only [copyChecks, List.forall_mem_cons] at h
  obtain ⟨-, -, -, hP, -, hsize, -, -, -, -, -, -, hring, -⟩ := h
  obtain ⟨P, hP⟩ := Option.isSome_iff_exists.mp (by simpa using hP)
  rw [hP] at hsize
  exact ⟨P, hP, fun h3 => by simpa [h3] using hsize, fun h2 => by simpa [h2] using hring⟩

/-- A fill that does not wait has room for its payload. -/
theorem copyWaits_room {P : Rec} (hP : recordFields (recordOf s (BitVec.ofNat 8 (ctlP a.ctl.toNat))) = some P) (hsize : payloadBytes P ≤ 65536)
    (h : copyWaits 3 a w s = false) : payloadBytes P ≤ if ctlF a.ctl.toNat then (s.core w.core).roomB else (s.core w.core).roomA := by
  simp only [copyWaits, hP, hsize, decide_true, Bool.true_and, decide_eq_false_iff_not, not_lt] at h
  exact h

end

/-! ## Crews and cores by their keys -/

theorem crew?_uid {s : State} {u : Nat} {c : Crew} (h : s.crew? u = some c) : c.uid = u := by
  simpa using List.find?_some h

theorem crew?_isSome_of_mem {s : State} {c : Crew} (h : c ∈ s.crews) : (s.crew? c.uid).isSome = true :=
  List.find?_isSome.mpr ⟨c, h, by simp⟩

theorem State.crew?_setCrew {f : Crew → Crew} (hf : ∀ c, (f c).uid = c.uid) (s : State) (u v : Nat) :
    (s.setCrew u f).crew? v = (s.crew? v).map fun c => if c.uid = u then f c else c := by
  have huid (c : Crew) : (if c.uid = u then f c else c).uid = c.uid := by split <;> simp only [hf]
  simp [State.crew?, mapIf, List.find?_map, huid]

/-- Each receiver of a copy is a crew of the machine. -/
theorem receiversOf_crew {s : State} {op mask : Nat} {w c : Crew} (hw : s.myCrew = some w) (h : c ∈ receiversOf s op mask w) :
    (s.crew? c.uid).isSome = true := by
  refine crew?_isSome_of_mem ?_
  unfold receiversOf at h
  split at h
  · exact (List.mem_filter.mp (mem_sortBy (List.mem_filter.mp h).1)).1
  · rw [List.mem_singleton] at h
    exact h ▸ List.mem_of_find?_eq_some hw

theorem State.core_setCore (s : State) (k : Nat) (f : Core → Core) : (s.setCore k f).core k = f (s.core k) := by
  rw [State.core, State.setCore_cores, lookup_upsert, if_pos rfl, Option.getD_some]

theorem State.core_of_cores {s t : State} (h : t.cores = s.cores) (k : Nat) : t.core k = s.core k := by rw [State.core, h, State.core]

/-! ## Tiles that a command holds (08 R207) -/

/-- Command `id` is among those that hold tile `t` of a crew. -/
def State.tileHeld (s : State) (uid t id : Nat) : Prop := ∃ c, s.crew? uid = some c ∧ id ∈ (lookup c.tiles t).getD []

/-- Tiles that a command holds it goes on holding, and it holds those it takes. -/
theorem mem_tiles_foldl (id t : Nat) : ∀ (ts : List Nat) (l : List (Nat × List Nat)), (t ∈ ts ∨ id ∈ (lookup l t).getD []) →
    id ∈ (lookup (ts.foldl (fun l t => upsert l t (((lookup l t).getD []) ++ [id])) l) t).getD []
  | [], _, h => h.resolve_left List.not_mem_nil
  | x :: ts, l, h => by
    refine mem_tiles_foldl id t ts _ ?_
    rw [lookup_upsert]
    by_cases hx : t = x
    · exact .inr (by simp [hx])
    · rw [if_neg hx]
      exact h.imp_left fun h => (List.mem_cons.mp h).resolve_left hx

section
variable {s : State} {uid t id : Nat}

theorem State.tileHeld_setCrew {v : Nat} {f : Crew → Crew} (hf : ∀ c, (f c).uid = c.uid)
    (hkeep : ∀ c, id ∈ (lookup c.tiles t).getD [] → id ∈ (lookup (f c).tiles t).getD []) (h : s.tileHeld uid t id) :
    (s.setCrew v f).tileHeld uid t id := by
  obtain ⟨c, hc, hid⟩ := h
  refine ⟨_, (State.crew?_setCrew hf s v uid).trans (congrArg _ hc), ?_⟩
  dsimp only
  split
  · exact hkeep c hid
  · exact hid

theorem crew?_holdTiles (s : State) (v n uid : Nat) (ts : List Nat) : (holdTiles v ts n s).crew? uid = (s.crew? uid).map fun c =>
    if c.uid = v then { c with tiles := ts.foldl (fun l t => upsert l t (((lookup l t).getD []) ++ [n])) c.tiles } else c :=
  State.crew?_setCrew (fun _ => by rfl) s v uid

theorem holdTiles_keeps (v : Nat) (ts : List Nat) (h : s.tileHeld uid t id) : (holdTiles v ts id s).tileHeld uid t id :=
  State.tileHeld_setCrew (fun _ => rfl) (fun c hid => mem_tiles_foldl id t ts c.tiles (.inr hid)) h

theorem holdTiles_takes {ts : List Nat} (hc : (s.crew? uid).isSome = true) (ht : t ∈ ts) : (holdTiles uid ts id s).tileHeld uid t id := by
  obtain ⟨c, hc⟩ := Option.isSome_iff_exists.mp hc
  refine ⟨_, (crew?_holdTiles ..).trans (congrArg _ hc), ?_⟩
  dsimp only
  rw [if_pos (crew?_uid hc)]
  exact mem_tiles_foldl id t ts c.tiles (.inl ht)

/-- Crews one after another: each of them has the tiles held. -/
theorem foldl_holdTiles {ts : List Nat} (ht : t ∈ ts) (r : Crew) : ∀ (l : List Crew) (s : State), (s.crew? r.uid).isSome = true →
    (r ∈ l ∨ s.tileHeld r.uid t id) → (l.foldl (fun s r => holdTiles r.uid ts id s) s).tileHeld r.uid t id
  | [], _, _, h => h.resolve_left List.not_mem_nil
  | x :: l, s, hc, h => by
    refine foldl_holdTiles ht r l _ ?_ ?_
    · rw [crew?_holdTiles, Option.isSome_map, hc]
    · rcases h with h | h
      · rcases List.mem_cons.mp h with rfl | h
        · exact .inr (holdTiles_takes hc ht)
        · exact .inl h
      · exact .inr (holdTiles_keeps x.uid ts h)

theorem ringReserve_tileHeld {v q : Nat} {r : Ring} (h : s.tileHeld uid t id) : (ringReserve v q r s).tileHeld uid t id := by
  have hpend := State.tileHeld_setCrew (v := v) (f := fun c => { c with pend := upsert c.pend q (c.pending q ++ [(r.tail, false)]) })
    (s := setRing { r with tail := (r.tail + 1) % r.slots, free := r.free - 1 } s) (fun _ => rfl) (fun _ hid => hid) h
  unfold ringReserve ringAdvance
  dsimp only
  split
  · exact State.tileHeld_setCrew (fun _ => rfl) (fun _ hid => hid) hpend
  · exact hpend

end

/-! ## What is left of the state but crews and scratchpads -/

/-- The state, crews and scratchpads apart. -/
def State.butPads (s : State) : State := { s with crews := [], spad := [] }

theorem State.fields_of_butPads {s t : State} (h : t.butPads = s.butPads) : t.g = s.g ∧ t.gangs = s.gangs ∧ t.mem = s.mem ∧ t.cores = s.cores :=
  ⟨(congrArg State.g h :), (congrArg State.gangs h :), (congrArg State.mem h :), (congrArg State.cores h :)⟩

theorem foldl_butPads {f : State → Crew → State} (hf : ∀ s r, (f s r).butPads = s.butPads ∧ (f s r).spad = s.spad) (l : List Crew) (s : State) :
    (l.foldl f s).butPads = s.butPads ∧ (l.foldl f s).spad = s.spad :=
  List.foldlRecOn (motive := fun t => State.butPads t = s.butPads ∧ State.spad t = s.spad) l f ⟨rfl, rfl⟩
    fun _ ⟨hb, hs⟩ r _ => ⟨(hf _ r).1.trans hb, (hf _ r).2.trans hs⟩

/-- The header that a reservation leaves (08 R208). -/
def Ring.reserved (r : Ring) : Ring := { r with tail := (r.tail + 1) % r.slots, free := r.free - 1 }

theorem ringReserve_butPads (uid q : Nat) (r : Ring) (s : State) : (ringReserve uid q r s).butPads = s.butPads := by
  unfold ringReserve ringAdvance
  dsimp only
  split <;> rfl

theorem ringReserve_spad (uid q : Nat) (r : Ring) (s : State) : (ringReserve uid q r s).spad = (setRing r.reserved s).spad :=
  ringAdvance_spad ..

theorem ringAt_ringReserve {s : State} {uid q k : Nat} {r : Ring} {c : Crew} (hr : r = ringAt s k) (hw : s.spad.wf = true)
    (hok : ringOk c q r = true) : ringAt (ringReserve uid q r s) r.key = r.reserved := by
  simp only [ringOk, Bool.and_eq_true, decide_eq_true_eq] at hok
  obtain ⟨⟨⟨⟨hlo, hhi⟩, hhead⟩, htail⟩, hsum⟩ := hok
  have htail' := Nat.mod_lt (r.tail + 1) hlo
  rw [ringAt_of_spad (ringReserve_spad ..)]
  refine ringAt_setRing hw r.reserved ?_ ?_ ?_ ?_ ?_
  · rw [hr]; rfl
  all_goals simp only [Ring.reserved]; omega

/-! ## What an accepted command takes (08 R201, R207-R209, R212) -/

/-- A command joins its core's queue; `f` is what else of the core it takes. -/
def enqueue (core : Nat) (q : Command) (f : Core → Core) (s : State) : State :=
  { s with nextId := s.nextId + 1 }.setCore core fun k => { f k with cmds := k.cmds ++ [q] }

/-- The FIFO space of a payload. -/
def takeRoom (op x pay : Nat) (k : Core) : Core :=
  { k with roomA := if op = 3 ∧ !ctlF x then k.roomA - pay else k.roomA, roomB := if op = 3 ∧ ctlF x then k.roomB - pay else k.roomB }

/-- A fill takes its payload from the FIFO that its control word names. -/
theorem takeRoom_fill {x pay : Nat} {K : Core} (h : pay ≤ if ctlF x then K.roomB else K.roomA) :
    (takeRoom 3 x pay K).roomA + (if bits x 45 45 = 1 then 0 else pay) = K.roomA ∧
      (takeRoom 3 x pay K).roomB + (if bits x 45 45 = 1 then pay else 0) = K.roomB := by
  by_cases hf : bits x 45 45 = 1 <;> simp [takeRoom, ctlF, hf] at h ⊢ <;> omega

/-- The tiles of each receiver, which a fill of a FIFO has not, and a slot of each receiver of a multicast. -/
def takePads (op id : Nat) (dst : List Crew) (ts : List Nat) (s : State) : State :=
  let t := if op = 3 then s else dst.foldl (fun s r => holdTiles r.uid ts id s) s
  if op = 4 then dst.foldl (fun s r => s.setCrew r.uid fun k => { k with slots := k.slots - 1 }) t else t

theorem takePads_butPads (op id : Nat) (dst : List Crew) (ts : List Nat) (s : State) :
    (takePads op id dst ts s).butPads = s.butPads ∧ (takePads op id dst ts s).spad = s.spad := by
  have htiles := foldl_butPads (f := fun s r => holdTiles r.uid ts id s) (fun _ _ => ⟨rfl, rfl⟩) dst s
  have hslots (t : State) := foldl_butPads (f := fun s r => s.setCrew r.uid fun k => { k with slots := k.slots - 1 }) (fun _ _ => ⟨rfl, rfl⟩) dst t
  by_cases h3 : op = 3
  · subst h3; exact ⟨rfl, rfl⟩
  · rw [takePads, if_neg h3]
    split
    · exact ⟨(hslots _).1.trans htiles.1, (hslots _).2.trans htiles.2⟩
    · exact htiles

theorem takePads_tileHeld {op id t : Nat} {dst : List Crew} {ts : List Nat} {c : Crew} {s : State} (h3 : op ≠ 3)
    (hc : (s.crew? c.uid).isSome = true) (hd : c ∈ dst) (ht : t ∈ ts) : (takePads op id dst ts s).tileHeld c.uid t id := by
  have htiles : (dst.foldl (fun s r => holdTiles r.uid ts id s) s).tileHeld c.uid t id := foldl_holdTiles ht c dst s hc (.inl hd)
  rw [takePads, if_neg h3]
  split
  · exact List.foldlRecOn (motive := fun u => State.tileHeld u c.uid t id) dst _ htiles fun _ hu _ _ =>
      State.tileHeld_setCrew (fun _ => rfl) (fun _ hid => hid) hu
  · exact htiles

/-- The entry at the tail of a ring, where a command pushes to one. -/
def reserveIf (p : Prop) [Decidable p] (uid q : Nat) (r : Ring) (s : State) : State := if p then ringReserve uid q r s else s

theorem reserveIf_butPads (p : Prop) [Decidable p] (uid q : Nat) (r : Ring) (s : State) : (reserveIf p uid q r s).butPads = s.butPads := by
  rw [reserveIf, apply_ite State.butPads, ringReserve_butPads, ite_self]

theorem reserveIf_tileHeld {p : Prop} [Decidable p] {uid q v t id : Nat} {r : Ring} {s : State} (h : s.tileHeld v t id) :
    (reserveIf p uid q r s).tileHeld v t id := by
  unfold reserveIf
  split
  · exact ringReserve_tileHeld h
  · exact h

/-! ## An accepted copy -/

theorem bits_toNat_ofNat {n hi lo : Nat} (x : Nat) (h : hi + 1 - lo ≤ n) : (BitVec.ofNat n (bits x hi lo)).toNat = bits x hi lo := by
  rw [BitVec.toNat_ofNat]
  exact Nat.mod_eq_of_lt ((Nat.mod_lt _ (Nat.two_pow_pos _)).trans_le (Nat.pow_le_pow_right Nat.two_pos h))

section
variable {op k a b c : Nat} {own : Bool} {w : Crew} {s : State}

/-- Acceptance step by step, with the command it makes. -/
theorem startCopy_eq (hm : s.src.preg k &&& s.src.emask ≠ 0) {P : Rec}
    (hP : recordFields (recordOf s (BitVec.ofNat 8 (bits (s.src.sreg c).toNat 15 8))) = some P) :
    let x := (s.src.sreg c).toNat
    let r := ringAt s (w.key (queueOf s w (bits x 44 41)).1)
    ∃ q v, v = takePads op s.nextId (receiversOf s op (bits x 63 48) w) (w.tilesOf (s.src.sreg b).toNat P.boxBytes)
        (enqueue w.core q (takeRoom op x (payloadBytes P)) s) ∧
      startCopy op (capCopy op k a b c s) own w s = reserveIf (op = 2) w.uid (bits x 44 41) r v ∧
      CopyEntry s op a b x (s.src.preg k &&& s.src.emask) w own q ∧ q.queue = if op = 2 then some (bits x 44 41, r.tail) else none := by
  unfold startCopy
  simp only [capCopy, captureEngine, capture, ctlP, hP]
  refine ⟨_, _, rfl, rfl, ⟨rfl, rfl, rfl, rfl, rfl, rfl, rfl, leaderOf_leads _ hm, rfl, rfl, bits_toNat_ofNat _ (by decide),
    bits_toNat_ofNat _ (by decide), bits_toNat_ofNat _ (by decide), ?_, rfl, rfl, rfl, rfl, rfl, rfl⟩, rfl⟩
  simp only [ctlBe, decide_eq_true_eq]
  rfl

theorem startCopy_accepts (hm : s.src.preg k &&& s.src.emask ≠ 0) (hw : s.myCrew = some w)
    (hwait : copyWaits op (capCopy op k a b c s) w s = false) (hfault : copyFault op (capCopy op k a b c s) w s = none) :
    let u := startCopy op (capCopy op k a b c s) own w s
    let x := (s.src.sreg c).toNat
    ∃ q, u.g = s.g ∧ u.gangs = s.gangs ∧ u.mem = s.mem ∧ CopyEntry s op a b x (s.src.preg k &&& s.src.emask) w own q ∧
      (u.core w.core).cmds = (s.core w.core).cmds ++ [q] ∧ (op ≠ 2 → u.spad = s.spad) ∧
      ∀ P, recordFields (recordOf s (BitVec.ofNat 8 (bits x 15 8))) = some P →
        (op = 3 → (u.core w.core).roomA + (if bits x 45 45 = 1 then 0 else payloadBytes P) = (s.core w.core).roomA ∧
          (u.core w.core).roomB + (if bits x 45 45 = 1 then payloadBytes P else 0) = (s.core w.core).roomB) ∧
        (op ≠ 3 → ∀ r ∈ receiversOf s op (bits x 63 48) w, ∀ t ∈ w.tilesOf (s.src.sreg b).toNat P.boxBytes, u.tileHeld r.uid t s.nextId) ∧
        (op = 2 → let r := ringAt s (w.key (queueOf s w (bits x 44 41)).1)
          q.queue = some (bits x 44 41, r.tail) ∧ (s.spad.wf = true → ringAt u r.key = r.reserved)) := by
  obtain ⟨P, hP, hsize, hring⟩ := copyFault_passes hfault
  obtain ⟨q, v, hv, hu, hq, hqueue⟩ := startCopy_eq (op := op) (a := a) (b := b) (own := own) (w := w) hm hP
  intro u x
  change u = reserveIf (op = 2) w.uid (bits x 44 41) _ v at hu
  obtain ⟨hbut, hpad⟩ := takePads_butPads op s.nextId (receiversOf s op (bits x 63 48) w) (w.tilesOf (s.src.sreg b).toNat P.boxBytes)
    (enqueue w.core q (takeRoom op x (payloadBytes P)) s)
  rw [← hv] at hbut hpad
  obtain ⟨hg, hgangs, hmem, hcores⟩ := State.fields_of_butPads ((congrArg State.butPads hu).trans ((reserveIf_butPads ..).trans hbut))
  have hcore : u.core w.core = { takeRoom op x (payloadBytes P) (s.core w.core) with cmds := (s.core w.core).cmds ++ [q] } :=
    (State.core_of_cores hcores _).trans (State.core_setCore { s with nextId := s.nextId + 1 } _ _)
  refine ⟨q, hg, hgangs, hmem, hq, congrArg Core.cmds hcore, fun h2 => ?pad, fun P' hP' => ?_⟩
  case pad => exact (congrArg State.spad (hu.trans (if_neg h2))).trans hpad
  obtain rfl : P = P' := Option.some.inj (hP.symm.trans hP')
  refine ⟨fun h3 => ?room, fun h3 r hr t ht => ?tiles, fun h2 => ⟨?entry, fun hwf => ?ring⟩⟩
  case room =>
    subst h3
    rw [hcore]
    exact takeRoom_fill (copyWaits_room hP (hsize rfl) hwait)
  case tiles =>
    have hheld : v.tileHeld r.uid t s.nextId := hv ▸ takePads_tileHeld h3 (receiversOf_crew hw hr) hr ht
    exact hu ▸ reserveIf_tileHeld hheld
  case entry => rw [hqueue, if_pos h2]
  case ring =>
    have hok := hring h2
    simp only [ringUsable, Bool.and_eq_true] at hok
    rw [hu.trans (if_pos h2)]
    exact ringAt_ringReserve (ringAt_of_spad hpad _).symm (hpad ▸ hwf) hok.2

end

/-! ## The words -/

section
variable {op e : Nat} {a : Access} {w : Crew} {s : State} (hc : s.myCrew = some w)
include hc

theorem acceptCopy_waits (h : freeSlot s w.core w.uid s.g.stage.toNat = none ∨ copyWaits op a w s = true) :
    acceptCopy op a e s = .wait s := by
  simp only [acceptCopy, hc]
  cases hslot : freeSlot s w.core w.uid s.g.stage.toNat with
  | none => rfl
  | some own => exact if_pos (h.resolve_left (by simp [hslot]))

theorem acceptCopy_answers {own : Bool} (hslot : freeSlot s w.core w.uid s.g.stage.toNat = some own) (hwait : copyWaits op a w s = false) :
    (∀ code addr kind ident, copyFault op a w s = some (code, addr, kind, ident) → acceptCopy op a e s = reject 7 code addr kind ident e a s) ∧
    (copyFault op a w s = none → acceptCopy op a e s = .done (startCopy op a own w s)) := by
  refine ⟨fun code addr kind ident h => ?_, fun h => ?_⟩ <;> simp only [acceptCopy, hc, hslot, hwait, h, Bool.false_eq_true, if_false]

end

/-- A copy word is what its operands, its checks and what it waits for make of it. -/
theorem copyWord_of_exec {i : Instr} {op k a b c : Nat} {s : State} (hsh : (wordShapeOf i).major = 0x20)
    (hx : MayIssue i s = true → exec i s = .next (engineWord (wordShapeOf i) (capCopy op k a b c) (acceptCopy op) s)) :
    CopyWord i op k a b c s := by
  refine ⟨fun hi hm => ?none, fun hi hm hs ho => ?opens, fun w e hoffers hw => ?_⟩
  case none => exact (hx hi).trans (congrArg _ (engineWord_noLane hm))
  case opens => exact (hx hi).trans (congrArg _ (engineWord_opens hm hs ho (by rw [hsh]; decide)))
  obtain ⟨hi, hm, hs, ho, he⟩ := hoffers
  refine ⟨fun h => ?waits, fun own hslot hwait => ?_⟩
  case waits => exact (hx hi).trans (congrArg _ (engineWord_wait hm hs ho he (acceptCopy_waits hw h)))
  obtain ⟨hrejects, haccepts⟩ := acceptCopy_answers hw (e := e) hslot hwait
  refine ⟨fun code addr kind ident hfault => ?rejects, fun hfault => ?accepts⟩
  case rejects =>
    exact parksLeader_of_exec (a := capCopy op k a b c s) hm (freeEntry_lt _ _ he)
      ((hx hi).trans (congrArg _ (engineWord_bad hm hs ho he (hrejects code addr kind ident hfault))))
  case accepts =>
    obtain ⟨q, hu⟩ := startCopy_accepts (own := own) hm hw hwait hfault
    exact ⟨_, q, (hx hi).trans (congrArg _ (engineWord_done hm hs ho he (haccepts hfault))), hu⟩

/-- An engine word that may issue runs, with the issue test of `cp.fifo` (03 R74) or without. -/
theorem exec_engineWord {i : Instr} {s : State} {mk : State → Access} {accept : Access → Nat → State → Accept}
    (hi : exec i s = .next (issue (wordShapeOf i) (engineWord (wordShapeOf i) mk accept) s (isFifoWord i))) (hm : MayIssue i s = true) :
    exec i s = .next (engineWord (wordShapeOf i) mk accept s) := hi.trans (congrArg _ (mayIssue_issue i s hm _))

/-- Settles O35: each word by `copyWord_of_exec`, and the order of R428 by `copyFault_eq`. -/
theorem copyWords : Obligations.CopyWords := by
  unfold Obligations.CopyWords
  intro a b c k l s
  exact ⟨copyWord_of_exec rfl (exec_engineWord rfl), copyWord_of_exec rfl (exec_engineWord rfl), copyWord_of_exec rfl (exec_engineWord rfl),
    copyWord_of_exec rfl (exec_engineWord rfl), copyWord_of_exec rfl (exec_engineWord rfl), fun op acc w => copyFault_eq op acc w s⟩

end Sys2Proof.Machine
end

section
/-! The slot words and `xp.run` (08 R213, R217, R218, R428; 06 R175): what the engine answers by the slot count and by the card, and what an accepted
job takes. -/

namespace Sys2Proof.Machine

/-! ## Slots and counts (08 R213) -/

section
variable {a : Access} {e : Nat} {w : Crew} {s : State} (hw : s.myCrew = some w)
include hw

theorem acceptGrant_grants (h1 : 1 ≤ a.base.toNat) (h2 : a.base.toNat ≤ 15) (h3 : w.slots + a.base.toNat ≤ 15) :
    acceptGrant a e s = .done (s.setCrew w.uid fun k => { k with slots := k.slots + a.base.toNat }) := by
  simp only [acceptGrant, hw]
  exact if_neg (by omega)

theorem acceptGrant_rejects (h : a.base.toNat = 0 ∨ 15 < a.base.toNat ∨ 15 < w.slots + a.base.toNat) :
    acceptGrant a e s = reject 7 0x0B 0 7 0 e a s := by
  simp only [acceptGrant, hw]
  exact if_pos h

end

/-! ## `xp.run` (08 R217, R218, R428) -/

theorem runFault_eq (k : Card) (va : Nat) (c : Crew) (s : State) : runFault k va c s = firstFault (runChecks k va c s) := by
  unfold runFault runChecks
  dsimp only
  generalize recordFields (recordOf s k.source) = S
  generalize recordFields (recordOf s k.dest) = D
  cases S with
  | none => simp [firstFault_cons]
  | some S =>
    by_cases hk : k.kind = 1#8
    · cases D with
      | none => simp [firstFault_cons, hk]
      | some D => by_cases hD : (D.enc != 0 || !D.allows 2 || 2 ≤ D.smode) = true <;> simp [firstFault_cons, firstFault_nil, hk, hD]
    · -- A job to the pad: two checks, whose failures exclude those of a destination record.
      generalize c.holds k.window (List.range k.olen) = holds
      generalize ((c.tilesOf k.window (List.range k.olen)).any fun t => !c.tileOwned t) = lent
      cases holds <;> cases lent <;> simp [firstFault_cons, firstFault_nil, hk]

/-- A word that keeps no card reads it. -/
theorem cardFor_reads {s : State} (hcard : s.g.card = none) (e va : Nat) :
    cardFor true e va s = (readLong s.client.read (linesFor 64) va 64 s).got.next fun b s => .ok (parseCard b) s := by
  simp only [cardFor, keptCard, hcard, if_true]

section
variable {a : Access} {e : Nat} {w : Crew} {s : State} (hw : s.myCrew = some w)
include hw

theorem acceptRun_noSlot (h : freeSlot s w.core w.uid s.g.stage.toNat = none) : acceptRun true a e s = .wait s := by
  simp only [acceptRun, hw, h]

section
variable {own : Bool} (hslot : freeSlot s w.core w.uid s.g.stage.toNat = some own)
include hslot

theorem acceptRun_misaligned (h : a.base.toNat % 64 ≠ 0) : acceptRun true a e s = reject 9 0x0A a.base.toNat 3 0 e a s := by
  simp only [acceptRun, hw, hslot]
  exact if_pos (by simpa using h)

section
variable (halign : a.base.toNat % 64 = 0) (hcard : s.g.card = none)
include halign hcard

theorem acceptRun_unread {x : Why} {u : State} (h : readLong s.client.read (linesFor 64) a.base.toNat 64 s = .bad x u) :
    acceptRun true a e s = .bad ⟨causeOf 9 (if engineCode x = 0x10 then 0x10 else 0x11),
      engineDetail x.addr 3 x.stage2 e (leaderOf a.lanes).val 0 0 false⟩ (keepCard true e none u) := by
  simp [acceptRun, hw, hslot, halign, cardFor_reads hcard, h, Done.got, Got.next]

section
variable {y : List Byte} {u : State} (h : readLong s.client.read (linesFor 64) a.base.toNat 64 s = .ok y u)
include h

theorem acceptRun_badCard (hy : parseCard y = none) : acceptRun true a e s = reject 9 0x0A a.base.toNat 3 0 e a u := by
  simp [acceptRun, hw, hslot, halign, cardFor_reads hcard, h, hy, Done.got, Got.next]

theorem acceptRun_answers {z : Card} (hy : parseCard y = some z) (hu : u.g.card = none) (hroom : (z.push && ringFull u w z.queue) = false) :
    (∀ code addr kind ident, runFault z a.base.toNat w u = some (code, addr, kind, ident) →
      acceptRun true a e s = reject 9 code addr kind ident e a u) ∧
      (runFault z a.base.toNat w u = none → acceptRun true a e s = .done (startRun z a own w u)) := by
  have hkeep : keepCard true e none u = u := by
    rw [keepCard, ← hu]
    rfl
  refine ⟨fun code addr kind ident hf => ?_, fun hf => ?_⟩ <;>
    simp [acceptRun, hw, hslot, halign, cardFor_reads hcard, h, hy, hroom, hkeep, hf, Done.got, Got.next]

end

end

end

end

/-! ## An accepted job (08 R218) -/

/-- Acceptance of a job step by step, with the command it makes. -/
theorem startRun_eq (z : Card) (a : Access) (own : Bool) (w : Crew) (s : State) :
    ∃ q v, v = enqueue w.core q (fun k => k) s ∧
      startRun z a own w s = reserveIf (z.push = true) w.uid z.queue (ringAt s (w.key (queueOf s w z.queue).1))
        (if z.kind = 1 then v else holdTiles w.uid (w.tilesOf z.window (List.range z.olen)) s.nextId v) ∧
      q.op = 5 ∧ q.id = s.nextId ∧ q.gang = s.g.uid ∧ q.card = some z ∧ q.done = 0 ∧ q.fault = none ∧
      q.barrier = if z.be then some z.barrier else none :=
  ⟨_, _, rfl, rfl, rfl, rfl, rfl, rfl, rfl, rfl, rfl⟩

theorem startRun_accepts (z : Card) (a : Access) (own : Bool) (w : Crew) (s : State) :
    ∃ q, (startRun z a own w s).g = s.g ∧ (startRun z a own w s).mem = s.mem ∧
      ((startRun z a own w s).core w.core).cmds = (s.core w.core).cmds ++ [q] ∧
      q.op = 5 ∧ q.id = s.nextId ∧ q.gang = s.g.uid ∧ q.card = some z ∧ q.done = 0 ∧ q.fault = none ∧
      q.barrier = if z.be then some z.barrier else none := by
  obtain ⟨q, v, hv, hu, hq⟩ := startRun_eq z a own w s
  have htiles : (holdTiles w.uid (w.tilesOf z.window (List.range z.olen)) s.nextId v).butPads = v.butPads := rfl
  have hbut : (startRun z a own w s).butPads = (enqueue w.core q (fun k => k) s).butPads := by
    rw [hu, reserveIf_butPads, apply_ite State.butPads, htiles, ite_self, hv]
  obtain ⟨hg, -, hmem, hcores⟩ := State.fields_of_butPads hbut
  have hcore := (State.core_of_cores hcores w.core).trans (State.core_setCore { s with nextId := s.nextId + 1 } _ _)
  exact ⟨q, hg, hmem, congrArg Core.cmds hcore, hq⟩

/-- Settles O36: each word by what its engine answers, and the order of the checks by `runFault_eq`. -/
theorem expansionAndSlotWords : Obligations.ExpansionAndSlotWords := by
  unfold Obligations.ExpansionAndSlotWords
  intro a d k l s
  refine ⟨fun e w ho hw h1 h2 h3 => ?grants, fun e w ho hw h => ?grantRejected, fun e ho => ?slots, fun e ho => ?count, fun hi hm => ?noLane,
    fun e w ho hw hslot => ?noSlot, fun e w own ho hw hslot hva => ?misaligned, fun e w own x u ho hw hslot hva hcard hread => ?unread,
    fun e w own y u ho hw hslot hva hcard hread => ⟨fun hy => ?badCard, fun z hy hu hroom => ?card⟩, fun z va w => runFault_eq z va w s⟩
  case grants => exact engine_done _ _ _ _ e _ acceptGrant ho rfl rfl rfl (acceptGrant_grants hw h1 h2 h3)
  case grantRejected => exact engine_bad _ _ _ _ e _ acceptGrant _ ho rfl rfl rfl (acceptGrant_rejects hw h)
  case slots => exact engine_done _ _ _ _ e _ acceptSlots ho rfl rfl rfl rfl
  case count => exact engine_done _ _ _ _ e _ acceptCount ho rfl rfl rfl (by rw [acceptCount, List.countP_eq_length_filter]; rfl)
  case noLane => exact engine_noLane _ _ _ (acceptRun true) hi rfl rfl hm
  case noSlot => exact engine_wait _ _ _ _ e _ (acceptRun true) ho rfl rfl rfl (acceptRun_noSlot hw hslot)
  case misaligned => exact engine_bad _ _ _ _ e _ (acceptRun true) _ ho rfl rfl rfl (acceptRun_misaligned hw hslot hva)
  case unread =>
    have hparks := engine_bad _ _ (keepCard true e none u) _ e _ (acceptRun true)
      (fun L => ⟨causeOf 9 (if engineCode x = 0x10 then 0x10 else 0x11), engineDetail x.addr 3 x.stage2 e L 0 0 false⟩) ho rfl rfl rfl
      (acceptRun_unread hw hslot hva hcard hread)
    exact hparks
  case badCard => exact engine_bad _ _ _ _ e _ (acceptRun true) _ ho rfl rfl rfl (acceptRun_badCard hw hslot hva hcard hread hy)
  case card =>
    obtain ⟨hrejects, haccepts⟩ := acceptRun_answers (a := capRun k.toNat a.toNat s) (e := e) hw hslot hva hcard hread hy hu hroom
    refine ⟨fun code addr kind ident hf => ?faults, fun hf => ?accepts⟩
    case faults => exact engine_bad _ _ _ _ e _ (acceptRun true) _ ho rfl rfl rfl (hrejects code addr kind ident hf)
    case accepts =>
      obtain ⟨q, hg, hmem, hcmds, hq⟩ := startRun_accepts z (capRun k.toNat a.toNat s) own w u
      exact ⟨_, q, engine_done _ _ _ _ e _ (acceptRun true) ho rfl rfl rfl (haccepts hf), hg, hmem, hcmds, hq⟩

end Sys2Proof.Machine
end

section
/-! The fault report of a fill of the pad (08 R208, R220): the command writes its ring entry after the barrier's fault field, and the statement does not
say that such a fill has no ring entry. -/

namespace Sys2Proof.Machine

/-- A fill of the pad that has met a fault and that names entry 2 of ring 0 of its crew. The ring lies at the start of the crew's allocation, its
barrier 16 bytes on, so that the entry is bytes 8 to 11 of the barrier's object. -/
def ringedFill : Command :=
  { id := 9, op := 0, gang := 1, crew := (loadCrew State.reset 0).uid, stage := 0, tenant := 0, node := 0, leader := 0, coords := [0, 0, 0, 0],
    window := 0, gId := 5, pId := 5, mode := 0, barrier := some 16, queue := some (0, 2), fifoB := false, mask := 0, card := none, image := [], rnd := 1,
    done := 0, units := 1, sent := false, reserved := false, behind := [], suspended := false, fault := some ⟨0x711, 0⟩ }

def ringedFillState : State := { State.reset with crews := [loadCrew State.reset 0] }.setCore 0 fun K => { K with cmds := [ringedFill] }

/-- The report leaves the entry's phase bit where the cause 0x711 was written. -/
theorem reportCmd_ringedFill_faultField :
    bits (barrierAt (reportCmd 0 9 ringedFillState) ((loadCrew State.reset 0).key 16)) 95 80 = 0x8000 := by decide

/-- Refutes O37: the clause of COPY_FAULT_REPORT takes any command whose operation is that of a `cp.ld`, one with a ring entry too, which no word
makes (08 R208). In `ringedFillState` the entry lies on the barrier's fault field: written after it, it stands where the cause should. -/
theorem not_copyEvents : ¬ Obligations.CopyEvents := by
  unfold Obligations.CopyEvents
  intro h
  obtain ⟨-, -, -, -, -, -, -, -, -, -, -, hreport⟩ := h 0 9 ringedFillState
  obtain ⟨t, ht, -, -, -, -, hfield⟩ :=
    hreport ringedFill ⟨0x711, 0⟩ (loadCrew State.reset 0) (by decide) rfl rfl rfl rfl (by decide) ⟨rfl, rfl⟩
  obtain rfl : reportCmd 0 9 ringedFillState = t := Host.Outcome.next.inj ht
  have hcause : 0x8000 = 0x711 := reportCmd_ringedFill_faultField.symm.trans (hfield 16 rfl)
  exact absurd hcause (by decide)

end Sys2Proof.Machine
end

section
/-! The task words and `mstat` (10 R233, R235-R239, R429; 06 R175): the checks of R429 in their order, the task that a record in memory makes, and what the
engine answers to it. -/

namespace Sys2Proof.Machine

/-! ## The checks in their order (10 R429) -/

theorem computeFault_eq (t : Task) (va : Nat) (s : State) : computeFault t va s = firstFault (computeChecks t va s) := by
  unfold computeFault computeChecks
  rcases Option.eq_none_or_eq_some (recordFields (recordOf s (BitVec.ofNat 8 (t.ident false)))) with hA | ⟨A, hA⟩
  · simp [firstFault_cons, hA]
  · by_cases hencA : (A.enc != 0 || A.smode != 0) = true
    · simp [firstFault_cons, hA, hencA]
    · rcases Option.eq_none_or_eq_some (recordFields (recordOf s (BitVec.ofNat 8 (t.ident true)))) with hB | ⟨B, hB⟩
      · simp [firstFault_cons, hA, hB, hencA]
      · by_cases hencB : (B.enc != 0 || B.smode != 0) = true
        · simp [firstFault_cons, hA, hB, hencA, hencB]
        · simp [firstFault_cons, firstFault_nil, hA, hB, hencA, hencB]

theorem drainFault_eq (t : Task) (va : Nat) (c : Crew) (s : State) : drainFault t va c s = firstFault (drainChecks t va c s) := by
  unfold drainFault drainChecks
  dsimp only
  generalize recordFields (recordOf s (BitVec.ofNat 8 t.dest)) = D
  by_cases h3 : t.kind = 3
  · simp [firstFault_cons, firstFault_nil, h3]
  · cases D with
    | none => simp [firstFault_cons, h3]
    | some D =>
      generalize hout : (drainOrder.any fun mn => !D.inBounds (t.place mn)) = out
      simp [firstFault_cons, firstFault_nil, h3, hout, and_assoc]

/-! ## The task of a record (10 R233, R238) -/

/-- The task that 64 bytes of memory make, read for a crew's gang and queued by its leader. -/
def recordTask (y : List Byte) (leader : Nat) (w : Crew) (u : State) : Task :=
  let words := (List.range 8).map fun n => BitVec.ofNat 64 (ofBytes (slice y (8 * n) 8))
  { id := u.nextId, gang := u.g.uid, crew := w.uid, tenant := u.g.tenant, node := u.g.node, leader := leader, words := words, state := .queued, group := 0
    sectors := 0, total := 0, rnd := seedOf (bits (words.getD 0 0).toNat 58 48) u.g.gangNo.toNat, values := [], prevOpen := false, scaleA := [], scaleB := []
    suspended := false, behind := [], fault := none }

theorem leads_unique {m : Word} {L M : Nat} (hL : Leads m L) (hM : Leads m M) : L = M := by
  obtain ⟨hL, hlaneL, hminL⟩ := hL
  obtain ⟨hM, hlaneM, hminM⟩ := hM
  exact Nat.le_antisymm (hminL _ hlaneM) (hminM _ hlaneL)

/-- An accepted task stands last in its core's queue; no register and no byte differs, and no accumulator tile. -/
theorem startTask_accepts (t : Task) (w : Crew) (u : State) : (startTask t w u).g = u.g ∧ (startTask t w u).mem = u.mem ∧ (startTask t w u).spad = u.spad ∧
    ((startTask t w u).core w.core).tasks =
      (u.core w.core).tasks ++ [{ t with total := t.sectorCount (recordFields (recordOf u (BitVec.ofNat 8 t.dest))) }] ∧
    ((startTask t w u).core w.core).tiles = (u.core w.core).tiles := by
  unfold startTask
  dsimp only
  generalize recordFields (recordOf u (BitVec.ofNat 8 t.dest)) = D
  split <;> simp [State.core, holdTiles, lookup_upsert]

/-! ## What the engine answers (10 R238, R429) -/

section
variable {op e : Nat} {a : Access} {w : Crew} {s : State} (hw : s.myCrew = some w)
include hw

theorem acceptTask_full (h : 16 ≤ (s.core w.core).tasks.length) : acceptTask op a e s = .wait s := by
  simp only [acceptTask, hw]
  exact if_pos h

section
variable (hroom : (s.core w.core).tasks.length < 16)
include hroom

theorem acceptTask_misaligned (h : a.base.toNat % 64 ≠ 0) : acceptTask op a e s = rejectTask 0x0A a.base.toNat 0 0 e 0 false a s := by
  simp [acceptTask, hw, hroom, h]

/-- A record that has been read is judged as the task it makes. -/
theorem acceptTask_read (halign : a.base.toNat % 64 = 0) {y : List Byte} {u : State}
    (hread : readLong s.client.read (linesFor 64) a.base.toNat 64 s = .ok y u) {t : Task} (ht : t = recordTask y (leaderOf a.lanes).val w u) :
    acceptTask op a e s =
      if (op = 0 ↔ t.kind = 0) ∧ t.bad = false then
        match (if t.kind = 0 then computeFault t a.base.toNat u else drainFault t a.base.toNat w u) with
        | some (code, addr, kind, ident) => rejectTask code addr kind ident e t.tag false a u
        | none => .done (startTask t w u)
      else rejectTask 0x0A a.base.toNat 0 0 e t.tag false a u := by
  have hcond : (((decide (op = 0)) != decide (t.kind = 0) || t.bad) = true) ↔ ¬((op = 0 ↔ t.kind = 0) ∧ t.bad = false) := by
    by_cases h0 : op = 0 <;> by_cases hk : t.kind = 0 <;> cases t.bad <;> simp [h0, hk]
  have hfull : ¬16 ≤ (s.core w.core).tasks.length := by omega
  simp only [acceptTask, hw, hfull, halign, hread, bne_self_eq_false, Bool.false_eq_true, if_false]
  subst ht
  exact (if_congr hcond rfl rfl).trans (ite_not ..)

end

end

/-- The word that `mstat` returns (10 R239). -/
theorem acceptStat_eq (a : Access) (e : Nat) (s : State) : acceptStat a e s =
    let K := s.core s.g.coreIx
    let T := tileOf K (a.base.toNat % 16)
    .done (s.setR fun r => r.setS a.op.reg (BitVec.ofNat 64 (K.tasks.length + T.arrivals * 2 ^ 8 + (if T.open_ then 2 ^ 16 else 0) +
      (if (K.latchA.map Latch.full).getD false then 2 ^ 17 else 0) + (if (K.latchB.map Latch.full).getD false then 2 ^ 18 else 0)))) := by
  simp only [acceptStat]
  cases hA : (s.core s.g.coreIx).latchA <;> cases hB : (s.core s.g.coreIx).latchB <;> simp [Core.latch, hA, hB]

/-! ## The words -/

/-- What `mtask` and `mdrain` share: the kinds of the word, and the first failure of R429 behind a record of such a kind. -/
def TaskWord (i : Instr) (kinds : Nat → Prop) (fault : Task → Crew → State → Option (Nat × Nat × Nat × Nat)) (m : Word) (va : Nat) (s : State) : Prop :=
  (MayIssue i s = true → m = 0 → Leaves i s s) ∧
  ∀ e w, Offers i s m e → s.myCrew = some w → (16 ≤ (s.core w.core).tasks.length → WaitsAtIssue i s) ∧
    ((s.core w.core).tasks.length < 16 → (va % 64 ≠ 0 → Rejected i m e s s 8 0x0A va 0 0 0 false) ∧
      ∀ y u, va % 64 = 0 → readLong s.client.read (linesFor 64) va 64 s = .ok y u →
        ∀ t : Task, t.words = (List.range 8).map (fun n => BitVec.ofNat 64 (ofBytes (slice y (8 * n) 8))) →
        t.id = u.nextId → t.gang = u.g.uid → t.crew = w.uid → t.tenant = u.g.tenant → t.node = u.g.node → Leads m t.leader → t.state = .queued →
        t.group = 0 → t.sectors = 0 → t.total = 0 → t.rnd = seedOf t.tag u.g.gangNo.toNat → t.values = [] → t.prevOpen = false → t.scaleA = [] →
        t.scaleB = [] → t.suspended = false → t.behind = [] → t.fault = none →
        (¬(kinds t.kind ∧ t.bad = false) → Rejected i m e s u 8 0x0A va 0 0 t.tag false) ∧
        (kinds t.kind → t.bad = false →
          (∀ code addr kind ident, fault t w u = some (code, addr, kind, ident) → Rejected i m e s u 8 code addr kind ident t.tag false) ∧
          (fault t w u = none → ∃ z, Leaves i s z ∧ z.g = u.g ∧ z.mem = u.mem ∧ z.spad = u.spad ∧
            (z.core w.core).tasks = (u.core w.core).tasks ++ [{ t with total := t.sectorCount (recordFields (recordOf u (BitVec.ofNat 8 t.dest))) }] ∧
            (z.core w.core).tiles = (u.core w.core).tiles)))

/-- A task word is what its record and its core's queue make of it. -/
theorem taskWord_of_exec {i : Instr} {op k a : Nat} {s : State} {kinds : Nat → Prop} {fault : Task → Crew → State → Option (Nat × Nat × Nat × Nat)}
    (hx : exec i s = .next (issue (wordShapeOf i) (fun s => engineWord (wordShapeOf i) (capTask op k a) (acceptTask op) s) s))
    (hf : isFifoWord i = false) (hkinds : ∀ n, kinds n ↔ (op = 0 ↔ n = 0))
    (hfault : ∀ t w u, kinds t.kind → (if t.kind = 0 then computeFault t (s.src.sreg a).toNat u else drainFault t (s.src.sreg a).toNat w u) = fault t w u) :
    TaskWord i kinds fault (s.src.preg k &&& s.src.emask) (s.src.sreg a).toNat s := by
  refine ⟨fun hi hm => engine_noLane i s _ _ hi hx hf hm, fun e w ho hw => ⟨fun hfull => ?full, fun hroom => ⟨fun hva => ?misaligned, ?record⟩⟩⟩
  case full => exact engine_wait i s s _ e _ _ ho hx hf rfl (acceptTask_full hw hfull)
  case misaligned => exact engine_bad i s s _ e _ _ _ ho hx hf rfl (acceptTask_misaligned hw hroom hva)
  case record =>
    intro y u hva hread t hwords hid hgang hcrew htenant hnode hleader hstate hgroup hsectors htotal hrnd hvalues hopen hscaleA hscaleB hsus hbehind hnone
    have ht : t = recordTask y (leaderOf (capTask op k a s).lanes).val w u := by
      have hleads := leads_unique hleader (leaderOf_leads _ ho.2.1)
      cases t
      simp only [Task.tag, Task.w] at *
      subst_vars
      rfl
    have hjudged := acceptTask_read (op := op) (e := e) hw hroom hva hread ht
    refine ⟨fun hunfit => ?unfit, fun hk hbad => ?fit⟩
    case unfit =>
      rw [hkinds] at hunfit
      exact engine_bad i s u _ e _ _ _ ho hx hf rfl (hjudged.trans (if_neg hunfit))
    case fit =>
      have hfirst : (if t.kind = 0 then computeFault t (capTask op k a s).base.toNat u else drainFault t (capTask op k a s).base.toNat w u) = fault t w u :=
        hfault t w u hk
      rw [if_pos ⟨(hkinds t.kind).mp hk, hbad⟩, hfirst] at hjudged
      refine ⟨fun code addr kind ident hcode => ?fails, fun hcode => ?accepts⟩ <;> rw [hcode] at hjudged
      case fails => exact engine_bad i s u _ e _ _ _ ho hx hf rfl hjudged
      case accepts => exact ⟨_, engine_done i s _ _ e _ _ ho hx hf rfl hjudged, startTask_accepts t w u⟩

/-- Settles O38: both task words by `taskWord_of_exec`, `mstat` by `acceptStat_eq`, the order of R429 by `computeFault_eq` and `drainFault_eq`. -/
theorem matrixWords : Obligations.MatrixWords := by
  unfold Obligations.MatrixWords
  intro a b d k l s
  refine ⟨taskWord_of_exec (op := 0) (kinds := fun n => n = 0) (fault := fun t _ u => computeFault t (s.src.sreg a.toNat).toNat u) rfl rfl
    (fun n => by simp) (fun t w u hk => if_pos hk),
    taskWord_of_exec (op := 1) (kinds := fun n => n ≠ 0) (fault := fun t w u => drainFault t (s.src.sreg a.toNat).toNat w u) rfl rfl
    (fun n => by simp) (fun t w u hk => if_neg hk), fun e T ho hT => ?stat, fun t va w => ⟨computeFault_eq t va s, drainFault_eq t va w s⟩⟩
  case stat =>
    subst hT
    exact engine_done _ _ _ _ e _ acceptStat ho rfl rfl rfl (acceptStat_eq ..)

end Sys2Proof.Machine
end

section
/-! A drain to memory that ends its own node (10 R242, R248; 19 R416, R417): a privileged tenant's drain may reach the registers of the event ring,
and a write there can let in the event that a node in error waits for, whose end takes the node's tasks from their cores. -/

namespace Sys2Proof.Machine

/-! ## The event ring (19 R417) -/

theorem drainOrigin_full {o : Nat} {s : State} (h : s.host.ringFull = true) : drainOrigin o s = s := by
  unfold drainOrigin
  split
  · exact if_neg (by simp [h])
  · rfl

/-- Where the event of the first origin fills the ring, it is the only one that enters. -/
theorem drainEvents_one {s : State} (h : (drainOrigin 0 s).host.ringFull = true) : drainEvents s = resumeErrors (drainOrigin 0 s) := by
  have hround (l : List Nat) : l.foldl (fun s o => drainOrigin o s) (drainOrigin 0 s) = drainOrigin 0 s := by
    induction l with
    | nil => rfl
    | cons o l ih => rw [List.foldl_cons, drainOrigin_full h, ih]
  have hrest (l : List Nat) : l.foldl (fun s _ => (List.range 13).foldl (fun s o => drainOrigin o s) s) (drainOrigin 0 s) = drainOrigin 0 s := by
    induction l with
    | nil => rfl
    | cons _ l ih => rw [List.foldl_cons, hround, ih]
  rw [drainEvents, List.range_succ_eq_map (n := 64), List.foldl_cons, List.range_succ_eq_map (n := 12), List.foldl_cons, hround,
    ← List.range_succ_eq_map, hrest]

/-! ## What the end of a drain's step leaves of the cores -/

theorem sendRecord_cores (d line : Nat) (runs : List DiffRun) (version : Half) (kind : PubKind) (tenant : BitVec 6) (fwd : List Nat) (s : State) :
    (sendRecord d line runs version kind tenant fwd s).cores = s.cores := by
  unfold sendRecord
  dsimp only
  split
  · rfl
  · split <;> rfl

theorem publish_cores (d line : Nat) (kind : PubKind) (fwd : List Nat) (s : State) : (publish d line kind fwd s).cores = s.cores := by
  unfold publish
  split
  · split
    · exact sendRecord_cores ..
    · rfl
  · rfl

theorem landWrites_cores (d : Nat) (s : State) : (landWrites d s).cores = s.cores :=
  List.foldlRecOn (motive := fun t => State.cores t = s.cores) _ _ rfl fun _ h _ _ => (publish_cores ..).trans h

theorem barComplete_cores (k : Nat) (s : State) : (barComplete k s).cores = s.cores := by
  by_cases h : bits (barrierAt s k) 27 16 = 0 ∧ bits (barrierAt s k) 55 28 = 0
  · obtain ⟨x, hx⟩ := barComplete_eq h
    simp only [hx, State.mapGangs_cores, setBarrier]
  · rw [barComplete_pending h]

theorem countTask_cores (t : Task) (n : Nat) (s : State) : (countTask t n s).cores = s.cores := by
  unfold countTask
  split
  · split
    · exact barComplete_cores ..
    · rfl
  · rfl

section
variable {c : Nat} {t : Task} {s : State} (h : (s.core c).tasks = [])
include h

theorem setTask_noTask {id : Nat} {f : Task → Task} : ((setTask c id f s).core c).tasks = [] := by
  rw [setTask, State.core_setCore, h]; rfl

theorem countTo_noTask {k : Nat} : ((countTo c t k s).core c).tasks = [] := by
  rw [countTo, State.core_of_cores (countTask_cores ..)]
  exact setTask_noTask h

theorem failTask_noTask {k : Nat} {w : Why} : ((failTask c t k w s).core c).tasks = [] := setTask_noTask h

end

/-! ## A drain to memory (10 R242) -/

theorem drainOn_memory {c id : Nat} {t : Task} {s : State} (ht : findTask s c id = some t) (hrun : t.state = .running) (hk : t.kind = 2)
    (hsus : t.suspended = false) (hf : t.fault = none) (hrec : ∀ x ∈ s.records, x.id ∉ t.behind) : drainOn c id s = drainStep c t s := by
  have hheld : t.held s = false := by simpa [Task.held, hsus] using hrec
  simp [drainOn, ht, hrun, hk, hheld, hf]

theorem lt_length_of_drop {α : Type} {l xs : List α} {n : Nat} {x : α} (h : l.drop n = x :: xs) : n < l.length := by
  by_contra hle
  rw [List.drop_eq_nil_of_le (not_lt.mp hle)] at h
  cases h

/-- The second element fails, and the first has left the drain's core without tasks: no task is there to take the fault. -/
theorem drainStep_noTask {c : Nat} {t : Task} {D : Rec} {w : Crew} {s v u : State} {x1 x2 : Nat × Nat} {xs : List (Nat × Nat)} {r : Half} {y : Why}
    (hD : recordFields (recordAt s c t.node t.dest) = some D) (hw : s.crew? t.crew = some w) (hk : t.kind = 2) (hs : D.smode = 0) (ha : t.adds = false)
    (hx : (t.units D).drop t.group = x1 :: x2 :: xs) (h1 : memElement t D c x1 t.rnd s = .ok r v) (h2 : memElement t D c x2 r v = .bad y u)
    (hu : (u.core c).tasks = []) : ((drainStep c t s).core c).tasks = [] := by
  have hleft : ¬(t.units D).length ≤ t.group := not_le.mpr (lt_length_of_drop hx)
  simp only [drainStep, hD, hw, hleft, reduceIte, ha, Bool.false_eq_true, hk, OfNat.ofNat_ne_one, hs, zero_ne_one, hx, drainGo, h1, h2]
  exact failTask_noTask (countTo_noTask (setTask_noTask (by rw [State.core_of_cores (landWrites_cores ..), hu])))

/-! ## The counterexample -/

/-- A running drain to memory through record 0, nothing of it written; the first element of its tile is the FP32 value of code 1. -/
def headDrain : Task :=
  { id := 9, gang := 1, crew := (loadCrew State.reset 0).uid, tenant := 0, node := 0, leader := 0, words := [2, 0, 0, 0, 0, 0, 0, 0], state := .running
    group := 0, sectors := 0, total := 0, rnd := 1, values := [1], prevOpen := false, scaleA := [], scaleB := [], behind := [], suspended := false
    fault := none }

/-- 64 by 64 elements of FP32: the first is the head register of the event ring (19 R416), and each row stands 4 KiB behind the row before it. -/
def headRec : Rec :=
  { base := 0x30010, elem := ⟨fp32, 7⟩, enc := 0, inter := 0, smode := 0, sblk := 0, sbase := 0, ext := [64, 64, 1, 1], stride := [1024, 0, 0], fill := 0
    swz := 0, rights := 3 }

/-- The ring is full, and so is the buffer of die 0; the event of the node in error is held behind them (19 R417). -/
def fullRing : HostPort :=
  { HostPort.reset with
    evEnabled := true, evTail := 63, buffers := [(0, List.replicate 64 ⟨4, 0, 0, 0, 0, 0⟩)], held := [⟨1, 0, 0, 0, 0, 0⟩] }

/-- The drain's node stands at its error until that event has room. The tenant is privileged: row 0 of the record lies in the page of the event
registers, row 1 in a page that may not be written. -/
def headState : State :=
  { State.reset with
    crews := [loadCrew State.reset 0]
    nodes := [{ loadNode State.reset with errorHeld := some (1, 1) }]
    cores := [(0, { Core.empty with
      tasks := [headDrain], tables := [(0, [0x1c000000000000000080000000000000007e0007e00000000000000001c0000000000000030010])] })]
    tenants := Vector.replicate 64 { Tenant.reset with priv := true }
    tlb := [⟨0, 0x30000, 4096, 0x3F0000030000, true, true, true, true, true, false, 0, false, false⟩,
      ⟨0, 0x31000, 4096, 0x31000, true, false, true, true, false, false, 0, false, false⟩]
    host := fullRing }

/-- The write of an element of the drain, from a state of its random source. -/
def headWrite (r : Half) (mn : Nat × Nat) : State → Got Flags :=
  headRec.writeElem (headDrain.client 0).read (headDrain.client 0).readForWrite ((headDrain.client 0).write headDrain.id) (modeCode headDrain.mode) r
    (headDrain.place mn) (headDrain.value mn)

/-- The state behind the first element: the head is 1, one event has entered the ring and the held one its buffer, and the node has ended. -/
def headMoved : State :=
  dropL1 0 (fun x => x / 4 = lineOf 0x3F0000030010) (resumeErrors (drainOrigin 0 { headState with host := { fullRing with evHead := 1 } }))

theorem headWrite_first : headWrite 1 (0, 0) headState = .ok 0 headMoved := by
  have hwrite : headWrite 1 (0, 0) headState =
    .ok 0 (dropL1 0 (fun x => x / 4 = lineOf 0x3F0000030010) (writeRegBytes 0x30010 [1, 0, 0, 0] headState)) := rfl
  have hreg : writeRegBytes 0x30010 [1, 0, 0, 0] headState = drainEvents { headState with host := { fullRing with evHead := 1 } } := rfl
  have hring : (drainOrigin 0 { headState with host := { fullRing with evHead := 1 } }).host.ringFull = true := by decide
  rw [hwrite, hreg, drainEvents_one hring, headMoved]

theorem headWrite_second : headWrite 1 (1, 0) headMoved = .bad ⟨2, 2, 0x31010, false⟩ headMoved := by rfl

theorem headMoved_noTask : (headMoved.core 0).tasks = [] := by decide

theorem headDrain_record : recordFields (recordAt headState 0 headDrain.node headDrain.dest) = some headRec := by decide

theorem headDrain_units : (headDrain.units headRec).drop headDrain.group = (0, 0) :: (1, 0) :: drainOrder.drop 2 := by
  have hall : (headDrain.units headRec).drop headDrain.group = drainOrder := rfl
  have hfirst : drainOrder.take 2 = [(0, 0), (1, 0)] := by decide
  calc (headDrain.units headRec).drop headDrain.group = drainOrder.take 2 ++ drainOrder.drop 2 := hall.trans (List.take_append_drop 2 drainOrder).symm
    _ = (0, 0) :: (1, 0) :: drainOrder.drop 2 := by rw [hfirst]; rfl

theorem headDrain_gone : findTask (drainOn 0 9 headState) 0 9 = none := by
  have hstep : drainOn 0 9 headState = drainStep 0 headDrain headState := drainOn_memory rfl rfl rfl rfl rfl (by decide)
  have h1 : memElement headDrain headRec 0 (0, 0) headDrain.rnd headState = (headWrite 1 (0, 0) headState).next fun _ s => .ok 1 s := rfl
  have h2 : memElement headDrain headRec 0 (1, 0) 1 headMoved = (headWrite 1 (1, 0) headMoved).next fun _ s => .ok 1 s := rfl
  rw [headWrite_first] at h1
  rw [headWrite_second] at h2
  rw [hstep, findTask, drainStep_noTask headDrain_record rfl rfl rfl rfl headDrain_units h1 h2 headMoved_noTask, List.find?_nil]

/-- Refutes O39: its clause on an element of a drain to memory whose access fails has the drain keep the fault. In `headState` the element before
that one is a write to the head register of the event ring: it lets in the event for which the drain's node in error waits, the node ends (19 R417),
and no drain is left on the core. -/
theorem not_matrixEvents : ¬ Obligations.MatrixEvents := by
  unfold Obligations.MatrixEvents
  intro h
  obtain ⟨-, -, hdrain, -⟩ := h 0 9 headState
  obtain ⟨-, hfails, -, -⟩ := hdrain headDrain (loadCrew State.reset 0) headRec rfl rfl rfl (by decide) rfl headDrain_record rfl
    (lt_length_of_drop headDrain_units) (.inr rfl)
  have hmem : DrainMem headDrain headRec 0 (0, 0) headDrain.rnd headState 1 headMoved := by
    rw [DrainMem, if_neg (by decide)]
    exact ⟨rfl, 0, headWrite_first⟩
  have hfirst : Each (DrainMem headDrain headRec 0) [(0, 0)] headDrain.rnd headState 1 headMoved := ⟨1, headMoved, hmem, rfl, rfl⟩
  obtain ⟨q, f, hq, -⟩ := hfails rfl rfl rfl [(0, 0)] (1, 0) _ 1 headMoved _ headMoved headDrain_units hfirst (by decide) headWrite_second (by decide)
  rw [headDrain_gone] at hq
  cases hq

end Sys2Proof.Machine
end

section
/-! What the coherence engine's operations leave alone (12 R257-R273; 15 R329, R330). Evictions leave memory, and which fills are in flight; whatever
caches, homes and the fabric do for an access leaves gangs, crews, ensembles and line locks. One lemma `f_aside` for each operation `f` on the way, in the
order of the model's files. -/

namespace Sys2Proof.Machine

/-- The gangs with their crews and ensembles, and the line locks. -/
def State.aside (s : State) : Gang × List Gang × List Crew × List Ensemble × List Lock := (s.g, s.gangs, s.crews, s.ensembles, s.locks)

/-- What publications and evictions leave: these, memory, and the fills in flight by their numbers. -/
def State.offCache (s : State) : (Gang × List Gang × List Crew × List Ensemble × List Lock) × Memory × List Nat :=
  (s.aside, s.mem, s.fills.map Fill.id)

theorem foldl_keeps {σ α β : Type} (v : σ → β) {f : σ → α → σ} (hf : ∀ s x, v (f s x) = v s) (l : List α) (s : σ) :
    v (l.foldl f s) = v s :=
  List.foldlRecOn (motive := fun t => v t = v s) l f rfl fun _ hb a _ => (hf _ a).trans hb

section
variable {s t : State} (h : t.aside = s.aside)
include h

theorem State.g_of_aside : t.g = s.g := congrArg Prod.fst h
theorem State.locks_of_aside : t.locks = s.locks := congrArg (fun x => x.2.2.2.2) h

theorem State.straddles_of_aside : t.straddles = s.straddles := by
  have hcrews : t.crews = s.crews := congrArg (fun x => x.2.2.1) h
  have hens : t.ensembles = s.ensembles := congrArg (fun x => x.2.2.2.1) h
  simp only [State.straddles, State.crew?, State.ensemble?, State.g_of_aside h, hcrews, hens]

end

section
variable {s t : State} (h : t.offCache = s.offCache)
include h

theorem State.aside_of_offCache : t.aside = s.aside := congrArg Prod.fst h
theorem State.mem_of_offCache : t.mem = s.mem := congrArg (fun x => x.2.1) h
theorem State.fills_of_offCache : t.fills.map Fill.id = s.fills.map Fill.id := congrArg (fun x => x.2.2) h

end

/-! ## Publications and evictions -/

section
variable (s : State)

theorem overtakeFills_offCache (d line : Nat) : (overtakeFills d line s).offCache = s.offCache := by
  have hids : (overtakeFills d line s).fills.map Fill.id = s.fills.map Fill.id := by
    rw [overtakeFills, mapIf, List.map_map]
    exact List.map_congr_left fun x _ => by simp only [Function.comp_apply]; split <;> rfl
  rw [State.offCache, hids]
  rfl

theorem dropCopy_offCache (d line : Nat) : (dropCopy d line s).offCache = s.offCache := overtakeFills_offCache s d line

theorem sendRecord_offCache (d line : Nat) (runs : List DiffRun) (version : Half) (kind : PubKind) (tenant : BitVec 6) (fwd : List Nat) :
    (sendRecord d line runs version kind tenant fwd s).offCache = s.offCache := by
  unfold sendRecord
  dsimp only
  split
  · rfl
  · split <;> rfl

theorem publish_offCache (d line : Nat) (kind : PubKind) (fwd : List Nat) : (publish d line kind fwd s).offCache = s.offCache := by
  unfold publish
  split
  · split
    · rw [sendRecord_offCache]; exact overtakeFills_offCache s d line
    · rfl
  · rfl

theorem sendChanged_offCache (d fpa n : Nat) : (sendChanged d fpa n s).offCache = s.offCache := by
  unfold sendChanged
  dsimp only
  split
  · split
    · rw [sendRecord_offCache]; rfl
    · rfl
  · rfl

theorem landWrites_offCache (d : Nat) : (landWrites d s).offCache = s.offCache := foldl_keeps State.offCache (fun s _ => publish_offCache s ..) _ s

theorem publishDie_offCache (d : Nat) (fwd : List Nat) : (publishDie d fwd s).offCache = s.offCache :=
  foldl_keeps State.offCache (fun s _ => publish_offCache s ..) _ _

theorem evictLine_offCache (d line : Nat) : (evictLine d line s).offCache = s.offCache := by
  unfold evictLine
  split
  · rw [dropCopy_offCache, publish_offCache]
  · rfl

theorem voluntaryWriteBack_offCache (d base : Nat) : (voluntaryWriteBack d base s).offCache = s.offCache := by
  unfold voluntaryWriteBack
  split
  · dsimp only; split <;> rfl
  · rfl

theorem evictOldest_offCache (d : Nat) : (evictOldest d s).offCache = s.offCache := by
  unfold evictOldest
  extract_lets D
  split
  · rfl
  · exact evictLine_offCache s ..
  · exact voluntaryWriteBack_offCache s ..
  · rfl

theorem evictUntil_offCache (d n f : Nat) : (evictUntil d n f s).offCache = s.offCache := by
  induction f generalizing s with
  | zero => rfl
  | succ f ih =>
    unfold evictUntil
    split
    · rfl
    · rw [ih, evictOldest_offCache]

theorem makeRoom_offCache (d n : Nat) : (makeRoom d n s).offCache = s.offCache := evictUntil_offCache s ..

theorem dropOutrun_offCache (d : Nat) (fpas : List Nat) : (dropOutrun d fpas s).offCache = s.offCache :=
  foldl_keeps State.offCache (fun s fpa => by
    split
    · split
      · exact dropCopy_offCache s d (lineOf fpa)
      · rfl
    · rfl) fpas s

theorem makeRoom_aside (d n : Nat) : (makeRoom d n s).aside = s.aside := State.aside_of_offCache (makeRoom_offCache s d n)
theorem publish_aside (d line : Nat) (kind : PubKind) (fwd : List Nat) : (publish d line kind fwd s).aside = s.aside :=
  State.aside_of_offCache (publish_offCache s ..)

end

/-! ## The homes -/

section
variable (s : State)

theorem bumpLines_aside (ls : List Nat) : (bumpLines ls s).aside = s.aside := foldl_keeps State.aside (fun _ _ => by rfl) ls s

theorem recallGrain_aside (e : DirEntry) (keep : Bool) : (recallGrain e keep s).aside = s.aside := by
  unfold recallGrain
  extract_lets s1 s2
  have h1 : s1.aside = s.aside := by
    simp only [s1]
    split
    · rw [bumpLines_aside]; split <;> rfl
    · rfl
  exact (foldl_keeps State.aside (fun _ _ => by rfl) _ s1).trans h1

theorem recallSectors_aside (base n : Nat) (keep : Bool) : (recallSectors base n keep s).aside = s.aside :=
  foldl_keeps State.aside (fun s e => recallGrain_aside s e keep) _ s

theorem recallOthers_aside (base n : Nat) : (recallOthers base n s).aside = s.aside :=
  foldl_keeps State.aside (fun s e => recallGrain_aside s e true) _ s

theorem shareGrain_aside (d base n : Nat) : (shareGrain d base n s).aside = s.aside := by
  unfold shareGrain
  split
  · rfl
  extract_lets s0 e s1 e1
  have h1 : s1.aside = s0.aside := by
    simp only [s1]
    split
    · split
      · exact bumpLines_aside { s0 with mem := _ } _
      · exact bumpLines_aside { s0 with mem := _ } _
    · rfl
  exact h1.trans (recallOthers_aside s base n)

theorem ownGrain_aside (d base n : Nat) : (ownGrain d base n s).aside = s.aside := by
  unfold ownGrain
  extract_lets s0 e data s1 s2
  have h0 : s0.aside = s.aside := recallOthers_aside s base n
  have h2 : s2.aside = s0.aside := foldl_keeps State.aside (fun s o => by split <;> rfl) _ s1
  split
  · exact h0
  · exact (bumpLines_aside _ _).trans (h2.trans h0)

theorem grainRoom_aside (d base n : Nat) : (grainRoom d base n s).aside = s.aside := by
  unfold grainRoom
  split
  · rfl
  · exact makeRoom_aside s ..

theorem applyRecord_aside (r : DiffRecord) : (applyRecord r s).aside = s.aside := foldl_keeps State.aside (fun _ _ => by rfl) _ _

theorem flushRecords_aside (d line : Nat) : (flushRecords d line s).aside = s.aside :=
  foldl_keeps State.aside (fun s r => applyRecord_aside s r) _ s

theorem twinService_aside (line : Nat) : (twinService line s).aside = s.aside := recallSectors_aside s _ 4 true

theorem dropCopy_aside (d line : Nat) : (dropCopy d line s).aside = s.aside := rfl
theorem dropL1s_aside (d : Nat) (p : Nat → Bool) : (dropL1s d p s).aside = s.aside := rfl
theorem withTwinHome_aside (l : List Nat) : { s with twinHome := l }.aside = s.aside := rfl

theorem recallTwins_aside (line : Nat) : (recallTwins line s).aside = s.aside := by
  unfold recallTwins
  exact foldl_keeps State.aside (fun s d => by rw [dropCopy_aside, dropL1s_aside, flushRecords_aside, publish_aside]) _ s

theorem ownedService_aside (base n : Nat) : (ownedService base n s).aside = s.aside := by
  unfold ownedService
  exact foldl_keeps State.aside (fun s line => by
    split
    · rw [withTwinHome_aside, recallTwins_aside]
    · rfl) _ s

theorem twinLine_aside (d line : Nat) : (twinLine d line s).2.aside = s.aside := by
  unfold twinLine
  split
  · rfl
  · exact (makeRoom_aside _ d 128).trans (twinService_aside s line)

/-! ## Translation -/

theorem zeroRange_aside (a n : Nat) : (zeroRange a n s).aside = s.aside := recallSectors_aside s ..
theorem addTlb_aside (x : TlbEntry) : (addTlb x s).aside = s.aside := rfl

theorem zeroPage_aside (root : Dword) (k ipa n : Nat) : (zeroPage root k ipa n s).aside = s.aside := by
  induction k generalizing ipa n s with
  | zero => rfl
  | succ k ih => grind [zeroPage, zeroRange_aside]

theorem clearPending_aside (a : Nat) : (clearPending a s).aside = s.aside := by
  unfold clearPending
  dsimp only
  split <;> exact recallSectors_aside s _ 1 true

theorem tlbMiss_aside (t : BitVec 6) (va : Nat) : (tlbMiss t va s).1.aside = s.aside := by
  have hclear (l : List Nat) (s : State) : (l.foldl (fun s a => clearPending a s) s).aside = s.aside :=
    foldl_keeps State.aside (fun s a => clearPending_aside s a) l s
  grind [tlbMiss, addTlb_aside, zeroPage_aside]

theorem translate_aside (read write : Bool) (va : Nat) : (translate read write va s).1.aside = s.aside := by
  have hmiss := tlbMiss_aside s s.g.tenant va
  unfold translate translateFor
  grind

/-! ## One access -/

theorem touchL1_aside (c line : Nat) : (touchL1 c line s).aside = s.aside := rfl
theorem fillL1_aside (c line : Nat) (data : List Byte) : (fillL1 c line data s).aside = s.aside := rfl
theorem fillL1Sectors_aside (c base : Nat) (data : List Byte) : (fillL1Sectors c base data s).aside = s.aside := rfl

theorem readTwin_aside (ag : Agent) (pt : Point) (fpa n : Nat) : (readTwin ag pt fpa n s).2.aside = s.aside := by
  unfold readTwin
  split
  · split
    · exact touchL1_aside ..
    · exact (fillL1_aside ..).trans (twinLine_aside ..)
  · exact twinLine_aside ..
  · exact twinService_aside ..

theorem readOwned_aside (ag : Agent) (pt : Point) (grain : BitVec 2) (fpa n : Nat) : (readOwned ag pt grain fpa n s).2.aside = s.aside := by
  have hserved := ownedService_aside s (grainBase grain fpa) (grainSectors grain)
  have hshared := (shareGrain_aside _ ag.die (grainBase grain fpa) (grainSectors grain)).trans
    ((grainRoom_aside _ ag.die (grainBase grain fpa) (grainSectors grain)).trans hserved)
  unfold readOwned
  dsimp only
  split
  · exact (recallSectors_aside ..).trans hserved
  · exact (ownGrain_aside ..).trans ((grainRoom_aside ..).trans hserved)
  · exact hshared
  · split
    · exact (touchL1_aside ..).trans hserved
    · exact (fillL1Sectors_aside ..).trans hshared

theorem drainEntry_aside (c line : Nat) : (drainEntry c line s).aside = s.aside := by
  unfold drainEntry
  split <;> rfl

theorem drainGang_aside (c uid : Nat) : (drainGang c uid s).aside = s.aside := by
  unfold drainGang
  exact foldl_keeps State.aside (fun s (e : WcEntry) => drainEntry_aside s c e.line) _ s

theorem remoteRead_aside (ag : Agent) (fresh critical : Bool) (fpa n : Nat) : (remoteRead ag fresh critical fpa n s).after.aside = s.aside := by
  have htick (s : State) (d k : Nat) : (takeSeq d { s with tick := k }).aside = s.aside := rfl
  have hdie (s : State) (d : Nat) (f : Die → Die) : (s.setDie d f).aside = s.aside := rfl
  grind [remoteRead, drainEntry_aside, recallSectors_aside, makeRoom_aside, Done.after]

theorem readAt_aside (ag : Agent) (pt : Point) (e : TlbEntry) (fpa n : Nat) : (readAt ag pt e fpa n s).after.aside = s.aside := by
  fun_cases readAt ag pt e fpa n s <;> grind [readOwned_aside, readTwin_aside, remoteRead_aside, Done.after]

theorem readScoped_aside (ag : Agent) (scope : Scope) (va n : Nat) : (readScoped ag scope va n s).after.aside = s.aside := by
  grind [readScoped, readAt_aside, translate_aside, Done.after]

/-! ## A release -/

theorem publishDie_aside (d : Nat) (fwd : List Nat) : (publishDie d fwd s).aside = s.aside := State.aside_of_offCache (publishDie_offCache s d fwd)

theorem releaseBegin_aside (scope : Scope) (fwd : List Nat) : (releaseBegin scope fwd s).2.aside = s.aside := by
  have hwide (p : Bool) : (if p then publishDie s.g.die.toNat fwd s else s).aside = s.aside := by
    split
    · exact publishDie_aside s _ fwd
    · rfl
  unfold releaseBegin
  dsimp only
  split
  · exact (drainGang_aside ..).trans (hwide _)
  · exact hwide _

end

end Sys2Proof.Machine
end

section
/-! The homes' events (01 R23; 12 R258, R259; 15 R331; 19 R415): first what a die, a line's version, the directory and the eclipse cadence answer after a
change of their own, then one group of lemmas for each kind of event. -/

namespace Sys2Proof.Machine

/-! ## Dies -/

section
variable (s : State) {d k : Nat} (f : Die → Die)

@[simp] theorem State.die_setDie (hd : d < 8) : (s.setDie d f).die d = f (s.die d) := by
  simp [State.die, State.setDie, hd]

theorem State.die_setDie_ne (h : k ≠ d) : (s.setDie d f).die k = s.die k := by
  unfold State.die
  split
  · exact Vector.getElem_setIfInBounds_ne _ h.symm
  · rfl

end

/-! ## Versions of lines (12 R264) -/

/-- A write to a line advances its version by one. -/
theorem bump_version (line : Nat) (s : State) : (bump line s).version line = s.version line + 1 := by
  simp only [State.version, bump, lookup_upsert, if_true, Option.getD_some]
  omega

theorem homeWrite_version (a : Nat) (bs : List Byte) (s : State) : (homeWrite a bs s).version (lineOf a) = s.version (lineOf a) + 1 :=
  bump_version (lineOf a) { s with mem := s.mem.write a bs }

/-- The host has given up the line that is written (19 R415). -/
theorem not_mem_bump_hostLines (line : Nat) (s : State) : line ∉ (bump line s).hostLines := by
  simp [bump]

theorem bumpLines_mem (ls : List Nat) (s : State) : (bumpLines ls s).mem = s.mem := foldl_keeps State.mem (fun _ _ => by rfl) ls s
theorem bumpLines_writeBacks (ls : List Nat) (s : State) : (bumpLines ls s).writeBacks = s.writeBacks :=
  foldl_keeps State.writeBacks (fun _ _ => by rfl) ls s

/-! ## The directory (12 R258) -/

theorem State.dirEntry_place (s : State) (base n : Nat) : (s.dirEntry base n).base = base ∧ (s.dirEntry base n).sectors = n := by
  unfold State.dirEntry
  cases h : s.directory.find? fun e => e.base = base && e.sectors = n with
  | none => exact ⟨rfl, rfl⟩
  | some e => simpa using List.find?_some h

theorem State.dirEntry_setDir {base n : Nat} (s : State) (e : DirEntry) (h : e.base = base ∧ e.sectors = n) : (s.setDir e).dirEntry base n = e := by
  simp [State.dirEntry, State.setDir, h]

/-- Where no directory entry overlaps the sectors, there is nothing to recall. -/
theorem recallSectors_none {base n : Nat} {s : State} (keep : Bool) (h : ∀ e ∈ s.directory, ¬(e.base < base + n ∧ base < e.base + e.sectors)) :
    recallSectors base n keep s = s := by
  have hnone : s.dirOverlap base n = [] := by simpa [State.dirOverlap, List.filter_eq_nil_iff] using h
  rw [recallSectors, hnone, List.foldl_nil]

theorem dropGrain_grain {d : Nat} (hd : d < 8) (base n : Nat) (s : State) : ((dropGrain d base n s).die d).grain base n = none := by
  rw [dropGrain, State.die_setDie _ _ hd]
  exact List.find?_eq_none.mpr fun x hx => by simpa [imp_iff_not_or] using (List.mem_filter.mp hx).2

/-! ## Write-backs (12 R259) -/

theorem applyWriteBack_spec {s : State} {id : Nat} {w : WriteBack} (hw : s.writeBacks.find? (fun x => x.id = id) = some w) :
    let u := applyWriteBack id s
    let e := s.dirEntry w.base (w.data.length / 32)
    u.writeBacks = s.writeBacks.filter (fun x => x.id != id) ∧
      if e.owner = some w.die ∧ e.version = w.version then u.mem = s.mem.write (32 * w.base) w.data ∧
        u.dirEntry w.base (w.data.length / 32) = { e with owner := none, sharers := [], version := e.version + 1 }
      else u.mem = s.mem ∧ u.directory = s.directory := by
  intro u e
  by_cases hown : e.owner = some w.die ∧ e.version = w.version
  · have hu : u = (bumpLines (grainLines w.base (w.data.length / 32)) { s with
        writeBacks := s.writeBacks.filter fun x => x.id != id, mem := s.mem.write (32 * w.base) w.data }).setDir
          { e with owner := none, sharers := [], version := e.version + 1 } := by
      simp only [u, applyWriteBack, hw]
      exact if_pos (by simpa [e] using hown)
    rw [if_pos hown, hu]
    refine ⟨bumpLines_writeBacks .., bumpLines_mem .., ?_⟩
    exact State.dirEntry_setDir _ _ (State.dirEntry_place s w.base (w.data.length / 32))
  · have hu : u = { s with writeBacks := s.writeBacks.filter fun x => x.id != id } := by
      simp only [u, applyWriteBack, hw]
      exact if_neg (by simpa [e] using hown)
    rw [if_neg hown, hu]
    exact ⟨rfl, rfl, rfl⟩

theorem voluntaryWriteBack_spec {s : State} {d n : Nat} {g : GrainCopy} (hg : (s.die d).grains.find? (fun x => x.base = n) = some g) (hd : d < 8) :
    let u := voluntaryWriteBack d n s
    let e := s.dirEntry n (g.data.length / 32)
    u.mem = s.mem ∧ (u.die d).grain n (g.data.length / 32) = none ∧
      if e.owner = some d then u.writeBacks = s.writeBacks ++ [⟨s.nextId, d, n, g.data, e.version⟩] ∧ u.directory = s.directory
      else u.writeBacks = s.writeBacks ∧ u.dirEntry n (g.data.length / 32) = { e with sharers := e.sharers.filter (· != d) } := by
  intro u e
  have hgone := dropGrain_grain hd n (g.data.length / 32) s
  by_cases hown : e.owner = some d
  · have hu : u = { dropGrain d n (g.data.length / 32) s with
        nextId := s.nextId + 1, writeBacks := s.writeBacks ++ [⟨s.nextId, d, n, g.data, e.version⟩] } := by
      simp only [u, voluntaryWriteBack, hg]
      exact if_pos hown
    rw [if_pos hown, hu]
    exact ⟨rfl, hgone, rfl, rfl⟩
  · have hu : u = (dropGrain d n (g.data.length / 32) s).setDir { e with sharers := e.sharers.filter (· != d) } := by
      simp only [u, voluntaryWriteBack, hg]
      exact if_neg hown
    rw [if_neg hown, hu]
    exact ⟨rfl, hgone, rfl, State.dirEntry_setDir _ _ (State.dirEntry_place s n (g.data.length / 32))⟩

/-! ## The eclipse cadence (01 R23) -/

section
variable {E : Eclipse} {per clk k : Nat}

theorem Eclipse.now_before (h : clk < E.next) : E.now per clk = E := if_pos (.inl h)

theorem Eclipse.now_within (hlo : E.next + k * per ≤ clk) (hhi : clk < E.next + (k + 1) * per) :
    E.now per clk = ⟨E.bank + BitVec.ofNat 4 (k + 1), E.next + (k + 1) * per⟩ := by
  rw [Nat.add_mul, Nat.one_mul] at hhi
  have hk : (clk - E.next) / per = k := Nat.div_eq_of_lt_le (by omega) (by rw [Nat.add_mul, Nat.one_mul]; omega)
  rw [Eclipse.now, if_neg (by omega), hk]

/-- A window is open for four fifths of the period it begins with. -/
theorem Eclipse.isOpen_within {s : State} {b : BitVec 4} (hlo : E.next + k * s.eclipsePeriod ≤ s.clk) (hhi : s.clk < E.next + (k + 1) * s.eclipsePeriod) :
    (⟨b, E.next + (k + 1) * s.eclipsePeriod⟩ : Eclipse).isOpen s = decide (5 * (s.clk - (E.next + k * s.eclipsePeriod)) < 4 * s.eclipsePeriod) := by
  rw [Nat.add_mul, Nat.one_mul] at hhi ⊢
  exact decide_eq_decide.mpr (by simp only; omega)

end

theorem windowOpens_before {s : State} {d : Nat} (h : s.clk < (s.die d).eclipse.next) : windowOpens d s = s :=
  if_neg (by simp [h])

theorem windowOpens_after {s : State} {d : Nat} (hd : d < 8) (h : (s.die d).eclipse.next ≤ s.clk) :
    windowOpens d s = s.setDie d fun D => { D with eclipse := s.eclipseNow d } :=
  if_pos (by simp [hd, h])

/-! ## Peers (15 R331) -/

section
variable {s : State} {id : Nat} {q : PeerRequest} (hq : s.requests.find? (fun x => x.id = id && x.reply.isNone) = some q) (hlocal : s.isLocal q.addr = true)
  (hwait : homeWaits (128 * lineOf q.addr) 128 s = false) (hhbm : regionOf (ppaOf q.addr) = .hbm)
include hq hlocal hwait hhbm

theorem servePeer_load (hop : q.op = none) (hdir : ∀ e ∈ s.directory, ¬(e.base < 4 * lineOf q.addr + 4 ∧ 4 * lineOf q.addr < e.base + e.sectors)) :
    servePeer id s = { s with requests := mapIf (fun r => r.id = id) (fun r => { r with reply := some (ofBytes (s.homeLine (lineOf q.addr))) }) s.requests } := by
  simp [servePeer, hq, hlocal, hwait, hhbm, hop, recallSectors_none true hdir, State.homeLine]

theorem servePeer_atomic {op k x y : Nat} (hop : q.op = some (op, k, x, y))
    (hdir : ∀ e ∈ s.directory, ¬(e.base < sectorOf q.addr + 1 ∧ sectorOf q.addr < e.base + e.sectors)) :
    let old := ofBytes (s.mem.read q.addr k)
    let t := homeWrite q.addr (toBytes k (atomicNew op (8 * k) old x x y)) s
    servePeer id s = { t with requests := mapIf (fun r => r.id = id) (fun r => { r with reply := some old }) s.requests } := by
  simp [servePeer, hq, hlocal, hwait, hhbm, hop, recallSectors_none true hdir, homeWrite, bump]

end

/-! ## The host (19 R415) -/

section
variable {s : State} {a : Nat}

theorem hostLoad_done {k : Nat} (hfit : hostFits a k = true) (hhbm : regionOf a = .hbm) (hwait : homeWaits (s.fpa a) k s = false)
    (hdir : ∀ e ∈ s.directory, ¬(e.base < sectorOf (s.fpa a) + (a % 32 + k + 31) / 32 ∧ sectorOf (s.fpa a) < e.base + e.sectors)) :
    hostLoad a k s = { s with hostLines := insertNat (lineOf (s.fpa a)) s.hostLines, host := { s.host with readData := s.mem.read (s.fpa a) k } } := by
  simp [hostLoad, hfit, hhbm, hwait, recallSectors_none true hdir]

theorem hostStore_done {bs : List Byte} (hfit : hostFits a bs.length = true) (hwait : homeWaits (s.fpa a) bs.length s = false)
    (hplace : regionOf a = .host ∨ (regionOf a = .hbm ∧
      ∀ e ∈ s.directory, ¬(e.base < sectorOf (s.fpa a) + (s.fpa a % 32 + bs.length + 31) / 32 ∧ sectorOf (s.fpa a) < e.base + e.sectors))) :
    hostStore a bs s = homeWrite (s.fpa a) bs s := by
  obtain hhost | ⟨hhbm, hdir⟩ := hplace
  · simp [hostStore, hfit, hwait, hhost]
  · simp [hostStore, hfit, hwait, hhbm, homeStore, recallSectors_none true hdir]

end

/-- Settles O44: each event is the one function of the model that its word names, taken in its cases. -/
theorem homeEvents : Obligations.HomeEvents := by
  intro id d n a k bs s
  refine ⟨?writeBack, ?voluntary, ?noGrain, ?eclipse, ?load, ?atomic, ?hostLoad, ?hostStore⟩
  case writeBack => exact fun w hw => ⟨_, rfl, applyWriteBack_spec hw⟩
  case voluntary => exact fun g hg hd => ⟨_, rfl, voluntaryWriteBack_spec hg hd⟩
  case noGrain =>
    intro hg
    exact congrArg Host.Outcome.next (by simp only [voluntaryWriteBack, hg])
  case eclipse =>
    intro E per _ hd
    refine ⟨fun i hi => ?_, Eclipse.now_before, fun k hlo hhi => ?_⟩
    · have hexec : exec i s = .next (windowOpens d s) := by
        obtain rfl | rfl : i = .eclipseWindowStart d ∨ i = .eclipseWindowEnd d := by simpa using hi
        · rfl
        · rfl
      rw [hexec]
      exact ⟨fun h => congrArg Host.Outcome.next (windowOpens_before h), fun h => congrArg Host.Outcome.next (windowOpens_after hd h)⟩
    · have hnow : s.eclipseNow d = ⟨E.bank + BitVec.ofNat 4 (k + 1), E.next + (k + 1) * per⟩ := Eclipse.now_within hlo hhi
      exact ⟨hnow, by rw [hnow]; exact Eclipse.isOpen_within hlo hhi⟩
  case load => exact fun q hq hl hw hr hop hdir => congrArg Host.Outcome.next (servePeer_load hq hl hw hr hop hdir)
  case atomic =>
    intro q op k x y hq hl hw hr hop hdir
    refine ⟨_, congrArg Host.Outcome.next (servePeer_atomic hq hl hw hr hop hdir), rfl, homeWrite_version .., fun r hr hid => ?_⟩
    obtain ⟨r, -, rfl⟩ : ∃ x ∈ s.requests, _ := mem_mapIf hr
    by_cases h : r.id = id
    · simp [h]
    · simp [h] at hid
  case hostLoad => exact fun hf hr hw hdir => congrArg Host.Outcome.next (hostLoad_done hf hr hw hdir)
  case hostStore =>
    intro hf hw hplace
    exact ⟨_, congrArg Host.Outcome.next (hostStore_done hf hw hplace), rfl, homeWrite_version .., not_mem_bump_hostLines _ _, rfl, rfl⟩

end Sys2Proof.Machine
end

section
/-! Publications, forwarded copies, fills and releases (12 R262-R273). A die's lines after one of them is set or dropped, then after a publication; how a
list of publications adds up; and one group of lemmas for each kind of event. -/

namespace Sys2Proof.Machine

/-! ## The lines of a die (12 R261) -/

/-- The copy of a line whose twin is freed. -/
def LineCopy.cleaned (x : LineCopy) : LineCopy := { x with twin := none }

section
variable {D : Die} {n k : Nat}

theorem Die.line?_place {x : LineCopy} (h : D.line? n = some x) : x.line = n := by simpa using List.find?_some h

theorem Die.line?_setLine (x : LineCopy) : (D.setLine x).line? n = if n = x.line then some x else D.line? n := by
  by_cases h : n = x.line
  · simp [Die.line?, Die.setLine, h]
  · rw [if_neg h, Die.line?, Die.setLine, List.find?_cons_of_neg (by simpa using Ne.symm h), List.find?_filter]
    refine congrArg (List.find? · D.lines) (funext fun y => ?_)
    by_cases hy : y.line = n
    · simp [hy, h]
    · simp [hy]

theorem Die.line?_dropLine : (D.dropLine n).line? n = none := by simp [Die.line?, Die.dropLine]

end

theorem dropCopy_line? {d : Nat} (hd : d < 8) (n : Nat) (s : State) : ((dropCopy d n s).die d).line? n = none := by
  rw [dropCopy, State.die_setDie _ _ hd]
  exact Die.line?_dropLine

/-! ## One publication (12 R265-R267) -/

section
variable (s : State) (d k : Nat) (runs : List DiffRun) (v : Half) (kind : PubKind) (tenant : BitVec 6) (fwd : List Nat)

theorem sendRecord_lines {j : Nat} (hj : j < 8) : ((sendRecord d k runs v kind tenant fwd s).die j).lines = (s.die j).lines := by
  have hearly (s : State) : ((s.setDie d fun D => { D with early := D.early + 1 }).die j).lines = (s.die j).lines := by
    by_cases h : j = d
    · subst h; rw [State.die_setDie _ _ hj]
    · rw [State.die_setDie_ne _ _ h]
  unfold sendRecord
  dsimp only
  split
  · rfl
  · split
    · exact hearly _
    · rfl

/-- No changed byte, no record. -/
theorem sendRecord_records : (sendRecord d k runs v kind tenant fwd s).records =
    s.records ++ if runs = [] then [] else [⟨s.nextId, k, d, runs, v, if kind = .release then (s.die d).relNo else 0, kind, tenant, fwd⟩] := by
  unfold sendRecord
  simp only [List.isEmpty_iff]
  by_cases h : runs = []
  · simp [h]
  · rw [if_neg h, if_neg h]
    split <;> rfl

end

section
variable {s : State} {d k : Nat} (kind : PubKind) (fwd : List Nat)

theorem publish_clean (h : ∀ x t, (s.die d).line? k = some x → x.twin ≠ some t) : publish d k kind fwd s = s := by
  unfold publish
  split
  case h_1 x hx =>
    split
    case h_1 t ht => exact absurd ht (h x t hx)
    case h_2 => rfl
  case h_2 => rfl

section
variable (hd : d < 8) {x : LineCopy} {t : Twin} (hx : (s.die d).line? k = some x) (ht : x.twin = some t)
include hx ht

theorem publish_dirty : publish d k kind fwd s = sendRecord d k (runsOf x.data t.data) t.version kind t.tenant fwd
    ((overtakeFills d k s).setDie d fun D => D.setLine x.cleaned) := by
  simp only [publish, hx, ht]
  rfl

include hd in
theorem publish_records : (publish d k kind fwd s).records = s.records ++ if runsOf x.data t.data = [] then [] else
    [⟨s.nextId, k, d, runsOf x.data t.data, t.version, if kind = .release then (s.die d).relNo else 0, kind, t.tenant, fwd⟩] := by
  rw [publish_dirty kind fwd hx ht, sendRecord_records, State.die_setDie _ _ hd]
  rfl

end

/-- A publication cleans its line and leaves every other. -/
theorem publish_line? (hd : d < 8) (n : Nat) :
    ((publish d k kind fwd s).die d).line? n = if n = k then ((s.die d).line? k).map LineCopy.cleaned else (s.die d).line? n := by
  by_cases hdirty : ∃ x t, (s.die d).line? k = some x ∧ x.twin = some t
  · obtain ⟨x, t, hx, ht⟩ := hdirty
    have hplace : x.cleaned.line = k := show x.line = k from Die.line?_place hx
    have hlines := sendRecord_lines ((overtakeFills d k s).setDie d fun D => D.setLine x.cleaned) d k (runsOf x.data t.data) t.version kind t.tenant fwd hd
    rw [State.die_setDie _ _ hd] at hlines
    rw [publish_dirty kind fwd hx ht, Die.line?, hlines, hx]
    exact (Die.line?_setLine x.cleaned).trans (by rw [hplace]; rfl)
  · have hclean : ∀ x t, (s.die d).line? k = some x → x.twin ≠ some t := fun x t hx ht => hdirty ⟨x, t, hx, ht⟩
    rw [publish_clean kind fwd hclean]
    split
    case isFalse => rfl
    case isTrue h =>
      subst h
      cases hx : (s.die d).line? n with
      | none => rfl
      | some x =>
        have hnone : x.twin = none := Option.eq_none_iff_forall_ne_some.mpr fun t => hclean x t hx
        exact congrArg some (by rw [LineCopy.cleaned, ← hnone])

theorem records_mem_publish {r : DiffRecord} (h : r ∈ s.records) (hd : d < 8) : r ∈ (publish d k kind fwd s).records := by
  by_cases hdirty : ∃ x t, (s.die d).line? k = some x ∧ x.twin = some t
  · obtain ⟨x, t, hx, ht⟩ := hdirty
    rw [publish_records kind fwd hd hx ht]
    exact List.mem_append_left _ h
  · rwa [publish_clean kind fwd fun x t hx ht => hdirty ⟨x, t, hx, ht⟩]

end

/-! ## Publications one after another -/

/-- The lines published in their order. -/
def publishAll (d : Nat) (kind : PubKind) (fwd : List Nat) (ks : List Nat) (s : State) : State := ks.foldl (fun s k => publish d k kind fwd s) s

section
variable {d : Nat} (hd : d < 8) (kind : PubKind) (fwd : List Nat)
include hd

theorem publishAll_line? (ks : List Nat) (n : Nat) (s : State) :
    ((publishAll d kind fwd ks s).die d).line? n = if n ∈ ks then ((s.die d).line? n).map LineCopy.cleaned else (s.die d).line? n := by
  induction ks generalizing s with
  | nil => rfl
  | cons k ks ih =>
    rw [publishAll, List.foldl_cons]
    refine (ih _).trans ?_
    rw [publish_line? kind fwd hd]
    by_cases hk : n = k
    · subst hk
      simp only [if_true, List.mem_cons, true_or, Option.map_map]
      split <;> rfl
    · simp [hk]

theorem records_mem_publishAll (ks : List Nat) {r : DiffRecord} (s : State) (h : r ∈ s.records) : r ∈ (publishAll d kind fwd ks s).records :=
  List.foldlRecOn (motive := fun (t : State) => r ∈ t.records) ks _ h fun _ hb _ _ => records_mem_publish kind fwd hb hd

/-- A dirty line that is published sends the record of its changed bytes. -/
theorem publishAll_sends {n : Nat} {x : LineCopy} {t : Twin} (ks : List Nat) (s : State) (hn : n ∈ ks) (hx : (s.die d).line? n = some x) (ht : x.twin = some t)
    (hruns : runsOf x.data t.data ≠ []) :
    ∃ i no, (kind ≠ .release → no = 0) ∧
      ⟨i, n, d, runsOf x.data t.data, t.version, no, kind, t.tenant, fwd⟩ ∈ (publishAll d kind fwd ks s).records := by
  induction ks generalizing s with
  | nil => exact absurd hn List.not_mem_nil
  | cons k ks ih =>
    by_cases hk : n = k
    · subst hk
      have hsent := publish_records kind fwd hd hx ht
      rw [if_neg hruns] at hsent
      exact ⟨_, _, fun h => if_neg h, records_mem_publishAll hd kind fwd ks _ (hsent ▸ List.mem_append_right _ (List.mem_singleton_self _))⟩
    · exact ih _ ((List.mem_cons.mp hn).resolve_left hk) (by rw [publish_line? kind fwd hd, if_neg hk]; exact hx)

end

/-! ## Evictions and early publications (12 R262, R263) -/

section
variable {s : State} {d ln : Nat} {x : LineCopy} (hd : d < 8) (hx : (s.die d).line? ln = some x)
include hd

theorem evictLine_mem_line? : (evictLine d ln s).mem = s.mem ∧ ((evictLine d ln s).die d).line? ln = none :=
  ⟨State.mem_of_offCache (evictLine_offCache s d ln), by rw [evictLine, if_pos hd]; exact dropCopy_line? hd ln _⟩

include hx

theorem evictLine_dirty {t : Twin} (ht : x.twin = some t) : (evictLine d ln s).records =
    s.records ++ if runsOf x.data t.data = [] then [] else [⟨s.nextId, ln, d, runsOf x.data t.data, t.version, 0, .eviction, t.tenant, []⟩] := by
  rw [evictLine, if_pos hd]
  exact publish_records .eviction [] hd hx ht

theorem evictLine_clean (ht : x.twin = none) : (evictLine d ln s).records = s.records := by
  rw [evictLine, if_pos hd, publish_clean .eviction [] fun y t hy => by
    rw [hx] at hy
    rw [← Option.some.inj hy, ht]
    exact Option.some_ne_none t |>.symm]
  rfl

end

theorem publishEarly_idle {s : State} {d : Nat} (h : max 16 ((s.die d).capacity / 64) ≤ (s.die d).capacity - (s.die d).twinsUsed) : publishEarly d s = s :=
  if_neg (by simpa using h)

theorem publishEarly_pressed {s : State} {d : Nat} (h : (s.die d).capacity - (s.die d).twinsUsed < max 16 ((s.die d).capacity / 64)) :
    publishEarly d s =
      publishAll d .early [] ((s.die d).byAge.take (max 32 ((s.die d).capacity / 32) - ((s.die d).capacity - (s.die d).twinsUsed))) s :=
  if_pos h

/-! ## Records at the home (12 R266, R268) -/

theorem patch_length (l : List Byte) (k : Nat) (bs : List Byte) : (patch l k bs).length = l.length := by
  simp only [patch, List.length_append, List.length_take, List.length_drop]
  omega

theorem applyRuns_length (rs : List DiffRun) (k : Nat) (l : List Byte) : (applyRuns rs k l).length = l.length := by
  induction rs generalizing k l with
  | nil => rfl
  | cons r rs ih => rw [applyRuns, ih, patch_length]

/-- Copies of a record on their way to the dies that wait for it, and nothing else. -/
theorem forward_eq (r : DiffRecord) (v : Half) (ds : List Nat) (s : State) : ∃ n cs, cs.length = ds.length ∧
    ds.foldl (fun s d => { s with nextId := s.nextId + 1, copies := s.copies ++ [⟨s.nextId, d, r, v⟩] }) s =
      { s with nextId := n, copies := s.copies ++ cs } := by
  induction ds generalizing s with
  | nil => exact ⟨s.nextId, [], rfl, by rw [List.append_nil]; rfl⟩
  | cons d ds ih =>
    obtain ⟨n, cs, hlen, heq⟩ := ih { s with nextId := s.nextId + 1, copies := s.copies ++ [⟨s.nextId, d, r, v⟩] }
    exact ⟨n, ⟨s.nextId, d, r, v⟩ :: cs, by rw [List.length_cons, List.length_cons, hlen], by
      rw [List.foldl_cons, heq, List.append_assoc]
      rfl⟩

theorem applyRecord_spec (r : DiffRecord) {s : State} (hs : s.memOk) : let t := applyRecord r s
    t.homeLine r.line = applyRuns r.runs 0 (s.homeLine r.line) ∧ t.version r.line = s.version r.line + 1 ∧ OnlyLines s t (· = r.line) ∧
      t.records = s.records.filter (fun x => x.id != r.id) ∧ t.dies = s.dies ∧ t.copies.length = s.copies.length + r.forwardTo.length := by
  intro t
  let w := applyRuns r.runs 0 (s.homeLine r.line)
  let s1 := homeWrite (128 * r.line) w s
  have hlen : w.length = 128 := (applyRuns_length ..).trans (Memory.read_length ..)
  have hline : lineOf (128 * r.line) = r.line := Nat.mul_div_cancel_left _ (by decide)
  obtain ⟨n, cs, hcs, heq⟩ := forward_eq r (s1.version16 r.line) r.forwardTo { s1 with records := s1.records.filter fun x => x.id != r.id }
  have ht : t = { s1 with records := s.records.filter fun x => x.id != r.id, nextId := n, copies := s.copies ++ cs } := heq
  rw [ht]
  refine ⟨?bytes, ?version, fun a ha => ?only, rfl, rfl, by rw [List.length_append, hcs]⟩
  case bytes =>
    have hread := Memory.read_write s.mem hs.1 (128 * r.line) w
    rwa [hlen] at hread
  case version => rw [← hline]; exact homeWrite_version (128 * r.line) w s
  case only => exact Memory.get_write_apart hs.1 (by rw [hlen]; omega)

section
variable {s : State} {id : Nat} {r : DiffRecord} (hr : s.records.find? (fun x => x.id = id) = some r)
include hr

theorem recordArrives_applies (hlock : s.locked r.line = false)
    (hfirst : ∀ x ∈ s.records.takeWhile (fun x => x.id != id), x.die ≠ r.die ∨ x.line ≠ r.line) :
    recordArrives id s = applyRecord r s := by
  have hnone : ((s.records.takeWhile fun x => x.id != id).any fun x => x.die = r.die && x.line = r.line) = false := by
    simpa [imp_iff_not_or] using hfirst
  simp [recordArrives, hr, hlock, hnone]

theorem recordArrives_waits (h : s.locked r.line = true ∨ ∃ x ∈ s.records.takeWhile (fun x => x.id != id), x.die = r.die ∧ x.line = r.line) :
    recordArrives id s = s := by
  simp only [recordArrives, hr]
  exact if_pos (by simpa using h)

end

/-! ## Forwarded copies (12 R271) -/

theorem applyForwarded_spec {s : State} {id : Nat} {y : LineCopy} {c : Forwarded} (hc : s.copies.find? (fun x => x.id = id) = some c) (htarget : c.target < 8)
    (hy : (s.die c.target).line? c.record.line = some y) : let u := applyForwarded id s
    (∀ x ∈ u.copies, x.id ≠ id) ∧ u.mem = s.mem ∧ u.records = s.records ∧
      if y.twin = none ∧ y.version = c.version - 1 then (u.die c.target).line? c.record.line =
        some { y with data := applyRuns c.record.runs 0 y.data, version := c.version, tag := some (c.record.die, c.record.relNo) }
      else u.dies = s.dies := by
  intro u
  have hgone : ∀ x ∈ s.copies.filter (fun x => x.id != id), x.id ≠ id := fun x hx => by simpa using (List.mem_filter.mp hx).2
  by_cases hnext : y.twin = none ∧ y.version = c.version - 1
  · let y' : LineCopy := { y with data := applyRuns c.record.runs 0 y.data, version := c.version, tag := some (c.record.die, c.record.relNo) }
    have hu : u = { s with copies := s.copies.filter fun x => x.id != id }.setDie c.target fun D => D.setLine y' := by
      simp only [u, applyForwarded, hc]
      rw [show (State.die { s with copies := s.copies.filter fun x => x.id != id } c.target).line? c.record.line = some y from hy]
      exact if_pos (by simpa using hnext)
    rw [if_pos hnext, hu]
    exact ⟨hgone, rfl, rfl, by rw [State.die_setDie _ _ htarget, Die.line?_setLine, if_pos (Die.line?_place hy).symm]⟩
  · have hu : u = { s with copies := s.copies.filter fun x => x.id != id } := by
      simp only [u, applyForwarded, hc]
      rw [show (State.die { s with copies := s.copies.filter fun x => x.id != id } c.target).line? c.record.line = some y from hy]
      exact if_neg (by simpa using hnext)
    rw [if_neg hnext, hu]
    exact ⟨hgone, rfl, rfl, rfl⟩

/-! ## Fills (12 R264, R273) -/

theorem newer_eq (v w : Half) : newer v w = decide (1 ≤ (v - w).toNat ∧ (v - w).toNat ≤ 2 ^ 15 - 1) := by simp [newer]

/-- What a delivery to a waiting load leaves. -/
def State.underLoads (s : State) : Vector Die 8 × Memory × List Fill := (s.dies, s.mem, s.fills)

theorem deliver_underLoads (line : Nat) (data : List Byte) (w : Nat × Nat) (s : State) : (deliver line data w s).underLoads = s.underLoads := by
  unfold deliver State.updGang
  split <;> rfl

section
variable {s : State} {id : Nat} {f : Fill} (hf : s.fills.find? (fun x => x.id = id) = some f)
include hf

/-- A fill that is not newer than the copy there goes away. -/
theorem fillArrives_stale {y : LineCopy} (hy : (s.die f.die).line? f.line = some y) (hold : newer f.version y.version = false) :
    fillArrives id s = { s with fills := s.fills.filter fun x => x.id != id } := by
  simp only [fillArrives, hf]
  rw [show (State.die { s with fills := s.fills.filter fun x => x.id != id } f.die).line? f.line = some y from hy]
  exact if_pos (by simp [hold])

/-- Another goes to its loads and, of the present epoch and overtaken by nothing, into the die cache. -/
theorem fillArrives_eq (hnew : ∀ y, (s.die f.die).line? f.line = some y → newer f.version y.version = true) :
    ∃ s2 : State, s2.underLoads = { s with fills := s.fills.filter fun x => x.id != id }.underLoads ∧ fillArrives id s =
      if f.epoch = (s.die f.die).epoch ∧ f.install = true ∧ ((s.die f.die).line? f.line).all (fun l => l.twin.isNone) = true then
        (makeRoom f.die 128 s2).setDie f.die fun D => D.setLine ⟨f.line, f.data, none, f.version, none⟩
      else s2 := by
  refine ⟨_, foldl_keeps State.underLoads (fun s w => deliver_underLoads f.line f.data w s) f.waiters _, ?_⟩
  simp only [fillArrives, hf]
  rw [if_neg]
  case hnc =>
    rw [show State.die { s with fills := s.fills.filter fun x => x.id != id } f.die = s.die f.die from rfl]
    cases hy : (s.die f.die).line? f.line with
    | none => exact Bool.false_ne_true
    | some y => simp [hnew y hy]
  simp only [Bool.and_eq_true, decide_eq_true_eq, and_assoc]
  rfl

end

theorem fillArrives_spec {s : State} {id : Nat} {f : Fill} (hf : s.fills.find? (fun x => x.id = id) = some f) (hd : f.die < 8) : let u := fillArrives id s
    (∀ x ∈ u.fills, x.id ≠ id) ∧ u.mem = s.mem ∧
      (∀ y, (s.die f.die).line? f.line = some y → newer f.version y.version = false → u = { s with fills := s.fills.filter fun x => x.id != id }) ∧
      ((s.die f.die).line? f.line = none → f.epoch = (s.die f.die).epoch → f.install = true →
        (u.die f.die).line? f.line = some ⟨f.line, f.data, none, f.version, none⟩) ∧
      (f.epoch ≠ (s.die f.die).epoch ∨ f.install = false → u.dies = s.dies) := by
  intro u
  have hgone : ∀ i ∈ (s.fills.filter fun x => x.id != id).map Fill.id, i ≠ id := fun i hi => by
    obtain ⟨x, hx, rfl⟩ := List.mem_map.mp hi
    simpa using (List.mem_filter.mp hx).2
  by_cases hnew : ∀ y, (s.die f.die).line? f.line = some y → newer f.version y.version = true
  · obtain ⟨s2, hload, hu⟩ := fillArrives_eq hf hnew
    have hdies : s2.dies = s.dies := congrArg Prod.fst hload
    have hmem : s2.mem = s.mem := congrArg (fun x => x.2.1) hload
    have hfills : s2.fills = s.fills.filter fun x => x.id != id := congrArg (fun x => x.2.2) hload
    have hroom := makeRoom_offCache s2 f.die 128
    have hkept : u.mem = s.mem ∧ u.fills.map Fill.id = (s.fills.filter fun x => x.id != id).map Fill.id := by
      simp only [u, hu]
      split
      · exact ⟨(State.mem_of_offCache hroom).trans hmem, (State.fills_of_offCache hroom).trans (by rw [hfills])⟩
      · exact ⟨hmem, by rw [hfills]⟩
    refine ⟨fun x hx => hgone _ (hkept.2 ▸ List.mem_map_of_mem hx), hkept.1, fun y hy hold => ?_, fun hnone hepoch hinstall => ?_, fun hnot => ?_⟩
    · exact absurd (hnew y hy) (by rw [hold]; exact Bool.false_ne_true)
    · simp only [u, hu]
      rw [if_pos ⟨hepoch, hinstall, by rw [hnone]; rfl⟩, State.die_setDie _ _ hd, Die.line?_setLine, if_pos rfl]
    · simp only [u, hu]
      rw [if_neg (by grind), hdies]
  · obtain ⟨y, hy, hold⟩ : ∃ y, (s.die f.die).line? f.line = some y ∧ newer f.version y.version = false := by simpa using hnew
    have hu : u = { s with fills := s.fills.filter fun x => x.id != id } := fillArrives_stale hf hy hold
    refine ⟨fun x hx => hgone _ (List.mem_map_of_mem (by rwa [hu] at hx)), by rw [hu], fun _ _ _ => hu, fun hnone => ?_, fun _ => by rw [hu]⟩
    rw [hnone] at hy
    exact absurd hy (Option.some_ne_none y).symm

/-! ## Releases (12 R270) -/

theorem finishPending_done {s : State} {id : Nat} {r : PendingRelease} (hr : s.releases.find? (fun x => x.id = id) = some r)
    (hdone : releaseDone s r = true) (hsignal : r.signal = none) :
    finishPending id s = leaveReleased id r.gang { s with releases := s.releases.filter fun x => x.id != id } := by
  simp [finishPending, hr, hdone, hsignal, dropRelease]

theorem finishPending_pending {s : State} {id : Nat} {r : PendingRelease} (hr : s.releases.find? (fun x => x.id = id) = some r)
    (hdone : releaseDone s r = false) : finishPending id s = s := by
  simp [finishPending, hr, hdone]

theorem leaveReleased_resident {s : State} {id u : Nat} {g : Gang} (hg : s.gang? u = some g) (hres : g.status = .resident) : leaveReleased id u s =
    if g.relPending = some id then leaveCore .saved ((s.focus u).setG fun g => { g with relPending := none }) else s.focus u := by
  rw [leaveReleased, atGang_resident _ hg hres, State.focus_gang hg]

theorem leaveReleased_absent {s : State} {id u : Nat} (h : ∀ g, s.gang? u = some g → g.status ≠ .resident) : leaveReleased id u s = s := by
  unfold leaveReleased atGang
  split
  case h_1 g hg => exact if_neg (h g hg)
  case h_2 => rfl

/-- Settles O43: each event is one function of the model; a publication's effect on the lines and records of its die adds up over the lines published. -/
theorem publicationEvents : Obligations.PublicationEvents := by
  intro id d ln s
  refine ⟨?applies, ?waits, ?evictsDirty, ?evictsClean, ?idle, ?early, ?copy, ?fill, newer_eq, ?pending, ?leaves, ?resident, ?absent⟩
  case applies =>
    intro r hr hlock hfirst hs
    have hid : r.id = id := by simpa using List.find?_some hr
    obtain ⟨hbytes, hversion, honly, hrecords, hdies, hcopies⟩ := applyRecord_spec r hs
    refine ⟨_, congrArg Host.Outcome.next (recordArrives_applies hr hlock hfirst), ?_, hversion, honly, by rw [← hid]; exact hrecords, hdies, hcopies⟩
    exact hbytes.trans (List.take_of_length_le ((applyRuns_length ..).trans (Memory.read_length ..)).le).symm
  case waits => exact fun r hr h => congrArg Host.Outcome.next (recordArrives_waits hr h)
  case evictsDirty =>
    intro x t hd hx ht
    obtain ⟨hmem, hgone⟩ := evictLine_mem_line? (s := s) (ln := ln) hd
    exact ⟨_, rfl, hgone, hmem, evictLine_dirty hd hx ht⟩
  case evictsClean =>
    intro x hd hx ht
    obtain ⟨hmem, hgone⟩ := evictLine_mem_line? (s := s) (ln := ln) hd
    exact ⟨_, rfl, hgone, hmem, evictLine_clean hd hx ht⟩
  case idle => exact fun h => congrArg Host.Outcome.next (publishEarly_idle h)
  case early =>
    intro C free old hd hpress
    have hkeep := foldl_keeps State.offCache (fun s k => publish_offCache s d k .early []) old s
    have hpub : exec (.earlyPublication d) s = .next (publishAll d .early [] old s) := congrArg Host.Outcome.next (publishEarly_pressed hpress)
    refine ⟨_, hpub, State.mem_of_offCache hkeep, State.g_of_aside (State.aside_of_offCache hkeep),
      fun r => records_mem_publishAll hd .early [] old s, fun k hk y t hy ht => ⟨?_, fun hruns => ?_⟩, fun k hk => ?_⟩
    · rw [publishAll_line? hd, if_pos hk, hy]
      rfl
    · obtain ⟨i, no, hno, hsent⟩ := publishAll_sends hd .early [] old s hk hy ht hruns
      rw [hno PubKind.noConfusion] at hsent
      exact ⟨i, hsent⟩
    · rw [publishAll_line? hd, if_neg hk]
  case copy => exact fun y c hc htarget hy => ⟨_, rfl, applyForwarded_spec hc htarget hy⟩
  case fill => exact fun f hf hd => ⟨_, rfl, fillArrives_spec hf hd⟩
  case pending => exact fun r hr h => congrArg Host.Outcome.next (finishPending_pending hr h)
  case leaves => exact fun r hr h hsignal => congrArg Host.Outcome.next (finishPending_done hr h hsignal)
  case resident => exact fun u g hg hres => leaveReleased_resident hg hres
  case absent => exact fun u h => leaveReleased_absent h

end Sys2Proof.Machine
end

section
/-! A range of one line in a die that holds two copies of it (12 R284): `cwb.range` publishes the copy that the die finds, which is the first. -/

namespace Sys2Proof.Machine

/-- A copy of line 512 as the home has it, and one changed. -/
def cleanCopy : LineCopy := ⟨512, List.replicate 128 0, none, 0, none⟩
def changedCopy : LineCopy := ⟨512, 1 :: List.replicate 127 0, some ⟨List.replicate 128 0, 0, 0, 0, false⟩, 0, none⟩

/-- A gang whose translations hold one page of twin mode, with the line's address and length in `S[2]` and `S[3]`, on a die that holds both copies. -/
def twoCopies : State :=
  (({ State.reset with
      g := { Gang.vacant with pc := ⟨1, 0⟩ }
      tlb := [⟨0, 0x10000, 4096, 0x10000, true, true, true, true, false, true, 0, false, false⟩] } : State).setR fun r => (r.setS 2 0x10000).setS 3 128).setDie 0
    fun D => { D with lines := [cleanCopy, changedCopy] }

/-- The range is the one line, and its page translates. -/
theorem rangeParts_twoCopies : rangeParts 3 (128 / 4096 + 2) 0x10000 128 twoCopies = .ok [⟨512, 1, false⟩] twoCopies := by
  rfl

/-- The changed copy is still there behind the publication. -/
theorem changedCopy_mem_cleanRange : changedCopy ∈ ((cleanRange 0 [⟨512, 1, false⟩] twoCopies).die 0).lines := by
  decide

/-- Refutes O41: the statement's hypotheses let a die hold two copies of a line, which no word makes. In `twoCopies` `cwb.range` finds the clean one
and publishes nothing; the changed one stays. -/
theorem not_maintenanceWords : ¬ Obligations.MaintenanceWords := by
  unfold Obligations.MaintenanceWords
  intro h
  obtain ⟨-, hclean, -⟩ := h 2 3 0 0 twoCopies
  obtain ⟨-, hlines, -⟩ := hclean 0 [⟨512, 1, false⟩] twoCopies (by decide) (by decide) (by decide)
    ⟨by decide, by decide, by decide, by decide⟩ rangeParts_twoCopies
  exact hlines changedCopy changedCopy_mem_cleanRange (Option.some_ne_none _) ⟨512, 1, false⟩ (List.mem_singleton_self _) (by decide)

end Sys2Proof.Machine
end

section
/-! `mcas` and its locks (12 R279-R282): the number that says which words matched, the event and the stores behind it, the word in its three outcomes, and
LOCK_GRANT. -/

namespace Sys2Proof.Machine

/-! ## Which words matched (12 R282) -/

/-- The sum of the powers of two below n that p selects. -/
def maskOf (p : Nat → Bool) (n : Nat) : Nat := ((List.range n).filter p).foldl (fun a i => a + 2 ^ i) 0

theorem maskOf_succ (p : Nat → Bool) (n : Nat) : maskOf p (n + 1) = 2 ^ n * (p n).toNat + maskOf p n := by
  rw [maskOf, List.range_succ, List.filter_append, List.foldl_append]
  cases h : p n <;> simp [h, maskOf, Nat.add_comm]

theorem maskOf_lt (p : Nat → Bool) (n : Nat) : maskOf p n < 2 ^ n := by
  induction n with
  | zero => exact Nat.one_pos
  | succ n ih =>
    have hbit : (p n).toNat ≤ 1 := Bool.toNat_le _
    rw [maskOf_succ, Nat.pow_succ]
    nlinarith

theorem maskOf_testBit (p : Nat → Bool) (n i : Nat) : (maskOf p n).testBit i = (decide (i < n) && p i) := by
  induction n with
  | zero => simp [maskOf]
  | succ n ih =>
    rw [maskOf_succ, Nat.testBit_two_pow_mul_add _ (maskOf_lt p n), ih]
    rcases Nat.lt_trichotomy i n with h | rfl | h
    · simp [h, Nat.lt_succ_of_lt h]
    · cases p i <;> simp
    · obtain ⟨k, hk⟩ := Nat.exists_eq_add_of_lt h
      have hzero : (p n).toNat.testBit (i - n) = false := Nat.testBit_lt_two_pow (by
        have hbit : (p n).toNat ≤ 1 := Bool.toNat_le _
        have hpow : 2 ^ 1 ≤ 2 ^ (i - n) := Nat.pow_le_pow_right (by decide) (by omega)
        omega)
      rw [if_neg (by omega), hzero]
      simp [show ¬i < n + 1 by omega]

section
variable (ws : List McWord) (old : List Nat) (hit : Bool)

theorem mcResult_eq : mcResult ws old hit = 2 ^ 63 * hit.toNat + maskOf (fun i => decide ((ws.map McWord.cmp).getD i 0 = old.getD i 0)) ws.length := by
  rw [mcResult, maskOf]
  cases hit <;> simp [Nat.add_comm]

variable {ws} (hws : ws.length ≤ 8)
include hws

theorem mcResult_testBit (i : Nat) : (mcResult ws old hit).testBit i = if i < 63 then decide (i < ws.length) && decide ((ws.map McWord.cmp).getD i 0 = old.getD i 0)
    else hit.toNat.testBit (i - 63) := by
  have hsmall := Nat.pow_le_pow_right (n := 2) (by decide) (show ws.length ≤ 63 by omega)
  rw [mcResult_eq, Nat.testBit_two_pow_mul_add _ ((maskOf_lt _ _).trans_le hsmall), maskOf_testBit]

theorem mcResult_word {i : Nat} (hi : i < ws.length) :
    (BitVec.ofNat 64 (mcResult ws old hit)).getLsbD i = decide ((ws.map McWord.cmp).getD i 0 = old.getD i 0) := by
  rw [BitVec.getLsbD_ofNat, mcResult_testBit old hit hws, if_pos (by omega)]
  simp [hi, show i < 64 by omega]

theorem mcResult_all : (BitVec.ofNat 64 (mcResult ws old hit)).getLsbD 63 = hit := by
  rw [BitVec.getLsbD_ofNat, mcResult_testBit old hit hws, if_neg (by decide)]
  cases hit <;> rfl

end

/-! ## The event and the stores behind it -/

theorem toBytes_mod (n x : Nat) : toBytes n (x % 256 ^ n) = toBytes n x := by
  induction n generalizing x with
  | zero => rfl
  | succ n ih =>
    rw [toBytes, toBytes, Nat.pow_succ', Nat.mod_mul_right_div_self, ih]
    congr 1
    exact BitVec.eq_of_toNat_eq (by rw [BitVec.toNat_ofNat, BitVec.toNat_ofNat]; exact Nat.mod_mul_right_mod x 256 (256 ^ n))

/-- The stores that observe their values leave the entry free. -/
theorem mcStores_observed (e : Nat) (x : LogEntry) {t : State} : ∀ (l : List (Dword × Nat)) {s : State}, observed (l.map fun y => (y.1.toNat, y.2)) s = some t →
    mcStores e x (l.map fun y => (y.1, BitVec.ofNat 64 y.2)) s = t.setG fun g => g.setEntry e LogEntry.empty
  | [], s, h => by rw [← show s = t from Option.some.inj h]; rfl
  | (va, v) :: l, s, h => by
    have hv : toBytes 8 (BitVec.ofNat 64 v).toNat = toBytes 8 v := toBytes_mod 8 v
    rw [List.map_cons, observed] at h
    rw [List.map_cons, mcStores, hv]
    cases hw : gangWrite s.agent va.toNat (toBytes 8 v) s with
    | ok bs u => rw [hw] at h; exact mcStores_observed e x l h
    | wait u => rw [hw] at h; exact absurd h (Option.some_ne_none t).symm
    | bad w u => rw [hw] at h; exact absurd h (Option.some_ne_none t).symm

/-- All words are as expected: pair by pair, or list by list. -/
theorem mcAll_eq (ws : List McWord) (z : State) :
    ((ws.zip (mcFound ws z)).all fun x => x.1.cmp = x.2) = decide (ws.map McWord.cmp = mcFound ws z) := by
  rw [mcFound]
  generalize (fun w : McWord => ofBytes (z.mem.read w.fpa w.bytes)) = f
  induction ws with
  | nil => rfl
  | cons w ws ih => simp [ih]

/-- The words replaced, the versions of their lines raised and the die's copies patched. -/
def mcWritten (ws : List McWord) (z : State) : State :=
  ws.foldl (fun s w => patchDie z.agent w.fpa (toBytes w.bytes w.new) s) (bumpLines (mcLines ws)
    { z with mem := ws.foldl (fun m w => m.write w.fpa (toBytes w.bytes w.new)) z.mem })

theorem mcUpdate_eq (ws : List McWord) (z : State) : mcUpdate z.agent ws z =
    (mcFound ws z, decide (ws.map McWord.cmp = mcFound ws z), if decide (ws.map McWord.cmp = mcFound ws z) then mcWritten ws z else z) := by
  have hall := mcAll_eq ws z
  by_cases h : ws.map McWord.cmp = mcFound ws z
  · rw [decide_eq_true h] at hall ⊢
    exact if_pos hall
  · rw [decide_eq_false h] at hall ⊢
    exact if_neg (ne_true_of_eq_false hall)

theorem mcFinish_ends {e : Nat} {x : LogEntry} {a : Access} {ws : List McWord} {z t : State} (h : McEnds ws a.op.reg a.base z t) :
    mcFinish e x a ws z = t.setG fun g => g.setEntry e LogEntry.empty := by
  have hstores := mcStores_observed e x ((mcFound ws z).zipIdx.map fun y => (a.base + BitVec.ofNat 64 (40 + 32 * y.2), y.1)) (s := mcEffect ws a.op.reg z) (t := t)
  simp only [List.map_map, Function.comp_def] at hstores
  simp only [mcFinish, mcUpdate_eq]
  exact hstores h

/-! ## The word -/

/-- The access of an `mcas`. -/
def mcasAccess (d : Nat) (blk : Dword) (s : State) : Access := capture ⟨.mcas, false, true, 8, 0, .dev, d⟩ 1 blk 0 0 (Lanes.all 0) [] s

section
variable {d b : BitVec 5} {l : BitVec 4} {s : State} {e : Nat} (hm : MayIssue (.mcas d b l) s = true) (hopens : s.g.opens = false)
  (hfence : s.g.flies MemKind.fences = false) (hfree : s.g.freeEntry = some e)
include hm hopens hfence hfree

theorem exec_mcas {t : State} (ht : mcRun e (mcasAccess d.toNat (s.src.sreg b.toNat) s) s = some t) : exec (.mcas d b l) s =
    .next (openWindow (wordShapeOf (.mcas d b l)) (if (t.g.entry e).state = .free then none else some e) t) := by
  refine exec_body hm rfl rfl ?_
  unfold mcasAccess at ht
  simp only [mcasWord, hopens, hfree, hfence, ht, Bool.false_eq_true, if_false]
  rfl

/-- A block whose checks fail. -/
theorem exec_mcas_bad {w : Why} {k n : Nat} {u : State} (hc : mcCheck (s.src.sreg b.toNat).toNat s = .bad w k n u) :
    ∃ t, exec (.mcas d b l) s = .next t ∧ (t.g.entry e).state = .faulted ∧ (t.g.entry e).parked = [⟨0, mcFault e w k n⟩] ∧
      t.g.r = u.g.r ∧ t.mem = u.mem ∧ t.locks = u.locks := by
  have hrun : mcRun e (mcasAccess d.toNat (s.src.sreg b.toNat) s) s =
      some (parkFirst e (mcasAccess d.toNat (s.src.sreg b.toNat) s) (mcFault e w k n) [] u) := by
    rw [mcRun, show (mcasAccess d.toNat (s.src.sreg b.toNat) s).base = s.src.sreg b.toNat from rfl, hc]
  refine ⟨_, exec_mcas hm hopens hfence hfree hrun, ?_, ?_, ?_, ?_, ?_⟩
  · rw [openWindow_entry, parkFirst, State.setG_g, setEntry_entry _ _ _ (freeEntry_lt _ _ hfree)]
  · rw [openWindow_entry, parkFirst, State.setG_g, setEntry_entry _ _ _ (freeEntry_lt _ _ hfree)]
  · rw [openWindow_r, parkFirst, State.setG_g, Gang.setEntry_r]
  · rw [openWindow_g]; rfl
  · rw [openWindow_g]; rfl

end

/-- The checks passed: the word starts. -/
theorem mcRun_ok {d b : BitVec 5} {s : State} {e : Nat} {ws : List McWord} {u : State} (hc : mcCheck (s.src.sreg b.toNat).toNat s = .ok ws u) :
    mcRun e (mcasAccess d.toNat (s.src.sreg b.toNat) s) s = some (mcStart e (mcasAccess d.toNat (s.src.sreg b.toNat) s) ws u) := by
  rw [mcRun, show (mcasAccess d.toNat (s.src.sreg b.toNat) s).base = s.src.sreg b.toNat from rfl, hc]

/-- Publishing the words leaves memory, the gang's side and the locks. -/
theorem mcPublish_offCache (d : Nat) (ws : List McWord) (s : State) : (mcPublish d ws s).offCache = s.offCache :=
  foldl_keeps State.offCache (fun s (w : McWord) => sendChanged_offCache s d w.fpa w.bytes) ws s

theorem lockReady_aside (d : Nat) (ws : List McWord) (line : Nat) (s : State) : (lockReady d ws line s).aside = s.aside := by
  have hrecall := (recallSectors_aside (flushRecords d line s) (4 * line) 4 true).trans (flushRecords_aside s d line)
  unfold lockReady
  dsimp only
  split
  · exact (ownedService_aside ..).trans hrecall
  · exact hrecall

theorem askLock_g (line uid : Nat) (s : State) : (askLock line uid s).g = s.g := by
  unfold askLock; split <;> rfl

theorem askLock_mem (line uid : Nat) (s : State) : (askLock line uid s).mem = s.mem := by
  unfold askLock; split <;> rfl

theorem askLock_locks {s t : State} (line uid : Nat) (h : t.locks = s.locks) : (askLock line uid t).locks = (askLock line uid s).locks := by
  unfold askLock
  rw [h]
  split <;> rfl

section
variable {e : Nat} {a : Access} {ws : List McWord} {u : State}

theorem mcStart_runs (hfl : u.inFlight = false) (hfree : ∀ x ∈ mcLines ws, u.locked x = false ∧ lockWaits x u = false) : mcStart e a ws u =
    mcFinish e (a.newEntry u) a ws
      ((mcLines ws).foldl (fun s x => lockReady u.g.die.toNat ws x s) (mcPublish u.g.die.toNat ws { u with nextId := u.nextId + 1 })) :=
  if_pos (by simpa [hfl] using hfree)

theorem mcStart_asks {x : Nat} {r : List Nat}
    (h : u.inFlight = true ∨ ∃ x ∈ mcLines ws, u.locked x = true ∨ lockWaits x u = true) (hlines : mcLines ws = x :: r) :
    mcStart e a ws u = (askLock x u.g.uid (mcPublish u.g.die.toNat ws { u with nextId := u.nextId + 1 })).setG fun g =>
      g.setEntry e { a.newEntry u with todo := 1, got := ws.map McWord.pack } := by
  have hstop : ¬(!u.inFlight && (mcLines ws).all (fun l => !u.locked l && !lockWaits l u)) = true := by
    obtain hfl | ⟨y, hy, hbusy⟩ := h
    · simp [hfl]
    · intro hall
      have := List.all_eq_true.mp (Bool.and_eq_true_iff.mp hall).2 y hy
      obtain hbusy | hbusy := hbusy <;> simp [hbusy] at this
  simp only [mcStart]
  rw [if_neg hstop, hlines]

end

/-! ## LOCK_GRANT (12 R281) -/

/-- The lock of a line given to a gang, with those that still wait for it. -/
def State.giveLock (line u : Nat) (r : List Nat) (s : State) : State :=
  { s with locks := mapIf (fun y => y.line = line) (fun y => { y with holder := u, queue := r }) s.locks }

theorem focus_locks (s : State) (uid : Nat) : (s.focus uid).locks = s.locks := by
  unfold State.focus
  split
  · rfl
  · split <;> rfl

theorem grantLock_free {s : State} {line : Nat} (h : s.locks.find? (fun x => x.line = line && x.holder = 0) = none) : grantLock line s = s := by
  simp only [grantLock, h]

theorem grantLock_waits {s : State} {line : Nat} (h : lockWaits line s = true) : grantLock line s = s := by
  simp only [grantLock, h, if_true]
  split
  · split <;> rfl
  · rfl

section
variable {s : State} {line u : Nat} {x : Lock} {r : List Nat} (hx : s.locks.find? (fun x => x.line = line && x.holder = 0) = some x) (hq : x.queue = u :: r)
  (hw : lockWaits line s = false)
include hx hq hw

theorem grantLock_alone (he : (s.focus u).g.mcasEntry = none) : grantLock line s = (s.focus u).giveLock line u r := by
  simp only [grantLock, hx, hq, hw, he]
  rfl

theorem grantLock_walks {e : Nat} (he : (s.focus u).g.mcasEntry = some e) : grantLock line s = mcNext e line
    ((lockReady (s.focus u).g.die.toNat (((s.focus u).g.entry e).got.map McWord.unpack) line (s.focus u)).giveLock line u r) := by
  simp only [grantLock, hx, hq, hw, he]
  rfl

end

section
variable {e line : Nat} {s : State}

/-- The walk goes to the next line above. -/
theorem mcNext_asks {n : Nat} (h : (mcLines ((s.g.entry e).got.map McWord.unpack)).find? (line < ·) = some n) : mcNext e line s = askLock n s.g.uid s := by
  simp only [mcNext, h]

/-- Behind the last line the event takes place, and the gang gives back its locks. -/
theorem mcNext_ends {a : Access} {w : State} (hlast : (mcLines ((s.g.entry e).got.map McWord.unpack)).find? (line < ·) = none) (ha : (s.g.entry e).acc = some a)
    (hends : McEnds ((s.g.entry e).got.map McWord.unpack) a.op.reg a.base s w) : mcNext e line s =
    { w with
      locks := (w.locks.map fun (y : Lock) => if y.holder = s.g.uid then { y with holder := 0 } else y).filter fun y => !(y.holder = 0 && y.queue.isEmpty) }.setG
      fun g => g.setEntry e LogEntry.empty := by
  simp only [mcNext, hlast, ha, mcFinish_ends hends]
  rfl

end

/-- Settles O42: the word by what its checks answer and by its lines' locks; a granted lock by the `mcas` of the gang that has it. -/
theorem mcasAndLocks : Obligations.McasAndLocks := by
  intro b d l s
  refine ⟨?misaligned, ?bad, ?runs, ?asks, ?result, ?free, ?waits, ?alone, ?walks⟩
  case misaligned =>
    intro e hm hopens hfence hfree halign
    have hc : mcCheck (s.src.sreg b.toNat).toNat s = .bad ⟨3, 1, (s.src.sreg b.toNat).toNat, false⟩ 0 0 s := if_pos (by simpa using halign)
    obtain ⟨t, ht, hstate, hparked, hr, hmem, -⟩ := exec_mcas_bad hm hopens hfence hfree hc
    exact ⟨t, _, ht, hstate, hparked, rfl, by simp [mcFault, faultRec, causeOf], hr, hmem⟩
  case bad => exact fun e w k n u hm hopens hfence hfree hc => exec_mcas_bad hm hopens hfence hfree hc
  case runs =>
    intro e ws u z t hm hopens hfence hfree hc hfl hlines hz hends
    have hrun := mcRun_ok (d := d) (e := e) hc
    have hdone := mcFinish_ends (e := e) (x := (mcasAccess d.toNat (s.src.sreg b.toNat) s).newEntry u) (a := mcasAccess d.toNat (s.src.sreg b.toNat) s) hends
    rw [mcStart_runs hfl hlines, ← hz, hdone] at hrun
    have hexec := exec_mcas hm hopens hfence hfree hrun
    rwa [State.setG_g, setEntry_entry _ _ _ (freeEntry_lt _ _ hfree), if_pos (by rfl)] at hexec
  case asks =>
    intro e ws u x r hm hopens hfence hfree hc hbusy hlines
    have hrun := mcRun_ok (d := d) (e := e) hc
    rw [mcStart_asks hbusy hlines] at hrun
    have hkeep := mcPublish_offCache u.g.die.toNat ws { u with nextId := u.nextId + 1 }
    refine ⟨_, exec_mcas hm hopens hfence hfree hrun, ?_, ?_, ?_, ?_⟩
    · rw [openWindow_g]
      exact askLock_locks x u.g.uid (State.locks_of_aside (State.aside_of_offCache hkeep))
    · rw [openWindow_entry, State.setG_g, setEntry_entry _ _ _ (freeEntry_lt _ _ hfree)]
      rfl
    · rw [openWindow_g]
      exact (askLock_mem ..).trans (State.mem_of_offCache hkeep)
    · rw [openWindow_r, State.setG_g, Gang.setEntry_r, askLock_g, State.g_of_aside (State.aside_of_offCache hkeep)]
  case result => exact fun ws old hit hws _ => ⟨fun i hi => mcResult_word old hit hws hi, mcResult_all old hit hws⟩
  case free => exact fun line h => congrArg Host.Outcome.next (grantLock_free h)
  case waits => exact fun line h => congrArg Host.Outcome.next (grantLock_waits h)
  case alone =>
    intro line x u r hx hq hw he
    refine congrArg Host.Outcome.next ((grantLock_alone hx hq hw he).trans ?_)
    rw [State.giveLock, focus_locks]
  case walks =>
    intro line x u r e hx hq hw he f ws z t
    have hexec : exec (.lockGrant line) s = .next (mcNext e line t) := congrArg Host.Outcome.next (grantLock_walks hx hq hw he)
    have hg : t.g = f.g := State.g_of_aside (t := z) (lockReady_aside f.g.die.toNat ws line f)
    have hws : (t.g.entry e).got.map McWord.unpack = ws := by rw [hg]
    refine ⟨fun n hn => ?_, fun a w hlast ha hends => ?_⟩
    · exact hexec.trans (congrArg Host.Outcome.next (mcNext_asks (by rw [hws]; exact hn)))
    · exact hexec.trans (congrArg Host.Outcome.next (mcNext_ends (by rw [hws]; exact hlast) ha (by rw [hws]; exact hends)))

end Sys2Proof.Machine
end

section
/-! Acquires, releases and fences (12 R269-R275; 06 R192): an access whose lanes are all done, through no record; a lane of an acquire load and of a release
store; the release that a word begins; then the words, and what a release and an acquire leave of a die. -/

namespace Sys2Proof.Machine

/-! ## Lanes (12 R274) -/

theorem foldlM_keeps {σ α β : Type} (v : σ → β) {f : σ → α → Option σ} (hf : ∀ s x t, f s x = some t → v t = v s) {l : List α} {s t : σ}
    (h : l.foldlM f s = some t) : v t = v s := by
  induction l generalizing s with
  | nil => rw [← show s = t from Option.some.inj h]
  | cons x l ih =>
    rw [List.foldlM_cons] at h
    obtain ⟨u, hu, ht⟩ := Option.bind_eq_some_iff.mp h
    exact (ih ht).trans (hf s x u hu)

/-- Without a record an access fetches no block, and its lanes run at once. -/
theorem perform_lanes {x : LogEntry} {a : Access} {e : Nat} {lanes : Word} {s u : State} {f : Fin 32 → State → Option State} (hslot : a.op.slot = 0)
    (hkind : ∀ z, a.op.kind ≠ .ldtr z) (hlane : ∀ L v, (accessLane a ⟨x.got, ⟨x.blocks, []⟩, x.relNo⟩ L v).done? = f L v)
    (hrun : (laneList lanes).foldlM (fun s L => f L s) s = some u) :
    perform x a e lanes [] s = ({ todo := 0, parked := [], blocks := x.blocks }, a.land u) := by
  have hblocks : a.blocksOf lanes s = [] := by rw [Access.blocksOf, Access.record_of_slot_zero hslot]
  refine perform_done (v := s) (k := ⟨x.blocks, []⟩) hkind (if_pos hslot) (by rw [hblocks]; rfl) ?_
  rw [foldlM_done (f := f) (s := s) (fun L v _ => hlane L v) rfl]
  exact hrun

section
variable {a : Access} (k : LaneCtx) (L : Fin 32) (s : State) (hwindow : a.op.window = false) (hslot : a.op.slot = 0) (hbytes : a.op.bytes = 4)
include hwindow hslot hbytes

theorem accessLane_acqLoad (hkind : a.op.kind = .acqLoad) : (accessLane a k L s).done? = acqLane a.op.scope (a.addr L) (a.result L) s := by
  simp only [accessLane, globalLane, acqLane, hwindow, Access.record_of_slot_zero hslot, hbytes, hkind, bne_iff_ne, if_false, Bool.false_eq_true]
  split
  · rfl
  · cases readScoped s.agent a.op.scope (a.addr L) 4 s <;> rfl

theorem accessLane_relStore (hkind : a.op.kind = .relStore) : (accessLane a k L s).done? = relLane a k.relNo (a.addr L) (a.value L) s := by
  simp only [accessLane, globalLane, relLane, hwindow, Access.record_of_slot_zero hslot, hbytes, hkind, bne_iff_ne, if_false, Bool.false_eq_true]
  split
  · rfl
  · rw [show s.agent.straddle = s.straddles from rfl]
    cases updVa s.agent (pointOf s.straddles a.op.scope) .rel (a.addr L) 4 (fun _ => toBytes 4 (a.value L)) s <;> rfl

end

/-- A lane of an acquire load leaves its gang where it is. -/
theorem acqLane_die {sc : Scope} {va d : Nat} {L : Fin 32} {s t : State} (h : acqLane sc va (put32 d L) s = some t) : t.g.die = s.g.die := by
  unfold acqLane at h
  have hread := readScoped_aside s s.agent sc va 4
  split at h
  · exact absurd h.symm (Option.some_ne_none t)
  · split at h
    case h_1 b u hb =>
      rw [hb] at hread
      have hdie : u.g.die = s.g.die := by rw [State.g_of_aside (s := s) (t := u) hread]
      rw [← Option.some.inj h]
      exact hdie
    case h_2 => exact absurd h.symm (Option.some_ne_none t)

/-! ## Acquire loads (12 R272, R274) -/

/-- With no lane parked the places of the lanes are those of their addresses. -/
theorem landed_eq (a : Access) (m : Word) (l : List (Nat × Image)) (s : State) :
    landed a m { todo := 0, parked := [], blocks := l } s = laneFpas s m a.addr := by
  have hall : ((laneList m).filter fun L => ([] : List Parked).all fun x => x.lane != L) = laneList m := List.filter_eq_self.mpr fun _ _ => rfl
  rw [landed, hall]
  rfl

/-- An acquire load whose lanes leave t, and whose acquire then leaves z. -/
theorem acquireLanes_done {e : Nat} {x : LogEntry} {a : Access} {s t z : State} {l : List (Nat × Image)} (hx : x.todo = a.active)
    (htags : x.tags = []) (hp : perform x a e x.todo x.parked s = ({ todo := 0, parked := [], blocks := l }, t)) :
    let fpas := laneFpas t a.active a.addr
    let scp := raisedScope t fpas a.op.scope
    AcquiredFrom scp (if scp = .dev then keepTags (fpas.map fun y => tagOf t y) else []) (if scp = .dev then dropOutrun t.g.die.toNat fpas t else t) z →
      acquireLanes e x a s = z.setG fun g => g.setEntry e LogEntry.empty := by
  intro fpas scp hz
  have haside : (if scp = .dev then dropOutrun t.g.die.toNat fpas t else t).aside = t.aside := by
    split
    · exact State.aside_of_offCache (dropOutrun_offCache ..)
    · rfl
  have hall : x.todo &&& ~~~(0 : Word) = a.active := by rw [show ~~~(0 : Word) = BitVec.allOnes 32 by decide, BitVec.and_allOnes, hx]
  rw [AcquiredFrom, State.g_of_aside haside, State.straddles_of_aside haside] at hz
  unfold acquireLanes
  rw [hp]
  simp only [hall, htags, List.nil_append, List.isEmpty_nil, true_and, landed_eq]
  rw [if_neg (by decide)]
  simp only [fpas, scp] at hz
  rw [hz]
  rfl

/-- A load that nothing stands in front of takes its entry, and leaves it where its lanes and its acquire are done. -/
theorem acquireLoad_done {sh : Shape} {a : Access} {s z : State} {e : Nat} (h0 : a.active ≠ 0) (hfree : s.g.freeEntry = some e)
    (hbusy : s.g.busyBeyondReleases = false) (hflight : overlapsFlight s a = false)
    (hz : acquireLanes e { a.newEntry s with todo := a.active } a { s with nextId := s.nextId + 1 } = z.setG fun g => g.setEntry e LogEntry.empty) :
    acquireLoad sh a s = openWindow sh none (z.setG fun g => g.setEntry e LogEntry.empty) := by
  have hentry : ((z.g.setEntry e LogEntry.empty).entry e).state = .free := by rw [setEntry_entry _ _ _ (freeEntry_lt _ _ hfree)]; rfl
  simp only [acquireLoad, h0, hfree, hbusy, hflight, hz, State.setG_g, hentry, Bool.or_self, Bool.false_eq_true, if_false, if_true]

/-! ## The release that a word begins (12 R270) -/

theorem relBegin_spec {scope : Scope} {fwd : List Nat} {x y : LogEntry} {s u : State} (h : relBegin scope fwd x s = (y, u)) :
    (∃ ids no, y = { x with recs := some ids, relNo := no }) ∧ u.aside = s.aside := by
  have hrel := releaseBegin_aside s scope fwd
  unfold relBegin at h
  obtain ⟨hy, hu⟩ := Prod.mk.inj h
  exact ⟨⟨_, _, hy.symm⟩, hu ▸ hrel⟩

theorem flagLines_aside (a : Access) (s : State) : (flagLines a s).2.aside = s.aside := by
  unfold flagLines
  refine foldl_keeps (fun x : List Nat × State => x.2.aside) (fun x L => ?_) (laneList a.active) ([], s)
  have htranslate := translate_aside x.2 false true (a.addr L)
  grind

section
variable {e : Nat} {x y : LogEntry} {a : Access} {s s1 u : State} {ls : List Nat} (hrecs : x.recs = none) (hflags : flagLines a s = (ls, s1))
  (hbegin : relBegin (storeScope a s1) (if storeScope a s1 = .dev then sortedNats ((s1.waiters.filter fun w => ls.contains w.line).map Waiter.die) else []) x s1 =
    (y, u))
include hrecs hflags hbegin

omit hrecs in
/-- Neither the lines of the flag nor the release change the gang. -/
theorem relBegin_g : u.g = s.g := by
  have hlines := flagLines_aside a s
  rw [hflags] at hlines
  exact (State.g_of_aside (relBegin_spec hbegin).2).trans (State.g_of_aside hlines)

omit hrecs in
theorem relBegin_behindFence : u.g.behindFence y = s.g.behindFence x := by
  obtain ⟨⟨ids, no, rfl⟩, -⟩ := relBegin_spec hbegin
  rw [relBegin_g hflags hbegin]
  rfl

theorem relStore_waits (h : relWaits (storeScope a s1) y u = true ∨ s.g.behindFence x = true) : relStore e x a s = u.setG fun g => g.setEntry e y := by
  have hwait : (relWaits (storeScope a s1) y u || u.g.behindFence y) = true := by
    rw [relBegin_behindFence hflags hbegin]
    exact Bool.or_eq_true_iff.mpr h
  unfold relStore
  simp only [hflags, hrecs, hbegin]
  exact if_pos hwait

theorem relStore_done {w : State} {l : List (Nat × Image)} (hdone : relWaits (storeScope a s1) y u = false) (hfence : s.g.behindFence x = false)
    (hp : perform y a e y.todo y.parked u = ({ todo := 0, parked := [], blocks := l }, w)) : relStore e x a s =
      (if storeScope a s1 = .dev then { w with waiters := w.waiters.filter fun k => !ls.contains k.line } else w).setG fun g =>
        g.setEntry e LogEntry.empty := by
  have hwait : (relWaits (storeScope a s1) y u || u.g.behindFence y) = false := by
    rw [relBegin_behindFence hflags hbegin, hdone, hfence]
    rfl
  unfold relStore
  simp only [hflags, hrecs, hbegin, hwait, hp]
  rfl

end

/-- A store that nothing stands in front of takes its entry, with every lane still to be performed. -/
theorem releaseStore_starts {sh : Shape} {a : Access} {s t : State} {e : Nat} (h0 : a.active ≠ 0) (hfree : s.g.freeEntry = some e) (hopens : s.g.opens = false)
    (hearly : a.early e s = { todo := a.active, parked := [] })
    (ht : relStore e { a.newEntry s with todo := a.active } a { s with nextId := s.nextId + 1 } = t) :
    releaseStore sh a s = openWindow sh (if (t.g.entry e).state = .free then none else some e) t := by
  subst ht
  simp only [releaseStore, h0, hfree, hopens, hearly, Bool.false_eq_true, if_false]
  rfl

/-! ## Fences (12 R275; 06 R192) -/

theorem scopeFabric_iff (sc : Scope) : scopeFabric sc = true ↔ sc = .fab ∨ sc = .sys := by cases sc <;> decide

/-- A report that waits is due. -/
theorem takeReports_eq (sc : Scope) (s : State) : takeReports sc s = ReportsDue sc s := by
  simp only [takeReports, ReportsDue, Bool.and_eq_true, scopeFabric_iff, Bool.not_eq_true', List.isEmpty_eq_false_iff]

section
variable {acq : Bool} {sc : Scope} {e : Nat} {x y : LogEntry} {s u : State} (hrecs : x.recs = none) (hbegin : relBegin sc [] x s = (y, u))
include hrecs hbegin

theorem fenceStep_waits (h : relWaits sc y u = true) : fenceStep true acq sc e x s = u.setG fun g => g.setEntry e y := by
  simp [fenceStep, hrecs, hbegin, h]

theorem fenceStep_released (h : relWaits sc y u = false) :
    fenceStep true false sc e x s = (ReportsDue sc u).setG fun g => g.setEntry e LogEntry.empty := by
  simp [fenceStep, hrecs, hbegin, h, takeReports_eq]

theorem fenceStep_both {w : State} (h : relWaits sc y u = false) (hw : AcquiredFrom sc [] u w) :
    fenceStep true true sc e x s = (ReportsDue sc w).setG fun g => g.setEntry e LogEntry.empty := by
  rw [AcquiredFrom] at hw
  simp [fenceStep, hrecs, hbegin, h, hw, takeReports_eq]

end

theorem fenceStep_acquired {sc : Scope} {e : Nat} {x : LogEntry} {s u : State} (h : AcquiredFrom sc [] s u) :
    fenceStep false true sc e x s = u.setG fun g => g.setEntry e LogEntry.empty := by
  rw [AcquiredFrom] at h
  simp [fenceStep, h]

theorem fenceWord_step {rel acq : Bool} {sc : Scope} {s : State} {e : Nat} (hfree : s.g.freeEntry = some e) (hopens : s.g.opens = false) :
    fenceWord rel acq sc s = fenceStep rel acq sc e (fenceEntry rel acq sc s) { s with nextId := s.nextId + 1 } := by
  simp only [fenceWord, hfree, hopens]
  rfl

/-! ## What a release and an acquire leave (12 R270, R272) -/

/-- A release of the die leaves none of its lines dirty, and waits for every record that it has in flight. -/
theorem releaseBegin_die {s u : State} {ids : List Nat} (h : releaseBegin .die [] s = (ids, u)) :
    (∀ n x, (u.die s.g.die.toNat).line? n = some x → x.twin = none) ∧ ∀ r ∈ u.records, r.die = s.g.die.toNat → r.id ∈ ids := by
  have hd : s.g.die.toNat < 8 := s.g.die.isLt
  let s1 : State := s.setDie s.g.die.toNat fun D => { D with relNo := D.relNo + 1 }
  obtain ⟨hids, hu⟩ : ((publishDie s.g.die.toNat [] s).records.filter (fun r => r.die = s.g.die.toNat)).map (fun r => r.id) = ids ∧
      publishDie s.g.die.toNat [] s = u := Prod.mk.inj h
  have hall : u = publishAll s.g.die.toNat .release [] (s1.die s.g.die.toNat).dirty s1 := hu.symm
  refine ⟨fun n x hx => ?_, fun r hr hdie => ?_⟩
  · rw [hall, publishAll_line? hd] at hx
    split at hx
    case isTrue =>
      obtain ⟨y, -, rfl⟩ := Option.map_eq_some_iff.mp hx
      rfl
    case isFalse hclean =>
      by_contra htwin
      have hmem : x ∈ (s1.die s.g.die.toNat).lines := List.mem_of_find?_eq_some hx
      exact hclean (List.mem_map.mpr ⟨x, List.mem_filter.mpr ⟨hmem, Option.isSome_iff_ne_none.mpr htwin⟩, Die.line?_place hx⟩)
  · rw [← hids, hu]
    exact List.mem_map_of_mem (List.mem_filter.mpr ⟨hr, decide_eq_true hdie⟩)

theorem acquired_die {s u : State} (h : AcquiredFrom .die [] s u) : (u.core s.g.coreIx).l1 = [] ∧ u.mem = s.mem ∧ u.g = s.g := by
  obtain rfl : dropL1 s.g.coreIx (fun _ => true) s = u := Option.some.inj h
  exact ⟨by rw [dropL1, State.core_setCore]; exact List.filter_eq_nil_iff.mpr fun _ _ => Bool.false_ne_true, rfl, rfl⟩

/-- The lines that an acquire keeps with no tag are dirty ones. -/
theorem flashDie_lines {d : Nat} (hd : d < 8) (s : State) : ∀ x ∈ ((flashDie d [] s).die d).lines, x.twin ≠ none := by
  intro x hx
  rw [flashDie, State.die_setDie _ _ hd] at hx
  obtain ⟨y, hy, rfl⟩ := List.mem_map.mp hx
  have htwin : y.twin.isSome = true := by
    have hkept := (List.mem_filter.mp hy).2
    cases htag : y.tag <;> simpa [htag] using hkept
  obtain ⟨t, ht⟩ := Option.isSome_iff_exists.mp htwin
  simp [rebaseLine, ht]

theorem acquired_dev {s u : State} (h : AcquiredFrom .dev [] s u) (hcore : s.g.core.toNat < 40) : (u.core s.g.coreIx).l1 = [] ∧
    (∀ x ∈ (u.die s.g.die.toNat).lines, x.twin ≠ none) ∧ (u.die s.g.die.toNat).epoch = (s.die s.g.die.toNat).epoch + 1 ∧ u.mem = s.mem := by
  have hd : s.g.die.toNat < 8 := s.g.die.isLt
  have hix : s.g.coreIx / 40 = s.g.die.toNat := by simp only [Gang.coreIx, coreIndex]; omega
  have hu : u = flashDie s.g.die.toNat [] (dropL1 s.g.coreIx (fun _ => true) s) := by
    simp only [AcquiredFrom, acquireAt, hix] at h
    split at h
    case isTrue hgang => exact absurd hgang (by decide)
    case isFalse =>
      split at h
      · exact absurd h.symm (Option.some_ne_none u)
      · exact (Option.some.inj h).symm
  have hcores : u.core s.g.coreIx = (dropL1 s.g.coreIx (fun _ => true) s).core s.g.coreIx := State.core_of_cores (by rw [hu]; rfl) _
  refine ⟨?_, by rw [hu]; exact flashDie_lines hd _, ?_, by rw [hu]; rfl⟩
  · rw [hcores, dropL1, State.core_setCore]
    exact List.filter_eq_nil_iff.mpr fun _ _ => Bool.false_ne_true
  · rw [hu, flashDie, State.die_setDie _ _ hd]
    rfl

/-- Settles O40: the words by their one step, in the cases of their release and acquire; what a release and an acquire leave, line by line. -/
theorem acquiresReleasesFences : Obligations.AcquiresReleasesFences := by
  intro v a b sc l s
  refine ⟨?noLoad, ?noStore, ?load, ?store, ?fenceRel, ?fenceAcq, ?fence, fun _ _ => releaseBegin_die, fun _ => acquired_die, fun _ => acquired_dev⟩
  case noLoad => exact fun hm h0 => exec_body hm rfl rfl (if_pos h0)
  case noStore => exact fun hm h0 => exec_body hm rfl rfl (if_pos h0)
  case load =>
    intro x e u z hm h0 hfree hbusy hflight hrun hz
    have hlane (k : LaneCtx) (L : Fin 32) (t : State) : (accessLane x k L t).done? = acqLane (scopeOf sc.toNat) (laneAddr s a.toNat b.toNat L) (put32 v.toNat L) t :=
      accessLane_acqLoad k L t rfl rfl rfl rfl
    have hdie : (x.land u).g.die = s.g.die := by
      have hlanes := foldlM_keeps (fun t : State => t.g.die) (fun t L w h => acqLane_die h) hrun
      exact (congrArg Gang.die (State.g_of_aside (State.aside_of_offCache (landWrites_offCache u _)))).trans hlanes
    rw [← hdie] at hz
    have hp := perform_lanes (a := x) (x := { x.newEntry s with todo := x.active }) (e := e) rfl (fun _ => nofun) (fun L t => hlane _ L t) hrun
    exact exec_body hm rfl rfl (acquireLoad_done h0 hfree hbusy hflight (acquireLanes_done rfl rfl hp hz))
  case store =>
    intro x e ls s1 scp y u hm h0 hfree hopens hearly hflags hscp hbegin
    subst hscp
    have hstart {t : State} := releaseStore_starts (a := x) (sh := wordShapeOf (.stRelB32 v a b sc l)) (t := t) h0 hfree hopens hearly
    obtain ⟨⟨ids, no, hy⟩, -⟩ := relBegin_spec hbegin
    refine ⟨fun hwait => ?waits, fun w hdone hfence hrun => ?done⟩
    case waits =>
      have hbehind : relWaits (storeScope x s1) y u = true ∨ s.g.behindFence { x.newEntry s with todo := x.active } = true := by
        refine hwait.imp_right fun ⟨z, hz, hflies, hseq⟩ => ?_
        exact List.any_eq_true.mpr ⟨z, hz, Bool.and_eq_true_iff.mpr ⟨hflies, decide_eq_true hseq⟩⟩
      have hexec := exec_body hm rfl rfl (hstart (relStore_waits rfl hflags hbegin hbehind))
      have hflying : y.state = .inFlight := by rw [hy]; rfl
      rwa [State.setG_g, setEntry_entry _ _ _ (freeEntry_lt _ _ hfree), hflying, if_neg (by decide)] at hexec
    case done =>
      have hbehind : s.g.behindFence { x.newEntry s with todo := x.active } = false :=
        List.any_eq_false.mpr fun z hz => by simp [List.any_eq_false.mp hfence z hz]
      have hp : perform y x e y.todo y.parked u = ({ todo := 0, parked := [], blocks := y.blocks }, x.land w) := by
        have hlane (L : Fin 32) (t : State) := accessLane_relStore (a := x) ⟨y.got, ⟨y.blocks, []⟩, y.relNo⟩ L t rfl rfl rfl rfl
        have htodo : y.todo = s.src.emask ∧ y.parked = [] := by rw [hy]; exact ⟨rfl, rfl⟩
        rw [htodo.1, htodo.2]
        exact perform_lanes (a := x) rfl (fun _ => nofun) hlane hrun
      have hexec := exec_body hm rfl rfl (hstart (relStore_done rfl hflags hbegin hdone hbehind hp))
      rwa [State.setG_g, setEntry_entry _ _ _ (freeEntry_lt _ _ hfree), if_pos (by rfl)] at hexec
  case fenceRel =>
    intro e y u hm hfree hopens hbegin
    exact ⟨fun h => exec_body hm rfl rfl ((fenceWord_step hfree hopens).trans (fenceStep_waits rfl hbegin h)),
      fun h => exec_body hm rfl rfl ((fenceWord_step hfree hopens).trans (fenceStep_released rfl hbegin h))⟩
  case fenceAcq => exact fun e u hm hfree hopens hu => exec_body hm rfl rfl ((fenceWord_step hfree hopens).trans (fenceStep_acquired hu))
  case fence =>
    intro e y u w hm hfree hopens hbegin h hw
    exact exec_body hm rfl rfl ((fenceWord_step hfree hopens).trans (fenceStep_both rfl hbegin h hw))

end Sys2Proof.Machine
end

section
/-! What the fabric's words and events share (15): gangs found by their numbers after counts and reports, and what these leave of the state; what recalls,
writes at a home and drains leave; the planes of an address; the answers of the fabric engine. -/

namespace Sys2Proof.Machine

/-! ## Gangs by their numbers -/

theorem find?_mapIf_of_fits {α : Type} {p q : α → Bool} {f : α → α} (hf : ∀ x, p (f x) = p x) (l : List α) :
    (mapIf q f l).find? p = (l.find? p).map fun x => if q x then f x else x := by
  rw [mapIf, List.find?_map]
  congr 2
  funext x
  rw [Function.comp_apply]
  split
  · exact hf x
  · rfl

/-- A gang changed, its number and status apart, is found as changed. -/
theorem State.gang?_updGang {s : State} {u : Nat} {g : Gang} {f : Gang → Gang} (hf : ∀ g, (f g).uid = g.uid ∧ (f g).status = g.status)
    (h : s.gang? u = some g) : (s.updGang u f).gang? u = some (f g) := by
  obtain ⟨huid, hstatus⟩ : (f s.g).uid = s.g.uid ∧ (f s.g).status = s.g.status := hf s.g
  unfold State.gang? at h
  unfold State.updGang
  by_cases hturn : s.g.uid = u ∧ s.g.status ≠ .vacant
  · rw [if_pos hturn] at h
    rw [if_pos hturn, State.gang?, if_pos (by rwa [huid, hstatus]), ← Option.some.inj h]
  · rw [if_neg hturn] at h
    have hfits := List.find?_some h
    rw [if_neg hturn, State.gang?, if_neg hturn, find?_mapIf_of_fits (fun x => by rw [(hf x).1, (hf x).2]), h, Option.map_some, if_pos hfits]

/-- The state, the gangs apart. -/
def State.butGangs (s : State) : State := { s with g := .vacant, gangs := [] }

theorem State.updGang_butGangs (s : State) (u : Nat) (f : Gang → Gang) : (s.updGang u f).butGangs = s.butGangs := by
  unfold State.updGang
  split <;> rfl

theorem addOutstanding_butGangs (u : Nat) (s : State) : (addOutstanding u s).butGangs = s.butGangs := s.updGang_butGangs u _
theorem postReport_butGangs (u : Nat) (w : Why) (s : State) : (postReport u w s).butGangs = s.butGangs := s.updGang_butGangs u _
theorem fallAt_butGangs (l : List Nat) (s : State) : (fallAt l s).butGangs = s.butGangs :=
  foldl_keeps State.butGangs (fun s u => s.updGang_butGangs u _) l s

section
variable {s t : State} (h : t.butGangs = s.butGangs)
include h

theorem State.mem_of_butGangs : t.mem = s.mem := (congrArg State.mem h :)
theorem State.pkg_of_butGangs : t.pkg = s.pkg := (congrArg State.pkg h :)
theorem State.packets_of_butGangs : t.packets = s.packets := (congrArg State.packets h :)
theorem State.rounds_of_butGangs : t.rounds = s.rounds := (congrArg State.rounds h :)
theorem State.contribs_of_butGangs : t.contribs = s.contribs := (congrArg State.contribs h :)
theorem State.deliveries_of_butGangs : t.deliveries = s.deliveries := (congrArg State.deliveries h :)
theorem State.residues_of_butGangs : t.residues = s.residues := (congrArg State.residues h :)

end

/-- A gang that counts one less. -/
theorem gang?_fallAt {s : State} {u : Nat} {g : Gang} (h : s.gang? u = some g) :
    (fallAt [u] s).gang? u = some { g with outstanding := g.outstanding - 1 } :=
  State.gang?_updGang (fun _ => ⟨rfl, rfl⟩) h

theorem postReport_eq (u : Nat) (w : Why) (s : State) : postReport u w s = s.updGang u (withReport w) :=
  congrArg (s.updGang u) (funext fun g => by simp only [withReport, causeOf, Nat.mul_comm w.group])

theorem gang?_postReport {s : State} {u : Nat} {g : Gang} (w : Why) (h : s.gang? u = some g) :
    (postReport u w s).gang? u = some (withReport w g) := by
  have hkeeps (g : Gang) : (withReport w g).uid = g.uid ∧ (withReport w g).status = g.status := by
    unfold withReport
    split <;> exact ⟨rfl, rfl⟩
  rw [postReport_eq, State.gang?_updGang hkeeps h]

/-- A gang that counts one more. -/
theorem gang?_addOutstanding {s : State} {u : Nat} {g : Gang} (h : s.gang? u = some g) :
    (addOutstanding u s).gang? u = some { g with outstanding := g.outstanding + 1 } :=
  State.gang?_updGang (fun _ => ⟨rfl, rfl⟩) h

/-- The gang whose turn it is counts one more. -/
theorem addOutstanding_turn {s : State} (h : s.g.status ≠ .vacant) :
    addOutstanding s.g.uid s = { s with g := { s.g with outstanding := s.g.outstanding + 1 } } := if_pos ⟨rfl, h⟩

/-! ## Recalls, writes at a home, drains (12 R257-R260; 15 R330) -/

/-- The state, apart from memory with its lines' versions and directory, from what cores, dies and translations hold, and from packets posted. -/
def State.offDrains (s : State) : State :=
  { s with mem := [], versions := [], tags := [], hostLines := [], directory := [], cores := [], dies := Vector.replicate 8 .reset
           packets := [], seqs := [], nextId := 0, tlb := [] }

section
variable {s t : State} (h : t.offDrains = s.offDrains)
include h

theorem State.g_of_offDrains : t.g = s.g := (congrArg State.g h :)
theorem State.swAllocs_of_offDrains : t.swAllocs = s.swAllocs := (congrArg State.swAllocs h :)
theorem State.switches_of_offDrains : t.switches = s.switches := (congrArg State.switches h :)

end

section
variable (s : State)

theorem bumpLines_offDrains (ls : List Nat) : (bumpLines ls s).offDrains = s.offDrains := foldl_keeps State.offDrains (fun _ _ => by rfl) ls s

theorem recallGrain_offDrains (e : DirEntry) (keep : Bool) : (recallGrain e keep s).offDrains = s.offDrains := by
  unfold recallGrain
  extract_lets s1 s2
  have h1 : s1.offDrains = s.offDrains := by
    simp only [s1]
    split
    · rw [bumpLines_offDrains]; split <;> rfl
    · rfl
  exact (foldl_keeps State.offDrains (fun _ _ => by rfl) _ s1).trans h1

theorem recallSectors_offDrains (base n : Nat) (keep : Bool) : (recallSectors base n keep s).offDrains = s.offDrains :=
  foldl_keeps State.offDrains (fun s e => recallGrain_offDrains s e keep) _ s

theorem homeStore_offDrains (a : Nat) (bs : List Byte) : (homeStore a bs s).offDrains = s.offDrains := recallSectors_offDrains s _ _ true

theorem drainEntry_offDrains (c line : Nat) : (drainEntry c line s).offDrains = s.offDrains := by
  unfold drainEntry
  split <;> rfl

end

/-- Nothing drains where the core combines nothing for the line. -/
theorem drainEntry_none {c line : Nat} {s : State} (h : ∀ e ∈ (s.core c).wc, e.line ≠ line) : drainEntry c line s = s := by
  have hnone : (s.core c).wc.find? (fun e => e.line = line) = none := List.find?_eq_none.mpr fun e he => by simpa using h e he
  simp only [drainEntry, hnone]

/-! ## Planes and switches (15 R326, R336, R341) -/

theorem planesFor_switch {s : State} {fpa : Nat} (h : isSwitch fpa = true) (critical : Bool) :
    planesFor s critical fpa = (planeOf s fpa).toList := by
  cases critical
  · rfl
  · exact if_pos h

theorem planeOf_switch {s : State} {fpa : Nat} {w : Switch} (h : isSwitch fpa = true) (hw : s.switch? (switchOf fpa) = some w) :
    planeOf s fpa = if s.linkUp w.plane then some w.plane else none := by
  rw [planeOf, if_pos h, hw]

theorem destOf_switch {fpa : Nat} (h : isSwitch fpa = true) : destOf fpa = 8192 + switchOf fpa := if_pos h

theorem switch?_id {s : State} {id : Nat} {w : Switch} (h : s.switch? id = some w) : w.id = id := by
  simpa using List.find?_some h

theorem switchPresent_of_state {s : State} {id : Nat} {w : Switch} (h : s.switch? id = some w) (hw : w.state = .present) :
    switchPresent s id = true :=
  List.any_eq_true.mpr ⟨w, List.mem_of_find?_eq_some h, by simp [switch?_id h, hw]⟩

theorem generation_of_switch? {s : State} {id : Nat} {w : Switch} (h : s.switch? id = some w) : s.generation id = w.generation := by
  rw [State.generation, h, Option.map_some, Option.getD_some]

/-! ## The fabric engine's answers (15 R360) -/

theorem rejectFabric_eq (code x : Nat) (s : State) :
    rejectFabric code x s = .bad ⟨BitVec.ofNat 13 (0xC00 + code), BitVec.ofNat 96 (x % 2 ^ 64)⟩ s := by
  simp only [rejectFabric, faultRec, causeOf]

section
variable {i : Instr} {s u : State} {m : Word} {e : Nat} {mk : State → Access} {accept : Access → Nat → State → Accept} (ho : Offers i s m e)
  (hi : exec i s = .next (issue (wordShapeOf i) (engineWord (wordShapeOf i) mk accept) s)) (hf : isFifoWord i = false) (hm : (mk s).lanes = m)
include ho hi hf hm

theorem engine_rejectsFabric {code x : Nat} (ha : accept (mk s) e s = rejectFabric code x u) : RejectedFabric i m e s u code x :=
  engine_bad i s u m e mk accept _ ho hi hf hm (ha.trans (rejectFabric_eq code x u))

theorem engine_answers {d : BitVec 5} {x : Nat} (hreg : (mk s).op.reg = d.toNat) (ha : accept (mk s) e s = answer (mk s) x u) :
    Returns i s u d x :=
  engine_done i s _ m e mk accept ho hi hf hm (by rw [ha, answer, hreg])

end

end Sys2Proof.Machine
end

section
/-! The words of switch memory (15 R341-R346): the aperture's bases, what each word answers in the order of R345, and what an unmapping leaves. -/

namespace Sys2Proof.Machine

/-! ## The aperture (15 R343) and addresses of switch memory (15 R341) -/

theorem apertureIndex_eq_some {va x : Nat} :
    apertureIndex va = some x ↔ va % 2 ^ 25 = 0 ∧ apertureBase ≤ va ∧ va < 2 ^ 57 ∧ x = bits va 41 25 := by
  unfold apertureIndex
  split
  case isTrue h =>
    obtain ⟨halign, hlo, hhi⟩ := h
    exact ⟨fun hx => ⟨halign, hlo, hhi, (Option.some.inj hx).symm⟩, fun ⟨_, _, _, hx⟩ => hx ▸ rfl⟩
  case isFalse h => exact ⟨nofun, fun ⟨halign, hlo, hhi, _⟩ => absurd ⟨halign, hlo, hhi⟩ h⟩

section
variable {id gen k : Nat}

theorem isSwitch_switchBase : isSwitch (switchBase id gen k) = true :=
  decide_eq_true (by unfold switchBase; omega)

section
variable (hid : id < 4096) (hgen : gen < 4096) (hk : k < 2 ^ 14)
include hid hgen hk

theorem switchOf_switchBase : switchOf (switchBase id gen k) = id := by
  simp only [switchOf, switchBase, bits]
  omega

theorem destOf_switchBase : destOf (switchBase id gen k) = 8192 + id := by
  rw [destOf_switch isSwitch_switchBase, switchOf_switchBase hid hgen hk]

/-- The entries of a mapping from a granule upward (15 R343). -/
theorem mapGranules_switchBase (t : BitVec 6) (i n : Nat) (s : State) : mapGranules t i (switchBase id gen k) n s =
    (List.range n).foldl (fun v j => writeAperture t (i + j)
      (1 + (if j = 0 then 2 + n * 2 ^ 40 else 0) + id * 2 ^ 2 + (gen * 2 ^ 14 + k + j) * 2 ^ 14) v) s := by
  have hgranule : bits (switchBase id gen k) 50 25 = gen * 2 ^ 14 + k := by
    simp only [switchBase, bits]
    omega
  simp only [mapGranules, switchOf_switchBase hid hgen hk, hgranule]
  rfl

end

end

section
variable {t : BitVec 6} {ix n : Nat} {s : State}

theorem mapStatus_outside (h : 131072 < ix + n) : mapStatus t ix n s = some 5 := if_pos h

theorem mapStatus_used (h : ix + n ≤ 131072) (hused : ∃ j, j < n ∧ readAperture t (ix + j) s % 2 = 1) : mapStatus t ix n s = some 3 := by
  rw [mapStatus, if_neg (by omega)]
  exact if_pos (by simpa [bits] using hused)

end

/-! ## Runs of granules (15 R345, R346) -/

theorem runFree_first {s : State} {id k n : Nat} (hn : 1 ≤ n) (h : runFree s id k n = true) : k < 12288 := by
  have hfree : granuleFree s id (k + 0) = true := List.all_eq_true.mp h 0 (List.mem_range.mpr hn)
  simp only [granuleFree, Bool.and_eq_true, decide_eq_true_eq] at hfree
  exact hfree.1

theorem granuleRun_none {s : State} {id n : Nat} (h : ∀ k, runFree s id k n = false) : granuleRun s id n = none := by
  rw [granuleRun, if_neg (by simp [h])]
  exact List.find?_eq_none.mpr fun k _ => by simp [h]

theorem granuleRun_some {s : State} {id n : Nat} (hn : 1 ≤ n) (h : ∃ k, runFree s id k n = true) :
    ∃ k, granuleRun s id n = some k ∧ runFree s id k n = true := by
  obtain ⟨j, hj⟩ := h
  unfold granuleRun
  split
  case isTrue hpick => exact ⟨_, rfl, hpick⟩
  case isFalse =>
    have hsome := List.find?_isSome (p := fun k => runFree s id k n).mpr ⟨j, List.mem_range.mpr (runFree_first hn hj), hj⟩
    obtain ⟨k, hk⟩ := Option.isSome_iff_exists.mp hsome
    exact ⟨k, hk, List.find?_some (p := fun k => runFree s id k n) hk⟩

/-! ## Requests to a switch (15 R327, R339) -/

section
variable {fpa : Nat} {body : State → Accept} {s : State} (hs : isSwitch fpa = true)
include hs

theorem askSwitch_cut (h : planeOf s fpa = none) : askSwitch fpa body s = rejectFabric 1 fpa s := by
  rw [askSwitch, planesFor_switch hs, h]
  rfl

theorem askSwitch_sends (h : (planeOf s fpa).isSome = true) : askSwitch fpa body s = body (takeSeq (destOf fpa) s) := by
  obtain ⟨p, hp⟩ := Option.isSome_iff_exists.mp h
  rw [askSwitch, planesFor_switch hs, hp]
  rfl

variable {w : Switch} (hw : s.switch? (switchOf fpa) = some w)
include hw

theorem askSwitch_linkDown (h : s.linkUp w.plane = false) : askSwitch fpa body s = rejectFabric 1 fpa s :=
  askSwitch_cut hs (by rw [planeOf_switch hs hw, h]; rfl)

theorem askSwitch_linkUp (h : s.linkUp w.plane = true) : askSwitch fpa body s = body (takeSeq (8192 + switchOf fpa) s) := by
  rw [askSwitch_sends hs (by rw [planeOf_switch hs hw, h]; rfl), destOf_switch hs]

end

/-! ## A word of switch memory, in its turn or behind an earlier one (15 R344) -/

theorem free_not_inFlight {g : Gang} {e : Nat} (h : g.freeEntry = some e) : (g.entry e).state ≠ .inFlight := by
  have hfree : (g.entry e).state = .free := by simpa using List.find?_some h
  rw [hfree]
  decide

theorem ownEntry_new {a : Access} {e : Nat} {s : State} (h : (s.g.entry e).state ≠ .inFlight) :
    ownEntry a e s = ({ a.newEntry s with engine := true, holds := true }, { s with nextId := s.nextId + 1 }) := if_neg h

/-- A command that stands: its entry, and what else is left. -/
theorem stands_spec {i : Instr} {e : Nat} {x : LogEntry} {u s : State} (he : e < 4) (h : Stands i e x u s) :
    ∃ t, exec i s = .next t ∧ t.g.entry e = { x with recs := some (x.recs.getD []) } ∧ t.g.r = u.g.r ∧ t = { u with g := t.g } := by
  refine ⟨_, h, ?entry, ?regs, ?rest⟩
  case entry => rw [openWindow_entry, State.setG_g, setEntry_entry _ _ _ he]
  case regs => rw [openWindow_r, State.setG_g, Gang.setEntry_r]
  case rest => exact openWindow_g ..

section
variable {i : Instr} {s : State} {e : Nat} {mk : State → Access} {body : Access → Nat → State → Accept}
  (hi : exec i s = .next (issue (wordShapeOf i) (engineWord (wordShapeOf i) mk (swmTurn body)) s)) (hf : isFifoWord i = false)
  (hm : (mk s).lanes = 1)
include hi hf hm

/-- A word that stands in its log entry, from the state in which it does. -/
theorem swm_stands {x : LogEntry} {u : State} (ho : SwmOffers i s e) (ha : body (mk s) e s = standIn e x u) : Stands i e x u s := by
  obtain ⟨ho, hturn⟩ := ho
  refine engine_pending i s u x e mk (swmTurn body) ⟨ho.1, ho.2.2.2.2⟩ (offers_stays i s 1 e ho) (offers_performed i s 1 e ho) ?_ hi hf
    ((if_neg (by simp [hturn])).trans ha)
  rw [hm]
  decide

theorem swm_behind (ho : Offers i s 1 e) (hbehind : swmBehind e s = true) : ∃ t, exec i s = .next t ∧ (t.g.entry e).state = .inFlight ∧
    (t.g.entry e).recs = some [] ∧ t.g.r = s.g.r ∧ t.mem = s.mem ∧ t.swAllocs = s.swAllocs := by
  have ha : swmTurn body (mk s) e s = standIn e { (mk s).newEntry s with engine := true, holds := true } { s with nextId := s.nextId + 1 } := by
    rw [swmTurn, if_pos hbehind, tryLater, ownEntry_new (free_not_inFlight ho.2.2.2.2)]
  have hstands := engine_pending i s _ _ e mk (swmTurn body) ⟨ho.1, ho.2.2.2.2⟩ (offers_stays i s 1 e ho) (offers_performed i s 1 e ho)
    (by rw [hm]; decide) hi hf ha
  obtain ⟨t, ht, hentry, hr, hu⟩ := stands_spec (freeEntry_lt _ _ ho.2.2.2.2) hstands
  exact ⟨t, ht, by rw [hentry]; rfl, by rw [hentry]; rfl, hr, by rw [hu], by rw [hu]⟩

theorem swm_rejects {u : State} {code x : Nat} (ho : SwmOffers i s e) (ha : body (mk s) e s = rejectFabric code x u) :
    RejectedFabric i 1 e s u code x :=
  engine_rejectsFabric ho.1 hi hf hm ((if_neg (by simp [ho.2])).trans ha)

theorem swm_answers {u : State} {d : BitVec 5} {x : Nat} (ho : SwmOffers i s e) (hreg : (mk s).op.reg = d.toNat)
    (ha : body (mk s) e s = answer (mk s) x u) : Returns i s u d x :=
  engine_answers ho.1 hi hf hm hreg ((if_neg (by simp [ho.2])).trans ha)

end

/-! ## `swm.alloc` (15 R345) -/

/-- The control word of an allocation asks for 1 to 12,288 granules and leaves its reserved bits clear. -/
def AllocControl (c : Nat) : Prop := 1 ≤ bits c 29 16 ∧ bits c 29 16 ≤ 12288 ∧ bits c 15 12 = 0 ∧ bits c 63 30 = 0

theorem allocControl_iff (c : Nat) : AllocControl c ↔
    (bits c 29 16 = 0 || 12288 < bits c 29 16 || bits c 15 12 != 0 || bits c 63 30 != 0) = false := by
  simp only [AllocControl, Bool.or_eq_false_iff, decide_eq_false_iff_not, bne_eq_false_iff_eq]
  omega

theorem bits_switch_lt (x : Nat) : bits x 11 0 < 4096 := Nat.mod_lt _ (by decide)

/-- What a switch that is reached answers to an allocation of n granules that are mapped from an aperture entry on. -/
def grantGranules (a : Access) (e : Nat) (t : BitVec 6) (ix n id gen : Nat) (s : State) : Accept :=
  if quotaOf s t id < granulesHeld s t id + n then answer a 1 s
  else
    match granuleRun s id n with
    | none => answer a 2 s
    | some k =>
      if apertureWaits t ix n s then tryLater a e s
      else answer a (switchBase id gen k) (mapGranules t ix (switchBase id gen k) n (zeroRange (switchBase id gen k) (n * 2 ^ 25)
        { s with tick := s.tick + 1, swAllocs := s.swAllocs ++ [⟨id, gen, k, n, t⟩] }))

section
variable {a : Access} {e : Nat} {s : State}

theorem acceptAlloc_noIndex (h : apertureIndex a.base.toNat = none) : acceptAlloc a e s = rejectFabric 0x10 a.base.toNat s := by
  simp only [acceptAlloc, h]

variable {ix : Nat} (hix : apertureIndex a.base.toNat = some ix)
include hix

theorem acceptAlloc_badControl (h : ¬AllocControl a.idx.toNat) : acceptAlloc a e s = rejectFabric 0x10 a.idx.toNat s := by
  rw [allocControl_iff, Bool.not_eq_false] at h
  simp only [acceptAlloc, hix, h, if_true]

variable (hc : AllocControl a.idx.toNat)
include hc

theorem acceptAlloc_status {x : Nat} (h : mapStatus s.g.tenant ix (bits a.idx.toNat 29 16) s = some x) :
    acceptAlloc a e s = answer a x s := by
  simp only [acceptAlloc, hix, (allocControl_iff _).mp hc, Bool.false_eq_true, if_false, h]

variable (hfits : mapStatus s.g.tenant ix (bits a.idx.toNat 29 16) s = none)
include hfits

theorem acceptAlloc_absent (h : switchPresent s (bits a.idx.toNat 11 0) = false) : acceptAlloc a e s = answer a 4 s := by
  simp only [acceptAlloc, hix, (allocControl_iff _).mp hc, Bool.false_eq_true, if_false, hfits, h, Bool.not_false, if_true]

variable {w : Switch} (hw : s.switch? (bits a.idx.toNat 11 0) = some w) (hpresent : w.state = .present)
include hw hpresent

theorem acceptAlloc_asks : acceptAlloc a e s = askSwitch (switchBase (bits a.idx.toNat 11 0) w.generation 0)
    (grantGranules a e s.g.tenant ix (bits a.idx.toNat 29 16) (bits a.idx.toNat 11 0) w.generation) s := by
  simp only [acceptAlloc, hix, (allocControl_iff _).mp hc, Bool.false_eq_true, if_false, hfits, switchPresent_of_state hw hpresent, Bool.not_true,
    generation_of_switch? hw]
  rfl

variable (hgen : w.generation < 4096)
include hgen

theorem acceptAlloc_linkDown (hlink : s.linkUp w.plane = false) :
    acceptAlloc a e s = rejectFabric 1 (switchBase (bits a.idx.toNat 11 0) w.generation 0) s := by
  rw [acceptAlloc_asks hix hc hfits hw hpresent]
  exact askSwitch_linkDown isSwitch_switchBase (by rwa [switchOf_switchBase (bits_switch_lt _) hgen (by decide)]) hlink

theorem acceptAlloc_linkUp (hlink : s.linkUp w.plane = true) : acceptAlloc a e s =
    grantGranules a e s.g.tenant ix (bits a.idx.toNat 29 16) (bits a.idx.toNat 11 0) w.generation (takeSeq (8192 + bits a.idx.toNat 11 0) s) := by
  have hat : switchOf (switchBase (bits a.idx.toNat 11 0) w.generation 0) = bits a.idx.toNat 11 0 :=
    switchOf_switchBase (bits_switch_lt _) hgen (by decide)
  rw [acceptAlloc_asks hix hc hfits hw hpresent, askSwitch_linkUp isSwitch_switchBase (by rwa [hat]) hlink, hat]

end

section
variable {a : Access} {e ix n id gen : Nat} {t : BitVec 6} {s : State}

theorem grantGranules_overQuota (h : quotaOf s t id < granulesHeld s t id + n) :
    grantGranules a e t ix n id gen s = answer a 1 s := if_pos h

variable (hquota : granulesHeld s t id + n ≤ quotaOf s t id)
include hquota

theorem grantGranules_full (h : ∀ k, runFree s id k n = false) : grantGranules a e t ix n id gen s = answer a 2 s := by
  rw [grantGranules, if_neg (Nat.not_lt.mpr hquota), granuleRun_none h]

theorem grantGranules_grants (hid : id < 4096) (hgen : gen < 4096) (hn : 1 ≤ n) (h : ∃ k, runFree s id k n = true)
    (hwait : apertureWaits t ix n s = false) : ∃ k, runFree s id k n = true ∧ grantGranules a e t ix n id gen s =
      answer a (2 ^ 63 + id * 2 ^ 51 + gen * 2 ^ 39 + k * 2 ^ 25) ((List.range n).foldl (fun v j => writeAperture t (ix + j)
          (1 + (if j = 0 then 2 + n * 2 ^ 40 else 0) + id * 2 ^ 2 + (gen * 2 ^ 14 + k + j) * 2 ^ 14) v)
        (zeroRange (switchBase id gen k) (n * 2 ^ 25) { s with tick := s.tick + 1, swAllocs := s.swAllocs ++ [⟨id, gen, k, n, t⟩] })) := by
  obtain ⟨k, hrun, hfree⟩ := granuleRun_some hn h
  have hk : k < 2 ^ 14 := (runFree_first hn hfree).trans (by decide)
  refine ⟨k, hfree, ?_⟩
  simp only [grantGranules, if_neg (Nat.not_lt.mpr hquota), hrun, hwait, Bool.false_eq_true, if_false]
  rw [mapGranules_switchBase hid hgen hk, switchBase]

end

/-! ## `swm.map` (15 R345) -/

/-- An allocation of the tenant that begins at an address, in the address's generation. -/
def Names (t : BitVec 6) (b : Nat) (x : SwAlloc) : Prop :=
  x.sw = switchOf b ∧ x.generation = generationOf b ∧ x.first = granuleOf b ∧ x.tenant = t

/-- What a switch that is reached answers to a mapping of the allocation at an address from an aperture entry on. -/
def mapAllocation (a : Access) (e : Nat) (t : BitVec 6) (ix b : Nat) (s : State) : Accept :=
  match s.swAllocs.find? fun x => x.sw = switchOf b && x.generation = generationOf b && x.first = granuleOf b && x.tenant = t &&
      s.generation (switchOf b) = generationOf b with
  | none => answer a 6 s
  | some x =>
    match mapStatus t ix x.count s with
    | some y => answer a y s
    | none => if apertureWaits t ix x.count s then tryLater a e s else answer a (2 ^ 63 + x.count) (mapGranules t ix b x.count s)

section
variable {a : Access} {e : Nat} {s : State}

theorem acceptMap_noIndex (h : apertureIndex a.base.toNat = none) : acceptMap a e s = rejectFabric 0x10 a.base.toNat s := by
  simp only [acceptMap, h]

variable {ix : Nat} (hix : apertureIndex a.base.toNat = some ix)
include hix

theorem acceptMap_badBase (h : a.idx.toNat < 2 ^ 63 ∨ a.idx.toNat % 2 ^ 25 ≠ 0) : acceptMap a e s = rejectFabric 0x10 a.idx.toNat s := by
  simp only [acceptMap, hix]
  refine if_pos ?_
  simp only [isSwitch, Bool.or_eq_true, Bool.not_eq_true', decide_eq_false_iff_not, bne_iff_ne]
  omega

variable (hlo : 2 ^ 63 ≤ a.idx.toNat) (halign : a.idx.toNat % 2 ^ 25 = 0)
include hlo halign

omit hix in
theorem acceptMap_goodBase : (!isSwitch a.idx.toNat || a.idx.toNat % 2 ^ 25 != 0) = false := by
  simp only [isSwitch, hlo, halign]
  rfl

theorem acceptMap_absent (h : switchPresent s (switchOf a.idx.toNat) = false) : acceptMap a e s = answer a 4 s := by
  simp only [acceptMap, hix, acceptMap_goodBase hlo halign, h, Bool.false_eq_true, if_false, Bool.not_false, if_true]

variable {w : Switch} (hw : s.switch? (switchOf a.idx.toNat) = some w) (hpresent : w.state = .present)
include hw hpresent

theorem acceptMap_asks : acceptMap a e s = askSwitch a.idx.toNat (mapAllocation a e s.g.tenant ix a.idx.toNat) s := by
  simp only [acceptMap, hix, acceptMap_goodBase hlo halign, switchPresent_of_state hw hpresent, Bool.false_eq_true, if_false, Bool.not_true]
  rfl

theorem acceptMap_linkDown (hlink : s.linkUp w.plane = false) : acceptMap a e s = rejectFabric 1 a.idx.toNat s := by
  rw [acceptMap_asks hix hlo halign hw hpresent]
  exact askSwitch_linkDown (decide_eq_true hlo) hw hlink

theorem acceptMap_linkUp (hlink : s.linkUp w.plane = true) : acceptMap a e s =
    mapAllocation a e s.g.tenant ix a.idx.toNat (takeSeq (8192 + switchOf a.idx.toNat) s) := by
  rw [acceptMap_asks hix hlo halign hw hpresent]
  exact askSwitch_linkUp (decide_eq_true hlo) hw hlink

end

section
variable {a : Access} {e ix b : Nat} {t : BitVec 6} {s : State}

theorem mapAllocation_none (h : s.generation (switchOf b) ≠ generationOf b ∨ ∀ x ∈ s.swAllocs, ¬Names t b x) :
    mapAllocation a e t ix b s = answer a 6 s := by
  have hfind : s.swAllocs.find? (fun x => x.sw = switchOf b && x.generation = generationOf b && x.first = granuleOf b && x.tenant = t &&
      s.generation (switchOf b) = generationOf b) = none := by
    refine List.find?_eq_none.mpr fun x hx => ?_
    simp only [Bool.and_eq_true, decide_eq_true_eq]
    rintro ⟨⟨⟨⟨hsw, hgen⟩, hfirst⟩, htenant⟩, hnow⟩
    exact h.elim (fun h => h hnow) fun h => h x hx ⟨hsw, hgen, hfirst, htenant⟩
  simp only [mapAllocation, hfind]

variable {x : SwAlloc} (hgen : s.generation (switchOf b) = generationOf b) (hone : ∀ y ∈ s.swAllocs, Names t b y → y = x) (hx : x ∈ s.swAllocs)
  (hnames : Names t b x)
include hgen hone hx hnames

theorem find?_allocation : s.swAllocs.find? (fun x => x.sw = switchOf b && x.generation = generationOf b && x.first = granuleOf b &&
    x.tenant = t && s.generation (switchOf b) = generationOf b) = some x := by
  obtain ⟨hsw, hgeneration, hfirst, htenant⟩ := hnames
  obtain ⟨y, hy⟩ := Option.isSome_iff_exists.mp (List.find?_isSome (p := fun x => x.sw = switchOf b && x.generation = generationOf b &&
    x.first = granuleOf b && x.tenant = t && s.generation (switchOf b) = generationOf b).mpr ⟨x, hx, by simp [*]⟩)
  have hfits := List.find?_some hy
  simp only [Bool.and_eq_true, decide_eq_true_eq] at hfits
  obtain ⟨⟨⟨⟨hsw', hgen'⟩, hfirst'⟩, htenant'⟩, -⟩ := hfits
  rw [hy, hone y (List.mem_of_find?_eq_some hy) ⟨hsw', hgen', hfirst', htenant'⟩]

theorem mapAllocation_status {y : Nat} (h : mapStatus t ix x.count s = some y) : mapAllocation a e t ix b s = answer a y s := by
  simp only [mapAllocation, find?_allocation hgen hone hx hnames, h]

theorem mapAllocation_maps (hfits : mapStatus t ix x.count s = none) (hwait : apertureWaits t ix x.count s = false) :
    mapAllocation a e t ix b s = answer a (2 ^ 63 + x.count) (mapGranules t ix b x.count s) := by
  simp only [mapAllocation, find?_allocation hgen hone hx hnames, hfits, hwait, Bool.false_eq_true, if_false]

end

/-! ## `swm.unmap` and `swm.free` (15 R345, R348; log entries 48, 49, 97) -/

/-- The mapping's entries and translations go, and the write-combining entries for switch memory drain. -/
def unmapping (t : BitVec 6) (ix n va : Nat) (s : State) : State := drainSwitch t (unmapGranules t ix n va s)

/-- Whom an unmapping waits for. -/
def usersLeft (t : BitVec 6) (s : State) : List Nat := s.pendingIds t (fun p => 8192 ≤ p.dest) fun fpa => isSwitch fpa

theorem unmapping_keeps (t : BitVec 6) (ix n va : Nat) (s : State) : (unmapping t ix n va s).g = s.g ∧
    (unmapping t ix n va s).swAllocs = s.swAllocs ∧ (unmapping t ix n va s).switches = s.switches := by
  have hentries : (unmapGranules t ix n va s).offDrains = s.offDrains := foldl_keeps State.offDrains (fun s k => homeStore_offDrains s _ _) _ s
  have hdrains (s : State) : (drainSwitch t s).offDrains = s.offDrains :=
    foldl_keeps State.offDrains (fun s _ => foldl_keeps State.offDrains (fun s (x : WcEntry) => drainEntry_offDrains s _ x.line) _ s) _ s
  have hu := hdrains (unmapGranules t ix n va s)
  exact ⟨(State.g_of_offDrains hu).trans (State.g_of_offDrains hentries), (State.swAllocs_of_offDrains hu).trans (State.swAllocs_of_offDrains hentries),
    (State.switches_of_offDrains hu).trans (State.switches_of_offDrains hentries)⟩

theorem mappingLive_of_switches {s t : State} (h : t.switches = s.switches) (x : Nat) : mappingLive x t = mappingLive x s := by
  unfold mappingLive switchPresent State.generation State.switch?
  rw [h]

/-- An unmapping of n granules from an aperture entry on, whose first entry held x. -/
def unmapFirst (free : Bool) (a : Access) (e : Nat) (t : BitVec 6) (ix x : Nat) (s : State) : Accept :=
  let u := unmapping t ix (bits x 53 40) a.base.toNat s
  if apertureWaits t ix (bits x 53 40) s then tryLater a e s
  else if (usersLeft t u).isEmpty then unmapped free x a u
  else standIn e { (ownEntry a e u).1 with todo := 1, recs := some (usersLeft t u), stores := [(BitVec.ofNat 64 x, 0)] } (ownEntry a e u).2

section
variable {free : Bool} {a : Access} {e : Nat} {s : State}

theorem acceptUnmap_noIndex (h : apertureIndex a.base.toNat = none) : acceptUnmap free a e s = rejectFabric 0x10 a.base.toNat s := by
  simp only [acceptUnmap, h]

variable {ix : Nat} (hix : apertureIndex a.base.toNat = some ix) (hnew : (s.g.entry e).state ≠ .inFlight)
include hix hnew

theorem acceptUnmap_notFirst (h : bits (readAperture s.g.tenant ix s) 1 0 ≠ 3) : acceptUnmap free a e s = answer a 7 s := by
  simp [acceptUnmap, hix, hnew, h]

variable (hfirst : bits (readAperture s.g.tenant ix s) 1 0 = 3)
include hfirst

theorem acceptUnmap_here (h : (free && mappingLive (readAperture s.g.tenant ix s) s) = false) :
    acceptUnmap free a e s = unmapFirst free a e s.g.tenant ix (readAperture s.g.tenant ix s) s := by
  simp only [acceptUnmap, hix, hnew, hfirst, h, decide_false, Bool.false_and, Bool.false_eq_true, if_false, bne_self_eq_false]
  rfl

theorem acceptUnmap_asks (h : (free && mappingLive (readAperture s.g.tenant ix s) s) = true) :
    let x := readAperture s.g.tenant ix s
    acceptUnmap free a e s = askSwitch (switchBase (bits x 13 2) (bits x 39 28) (bits x 27 14)) (unmapFirst free a e s.g.tenant ix x) s := by
  simp only [acceptUnmap, hix, hnew, hfirst, h, decide_false, Bool.false_and, Bool.false_eq_true, if_false, if_true, bne_self_eq_false]
  rfl

end

section
variable {free : Bool} {a : Access} {e ix x : Nat} {t : BitVec 6} {s : State} (hwait : apertureWaits t ix (bits x 53 40) s = false)
include hwait

theorem unmapFirst_done (h : usersLeft t (unmapping t ix (bits x 53 40) a.base.toNat s) = []) :
    unmapFirst free a e t ix x s = unmapped free x a (unmapping t ix (bits x 53 40) a.base.toNat s) := by
  simp [unmapFirst, hwait, h]

theorem unmapFirst_stands (hnew : (s.g.entry e).state ≠ .inFlight) (h : usersLeft t (unmapping t ix (bits x 53 40) a.base.toNat s) ≠ []) :
    let u := unmapping t ix (bits x 53 40) a.base.toNat s
    unmapFirst free a e t ix x s = standIn e
      { a.newEntry u with engine := true, holds := true, todo := 1, recs := some (usersLeft t u), stores := [(BitVec.ofNat 64 x, 0)] }
      { u with nextId := u.nextId + 1 } := by
  intro u
  have hown : ownEntry a e u = _ := ownEntry_new (by rwa [(unmapping_keeps t ix (bits x 53 40) a.base.toNat s).1])
  have hleft : (usersLeft t u).isEmpty = false := by simpa using h
  simp only [unmapFirst, hwait, Bool.false_eq_true, if_false]
  rw [if_neg (by rw [hleft]; decide), hown]

end

section
variable {a : Access} {x : Nat} {s : State}

theorem unmapped_unmap : unmapped false x a s = answer a (2 ^ 63) s := rfl

theorem unmapped_stale (h : mappingLive x s = false) : unmapped true x a s = answer a 4 s := by
  simp [unmapped, h]

theorem unmapped_frees {t : BitVec 6} (ht : s.g.tenant = t) (h : mappingLive x s = true) :
    unmapped true x a s = answer a (2 ^ 63) { s with swAllocs := s.swAllocs.filter fun y =>
    !(y.sw = bits x 13 2 && y.generation = bits x 39 28 && y.first = bits x 27 14 && y.tenant = t) } := by
  subst ht
  simp [unmapped, h]

end

/-! ## The statement -/

section
variable (b c d : BitVec 5) (l : BitVec 4) (s : State)

theorem exec_swmAlloc : exec (.swmAlloc d b c l) s = .next (issue (wordShapeOf (.swmAlloc d b c l)) (engineWord (wordShapeOf (.swmAlloc d b c l))
    (capOnce 0x2C 0 d.toNat b.toNat c.toNat 0) (swmTurn acceptAlloc)) s) := rfl

theorem exec_swmMap : exec (.swmMap d b c l) s = .next (issue (wordShapeOf (.swmMap d b c l)) (engineWord (wordShapeOf (.swmMap d b c l))
    (capOnce 0x2C 1 d.toNat b.toNat c.toNat 0) (swmTurn acceptMap)) s) := rfl

theorem exec_swmUnmap : exec (.swmUnmap d b l) s = .next (issue (wordShapeOf (.swmUnmap d b l)) (engineWord (wordShapeOf (.swmUnmap d b l))
    (capOnce 0x2C 2 d.toNat b.toNat 0 0) (swmTurn (acceptUnmap false))) s) := rfl

theorem exec_swmFree : exec (.swmFree d b l) s = .next (issue (wordShapeOf (.swmFree d b l)) (engineWord (wordShapeOf (.swmFree d b l))
    (capOnce 0x2C 3 d.toNat b.toNat 0 0) (swmTurn (acceptUnmap true))) s) := rfl

end

/-- Settles O45: a word behind an earlier one by `swm_behind`; the others by what the engine answers in the cases of R345. -/
theorem switchMemoryWords : Obligations.SwitchMemoryWords := by
  intro b c d l s
  refine ⟨fun va x => apertureIndex_eq_some, ?all, ?alloc, ?badBase, ?map, ?unmap⟩
  case all =>
    simp only [List.forall_mem_cons]
    refine ⟨fun e => ⟨swm_behind (exec_swmAlloc b c d l s) rfl rfl, fun ho h => ?_⟩,
      fun e => ⟨swm_behind (exec_swmMap b c d l s) rfl rfl, fun ho h => ?_⟩,
      fun e => ⟨swm_behind (exec_swmUnmap b d l s) rfl rfl, fun ho h => ?_⟩, fun e => ⟨swm_behind (exec_swmFree b d l s) rfl rfl, fun ho h => ?_⟩,
      fun _ h => absurd h List.not_mem_nil⟩
    · exact swm_rejects (exec_swmAlloc b c d l s) rfl rfl ho (acceptAlloc_noIndex h)
    · exact swm_rejects (exec_swmMap b c d l s) rfl rfl ho (acceptMap_noIndex h)
    · exact swm_rejects (exec_swmUnmap b d l s) rfl rfl ho (acceptUnmap_noIndex h)
    · exact swm_rejects (exec_swmFree b d l s) rfl rfl ho (acceptUnmap_noIndex h)
  case alloc =>
    intro ix e n id ho hix hn hid
    subst hn hid
    have hrejects {u code x} := swm_rejects (u := u) (code := code) (x := x) (exec_swmAlloc b c d l s) rfl rfl ho
    have hanswers {u x} := swm_answers (u := u) (d := d) (x := x) (exec_swmAlloc b c d l s) rfl rfl ho rfl
    refine ⟨fun h => hrejects (acceptAlloc_badControl hix ?_), fun h1 h2 h3 h4 => ?_⟩
    · rintro ⟨h1, h2, h3, h4⟩
      change 1 ≤ bits (s.src.sreg c.toNat).toNat 29 16 at h1
      change bits (s.src.sreg c.toNat).toNat 29 16 ≤ 12288 at h2
      exact h.elim (by omega) fun h => h.elim (by omega) fun h => h.elim (fun h => h h3) fun h => h h4
    have hc : AllocControl (s.src.sreg c.toNat).toNat := ⟨h1, h2, h3, h4⟩
    refine ⟨fun h => hanswers (acceptAlloc_status hix hc (mapStatus_outside h)),
      fun h hused => hanswers (acceptAlloc_status hix hc (mapStatus_used h hused)),
      fun hfits h => hanswers (acceptAlloc_absent hix hc hfits h), fun w hfits hw hpresent hgen => ?_⟩
    have hdown := acceptAlloc_linkDown (a := capOnce 0x2C 0 d.toNat b.toNat c.toNat 0 s) (e := e) hix hc hfits hw hpresent hgen
    have hup := acceptAlloc_linkUp (a := capOnce 0x2C 0 d.toNat b.toNat c.toNat 0 s) (e := e) hix hc hfits hw hpresent hgen
    refine ⟨fun h => hrejects (hdown h), fun h hquota => ?quota, fun h hquota hfull => ?full,
      fun h hquota hrun hwait => ?grants⟩
    case quota => exact hanswers ((hup h).trans (grantGranules_overQuota hquota))
    case full => exact hanswers ((hup h).trans (grantGranules_full hquota hfull))
    case grants =>
      obtain ⟨k, hfree, hgrant⟩ := grantGranules_grants (a := capOnce 0x2C 0 d.toNat b.toNat c.toNat 0 s) (e := e)
        (s := takeSeq (8192 + bits (s.src.sreg c.toNat).toNat 11 0) s) hquota (bits_switch_lt _) hgen h1 hrun hwait
      exact ⟨k, hfree, hanswers ((hup h).trans hgrant)⟩
  case badBase => exact fun ix e ho hix h => swm_rejects (exec_swmMap b c d l s) rfl rfl ho (acceptMap_badBase hix h)
  case map =>
    intro ix e ho hix hlo halign v
    have hrejects {u code x} := swm_rejects (u := u) (code := code) (x := x) (exec_swmMap b c d l s) rfl rfl ho
    have hanswers {u x} := swm_answers (u := u) (d := d) (x := x) (exec_swmMap b c d l s) rfl rfl ho rfl
    refine ⟨fun h => hanswers (acceptMap_absent hix hlo halign h), fun w hw hpresent => ?_⟩
    have hup := acceptMap_linkUp (a := capOnce 0x2C 1 d.toNat b.toNat c.toNat 0 s) (e := e) hix hlo halign hw hpresent
    have hgeneration : v.generation (switchOf (s.src.sreg c.toNat).toNat) = w.generation := generation_of_switch? hw
    refine ⟨fun h => hrejects (acceptMap_linkDown hix hlo halign hw hpresent h), fun h hnone => ?none, fun x h hgen hone hx h1 h2 h3 h4 => ?_⟩
    case none => exact hanswers ((hup h).trans (mapAllocation_none (hnone.imp_left fun hgen => hgeneration ▸ hgen)))
    have hnames : Names s.g.tenant (s.src.sreg c.toNat).toNat x := ⟨h1, h2, h3, h4⟩
    have hfirst (y) (hy : y ∈ v.swAllocs) (h : Names s.g.tenant (s.src.sreg c.toNat).toNat y) : y = x := hone.unique ⟨hy, h⟩ ⟨hx, hnames⟩
    refine ⟨fun y hy => ?status, fun hfits hwait => ?maps⟩
    case status => exact hanswers ((hup h).trans (mapAllocation_status (s := v) (hgeneration.trans hgen) hfirst hx hnames hy))
    case maps => exact hanswers ((hup h).trans (mapAllocation_maps (s := v) (hgeneration.trans hgen) hfirst hx hnames hfits hwait))
  case unmap =>
    intro free i ix e ho hix x n at_ s0 v u ids
    obtain ⟨op, hi⟩ : ∃ op, exec i s = .next (issue (wordShapeOf i) (engineWord (wordShapeOf i) (capOnce 0x2C op d.toNat b.toNat 0 0)
        (swmTurn (acceptUnmap free))) s) := by
      cases free
      · exact ⟨2, exec_swmUnmap b d l s⟩
      · exact ⟨3, exec_swmFree b d l s⟩
    have hf : isFifoWord i = false := by cases free <;> rfl
    have hnew := free_not_inFlight ho.1.2.2.2.2
    have hrejects {u code x} := swm_rejects (u := u) (code := code) (x := x) hi hf rfl ho
    have hanswers {u x} := swm_answers (u := u) (d := d) (x := x) hi hf rfl ho rfl
    refine ⟨fun h => hanswers (acceptUnmap_notFirst hix hnew h), fun hfirst hfree hlive hcut => ?cut, fun hfirst hwait hreach => ?_⟩
    case cut =>
      have hasks := acceptUnmap_asks (free := free) (a := capOnce 0x2C op d.toNat b.toNat 0 0 s) hix hnew hfirst (by rw [hfree]; exact hlive)
      exact hrejects (hasks.trans (askSwitch_cut isSwitch_switchBase (Option.isNone_iff_eq_none.mp hcut)))
    have haccept : acceptUnmap free (capOnce 0x2C op d.toNat b.toNat 0 0 s) e s =
        unmapFirst free (capOnce 0x2C op d.toNat b.toNat 0 0 s) e s.g.tenant ix x s0 := by
      by_cases hask : (free && mappingLive x s) = true
      · have hsome : (planeOf s at_).isSome = true := by
          rw [Bool.and_eq_true] at hask
          simpa [hask] using hreach
        rw [show s0 = takeSeq (destOf at_) s from if_pos hask]
        exact (acceptUnmap_asks hix hnew hfirst hask).trans (askSwitch_sends isSwitch_switchBase hsome)
      · rw [show s0 = s from if_neg hask]
        exact acceptUnmap_here hix hnew hfirst (by simpa using hask)
    have hs0 : s0.g = s.g ∧ s0.swAllocs = s.swAllocs ∧ s0.switches = s.switches := by
      simp only [s0]
      split <;> exact ⟨rfl, rfl, rfl⟩
    obtain ⟨hg, hallocs, hswitches⟩ : u.g = s0.g ∧ u.swAllocs = s0.swAllocs ∧ u.switches = s0.switches :=
      unmapping_keeps s.g.tenant ix n (s.src.sreg b.toNat).toNat s0
    have hlive : mappingLive x u = mappingLive x s := mappingLive_of_switches (hswitches.trans hs0.2.2) x
    refine ⟨fun hids => ?stands, fun hids => ?_⟩
    case stands =>
      have hstands := swm_stands hi hf rfl ho (haccept.trans (unmapFirst_stands hwait (hs0.1 ▸ hnew) hids))
      obtain ⟨t, ht, hentry, hr, hu⟩ := stands_spec (freeEntry_lt _ _ ho.1.2.2.2.2) hstands
      exact ⟨t, ht, by rw [hentry]; rfl, by rw [hentry]; rfl, by rw [hu]; rfl, by rw [hu]; rfl, by rw [hu]; exact hallocs.trans hs0.2.1, hr⟩
    have hdone := haccept.trans (unmapFirst_done hwait hids)
    refine ⟨fun hfree => ?unmapped, fun hfree h => ?stale, fun hfree h => ?frees⟩
    case unmapped => exact hanswers (by rw [hdone, hfree]; rfl)
    case stale => exact hanswers (by rw [hdone, hfree]; exact unmapped_stale (hlive.trans h))
    case frees => exact hanswers (by rw [hdone, hfree]; exact unmapped_frees (congrArg Gang.tenant (hg.trans hs0.1)) (hlive.trans h))

end Sys2Proof.Machine
end

section
/-! Multicast, reduction, signals and status (15 R349-R353, R358, R360): the checks that `fmc` and `fred` share, what they send, and the signal that
leaves behind its release. -/

namespace Sys2Proof.Machine

/-! ## The checks of `fmc` and `fred` (15 R360) -/

section
variable {a : Access} {badWord : Bool} {s : State} {body : Group → List Byte → State → Accept}

theorem withPayload_full (h : 16 ≤ collectives s s.g.coreIx) : withPayload a badWord s body = .wait s := if_pos h

variable (hroom : ¬16 ≤ collectives s s.g.coreIx)
include hroom

theorem withPayload_badWord (h : badWord = true) : withPayload a badWord s body = rejectFabric 0x11 a.extra.toNat s := by
  simp only [withPayload, hroom, h, if_false, if_true]

variable (hword : badWord = false)
include hword

theorem withPayload_badBase (h : a.base.toNat % 256 ≠ 0) : withPayload a badWord s body = rejectFabric 0x12 a.base.toNat s := by
  simp only [withPayload, hroom, hword, if_false, Bool.false_eq_true]
  exact if_pos (bne_iff_ne.mpr h)

variable (hbase : a.base.toNat % 256 = 0)
include hbase

theorem withPayload_badIdx (h : a.idx.toNat % 256 ≠ 0) : withPayload a badWord s body = rejectFabric 0x12 a.idx.toNat s := by
  simp only [withPayload, hroom, hword, hbase, if_false, Bool.false_eq_true, bne_self_eq_false]
  exact if_pos (bne_iff_ne.mpr h)

variable (hidx : a.idx.toNat % 256 = 0)
include hidx

theorem withPayload_noGroup (h : groupFor s (bits a.extra.toNat 11 0) = none) :
    withPayload a badWord s body = rejectFabric 0x09 a.extra.toNat s := by
  simp only [withPayload, hroom, hword, hbase, hidx, h, if_false, Bool.false_eq_true, bne_self_eq_false]

variable {G : Group} (hG : groupFor s (bits a.extra.toNat 11 0) = some G)
include hG

theorem withPayload_unread {w : Why} {u : State} (h : readLong (gangRead [] s.agent) (linesFor 256) a.base.toNat 256 s = .bad w u) :
    withPayload a badWord s body = rejectFabric 0x12 a.base.toNat u := by
  simp only [withPayload, hroom, hword, hbase, hidx, hG, h, if_false, Bool.false_eq_true, bne_self_eq_false]

theorem withPayload_read {y : List Byte} {u : State} (h : readLong (gangRead [] s.agent) (linesFor 256) a.base.toNat 256 s = .ok y u) :
    withPayload a badWord s body = body G y u := by
  simp only [withPayload, hroom, hword, hbase, hidx, hG, h, if_false, Bool.false_eq_true, bne_self_eq_false]

end

theorem bits_group (c : Nat) : bits c 11 0 = c % 2 ^ 12 := by rw [bits, Nat.pow_zero, Nat.div_one]

theorem groupFor_eq_none {s : State} {id : Nat} :
    groupFor s id = none ↔ ∀ G ∈ s.groups, ¬(G.id = id ∧ G.tenant = s.g.tenant.toNat ∧ s.pkg.toNat ∈ G.members) := by
  simp [groupFor]

/-- A word that shares the checks is what its control word, its operands and its payload make of it; `body` has done its work in each case. -/
theorem payloadWord_of_body {i : Instr} {s : State} {mk : State → Access} {accept : Access → Nat → State → Accept} {badWord : Bool} {bad : Prop}
    {body : Group → List Byte → State → Accept} {ok : Group → List Byte → State → Prop}
    (hi : exec i s = .next (issue (wordShapeOf i) (engineWord (wordShapeOf i) mk accept) s)) (hf : isFifoWord i = false)
    (haccept : ∀ e, accept (mk s) e s = withPayload (mk s) badWord s body) (hbad : bad ↔ badWord = true)
    (hok : ∀ G y u, u.g.status ≠ .vacant → (∀ z, body G y u = .done z → Leaves i s z) → ok G y u) :
    PayloadWord i (mk s).lanes (mk s).base.toNat (mk s).idx.toNat (mk s).extra.toNat bad s ok := by
  refine ⟨fun hm h => engine_noLane i s mk accept hm hi hf h, fun e ho => ⟨fun h => ?full, fun h => ?_⟩⟩
  case full => exact engine_wait i s s _ e mk accept ho hi hf rfl ((haccept e).trans (withPayload_full h))
  have hroom := Nat.not_le.mpr h
  have hrejects {u code x} (h : withPayload (mk s) badWord s body = rejectFabric code x u) : RejectedFabric i (mk s).lanes e s u code x :=
    engine_rejectsFabric ho hi hf rfl ((haccept e).trans h)
  have hword (h : ¬bad) : badWord = false := by rwa [hbad, Bool.not_eq_true] at h
  refine ⟨fun h => hrejects (withPayload_badWord hroom (hbad.mp h)), fun h hbase => hrejects (withPayload_badBase hroom (hword h) hbase),
    fun h hbase hidx => hrejects (withPayload_badIdx hroom (hword h) hbase hidx), fun h hbase hidx hnone => ?noGroup,
    fun G h hbase hidx hG => ?_⟩
  case noGroup => exact hrejects (withPayload_noGroup hroom (hword h) hbase hidx (by rwa [bits_group, groupFor_eq_none]))
  rw [← bits_group] at hG
  refine ⟨fun w u hread => hrejects (withPayload_unread hroom (hword h) hbase hidx hG hread), fun y u hread hgang => ?read⟩
  case read =>
    refine hok G y u hgang fun z hz => engine_done i s z _ e mk accept ho hi hf rfl ((haccept e).trans ?_)
    rw [withPayload_read hroom (hword h) hbase hidx hG hread, hz]

/-! ## Branches from a switch (15 R357) -/

/-- Branches kept in a residue entry, and the others: together all of them. -/
theorem filter_apart_append_perm {l : List Delivery} (hids : (l.map Delivery.id).Nodup) (p : Delivery → Bool) :
    ((l.filter fun d => (l.filter p).all fun h => h.id != d.id) ++ l.filter p).Perm l := by
  have happart : (l.filter fun d => (l.filter p).all fun h => h.id != d.id) = l.filter fun d => !p d := by
    refine List.filter_congr fun d hd => ?_
    rw [Bool.eq_iff_iff, List.all_eq_true, Bool.not_eq_true']
    refine ⟨fun h => ?_, fun h x hx => ?_⟩
    · by_contra hp
      exact absurd rfl (bne_iff_ne.mp (h d (List.mem_filter.mpr ⟨hd, by simpa using hp⟩)))
    · obtain ⟨hx, hpx⟩ := List.mem_filter.mp hx
      refine bne_iff_ne.mpr fun hid => ?_
      rw [List.inj_on_of_nodup_map hids hx hd hid, h] at hpx
      exact Bool.false_ne_true hpx
  rw [happart]
  exact List.perm_append_comm.trans (List.filter_append_perm p l)

theorem sendBranches_branches {plane port : Nat} {new : List Delivery} {s : State} (hids : (new.map Delivery.id).Nodup) :
    (sendBranches plane port new s).branches.Perm (s.branches ++ new) := by
  unfold sendBranches
  extract_lets s1 held go
  obtain ⟨p, hp⟩ : ∃ p : Delivery → Bool, held = new.filter p := by
    by_cases h : (s.residues.filter fun r => r.sw = plane && r.port = port).length < 8
    · exact ⟨_, if_pos h⟩
    · exact ⟨fun _ => false, (if_neg h).trans (List.filter_false new).symm⟩
  have hresidues : (if held.isEmpty then s1.residues else s1.residues ++ [⟨plane, port, s.nextId, held⟩]).flatMap Residue.branches =
      s.residues.flatMap Residue.branches ++ held := by
    split
    case isTrue h => rw [List.isEmpty_iff.mp h, List.append_nil]
    case isFalse => simp [s1]
  have hnew : (go ++ held).Perm new := by
    simp only [go, hp]
    exact filter_apart_append_perm hids p
  rw [State.branches, hresidues]
  calc s.deliveries ++ go ++ (s.residues.flatMap Residue.branches ++ held)
      = s.deliveries ++ (go ++ s.residues.flatMap Residue.branches) ++ held := by simp only [List.append_assoc]
    _ |>.Perm (s.deliveries ++ (s.residues.flatMap Residue.branches ++ go) ++ held) := (List.perm_append_comm.append_left _).append_right _
    _ = s.branches ++ (go ++ held) := by simp only [State.branches, List.append_assoc]
    _ |>.Perm (s.branches ++ new) := hnew.append_left _

theorem zipIdx_ids_nodup {α : Type} (l : List α) (f : α × Nat → Delivery) (k : Nat) (hf : ∀ x, (f x).id = k + x.2) :
    ((l.zipIdx.map f).map Delivery.id).Nodup := by
  have hids : (l.zipIdx.map f).map Delivery.id = (List.range' 0 l.length).map (k + ·) := by
    rw [← List.zipIdx_map_snd, List.map_map, List.map_map]
    exact List.map_congr_left fun x _ => hf x
  rw [hids]
  exact List.Nodup.map (add_right_injective k) List.nodup_range'

/-- The state, the numbers of its streams apart. -/
def State.butSeqs (s : State) : State := { s with seqs := [] }

theorem takeSeqs_butSeqs (l : List Nat) (s : State) : (l.foldl (fun s m => takeSeq m s) s).butSeqs = s.butSeqs :=
  foldl_keeps State.butSeqs (fun _ _ => by rfl) l s

/-! ## What `fmc` and `fred` send (15 R352, R353) -/

/-- The members that a multicast goes to: the package itself only where the control word says so. -/
def receivers (a : Access) (G : Group) (s : State) : List Nat := G.members.filter fun m => m != s.pkg.toNat || bits a.extra.toNat 12 12 = 1

def multicastBranches (a : Access) (G : Group) (b : List Byte) (s : State) : List Delivery :=
  (receivers a G s).zipIdx.map fun m : Nat × Nat =>
    ⟨s.nextId + 1 + m.2, m.1, s.pkg.toNat, s.g.uid, s.g.tenant, a.idx, b, true, G.id, s.nextId, s.seqOf m.1, 1⟩

/-- The state in which every branch has its numbers. -/
def numbered (l : List Nat) (s : State) : State := l.foldl (fun s m => takeSeq m s) { s with nextId := s.nextId + 1 + l.length }

/-- What `fmc` does with its payload. -/
def sendMulticast (a : Access) (G : Group) (b : List Byte) (s : State) : Accept :=
  if !s.linkUp G.plane then .done (postReport s.g.uid ⟨12, 1, 0, false⟩ s)
  else if (receivers a G s).isEmpty then .done s
  else .done (addOutstanding s.g.uid (sendBranches G.plane s.pkg.toNat (multicastBranches a G b s) (numbered (receivers a G s) s)))

theorem acceptMulticast_eq (a : Access) (e : Nat) (s : State) :
    acceptMulticast a e s = withPayload a (bits a.extra.toNat 63 13 != 0) s (sendMulticast a) := rfl

section
variable {a : Access} {G : Group} {b : List Byte} {s : State}

theorem sendMulticast_linkDown (h : s.linkUp G.plane = false) : sendMulticast a G b s = .done (postReport s.g.uid ⟨12, 1, 0, false⟩ s) := by
  rw [sendMulticast, h]
  rfl

variable (hlink : s.linkUp G.plane = true)
include hlink

theorem sendMulticast_nobody (h : ∀ p ∈ G.members, p = s.pkg.toNat ∧ bits a.extra.toNat 12 12 = 0) : sendMulticast a G b s = .done s := by
  have hnone : receivers a G s = [] := List.filter_eq_nil_iff.mpr fun p hp => by simp [h p hp]
  simp [sendMulticast, hlink, hnone]

theorem sendMulticast_sends (h : ∃ p ∈ G.members, p ≠ s.pkg.toNat ∨ bits a.extra.toNat 12 12 = 1) : sendMulticast a G b s =
    .done (addOutstanding s.g.uid (sendBranches G.plane s.pkg.toNat (multicastBranches a G b s) (numbered (receivers a G s) s))) := by
  have hsome : (receivers a G s).isEmpty = false := by
    obtain ⟨p, hp, hfits⟩ := h
    exact List.isEmpty_eq_false_iff_exists_mem.mpr ⟨p, List.mem_filter.mpr ⟨hp, by simpa using hfits⟩⟩
  simp only [sendMulticast, hlink, hsome, Bool.not_true, Bool.false_eq_true, if_false]

end

theorem mem_multicastBranches {a : Access} {G : Group} {b : List Byte} {s : State} {x : Delivery} (h : x ∈ multicastBranches a G b s) :
    x.op = s.nextId ∧ x.sender = s.pkg.toNat ∧ x.gang = s.g.uid ∧ x.tenant = s.g.tenant ∧ x.dest = a.idx ∧ x.payload = b ∧ x.counted = true ∧
      x.group = G.id ∧ x.seq = s.seqOf x.pkg ∧ x.sent = 1 := by
  obtain ⟨m, -, rfl⟩ := List.mem_map.mp h
  exact ⟨rfl, rfl, rfl, rfl, rfl, rfl, rfl, rfl, rfl, rfl⟩

theorem multicastBranches_pkgs (a : Access) (G : Group) (b : List Byte) (s : State) :
    (multicastBranches a G b s).map Delivery.pkg = receivers a G s := by
  rw [multicastBranches, List.map_map]
  exact List.zipIdx_map_fst 0 _

/-- A multicast on its way: one branch for each receiver, and one more outstanding word of its gang. -/
theorem multicast_spec {a : Access} {G : Group} {b : List Byte} {s : State} (hgang : s.g.status ≠ .vacant)
    (hfresh : ∀ x ∈ s.branches, x.op ≠ s.nextId) :
    let z := addOutstanding s.g.uid (sendBranches G.plane s.pkg.toNat (multicastBranches a G b s) (numbered (receivers a G s) s))
    z.mem = s.mem ∧ z.g.r = s.g.r ∧ z.g.outstanding = s.g.outstanding + 1 ∧
      ((z.branches.filter fun x => x.op = s.nextId).map Delivery.pkg).Perm (receivers a G s) ∧
      ∀ x ∈ z.branches, x.op = s.nextId → x ∈ multicastBranches a G b s := by
  intro z
  have hnumbered : (numbered (receivers a G s) s).butSeqs = { s with nextId := _ }.butSeqs := takeSeqs_butSeqs _ _
  have hg : (numbered (receivers a G s) s).g = s.g := (congrArg State.g hnumbered :)
  have hmem : (numbered (receivers a G s) s).mem = s.mem := (congrArg State.mem hnumbered :)
  have hold : (numbered (receivers a G s) s).branches = s.branches := (congrArg State.branches hnumbered :)
  have hz : z = { sendBranches G.plane s.pkg.toNat (multicastBranches a G b s) (numbered (receivers a G s) s) with
      g := { s.g with outstanding := s.g.outstanding + 1 } } := by
    have hturn := addOutstanding_turn (s := sendBranches G.plane s.pkg.toNat (multicastBranches a G b s) (numbered (receivers a G s) s))
      (show (numbered (receivers a G s) s).g.status ≠ .vacant by rwa [hg])
    rw [show (sendBranches G.plane s.pkg.toNat (multicastBranches a G b s) (numbered (receivers a G s) s)).g = s.g from hg] at hturn
    exact hturn
  have hbranches : z.branches.Perm (s.branches ++ multicastBranches a G b s) := by
    have hsent := sendBranches_branches (plane := G.plane) (port := s.pkg.toNat) (s := numbered (receivers a G s) s)
      (zipIdx_ids_nodup (receivers a G s) (fun m => ⟨s.nextId + 1 + m.2, m.1, s.pkg.toNat, s.g.uid, s.g.tenant, a.idx, b, true, G.id, s.nextId,
        s.seqOf m.1, 1⟩) (s.nextId + 1) fun _ => rfl)
    rw [hold] at hsent
    rw [hz]
    exact hsent
  refine ⟨?mem, ?regs, ?count, ?pkgs, fun x hx hop => ?branch⟩
  case mem => rw [hz]; exact hmem
  case regs => rw [hz]
  case count => rw [hz]
  case pkgs =>
    have hops : ((s.branches ++ multicastBranches a G b s).filter fun x => x.op = s.nextId) = multicastBranches a G b s := by
      rw [List.filter_append, List.filter_eq_nil_iff.mpr (by simpa using hfresh), List.nil_append]
      exact List.filter_eq_self.mpr fun x hx => decide_eq_true (mem_multicastBranches hx).1
    rw [← multicastBranches_pkgs a G b s, ← hops]
    exact (hbranches.filter _).map _
  case branch =>
    refine (List.mem_append.mp (hbranches.mem_iff.mp hx)).resolve_left fun h => hfresh x h hop

/-- What `fred` does with its payload. -/
def sendContribution (a : Access) (G : Group) (b : List Byte) (s : State) : Accept :=
  if !s.linkUp G.plane then .done (postReport s.g.uid ⟨12, 1, 0, false⟩ s)
  else .done (addOutstanding s.g.uid { s with
    nextId := s.nextId + 1
    contribs := s.contribs ++ [⟨s.nextId, s.pkg.toNat, s.g.uid, s.g.tenant, a.extra, a.idx, b, 0⟩] })

theorem acceptReduce_eq (a : Access) (e : Nat) (s : State) :
    acceptReduce a e s = withPayload a (reduceBad s a.extra.toNat) s (sendContribution a) := rfl

theorem reduceBad_iff {s : State} {c : Nat} : (3 < bits c 14 12 ∨ 2 < bits c 17 15 ∨ (bits c 14 12 = 3 ∧ bits c 17 15 ≠ 1) ∨ bits c 63 46 ≠ 0 ∨
    ∃ G, groupFor s (bits c 11 0) = some G ∧ bits c 44 32 ∉ G.members) ↔ reduceBad s c = true := by
  unfold reduceBad
  cases groupFor s (bits c 11 0) with
  | none => simp [or_assoc]
  | some G => simp [or_assoc]

section
variable {a : Access} {G : Group} {b : List Byte} {s : State}

theorem sendContribution_linkDown (h : s.linkUp G.plane = false) :
    sendContribution a G b s = .done (postReport s.g.uid ⟨12, 1, 0, false⟩ s) := by
  rw [sendContribution, h]
  rfl

theorem sendContribution_sends (hgang : s.g.status ≠ .vacant) (hlink : s.linkUp G.plane = true) : sendContribution a G b s = .done { s with
    nextId := s.nextId + 1
    contribs := s.contribs ++ [⟨s.nextId, s.pkg.toNat, s.g.uid, s.g.tenant, a.extra, a.idx, b, 0⟩]
    g := { s.g with outstanding := s.g.outstanding + 1 } } := by
  rw [sendContribution, hlink]
  exact congrArg Accept.done (addOutstanding_turn hgang)

end

/-! ## `fsig` (15 R358) -/

section
variable {a : Access} {e : Nat} {s : State}

theorem acceptSignal_waits (h : ∃ n < 4, n ≠ e ∧ (s.g.entry n).state = .inFlight) : acceptSignal a e s = .wait s :=
  if_pos (by simpa using h)

variable (hquiet : ∀ n < 4, n ≠ e → (s.g.entry n).state ≠ .inFlight)
include hquiet

theorem signal_stands_alone : ¬((List.range 4).any fun k => k != e && (s.g.entry k).state = .inFlight) = true := by
  simpa using hquiet

theorem acceptSignal_misaligned (h : a.base.toNat % 8 ≠ 0) :
    acceptSignal a e s = .bad ⟨0x301, accessDetail a.base.toNat 5 false false e (leaderOf a.lanes).val 0⟩ s := by
  rw [acceptSignal, if_neg (signal_stands_alone hquiet), if_pos (bne_iff_ne.mpr h)]
  simp only [faultRec, causeOf, Nat.reduceMul, Nat.reduceAdd, BitVec.ofNat_eq_ofNat]

variable (halign : a.base.toNat % 8 = 0)
include halign

theorem acceptSignal_unmapped {u : State} {w : Why} (h : translate true true a.base.toNat s = (u, .bad w)) :
    acceptSignal a e s = .bad (faultRec w 5 false e (leaderOf a.lanes).val 0) u := by
  rw [acceptSignal, if_neg (signal_stands_alone hquiet), if_neg (by simpa using halign), h]

theorem acceptSignal_begins {u : State} {x : Nat} {y : TlbEntry} (h : translate true true a.base.toNat s = (u, .ok x y))
    (hswitch : switchGone u x = none) (hplace : u.isLocal x = true → regionOf (ppaOf x) ≠ .weight) :
    let v := drainGang u.g.coreIx u.g.uid (publishDie u.g.die.toNat [] u)
    acceptSignal a e s = .done { v with
      nextId := v.nextId + 1
      releases := v.releases ++
        [⟨v.nextId, v.g.uid, .fab, (v.records.filter fun r => r.die = u.g.die.toNat).map fun r => r.id, some (x, a.idx)⟩] } := by
  have hregion : (u.isLocal x && decide (regionOf (ppaOf x) = .weight)) = false := by simpa using hplace
  rw [acceptSignal, if_neg (signal_stands_alone hquiet), if_neg (by simpa using halign), h]
  simp only [hswitch, hregion, Bool.false_eq_true, if_false]

end

/-! ## The signal behind its release (15 R329, R358) -/

section
variable {s : State} {id x : Nat} {r : PendingRelease} {v : Dword} {g : Gang} (hr : s.releases.find? (fun y => y.id = id) = some r)
  (hsignal : r.signal = some (x, v)) (hdone : releaseDone s r = true) (hg : s.gang? r.gang = some g)
include hr hsignal hdone hg

theorem finishPending_adds {t : State} (hlocal : s.isLocal x = true) (hadd : homeAdd ⟨g.coreIx, g.tenant, g.uid, false⟩ x v s = some t) :
    finishPending id s = { t with releases := t.releases.filter fun y => y.id != id } := by
  have hid : r.id = id := by simpa using List.find?_some hr
  simp [finishPending, hr, hdone, hsignal, sendAdd, hg, hlocal, hadd, dropRelease, hid]

theorem finishPending_sends (hlocal : s.isLocal x = false) (hswitch : switchGone s x = none)
    (hcombined : ∀ y ∈ (s.core g.coreIx).wc, y.line ≠ lineOf x) (hacked : entryUnacked s x = false) :
    finishPending id s = dropRelease id (addOutstanding r.gang (dropPeer (g.coreIx / 40) (lineOf x)
      (sendPacket x 4 (.signalAdd x v) [r.gang] id 0 g.tenant true s))) := by
  have hid : r.id = id := by simpa using List.find?_some hr
  simp [finishPending, hr, hdone, hsignal, sendAdd, hg, hlocal, hswitch, drainEntry_none hcombined, hacked, hid]

end

/-- The packet of a signal that has left its release, and its gang's count. -/
theorem sendSignal_spec {s : State} {x id d u : Nat} {v : Dword} {t : BitVec 6} {g : Gang} (hg : s.gang? u = some g) :
    let z := dropRelease id (addOutstanding u (dropPeer d (lineOf x) (sendPacket x 4 (.signalAdd x v) [u] id 0 t true s)))
    (∃ q, z.packets = s.packets ++ [q] ∧ q.kind = .signalAdd x v ∧ q.gangs = [u] ∧ q.critical = true ∧ q.vc = 4) ∧
      z.releases = s.releases.filter (fun y => y.id != id) ∧ z.mem = s.mem ∧ z.gang? u = some { g with outstanding := g.outstanding + 1 } := by
  intro z
  have hbut := addOutstanding_butGangs u (dropPeer d (lineOf x) (sendPacket x 4 (.signalAdd x v) [u] id 0 t true s))
  refine ⟨⟨_, State.packets_of_butGangs hbut, rfl, rfl, rfl, rfl⟩, ?_, (State.mem_of_butGangs hbut :), gang?_addOutstanding hg⟩
  exact congrArg (List.filter fun y => y.id != id) (congrArg State.releases hbut)

/-! ## The statement -/

/-- Settles O46. -/
theorem collectiveAndSignalWords : Obligations.CollectiveAndSignalWords := by
  intro a b c d k l s
  refine ⟨?fmc, ?fred, ?noLane, fun e ho h => ?waits, fun e ho hquiet h => ?misaligned, fun e u w ho hquiet halign h => ?unmapped,
    fun e u x y v ho hquiet halign h hswitch hplace hv => ?begins, fun id r x v g hr hsignal hdone hg => ⟨fun t hlocal hadd => ?adds,
    fun hlocal hswitch hcombined hacked => ?sends⟩, fun e ho => ?status⟩
  case fmc =>
    refine payloadWord_of_body (mk := capPost 0x2D 0 k.toNat a.toNat b.toNat c.toNat) rfl rfl (acceptMulticast_eq _ · s) bne_iff_ne.symm ?_
    refine fun G y u hgang hdone => ⟨fun h => hdone _ (sendMulticast_linkDown h), fun hlink h => hdone _ (sendMulticast_nobody hlink h),
      fun hlink h hfresh => ⟨_, hdone _ (sendMulticast_sends hlink h), ?_⟩⟩
    obtain ⟨hmem, hr, hcount, hpkgs, hbranch⟩ := multicast_spec (a := capPost 0x2D 0 k.toNat a.toNat b.toNat c.toNat s) (G := G) (b := y) hgang hfresh
    exact ⟨hmem, hr, hcount, hpkgs, fun x hx hop => (mem_multicastBranches (hbranch x hx hop)).2⟩
  case fred =>
    refine payloadWord_of_body (mk := capPost 0x2D 1 k.toNat a.toNat b.toNat c.toNat) rfl rfl (acceptReduce_eq _ · s) reduceBad_iff ?_
    exact fun G y u hgang hdone => ⟨fun h => hdone _ (sendContribution_linkDown h), fun hlink => hdone _ (sendContribution_sends hgang hlink)⟩
  case noLane => exact fun hm h => engine_noLane _ s (capPost 0x2E 0 k.toNat a.toNat b.toNat 0) acceptSignal hm rfl rfl h
  case waits => exact engine_wait _ s s _ e (capPost 0x2E 0 k.toNat a.toNat b.toNat 0) acceptSignal ho rfl rfl rfl (acceptSignal_waits h)
  case misaligned =>
    exact engine_bad _ s s _ e (capPost 0x2E 0 k.toNat a.toNat b.toNat 0) acceptSignal _ ho rfl rfl rfl (acceptSignal_misaligned hquiet h)
  case unmapped =>
    exact engine_bad _ s u _ e (capPost 0x2E 0 k.toNat a.toNat b.toNat 0) acceptSignal (fun L => faultRec w 5 false e L 0) ho rfl rfl rfl
      (acceptSignal_unmapped hquiet halign h)
  case begins =>
    subst hv
    exact engine_done _ s _ _ e (capPost 0x2E 0 k.toNat a.toNat b.toNat 0) acceptSignal ho rfl rfl rfl
      (acceptSignal_begins hquiet halign h hswitch hplace)
  case adds => exact congrArg Host.Outcome.next (finishPending_adds hr hsignal hdone hg hlocal hadd)
  case sends =>
    obtain ⟨⟨q, hpackets, hq⟩, hreleases, hmem, hgang⟩ := sendSignal_spec (x := x) (id := id) (d := g.coreIx / 40) (v := v) (t := g.tenant) hg
    obtain ⟨hkind, hgangs, hcritical, hvc⟩ := hq
    have hsends := finishPending_sends hr hsignal hdone hg hlocal hswitch hcombined hacked
    exact ⟨_, q, congrArg Host.Outcome.next hsends, hpackets, hkind, hgangs, hcritical, hvc, hreleases, hmem, hgang⟩
  case status => exact engine_answers (mk := capOnce 0x2E 1 d.toNat 0 0 0) (accept := acceptFabricStat) ho rfl rfl rfl rfl rfl

end Sys2Proof.Machine
end

section
/-! Packets on their streams (15 R327-R339): sent by age, applied in turn, acknowledged, refused, sent again, lost. -/

namespace Sys2Proof.Machine

/-! ## Packets sent by age (15 R330) -/

section
variable {s : State} {c line : Nat} {e : WcEntry} (he : (s.core c).wc.find? (fun x => x.line = line) = some e)
include he

theorem drainEntry_sends : drainEntry c line s = dropPeer (c / 40) line (sendPacket (128 * line) 0 (.write line e.bytes) e.gangs 0 0 e.tenant false
    (s.setCore c fun k => { k with wc := k.wc.filter fun x => x.line != line })) := by
  simp only [drainEntry, he]

theorem drainAged_young (h : 100 * e.age s.clk < (s.tenant e.tenant).age.toNat * s.unit.clockMhz) : drainAged c line s = s := by
  simp only [drainAged, he]
  exact if_neg (by omega)

theorem drainAged_old (h : (s.tenant e.tenant).age.toNat * s.unit.clockMhz ≤ 100 * e.age s.clk) : drainAged c line s = drainEntry c line s := by
  simp only [drainAged, he]
  exact if_pos h

end

/-! ## Turns (15 R327; 10 R244) -/

theorem apart_iff {k : PacketKind} : k.apart = true ↔ ∃ w4 w5 vs, k = .drain w4 w5 vs := by
  cases k <;> simp [PacketKind.apart]

theorem multicastAhead_eq_false {s : State} {src dest id : Nat} :
    multicastAhead s src dest id = false ↔ ∀ d ∈ s.branches, d.counted = true → d.sender = src → d.pkg = dest → id ≤ d.id := by
  simp [multicastAhead]

theorem packetTurn_iff {s : State} {p : Packet} : packetTurn s p = true ↔
    (∀ q ∈ s.packets.takeWhile (fun x => x.id != p.id), q.src = p.src → q.dest = p.dest →
        q.applied = true ∨ ∃ w4 w5 vs, q.kind = .drain w4 w5 vs) ∧
      ∀ d ∈ s.branches, d.counted = true → d.sender = p.src → d.pkg = p.dest → p.id ≤ d.id := by
  rw [packetTurn, Bool.and_eq_true, Bool.not_eq_true', multicastAhead_eq_false, List.all_eq_true]
  refine and_congr_left' (forall₂_congr fun q _ => ?_)
  rw [Bool.or_eq_true, Bool.or_eq_true, Bool.or_eq_true, apart_iff, bne_iff_ne, bne_iff_ne]
  tauto

/-! ## Packets applied (15 R331, R336) -/

section
variable {s : State} {id : Nat} {p : Packet} (hp : s.packets.find? (fun x => x.id = id) = some p)
include hp

theorem findPacket_of_find? : findPacket s id = some p := hp
theorem packet_id : p.id = id := by simpa using List.find?_some hp

theorem applyPacket_held (h : p.applied = true ∨ p.lost = true ∨ packetTurn s p = false ∨ (packetFault s p).isSome = true ∨ p.waits s = true) :
    applyPacket id s = s := by
  simp only [applyPacket, findPacket_of_find? hp]
  exact if_pos (by simpa [or_assoc] using h)

end

/-- The packet stands for its acknowledgement. -/
def Packet.answered (s : State) (p q : Packet) : Packet := { q.onPlanes (criticalPlanes s p.addr) with applied := true }

theorem answered_of_mem {s t : State} {p q : Packet} {id : Nat} (hq : q ∈ (setPacket id (p.answered s) t).packets) (hid : q.id = id) :
    q.applied = true := by
  obtain ⟨x, -, rfl⟩ := mem_mapIf hq
  by_cases h : x.id = id
  · simp [h, Packet.answered]
  · simp [h] at hid

/-- A packet that its destination takes now. -/
structure Applies (s : State) (id : Nat) (p : Packet) : Prop where
  found : s.packets.find? (fun x => x.id = id) = some p
  new : p.applied = false
  sent : p.lost = false
  turn : packetTurn s p = true
  taken : packetFault s p = none
  free : p.waits s = false

namespace Applies

variable {s : State} {id : Nat} {p : Packet} (h : Applies s id p)
include h

theorem applyPacket_eq : applyPacket id s =
    if p.kind.apart && p.dest = s.pkg.toNat then packetEffect p s else setPacket id (p.answered s) (packetEffect p s) := by
  simp only [applyPacket, findPacket_of_find? h.found]
  exact if_neg (by simp [h.new, h.sent, h.turn, h.taken, h.free])

/-- Any packet but a drain does its work and then stands for its acknowledgement. -/
theorem exec_eq {u : State} (hkind : p.kind.apart = false) (hu : packetEffect p s = u) :
    exec (.writePacketApply id) s = .next (setPacket id (p.answered s) u) := by
  have happly : applyPacket id s = setPacket id (p.answered s) u := by
    rw [h.applyPacket_eq, hkind, Bool.false_and, if_neg Bool.false_ne_true, hu]
  exact congrArg Host.Outcome.next happly

end Applies

theorem overLine_length : ∀ (bs : List (Option Byte)) (l : List Byte), (overLine bs l).length = l.length
  | [], _ => rfl
  | some _ :: _, [] => rfl
  | none :: _, [] => rfl
  | some _ :: bs, _ :: l => congrArg (· + 1) (overLine_length bs l)
  | none :: bs, _ :: l => congrArg (· + 1) (overLine_length bs l)

theorem overLine_getElem? : ∀ (bs : List (Option Byte)) (l : List Byte) (k : Nat), k < l.length →
    (overLine bs l)[k]? = some ((bs.getD k none).getD (l.getD k 0))
  | [], l, k, h => by simp [overLine, h]
  | some b :: bs, c :: l, 0, _ => rfl
  | none :: bs, c :: l, 0, _ => rfl
  | some b :: bs, c :: l, k + 1, h => overLine_getElem? bs l k (Nat.lt_of_succ_lt_succ h)
  | none :: bs, c :: l, k + 1, h => overLine_getElem? bs l k (Nat.lt_of_succ_lt_succ h)

theorem homeStore_unshared {a : Nat} {bs : List Byte} {s : State}
    (h : ∀ e ∈ s.directory, ¬(e.base < sectorOf a + (a % 32 + bs.length + 31) / 32 ∧ sectorOf a < e.base + e.sectors)) :
    homeStore a bs s = homeWrite a bs s := by
  rw [homeStore, recallSectors_none true h]

/-- The bytes a write packet leaves in its line. -/
def Packet.lineAfter (ln : Nat) (bs : List (Option Byte)) (s : State) : List Byte := overLine bs (s.mem.read (128 * ln) 128)

theorem Packet.lineAfter_length (ln : Nat) (bs : List (Option Byte)) (s : State) : (lineAfter ln bs s).length = 128 := by
  rw [lineAfter, overLine_length, Memory.read_length]

theorem Packet.lineAfter_getElem? {ln k : Nat} (bs : List (Option Byte)) (s : State) (hk : k < 128) :
    (lineAfter ln bs s)[k]? = some ((bs.getD k none).getD (s.mem.get (128 * ln + k))) := by
  have hlen : k < (s.mem.read (128 * ln) 128).length := by rwa [Memory.read_length]
  rw [lineAfter, overLine_getElem? _ _ _ hlen, List.getD_eq_getElem _ _ hlen, Memory.read_getElem]

section
variable {s : State} {p : Packet}

theorem packetEffect_write {ln : Nat} {bs : List (Option Byte)} (hkind : p.kind = .write ln bs)
    (hdir : ∀ e ∈ s.directory, ¬(e.base < 4 * ln + 4 ∧ 4 * ln < e.base + e.sectors)) :
    packetEffect p s = homeWrite (128 * ln) (Packet.lineAfter ln bs s) s := by
  simp only [packetEffect, hkind, recallSectors_none true hdir]
  have hfirst : sectorOf (128 * ln) = 4 * ln := by rw [sectorOf]; omega
  have hsectors : (128 * ln % 32 + 128 + 31) / 32 = 4 := by omega
  refine homeStore_unshared ?_
  rwa [← Packet.lineAfter, Packet.lineAfter_length, hfirst, hsectors]

theorem packetEffect_atomic {a op n : Nat} {x : Nat} (hkind : p.kind = .atomic a op n x)
    (hdir : ∀ e ∈ s.directory, ¬(e.base < sectorOf a + (a % 32 + n + 31) / 32 ∧ sectorOf a < e.base + e.sectors))
    (hword : ∀ e ∈ s.directory, ¬(e.base < sectorOf a + 1 ∧ sectorOf a < e.base + e.sectors)) :
    packetEffect p s = homeWrite a (toBytes n (atomicNew op (8 * n) (ofBytes (s.mem.read a n)) x x 0)) s := by
  simp only [packetEffect, hkind, recallSectors_none true hword]
  exact homeStore_unshared (by rwa [toBytes_length])

theorem packetEffect_signalAdd {a : Nat} {x : Dword} (hkind : p.kind = .signalAdd a x)
    (hdir : ∀ e ∈ s.directory, ¬(e.base < sectorOf a + (a % 32 + 39) / 32 ∧ sectorOf a < e.base + e.sectors))
    (hword : ∀ e ∈ s.directory, ¬(e.base < sectorOf a + 1 ∧ sectorOf a < e.base + e.sectors)) :
    packetEffect p s = homeWrite a (toBytes 8 (ofBytes (s.mem.read a 8) + x.toNat)) s := by
  simp only [packetEffect, hkind, recallSectors_none true hword]
  exact homeStore_unshared (by rwa [toBytes_length, Nat.add_assoc])

theorem packetEffect_predSignal {q : BitVec 6} {a : Dword} {err : Bool} (hkind : p.kind = .predSignal q a err) (hdest : p.dest = s.pkg.toNat) :
    packetEffect p s = { s with nextId := s.nextId + 1, predSignals := s.predSignals ++ [⟨s.nextId, q, a.toNat, [], true, err, none⟩] } := by
  simp only [packetEffect, hkind]
  exact if_pos hdest

section
variable {w4 w5 : Dword} {vs : List Word} (hkind : p.kind = .drain w4 w5 vs) (hdest : p.dest = s.pkg.toNat)
include hkind hdest

theorem packetEffect_drain (hnew : ∀ a ∈ s.arrivals, a.packet ≠ p.id) : packetEffect p s =
    { s with nextId := s.nextId + 1, arrivals := s.arrivals ++ [⟨s.nextId, p.src, 0, 0, p.id, p.tenant, w4, w5, vs, false⟩] } := by
  simp only [packetEffect, hkind]
  exact if_pos (by simpa [hdest] using hnew)

theorem packetEffect_drain_again (hold : ∃ a ∈ s.arrivals, a.packet = p.id) : packetEffect p s = s := by
  simp only [packetEffect, hkind]
  exact if_neg (by simpa [hdest] using hold)

end

end

/-- A line written whole is the only one that differs. -/
theorem homeWrite_line {ln : Nat} {bs : List Byte} {s : State} (hs : s.memOk) (hlen : bs.length = 128) :
    OnlyLines s (homeWrite (128 * ln) bs s) (· = ln) ∧ (homeWrite (128 * ln) bs s).homeLine ln = bs ∧
      (homeWrite (128 * ln) bs s).version ln = s.version ln + 1 := by
  refine ⟨fun a ha => Memory.get_write_apart hs.1 (by omega), ?_, ?_⟩
  · have hread := Memory.read_write s.mem hs.1 (128 * ln) bs
    rwa [hlen] at hread
  · have hversion := homeWrite_version (128 * ln) bs s
    rwa [show lineOf (128 * ln) = ln from Nat.mul_div_cancel_left ln (by decide)] at hversion

/-! ## Packets acknowledged (15 R332) -/

section
variable {s : State} {p : Nat}

theorem setLink_link (h : p < 18) (f : Link → Link) : setLink p f s = { s with links := s.links.set p (f s.links[p]) } := by
  rw [setLink, dif_pos h]

theorem setLink_none (h : 18 ≤ p) (f : Link → Link) : setLink p f s = s := by
  rw [setLink, dif_neg (Nat.not_lt.mpr h)]

end

section
variable {s : State} {id : Nat} {p : Packet} (hp : s.packets.find? (fun x => x.id = id) = some p)
include hp

theorem receiveAck_none (h : p.applied = false ∨ p.lost = true) : receiveAck id s = s := by
  simp only [receiveAck, findPacket_of_find? hp]
  exact if_neg (by rcases h with h | h <;> simp [h])

theorem receiveAck_eq (hdone : p.applied = true) (hlost : p.lost = false) : receiveAck id s =
    fallAt p.gangs (dropPacket id (setLink p.plane (fun k => { k with failures := 0 }) s)) := by
  simp only [receiveAck, findPacket_of_find? hp, hdone, hlost, Bool.not_false, Bool.and_self, if_true]
  rfl

end

theorem State.links_of_butGangs {s t : State} (h : t.butGangs = s.butGangs) : t.links = s.links := (congrArg State.links h :)

section
variable {s : State} {p : Packet}

theorem acked_links (h : p.plane < 18) :
    (fallAt p.gangs (dropPacket p.id (setLink p.plane (fun k => { k with failures := 0 }) s))).links[p.plane].failures = 0 := by
  have hlinks : (fallAt p.gangs (dropPacket p.id (setLink p.plane (fun k => { k with failures := 0 }) s))).links =
      s.links.set p.plane { s.links[p.plane] with failures := 0 } := by
    rw [State.links_of_butGangs (fallAt_butGangs p.gangs _), setLink_link h]
    rfl
  rw [hlinks, Vector.getElem_set_self]

end

/-! ## Packets that end (15 R333) -/

/-- The state, what the cores hold apart. -/
def State.butCores (s : State) : State := { s with cores := [] }

theorem failPoster_butCores (cmd : Nat) (w : Why) (s : State) : (failPoster cmd w s).butCores = s.butCores := by
  unfold failPoster
  split
  · rfl
  · split
    · rfl
    · split <;> rfl

theorem reports_butGangs (gangs : List Nat) (w : Why) (s : State) : (gangs.foldl (fun s u => postReport u w s) s).butGangs = s.butGangs :=
  foldl_keeps State.butGangs (fun s u => postReport_butGangs u w s) gangs s

theorem not_mem_dropPacket {s : State} {id : Nat} {q : Packet} (h : q ∈ (dropPacket id s).packets) : q.id ≠ id := by
  simpa using (List.mem_filter.mp h).2

section
variable {s : State} {p : Packet} {w : Why}

theorem endPacket_packets : (endPacket p w s).packets = (dropPacket p.id s).packets :=
  calc (endPacket p w s).packets
      = (p.gangs.foldl (fun s u => postReport u w s) (fallAt p.gangs (dropPacket p.id s))).packets :=
        (congrArg State.packets (failPoster_butCores p.cmd w _) :)
    _ = (fallAt p.gangs (dropPacket p.id s)).packets := State.packets_of_butGangs (reports_butGangs p.gangs w _)
    _ = (dropPacket p.id s).packets := State.packets_of_butGangs (fallAt_butGangs p.gangs _)

theorem endPacket_oneGang {u : Nat} (hcmd : p.cmd = 0) (hgangs : p.gangs = [u]) :
    endPacket p w s = postReport u w (fallAt [u] (dropPacket p.id s)) := by
  rw [endPacket, hcmd, hgangs]
  exact if_pos rfl

theorem gang?_endPacket {u : Nat} {g : Gang} (hcmd : p.cmd = 0) (hgangs : p.gangs = [u]) (hg : s.gang? u = some g) :
    (endPacket p w s).gang? u = some (withReport w { g with outstanding := g.outstanding - 1 }) := by
  rw [endPacket_oneGang hcmd hgangs]
  exact gang?_postReport w (gang?_fallAt (s := dropPacket p.id s) hg)

theorem endsPacket_of_exec {i : Instr} (h : exec i s = .next (endPacket p w s)) : EndsPacket i p w s := by
  refine ⟨_, h, fun q hq => not_mem_dropPacket (s := s) (by rwa [endPacket_packets] at hq),
    fun u g hcmd hgangs hg => ⟨gang?_endPacket hcmd hgangs hg, ?_⟩⟩
  rw [endPacket_oneGang hcmd hgangs, State.mem_of_butGangs (postReport_butGangs u w _), State.mem_of_butGangs (fallAt_butGangs [u] _)]
  rfl

end

section
variable {s : State} {id code : Nat} {p : Packet} (hp : s.packets.find? (fun x => x.id = id) = some p)
include hp

theorem packetFails_none (h : p.applied = true ∨ p.lost = true ∨ packetTurn s p = false ∨ (packetFault s p = none ∧ peerRefusal s p code = none)) :
    packetFails id code s = s := by
  simp only [packetFails, findPacket_of_find? hp]
  by_cases hheld : (p.applied || p.lost || !packetTurn s p) = true
  · exact if_pos hheld
  · obtain ⟨hfault, hpeer⟩ : packetFault s p = none ∧ peerRefusal s p code = none := by
      simp only [Bool.or_eq_true, Bool.not_eq_true'] at hheld
      tauto
    rw [if_neg hheld, hfault]
    simp only [hpeer, Option.map_none, Option.getD_none]

variable (hnew : p.applied = false) (hlost : p.lost = false) (hturn : packetTurn s p = true)
include hnew hlost hturn

theorem packetFails_refused {w : Why} (h : packetFault s p = some w) : packetFails id code s = endPacket p w s := by
  simp [packetFails, findPacket_of_find? hp, hnew, hlost, hturn, h]

theorem packetFails_byPeer {w : Why} (h : packetFault s p = none) (hpeer : peerRefusal s p code = some w) : packetFails id code s = endPacket p w s := by
  simp [packetFails, findPacket_of_find? hp, hnew, hlost, hturn, h, hpeer]

end

/-! ## Packets sent again (15 R326, R336-R339) -/

section
variable {s : State} {id : Nat} {p : Packet} (hp : s.packets.find? (fun x => x.id = id) = some p)
include hp

theorem retransmit_patient (h : p.patient = true) : retransmit id s = s := by
  simp only [retransmit, findPacket_of_find? hp]
  exact if_pos h

variable (himpatient : p.patient = false)
include himpatient

theorem retransmit_givesUp (hsrc : p.src = s.pkg.toNat) (h : 16 ≤ p.sent) : retransmit id s = endPacket p ⟨12, 1, p.addr, false⟩ s := by
  simp [retransmit, findPacket_of_find? hp, himpatient, hsrc, h]

theorem retransmit_again (h : p.sent < 16) : retransmit id s =
    setPacket id (fun q => { q.onPlanes (planesFor s (p.critical || p.applied) p.addr) with sent := q.sent + 1 }) s := by
  simp [retransmit, findPacket_of_find? hp, himpatient, Nat.not_le.mpr h]

end

theorem planeOf_own {s : State} {x n : Nat} (hpeer : isSwitch x = false) (hn : (bits x 23 7 + packageOf x) % 18 = n) (hup : s.linkUp n = true)
    (hfar : (packageOf x, n) ∉ s.downLinks) : planeOf s x = some n := by
  simp [planeOf, hpeer, List.find?_map, List.range_succ_eq_map, hn, hup, hfar]

theorem criticalPlanes_own {s : State} {x n : Nat} (hpeer : isSwitch x = false) (hn : (bits x 23 7 + packageOf x) % 18 = n) (hup : s.linkUp n = true)
    (hup9 : s.linkUp ((n + 9) % 18) = true) (hfar : (packageOf x, n) ∉ s.downLinks) (hfar9 : (packageOf x, (n + 9) % 18) ∉ s.downLinks) :
    criticalPlanes s x = [n, (n + 9) % 18] := by
  simp [criticalPlanes, hpeer, hn, hup, hup9, hfar, hfar9]

section
variable {s : State} {id : Nat}

theorem findPacket_eq_none : findPacket s id = none ↔ ∀ p ∈ s.packets, p.id ≠ id := by simp [findPacket]

theorem discardPacket_packet (h : ∃ p ∈ s.packets, p.id = id) : discardPacket id s = setPacket id (fun q => q.loseCopy q.plane) s :=
  if_pos (by simpa [findPacket] using h)

/-- What is no packet is sent again, whether it is discarded or not acknowledged. -/
theorem exec_resends (h : ∀ p ∈ s.packets, p.id ≠ id) {i : Instr} (hi : i ∈ [Instr.retransmit id, .recoveryDiscard id]) :
    exec i s = .next (resendOther id s) := by
  rw [← findPacket_eq_none] at h
  obtain rfl | rfl : i = .retransmit id ∨ i = .recoveryDiscard id := by simpa using hi
  · exact congrArg Host.Outcome.next (by simp only [retransmit, h])
  · exact congrArg Host.Outcome.next (by simp [discardPacket, h])

end

section
variable {s : State} {c : Contribution}

theorem resendContribution_again (h : c.sent < 15) : resendContribution c s =
    { s with contribs := mapIf (fun x => x.id = c.id) (fun x => { x with sent := x.sent + 1 }) s.contribs } := if_pos h

theorem resendContribution_givesUp (h : 15 ≤ c.sent) (hpkg : c.pkg = s.pkg.toNat) : resendContribution c s =
    postReport c.gang ⟨12, 1, 0, false⟩ (fallAt [c.gang] { s with contribs := s.contribs.filter fun x => x.id != c.id }) := by
  rw [resendContribution, if_neg (Nat.not_lt.mpr h), if_pos hpkg]

/-- A contribution given up leaves, and its gang counts one less and has a report. -/
theorem resendContribution_ends {g : Gang} (h : 15 ≤ c.sent) (hpkg : c.pkg = s.pkg.toNat) (hg : s.gang? c.gang = some g) :
    let t := resendContribution c s
    t.contribs = s.contribs.filter (fun x => x.id != c.id) ∧ t.mem = s.mem ∧
      t.gang? c.gang = some (withReport ⟨12, 1, 0, false⟩ { g with outstanding := g.outstanding - 1 }) := by
  intro t
  have hbut := (postReport_butGangs c.gang ⟨12, 1, 0, false⟩ _).trans
    (fallAt_butGangs [c.gang] { s with contribs := s.contribs.filter fun x => x.id != c.id })
  rw [show t = _ from resendContribution_givesUp h hpkg]
  exact ⟨State.contribs_of_butGangs hbut, (State.mem_of_butGangs hbut :), gang?_postReport _ (gang?_fallAt hg)⟩

theorem resendOther_contribution {id : Nat} (hc : s.contribs.find? (fun c => c.id = id) = some c) : resendOther id s = resendContribution c s := by
  simp only [resendOther, hc]

theorem resendOther_delivery {id : Nat} {d : Delivery} (hc : s.contribs.find? (fun c => c.id = id) = none)
    (hd : s.deliveries.find? (fun d => d.id = id) = some d) : resendOther id s = resendBranch d s := by
  simp only [resendOther, hc, hd]

end

/-! ## Copies lost (15 R336, R337) -/

section
variable {x : Packet} {p : Nat}

theorem loseCopy_second (h : x.second = some p) : x.loseCopy p = { x with second := none } := if_pos h

theorem loseCopy_last (h : x.plane = p) (hsecond : x.second = none) : x.loseCopy p = { x with lost := true } := by
  simp [Packet.loseCopy, h, hsecond]

theorem loseCopy_first {n : Nat} (h : x.plane = p) (hsecond : x.second = some n) (hn : n ≠ p) :
    x.loseCopy p = { x with plane := n, second := none } := by
  simp [Packet.loseCopy, h, hsecond, hn]

theorem loseCopy_elsewhere (h : x.plane ≠ p) (hsecond : x.second ≠ some p) : x.loseCopy p = x := by
  simp [Packet.loseCopy, h, hsecond]

end

end Sys2Proof.Machine
end

section
/-! Links (15 R325, R326, R340) and switches with their tables and quotas (15 R341-R348); the fabric's events as a whole. -/

namespace Sys2Proof.Machine

/-! ## Links -/

section
variable {s : State} {p : Nat}

theorem linkUp_eq (h : p < 18) : s.linkUp p = s.links[p].up := dif_pos h

theorem rollKey_eq (k : Link) : rollKey k = if k.up = true ∧ k.rollover = .steady then
    { k with
      rollover := .rolling, phase := !k.phase
      key0 := if k.phase then some (k.rolled + 1) else k.key0
      key1 := if k.phase then k.key1 else some (k.rolled + 1) }
    else k := by
  unfold rollKey Link.setKey
  cases k.phase <;> simp

theorem retireKey_eq (k : Link) : retireKey k = if k.rollover = .rolling then
    { k with
      rollover := .steady, failures := 0, rolled := k.rolled + 1
      key0 := if k.phase then none else k.key0
      key1 := if k.phase then k.key1 else none }
    else k := by
  unfold retireKey Link.setKey
  cases k.phase <;> simp

theorem flitFails_eq (k : Link) : flitFails k = if k.up = true ∧ k.failures < 64 then { k with failures := k.failures + 1 } else k := by
  simp [flitFails]

/-- A link down: its new key is gone with the rollover, the copies that it carried are lost, an event names it. -/
def downState (s : State) (p : Nat) (h : p < 18) : State :=
  let k := s.links[p]
  postEvent ⟨4, linkDie p, 0xFF, 0, BitVec.ofNat 128 p, 0⟩ { s with
    links := s.links.set p { k with
      up := false, rollover := .steady
      key0 := if k.phase then none else k.key0
      key1 := if k.phase then k.key1 else none }
    packets := s.packets.map fun q => q.loseCopy p }

theorem takeDown_eq (h : p < 18) : takeDown p s = downState s p h := by
  have hkey (k : Link) : { k.setKey (!k.phase) none with up := false, rollover := .steady } =
      { k with
        up := false, rollover := .steady
        key0 := if k.phase then none else k.key0
        key1 := if k.phase then k.key1 else none } := by
    unfold Link.setKey
    cases k.phase <;> simp
  rw [takeDown, linkEvent, setLink_link h, hkey]
  rfl

theorem linkFails_down (h : p < 18) (hup : s.links[p].up = true) (hfails : 64 ≤ s.links[p].failures) : linkFails p s = downState s p h := by
  rw [linkFails, dif_pos h, if_pos (by simp [hup, hfails]), takeDown_eq]

theorem linkFails_none (h : p < 18) (hkept : s.links[p].up = false ∨ s.links[p].failures < 64) : linkFails p s = s := by
  rw [linkFails, dif_pos h, if_neg (by rcases hkept with hup | hfew <;> simp [*])]

theorem linkState_down (h : p < 18) (hup : s.links[p].up = true) : linkState s.pkg.toNat p false s = downState s p h := by
  simp [linkState, Nat.not_le.mpr h, linkUp_eq h, hup, takeDown_eq h]

theorem linkState_up (h : p < 18) (hdown : s.links[p].up = false) : linkState s.pkg.toNat p true s =
    postEvent ⟨4, linkDie p, 0xFF, 0, BitVec.ofNat 128 (p + 2 ^ 64), 0⟩
      { s with links := s.links.set p { s.links[p] with up := true, failures := 0 } } := by
  simp [linkState, Nat.not_le.mpr h, linkUp_eq h, hdown, linkEvent, setLink_link h]

theorem linkState_same (h : p < 18) : linkState s.pkg.toNat p s.links[p].up s = s := by
  simp [linkState, Nat.not_le.mpr h, linkUp_eq h]

/-- What the fabric manager reports of a peer's link stands in the list of those that are down. -/
theorem linkState_peer {q : Nat} (h : p < 18) (hq : q ≠ s.pkg.toNat) (up : Bool) :
    let t := linkState q p up s
    t = { s with downLinks := t.downLinks } ∧ ((q, p) ∈ t.downLinks ↔ up = false) ∧
      ∀ x, x ≠ (q, p) → (x ∈ t.downLinks ↔ x ∈ s.downLinks) := by
  have hp : ¬18 ≤ p := Nat.not_le.mpr h
  cases up
  case true =>
    have ht : linkState q p true s = { s with downLinks := s.downLinks.filter fun x => x != (q, p) } := by simp [linkState, hp, hq]
    rw [ht]
    exact ⟨rfl, by simp, fun x hx => by simp [hx]⟩
  case false =>
    by_cases hold : (q, p) ∈ s.downLinks
    · have ht : linkState q p false s = s := by simp [linkState, hp, hq, hold]
      rw [ht]
      exact ⟨rfl, by simp [hold], fun x _ => Iff.rfl⟩
    · have ht : linkState q p false s = { s with downLinks := s.downLinks ++ [(q, p)] } := by simp [linkState, hp, hq, hold]
      rw [ht]
      exact ⟨rfl, by simp, fun x hx => by simp [hx]⟩

end

/-! ## The table of switches (15 R341) -/

section
variable {α : Type} {p q : α → Bool} {w : α}

theorem find?_mapIf_same (hw : p w = true) (l : List α) : (mapIf p (fun _ => w) l).find? p = (l.find? p).map fun _ => w := by
  have hfits : (p ∘ fun x => if p x then w else x) = p := funext fun x => by by_cases h : p x <;> simp [h, hw]
  rw [mapIf, List.find?_map, hfits]
  cases h : l.find? p with
  | none => rfl
  | some x => simp [List.find?_some h]

theorem find?_mapIf_apart (hw : q w = false) (hpq : ∀ x, p x = true → q x = false) (l : List α) : (mapIf p (fun _ => w) l).find? q = l.find? q := by
  have hfits : (q ∘ fun x => if p x then w else x) = q := funext fun x => by by_cases h : p x <;> simp [h, hw, hpq x]
  rw [mapIf, List.find?_map, hfits]
  cases h : l.find? q with
  | none => rfl
  | some x =>
    have hx : p x = false := by
      by_contra hp
      exact absurd (List.find?_some h) (by simp [hpq x (by simpa using hp)])
    simp [hx]

end

section
variable (w : Switch) (s : State)

theorem switch?_putSwitch : (putSwitch w s).switch? w.id = some w := by
  by_cases hold : (s.switches.any fun x => x.id = w.id) = true
  · have hsome : (s.switches.find? fun x => x.id = w.id).isSome = true := by rwa [List.find?_isSome, ← List.any_eq_true]
    obtain ⟨y, hy⟩ := Option.isSome_iff_exists.mp hsome
    rw [State.switch?, putSwitch, if_pos hold, find?_mapIf_same (by simp), hy, Option.map_some]
  · have hnone : s.switches.find? (fun x => x.id = w.id) = none := by simpa using hold
    simp only [State.switch?, putSwitch, if_neg hold, List.find?_append, hnone]
    simp

theorem switch?_putSwitch_ne {j : Nat} (h : j ≠ w.id) : (putSwitch w s).switch? j = s.switch? j := by
  by_cases hold : (s.switches.any fun x => x.id = w.id) = true
  · rw [State.switch?, putSwitch, if_pos hold]
    exact find?_mapIf_apart (by simpa using h.symm) (by simp; intro x hx; rw [hx]; exact h.symm) _
  · rw [State.switch?, putSwitch, if_neg hold]
    simp [List.find?_append, h.symm, State.switch?]

end

/-! ## Switches lost, replaced and written (15 R347, R348) -/

theorem endStreams_none {q : Nat} {s : State} (h : ∀ x ∈ s.packets, x.dest ≠ 8192 + q) : endStreams q s = s := by
  have hnone : (s.packets.filter fun p => p.dest = 8192 + q) = [] := List.filter_eq_nil_iff.mpr (by simpa using h)
  rw [endStreams, hnone, List.foldl_nil]

theorem endStreams_one {q : Nat} {s : State} {x : Packet} (h : s.packets = [x]) (hdest : x.dest = 8192 + q) :
    endStreams q s = endPacket x ⟨13, 1, x.addr, false⟩ s := by
  simp [endStreams, h, hdest]

/-- A lost switch after its replacement: of the next generation, or retired past the last. -/
def Switch.replaced (w : Switch) : Switch :=
  if w.generation < 4095 then { w with state := .present, generation := w.generation + 1 } else { w with state := .absent }

theorem Switch.replaced_id (w : Switch) : w.replaced.id = w.id := by
  unfold Switch.replaced
  split <;> rfl

section
variable {q : Nat} {s : State} {w : Switch} (hw : s.switch? q = some w)
include hw

theorem loseSwitch_present (h : w.state = .present) :
    loseSwitch q s = endStreams q (putSwitch { w with state := .lost } (emptySwitch q s)) := by
  simp only [loseSwitch, hw]
  exact if_pos h

theorem loseSwitch_none (h : w.state ≠ .present) : loseSwitch q s = s := by
  simp only [loseSwitch, hw]
  exact if_neg h

theorem replaceSwitch_lost (h : w.state = .lost) : replaceSwitch q s = putSwitch w.replaced (emptySwitch q s) := by
  simp only [replaceSwitch, Switch.replaced, hw, h, bne_self_eq_false, Bool.false_eq_true, if_false]
  split <;> rfl

theorem replaceSwitch_none (h : w.state ≠ .lost) : replaceSwitch q s = s := by
  simp only [replaceSwitch, hw]
  exact if_pos (bne_iff_ne.mpr h)

end

theorem writeSwitch_bad {q p k n : Nat} {s : State} (h : 4096 ≤ q ∨ 18 ≤ p ∨ 4096 ≤ n ∨ 2 < k) : writeSwitch q p k n s = s := by
  unfold writeSwitch
  split
  case h_1 st hst =>
    have hk : k ≤ 2 := by
      by_contra hk
      obtain ⟨j, rfl⟩ : ∃ j, k = j + 3 := ⟨k - 3, by omega⟩
      exact absurd hst (by simp [switchCode])
    exact if_neg (by omega)
  case h_2 => rfl

/-- An entry of the table written, where no stream ends by it. -/
theorem writeSwitch_quiet {q p k n : Nat} {st : SwitchState} {s : State} (hq : q < 4096) (hp : p < 18) (hn : n < 4096) (hk : switchCode k = some st)
    (hquiet : st = .present ∨ ∀ x ∈ s.packets, x.dest ≠ 8192 + q) : writeSwitch q p k n s =
    putSwitch ⟨q, p, st, n⟩ (if st = .present ∧ switchPresent s q = true ∧ s.generation q = n then s else emptySwitch q s) := by
  simp only [writeSwitch, hk, hq, hp, hn, and_self, if_true, Bool.and_eq_true, decide_eq_true_eq, and_assoc]
  split
  case isTrue => rfl
  case isFalse h =>
    rw [if_neg fun hsame => h hsame.1]
    exact endStreams_none (hquiet.resolve_left h)

/-! ## Quotas (15 R346) -/

theorem setQuota_bad {t q n : Nat} {s : State} (h : 64 ≤ t ∨ 4096 ≤ q) : setQuota t q n s = s := if_neg (by omega)

section
variable {t : BitVec 6} {q n : Nat} {s : State} (hq : q < 4096)
include hq

theorem setQuota_eq : setQuota t.toNat q n s = { s with quotas := (t.toNat, q, n) :: s.quotas.filter fun x => !(x.1 = t.toNat && x.2.1 = q) } :=
  if_pos ⟨t.isLt, hq⟩

theorem quotaOf_setQuota : quotaOf (setQuota t.toNat q n s) t q = n := by simp [setQuota_eq hq, quotaOf]

theorem quotaOf_setQuota_ne {t1 : BitVec 6} {q1 : Nat} (h : t1 ≠ t ∨ q1 ≠ q) : quotaOf (setQuota t.toNat q n s) t1 q1 = quotaOf s t1 q1 := by
  have hother : ¬(t.toNat = t1.toNat ∧ q = q1) := by
    rintro ⟨ht, rfl⟩
    exact h.elim (fun h => h (BitVec.eq_of_toNat_eq ht.symm)) fun h => h rfl
  have hfound : ((t.toNat, q, n) :: s.quotas.filter fun x => !(x.1 = t.toNat && x.2.1 = q)).find? (fun x => x.1 = t1.toNat && x.2.1 = q1) =
      s.quotas.find? fun x => x.1 = t1.toNat && x.2.1 = q1 := by
    rw [List.find?_cons_of_neg (by simpa using hother), List.find?_filter]
    refine congrArg (List.find? · s.quotas) (funext fun x => ?_)
    have hkept : (decide (x.1 = t1.toNat) && decide (x.2.1 = q1)) = true → (!(decide (x.1 = t.toNat) && decide (x.2.1 = q))) = true := by
      simp only [Bool.and_eq_true, Bool.not_eq_true', Bool.and_eq_false_imp, decide_eq_true_eq, decide_eq_false_iff_not]
      omega
    exact Bool.eq_iff_iff.mpr (decide_eq_true_iff.trans (and_iff_right_of_imp hkept))
  rw [setQuota_eq hq, quotaOf, hfound, quotaOf]

end

/-! ## The statement -/

/-- Settles O47: each event is the one function of the model that its word names, taken in its cases. -/
theorem fabricEvents : Obligations.FabricEvents := by
  refine ⟨fun core line id code s => ?_, fun p q s => ?_⟩
  · refine ⟨?old, ?young, ?held, fun p => packetTurn_iff, ?write, ?atomic, ?signal, ?predecessor, ?drain, ?unacked, ?acked, ?refused, ?byPeer,
      ?unrefused, ?patient, ?givesUp, ?again, ?planes, ?discard, fun hother i hi => ?resends⟩
    case old =>
      intro e he hage
      refine ⟨_, _, congrArg Host.Outcome.next ((drainAged_old he hage).trans (drainEntry_sends he)), ?_, rfl, rfl, rfl, rfl, rfl, rfl, rfl, rfl, rfl,
        rfl, rfl, rfl⟩
      exact (congrArg Core.wc (State.core_setCore s core fun k => { k with wc := k.wc.filter fun x => x.line != line }) :)
    case young => exact fun e he hage => congrArg Host.Outcome.next (drainAged_young he hage)
    case held => exact fun p hp h => congrArg Host.Outcome.next (applyPacket_held hp h)
    case write =>
      intro p ln bs hp hnew hlost hturn hok hfree hkind hlen hs hdir
      obtain ⟨hlines, hline, hversion⟩ := homeWrite_line (ln := ln) hs (Packet.lineAfter_length ln bs s)
      refine ⟨_, Applies.exec_eq ⟨hp, hnew, hlost, hturn, hok, hfree⟩ (by rw [hkind]; rfl) (packetEffect_write hkind hdir), hlines, fun k hk => ?_,
        hversion, fun q => answered_of_mem, rfl, rfl⟩
      exact (congrArg (·[k]?) hline).trans (Packet.lineAfter_getElem? bs s hk)
    case atomic =>
      exact fun p a op n x hp hnew hlost hturn hok hfree hkind hdir hword => ⟨_, Applies.exec_eq ⟨hp, hnew, hlost, hturn, hok, hfree⟩
        (by rw [hkind]; rfl) (packetEffect_atomic hkind hdir hword), rfl, homeWrite_version .., fun q => answered_of_mem, rfl⟩
    case signal =>
      exact fun p a x hp hnew hlost hturn hok hfree hkind hdir hword => ⟨_, Applies.exec_eq ⟨hp, hnew, hlost, hturn, hok, hfree⟩
        (by rw [hkind]; rfl) (packetEffect_signalAdd hkind hdir hword), rfl, fun q => answered_of_mem, rfl⟩
    case predecessor =>
      exact fun p q a err hp hnew hlost hturn hok hfree hkind hdest => ⟨_, Applies.exec_eq ⟨hp, hnew, hlost, hturn, hok, hfree⟩
        (by rw [hkind]; rfl) (packetEffect_predSignal hkind hdest), rfl, fun q => answered_of_mem, rfl⟩
    case drain =>
      intro p w4 w5 vs hp hnew hlost hturn hok hkind hdest
      have happly : applyPacket id s = packetEffect p s := by
        rw [(Applies.mk hp hnew hlost hturn hok (by rw [Packet.waits, hkind])).applyPacket_eq]
        exact if_pos (by simp [hkind, PacketKind.apart, hdest])
      rw [← packet_id hp] at happly ⊢
      exact ⟨fun h => congrArg Host.Outcome.next (happly.trans (packetEffect_drain hkind hdest h)),
        fun h => congrArg Host.Outcome.next (happly.trans (packetEffect_drain_again hkind hdest h))⟩
    case unacked => exact fun p hp h => congrArg Host.Outcome.next (receiveAck_none hp h)
    case acked =>
      intro p hp hdone hlost
      obtain rfl := packet_id hp
      have hbut := fallAt_butGangs p.gangs (dropPacket p.id (setLink p.plane (fun k => { k with failures := 0 }) s))
      refine ⟨_, congrArg Host.Outcome.next (receiveAck_eq hp hdone hlost), fun q hq => ?left, (State.mem_of_butGangs hbut :), acked_links,
        fun u g hgangs hg => ?count⟩
      case left => exact not_mem_dropPacket (s := s) (by rwa [State.packets_of_butGangs hbut] at hq)
      case count =>
        rw [hgangs]
        exact gang?_fallAt hg
    case refused => exact fun p w hp hnew hlost hturn h => endsPacket_of_exec (congrArg Host.Outcome.next (packetFails_refused hp hnew hlost hturn h))
    case byPeer =>
      exact fun p w hp hnew hlost hturn h hpeer => endsPacket_of_exec (congrArg Host.Outcome.next (packetFails_byPeer hp hnew hlost hturn h hpeer))
    case unrefused => exact fun p hp h => congrArg Host.Outcome.next (packetFails_none hp h)
    case patient => exact fun p hp h => congrArg Host.Outcome.next (retransmit_patient hp h)
    case givesUp => exact fun p hp himpatient hsrc h => endsPacket_of_exec (congrArg Host.Outcome.next (retransmit_givesUp hp himpatient hsrc h))
    case again =>
      rintro p ways hp himpatient h rfl
      exact congrArg Host.Outcome.next (retransmit_again hp himpatient h)
    case planes =>
      refine fun n x hpeer hn hup hup9 hfar hfar9 => ⟨criticalPlanes_own hpeer hn hup hup9 hfar hfar9, ?_⟩
      exact congrArg Option.toList (planeOf_own hpeer hn hup hfar)
    case discard => exact fun h => congrArg Host.Outcome.next (discardPacket_packet h)
    case resends =>
      rw [exec_resends hother hi]
      refine ⟨fun c hc h => ?again, fun c g hc h hpkg hg => ?ends, fun d hc hd => ⟨fun h => ?branchAgain, fun h hcounted hsender => ?branchEnds⟩⟩
      case again =>
        have hid : c.id = id := by simpa using List.find?_some hc
        rw [resendOther_contribution hc, resendContribution_again h, hid]
      case ends =>
        have hid : c.id = id := by simpa using List.find?_some hc
        rw [resendOther_contribution hc, ← hid]
        exact ⟨_, rfl, resendContribution_ends h hpkg hg⟩
      case branchAgain =>
        have hid : d.id = id := by simpa using List.find?_some hd
        rw [resendOther_delivery hc hd, resendBranch, if_neg (Nat.not_le.mpr h), hid]
      case branchEnds =>
        rw [resendOther_delivery hc hd, resendBranch, if_pos h, failBranch, hcounted, if_pos rfl, if_pos hsender]
  · refine ⟨⟨fun h => ?roll, fun h => congrArg Host.Outcome.next (setLink_none h _)⟩,
      ⟨fun h => ?retire, fun h => congrArg Host.Outcome.next (setLink_none h _)⟩,
      ⟨fun h => ?fails, fun h => congrArg Host.Outcome.next (setLink_none h _)⟩,
      fun h => ?down, fun x => ?copies, fun h => ?up, fun h hq up => ?peer, by decide,
      fun w hw hpresent hquiet => ?lostQuiet, fun w x u g hw hpresent hx hdest hgangs hcmd hg => ?lostOne, fun w hw h => ?lostNone,
      fun w hw h => ?replaced, fun w hw h => ?replacedNone, fun k n st hq hp hn hk hquiet => ?written,
      fun k n h => congrArg Host.Outcome.next (writeSwitch_bad h),
      fun t n hq => ?quota, fun t n h => congrArg Host.Outcome.next (setQuota_bad h)⟩
    case roll => exact congrArg Host.Outcome.next ((setLink_link h rollKey).trans (by rw [rollKey_eq]))
    case retire => exact congrArg Host.Outcome.next ((setLink_link h retireKey).trans (by rw [retireKey_eq]))
    case fails => exact congrArg Host.Outcome.next ((setLink_link h flitFails).trans (by rw [flitFails_eq]))
    case down =>
      exact ⟨fun hup hfails => congrArg Host.Outcome.next (linkFails_down h hup hfails),
        fun hkept => congrArg Host.Outcome.next (linkFails_none h hkept), fun hup => congrArg Host.Outcome.next (linkState_down h hup)⟩
    case copies => exact ⟨loseCopy_elsewhere, loseCopy_last, fun hplane n => loseCopy_first hplane, loseCopy_second⟩
    case up =>
      refine ⟨fun hdown => congrArg Host.Outcome.next (linkState_up h hdown), ?_⟩
      rintro up rfl
      exact congrArg Host.Outcome.next (linkState_same h)
    case peer => exact ⟨_, rfl, linkState_peer h hq up⟩
    case lostQuiet =>
      obtain rfl := switch?_id hw
      have hends : loseSwitch w.id s = putSwitch { w with state := .lost } (emptySwitch w.id s) :=
        (loseSwitch_present hw hpresent).trans (endStreams_none (s := putSwitch _ (emptySwitch w.id s)) (by simpa [putSwitch, emptySwitch] using hquiet))
      exact ⟨_, congrArg Host.Outcome.next hends, switch?_putSwitch { w with state := .lost } _, rfl, rfl, rfl,
        fun j hj => switch?_putSwitch_ne _ _ hj⟩
    case lostOne =>
      have hends : loseSwitch q s = endPacket x ⟨13, 1, x.addr, false⟩ (putSwitch { w with state := .lost } (emptySwitch q s)) :=
        (loseSwitch_present hw hpresent).trans (endStreams_one hx hdest)
      refine ⟨_, congrArg Host.Outcome.next hends, ?_, gang?_endPacket hcmd hgangs hg⟩
      rw [endPacket_packets, dropPacket, putSwitch, emptySwitch, hx]
      simp
    case lostNone => exact congrArg Host.Outcome.next (loseSwitch_none hw h)
    case replaced =>
      obtain rfl := switch?_id hw
      refine ⟨_, congrArg Host.Outcome.next (replaceSwitch_lost hw h), rfl, fun j hj => switch?_putSwitch_ne _ _ (by rwa [Switch.replaced_id]), ?_⟩
      have hput := switch?_putSwitch w.replaced (emptySwitch w.id s)
      rwa [Switch.replaced_id] at hput
    case replacedNone => exact congrArg Host.Outcome.next (replaceSwitch_none hw h)
    case written =>
      have hcode : switchCode k = some st := by
        simp only [List.mem_cons, Prod.mk.injEq, List.not_mem_nil, or_false] at hk
        obtain ⟨rfl, rfl⟩ | ⟨rfl, rfl⟩ | ⟨rfl, rfl⟩ := hk <;> rfl
      refine ⟨_, congrArg Host.Outcome.next (writeSwitch_quiet hq hp hn hcode hquiet), ?_, switch?_putSwitch _ _, fun j hj => ?_⟩
      · split <;> rfl
      · rw [switch?_putSwitch_ne _ _ hj]
        split <;> rfl
    case quota =>
      refine ⟨_, rfl, ?_, quotaOf_setQuota hq, fun t1 q1 => quotaOf_setQuota_ne hq⟩
      rw [setQuota_eq hq]

end Sys2Proof.Machine
end

section
/-! Rounds of a reduction (15 R353, R354): contributions taken, rounds that open, fail or complete, and what a completed round sends. -/

namespace Sys2Proof.Machine

/-! ## Contributions taken (15 R353) -/

/-- The state in which a contribution of this package has been taken: it has left, and its gang counts one less. -/
def acknowledged (c : Contribution) (s : State) : State := fallAt [c.gang] { s with contribs := s.contribs.filter fun x => x.id != c.id }

theorem acknowledged_butGangs (c : Contribution) (s : State) :
    (acknowledged c s).butGangs = { s with contribs := s.contribs.filter fun x => x.id != c.id }.butGangs :=
  fallAt_butGangs [c.gang] _

section
variable (c : Contribution) (s : State)

theorem acknowledged_rounds : (acknowledged c s).rounds = s.rounds := (State.rounds_of_butGangs (acknowledged_butGangs c s) :)
theorem acknowledged_mem : (acknowledged c s).mem = s.mem := (State.mem_of_butGangs (acknowledged_butGangs c s) :)
theorem acknowledged_contribs : (acknowledged c s).contribs = s.contribs.filter fun x => x.id != c.id :=
  (State.contribs_of_butGangs (acknowledged_butGangs c s) :)
theorem acknowledged_deliveries : (acknowledged c s).deliveries = s.deliveries := (State.deliveries_of_butGangs (acknowledged_butGangs c s) :)
theorem acknowledged_branches : (acknowledged c s).branches = s.branches := (congrArg State.branches (acknowledged_butGangs c s) :)
theorem acknowledged_nextId : (acknowledged c s).nextId = s.nextId := (congrArg State.nextId (acknowledged_butGangs c s) :)

theorem gang?_acknowledged {g : Gang} (h : s.gang? c.gang = some g) : (acknowledged c s).gang? c.gang = some { g with outstanding := g.outstanding - 1 } :=
  gang?_fallAt h

end

/-- A contribution of this package, and the group that it names. -/
structure Contributes (s : State) (id : Nat) (c : Contribution) (G : Group) : Prop where
  found : s.contribs.find? (fun c => c.id = id) = some c
  group : s.groups.find? (fun g => g.id = bits c.control.toNat 11 0) = some G
  mine : c.pkg = s.pkg.toNat

/-- The open round that a contribution is of. -/
def State.roundOf (s : State) (c : Contribution) : Option Round :=
  s.rounds.find? fun r => r.group = bits c.control.toNat 11 0 && r.number = bits c.control.toNat 31 18

/-- The round that a contribution opens. -/
def Contribution.newRound (c : Contribution) : Round := ⟨bits c.control.toNat 11 0, bits c.control.toNat 31 18, [], none⟩

namespace Contributes

variable {s : State} {id : Nat} {c : Contribution} {G : Group} (h : Contributes s id c G)
include h

theorem contribution_id : c.id = id := by simpa using List.find?_some h.found

theorem takeContribution_cut (hdown : s.linkUp G.plane = false) : takeContribution id s = resendContribution c s := by
  simp [takeContribution, h.found, h.group, h.mine, hdown]

theorem takeContribution_waits (hup : s.linkUp G.plane = true) (hnew : s.roundOf c = none)
    (hfull : 16 ≤ (s.rounds.filter fun r => r.group = bits c.control.toNat 11 0).length) : takeContribution id s = s := by
  unfold State.roundOf at hnew
  simp [takeContribution, h.found, h.group, h.mine, hup, hnew, hfull]

theorem takeContribution_enters (hup : s.linkUp G.plane = true)
    (hroom : (s.roundOf c).isSome = true ∨ (s.rounds.filter fun r => r.group = bits c.control.toNat 11 0).length < 16) :
    takeContribution id s = enterRound G ((s.roundOf c).getD c.newRound) c (acknowledged c s) := by
  obtain rfl := h.contribution_id
  have hopen : ((s.roundOf c).isNone && decide (16 ≤ (s.rounds.filter fun r => r.group = bits c.control.toNat 11 0).length)) = false := by
    rcases hroom with hold | hfew
    · simp [Option.isSome_iff_ne_none.mp hold]
    · simp [hfew]
  unfold State.roundOf at hopen ⊢
  simp only [takeContribution, h.found, h.group, h.mine, hup, hopen, Bool.not_true, Bool.false_and, Bool.or_self, Bool.false_eq_true, if_false, if_true]
  rfl

theorem takeContribution_old {r : Round} (hup : s.linkUp G.plane = true) (hr : s.roundOf c = some r) :
    takeContribution id s = enterRound G r c (acknowledged c s) := by
  rw [h.takeContribution_enters hup (.inl (by rw [hr]; rfl)), hr, Option.getD_some]

theorem takeContribution_new (hup : s.linkUp G.plane = true) (hr : s.roundOf c = none)
    (hfew : (s.rounds.filter fun r => r.group = bits c.control.toNat 11 0).length < 16) :
    takeContribution id s = enterRound G c.newRound c (acknowledged c s) := by
  rw [h.takeContribution_enters hup (.inr hfew), hr, Option.getD_none]

end Contributes

/-! ## What a contribution makes of its round (15 R353) -/

/-- A round with one more contribution. -/
def Round.plus (r : Round) (c : Contribution) : Round := { r with taken := r.taken ++ [c] }

section
variable {G : Group} {r : Round} {c : Contribution} {s : State}

/-- Every member has contributed once this contribution is taken. -/
theorem all_contributed_iff : (G.members.all fun m => (r.plus c).taken.any fun x => x.pkg = m) = true ↔
    ∀ m ∈ G.members, m = c.pkg ∨ ∃ x ∈ r.taken, x.pkg = m := by
  simp only [Round.plus, List.all_eq_true, List.any_append, List.any_cons, List.any_nil, Bool.or_false, Bool.or_eq_true, List.any_eq_true,
    decide_eq_true_eq]
  refine forall₂_congr fun m _ => ?_
  rw [or_comm, eq_comm]

theorem not_all_contributed (h : ∃ m ∈ G.members, m ≠ c.pkg ∧ ∀ x ∈ r.taken, x.pkg ≠ m) :
    ¬(G.members.all fun m => (r.plus c).taken.any fun x => x.pkg = m) = true := by
  rw [all_contributed_iff]
  obtain ⟨m, hm, hself, hothers⟩ := h
  exact fun hall => (hall m hm).elim hself fun ⟨x, hx, hpkg⟩ => hothers x hx hpkg

theorem setRound_new (h : s.rounds.find? (fun x => x.group = r.group && x.number = r.number) = none) :
    (setRound r s).rounds = s.rounds ++ [r] := by
  refine if_neg ?_
  rw [List.any_eq_true]
  exact fun ⟨x, hx, hfits⟩ => absurd hfits (List.find?_eq_none.mp h x hx)

theorem setRound_old (h : ∃ x ∈ s.rounds, x.group = r.group ∧ x.number = r.number) :
    (setRound r s).rounds = mapIf (fun x => x.group = r.group && x.number = r.number) (fun _ => r) s.rounds :=
  if_pos (by simpa using h)

variable (hopen : r.failed = none)
include hopen

theorem enterRound_twice (h : ∃ x ∈ r.taken, x.pkg = c.pkg) : enterRound G r c s = failRound G (r.plus c) 0x0B s := by
  simp only [enterRound, hopen]
  exact if_pos (by simpa using h)

variable (honce : ∀ x ∈ r.taken, x.pkg ≠ c.pkg)
include honce

theorem enterRound_disagrees (h : ∃ x ∈ r.taken, roundFields x ≠ roundFields c) : enterRound G r c s = failRound G (r.plus c) 0x0A s := by
  simp only [enterRound, hopen]
  rw [if_neg (by simpa using honce)]
  exact if_pos (by simpa using h)

variable (hagree : ∀ x ∈ r.taken, roundFields x = roundFields c)
include hagree

theorem enterRound_agrees : enterRound G r c s =
    if G.members.all fun m => (r.plus c).taken.any fun x => x.pkg = m then completeRound G (r.plus c) s else setRound (r.plus c) s := by
  simp only [enterRound, hopen]
  rw [if_neg (by simpa using honce), if_neg (by simpa using hagree)]
  simp only [Round.plus, hopen]

theorem enterRound_completes (h : ∀ m ∈ G.members, m = c.pkg ∨ ∃ x ∈ r.taken, x.pkg = m) :
    enterRound G r c s = completeRound G (r.plus c) s := by
  rw [enterRound_agrees hopen honce hagree, if_pos (all_contributed_iff.mpr h)]

theorem enterRound_stands (h : ∃ m ∈ G.members, m ≠ c.pkg ∧ ∀ x ∈ r.taken, x.pkg ≠ m) : enterRound G r c s = setRound (r.plus c) s := by
  rw [enterRound_agrees hopen honce hagree, if_neg (not_all_contributed h)]

end

theorem reportMember_butGangs (code : Nat) (c : Contribution) (s : State) : (reportMember code c s).butGangs = s.butGangs := by
  unfold reportMember
  split
  · exact postReport_butGangs c.gang _ s
  · rfl

theorem reportMembers_butGangs (code : Nat) (l : List Contribution) (s : State) : (l.foldl (fun s c => reportMember code c s) s).butGangs = s.butGangs :=
  foldl_keeps State.butGangs (fun s c => reportMember_butGangs code c s) l s

/-- A round that fails before every member has contributed stands, failed, for the rest of them. -/
theorem failRound_stands {G : Group} {r : Round} {c : Contribution} {code : Nat} {s : State} (hr : r ∈ s.rounds)
    (h : ∃ m ∈ G.members, m ≠ c.pkg ∧ ∀ x ∈ r.taken, x.pkg ≠ m) :
    let t := failRound G (r.plus c) code s
    t.rounds = mapIf (fun x => x.group = r.group && x.number = r.number)
        (fun _ => { r with taken := r.taken ++ [c], failed := some (BitVec.ofNat 8 code) }) s.rounds ∧
      t.mem = s.mem ∧ t.deliveries = s.deliveries := by
  intro t
  have ht : t = setRound { r with taken := r.taken ++ [c], failed := some (BitVec.ofNat 8 code) }
      ((r.plus c).taken.foldl (fun s c => reportMember code c s) s) := if_neg (not_all_contributed h)
  have hbut := reportMembers_butGangs code (r.plus c).taken s
  have hrounds := State.rounds_of_butGangs hbut
  rw [ht]
  refine ⟨?_, (State.mem_of_butGangs hbut :), (State.deliveries_of_butGangs hbut :)⟩
  have hset := setRound_old (r := { r with taken := r.taken ++ [c], failed := some (BitVec.ofNat 8 code) })
    (s := (r.plus c).taken.foldl (fun s c => reportMember code c s) s) ⟨r, by rwa [hrounds], rfl, rfl⟩
  rwa [hrounds] at hset

/-! ## What a completed round sends (15 R353, R354) -/

theorem rotateLeft_one {α : Type} (a : α) (n : Nat) : [a].rotateLeft (n % 1) = [a] := by
  rw [Nat.mod_one]; rfl

theorem rotateLeft_two {α : Type} (a b : α) (n : Nat) : [a, b].rotateLeft (n % 2) = [a, b] ∨ [a, b].rotateLeft (n % 2) = [b, a] := by
  obtain h | h := Nat.mod_two_eq_zero_or_one n <;> rw [h]
  · exact .inl rfl
  · exact .inr rfl

theorem pairUp_one (op type tick : Nat) (a : List Word) : pairUp op type 1 tick [a] = a := by
  simp [pairUp, rotateLeft_one]

/-- Of two contributions the tree makes the combination, in one order or the other. -/
theorem pairUp_two (op type tick : Nat) (a b : List Word) :
    pairUp op type 2 tick [a, b] = combinePair op type a b ∨ pairUp op type 2 tick [a, b] = combinePair op type b a := by
  have hpair (x y : List Word) (h : [a, b].rotateLeft (Config.pick tick % 2) = [x, y]) : pairUp op type 2 tick [a, b] = combinePair op type x y := by
    rw [pairUp, show max 1 [a, b].length = 2 from rfl, h]
    simp only [List.length_singleton, Nat.max_self, rotateLeft_one]
    exact pairUp_one op type _ _
  exact (rotateLeft_two a b (Config.pick tick)).imp (hpair a b) (hpair b a)

/-- Words 34 to 63 of a triple are zero already. -/
theorem combineTriples_take (a b : List Word) : (combineTriples a b).take 34 ++ List.replicate 30 0 = combineTriples a b := by
  unfold combineTriples
  extract_lets m1 m2 m f g
  split
  · rw [List.take_left' (List.length_replicate ..)]
  · rw [List.take_left' (by simp)]

/-- The result of a round, from the words of its elements: of op 3 words 34 to 63 are zero. -/
def resultOf (op : Nat) (x : List Word) : List Word := if op = 3 then x.take 34 ++ List.replicate 30 0 else x

theorem resultOf_combinePair (op type : Nat) (a b : List Word) : resultOf op (combinePair op type a b) = combinePair op type a b := by
  unfold resultOf combinePair
  split
  · exact combineTriples_take a b
  · rfl

/-- The payload of a round's result, of contributions whose control word is that of c. -/
def roundPayload (c : Contribution) (l : List Contribution) (tick : Nat) : List Byte :=
  let op := bits c.control.toNat 14 12
  let type := bits c.control.toNat 17 15
  bytesOf type (resultOf op (pairUp op type l.length tick (l.map fun x => elemsOf type x.payload)))

/-- Who receives a round's result: every member, or the root alone. -/
def resultTo (c : Contribution) (l : List Contribution) : List Contribution :=
  l.filter fun x => bits c.control.toNat 45 45 = 1 || x.pkg = bits c.control.toNat 44 32

/-- The branch of a result to one contributor, numbered from k. -/
def resultBranch (G : Group) (c : Contribution) (payload : List Byte) (k : Nat) (x : Contribution × Nat) : Delivery :=
  ⟨k + x.2, x.1.pkg, bits c.control.toNat 44 32, x.1.gang, x.1.tenant, x.1.dest, payload, false, G.id, 0, 0, 1⟩

def resultBranches (G : Group) (c : Contribution) (l : List Contribution) (s : State) : List Delivery :=
  (resultTo c l).zipIdx.map (resultBranch G c (roundPayload c l s.tick) s.nextId)

section
variable {G : Group} {c : Contribution} {l : List Contribution} {s : State}

theorem mem_resultBranches {x : Delivery} (h : x ∈ resultBranches G c l s) :
    s.nextId ≤ x.id ∧ x.counted = false ∧ x.payload = roundPayload c l s.tick := by
  obtain ⟨y, -, rfl⟩ := List.mem_map.mp h
  exact ⟨Nat.le_add_right .., rfl, rfl⟩

theorem resultBranches_receivers :
    (resultBranches G c l s).map (fun x => (x.pkg, x.gang, x.dest)) = (resultTo c l).map fun x => (x.pkg, x.gang, x.dest) := by
  rw [resultBranches, List.map_map]
  calc (resultTo c l).zipIdx.map _
      = ((resultTo c l).zipIdx.map Prod.fst).map fun x => (x.pkg, x.gang, x.dest) := (List.map_map ..).symm
    _ = _ := by rw [List.zipIdx_map_fst]

/-- A completed round is closed, and its result is on its way. -/
theorem completeRound_spec {r : Round} {c0 : Contribution} {rest : List Contribution} (hfirst : r.taken = c0 :: rest)
    (hfields : roundFields c0 = roundFields c) (hold : ∀ x ∈ s.branches, x.id < s.nextId) :
    let t := completeRound G r s
    t.rounds = s.rounds.filter (fun x => !(x.group = r.group && x.number = r.number)) ∧ t.mem = s.mem ∧
      (t.branches.filter fun x => s.nextId ≤ x.id).Perm (resultBranches G c r.taken s) := by
  intro t
  have ht : t = dropRound r (sendBranches G.plane (bits c.control.toNat 44 32) (resultBranches G c r.taken s)
      { s with tick := s.tick + 2 * r.taken.length, nextId := s.nextId + (resultTo c r.taken).length }) := by
    simp only [t, completeRound, hfirst, hfields]
    rfl
  have hbranches : t.branches.Perm (s.branches ++ resultBranches G c r.taken s) := by
    rw [ht]
    exact sendBranches_branches (zipIdx_ids_nodup (resultTo c r.taken) _ s.nextId fun _ => rfl)
  refine ⟨by rw [ht]; rfl, by rw [ht]; rfl, ?_⟩
  have hfresh : ((s.branches ++ resultBranches G c r.taken s).filter fun x => s.nextId ≤ x.id) = resultBranches G c r.taken s := by
    rw [List.filter_append, List.filter_eq_nil_iff.mpr (by simpa using hold), List.nil_append]
    exact List.filter_eq_self.mpr fun x hx => decide_eq_true (mem_resultBranches hx).1
  rw [← hfresh]
  exact hbranches.filter _

theorem roundPayload_one (tick : Nat) :
    roundPayload c [c] tick = bytesOf (bits c.control.toNat 17 15)
      (resultOf (bits c.control.toNat 14 12) (elemsOf (bits c.control.toNat 17 15) c.payload)) := by
  simp only [roundPayload, List.map_cons, List.map_nil, List.length_singleton, pairUp_one]

theorem roundPayload_two (y : Contribution) (tick : Nat) :
    ∃ u v, (u, v) ∈ [(y, c), (c, y)] ∧ roundPayload c [y, c] tick = bytesOf (bits c.control.toNat 17 15)
      (combinePair (bits c.control.toNat 14 12) (bits c.control.toNat 17 15) (elemsOf (bits c.control.toNat 17 15) u.payload)
        (elemsOf (bits c.control.toNat 17 15) v.payload)) := by
  simp only [roundPayload, List.map_cons, List.map_nil, List.length_cons, List.length_nil, Nat.zero_add, Nat.reduceAdd]
  obtain h | h := pairUp_two (bits c.control.toNat 14 12) (bits c.control.toNat 17 15) tick (elemsOf (bits c.control.toNat 17 15) y.payload)
    (elemsOf (bits c.control.toNat 17 15) c.payload)
  · exact ⟨y, c, by simp, by rw [h, resultOf_combinePair]⟩
  · exact ⟨c, y, by simp, by rw [h, resultOf_combinePair]⟩

end

end Sys2Proof.Machine
end

section
/-! Deliveries here and at peers, branches in residue entries, groups (15 R349-R353, R357); the events of collectives as a whole. -/

namespace Sys2Proof.Machine

/-! ## Branches that end (15 R352, R360) -/

section
variable (d : Delivery) (s : State)

theorem endBranch_butGangs : (endBranch d s).butGangs = { s with deliveries := s.deliveries.filter fun x => x.id != d.id }.butGangs := by
  unfold endBranch
  extract_lets s1
  split
  · exact fallAt_butGangs [d.gang] s1
  · rfl

theorem endBranch_mem : (endBranch d s).mem = s.mem := (State.mem_of_butGangs (endBranch_butGangs d s) :)

theorem not_mem_endBranch {x : Delivery} (h : x ∈ (endBranch d s).deliveries) : x.id ≠ d.id := by
  rw [State.deliveries_of_butGangs (endBranch_butGangs d s)] at h
  simpa using (List.mem_filter.mp h).2

theorem failBranch_mem (code addr : Nat) : (failBranch d code addr s).mem = s.mem := by
  rw [failBranch, endBranch_mem]
  by_cases h : (if d.counted then d.sender else d.pkg) = s.pkg.toNat
  · rw [if_pos h]
    exact State.mem_of_butGangs (postReport_butGangs d.gang _ s)
  · rw [if_neg h]

theorem not_mem_failBranch {code addr : Nat} {x : Delivery} (h : x ∈ (failBranch d code addr s).deliveries) : x.id ≠ d.id :=
  not_mem_endBranch d _ h

end

/-- The last branch of a word of this package ends: its gang counts one less; a result's end changes no count. -/
theorem gang?_endBranch {d : Delivery} {s : State} {g : Gang} (hsender : d.sender = s.pkg.toNat) (hg : s.gang? d.gang = some g)
    (hlast : ∀ x ∈ s.branches, x.id ≠ d.id → x.op ≠ d.op) (hresidues : s.residues = []) :
    (endBranch d s).gang? d.gang = some (if d.counted then { g with outstanding := g.outstanding - 1 } else g) := by
  have hothers : ({ s with deliveries := s.deliveries.filter fun x => x.id != d.id }.branches.all fun x => x.op != d.op) = true := by
    simp only [State.branches, hresidues, List.flatMap_nil, List.append_nil] at hlast ⊢
    simpa [or_iff_not_imp_left] using hlast
  unfold endBranch
  simp only [hothers, hsender, decide_true, Bool.and_true]
  cases d.counted
  · exact hg
  · exact gang?_fallAt hg

/-- A branch that fails at this package, of a word or a contribution of this package: the receiver's failure is reported at its gang. -/
theorem gang?_failBranch {d : Delivery} {code addr : Nat} {s : State} {g : Gang} (hsender : d.sender = s.pkg.toNat) (hpkg : d.pkg = s.pkg.toNat)
    (hg : s.gang? d.gang = some g) (hlast : ∀ x ∈ s.branches, x.id ≠ d.id → x.op ≠ d.op) (hresidues : s.residues = []) :
    (failBranch d code addr s).gang? d.gang = some (let r := withReport ⟨12, code, addr, false⟩ g
      if d.counted then { r with outstanding := r.outstanding - 1 } else r) := by
  have hbut := postReport_butGangs d.gang ⟨12, code, addr, false⟩ s
  have hbranches : (postReport d.gang ⟨12, code, addr, false⟩ s).branches = s.branches := (congrArg State.branches hbut :)
  have hboth : (if d.counted then d.sender else d.pkg) = s.pkg.toNat := by rw [hsender, hpkg, ite_self]
  rw [failBranch, if_pos hboth]
  exact gang?_endBranch (hsender.trans (congrArg BitVec.toNat (State.pkg_of_butGangs hbut).symm)) (gang?_postReport _ hg) (by rwa [hbranches])
    ((State.residues_of_butGangs hbut).trans hresidues)

/-! ## Deliveries (15 R352, R353, R357) -/

theorem branchBehind_iff (d : Delivery) (s : State) : branchBehind d s = true ↔
    if d.counted = true then (∃ x ∈ s.branches, x.counted = true ∧ x.id < d.id ∧ x.sender = d.sender ∧ x.pkg = d.pkg) ∨
      ∃ q ∈ s.packets, q.id < d.id ∧ q.src = d.sender ∧ q.dest = d.pkg ∧ q.applied = false ∧ q.kind.apart = false
    else ∃ x ∈ s.branches, x.counted = false ∧ x.id < d.id ∧ x.sender = d.sender ∧ x.pkg = d.pkg ∧ x.group = d.group := by
  unfold branchBehind
  split
  · simp only [multicastAhead, Bool.or_eq_true, List.any_eq_true, Bool.and_eq_true, Bool.not_eq_true', decide_eq_true_eq, and_assoc]
    refine or_congr_left (exists_congr fun x => ?_)
    tauto
  · simp only [List.any_eq_true, Bool.and_eq_true, Bool.not_eq_true', decide_eq_true_eq, and_assoc]

theorem peerPlace_known {k q va : Nat} {t : BitVec 6} {s : State} {x : PeerPage}
    (h : s.peerPages.find? (fun x => x.pkg = q && x.tenant = t && x.page = va / 4096) = some x) : peerPlace k q t va s = .ok (x.fpa + va % 4096) := by
  simp only [peerPlace, h]

/-- The plane of a branch's group. -/
def State.planeTo (s : State) (d : Delivery) : Nat := ((s.groups.find? fun g => g.id = d.group).map Group.plane).getD 0

section
variable {s : State} {id : Nat} {d : Delivery} (hd : s.deliveries.find? (fun d => d.id = id) = some d)
include hd

theorem delivery_id : d.id = id := by simpa using List.find?_some hd

theorem deliverBranch_behind (h : branchBehind d s = true) : deliverBranch id s = s := by
  simp only [deliverBranch, hd, h, if_true]

variable (hfirst : branchBehind d s = false)
include hfirst

theorem deliverBranch_far (hpkg : d.pkg ≠ s.pkg.toNat) (hup : (d.pkg, s.planeTo d) ∉ s.downLinks) : deliverBranch id s = deliverFar d s := by
  unfold State.planeTo at hup
  simp [deliverBranch, hd, hfirst, hpkg, hup]

variable (hpkg : d.pkg = s.pkg.toNat) (hup : s.linkUp (s.planeTo d) = true)
include hpkg hup

theorem deliverBranch_fails {w : Why} {u : State}
    (h : translateBranch d.tenant [d.dest.toNat, d.dest.toNat + 128, d.dest.toNat + 256] s = .bad w u) :
    deliverBranch id s = failBranch d (if w.group = 1 then 4 else 5) w.addr u := by
  unfold State.planeTo at hup
  simp [deliverBranch, hd, hfirst, hpkg, hup, h]

theorem deliverBranch_lands {u t : State} {a b w : Nat}
    (h : translateBranch d.tenant [d.dest.toNat, d.dest.toNat + 128, d.dest.toNat + 256] s = .ok [a, b, w] u) (ha : u.isLocal a = true)
    (hb : u.isLocal b = true) (hw : u.isLocal w = true) (hfreeA : homeWaits a 128 u = false) (hfreeB : homeWaits b 128 u = false)
    (hadd : homeAdd ⟨hubCore, d.tenant, 0, false⟩ w 1 (writeWhole b (d.payload.drop 128) (writeWhole a (d.payload.take 128) u)) = some t) :
    deliverBranch id s = endBranch d t := by
  unfold State.planeTo at hup
  rw [BitVec.ofNat_eq_ofNat] at hadd
  simp [deliverBranch, hd, hfirst, hpkg, hup, h, ha, hb, hw, hfreeA, hfreeB, hadd]

end

/-- The page of a delivery's signal: that of the payload, or another. -/
def Delivery.signalPage (d : Delivery) : Nat := if (d.dest.toNat + 256) / 4096 = d.dest.toNat / 4096 then 0 else 1

section
variable {d : Delivery} {s : State}

theorem deliverFar_unplaced (h : (∃ e, peerPlace 0 d.pkg d.tenant d.dest.toNat s = .error e) ∨
    ∃ e, peerPlace d.signalPage d.pkg d.tenant (d.dest.toNat + 256) s = .error e) :
    ∃ code addr, deliverFar d s = failBranch d code addr { s with tick := s.tick + 2 } := by
  unfold Delivery.signalPage at h
  unfold deliverFar
  extract_lets va s1
  split
  case h_1 => exact ⟨_, _, rfl⟩
  case h_2 => exact ⟨_, _, rfl⟩
  case h_3 ha hc => simp [va, ha, hc] at h

theorem deliverFar_placed {a c : Nat} (ha : peerPlace 0 d.pkg d.tenant d.dest.toNat s = .ok a)
    (hc : peerPlace d.signalPage d.pkg d.tenant (d.dest.toNat + 256) s = .ok c) :
    let m := (s.mem.write a (d.payload.take 128)).write (a + 128) (d.payload.drop 128)
    ∃ t, deliverFar d s = endBranch d t ∧ t.mem = m.write c (toBytes 8 (ofBytes (m.read c 8) + 1)) := by
  intro m
  unfold Delivery.signalPage at hc
  refine ⟨homeWrite c (toBytes 8 (ofBytes (m.read c 8) + 1)) (homeWrite (a + 128) (d.payload.drop 128)
    (homeWrite a (d.payload.take 128) { s with tick := s.tick + 2 })), ?_, rfl⟩
  simp only [deliverFar, ha, hc]
  rfl

theorem not_mem_deliverFar {x : Delivery} (h : x ∈ (deliverFar d s).deliveries) : x.id ≠ d.id := by
  unfold deliverFar at h
  extract_lets va s1 at h
  split at h
  · exact not_mem_failBranch d _ h
  · exact not_mem_failBranch d _ h
  · exact not_mem_endBranch d _ h

end

/-! ## Residue entries (15 R357) -/

theorem sendResidue_sends {sw port id : Nat} {s : State} {r : Residue} {d : Delivery} {ds : List Delivery}
    (hr : s.residues.find? (fun r => r.sw = sw && r.port = port && r.entry = id) = some r) (hbranches : r.branches = d :: ds) :
    let t := sendResidue sw port id s
    t.deliveries = s.deliveries ++ [d] ∧ t = { s with deliveries := t.deliveries, residues := t.residues } ∧
      ∀ x ∈ t.residues, x.sw = sw → x.port = port → x.entry = id → ds ≠ [] ∧ x.branches = ds := by
  intro t
  have ht : t = { s with
      deliveries := s.deliveries ++ [d]
      residues := if ds.isEmpty then s.residues.filter fun x => !(x.sw = sw && x.port = port && x.entry = id)
        else mapIf (fun x => x.sw = sw && x.port = port && x.entry = id) (fun x => { x with branches := ds }) s.residues } := by
    simp only [t, sendResidue, hr, hbranches]
  rw [ht]
  refine ⟨rfl, rfl, fun x hx hsw hport hentry => ?_⟩
  dsimp only at hx
  split at hx
  case isTrue =>
    have hleft := (List.mem_filter.mp hx).2
    simp [hsw, hport, hentry] at hleft
  case isFalse hsome =>
    refine ⟨fun h => hsome (by rw [h]; rfl), ?_⟩
    obtain ⟨y, -, rfl⟩ := mem_mapIf hx
    split
    case isTrue => rfl
    case isFalse hother =>
      rw [if_neg hother] at hsw hport hentry
      simp [hsw, hport, hentry] at hother

/-! ## Groups (15 R349, R350) -/

section
variable {id : Nat} {s : State}

theorem installGroup_new {t : Nat} {members : List Nat} (hid : id < 4096) (ht : t < 64) (hnew : ∀ g ∈ s.groups, g.id ≠ id) :
    installGroup id t members s = { s with groups := s.groups ++ [⟨id, t, members, id % 18⟩] } :=
  if_pos ⟨hid, ht, by simpa using hnew⟩

theorem installGroup_bad {t : Nat} {members : List Nat} (h : 4096 ≤ id ∨ 64 ≤ t ∨ ∃ g ∈ s.groups, g.id = id) :
    installGroup id t members s = s := by
  refine if_neg fun ⟨hid, ht, hnew⟩ => ?_
  obtain h | h | ⟨g, hg, hold⟩ := h
  · omega
  · omega
  · exact absurd hold (by simpa using List.all_eq_true.mp hnew g hg)

/-- The reports of a group's open rounds, as it is installed anew. -/
def reportRounds (id : Nat) (s : State) : State :=
  (s.rounds.filter fun r => r.group = id).foldl (fun s r => r.taken.foldl (fun s c => reportMember 0x0C c s) s) s

theorem reportRounds_butGangs (id : Nat) (s : State) : (reportRounds id s).butGangs = s.butGangs :=
  foldl_keeps State.butGangs (fun s (r : Round) => reportMembers_butGangs 0x0C r.taken s) _ s

theorem reinstallGroup_eq {port : Nat} (h : port < 18) : reinstallGroup id port s = { reportRounds id s with
    rounds := (reportRounds id s).rounds.filter fun r => r.group != id
    groups := mapIf (fun g => g.id = id) (fun g => { g with plane := port }) (reportRounds id s).groups } :=
  if_neg (Nat.not_le.mpr h)

theorem reportRounds_one {r : Round} {c : Contribution} (hrounds : s.rounds = [r]) (hgroup : r.group = id) (htaken : r.taken = [c])
    (hpkg : c.pkg = s.pkg.toNat) : reportRounds id s = postReport c.gang ⟨12, 0x0C, 0, false⟩ s := by
  simp [reportRounds, hrounds, hgroup, htaken, reportMember, hpkg]

end

/-! ## Elements (15 R354) -/

theorem combineElem_max (a b : Word) : combineElem 1 0 a b = if b.toInt ≤ a.toInt then a else b := by
  change (if a.slt b then b else a) = _
  by_cases h : b.toInt ≤ a.toInt
  · rw [if_pos h, if_neg (by simpa [BitVec.slt] using h)]
  · rw [if_neg h, if_pos (by simpa [BitVec.slt] using h)]

theorem combineElem_min (a b : Word) : combineElem 2 0 a b = if a.toInt ≤ b.toInt then a else b := by
  change (if b.slt a then b else a) = _
  by_cases h : a.toInt ≤ b.toInt
  · rw [if_pos h, if_neg (by simpa [BitVec.slt] using h)]
  · rw [if_neg h, if_pos (by simpa [BitVec.slt] using h)]

/-! ## The statement -/

/-- Settles O48: each event is the one function of the model that its word names, taken in its cases. -/
theorem collectiveEvents : Obligations.CollectiveEvents := by
  intro id sw port s
  refine ⟨fun c G hc hG hpkg => ?unentered, fun c G g hc hG hpkg hup hnew hfew hmore hg => ?opens,
    fun c G r hc hG hpkg hup hr hopen htwice hmore => ?twice,
    fun c G r hc hG hpkg hup hr hopen honce hdiffers hmore => ?disagrees, fun c G r hc hG hpkg hup hr hopen htaken hall hone hold => ?completes,
    fun c G hc hG hpkg hup hnew hfew hall hold => ?alone, fun d => branchBehind_iff d s, fun k q t va x => peerPlace_known,
    fun d hd h => congrArg Host.Outcome.next (deliverBranch_behind hd h), fun d hd hfirst hpkg hup => ?far,
    fun d u a b w t hd hfirst hpkg hup h ha hb hw hfreeA hfreeB hadd => ?lands, fun d u w g hd hfirst hpkg hsender hup h hu hg hlast hresidues => ?fails,
    fun r d ds hr hbranches => ⟨_, rfl, sendResidue_sends hr hbranches⟩,
    fun t members hid ht hnew => congrArg Host.Outcome.next (installGroup_new hid ht hnew),
    fun t members h => congrArg Host.Outcome.next (installGroup_bad h), fun h => congrArg Host.Outcome.next (if_pos h), fun h => ?reinstalls,
    fun a b => ⟨rfl, combineElem_max a b, combineElem_min a b, rfl⟩⟩
  case unentered =>
    have hcontributes : Contributes s id c G := ⟨hc, hG, hpkg⟩
    refine ⟨fun hup hnew hfull => congrArg Host.Outcome.next (hcontributes.takeContribution_waits hup hnew hfull), fun hdown h => ?again,
      fun g hdown h hg => ?ends⟩
    case again =>
      have hagain := (hcontributes.takeContribution_cut hdown).trans (resendContribution_again h)
      rw [hcontributes.contribution_id] at hagain
      exact congrArg Host.Outcome.next hagain
    case ends =>
      obtain rfl := hcontributes.contribution_id
      exact ⟨_, congrArg Host.Outcome.next (hcontributes.takeContribution_cut hdown), resendContribution_ends h hpkg hg⟩
  case opens =>
    have hcontributes : Contributes s id c G := ⟨hc, hG, hpkg⟩
    obtain rfl := hcontributes.contribution_id
    have hstands : takeContribution c.id s = setRound (c.newRound.plus c) (acknowledged c s) :=
      (hcontributes.takeContribution_new hup hnew hfew).trans (enterRound_stands rfl (by simp [Contribution.newRound]) (by simp [Contribution.newRound])
        (by simpa [Contribution.newRound] using hmore))
    refine ⟨_, congrArg Host.Outcome.next hstands, ?_, acknowledged_contribs c s, gang?_acknowledged c s hg, acknowledged_mem c s⟩
    rw [setRound_new (by rw [acknowledged_rounds]; exact hnew), acknowledged_rounds]
    rfl
  case twice =>
    have hfails := ((⟨hc, hG, hpkg⟩ : Contributes s id c G).takeContribution_old hup hr).trans (enterRound_twice hopen htwice)
    have hstands := failRound_stands (code := 0x0B) (s := acknowledged c s) (by rw [acknowledged_rounds]; exact List.mem_of_find?_eq_some hr) hmore
    rw [acknowledged_rounds, acknowledged_mem, acknowledged_deliveries] at hstands
    exact ⟨_, congrArg Host.Outcome.next hfails, hstands⟩
  case disagrees =>
    have hfails := ((⟨hc, hG, hpkg⟩ : Contributes s id c G).takeContribution_old hup hr).trans (enterRound_disagrees hopen honce hdiffers)
    have hstands := failRound_stands (code := 0x0A) (s := acknowledged c s) (by rw [acknowledged_rounds]; exact List.mem_of_find?_eq_some hr) hmore
    rw [acknowledged_rounds, acknowledged_mem, acknowledged_deliveries] at hstands
    exact ⟨_, congrArg Host.Outcome.next hfails, hstands⟩
  case completes =>
    obtain ⟨y, hy⟩ := List.length_eq_one_iff.mp hone
    have hcompletes := ((⟨hc, hG, hpkg⟩ : Contributes s id c G).takeContribution_old hup hr).trans
      (enterRound_completes hopen (fun x hx => (htaken x hx).1) (fun x hx => (htaken x hx).2) hall)
    have hfirst : (r.plus c).taken = [y, c] := by rw [Round.plus, hy]; rfl
    obtain ⟨hrounds, hmem, hbranches⟩ := completeRound_spec (G := G) (s := acknowledged c s) hfirst (htaken y (by simp [hy])).2
      (by rwa [acknowledged_branches, acknowledged_nextId])
    rw [acknowledged_rounds] at hrounds
    rw [acknowledged_mem] at hmem
    rw [acknowledged_nextId] at hbranches
    refine ⟨_, congrArg Host.Outcome.next hcompletes, hrounds, hmem, ?receivers, fun x hx hid => ?payload⟩
    case receivers =>
      have hreceivers := hbranches.map fun x => (x.pkg, x.gang, x.dest)
      rw [resultBranches_receivers] at hreceivers
      exact hreceivers
    case payload =>
      obtain ⟨-, hcounted, hpayload⟩ := mem_resultBranches (hbranches.mem_iff.mp (List.mem_filter.mpr ⟨hx, decide_eq_true hid⟩))
      refine ⟨hcounted, fun z hz => ?_⟩
      obtain rfl : y = z := by simpa [hy] using hz
      rw [hpayload, hfirst]
      exact roundPayload_two y _
  case alone =>
    have hcontributes : Contributes s id c G := ⟨hc, hG, hpkg⟩
    have hcompletes := (hcontributes.takeContribution_new hup hnew hfew).trans
      (enterRound_completes rfl (by simp [Contribution.newRound]) (by simp [Contribution.newRound]) fun m hm => .inl (hall m hm))
    obtain ⟨-, hmem, hbranches⟩ := completeRound_spec (G := G) (r := c.newRound.plus c) (s := acknowledged c s) rfl
      (rfl : roundFields c = roundFields c) (by rwa [acknowledged_branches, acknowledged_nextId])
    rw [acknowledged_mem] at hmem
    rw [acknowledged_nextId] at hbranches
    refine ⟨_, congrArg Host.Outcome.next hcompletes, hmem, fun x hx hid => ?_⟩
    obtain ⟨-, -, hpayload⟩ := mem_resultBranches (hbranches.mem_iff.mp (List.mem_filter.mpr ⟨hx, decide_eq_true hid⟩))
    exact hpayload.trans (roundPayload_one _)
  case far =>
    obtain rfl := delivery_id hd
    refine ⟨_, congrArg Host.Outcome.next (deliverBranch_far hd hfirst hpkg hup), fun x => not_mem_deliverFar, ?_⟩
    split
    case h_1 a c ha hc =>
      obtain ⟨t, ht, hmem⟩ := deliverFar_placed ha hc
      rw [ht, endBranch_mem, hmem]
    case h_2 hunplaced =>
      obtain ⟨code, addr, ht⟩ : ∃ code addr, deliverFar d s = failBranch d code addr { s with tick := s.tick + 2 } := by
        refine deliverFar_unplaced ?_
        by_contra hplaced
        rw [not_or, not_exists, not_exists] at hplaced
        cases ha : peerPlace 0 d.pkg d.tenant d.dest.toNat s with
        | error e => exact hplaced.1 e ha
        | ok a => cases hc : peerPlace d.signalPage d.pkg d.tenant (d.dest.toNat + 256) s with
          | error e => exact hplaced.2 e hc
          | ok c => exact hunplaced a c ha hc
      rw [ht, failBranch_mem]
  case lands => exact congrArg Host.Outcome.next (deliverBranch_lands hd hfirst hpkg hup h ha hb hw hfreeA hfreeB hadd)
  case fails =>
    obtain rfl := delivery_id hd
    refine ⟨_, congrArg Host.Outcome.next (deliverBranch_fails hd hfirst hpkg hup h), failBranch_mem .., fun x => not_mem_failBranch d u, ?_⟩
    exact gang?_failBranch (by rw [hu, hsender]) (by rw [hu, hpkg]) hg hlast hresidues
  case reinstalls =>
    have hbut := reportRounds_butGangs id s
    refine ⟨_, congrArg Host.Outcome.next (reinstallGroup_eq h), fun r hr => by simpa using (List.mem_filter.mp hr).2, ?groups,
      (State.mem_of_butGangs hbut :), (State.deliveries_of_butGangs hbut :), fun r c g hrounds hgroup htaken hpkg hg => ?report⟩
    case groups =>
      have hgroups : (reportRounds id s).groups = s.groups := (congrArg State.groups hbut :)
      exact congrArg (mapIf _ _) hgroups
    case report =>
      have hreport : (reportRounds id s).gang? c.gang = some (withReport ⟨12, 0x0C, 0, false⟩ g) := by
        rw [reportRounds_one hrounds hgroup htaken hpkg]
        exact gang?_postReport _ hg
      exact hreport

end Sys2Proof.Machine
end
